-- ==== Sys2Proof/Word.lean ====
section
/-! DEFINITION. The word types the block's commands and state are written with. -/

namespace Sys2Proof

/-- A 32-bit word: register contents, FIFO words, frame payload words. -/
abbrev W32 := BitVec 32

/-- A byte of tile memory, of a frame payload, of process data. -/
abbrev Byte := BitVec 8

/-- A 48-bit fabric address (Table 1.11). -/
abbrev FabAddr := BitVec 48

/-- Bits `[hi:lo]` of a word, as a number. -/
def W32.bits (w : W32) (hi lo : Nat) : Nat := (w.toNat >>> lo) % 2 ^ (hi + 1 - lo)

/-- Bit `i` of a word. -/
def W32.bit (w : W32) (i : Nat) : Bool := w.toNat.testBit i

/-- One bit as a number. -/
def b2n (b : Bool) : Nat := if b then 1 else 0

end Sys2Proof
end

