-- ==== Sys2Proof/Syntax.lean ====
section
/-! DEFINITION. The commands: one constructor per row of the command table, and the data their operands carry. An
operand names what the command's sender chooses or what the outside world shows at that moment (a pin level, a device's
answer, the bytes of a frame); everything the hub itself knows is read from the state. -/

namespace Sys2Proof

/-- Who makes a register access (Table 0.6): requester ID, for IDs 10 and 11 the source node and member, and whether
the access is posted. -/
structure Access where
  req : BitVec 4
  node : BitVec 8
  mem : BitVec 2
  posted : Bool
  deriving DecidableEq, Repr

/-- The 20-byte frame header of Table 9.1, field by field. -/
structure Header where
  typ : BitVec 4
  tc : BitVec 3
  x : Bool
  hops : BitVec 9
  w : Bool
  len : BitVec 14
  dnode : BitVec 8
  dmem : BitVec 2
  snode : BitVec 8
  smem : BitVec 2
  tag : BitVec 8
  d : Bool
  np : Bool
  seq : BitVec 16
  adr : BitVec 64
  deriving DecidableEq, Repr

/-- A frame: header and payload bytes, in the order they are sent (R268, R270). -/
structure Frame where
  hdr : Header
  pay : List Byte
  deriving DecidableEq, Repr

/-- A request, as the bridge issues it or as a target takes it (Tables 7.1, 7.2): operation, 48-bit fabric address,
length in bytes, requester ID at the source, source node and member, tag, AGAIN, posted, class, sequence number and
write data. Node 0 as the source names this hub itself. -/
structure Request where
  op : BitVec 4
  addr : FabAddr
  len : Nat
  req : BitVec 4
  snode : BitVec 8
  smem : BitVec 2
  tag : BitVec 8
  again : Bool
  posted : Bool
  tc : BitVec 3
  seq : BitVec 16
  data : List Byte
  deriving DecidableEq, Repr

/-- What started a warm reset (Table 1.5, Table 1.10). -/
inductive WarmCause where
  /-- A write of GLB_RST_CTL.WARM by the requester given. -/
  | software (a : Access)
  /-- Fatal-error escalation (R446). -/
  | fatal
  /-- A ring-wide reset command (R298). -/
  | ring
  deriving DecidableEq, Repr

/-- A reset that ends with the cluster, region or P-die unconfigured (R22). -/
inductive ResetUnit where
  | cluster (c : Fin 8)
  | region (r : Fin 2)
  | pdie
  deriving DecidableEq, Repr

/-- The blocks that have a commit register (Table 17.1). -/
inductive CommitBlock where
  | lane (n : Fin 64) | gno | link (l : Fin 4) | rng | drn | lmp | swc | brg
  deriving DecidableEq, Repr

/-- The blocks whose counters run in a STATMODE (R264). -/
inductive StatBlock where
  | link (l : Fin 4) | rng | drn | lmp | swc | brg
  deriving DecidableEq, Repr

/-- A character a UART received, with its marks (Table 2.19). -/
structure UartChar where
  data : BitVec 9
  idle : Bool
  brk : Bool
  framing : Bool
  parity : Bool
  deriving DecidableEq, Repr

/-- What an I2C controller met on the bus while it executed one command word (Table 2.22). -/
structure I2cBus where
  nack : Bool
  arbLost : Bool
  rd : Byte
  deriving DecidableEq, Repr

/-- What reached an I2C target (Table 2.22): a byte written, or a byte read with or without the stretch running out. -/
inductive I2cTarget where
  | write (b : Byte) (first stop : Bool)
  | read
  deriving DecidableEq, Repr

/-- What asked for an SSI sample: a write of CFG2.SAMPLE, the PERIOD timer, or the drone-cycle boundary. -/
inductive SsiTrigger where
  | software (a : Access) | period | cycle
  deriving DecidableEq, Repr

/-- How a device bus access ended (R71). -/
inductive DeviceAnswer where
  | ok (data : List Byte)
  | nack
  | stretch
  | noDevice
  | isduRefused (code : BitVec 16)
  | poison
  deriving DecidableEq, Repr

/-- A CAN frame on the bus. -/
structure CanFrame where
  ide : Bool
  fdf : Bool
  brs : Bool
  esi : Bool
  rtr : Bool
  ident : BitVec 29
  dlc : BitVec 4
  data : List Byte
  deriving DecidableEq, Repr

/-- An error that ends a CAN frame: its LEC code (Table 4.2), where it fell, and the error-counter event of ISO
11898-1 it is. -/
structure CanError where
  code : BitVec 3
  dataPhase : Bool
  transmitter : Bool
  ctrlOrData : Bool
  dominantAfterFlag : Bool
  passiveNoDominant : Bool
  stuffInArb : Bool
  deriving DecidableEq, Repr

/-- What wakes a sleeping CAN controller (R138). -/
inductive CanWake where
  | dominant | frame (f : CanFrame) | request
  deriving DecidableEq, Repr

/-- An event of the Clause 99 verify exchange (R247). -/
inductive VerifyEvent where
  | verifyReceived | responseReceived | timerExpired
  deriving DecidableEq, Repr

/-- How a wait inside a partition ends when its condition does not hold at once (R367, R384): it times out, it is met
in time, or the DRAM training it waits for ends well with these values. -/
inductive Wait where
  | timeout | met | trained (vals : List W32)
  deriving DecidableEq, Repr

/-- A partition of a bundle: its PID word, the bytes of its image tiles, the digest its table entry states (Table 12.2),
and how the waits inside it end. -/
structure Partition where
  pid : W32
  raw : List Byte
  digest : BitVec 256
  waits : List Wait
  deriving DecidableEq, Repr

/-- What the boot ROM meets: the bundle member 0 forwards, for a stack boot (Table 12.6), and how the waits end. -/
structure BootSource where
  bundle : List Byte
  waits : List Wait
  deriving DecidableEq, Repr

/-- Where the bulk data of a mailbox command lies (R396): in the host window from a tile, or behind the message. -/
inductive Bulk where
  | window (tile : Nat)
  | inline (data : List Byte)
  deriving DecidableEq, Repr

/-- A host transmit descriptor and the buffer bytes it names (Table 13.2). -/
structure TxDesc where
  words : List W32
  buf : List Byte
  deriving DecidableEq, Repr

/-- How a frame's last byte arrives (R278, R279): good; failed by its CRC, cut short or with an uncorrectable FEC
codeword; or marked by an eclipse. -/
inductive FrameEnd where
  | good | bad | eclipsed
  deriving DecidableEq, Repr

/-- What a link's PCS and MAC merge report with a received frame (R241, R249): cut short by a loss of block lock, a
reassembly error, codewords that FEC corrected and that it could not. -/
structure RxEnd where
  cut : Bool := false
  mm : Bool := false
  corr : Nat := 0
  unc : Nat := 0
  deriving DecidableEq, Repr

/-- A link and the direction in which LPI begins: sent, or received (R261). -/
structure LpiAt where
  link : Fin 4
  rx : Bool := false
  deriving DecidableEq, Repr


/-- The commands the block takes: one constructor for each row of the command table. -/
inductive Instr where
  /-- REGISTER_WRITE, R466. -/
  | registerWrite (a : Access) (addr : W32) (v : W32) (aligned32 : Bool)
  /-- COMMIT_GO, R7. -/
  | commitGo (a : Access) (b : CommitBlock)
  /-- COUNTER_READ_CLEAR, R264. -/
  | counterReadClear (a : Access) (addr : W32)
  /-- DIE_LINK_FLIT_FAIL, R17. -/
  | dieLinkFlitFail (r : Fin 2)
  /-- COLD_RESET, R21. -/
  | coldReset (strap : BitVec 4)
  /-- WARM_RESET, R21. -/
  | warmReset (why : WarmCause)
  /-- PDIE_RESET, R21. -/
  | pdieReset (a : Access)
  /-- REGION_RESET, R21. -/
  | regionReset (a : Access) (r : Fin 2)
  /-- CLUSTER_RESET, R21. -/
  | clusterReset (a : Access) (c : Fin 8)
  /-- RESET_COMPLETE, R22. -/
  | resetComplete (u : ResetUnit)
  /-- LANE_RESET, R21. -/
  | laneReset (a : Access) (n : Fin 64)
  /-- LANE_RESET_END, R44. -/
  | laneResetEnd (n : Fin 64)
  /-- LANE_FUNC_WRITE, R37. -/
  | laneFuncWrite (a : Access) (n : Fin 64) (v : W32)
  /-- LANE_ENABLE, R44. -/
  | laneEnable (a : Access) (n : Fin 64)
  /-- LANE_DISABLE, R45. -/
  | laneDisable (a : Access) (n : Fin 64)
  /-- FLUSH_RX, R41. -/
  | flushRx (a : Access) (n : Fin 64)
  /-- FLUSH_TX, R41. -/
  | flushTx (a : Access) (n : Fin 64)
  /-- TXDATA_PUSH, R48. -/
  | txdataPush (a : Access) (n : Fin 64) (v : W32)
  /-- RXDATA_POP, R48. -/
  | rxdataPop (a : Access) (n : Fin 64)
  /-- OUT_LATCH_WRITE, R58. -/
  | outLatchWrite (a : Access) (n : Fin 64) (v : BitVec 3)
  /-- BANK_VOLTAGE_FAULT, R55. -/
  | bankVoltageFault (c : Fin 8)
  /-- BANK_VOLTAGE_OK, R55. -/
  | bankVoltageOk (c : Fin 8)
  /-- LANE_CAUSE_CLEAR, R73. -/
  | laneCauseClear (n : Fin 64)
  /-- LANE_HOLD_EXPIRE, R74. -/
  | laneHoldExpire (n : Fin 64)
  /-- PIN_RAW_CHANGE, R59. -/
  | pinRawChange (n : Fin 64) (p : Fin 3) (level : Bool)
  /-- DEBOUNCE_ACCEPT, R59. -/
  | debounceAccept (n : Fin 64) (p : Fin 3)
  /-- PWM_PERIOD_END, R160. -/
  | pwmPeriodEnd (n : Fin 64)
  /-- UART_CHAR_SENT, R61. -/
  | uartCharSent (n : Fin 64)
  /-- UART_CHAR_RECEIVED, R61. -/
  | uartCharReceived (n : Fin 64) (ch : UartChar)
  /-- SPI_STREAM_WORD, R63. -/
  | spiStreamWord (n : Fin 64) (rx : W32)
  /-- SPI_TARGET_WORD, R63. -/
  | spiTargetWord (n : Fin 64) (rx : W32)
  /-- I2C_COMMAND_WORD, R64. -/
  | i2cCommandWord (n : Fin 64) (bus : I2cBus)
  /-- I2C_STRETCH_TIMEOUT, R65. -/
  | i2cStretchTimeout (n : Fin 64)
  /-- I2C_BUS_CLEAR, R65. -/
  | i2cBusClear (n : Fin 64) (released : Bool)
  /-- I2C_BUS_STUCK, R65. -/
  | i2cBusStuck (n : Fin 64)
  /-- I2C_ALERT, R65. -/
  | i2cAlert (n : Fin 64)
  /-- I2C_TARGET_BYTE, R64. -/
  | i2cTargetByte (n : Fin 64) (ev : I2cTarget)
  /-- SSI_SAMPLE, R66. -/
  | ssiSample (n : Fin 64) (trig : SsiTrigger)
  /-- SSI_SAMPLE_DONE, R66. -/
  | ssiSampleDone (n : Fin 64) (raw : W32) (dataHigh : Bool) (good : Bool)
  /-- SDCI_WAKEUP, R67. -/
  | sdciWakeup (n : Fin 64)
  /-- SDCI_CONNECT, R67. -/
  | sdciConnect (n : Fin 64) (com : BitVec 2)
  /-- SDCI_DEVICE_LOST, R67. -/
  | sdciDeviceLost (n : Fin 64)
  /-- SDCI_DEVICE_EVENT, R67. -/
  | sdciDeviceEvent (n : Fin 64) (code : BitVec 16)
  /-- SDCI_M_SEQUENCE, R67. -/
  | sdciMSequence (n : Fin 64) (pdi : List Byte) (good : Bool)
  /-- QUAD_COUNT, R68. -/
  | quadCount (n : Fin 64) (qa : Bool) (qb : Bool)
  /-- QUAD_Z_EDGE, R68. -/
  | quadZEdge (n : Fin 64)
  /-- QUAD_PRESET, R68. -/
  | quadPreset (a : Access) (n : Fin 64) (v : W32)
  /-- STREAM_WRITE, R70. -/
  | streamWrite (rq : Request)
  /-- STREAM_READ, R49. -/
  | streamRead (rq : Request)
  /-- SPI_DEVICE_ACCESS, R503. -/
  | spiDeviceAccess (rq : Request)
  /-- I2C_DEVICE_ACCESS, R503. -/
  | i2cDeviceAccess (rq : Request)
  /-- SDCI_PD_ACCESS, R69. -/
  | sdciPdAccess (rq : Request)
  /-- SDCI_ISDU_ACCESS, R71. -/
  | sdciIsduAccess (rq : Request)
  /-- SSI_DEVICE_READ, R69. -/
  | ssiDeviceRead (rq : Request)
  /-- QUAD_DEVICE_ACCESS, R69. -/
  | quadDeviceAccess (rq : Request)
  /-- PINS_DEVICE_ACCESS, R69. -/
  | pinsDeviceAccess (rq : Request)
  /-- DEVICE_ACCESS_DONE, R71. -/
  | deviceAccessDone (n : Fin 64) (ans : DeviceAnswer)
  /-- NOP, R83. -/
  | nop (c : Fin 8) (x : Fin 16)
  /-- HALT, R83. -/
  | halt (c : Fin 8) (x : Fin 16)
  /-- LI, R83. -/
  | li (c : Fin 8) (x : Fin 16)
  /-- LIH, R83. -/
  | lih (c : Fin 8) (x : Fin 16)
  /-- ALU, R84. -/
  | alu (c : Fin 8) (x : Fin 16)
  /-- ALUI, R84. -/
  | alui (c : Fin 8) (x : Fin 16)
  /-- BR, R84. -/
  | br (c : Fin 8) (x : Fin 16)
  /-- DJNZ, R83. -/
  | djnz (c : Fin 8) (x : Fin 16)
  /-- JMP, R83. -/
  | jmp (c : Fin 8) (x : Fin 16)
  /-- CALL, R83. -/
  | call (c : Fin 8) (x : Fin 16)
  /-- RET, R83. -/
  | ret (c : Fin 8) (x : Fin 16)
  /-- TSET, R83. -/
  | tset (c : Fin 8) (x : Fin 16)
  /-- TADD, R85. -/
  | tadd (c : Fin 8) (x : Fin 16)
  /-- TADDB, R85. -/
  | taddb (c : Fin 8) (x : Fin 16)
  /-- WAITT, R83. -/
  | waitt (c : Fin 8) (x : Fin 16)
  /-- WEDGE, R103. -/
  | wedge (c : Fin 8) (x : Fin 16)
  /-- WEDGE_EDGE_FOUND, R103. -/
  | wedgeEdgeFound (c : Fin 8) (x : Fin 16) (rising : Bool)
  /-- WEDGE_TIMEOUT, R103. -/
  | wedgeTimeout (c : Fin 8) (x : Fin 16)
  /-- ACT, R86. -/
  | act (c : Fin 8) (x : Fin 16)
  /-- ACTG, R83. -/
  | actg (c : Fin 8) (x : Fin 16)
  /-- SHO, R93. -/
  | sho (c : Fin 8) (x : Fin 16)
  /-- SHI, R93. -/
  | shi (c : Fin 8) (x : Fin 16)
  /-- BPIN, R95. -/
  | bpin (c : Fin 8) (x : Fin 16)
  /-- PULL, R100. -/
  | pull (c : Fin 8) (x : Fin 16)
  /-- PUSH, R100. -/
  | push (c : Fin 8) (x : Fin 16)
  /-- SIG, R101. -/
  | sig (c : Fin 8) (x : Fin 16)
  /-- FRD, R102. -/
  | frd (c : Fin 8) (x : Fin 16)
  /-- FRD_COMPLETION, R102. -/
  | frdCompletion (c : Fin 8) (x : Fin 16) (st : BitVec 4) (salvaged : Bool) (data : W32)
  /-- FWR, R102. -/
  | fwr (c : Fin 8) (x : Fin 16)
  /-- MOVS, R82. -/
  | movs (c : Fin 8) (x : Fin 16)
  /-- MOVT, R82. -/
  | movt (c : Fin 8) (x : Fin 16)
  /-- ACTION_RETIRE, R89. -/
  | actionRetire (c : Fin 8)
  /-- SAMPLE_RESOLVE, R92, of the sample of a tick. -/
  | sampleResolve (c : Fin 8) (x : Fin 16) (tick : Nat)
  /-- REED_RUN, R105. -/
  | reedRun (a : Access) (c : Fin 8)
  /-- REED_STOP, R106. -/
  | reedStop (a : Access) (c : Fin 8)
  /-- REED_STOPPED, R106. -/
  | reedStopped (c : Fin 8)
  /-- REED_FLUSH, R108. -/
  | reedFlush (a : Access) (c : Fin 8)
  /-- CONTEXT_ENABLE, R109. -/
  | contextEnable (a : Access) (c : Fin 8) (x : Fin 16)
  /-- CONTEXT_DISABLE, R109. -/
  | contextDisable (a : Access) (c : Fin 8) (x : Fin 16)
  /-- SYNC_ARM, R114. -/
  | syncArm (a : Access) (c : Fin 8) (v : W32)
  /-- SYNC_DISARM, R117. -/
  | syncDisarm (a : Access) (c : Fin 8)
  /-- SYNC_TRIGGER, R114. -/
  | syncTrigger (c : Fin 8)
  /-- SYNC_TRIGGER_GNOMON, R115. -/
  | syncTriggerGnomon
  /-- CAN_ENABLE, R122. -/
  | canEnable (a : Access) (k : Fin 16)
  /-- CAN_DISABLE, R122. -/
  | canDisable (a : Access) (k : Fin 16)
  /-- CAN_INTEGRATED, R122. -/
  | canIntegrated (k : Fin 16)
  /-- CAN_RAMINIT, R125. -/
  | canRaminit (a : Access) (k : Fin 16)
  /-- CAN_RAMINIT_DONE, R125. -/
  | canRaminitDone (k : Fin 16)
  /-- CAN_FRAME_RECEIVED, R127. -/
  | canFrameReceived (k : Fin 16) (f : CanFrame)
  /-- CAN_TXREQ, R130. -/
  | canTxreq (a : Access) (k : Fin 16) (j : Fin 128)
  /-- CAN_TXCANCEL, R133. -/
  | canTxcancel (a : Access) (k : Fin 16) (j : Fin 128)
  /-- CAN_SOF, R130. -/
  | canSof (k : Fin 16)
  /-- CAN_ARB_LOST, R131. -/
  | canArbLost (k : Fin 16)
  /-- CAN_FRAME_SENT, R130. -/
  | canFrameSent (k : Fin 16)
  /-- CAN_BUS_ERROR, R134. -/
  | canBusError (k : Fin 16) (e : CanError)
  /-- CAN_BUSOFF_RECOVER, R134. -/
  | canBusoffRecover (k : Fin 16)
  /-- CAN_SLEEP_REQUEST, R137. -/
  | canSleepRequest (a : Access) (k : Fin 16) (on : Bool)
  /-- CAN_SLEEP_ENTER, R137. -/
  | canSleepEnter (k : Fin 16)
  /-- CAN_WAKE, R138. -/
  | canWake (k : Fin 16) (why : CanWake)
  /-- CAN_TUNNEL_SEND, R140. -/
  | canTunnelSend (k : Fin 16)
  /-- CAN_RAM_ACCESS, R142. -/
  | canRamAccess (rq : Request)
  /-- CAN_TXREQ_ACCESS, R142. -/
  | canTxreqAccess (rq : Request)
  /-- GNO_COMMIT, R145. -/
  | gnoCommit (a : Access)
  /-- GNO_APPLY, R145. -/
  | gnoApply
  /-- GNO_NOW_READ, R148. -/
  | gnoNowRead (a : Access)
  /-- GNO_SHADOW_READ, R148. -/
  | gnoShadowRead (a : Access) (hi : Bool)
  /-- GNO_PAIR, R171. -/
  | gnoPair (a : Access)
  /-- GNO_PAIR_LATCH, R171. -/
  | gnoPairLatch
  /-- ANCHOR_SHADOW_WRITE, R154. -/
  | anchorShadowWrite (a : Access) (c : Fin 8) (which : Fin 5) (v : W32)
  /-- ANCHOR_APPLY, R154. -/
  | anchorApply (a : Access) (c : Fin 8) (v : W32)
  /-- ACNTL_READ, R171. -/
  | acntlRead (a : Access) (c : Fin 8)
  /-- TIMED, R157. -/
  | timed (f : Frame)
  /-- PULSE_EDGE, R163. -/
  | pulseEdge (g : Fin 4) (rising : Bool)
  /-- PULSE_ROUTE_INSERT, R163. -/
  | pulseRouteInsert (g : Fin 4) (rising : Bool)
  /-- PPS_IN_EDGE, R165. -/
  | ppsInEdge
  /-- PTP, R168. -/
  | ptp (port : Fin 4) (f : Frame)
  /-- PTP_TX_STAMP, R169. -/
  | ptpTxStamp (port : Fin 4) (seq : BitVec 16) (dom : Byte) (typ : BitVec 4)
  /-- TWO_STEP_EXPIRE, R168. -/
  | twoStepExpire (port : Fin 4) (dom : Byte) (seq : BitVec 16)
  /-- TSQ_POP, R171. -/
  | tsqPop (a : Access) (port : Fin 4)
  /-- QUARANTINE_RETEST, R182. -/
  | quarantineRetest (i : Fin 64) (fail : Option Bool)
  /-- SCRUB_STEP, R184. -/
  | scrubStep (busy : Bool)
  /-- SWITCH_ENABLE, R186. -/
  | switchEnable (a : Access)
  /-- FRAME_RECEIVED, R190. -/
  | frameReceived (port : Fin 7) (f : Frame) (fin : FrameEnd)
  /-- FRAME_EGRESS, R193. -/
  | frameEgress (port : Fin 7)
  /-- SPILL_WRITE_DONE, R194. -/
  | spillWriteDone (q : Fin 56)
  /-- REFILL, R196. -/
  | refill (q : Fin 56) (bad : List Nat)
  /-- TILE_INJECT, R200. -/
  | tileInject (a : Access) (v : W32)
  /-- BRIDGE_ISSUE, R206. -/
  | bridgeIssue (rq : Request)
  /-- TAG_AVAILABLE, R207. -/
  | tagAvailable
  /-- READ, R201. -/
  | read (rq : Request)
  /-- WRITE, R201. -/
  | write (rq : Request)
  /-- LOCK_READ, R230. -/
  | lockRead (rq : Request)
  /-- LOCK_WRITE, R230. -/
  | lockWrite (rq : Request)
  /-- UNLOCK, R230. -/
  | unlock (rq : Request)
  /-- CPL, R209. -/
  | cpl (f : Frame)
  /-- REISSUE, R216. -/
  | reissue (tag : Fin 256)
  /-- COMPLETION_TIMEOUT, R208. -/
  | completionTimeout (tag : Fin 256)
  /-- TAG_HOLD_EXPIRE, R209. -/
  | tagHoldExpire (tag : Fin 256)
  /-- RETRY_WAIT_EXPIRE, R216. -/
  | retryWaitExpire (slot : Fin 128)
  /-- SLOT_ACCESS_END, R216. -/
  | slotAccessEnd (slot : Fin 128) (ans : DeviceAnswer)
  /-- SLOT_EXPIRE, R218. -/
  | slotExpire (slot : Fin 128)
  /-- ECHO_FETCH, R223. -/
  | echoFetch (i : Fin 16)
  /-- ECHO_FRESH_EXPIRE, R225. -/
  | echoFreshExpire (slot : Fin 128)
  /-- ECHO_STREAM_CLEAR, R224. -/
  | echoStreamClear (i : Fin 16)
  /-- SALVAGE_EXPIRE, R228. -/
  | salvageExpire (c : Fin 8) (e : Fin 16)
  /-- SALVAGE_CLEAR, R228. -/
  | salvageClear (a : Access) (v : W32)
  /-- LOCK_RESERVE_EXPIRE, R231. -/
  | lockReserveExpire (n : Fin 64)
  /-- LOCK_IDLE_BREAK, R233. -/
  | lockIdleBreak (n : Fin 64)
  /-- EVENT, R455. -/
  | event (f : Frame)
  /-- EVENT_GAP_EXPIRE, R235. -/
  | eventGapExpire (node : BitVec 8)
  /-- TUNNEL, R236. -/
  | tunnel (f : Frame)
  /-- UART_TUNNEL_SEND, R237. -/
  | uartTunnelSend (k : Fin 16)
  /-- BRIDGE_DISABLE, R239. -/
  | bridgeDisable (a : Access)
  /-- LINK_ENABLE, R245. -/
  | linkEnable (a : Access) (l : Fin 4)
  /-- LINK_DISABLE, R256. -/
  | linkDisable (a : Access) (l : Fin 4)
  /-- MODULE_INSERTED, R243. -/
  | moduleInserted (l : Fin 2)
  /-- MODULE_INIT_DONE, R243. -/
  | moduleInitDone (l : Fin 2)
  /-- MODULE_REMOVED, R243. -/
  | moduleRemoved (l : Fin 2)
  /-- LOS_ASSERT, R243. -/
  | losAssert (l : Fin 2)
  /-- BLOCK_LOCK_LOSS, R246. -/
  | blockLockLoss (l : Fin 4) (hiBer : Bool)
  /-- BEACON_MISS, R246. -/
  | beaconMiss (l : Fin 4)
  /-- BEACON_SEND, R248. -/
  | beaconSend (l : Fin 4)
  /-- BEACON_RECEIVED, R274. -/
  | beaconReceived (l : Fin 4) (f : Frame)
  /-- LINK_HOLD_EXPIRE, R256. -/
  | linkHoldExpire (l : Fin 4)
  /-- SFP_I2C_GO, R244. -/
  | sfpI2cGo (a : Access) (l : Fin 2) (v : W32)
  /-- SFP_I2C_DONE, R244. -/
  | sfpI2cDone (l : Fin 2) (data : Byte) (nack : Bool)
  /-- GCL_SWAP, R252. -/
  | gclSwap (l : Fin 4)
  /-- GATE_INTERVAL_END, R250. -/
  | gateIntervalEnd (l : Fin 4)
  /-- PFC, R255. -/
  | pfc (l : Fin 4) (f : Frame)
  /-- PFC_REPEAT, R254. -/
  | pfcRepeat (l : Fin 4) (cls : Fin 8)
  /-- PAUSE_EXPIRE, R255. -/
  | pauseExpire (l : Fin 4) (cls : Fin 8)
  /-- SHIFT_WINDOW_END, R257, of the window that began at a tick. -/
  | shiftWindowEnd (l : Fin 2) (start : Nat)
  /-- SHIFT_PROPOSE, R257. -/
  | shiftPropose (l : Fin 2) (f : Frame)
  /-- SHIFT_AGREE, R257. -/
  | shiftAgree (l : Fin 2) (f : Frame)
  /-- SHIFT_REJECT, R257. -/
  | shiftReject (l : Fin 2) (f : Frame)
  /-- SHIFT_REQ, R297. -/
  | shiftReq (f : Frame)
  /-- SHIFT_ANS, R259. -/
  | shiftAns (f : Frame)
  /-- SHIFT_DRAIN_END, R258. -/
  | shiftDrainEnd (l : Fin 2)
  /-- SHIFT_RETRAIN_TIMEOUT, R260. -/
  | shiftRetrainTimeout (l : Fin 2)
  /-- LPI_ENTER, R261. -/
  | lpiEnter (d : LpiAt)
  /-- FLARE_SEND, R263. -/
  | flareSend (a : Access) (l : Fin 4)
  /-- FLARE_DONE, R263. -/
  | flareDone (l : Fin 4)
  /-- STATS_PERIOD_BOUNDARY, R265. -/
  | statsPeriodBoundary (b : StatBlock)
  /-- RING_FRAME_RECEIVED, R275; `ecl` where the error control block ends the frame (R278). -/
  | ringFrameReceived (port : Fin 4) (bytes : List Byte) (rx : RxEnd) (ecl : Bool)
  /-- JOIN_REQ_SEND, R282. -/
  | joinReqSend
  /-- JOIN_REQ, R283. -/
  | joinReq (f : Frame)
  /-- JOIN_ACK, R282. -/
  | joinAck (f : Frame)
  /-- JOIN_NAK, R282. -/
  | joinNak (f : Frame)
  /-- ELECT_START, R285. -/
  | electStart
  /-- ELECT, R285. -/
  | elect (f : Frame)
  /-- ELECT_WIN, R285. -/
  | electWin
  /-- MASTER_HB_SEND, R286. -/
  | masterHbSend
  /-- MASTER_HB, R287. -/
  | masterHb (f : Frame)
  /-- MASTER_LOST, R286. -/
  | masterLost
  /-- ID_PUSH, R288. -/
  | idPush (f : Frame)
  /-- TOPO_SWEEP, R289. -/
  | topoSweep
  /-- TOPO, R289. -/
  | topo (port : Fin 2) (f : Frame)
  /-- TOPO_MAP, R289. -/
  | topoMap (f : Frame)
  /-- WRAP, R289. -/
  | wrap (f : Frame)
  /-- LINKUP, R295. -/
  | linkup (f : Frame)
  /-- UNWRAP_HOLD_EXPIRE, R295. -/
  | unwrapHoldExpire (a : BitVec 8) (b : BitVec 8)
  /-- UNWRAP, R295. -/
  | unwrap (f : Frame)
  /-- UNWRAP_TIME, R295. -/
  | unwrapTime
  /-- WRAP_PLAN, R296. -/
  | wrapPlan (f : Frame)
  /-- WRAP_PLAN_TIME, R296. -/
  | wrapPlanTime
  /-- RING_RESET_FRAME, R298. -/
  | ringResetFrame (f : Frame)
  /-- RING_RESET_TIME, R298. -/
  | ringResetTime
  /-- DRONE_ENABLE, R307. -/
  | droneEnable (a : Access)
  /-- CYCLE_START, R299. -/
  | cycleStart
  /-- FREEZE_DONE, R324. -/
  | freezeDone
  /-- DRONE_SEND, R299. -/
  | droneSend
  /-- DRONE, R302. -/
  | drone (port : Fin 2) (f : Frame) (fin : FrameEnd)
  /-- DRONE_REGEN, R304. -/
  | droneRegen (dir : Fin 2) (frm : Fin 64)
  /-- DRN_LATE_SEND, R304. -/
  | drnLateSend (dir : Fin 2) (frm : Fin 64)
  /-- DRN_LATE, R304. -/
  | drnLate (f : Frame)
  /-- DRONE_CLOSE, R299. -/
  | droneClose
  /-- DRONE_APPLY, R328. -/
  | droneApply
  /-- CORE_INSTRUCTION, R308. -/
  | coreInstruction (n : Fin 8)
  /-- TILE_BUFFER_FILL, R311. -/
  | tileBufferFill (n : Fin 8) (tile : Fin 16384)
  /-- TBOP_WRITE_BACK, R315. -/
  | tbopWriteBack (n : Fin 8) (addr : W32)
  /-- TBOP_WRITE_BACK_INVALIDATE, R315. -/
  | tbopWriteBackInvalidate (n : Fin 8) (addr : W32)
  /-- TBOP_INVALIDATE, R315. -/
  | tbopInvalidate (n : Fin 8) (addr : W32)
  /-- TBOP_ALLOCATE_ZERO, R315. -/
  | tbopAllocateZero (n : Fin 8) (addr : W32)
  /-- EVENT_POP, R319. -/
  | eventPop (n : Fin 8)
  /-- EVENT_POST, R317. -/
  | eventPost (a : Access) (n : Fin 8) (code : BitVec 16)
  /-- ISSUE_GO, R320. -/
  | issueGo (n : Fin 8)
  /-- ISSUE_COMPLETION, R322. -/
  | issueCompletion (n : Fin 8) (d : Fin 4) (st : BitVec 4) (salvaged : Bool) (data : List Byte)
  /-- ISSUE_SLOT_FREE, R322. -/
  | issueSlotFree (n : Fin 8) (d : Fin 4)
  /-- SEM_LOCK_READ, R329. -/
  | semLockRead (a : Access) (i : Fin 32)
  /-- SEM_LOCK_RELEASE, R329. -/
  | semLockRelease (a : Access) (i : Fin 32) (v : W32)
  /-- SEM_FORCE, R331. -/
  | semForce (a : Access) (i : Fin 32)
  /-- CORE_START, R332. -/
  | coreStart (a : Access) (n : Fin 8)
  /-- CORE_STOP, R333. -/
  | coreStop (a : Access) (n : Fin 8)
  /-- CORE_STOPPED, R333. -/
  | coreStopped (n : Fin 8)
  /-- WATCHDOG_KICK, R334. -/
  | watchdogKick (n : Fin 8)
  /-- WATCHDOG_EXPIRE, R334. -/
  | watchdogExpire (n : Fin 8)
  /-- TCM_DATA_ACCESS, R335. -/
  | tcmDataAccess (a : Access) (n : Fin 8) (wr : Option W32)
  /-- RELAY_COPY_COMPLETE, R343. -/
  | relayCopyComplete
  /-- LAMP_ENABLE, R359. -/
  | lampEnable (a : Access)
  /-- LAMP_START_WAIT, R359. -/
  | lampStartWait
  /-- LEASE_RENEW, R350. -/
  | leaseRenew
  /-- LEASE, R351. -/
  | lease (f : Frame)
  /-- RLEASE_WRITE, R351. -/
  | rleaseWrite (a : Access) (v : W32)
  /-- LEASE_LAPSE, R350. -/
  | leaseLapse
  /-- LEASE_DEADLINE, R351. -/
  | leaseDeadline
  /-- LAMP_ACK, R350. -/
  | lampAck (f : Frame)
  /-- ACK_MISSING, R350. -/
  | ackMissing
  /-- HEALTH_LOSS, R352. -/
  | healthLoss
  /-- FORCE_REL, R352. -/
  | forceRel (a : Access)
  /-- FORCE_TAKE, R352. -/
  | forceTake (a : Access)
  /-- LAMP_RELEASE, R352. -/
  | lampRelease (f : Frame)
  /-- RELEASE_GUARD_EXPIRE, R352. -/
  | releaseGuardExpire
  /-- MEMBER_DRIVE_EXPIRE, R349. -/
  | memberDriveExpire
  /-- MEMBER_BEAT, R350. -/
  | memberBeat (a : Access) (m : BitVec 2)
  /-- STEWARD_HEARTBEAT, R350. -/
  | stewardHeartbeat (a : Access)
  /-- LAMP_INPUT, R354. -/
  | lampInput (f : Frame)
  /-- STACK_ITEM, R354. -/
  | stackItem (a : Access) (v : W32)
  /-- LAMP_MARK, R354. -/
  | lampMark (f : Frame)
  /-- MARK_WAIT_EXPIRE, R354. -/
  | markWaitExpire
  /-- CPLM, R355. -/
  | cplm (f : Frame)
  /-- LAMP_SIG, R356. -/
  | lampSig (f : Frame)
  /-- LAMP_RELAY, R357. -/
  | lampRelay (f : Frame)
  /-- RECLAIM_START, R360. -/
  | reclaimStart
  /-- CLAIM, R360. -/
  | claim (f : Frame)
  /-- GRANT, R360. -/
  | grant (f : Frame)
  /-- REFUSE, R361. -/
  | refuse (f : Frame)
  /-- HANDOVER_RELEASE, R360. -/
  | handoverRelease
  /-- CLAIM_TAKE, R360. -/
  | claimTake
  /-- CLAIM_TIMEOUT, R360. -/
  | claimTimeout
  /-- BOOT, R371. -/
  | boot (src : BootSource)
  /-- PARTITION_APPLY, R372. -/
  | partitionApply (p : Partition)
  /-- RECORD_NOP, R367. -/
  | recordNop
  /-- RECORD_WRITE, R367. -/
  | recordWrite (off : W32) (v : W32)
  /-- RECORD_BLOCK, R367. -/
  | recordBlock (off : W32) (fixed : Bool) (ws : List W32)
  /-- RECORD_POLL, R367. -/
  | recordPoll (off : W32) (mask : W32) (v : W32) (timeoutUs : Nat) (wait : Wait)
  /-- RECORD_COMMIT, R375. -/
  | recordCommit (off : W32) (wait : Wait)
  /-- RECORD_END, R367. -/
  | recordEnd
  /-- IMG_BEGIN, R378. -/
  | imgBegin (ch : Fin 4) (mid : Byte) (len : Nat)
  /-- IMG_BLOCK, R378. -/
  | imgBlock (ch : Fin 4) (mid : Byte) (off : Nat) (bulk : Bulk)
  /-- IMG_END, R378. -/
  | imgEnd (ch : Fin 4) (mid : Byte)
  /-- IMG_ACTIVATE_RESET, R380. -/
  | imgActivateReset (ch : Fin 4) (mid : Byte) (t : BitVec 64)
  /-- IMG_ACTIVATE_LIVE, R381. -/
  | imgActivateLive (ch : Fin 4) (mid : Byte) (k : Nat)
  /-- IMG_ACTIVATE_CANCEL, R380. -/
  | imgActivateCancel (ch : Fin 4) (mid : Byte)
  /-- ACTIVATE_RESET_TIME, R380. -/
  | activateResetTime
  /-- LIVE_LOCK, R382. -/
  | liveLock (waits : List Wait)
  /-- LIVE_DRONE_WRITE, R382. -/
  | liveDroneWrite (waits : List Wait)
  /-- LIVE_SWITCH, R382. -/
  | liveSwitch
  /-- IMG_CONFIRM, R379. -/
  | imgConfirm (ch : Fin 4) (mid : Byte)
  /-- IMG_REAPPLY, R376. -/
  | imgReapply (ch : Fin 4) (mid : Byte) (mask : BitVec 8) (waits : List Wait)
  /-- IMG_STATUS, R377. -/
  | imgStatus (ch : Fin 4) (mid : Byte)
  /-- SESSION_TIMEOUT, R378. -/
  | sessionTimeout
  /-- TRIAL_STOP, R380. -/
  | trialStop (a : Access)
  /-- TRIAL_EXPIRE, R380. -/
  | trialExpire
  /-- PRLOCK_WRITE, R382. -/
  | prlockWrite (a : Access) (v : W32)
  /-- DRAM_TRAIN, R384. -/
  | dramTrain (a : Access) (v : W32)
  /-- DRAM_TRAIN_DONE, R384. -/
  | dramTrainDone (ok : Bool) (vals : List W32)
  /-- HOST_RESET, R387. -/
  | hostReset
  /-- ENDPOINT_READY, R387. -/
  | endpointReady
  /-- BAR0_ACCESS, R386. -/
  | bar0Access (off : W32) (len : Nat) (wr : Option W32)
  /-- BAR2_ACCESS, R386. -/
  | bar2Access (off : W32) (len : Nat) (wr : Option (List Byte))
  /-- TX_ETH, R390. -/
  | txEth (ring : Fin 8) (d : TxDesc)
  /-- TX_PTP, R390. -/
  | txPtp (ring : Fin 8) (d : TxDesc)
  /-- TX_REQUEST, R390. -/
  | txRequest (ring : Fin 8) (d : TxDesc)
  /-- TX_TIMED, R390. -/
  | txTimed (ring : Fin 8) (d : TxDesc)
  /-- RX_DELIVER, R391. -/
  | rxDeliver (ring : Fin 8) (f : Frame) (good : Bool) (bufs : List Nat)
  /-- RX_WAIT_EXPIRE, R392. -/
  | rxWaitExpire (ring : Fin 8)
  /-- MBX_IN_PUSH, R397. -/
  | mbxInPush (a : Access) (k : Fin 4) (v : W32)
  /-- MBX_OUT_POP, R397. -/
  | mbxOutPop (a : Access) (k : Fin 4)
  /-- MBX2_WORD_ACCESS, R401. -/
  | mbx2WordAccess (a : Access) (wr : Option W32)
  /-- MGMT, R402. -/
  | mgmt (f : Frame)
  /-- PING, R404. -/
  | ping (ch : Fin 4) (mid : Byte)
  /-- LOG_READ, R404. -/
  | logRead (ch : Fin 4) (mid : Byte) (first : Nat) (count : Nat)
  /-- LOG_CLEAR, R404. -/
  | logClear (ch : Fin 4) (mid : Byte)
  /-- REG_READ, R404. -/
  | regRead (ch : Fin 4) (mid : Byte) (addr : FabAddr)
  /-- REG_WRITE, R404. -/
  | regWrite (ch : Fin 4) (mid : Byte) (addr : FabAddr) (v : W32)
  /-- RING_RESET, R404. -/
  | ringReset (ch : Fin 4) (mid : Byte) (t : BitVec 64)
  /-- PROVISION, R405. -/
  | provision (ch : Fin 4) (mid : Byte) (tile : Nat)
  /-- REVOKE, R404. -/
  | revoke (ch : Fin 4) (mid : Byte) (slot : BitVec 2)
  /-- BOOT_WAIT, R370. -/
  | bootWait
  /-- POWER_REQUEST, R410. -/
  | powerRequest (a : Access) (d : Fin 26) (target : BitVec 2)
  /-- QUIESCE_TIMEOUT, R412. -/
  | quiesceTimeout (d : Fin 26)
  /-- POWER_STEP_DONE, R411. -/
  | powerStepDone (d : Fin 26)
  /-- POWER_STATE_REACHED, R415. -/
  | powerStateReached (d : Fin 26)
  /-- POWER_WAKE, R416. -/
  | powerWake (d : Fin 26)
  /-- STANDBY, R418. -/
  | standby (a : Access)
  /-- STANDBY_MINOFF_END, R418. -/
  | standbyMinoffEnd
  /-- WAKE_LATCH, R419. -/
  | wakeLatch (src : Fin 16)
  /-- FLARE_LOOK, R262. -/
  | flareLook (port : Fin 2) (activity : Bool)
  /-- PILOT_TIMER_EXPIRE, R420. -/
  | pilotTimerExpire
  /-- VAON_POWER_UP, R421. -/
  | vaonPowerUp
  /-- PLL_LOSS, R424. -/
  | pllLoss (p : Fin 4)
  /-- THERMAL_WARN, R425. -/
  | thermalWarn (pdie : Bool) (temp : BitVec 12)
  /-- THERMAL_SHUTDOWN, R425. -/
  | thermalShutdown (pdie : Bool) (temp : BitVec 12)
  /-- THERMAL_HOLD_END, R442. -/
  | thermalHoldEnd
  /-- DIMMER_TRIP, R427. -/
  | dimmerTrip (det : Fin 4)
  /-- DIMMER_CLEAR, R427. -/
  | dimmerClear
  /-- DIMMER_LONG, R427. -/
  | dimmerLong
  /-- PDIE_DROOP, R428. -/
  | pdieDroop (det : Fin 2)
  /-- BELLOWS_START, R432. -/
  | bellowsStart
  /-- RAMP_DONE, R434. -/
  | rampDone
  /-- RAMP_TIMEOUT, R434. -/
  | rampTimeout
  /-- BL_EN_FALL, R435. -/
  | blEnFall
  /-- BL_EN_RISE, R432. -/
  | blEnRise
  /-- UNDERVOLTAGE, R433. -/
  | undervoltage
  /-- OVERVOLTAGE, R433. -/
  | overvoltage
  /-- BREAKER_LIMIT, R436. -/
  | breakerLimit
  /-- BREAKER_CLEAR, R436. -/
  | breakerClear
  /-- SLOW_TRIP, R436. -/
  | slowTrip
  /-- FAST_TRIP, R437. -/
  | fastTrip
  /-- POWER_GOOD, R438. -/
  | powerGood
  /-- CONSEC_CLEAR, R439. -/
  | consecClear
  /-- OFFTIME_END, R440. -/
  | offtimeEnd
  /-- BELLOWS_CLEAR, R443. -/
  | bellowsClear (a : Access)
  /-- ESCALATION, R446. -/
  | escalation
  /-- LOG_POP, R454. -/
  | logPop (a : Access)
  /-- ERR_LOG_CLEAR, R454. -/
  | errLogClear (a : Access)
  /-- FEC_CLEAR, R453. -/
  | fecClear (a : Access)
  /-- ERROR_INJECT, R460. -/
  | errorInject (a : Access) (v : W32)
  /-- INTERRUPT_REARM, R459. -/
  | interruptRearm (a : Access) (v : W32)
  /-- PREEMPTION_VERIFY, R247. -/
  | preemptionVerify (l : Fin 4) (ev : VerifyEvent)
  /-- CAN_PROTOCOL_EXCEPTION, R125. -/
  | canProtocolException (k : Fin 16)
  /-- PLL_RELOCK, R424. -/
  | pllRelock (p : Fin 4)
  /-- VAON_LOSS, R441. -/
  | vaonLoss
  deriving DecidableEq, Repr

end Sys2Proof
end

