-- ==== Sys2Proof/Decode.lean ====
section
/-! DEFINITION. The command a table word spells. No row of the command table has bits, so no word spells a command. -/

namespace Sys2Proof

/-- The command that `nbits` bits `w` of the table spell: none of the rows gives bits. -/
def decodeTableWord (_nbits _w : Nat) : Option Instr := none

end Sys2Proof
end

