-- ==== Sys2Proof/Machine/Store.lean ====
section
/-! DEFINITION. Sparse stores: a list of (key, value) pairs with keys strictly rising and no pair equal to what an
unlisted key reads as. Registers, memories and check values are held this way. -/

namespace Sys2Proof.Machine

/-- A sparse store of values by key. What an unlisted key reads as is a function of the key, given at each use. -/
abbrev Sparse (α : Type) := List (Nat × α)

/-- The value at a key; `d` is what an unlisted key reads as. -/
def Sparse.get {α : Type} (d : α) : Sparse α → Nat → α
  | [], _ => d
  | (k', v) :: r, k => if k' = k then v else Sparse.get d r k

/-- Put a pair in front of the first larger key. -/
def Sparse.insert {α : Type} (k : Nat) (v : α) : Sparse α → Sparse α
  | [] => [(k, v)]
  | (k', v') :: r => if k < k' then (k, v) :: (k', v') :: r else (k', v') :: Sparse.insert k v r

/-- Remove a key. -/
def Sparse.erase {α : Type} (t : Sparse α) (k : Nat) : Sparse α := t.filter fun p => p.1 != k

/-- Write a value: the value an unlisted key reads as removes the entry. -/
def Sparse.set {α : Type} [DecidableEq α] (d : α) (t : Sparse α) (k : Nat) (v : α) : Sparse α :=
  if v = d then t.erase k else (t.erase k).insert k v

/-- Forget every key in `[lo, hi]`. -/
def Sparse.clear {α : Type} (t : Sparse α) (lo hi : Nat) : Sparse α := t.filter fun p => p.1 < lo || hi < p.1

/-- The canonical form: keys strictly rising, no entry equal to its default. -/
def Sparse.wf {α : Type} [DecidableEq α] (d : Nat → α) (t : Sparse α) : Bool :=
  decide (t.Pairwise fun a b => a.1 < b.1) && t.all fun p => decide (p.2 ≠ d p.1)

/-- A byte memory; an address not listed reads 0 (log entry 9). -/
abbrev Memory := Sparse Byte

/-- The canonical form of a byte memory. -/
abbrev Memory.wf (m : Memory) : Bool := Sparse.wf (fun _ => 0) m

end Sys2Proof.Machine
end

