-- ==== Sys2Proof/Machine/RegMap.lean ====
section
/-! DEFINITION. The register map: every register and field of the spec's register tables (Tables 1.6-1.10, 2.3-2.25,
3.6-3.14, 4.1-4.8, 5.3-5.6, 6.3-6.5, 7.5, 7.11, 7.12, 8.3, 8.4, 9.6, 9.8, 9.9, 10.7-10.9, 11.5, 12.9, 12.10, 13.6,
13.7, 14.8-14.10, 15.4, 16.6), block by block, with its offset, bits, access code, reset value and apply class, and
the address arithmetic of Tables 17.1 and 17.3. Reserved fields are not listed: bits no row lists read 0 (R465). -/

namespace Sys2Proof.Machine

/-- Access codes of Table 0.3. `ext` marks a field that the tables give as RO, RW or RC and that the model reads and
writes through typed state (a FIFO count, a counter, a context register). -/
inductive Acc where | rw | ro | wo | w1c | w1s | rc | ext
  deriving DecidableEq, Repr

/-- Apply classes of Table 0.4; `none` for a field that cannot be written. -/
inductive App where | none | l | s | k
  deriving DecidableEq, Repr

/-- One field of a register: lowest bit, width, access code, reset value, apply class. -/
structure FieldD where
  lo : Nat
  w : Nat
  acc : Acc
  reset : Nat
  app : App
  deriving DecidableEq, Repr

/-- One register, or a row of `count` registers `stride` bytes apart, at an offset from its block's base. -/
structure RegD where
  name : String
  off : Nat
  stride : Nat
  count : Nat
  fields : List FieldD
  deriving DecidableEq, Repr

/-- The blocks of Table 17.1 with the instances of Table 17.3. -/
inductive Block where
  | glb | pwr | plt | blw | clk | err | sem | cfg | mbx (k : Fin 4) | sec | gno
  | link (l : Fin 4) | ts (l : Fin 4) | rng | drn | lmp | swc | tile | brg | ech | drm | hst
  | rfx (n : Fin 8) | rfxc | lane (n : Fin 64) | bank (c : Fin 8) | reed (c : Fin 8) | can (k : Fin 16)
  deriving DecidableEq, Repr

/-- The base of a cluster's address range, B(c) of R470. -/
def clusterBase (c : Nat) : Nat := 0x100000 + c * 0x20000
/-- Lane n (Table 17.3). -/
def laneBase (n : Nat) : Nat := clusterBase (n / 8) + (n % 8) * 0x1000
/-- The VDDIO bank of cluster c. -/
def bankBase (c : Nat) : Nat := clusterBase c + 0x8000
/-- The reed engine of cluster c. -/
def reedBase (c : Nat) : Nat := clusterBase c + 0x10000
/-- CAN controller k. -/
def canBase (k : Nat) : Nat := clusterBase (k / 2) + 0x18000 + (k % 2) * 0x4000
/-- Reflex core n. -/
def rfxBase (n : Nat) : Nat := 0xE0000 + n * 0x1000
/-- Mailbox channel k. -/
def mbxBase (k : Nat) : Nat := if k < 2 then 0x50000 + k * 0x1000 else 0x58000 + (k - 2) * 0x1000
/-- Links: 0 East, 1 West, 2 Up, 3 Down (Table 17.1). -/
def linkBase (l : Nat) : Nat := if l < 2 then 0x80000 + l * 0x8000 else 0x90000 + (l - 2) * 0x4000
/-- The timestamp page of a link. -/
def tsBase (l : Nat) : Nat := linkBase l + (if l < 2 then 0x7000 else 0x3000)

/-- The base address of a block instance. -/
def Block.base : Block → Nat
  | .glb => 0x0
  | .pwr => 0x10000
  | .plt => 0x10800
  | .blw => 0x18000
  | .clk => 0x20000
  | .err => 0x30000
  | .sem => 0x38000
  | .cfg => 0x40000
  | .mbx i => mbxBase i
  | .sec => 0x54000
  | .gno => 0x60000
  | .link i => linkBase i
  | .ts i => tsBase i
  | .rng => 0x84000
  | .drn => 0x85000
  | .lmp => 0x98000
  | .swc => 0xA0000
  | .tile => 0xA8000
  | .brg => 0xB0000
  | .ech => 0xB8000
  | .drm => 0xC0000
  | .hst => 0xD0000
  | .rfx i => rfxBase i
  | .rfxc => 0xE8000
  | .lane i => laneBase i
  | .bank i => bankBase i
  | .reed i => reedBase i
  | .can i => canBase i

/-- Registers of the GLB block. -/
def glbRegs : List RegD := [
  ⟨"ID", 0x0, 0, 1, [⟨16, 16, .ro, 0x6425, .none⟩, ⟨12, 4, .ro, 0xb, .none⟩, ⟨8, 4, .ro, 1, .none⟩, ⟨0, 8, .ext, 0x40, .none⟩]⟩,
  ⟨"STRAP", 0x4, 0, 1, [⟨3, 1, .ro, 0, .none⟩, ⟨2, 1, .ro, 0, .none⟩, ⟨0, 2, .ro, 0, .none⟩]⟩,
  ⟨"SELF", 0x8, 0, 1, [⟨16, 8, .ro, 0, .none⟩, ⟨14, 2, .ro, 0, .none⟩]⟩,
  ⟨"RST_CTL", 0x10, 0, 1, [⟨8, 8, .w1s, 0, .l⟩, ⟨4, 2, .w1s, 0, .l⟩, ⟨2, 1, .w1s, 0, .l⟩, ⟨0, 1, .w1s, 0, .l⟩]⟩,
  ⟨"RST_CAUSE", 0x14, 0, 1, [⟨5, 1, .w1c, 0, .l⟩, ⟨4, 1, .w1c, 0, .l⟩, ⟨3, 1, .w1c, 0, .l⟩, ⟨2, 1, .w1c, 0, .l⟩, ⟨1, 1, .w1c, 0, .l⟩, ⟨0, 1, .w1c, 1, .l⟩]⟩]

/-- Registers of the PWR block. -/
def pwrRegs : List RegD := [
  ⟨"REQ", 0x0, 4, 26, [⟨0, 2, .rw, 0, .l⟩]⟩,
  ⟨"STATE1", 0x84, 0, 1, [⟨13, 3, .ro, 0, .none⟩, ⟨12, 1, .ro, 0, .none⟩, ⟨10, 2, .ro, 0, .none⟩, ⟨8, 2, .ro, 0, .none⟩, ⟨4, 3, .ro, 0, .none⟩, ⟨0, 2, .ro, 2, .none⟩]⟩,
  ⟨"STATE", 0x80, 4, 26, [⟨13, 3, .ro, 0, .none⟩, ⟨12, 1, .ro, 0, .none⟩, ⟨10, 2, .ro, 0, .none⟩, ⟨8, 2, .ro, 0, .none⟩, ⟨4, 3, .ro, 0, .none⟩, ⟨0, 2, .ro, 0, .none⟩]⟩,
  ⟨"FLAG", 0x100, 0, 1, [⟨4, 1, .w1c, 0, .l⟩, ⟨3, 1, .w1c, 0, .l⟩, ⟨2, 1, .w1c, 0, .l⟩, ⟨1, 1, .w1c, 0, .l⟩, ⟨0, 1, .w1c, 0, .l⟩]⟩,
  ⟨"IEN", 0x104, 0, 1, [⟨0, 5, .rw, 0, .l⟩]⟩,
  ⟨"REFUSE", 0x108, 0, 1, [⟨28, 4, .ro, 0, .none⟩, ⟨0, 24, .ro, 0, .none⟩]⟩,
  ⟨"REFUSECNT", 0x10c, 0, 1, [⟨0, 32, .rc, 0, .none⟩]⟩,
  ⟨"SUPERCNT", 0x110, 0, 1, [⟨0, 32, .rc, 0, .none⟩]⟩,
  ⟨"QTIME", 0x114, 0, 1, [⟨0, 16, .rw, 0x64, .l⟩]⟩,
  ⟨"STBY", 0x118, 0, 1, [⟨0, 1, .w1s, 0, .l⟩]⟩,
  ⟨"WAKEMASK", 0x180, 4, 8, [⟨8, 2, .rw, 0, .l⟩, ⟨0, 8, .rw, 0, .l⟩]⟩]

/-- Registers of the PLT block. -/
def pltRegs : List RegD := [
  ⟨"WEN", 0x0, 0, 1, [⟨0, 15, .rw, 0, .l⟩]⟩,
  ⟨"WPOL", 0x4, 0, 1, [⟨4, 8, .rw, 0, .l⟩, ⟨0, 4, .rw, 0, .l⟩]⟩,
  ⟨"WSRC", 0x8, 0, 1, [⟨0, 16, .w1c, 0, .l⟩]⟩,
  ⟨"WFIRST", 0xc, 0, 1, [⟨0, 5, .ro, 0, .none⟩]⟩,
  ⟨"TIMER", 0x10, 0, 1, [⟨0, 32, .rw, 0, .l⟩]⟩,
  ⟨"CFG", 0x14, 0, 1, [⟨8, 8, .rw, 0xa, .l⟩, ⟨0, 1, .rw, 0, .l⟩]⟩,
  ⟨"STAT", 0x18, 0, 1, [⟨0, 1, .w1c, 1, .l⟩]⟩,
  ⟨"SCRATCH", 0x20, 4, 4, [⟨0, 32, .rw, 0, .l⟩]⟩]

/-- Registers of the BLW block. -/
def blwRegs : List RegD := [
  ⟨"CTL", 0x0, 0, 1, [⟨8, 1, .w1s, 0, .l⟩, ⟨0, 1, .rw, 1, .l⟩]⟩,
  ⟨"STAT", 0x4, 0, 1, [⟨12, 1, .ro, 0, .none⟩, ⟨11, 1, .ro, 0, .none⟩, ⟨10, 1, .ro, 1, .none⟩, ⟨9, 1, .ro, 0, .none⟩, ⟨8, 1, .ro, 0, .none⟩, ⟨4, 4, .ro, 0, .none⟩, ⟨0, 4, .ro, 0, .none⟩]⟩,
  ⟨"FLAG", 0x8, 0, 1, [⟨8, 1, .w1c, 0, .l⟩, ⟨7, 1, .w1c, 0, .l⟩, ⟨6, 1, .w1c, 0, .l⟩, ⟨5, 1, .w1c, 0, .l⟩, ⟨4, 1, .w1c, 0, .l⟩, ⟨3, 1, .w1c, 0, .l⟩, ⟨2, 1, .w1c, 0, .l⟩, ⟨1, 1, .w1c, 0, .l⟩, ⟨0, 1, .w1c, 0, .l⟩]⟩,
  ⟨"IEN", 0xc, 0, 1, [⟨0, 9, .rw, 0, .l⟩]⟩,
  ⟨"BRK", 0x10, 0, 1, [⟨16, 9, .rw, 0x64, .l⟩, ⟨0, 7, .rw, 0x32, .l⟩]⟩,
  ⟨"GATE", 0x14, 0, 1, [⟨8, 8, .rw, 0x14, .l⟩, ⟨0, 2, .rw, 1, .l⟩]⟩,
  ⟨"RETRY", 0x18, 0, 1, [⟨16, 4, .ro, 0, .none⟩, ⟨0, 4, .rw, 0, .l⟩]⟩,
  ⟨"OFFT", 0x1c, 0, 1, [⟨0, 32, .ext, 0, .none⟩]⟩,
  ⟨"ONT", 0x20, 0, 1, [⟨0, 32, .ro, 0, .none⟩]⟩,
  ⟨"FCNT", 0x24, 0, 1, [⟨0, 32, .rc, 0, .none⟩]⟩]

/-- Registers of the CLK block. -/
def clkRegs : List RegD := [
  ⟨"PLLSTAT", 0x0, 0, 1, [⟨0, 4, .ro, 0, .none⟩]⟩,
  ⟨"FLAG", 0x4, 0, 1, [⟨4, 1, .w1c, 0, .l⟩, ⟨3, 1, .w1c, 0, .l⟩, ⟨2, 1, .w1c, 0, .l⟩, ⟨1, 1, .w1c, 0, .l⟩, ⟨0, 1, .w1c, 0, .l⟩]⟩,
  ⟨"IEN", 0x8, 0, 1, [⟨0, 5, .rw, 0, .l⟩]⟩,
  ⟨"DIM", 0x10, 0, 1, [⟨16, 16, .rw, 0x3e8, .l⟩, ⟨8, 8, .rw, 0xa, .l⟩, ⟨0, 6, .rw, 0x3f, .l⟩]⟩,
  ⟨"DIMTHR", 0x14, 0, 1, [⟨8, 4, .rw, 4, .l⟩, ⟨0, 4, .rw, 4, .l⟩]⟩,
  ⟨"DIMSTAT", 0x18, 0, 1, [⟨8, 1, .ro, 0, .none⟩, ⟨0, 5, .ro, 0x10, .none⟩]⟩,
  ⟨"DIMCNT", 0x1c, 0, 1, [⟨0, 32, .rc, 0, .none⟩]⟩,
  ⟨"PDIMCNT", 0x20, 0, 1, [⟨0, 32, .rc, 0, .none⟩]⟩,
  ⟨"DIMTIME", 0x24, 0, 1, [⟨0, 32, .rc, 0, .none⟩]⟩,
  ⟨"TEMPF", 0x30, 0, 1, [⟨0, 12, .ro, 0, .none⟩]⟩,
  ⟨"TEMPP", 0x34, 0, 1, [⟨0, 12, .ro, 0, .none⟩]⟩,
  ⟨"THERM", 0x38, 0, 1, [⟨16, 8, .rw, 0x87, .l⟩, ⟨0, 8, .rw, 0x73, .l⟩]⟩]

/-- Registers of the ERR block. -/
def errRegs : List RegD := [
  ⟨"CTL", 0x0, 0, 1, [⟨31, 1, .rw, 1, .l⟩, ⟨8, 2, .rw, 2, .l⟩, ⟨4, 2, .rw, 1, .l⟩]⟩,
  ⟨"STAT", 0x4, 0, 1, [⟨31, 1, .ext, 0, .none⟩, ⟨30, 1, .ro, 0, .none⟩, ⟨0, 6, .ext, 0, .none⟩]⟩,
  ⟨"FLAG", 0x8, 0, 1, [⟨3, 1, .w1c, 0, .l⟩, ⟨2, 1, .w1c, 0, .l⟩, ⟨1, 1, .w1c, 0, .l⟩, ⟨0, 1, .w1c, 0, .l⟩]⟩,
  ⟨"IEN", 0xc, 0, 1, [⟨0, 4, .rw, 9, .l⟩]⟩,
  ⟨"LOGW", 0x10, 4, 4, [⟨0, 32, .ext, 0, .none⟩]⟩,
  ⟨"LOGSEL", 0x20, 0, 1, [⟨0, 5, .rw, 0, .l⟩]⟩,
  ⟨"LOGPOP", 0x24, 0, 1, [⟨0, 1, .w1s, 0, .l⟩]⟩,
  ⟨"LOGCLR", 0x28, 0, 1, [⟨0, 1, .w1s, 0, .l⟩]⟩,
  ⟨"HEADBLK", 0x2c, 0, 1, [⟨0, 32, .ro, 0, .none⟩]⟩,
  ⟨"TAILBLK", 0x30, 0, 1, [⟨0, 32, .ro, 0, .none⟩]⟩,
  ⟨"FECW", 0x40, 4, 4, [⟨0, 32, .ext, 0, .none⟩]⟩,
  ⟨"FECCLR", 0x50, 0, 1, [⟨0, 1, .w1s, 0, .l⟩]⟩,
  ⟨"ESC", 0x54, 0, 1, [⟨16, 8, .rw, 0x40, .l⟩, ⟨8, 8, .rw, 0xa, .l⟩, ⟨0, 8, .rw, 0x14, .l⟩]⟩,
  ⟨"INJ", 0x58, 0, 1, [⟨31, 1, .w1s, 0, .l⟩, ⟨28, 2, .rw, 0, .l⟩, ⟨0, 16, .rw, 0, .l⟩]⟩,
  ⟨"CNTC", 0x60, 0, 1, [⟨0, 32, .rc, 0, .none⟩]⟩,
  ⟨"CNTU", 0x64, 0, 1, [⟨0, 32, .rc, 0, .none⟩]⟩,
  ⟨"CNTF", 0x68, 0, 1, [⟨0, 32, .rc, 0, .none⟩]⟩,
  ⟨"LOSTCNT", 0x6c, 0, 1, [⟨0, 32, .rc, 0, .none⟩]⟩,
  ⟨"REPCNT", 0x70, 0, 1, [⟨0, 32, .rc, 0, .none⟩]⟩,
  ⟨"SRC", 0x80, 4, 2, [⟨0, 32, .ext, 0, .none⟩]⟩,
  ⟨"REARM", 0x88, 0, 1, [⟨0, 6, .wo, 0, .l⟩]⟩,
  ⟨"ROUTE0", 0x200, 0, 1, [⟨31, 1, .rw, 1, .l⟩, ⟨30, 1, .rw, 1, .l⟩, ⟨29, 1, .rw, 0, .l⟩, ⟨0, 6, .rw, 0x10, .l⟩]⟩,
  ⟨"ROUTE", 0x200, 4, 64, [⟨31, 1, .rw, 0, .l⟩, ⟨30, 1, .rw, 1, .l⟩, ⟨29, 1, .rw, 0, .l⟩, ⟨0, 6, .rw, 0x10, .l⟩]⟩]

/-- Registers of the SEM block. -/
def semRegs : List RegD := [
  ⟨"LOCK", 0x0, 4, 32, [⟨31, 1, .ext, 0, .none⟩, ⟨0, 4, .ext, 0, .none⟩]⟩,
  ⟨"FORCE", 0x80, 0, 1, [⟨0, 5, .wo, 0, .l⟩]⟩,
  ⟨"BRKCNT", 0x84, 0, 1, [⟨0, 32, .rc, 0, .none⟩]⟩]

/-- Registers of the CFG block. -/
def cfgRegs : List RegD := [
  ⟨"CTL", 0x0, 0, 1, [⟨8, 8, .rw, 5, .l⟩, ⟨0, 1, .rw, 1, .l⟩]⟩,
  ⟨"STAT", 0x4, 0, 1, [⟨28, 4, .ro, 0, .none⟩, ⟨26, 2, .ro, 0, .none⟩, ⟨24, 2, .ro, 0, .none⟩, ⟨8, 8, .ro, 0, .none⟩, ⟨0, 8, .ro, 0, .none⟩]⟩,
  ⟨"FLAG", 0x8, 0, 1, [⟨6, 1, .w1c, 0, .l⟩, ⟨5, 1, .w1c, 0, .l⟩, ⟨4, 1, .w1c, 0, .l⟩, ⟨3, 1, .w1c, 0, .l⟩, ⟨2, 1, .w1c, 0, .l⟩, ⟨1, 1, .w1c, 0, .l⟩, ⟨0, 1, .w1c, 0, .l⟩]⟩,
  ⟨"IEN", 0xc, 0, 1, [⟨0, 7, .rw, 0, .l⟩]⟩,
  ⟨"IMGID", 0x10, 0, 1, [⟨0, 32, .ro, 0, .none⟩]⟩,
  ⟨"SVN", 0x14, 0, 1, [⟨8, 8, .ro, 0, .none⟩, ⟨0, 7, .ext, 0, .none⟩]⟩,
  ⟨"TRIALT", 0x18, 0, 1, [⟨31, 1, .w1s, 0, .l⟩, ⟨30, 1, .ext, 0, .none⟩, ⟨0, 20, .ext, 0, .none⟩]⟩,
  ⟨"PRLOCK", 0x20, 0, 1, [⟨0, 8, .rw, 0, .l⟩]⟩,
  ⟨"FAIL", 0x24, 0, 1, [⟨28, 4, .ro, 0, .none⟩, ⟨24, 3, .ro, 0, .none⟩, ⟨16, 8, .ro, 0, .none⟩, ⟨0, 16, .ro, 0, .none⟩]⟩,
  ⟨"XSPI", 0x30, 0, 1, [⟨8, 2, .rw, 0, .k⟩, ⟨0, 8, .rw, 2, .k⟩]⟩]

/-- Registers of the MBX block. -/
def mbxRegs : List RegD := [
  ⟨"CTL", 0x0, 0, 1, [⟨0, 1, .rw, 0, .l⟩]⟩,
  ⟨"STAT", 0x4, 0, 1, [⟨24, 4, .ext, 0, .none⟩, ⟨16, 4, .ext, 8, .none⟩, ⟨8, 1, .w1c, 0, .l⟩, ⟨4, 1, .w1c, 0, .l⟩, ⟨0, 1, .ext, 0, .none⟩]⟩,
  ⟨"IN", 0x8, 0, 1, [⟨0, 32, .wo, 0, .l⟩]⟩,
  ⟨"OUT", 0xc, 0, 1, [⟨0, 32, .ext, 0, .none⟩]⟩,
  ⟨"ACKIN", 0x10, 0, 1, [⟨16, 16, .ro, 0, .none⟩, ⟨0, 8, .ro, 0, .none⟩]⟩,
  ⟨"ACKOUT", 0x14, 0, 1, [⟨0, 8, .rw, 0, .l⟩]⟩,
  ⟨"WORD", 0x20, 0, 1, [⟨0, 32, .ext, 0, .none⟩]⟩,
  ⟨"WSTAT", 0x24, 0, 1, [⟨1, 1, .ro, 0, .none⟩, ⟨0, 1, .ro, 0, .none⟩]⟩]

/-- Registers of the SEC block. -/
def secRegs : List RegD := [
  ⟨"CTL", 0x0, 0, 1, [⟨8, 4, .rw, 0, .l⟩, ⟨4, 4, .rw, 0, .l⟩, ⟨0, 1, .rw, 0, .l⟩]⟩,
  ⟨"FUSE", 0x4, 0, 1, [⟨9, 1, .ext, 0, .none⟩, ⟨8, 1, .ext, 0, .none⟩, ⟨4, 4, .ext, 0, .none⟩, ⟨0, 4, .ext, 0, .none⟩]⟩,
  ⟨"BOOTID", 0x8, 0, 1, [⟨0, 32, .ro, 0, .none⟩]⟩,
  ⟨"VIOLCNT", 0x10, 0, 1, [⟨0, 32, .rc, 0, .none⟩]⟩,
  ⟨"AUTHFAIL", 0x14, 0, 1, [⟨0, 32, .rc, 0, .none⟩]⟩,
  ⟨"DENYCNT", 0x18, 0, 1, [⟨0, 32, .rc, 0, .none⟩]⟩]

/-- Registers of the GNO block, part 1. -/
def gnoRegs1 : List RegD := [
  ⟨"NOW_NS", 0x0, 0, 1, [⟨0, 30, .ext, 0, .none⟩]⟩,
  ⟨"NOW_SL", 0x4, 0, 1, [⟨0, 32, .ext, 0, .none⟩]⟩,
  ⟨"NOW_SH", 0x8, 0, 1, [⟨16, 16, .ext, 0, .none⟩, ⟨0, 16, .ext, 0, .none⟩]⟩,
  ⟨"INCR", 0x10, 0, 1, [⟨24, 8, .rw, 4, .s⟩, ⟨0, 24, .rw, 0, .s⟩]⟩,
  ⟨"STEPN", 0x14, 0, 1, [⟨31, 1, .rw, 0, .s⟩, ⟨0, 30, .rw, 0, .s⟩]⟩,
  ⟨"STEPS", 0x18, 0, 1, [⟨0, 32, .rw, 0, .s⟩]⟩,
  ⟨"COMMIT", 0x1c, 0, 1, [⟨0, 1, .w1s, 0, .l⟩]⟩,
  ⟨"SYNCST", 0x20, 0, 1, [⟨0, 2, .rw, 0, .l⟩]⟩,
  ⟨"FLAG", 0x24, 0, 1, [⟨5, 1, .w1c, 0, .l⟩, ⟨4, 1, .w1c, 0, .l⟩, ⟨3, 1, .w1c, 0, .l⟩, ⟨2, 1, .w1c, 0, .l⟩, ⟨1, 1, .w1c, 0, .l⟩, ⟨0, 1, .w1c, 0, .l⟩]⟩,
  ⟨"IEN", 0x28, 0, 1, [⟨0, 6, .rw, 0, .l⟩]⟩,
  ⟨"PAIR", 0x30, 0, 1, [⟨0, 1, .w1s, 0, .l⟩]⟩,
  ⟨"PAIR_NS", 0x34, 0, 1, [⟨0, 30, .ro, 0, .none⟩]⟩,
  ⟨"PAIR_SL", 0x38, 0, 1, [⟨0, 32, .ro, 0, .none⟩]⟩,
  ⟨"PAIR_SH", 0x3c, 0, 1, [⟨16, 16, .ro, 0, .none⟩, ⟨0, 16, .ro, 0, .none⟩]⟩,
  ⟨"PCNT_L", 0x40, 8, 8, [⟨0, 32, .ro, 0, .none⟩]⟩,
  ⟨"PCNT_H", 0x44, 8, 8, [⟨0, 32, .ro, 0, .none⟩]⟩,
  ⟨"TWCFG", 0x80, 0, 1, [⟨24, 8, .rw, 1, .l⟩, ⟨0, 16, .rw, 0xa0, .l⟩]⟩,
  ⟨"TW_OK", 0x84, 0, 1, [⟨0, 32, .rc, 0, .none⟩]⟩,
  ⟨"TW_LATEDROP", 0x88, 0, 1, [⟨0, 32, .rc, 0, .none⟩]⟩,
  ⟨"TW_LATEEXEC", 0x8c, 0, 1, [⟨0, 32, .rc, 0, .none⟩]⟩,
  ⟨"TW_REFUSED", 0x90, 0, 1, [⟨0, 32, .rc, 0, .none⟩]⟩,
  ⟨"CVALID", 0xa0, 0, 1, [⟨0, 8, .ro, 0, .none⟩]⟩,
  ⟨"PG_CTL", 0xc0, 32, 4, [⟨15, 1, .rw, 0, .k⟩, ⟨9, 6, .rw, 0, .k⟩, ⟨7, 2, .rw, 0, .k⟩, ⟨2, 1, .rw, 0, .k⟩, ⟨1, 1, .rw, 0, .k⟩, ⟨0, 1, .rw, 0, .l⟩]⟩,
  ⟨"PG_TNS", 0xc4, 32, 4, [⟨0, 30, .rw, 0, .k⟩]⟩]

/-- Registers of the GNO block, part 2. -/
def gnoRegs2 : List RegD := [
  ⟨"PG_TSL", 0xc8, 32, 4, [⟨0, 32, .rw, 0, .k⟩]⟩,
  ⟨"PG_TSH", 0xcc, 32, 4, [⟨0, 16, .rw, 0, .k⟩]⟩,
  ⟨"PG_PER", 0xd0, 32, 4, [⟨0, 32, .rw, 0, .k⟩]⟩,
  ⟨"PG_WIDTH", 0xd4, 32, 4, [⟨0, 32, .rw, 0, .k⟩]⟩,
  ⟨"PPSIN_NS", 0x140, 0, 1, [⟨0, 30, .ro, 0, .none⟩]⟩,
  ⟨"PPSIN_SL", 0x144, 0, 1, [⟨0, 32, .ro, 0, .none⟩]⟩,
  ⟨"PPSIN_SH", 0x148, 0, 1, [⟨16, 16, .ro, 0, .none⟩, ⟨0, 16, .ro, 0, .none⟩]⟩]

/-- Registers of the GNO block. -/
def gnoRegs : List RegD := gnoRegs1 ++ gnoRegs2

/-- Registers of the X block, part 1. -/
def linkRegs1 : List RegD := [
  ⟨"CTL", 0x0, 0, 1, [⟨3, 1, .rw, 0, .l⟩, ⟨2, 1, .rw, 0, .l⟩, ⟨1, 1, .rw, 0, .k⟩, ⟨0, 1, .rw, 0, .l⟩]⟩,
  ⟨"STAT", 0x4, 0, 1, [⟨24, 8, .ro, 0, .none⟩, ⟨16, 8, .ro, 0, .none⟩, ⟨9, 3, .ro, 0, .none⟩, ⟨8, 1, .ro, 0, .none⟩, ⟨6, 2, .ro, 0, .none⟩, ⟨5, 1, .ro, 0, .none⟩, ⟨0, 4, .ro, 0, .none⟩]⟩,
  ⟨"FLAG", 0x8, 0, 1, [⟨14, 1, .w1c, 0, .l⟩, ⟨13, 1, .w1c, 0, .l⟩, ⟨12, 1, .w1c, 0, .l⟩, ⟨11, 1, .w1c, 0, .l⟩, ⟨10, 1, .w1c, 0, .l⟩, ⟨9, 1, .w1c, 0, .l⟩, ⟨8, 1, .w1c, 0, .l⟩, ⟨7, 1, .w1c, 0, .l⟩, ⟨6, 1, .w1c, 0, .l⟩, ⟨5, 1, .w1c, 0, .l⟩, ⟨4, 1, .w1c, 0, .l⟩, ⟨3, 1, .w1c, 0, .l⟩, ⟨2, 1, .w1c, 0, .l⟩, ⟨1, 1, .w1c, 0, .l⟩, ⟨0, 1, .w1c, 0, .l⟩]⟩,
  ⟨"IEN", 0xc, 0, 1, [⟨0, 15, .rw, 0, .l⟩]⟩,
  ⟨"RATE", 0x10, 0, 1, [⟨4, 2, .rw, 2, .k⟩, ⟨0, 2, .rw, 0, .k⟩]⟩,
  ⟨"SHIFT", 0x14, 0, 1, [⟨24, 8, .rw, 0x3c, .l⟩, ⟨16, 8, .rw, 0x14, .l⟩, ⟨8, 8, .rw, 3, .l⟩, ⟨0, 8, .rw, 0xa, .l⟩]⟩,
  ⟨"SHIFTT", 0x18, 0, 1, [⟨16, 16, .rw, 0x3e8, .l⟩, ⟨0, 16, .rw, 0x1f4, .l⟩]⟩,
  ⟨"HOLD", 0x1c, 0, 1, [⟨16, 16, .rw, 0x64, .s⟩, ⟨0, 16, .rw, 0xc8, .s⟩]⟩,
  ⟨"REROUTE", 0x20, 0, 1, [⟨0, 8, .rw, 0x9f, .s⟩]⟩,
  ⟨"BCN", 0x24, 0, 1, [⟨16, 4, .rw, 3, .k⟩, ⟨0, 16, .rw, 0xfa0, .k⟩]⟩,
  ⟨"PFC", 0x28, 0, 1, [⟨16, 16, .rw, 0xffff, .l⟩, ⟨0, 8, .rw, 0x3f, .l⟩]⟩,
  ⟨"LPI", 0x2c, 0, 1, [⟨16, 16, .rw, 0x64, .l⟩, ⟨0, 16, .rw, 0x32, .l⟩]⟩,
  ⟨"SFPCTL", 0x30, 0, 1, [⟨9, 1, .ro, 0, .none⟩, ⟨8, 1, .ro, 0, .none⟩, ⟨1, 1, .rw, 1, .l⟩, ⟨0, 1, .rw, 0, .l⟩]⟩,
  ⟨"SFPI2C", 0x34, 0, 1, [⟨31, 1, .w1s, 0, .l⟩, ⟨30, 1, .rw, 0, .l⟩, ⟨29, 1, .ro, 0, .none⟩, ⟨24, 1, .rw, 0, .l⟩, ⟨16, 8, .rw, 0, .l⟩, ⟨0, 8, .rw, 0, .l⟩]⟩,
  ⟨"FLARE", 0x38, 0, 1, [⟨8, 4, .rw, 4, .l⟩, ⟨0, 1, .w1s, 0, .l⟩]⟩,
  ⟨"COMMIT", 0x3c, 0, 1, [⟨0, 1, .w1s, 0, .l⟩]⟩,
  ⟨"STATMODE", 0x40, 0, 1, [⟨16, 2, .rw, 0, .s⟩, ⟨0, 16, .rw, 0x3e8, .s⟩]⟩,
  ⟨"SNAPSEQ", 0x44, 0, 1, [⟨0, 16, .ro, 0, .none⟩]⟩,
  ⟨"SNAPSEC", 0x48, 0, 1, [⟨0, 32, .ro, 0, .none⟩]⟩,
  ⟨"SNAPMS", 0x4c, 0, 1, [⟨0, 10, .ro, 0, .none⟩]⟩,
  ⟨"TXFRM TXBYTE RXFRM RXBYTE RXCRC RXHCRC RXECL TXECL RXOVSZ RXUNDSZ PFCTX PFCRX BCNMISS LOCKLOSS FECCORR FECUNC LPIENT SHIFTCNT SHIFTREF HOLDRES REROUTE_CNT FLUSH GATEDROP CTSTORE MMERR FLAPCNT", 0x100, 4, 26, [⟨0, 32, .rc, 0, .none⟩]⟩,
  ⟨"RXBIN", 0x180, 4, 8, [⟨0, 32, .rc, 0, .none⟩]⟩,
  ⟨"TXBIN", 0x1a0, 4, 8, [⟨0, 32, .rc, 0, .none⟩]⟩,
  ⟨"GCL_CTL", 0x400, 0, 1, [⟨0, 1, .rw, 0, .s⟩]⟩]

/-- Registers of the X block, part 2. -/
def linkRegs2 : List RegD := [
  ⟨"GCL_LEN", 0x404, 0, 1, [⟨0, 8, .rw, 0, .s⟩]⟩,
  ⟨"GCL_CYCLE", 0x408, 0, 1, [⟨0, 32, .rw, 0, .s⟩]⟩,
  ⟨"GCL_BNS", 0x40c, 0, 1, [⟨0, 30, .rw, 0, .s⟩]⟩,
  ⟨"GCL_BSL", 0x410, 0, 1, [⟨0, 32, .rw, 0, .s⟩]⟩,
  ⟨"GCL_BSH", 0x414, 0, 1, [⟨0, 16, .rw, 0, .s⟩]⟩,
  ⟨"GCL_OPER", 0x418, 0, 1, [⟨0, 8, .ro, 0, .none⟩]⟩,
  ⟨"GCL_W0", 0x800, 8, 128, [⟨8, 1, .rw, 0, .s⟩, ⟨0, 8, .rw, 0xff, .s⟩]⟩,
  ⟨"GCL_W1", 0x804, 8, 128, [⟨0, 32, .rw, 0, .s⟩]⟩]

/-- Registers of the X block. -/
def linkRegs : List RegD := linkRegs1 ++ linkRegs2

/-- Registers of the TS block. -/
def tsRegs : List RegD := [
  ⟨"CTL", 0x0, 0, 1, [⟨1, 1, .rw, 1, .l⟩, ⟨0, 1, .rw, 1, .l⟩]⟩,
  ⟨"ASYM", 0x4, 0, 1, [⟨0, 16, .rw, 0, .l⟩]⟩,
  ⟨"LINKDLY", 0x8, 0, 1, [⟨0, 24, .rw, 0, .l⟩]⟩,
  ⟨"TSQ_STAT", 0xc, 0, 1, [⟨8, 1, .w1c, 0, .l⟩, ⟨0, 5, .ext, 0, .none⟩]⟩,
  ⟨"TSQ_W", 0x10, 4, 4, [⟨0, 32, .ext, 0, .none⟩]⟩,
  ⟨"TSQ_POP", 0x20, 0, 1, [⟨0, 1, .w1s, 0, .l⟩]⟩,
  ⟨"TSQ_OVFCNT", 0x24, 0, 1, [⟨0, 32, .rc, 0, .none⟩]⟩,
  ⟨"TC_FUPMISS", 0x28, 0, 1, [⟨0, 32, .rc, 0, .none⟩]⟩]

/-- Registers of the RNG block. -/
def rngRegs : List RegD := [
  ⟨"CTL", 0x0, 0, 1, [⟨0, 1, .rw, 0, .l⟩]⟩,
  ⟨"STAT", 0x4, 0, 1, [⟨24, 8, .ro, 0, .none⟩, ⟨16, 8, .ro, 0, .none⟩, ⟨4, 4, .ro, 0, .none⟩, ⟨1, 1, .ro, 0, .none⟩, ⟨0, 1, .ro, 0, .none⟩]⟩,
  ⟨"FLAG", 0x8, 0, 1, [⟨9, 1, .w1c, 0, .l⟩, ⟨8, 1, .w1c, 0, .l⟩, ⟨7, 1, .w1c, 0, .l⟩, ⟨6, 1, .w1c, 0, .l⟩, ⟨5, 1, .w1c, 0, .l⟩, ⟨4, 1, .w1c, 0, .l⟩, ⟨3, 1, .w1c, 0, .l⟩, ⟨2, 1, .w1c, 0, .l⟩, ⟨1, 1, .w1c, 0, .l⟩, ⟨0, 1, .w1c, 0, .l⟩]⟩,
  ⟨"IEN", 0xc, 0, 1, [⟨0, 10, .rw, 0, .l⟩]⟩,
  ⟨"JOINCFG", 0x10, 0, 1, [⟨24, 8, .rw, 0, .k⟩, ⟨23, 1, .rw, 0, .k⟩, ⟨16, 2, .rw, 0, .k⟩]⟩,
  ⟨"ELECT", 0x14, 0, 1, [⟨24, 8, .rw, 0, .k⟩, ⟨0, 16, .rw, 0xa, .k⟩]⟩,
  ⟨"UIDL", 0x18, 0, 1, [⟨0, 32, .ext, 0, .none⟩]⟩,
  ⟨"UIDH", 0x1c, 0, 1, [⟨0, 32, .ext, 0, .none⟩]⟩,
  ⟨"TIMING", 0x20, 0, 1, [⟨16, 16, .rw, 0xa, .l⟩, ⟨0, 16, .rw, 0x64, .l⟩]⟩,
  ⟨"NAK", 0x24, 0, 1, [⟨0, 8, .ro, 0, .none⟩]⟩,
  ⟨"EPOCH", 0x28, 0, 1, [⟨0, 16, .ro, 0, .none⟩]⟩,
  ⟨"SHIFTCFG", 0x2c, 0, 1, [⟨24, 8, .rw, 0x50, .l⟩, ⟨0, 16, .rw, 0x3e8, .l⟩]⟩,
  ⟨"PLAN", 0x30, 0, 1, [⟨0, 16, .rw, 0x19, .l⟩]⟩,
  ⟨"STATMODE", 0x40, 0, 1, [⟨16, 2, .rw, 0, .s⟩, ⟨0, 16, .rw, 0x3e8, .s⟩]⟩,
  ⟨"COMMIT", 0x44, 0, 1, [⟨0, 1, .w1s, 0, .l⟩]⟩,
  ⟨"HDRERR HOPDROP WRAPDROP NODEST REPLAY DUPBC WRAPCNT JOINNAK", 0x100, 4, 8, [⟨0, 32, .rc, 0, .none⟩]⟩,
  ⟨"TOPO", 0x400, 4, 64, [⟨0, 32, .ext, 0, .none⟩]⟩]

/-- Registers of the DRN block. -/
def drnRegs : List RegD := [
  ⟨"CTL", 0x0, 0, 1, [⟨0, 1, .rw, 0, .l⟩]⟩,
  ⟨"STAT", 0x4, 0, 1, [⟨16, 16, .ext, 0, .none⟩, ⟨0, 2, .ext, 0, .none⟩]⟩,
  ⟨"FLAG", 0x8, 0, 1, [⟨5, 1, .w1c, 0, .l⟩, ⟨4, 1, .w1c, 0, .l⟩, ⟨3, 1, .w1c, 0, .l⟩, ⟨2, 1, .w1c, 0, .l⟩, ⟨1, 1, .w1c, 0, .l⟩, ⟨0, 1, .w1c, 0, .l⟩]⟩,
  ⟨"IEN", 0xc, 0, 1, [⟨0, 6, .rw, 0, .l⟩]⟩,
  ⟨"PER", 0x10, 0, 1, [⟨0, 19, .rw, 0x1f4, .k⟩]⟩,
  ⟨"BNS", 0x14, 0, 1, [⟨0, 30, .rw, 0, .k⟩]⟩,
  ⟨"BSL", 0x18, 0, 1, [⟨0, 32, .rw, 0, .k⟩]⟩,
  ⟨"BSH", 0x1c, 0, 1, [⟨0, 16, .rw, 0, .k⟩]⟩,
  ⟨"TIMES", 0x20, 0, 1, [⟨16, 16, .rw, 0xc8, .s⟩, ⟨0, 16, .rw, 0x190, .s⟩]⟩,
  ⟨"CLOSE", 0x24, 0, 1, [⟨0, 28, .rw, 0x2ee0, .s⟩]⟩,
  ⟨"APPLY", 0x28, 0, 1, [⟨0, 28, .rw, 0x2ee0, .s⟩]⟩,
  ⟨"COMMIT", 0x2c, 0, 1, [⟨0, 1, .w1s, 0, .l⟩]⟩,
  ⟨"STATMODE", 0x30, 0, 1, [⟨16, 2, .rw, 0, .s⟩, ⟨0, 16, .rw, 0x3e8, .s⟩]⟩,
  ⟨"CYCCNT REGEN LATEDISC NOTREADY MISS SPOILT STALECYC CFGREJ", 0x100, 4, 8, [⟨0, 32, .rc, 0, .none⟩]⟩,
  ⟨"FRM", 0x400, 8, 64, [⟨31, 1, .rw, 0, .s⟩, ⟨30, 1, .rw, 0, .s⟩, ⟨24, 6, .rw, 0, .s⟩, ⟨0, 14, .rw, 0, .s⟩]⟩,
  ⟨"EXP_A", 0x800, 8, 64, [⟨0, 28, .ro, 0, .none⟩]⟩,
  ⟨"EXP_B", 0x804, 8, 64, [⟨0, 28, .ro, 0, .none⟩]⟩,
  ⟨"SLT_W0", 0x1000, 8, 512, [⟨31, 1, .rw, 0, .s⟩, ⟨30, 1, .rw, 0, .s⟩, ⟨24, 6, .rw, 0, .s⟩, ⟨14, 10, .rw, 0, .s⟩, ⟨0, 14, .rw, 0, .s⟩]⟩,
  ⟨"SLT_W1", 0x1004, 8, 512, [⟨26, 6, .rw, 0, .s⟩, ⟨0, 20, .rw, 0, .s⟩]⟩]

/-- Registers of the LMP block. -/
def lmpRegs : List RegD := [
  ⟨"CTL", 0x0, 0, 1, [⟨5, 1, .w1s, 0, .l⟩, ⟨4, 1, .w1s, 0, .l⟩, ⟨3, 1, .rw, 1, .l⟩, ⟨2, 1, .rw, 1, .l⟩, ⟨1, 1, .rw, 0, .k⟩, ⟨0, 1, .rw, 0, .k⟩]⟩,
  ⟨"STAT", 0x4, 0, 1, [⟨16, 4, .ro, 0, .none⟩, ⟨9, 1, .ro, 0, .none⟩, ⟨8, 1, .ext, 0, .none⟩, ⟨7, 1, .ext, 0, .none⟩, ⟨6, 1, .ro, 0, .none⟩, ⟨5, 1, .ro, 0, .none⟩, ⟨4, 1, .ext, 0, .none⟩, ⟨0, 4, .ro, 0, .none⟩]⟩,
  ⟨"FLAG", 0x8, 0, 1, [⟨11, 1, .w1c, 0, .l⟩, ⟨10, 1, .w1c, 0, .l⟩, ⟨9, 1, .w1c, 0, .l⟩, ⟨8, 1, .w1c, 0, .l⟩, ⟨7, 1, .w1c, 0, .l⟩, ⟨6, 1, .w1c, 0, .l⟩, ⟨5, 1, .w1c, 0, .l⟩, ⟨4, 1, .w1c, 0, .l⟩, ⟨3, 1, .w1c, 0, .l⟩, ⟨2, 1, .w1c, 0, .l⟩, ⟨1, 1, .w1c, 0, .l⟩, ⟨0, 1, .w1c, 0, .l⟩]⟩,
  ⟨"IEN", 0xc, 0, 1, [⟨0, 12, .rw, 0, .l⟩]⟩,
  ⟨"PEER", 0x10, 0, 1, [⟨0, 8, .rw, 0, .k⟩]⟩,
  ⟨"LEASE", 0x14, 0, 1, [⟨16, 16, .rw, 0x1388, .k⟩, ⟨0, 16, .rw, 0x64, .k⟩]⟩,
  ⟨"HEALTH", 0x18, 0, 1, [⟨8, 8, .rw, 0, .l⟩, ⟨0, 5, .rw, 0x1f, .l⟩]⟩,
  ⟨"STEWHB", 0x1c, 0, 1, [⟨0, 1, .wo, 0, .l⟩]⟩,
  ⟨"RECLAIM", 0x20, 0, 1, [⟨16, 16, .rw, 0xa, .l⟩, ⟨0, 16, .rw, 0x1f4, .l⟩]⟩,
  ⟨"START", 0x24, 0, 1, [⟨0, 16, .rw, 0xa, .k⟩]⟩,
  ⟨"SYNC", 0x28, 0, 1, [⟨16, 16, .rw, 0xa, .l⟩, ⟨0, 8, .rw, 8, .l⟩]⟩,
  ⟨"RLEASE", 0x2c, 0, 1, [⟨0, 32, .wo, 0, .l⟩]⟩,
  ⟨"EXPNS", 0x30, 0, 1, [⟨0, 30, .rw, 0, .l⟩]⟩,
  ⟨"EXPSL", 0x34, 0, 1, [⟨0, 32, .rw, 0, .l⟩]⟩,
  ⟨"EXPSH", 0x38, 0, 1, [⟨0, 16, .rw, 0, .l⟩]⟩,
  ⟨"RELAYUP", 0x40, 0, 1, [⟨0, 12, .rw, 0, .k⟩]⟩,
  ⟨"RELAYDST", 0x44, 0, 1, [⟨0, 12, .rw, 0, .k⟩]⟩,
  ⟨"RDN", 0x48, 4, 3, [⟨31, 1, .rw, 0, .k⟩, ⟨16, 13, .rw, 0, .k⟩, ⟨0, 12, .rw, 0, .k⟩]⟩,
  ⟨"MBEAT", 0x58, 0, 1, [⟨0, 2, .wo, 0, .l⟩]⟩,
  ⟨"MSEEN", 0x5c, 0, 1, [⟨0, 3, .ext, 0, .none⟩]⟩,
  ⟨"STKIN", 0x60, 0, 1, [⟨0, 32, .wo, 0, .l⟩]⟩,
  ⟨"STATMODE", 0x64, 0, 1, [⟨16, 2, .rw, 0, .s⟩, ⟨0, 16, .rw, 0x3e8, .s⟩]⟩,
  ⟨"COMMIT", 0x68, 0, 1, [⟨0, 1, .w1s, 0, .l⟩]⟩,
  ⟨"TAKECNT RELCNT LAPSECNT RECLAIMCNT ABORTCNT DIVCNT SLIPCNT RELAYDROP", 0x100, 4, 8, [⟨0, 32, .rc, 0, .none⟩]⟩]

/-- Registers of the SWC block. -/
def swcRegs : List RegD := [
  ⟨"CTL", 0x0, 0, 1, [⟨1, 1, .rw, 0, .l⟩, ⟨0, 1, .rw, 0, .l⟩]⟩,
  ⟨"STAT", 0x4, 0, 1, [⟨1, 1, .ro, 0, .none⟩, ⟨0, 1, .ro, 0, .none⟩]⟩,
  ⟨"FLAG", 0x8, 0, 1, [⟨1, 1, .w1c, 0, .l⟩, ⟨0, 1, .w1c, 0, .l⟩]⟩,
  ⟨"IEN", 0xc, 0, 1, [⟨0, 2, .rw, 0, .l⟩]⟩,
  ⟨"POOL", 0x10, 0, 1, [⟨0, 15, .rw, 0x200, .k⟩]⟩,
  ⟨"LOSSLESS", 0x14, 0, 1, [⟨0, 8, .rw, 0x38, .k⟩]⟩,
  ⟨"WRR", 0x18, 0, 1, [⟨16, 8, .rw, 4, .l⟩, ⟨8, 8, .rw, 2, .l⟩, ⟨0, 8, .rw, 1, .l⟩]⟩,
  ⟨"COMMIT", 0x1c, 0, 1, [⟨0, 1, .w1s, 0, .l⟩]⟩,
  ⟨"SPILLCLS", 0x20, 0, 1, [⟨0, 8, .rw, 7, .k⟩]⟩,
  ⟨"STATMODE", 0x24, 0, 1, [⟨16, 2, .rw, 0, .s⟩, ⟨0, 16, .rw, 0x3e8, .s⟩]⟩,
  ⟨"LLDROP", 0x28, 0, 1, [⟨0, 32, .rc, 0, .none⟩]⟩,
  ⟨"QCFG", 0x100, 4, 56, [⟨16, 15, .rw, 0x800, .s⟩, ⟨0, 15, .rw, 0x24, .s⟩]⟩,
  ⟨"QUSE", 0x200, 4, 56, [⟨16, 15, .rc, 0, .none⟩, ⟨0, 15, .ext, 0, .none⟩]⟩,
  ⟨"QDROP", 0x300, 4, 56, [⟨0, 32, .rc, 0, .none⟩]⟩,
  ⟨"IN_TH", 0x400, 4, 7, [⟨22, 10, .rw, 0x90, .s⟩, ⟨11, 11, .rw, 0xc0, .s⟩, ⟨0, 11, .rw, 0x100, .s⟩]⟩]

/-- Registers of the TILE block. -/
def tileRegs : List RegD := [
  ⟨"CTL", 0x0, 0, 1, [⟨0, 1, .rw, 1, .l⟩]⟩,
  ⟨"SCRUB", 0x4, 0, 1, [⟨0, 16, .rw, 0x3e8, .l⟩]⟩,
  ⟨"FLAG", 0x8, 0, 1, [⟨3, 1, .w1c, 0, .l⟩, ⟨2, 1, .w1c, 0, .l⟩, ⟨1, 1, .w1c, 0, .l⟩, ⟨0, 1, .w1c, 0, .l⟩]⟩,
  ⟨"IEN", 0xc, 0, 1, [⟨0, 4, .rw, 0, .l⟩]⟩,
  ⟨"PART", 0x10, 4, 4, [⟨16, 13, .rw, 0, .k⟩, ⟨0, 14, .rw, 0, .k⟩]⟩,
  ⟨"POOL", 0x20, 0, 1, [⟨16, 15, .ext, 0, .none⟩, ⟨0, 15, .ext, 0, .none⟩]⟩,
  ⟨"QCFG", 0x24, 0, 1, [⟨0, 7, .rw, 0x30, .l⟩]⟩,
  ⟨"QSTAT", 0x28, 0, 1, [⟨16, 7, .rc, 0, .none⟩, ⟨0, 7, .ext, 0, .none⟩]⟩,
  ⟨"FAILCNT", 0x2c, 0, 1, [⟨0, 32, .rc, 0, .none⟩]⟩,
  ⟨"SCRUBCNT", 0x30, 0, 1, [⟨0, 32, .ro, 0, .none⟩]⟩,
  ⟨"CHKSEL", 0x34, 0, 1, [⟨0, 14, .rw, 0, .l⟩]⟩,
  ⟨"CHKVAL", 0x38, 0, 1, [⟨0, 32, .ext, 0, .none⟩]⟩,
  ⟨"INJECT", 0x3c, 0, 1, [⟨31, 1, .w1s, 0, .l⟩, ⟨0, 14, .rw, 0, .l⟩]⟩,
  ⟨"QENT", 0x100, 4, 64, [⟨31, 1, .ext, 0, .none⟩, ⟨30, 1, .ext, 0, .none⟩, ⟨27, 3, .ext, 0, .none⟩, ⟨24, 3, .ext, 0, .none⟩, ⟨22, 2, .ext, 0, .none⟩, ⟨0, 14, .ext, 0, .none⟩]⟩]

/-- Registers of the BRG block. -/
def brgRegs : List RegD := [
  ⟨"CTL", 0x0, 0, 1, [⟨0, 1, .rw, 0, .l⟩]⟩,
  ⟨"STAT", 0x4, 0, 1, [⟨16, 9, .ext, 0, .none⟩, ⟨0, 8, .ext, 0, .none⟩]⟩,
  ⟨"FLAG", 0x8, 0, 1, [⟨6, 1, .w1c, 0, .l⟩, ⟨5, 1, .w1c, 0, .l⟩, ⟨4, 1, .w1c, 0, .l⟩, ⟨3, 1, .w1c, 0, .l⟩, ⟨2, 1, .w1c, 0, .l⟩, ⟨1, 1, .w1c, 0, .l⟩, ⟨0, 1, .w1c, 0, .l⟩]⟩,
  ⟨"IEN", 0xc, 0, 1, [⟨0, 7, .rw, 0, .l⟩]⟩,
  ⟨"CTO", 0x10, 0, 1, [⟨0, 14, .rw, 0x32, .l⟩]⟩,
  ⟨"LIFE", 0x14, 0, 1, [⟨0, 16, .rw, 0x64, .l⟩]⟩,
  ⟨"TAGCFG", 0x18, 0, 1, [⟨16, 8, .rw, 0x64, .l⟩, ⟨8, 8, .rw, 0x40, .l⟩, ⟨0, 8, .rw, 8, .l⟩]⟩,
  ⟨"RTCFG", 0x1c, 0, 1, [⟨16, 16, .rw, 0xc8, .l⟩, ⟨0, 4, .rw, 2, .l⟩]⟩,
  ⟨"LKCFG", 0x20, 0, 1, [⟨16, 16, .rw, 0x64, .l⟩, ⟨8, 8, .rw, 0x32, .l⟩, ⟨0, 8, .rw, 5, .l⟩]⟩,
  ⟨"EVCFG", 0x24, 0, 1, [⟨0, 16, .rw, 0xa, .l⟩]⟩,
  ⟨"COMMIT", 0x28, 0, 1, [⟨0, 1, .w1s, 0, .l⟩]⟩,
  ⟨"TUNCFG", 0x2c, 0, 1, [⟨4, 4, .rw, 0, .s⟩, ⟨0, 1, .rw, 0, .l⟩]⟩,
  ⟨"STATMODE", 0x30, 0, 1, [⟨16, 2, .rw, 0, .s⟩, ⟨0, 16, .rw, 0x3e8, .s⟩]⟩,
  ⟨"NPCNT PCNT RETRYCNT BACKOFFCNT CTOCNT STALECPL TAGSTALL SLOTEXP EVSUPP LOCKBRK LKDROP TUNDROP BCDISC", 0x40, 4, 13, [⟨0, 32, .rc, 0, .none⟩]⟩,
  ⟨"LANELK", 0x100, 4, 64, [⟨31, 1, .ext, 0, .none⟩, ⟨16, 8, .ext, 0, .none⟩, ⟨14, 2, .ext, 0, .none⟩, ⟨8, 4, .ext, 0, .none⟩]⟩,
  ⟨"WIN_BASE", 0x1000, 16, 64, [⟨30, 2, .rw, 0, .s⟩, ⟨0, 28, .rw, 0, .s⟩]⟩,
  ⟨"WIN_LIMIT", 0x1004, 16, 64, [⟨0, 28, .rw, 0, .s⟩]⟩,
  ⟨"WIN_ATTR", 0x1008, 16, 64, [⟨31, 1, .rw, 0, .s⟩, ⟨24, 4, .rw, 0, .s⟩, ⟨7, 1, .rw, 0, .s⟩, ⟨6, 1, .rw, 0, .s⟩, ⟨5, 1, .rw, 0, .s⟩, ⟨4, 1, .rw, 0, .s⟩, ⟨3, 1, .rw, 0, .s⟩, ⟨2, 1, .rw, 0, .s⟩, ⟨1, 1, .rw, 0, .s⟩]⟩,
  ⟨"ALLOW0", 0x2000, 4, 8, [⟨0, 32, .ro, 0xffffffff, .none⟩]⟩,
  ⟨"ALLOW", 0x2000, 4, 128, [⟨0, 32, .rw, 0, .s⟩]⟩,
  ⟨"TUN_SRC", 0x3000, 16, 16, [⟨0, 6, .rw, 0, .k⟩]⟩,
  ⟨"TUN_DST", 0x3004, 16, 16, [⟨16, 8, .rw, 0, .k⟩, ⟨14, 2, .rw, 0, .k⟩, ⟨0, 6, .rw, 0, .k⟩]⟩,
  ⟨"TUN_CFG", 0x3008, 16, 16, [⟨31, 1, .rw, 0, .l⟩, ⟨0, 16, .rw, 0, .k⟩]⟩]

/-- Registers of the ECH block. -/
def echRegs : List RegD := [
  ⟨"CTL", 0x0, 0, 1, [⟨0, 1, .rw, 0, .l⟩]⟩,
  ⟨"CFG", 0x4, 0, 1, [⟨8, 3, .rw, 2, .l⟩, ⟨0, 7, .rw, 0x20, .l⟩]⟩,
  ⟨"TIME", 0x8, 0, 1, [⟨16, 16, .rw, 2, .l⟩, ⟨0, 16, .rw, 0x32, .l⟩]⟩,
  ⟨"SALVLIFE", 0xc, 0, 1, [⟨0, 16, .rw, 0x3e8, .l⟩]⟩,
  ⟨"FLAG", 0x10, 0, 1, [⟨2, 1, .w1c, 0, .l⟩, ⟨1, 1, .w1c, 0, .l⟩, ⟨0, 1, .w1c, 0, .l⟩]⟩,
  ⟨"IEN", 0x14, 0, 1, [⟨0, 3, .rw, 0, .l⟩]⟩,
  ⟨"SALVCLR", 0x18, 0, 1, [⟨0, 8, .w1s, 0, .l⟩]⟩,
  ⟨"FETCH HIT DISCARD SALVSERVE SALVEXP SALVLOST", 0x20, 4, 6, [⟨0, 32, .rc, 0, .none⟩]⟩,
  ⟨"SALVSEL", 0x40, 0, 1, [⟨4, 3, .rw, 0, .l⟩, ⟨0, 4, .rw, 0, .l⟩]⟩,
  ⟨"SALVINFO", 0x44, 0, 1, [⟨31, 1, .ext, 0, .none⟩, ⟨30, 1, .ext, 0, .none⟩, ⟨28, 2, .ext, 0, .none⟩, ⟨24, 3, .ext, 0, .none⟩, ⟨0, 9, .ext, 0, .none⟩]⟩,
  ⟨"SALVADDR", 0x48, 0, 1, [⟨0, 30, .ext, 0, .none⟩]⟩,
  ⟨"SALVTNS", 0x4c, 0, 1, [⟨0, 30, .ext, 0, .none⟩]⟩,
  ⟨"SALVTSL", 0x50, 0, 1, [⟨0, 32, .ext, 0, .none⟩]⟩]

/-- Registers of the DRM block. -/
def drmRegs : List RegD := [
  ⟨"CTL", 0x0, 0, 1, [⟨1, 3, .rw, 0, .k⟩, ⟨0, 1, .rw, 0, .l⟩]⟩,
  ⟨"STAT", 0x4, 0, 1, [⟨2, 1, .ro, 0, .none⟩, ⟨1, 1, .ro, 0, .none⟩, ⟨0, 1, .ro, 0, .none⟩]⟩,
  ⟨"TRAIN", 0x8, 0, 1, [⟨1, 2, .rw, 0, .l⟩, ⟨0, 1, .w1s, 0, .l⟩]⟩,
  ⟨"TIMING", 0x10, 4, 8, [⟨0, 32, .rw, 0, .k⟩]⟩,
  ⟨"TRAINVAL", 0x40, 4, 16, [⟨0, 32, .rw, 0, .k⟩]⟩,
  ⟨"RDERR", 0x80, 0, 1, [⟨0, 32, .rc, 0, .none⟩]⟩,
  ⟨"SPILL_BASE", 0x200, 0, 1, [⟨0, 11, .rw, 0, .k⟩]⟩,
  ⟨"SPILL_SIZE", 0x204, 0, 1, [⟨0, 11, .rw, 0, .k⟩]⟩,
  ⟨"SPILL_HI", 0x208, 0, 1, [⟨0, 15, .rw, 0x400, .l⟩]⟩,
  ⟨"REFILL_LO", 0x20c, 0, 1, [⟨0, 15, .rw, 0x400, .l⟩]⟩,
  ⟨"SPILLSTAT", 0x210, 0, 1, [⟨31, 1, .ro, 0, .none⟩, ⟨0, 22, .ext, 0, .none⟩]⟩,
  ⟨"SPILLCNT", 0x214, 0, 1, [⟨0, 32, .rc, 0, .none⟩]⟩,
  ⟨"REFILLCNT", 0x218, 0, 1, [⟨0, 32, .rc, 0, .none⟩]⟩,
  ⟨"SPILLDROP", 0x21c, 0, 1, [⟨0, 32, .rc, 0, .none⟩]⟩]

/-- Registers of the HST block. -/
def hstRegs : List RegD := [
  ⟨"PCIID", 0x0, 0, 1, [⟨16, 16, .ro, 0x6425, .none⟩, ⟨0, 16, .ext, 0, .none⟩]⟩,
  ⟨"RXCFG", 0x4, 0, 1, [⟨0, 16, .rw, 0x64, .l⟩]⟩,
  ⟨"TXR_BASEL", 0x1000, 64, 8, [⟨5, 27, .rw, 0, .k⟩]⟩,
  ⟨"TXR_BASEH", 0x1004, 64, 8, [⟨0, 32, .rw, 0, .k⟩]⟩,
  ⟨"TXR_CTL", 0x1008, 64, 8, [⟨8, 4, .rw, 4, .k⟩, ⟨0, 1, .rw, 0, .l⟩]⟩,
  ⟨"TXR_HEAD", 0x100c, 64, 8, [⟨0, 13, .ro, 0, .none⟩]⟩,
  ⟨"TXR_TAIL", 0x1010, 64, 8, [⟨0, 13, .rw, 0, .l⟩]⟩,
  ⟨"RXR_BASEL", 0x2000, 64, 8, [⟨5, 27, .rw, 0, .k⟩]⟩,
  ⟨"RXR_BASEH", 0x2004, 64, 8, [⟨0, 32, .rw, 0, .k⟩]⟩,
  ⟨"RXR_CTL", 0x2008, 64, 8, [⟨8, 4, .rw, 4, .k⟩, ⟨1, 1, .rw, 0, .l⟩, ⟨0, 1, .rw, 0, .l⟩]⟩,
  ⟨"RXR_HEAD", 0x200c, 64, 8, [⟨0, 13, .ro, 0, .none⟩]⟩,
  ⟨"RXR_TAIL", 0x2010, 64, 8, [⟨0, 13, .rw, 0, .l⟩]⟩,
  ⟨"RXDROP", 0x3000, 0, 1, [⟨0, 32, .rc, 0, .none⟩]⟩,
  ⟨"RXTRUNC", 0x3004, 0, 1, [⟨0, 32, .rc, 0, .none⟩]⟩,
  ⟨"RXBAD", 0x3008, 0, 1, [⟨0, 32, .rc, 0, .none⟩]⟩,
  ⟨"RXNODESC", 0x300c, 0, 1, [⟨0, 32, .rc, 0, .none⟩]⟩,
  ⟨"MSIX", 0x8000, 4, 256, [⟨0, 32, .rw, 0, .l⟩]⟩,
  ⟨"MSIXPBA", 0x9000, 4, 2, [⟨0, 32, .ro, 0, .none⟩]⟩]

/-- Registers of the RFX block. -/
def rfxRegs : List RegD := [
  ⟨"CTL", 0x0, 0, 1, [⟨1, 1, .rw, 0, .l⟩, ⟨0, 1, .rw, 0, .l⟩]⟩,
  ⟨"STAT", 0x4, 0, 1, [⟨16, 7, .ext, 0, .none⟩, ⟨8, 3, .ro, 0, .none⟩, ⟨0, 1, .ro, 0, .none⟩]⟩,
  ⟨"FLAG", 0x8, 0, 1, [⟨5, 1, .w1c, 0, .l⟩, ⟨4, 1, .w1c, 0, .l⟩, ⟨3, 1, .w1c, 0, .l⟩, ⟨2, 1, .w1c, 0, .l⟩, ⟨1, 1, .w1c, 0, .l⟩, ⟨0, 1, .w1c, 0, .l⟩]⟩,
  ⟨"IEN", 0xc, 0, 1, [⟨0, 6, .rw, 0, .l⟩]⟩,
  ⟨"ENTRY", 0x10, 0, 1, [⟨1, 15, .rw, 0, .k⟩]⟩,
  ⟨"TCMADDR", 0x14, 0, 1, [⟨31, 1, .rw, 0, .l⟩, ⟨2, 14, .rw, 0, .l⟩]⟩,
  ⟨"TCMDATA", 0x18, 0, 1, [⟨0, 32, .ext, 0, .none⟩]⟩,
  ⟨"WDT", 0x1c, 0, 1, [⟨0, 24, .rw, 0, .l⟩]⟩,
  ⟨"EVEN", 0x20, 0, 1, [⟨3, 1, .rw, 0, .l⟩, ⟨2, 1, .rw, 0, .l⟩, ⟨1, 1, .rw, 0, .l⟩, ⟨0, 1, .rw, 0, .l⟩]⟩,
  ⟨"EVPOST", 0x24, 0, 1, [⟨0, 16, .wo, 0, .l⟩]⟩,
  ⟨"EVLOST", 0x28, 0, 1, [⟨0, 32, .rc, 0, .none⟩]⟩,
  ⟨"ISSREJ", 0x2c, 0, 1, [⟨0, 32, .rc, 0, .none⟩]⟩,
  ⟨"RESTARTCNT", 0x30, 0, 1, [⟨0, 32, .rc, 0, .none⟩]⟩,
  ⟨"ECCCNT", 0x34, 0, 1, [⟨0, 32, .rc, 0, .none⟩]⟩]

/-- Registers of the RFXC block. -/
def rfxcRegs : List RegD := [
  ⟨"LSUB", 0x0, 4, 64, [⟨8, 8, .rw, 0, .l⟩, ⟨0, 8, .rw, 0, .l⟩]⟩,
  ⟨"RSUB", 0x100, 4, 8, [⟨0, 8, .rw, 0, .l⟩]⟩,
  ⟨"PSUB", 0x120, 4, 4, [⟨0, 8, .rw, 0, .l⟩]⟩,
  ⟨"LIVE", 0x200, 0, 1, [⟨16, 13, .rw, 0, .k⟩, ⟨0, 12, .rw, 0, .k⟩]⟩,
  ⟨"BANK", 0x204, 4, 2, [⟨0, 12, .rw, 0, .k⟩]⟩,
  ⟨"LMAP_I", 0x400, 8, 64, [⟨31, 1, .rw, 0, .s⟩, ⟨0, 20, .rw, 0, .s⟩]⟩,
  ⟨"LMAP_O", 0x404, 8, 64, [⟨31, 1, .rw, 0, .s⟩, ⟨0, 20, .rw, 0, .s⟩]⟩,
  ⟨"STALE", 0x800, 4, 16, [⟨0, 32, .ext, 0, .none⟩]⟩,
  ⟨"POIS", 0x840, 4, 16, [⟨0, 32, .ext, 0, .none⟩]⟩,
  ⟨"LPOIS", 0x880, 4, 2, [⟨0, 32, .ext, 0, .none⟩]⟩]

/-- Registers of the LN block. -/
def laneRegs : List RegD := [
  ⟨"FUNC", 0x0, 0, 1, [⟨4, 1, .rw, 0, .k⟩, ⟨0, 4, .rw, 0xf, .k⟩]⟩,
  ⟨"CTL", 0x4, 0, 1, [⟨3, 1, .w1s, 0, .l⟩, ⟨2, 1, .w1s, 0, .l⟩, ⟨1, 1, .w1s, 0, .l⟩, ⟨0, 1, .rw, 0, .l⟩]⟩,
  ⟨"STAT", 0x8, 0, 1, [⟨25, 1, .ro, 0, .none⟩, ⟨24, 1, .ext, 0, .none⟩, ⟨16, 7, .ext, 0, .none⟩, ⟨8, 7, .ext, 0, .none⟩, ⟨4, 4, .ro, 0, .none⟩, ⟨0, 3, .ro, 0, .none⟩]⟩,
  ⟨"FLAG", 0xc, 0, 1, [⟨13, 1, .w1c, 0, .l⟩, ⟨12, 1, .w1c, 0, .l⟩, ⟨11, 1, .w1c, 0, .l⟩, ⟨10, 1, .w1c, 0, .l⟩, ⟨9, 1, .w1c, 0, .l⟩, ⟨8, 1, .w1c, 0, .l⟩, ⟨7, 1, .w1c, 0, .l⟩, ⟨6, 1, .w1c, 0, .l⟩, ⟨5, 1, .w1c, 0, .l⟩, ⟨4, 1, .w1c, 0, .l⟩, ⟨3, 1, .w1c, 0, .l⟩, ⟨2, 1, .w1c, 0, .l⟩, ⟨1, 1, .w1c, 0, .l⟩, ⟨0, 1, .w1c, 0, .l⟩]⟩,
  ⟨"IEN", 0x10, 0, 1, [⟨0, 14, .rw, 0, .l⟩]⟩,
  ⟨"FIFO", 0x14, 0, 1, [⟨8, 7, .rw, 0x20, .l⟩, ⟨0, 7, .rw, 0x20, .l⟩]⟩,
  ⟨"TXDATA", 0x18, 0, 1, [⟨0, 32, .wo, 0, .l⟩]⟩,
  ⟨"RXDATA", 0x1c, 0, 1, [⟨0, 32, .ext, 0, .none⟩]⟩,
  ⟨"RXTAG", 0x20, 0, 1, [⟨8, 4, .ro, 0, .none⟩, ⟨1, 1, .ro, 0, .none⟩, ⟨0, 1, .ro, 0, .none⟩]⟩,
  ⟨"IO", 0x24, 0, 1, [⟨16, 3, .ext, 0, .none⟩, ⟨8, 3, .ext, 0, .none⟩, ⟨0, 3, .rw, 0, .l⟩]⟩,
  ⟨"HOLD", 0x28, 0, 1, [⟨16, 16, .rw, 0, .s⟩, ⟨0, 16, .rw, 0x1f4, .s⟩]⟩,
  ⟨"DROP", 0x2c, 0, 1, [⟨16, 16, .rc, 0, .none⟩, ⟨0, 16, .rc, 0, .none⟩]⟩,
  ⟨"COMMIT", 0x30, 0, 1, [⟨0, 1, .w1s, 0, .l⟩]⟩,
  ⟨"ACTDROP", 0x34, 0, 1, [⟨0, 16, .rc, 0, .none⟩]⟩,
  ⟨"PIN", 0x40, 4, 3, [⟨31, 1, .ext, 0, .none⟩, ⟨20, 11, .rw, 0, .l⟩, ⟨18, 2, .rw, 0, .l⟩, ⟨16, 2, .rw, 0, .l⟩, ⟨12, 4, .rw, 0, .s⟩, ⟨10, 1, .rw, 0, .k⟩, ⟨9, 1, .rw, 0, .k⟩, ⟨8, 1, .rw, 0, .l⟩, ⟨6, 2, .rw, 2, .l⟩, ⟨4, 2, .rw, 1, .l⟩, ⟨0, 3, .rw, 0, .k⟩]⟩,
  ⟨"CFG", 0x50, 4, 4, [⟨0, 32, .ext, 0, .none⟩]⟩]

/-- Registers of the IOB block. -/
def bankRegs : List RegD := [
  ⟨"CTL", 0x0, 0, 1, [⟨9, 1, .rw, 1, .l⟩, ⟨8, 1, .ro, 0, .none⟩, ⟨0, 2, .rw, 2, .k⟩]⟩]

/-- Registers of the REED block, part 1. -/
def reedRegs1 : List RegD := [
  ⟨"CTL", 0x0, 0, 1, [⟨2, 1, .rw, 0, .l⟩, ⟨1, 1, .w1s, 0, .l⟩, ⟨0, 1, .rw, 0, .l⟩]⟩,
  ⟨"STAT", 0x4, 0, 1, [⟨16, 16, .ext, 0, .none⟩, ⟨4, 4, .ro, 0, .none⟩, ⟨3, 1, .ext, 0, .none⟩, ⟨2, 1, .ext, 0, .none⟩, ⟨0, 1, .ro, 0, .none⟩]⟩,
  ⟨"FLAG", 0x8, 0, 1, [⟨7, 1, .w1c, 0, .l⟩, ⟨6, 1, .w1c, 0, .l⟩, ⟨5, 1, .w1c, 0, .l⟩, ⟨4, 1, .w1c, 0, .l⟩, ⟨3, 1, .w1c, 0, .l⟩, ⟨2, 1, .w1c, 0, .l⟩, ⟨1, 1, .w1c, 0, .l⟩, ⟨0, 1, .w1c, 0, .l⟩]⟩,
  ⟨"IEN", 0xc, 0, 1, [⟨0, 8, .rw, 0, .l⟩]⟩,
  ⟨"CTXEN", 0x10, 0, 1, [⟨0, 16, .rw, 0, .l⟩]⟩,
  ⟨"SLOT0", 0x14, 0, 1, [⟨0, 32, .rw, 0x76543210, .k⟩]⟩,
  ⟨"SLOT1", 0x18, 0, 1, [⟨0, 32, .rw, 0xfedcba98, .k⟩]⟩,
  ⟨"RUNAHEAD", 0x1c, 0, 1, [⟨0, 15, .rw, 0x640, .l⟩]⟩,
  ⟨"PMAP", 0x20, 4, 3, [⟨0, 32, .rw, 0, .k⟩]⟩,
  ⟨"FIFOMAP", 0x2c, 0, 1, [⟨0, 8, .rw, 0, .k⟩]⟩,
  ⟨"SYNC", 0x30, 0, 1, [⟨4, 1, .rw, 0, .l⟩, ⟨3, 1, .rw, 0, .l⟩, ⟨2, 1, .rw, 0, .l⟩, ⟨1, 1, .w1s, 0, .l⟩, ⟨0, 1, .w1s, 0, .l⟩]⟩,
  ⟨"SYNCT", 0x34, 4, 3, [⟨0, 32, .rw, 0, .l⟩]⟩,
  ⟨"LOAD", 0x40, 4, 2, [⟨0, 32, .rw, 0, .l⟩]⟩,
  ⟨"AQCFG", 0x48, 0, 1, [⟨0, 8, .rw, 0x20, .k⟩]⟩,
  ⟨"AQSTAT", 0x4c, 0, 1, [⟨16, 9, .rc, 0, .none⟩, ⟨0, 9, .ext, 0, .none⟩]⟩,
  ⟨"LATECNT SQUASHCNT MISPCNT COLLCNT REFUSECNT", 0x50, 4, 5, [⟨0, 32, .rc, 0, .none⟩]⟩,
  ⟨"ACNTL", 0x100, 0, 1, [⟨0, 32, .ext, 0, .none⟩]⟩,
  ⟨"ACNTH", 0x104, 0, 1, [⟨0, 32, .ext, 0, .none⟩]⟩,
  ⟨"OFFCL", 0x108, 0, 1, [⟨0, 32, .ext, 0, .none⟩]⟩,
  ⟨"OFFCH", 0x10c, 0, 1, [⟨0, 32, .ext, 0, .none⟩]⟩,
  ⟨"OFFGS", 0x110, 0, 1, [⟨0, 32, .ext, 0, .none⟩]⟩,
  ⟨"OFFGH", 0x114, 0, 1, [⟨0, 32, .ext, 0, .none⟩]⟩,
  ⟨"OFFGN", 0x118, 0, 1, [⟨0, 30, .ext, 0, .none⟩]⟩,
  ⟨"RATE", 0x11c, 0, 1, [⟨0, 32, .ext, 0xa0000000, .none⟩]⟩]

/-- Registers of the REED block, part 2. -/
def reedRegs2 : List RegD := [
  ⟨"CTX", 0x400, 4, 256, [⟨0, 32, .ext, 0, .none⟩]⟩,
  ⟨"PMEM", 0x4000, 4, 2048, [⟨0, 32, .ext, 0, .none⟩]⟩]

/-- Registers of the REED block. -/
def reedRegs : List RegD := reedRegs1 ++ reedRegs2

/-- Registers of the CAN block. -/
def canRegs : List RegD := [
  ⟨"CTL", 0x0, 0, 1, [⟨8, 1, .w1s, 0, .k⟩, ⟨7, 1, .rw, 0, .l⟩, ⟨6, 1, .rw, 0, .k⟩, ⟨5, 1, .rw, 0, .k⟩, ⟨4, 1, .rw, 0, .k⟩, ⟨3, 1, .rw, 1, .k⟩, ⟨2, 1, .rw, 1, .k⟩, ⟨1, 1, .rw, 0, .k⟩, ⟨0, 1, .rw, 0, .l⟩]⟩,
  ⟨"STAT", 0x4, 0, 1, [⟨24, 8, .ro, 0, .none⟩, ⟨16, 3, .ro, 0, .none⟩, ⟨12, 3, .ro, 0, .none⟩, ⟨10, 2, .ro, 0, .none⟩, ⟨9, 1, .ext, 0, .none⟩, ⟨8, 1, .ro, 0, .none⟩, ⟨0, 4, .ro, 0, .none⟩]⟩,
  ⟨"FLAG", 0x8, 0, 1, [⟨12, 1, .w1c, 0, .l⟩, ⟨11, 1, .w1c, 0, .l⟩, ⟨10, 1, .w1c, 0, .l⟩, ⟨9, 1, .w1c, 0, .l⟩, ⟨8, 1, .w1c, 0, .l⟩, ⟨7, 1, .w1c, 0, .l⟩, ⟨6, 1, .w1c, 0, .l⟩, ⟨5, 1, .w1c, 0, .l⟩, ⟨4, 1, .w1c, 0, .l⟩, ⟨3, 1, .w1c, 0, .l⟩, ⟨2, 1, .w1c, 0, .l⟩, ⟨1, 1, .w1c, 0, .l⟩, ⟨0, 1, .w1c, 0, .l⟩]⟩,
  ⟨"IEN", 0xc, 0, 1, [⟨0, 13, .rw, 0, .l⟩]⟩,
  ⟨"BTIME", 0x10, 0, 1, [⟨24, 8, .rw, 7, .k⟩, ⟨16, 8, .rw, 0x4e, .k⟩, ⟨9, 7, .rw, 0x13, .k⟩, ⟨2, 7, .rw, 0x13, .k⟩]⟩,
  ⟨"DBTIME", 0x14, 0, 1, [⟨24, 5, .rw, 4, .k⟩, ⟨16, 5, .rw, 0xe, .k⟩, ⟨8, 4, .rw, 3, .k⟩, ⟨0, 4, .rw, 3, .k⟩]⟩,
  ⟨"TDC", 0x18, 0, 1, [⟨31, 1, .rw, 0, .k⟩, ⟨16, 8, .rw, 0, .k⟩, ⟨8, 8, .rw, 0, .k⟩, ⟨0, 8, .ro, 0, .none⟩]⟩,
  ⟨"ECNT", 0x1c, 0, 1, [⟨24, 8, .rc, 0, .none⟩, ⟨15, 1, .ext, 0, .none⟩, ⟨8, 7, .ext, 0, .none⟩, ⟨0, 8, .ext, 0, .none⟩]⟩,
  ⟨"WAKE", 0x20, 0, 1, [⟨24, 2, .rw, 0, .k⟩, ⟨16, 8, .rw, 0, .k⟩, ⟨8, 8, .rw, 0, .k⟩, ⟨0, 7, .rw, 0, .k⟩]⟩,
  ⟨"WBTIME", 0x24, 0, 1, [⟨24, 8, .rw, 0, .k⟩, ⟨16, 8, .rw, 0x26, .k⟩, ⟨9, 7, .rw, 9, .k⟩, ⟨2, 7, .rw, 9, .k⟩]⟩,
  ⟨"TUNCFG0", 0x28, 0, 1, [⟨31, 1, .rw, 0, .k⟩, ⟨26, 4, .rw, 0, .k⟩, ⟨24, 2, .rw, 0, .k⟩, ⟨16, 8, .rw, 0, .k⟩, ⟨8, 8, .rw, 0, .k⟩]⟩,
  ⟨"TUNCFG1", 0x2c, 0, 1, [⟨31, 1, .rw, 0, .k⟩, ⟨16, 7, .rw, 0, .k⟩, ⟨0, 7, .rw, 0, .k⟩]⟩,
  ⟨"CLASHCNT LOSTCNT BOCNT TUNDROP", 0x30, 4, 4, [⟨0, 32, .rc, 0, .none⟩]⟩,
  ⟨"OBJEN", 0x40, 4, 4, [⟨0, 32, .ext, 0, .none⟩]⟩,
  ⟨"TXREQ", 0x50, 4, 4, [⟨0, 32, .ext, 0, .none⟩]⟩,
  ⟨"TXCANCEL", 0x60, 4, 4, [⟨0, 32, .ext, 0, .none⟩]⟩,
  ⟨"NEWDAT", 0x70, 4, 4, [⟨0, 32, .ext, 0, .none⟩]⟩,
  ⟨"TXDONE", 0x80, 4, 4, [⟨0, 32, .ext, 0, .none⟩]⟩,
  ⟨"RAM", 0x1000, 4, 2560, [⟨0, 32, .ext, 0, .none⟩]⟩]

/-- The registers of a block. -/
def Block.regs : Block → List RegD
  | .glb => glbRegs
  | .pwr => pwrRegs
  | .plt => pltRegs
  | .blw => blwRegs
  | .clk => clkRegs
  | .err => errRegs
  | .sem => semRegs
  | .cfg => cfgRegs
  | .mbx _ => mbxRegs
  | .sec => secRegs
  | .gno => gnoRegs
  | .link _ => linkRegs
  | .ts _ => tsRegs
  | .rng => rngRegs
  | .drn => drnRegs
  | .lmp => lmpRegs
  | .swc => swcRegs
  | .tile => tileRegs
  | .brg => brgRegs
  | .ech => echRegs
  | .drm => drmRegs
  | .hst => hstRegs
  | .rfx _ => rfxRegs
  | .rfxc => rfxcRegs
  | .lane _ => laneRegs
  | .bank _ => bankRegs
  | .reed _ => reedRegs
  | .can _ => canRegs

/-- A field of a register: absolute offset of the register, lowest bit, width. -/
structure Fld where
  off : Nat
  lo : Nat
  w : Nat
  deriving DecidableEq, Repr

/-- The key a field is stored under. -/
def Fld.key (f : Fld) : Nat := f.off * 32 + f.lo

/-- P-die addresses decode as R470 gives: cluster, then lane, bank, reed engine or CAN controller. -/
def locateP (a : Nat) : Option (Block × Nat) :=
  let c := (a - 0x100000) / 0x20000
  let r := (a - 0x100000) % 0x20000
  if hc : c < 8 then
    if hr : r < 0x8000 then
      some (.lane ⟨8 * c + r / 0x1000, by omega⟩, r % 0x1000)
    else if r < 0x10000 then some (.bank ⟨c, hc⟩, r - 0x8000)
    else if r < 0x18000 then some (.reed ⟨c, hc⟩, r - 0x10000)
    else if hk : (r - 0x18000) / 0x4000 < 2 then
      some (.can ⟨2 * c + (r - 0x18000) / 0x4000, by omega⟩, (r - 0x18000) % 0x4000)
    else none
  else none

/-- F-die addresses by the ranges of Table 17.1. The timestamp, RNG and DRN pages are told from their link here. -/
def locateF (a : Nat) : Option (Block × Nat) :=
  if a < 0x10000 then some (.glb, a)
  else if a < 0x10800 then some (.pwr, a - 0x10000)
  else if a < 0x18000 then some (.plt, a - 0x10800)
  else if a < 0x20000 then some (.blw, a - 0x18000)
  else if a < 0x30000 then some (.clk, a - 0x20000)
  else if a < 0x38000 then some (.err, a - 0x30000)
  else if a < 0x40000 then some (.sem, a - 0x38000)
  else if a < 0x50000 then some (.cfg, a - 0x40000)
  else if a < 0x51000 then some (.mbx 0, a - 0x50000)
  else if a < 0x54000 then some (.mbx 1, a - 0x51000)
  else if a < 0x58000 then some (.sec, a - 0x54000)
  else if a < 0x59000 then some (.mbx 2, a - 0x58000)
  else if a < 0x60000 then some (.mbx 3, a - 0x59000)
  else if a < 0x70000 then some (.gno, a - 0x60000)
  else if a < 0x80000 then none
  else if a < 0x84000 then some (.link 0, a - 0x80000)
  else if a < 0x85000 then some (.rng, a - 0x84000)
  else if a < 0x87000 then some (.drn, a - 0x85000)
  else if a < 0x88000 then some (.ts 0, a - 0x87000)
  else if a < 0x8F000 then some (.link 1, a - 0x88000)
  else if a < 0x90000 then some (.ts 1, a - 0x8F000)
  else if a < 0x93000 then some (.link 2, a - 0x90000)
  else if a < 0x94000 then some (.ts 2, a - 0x93000)
  else if a < 0x97000 then some (.link 3, a - 0x94000)
  else if a < 0x98000 then some (.ts 3, a - 0x97000)
  else if a < 0xA0000 then some (.lmp, a - 0x98000)
  else if a < 0xA8000 then some (.swc, a - 0xA0000)
  else if a < 0xB0000 then some (.tile, a - 0xA8000)
  else if a < 0xB8000 then some (.brg, a - 0xB0000)
  else if a < 0xC0000 then some (.ech, a - 0xB8000)
  else if a < 0xD0000 then some (.drm, a - 0xC0000)
  else if a < 0xE0000 then some (.hst, a - 0xD0000)
  else if a < 0xE8000 then
    if h : (a - 0xE0000) / 0x1000 < 8 then some (.rfx ⟨(a - 0xE0000) / 0x1000, h⟩, (a - 0xE0000) % 0x1000) else none
  else if a < 0xF0000 then some (.rfxc, a - 0xE8000)
  else none

/-- The block an offset lies in and the offset from its base, or `none` for an unassigned range (R463). -/
def locate (a : Nat) : Option (Block × Nat) :=
  if a < 0x100000 then locateF a else locateP a

/-- Does a row of registers hold the word at a block offset? -/
def RegD.holds (r : RegD) (o : Nat) : Bool :=
  if r.stride = 0 then o == r.off
  else r.off ≤ o && (o - r.off) % r.stride == 0 && (o - r.off) / r.stride < r.count

/-- Registers of the link layout that the stack links leave out (R267), and the single-word register that only channel
2 has (Table 13.6). -/
def Block.hides (b : Block) (o : Nat) : Bool :=
  match b with
  | .link l => decide (2 ≤ l.val) && [0x14, 0x18, 0x2C, 0x30, 0x34, 0x38].contains o
  | .mbx k => k != 2 && (o == 0x20 || o == 0x24)
  | _ => false

/-- The register a block lists at an offset (R464, case 6 where there is none). -/
def Block.regAt (b : Block) (o : Nat) : Option RegD :=
  if b.hides o then none else b.regs.find? fun r => r.holds o

/-- The register listed at a local address. -/
def regAt (a : Nat) : Option RegD :=
  match locate a with
  | some (b, o) => b.regAt o
  | none => none

/-- The reset value of the field stored under a key: the value its table gives, 0 where none is listed. -/
def resetOf (key : Nat) : Nat :=
  match regAt (key / 32) with
  | some r => match r.fields.find? fun f => f.lo == key % 32 with
    | some f => f.reset
    | none => 0
  | none => 0

end Sys2Proof.Machine
end

