-- ==== Sys2Proof/Machine/Fields.lean ====
section
/-! DEFINITION. The fields the model names: each the absolute offset of its register, its lowest bit and its width, as
the tables of the spec give them (RegMap.lean lists every register). Instance arguments: lane n, cluster c, controller
k, core n, link l, mailbox k; i is the index within a row of registers. X names the link prefix of Table 8.3. -/

namespace Sys2Proof.Machine

def F.BLW_BRK_FTIME : Fld := ⟨0x18010, 16, 9⟩
def F.BLW_CTL_RETRY_EN : Fld := ⟨0x18000, 0, 1⟩
def F.BLW_FCNT : Fld := ⟨0x18024, 0, 32⟩
def F.BLW_FLAG_FAST : Fld := ⟨0x18008, 1, 1⟩
def F.BLW_FLAG_LATCHED : Fld := ⟨0x18008, 6, 1⟩
def F.BLW_FLAG_OV : Fld := ⟨0x18008, 5, 1⟩
def F.BLW_FLAG_PG_FALL : Fld := ⟨0x18008, 8, 1⟩
def F.BLW_FLAG_PG_RISE : Fld := ⟨0x18008, 7, 1⟩
def F.BLW_FLAG_RAMP : Fld := ⟨0x18008, 3, 1⟩
def F.BLW_FLAG_RETRY : Fld := ⟨0x18008, 0, 1⟩
def F.BLW_FLAG_SLOW : Fld := ⟨0x18008, 2, 1⟩
def F.BLW_FLAG_UV : Fld := ⟨0x18008, 4, 1⟩
def F.BLW_GATE_RAMPMAX : Fld := ⟨0x18014, 8, 8⟩
def F.BLW_ONT_TICKS : Fld := ⟨0x18020, 0, 32⟩
def F.BLW_RETRY_CONSEC : Fld := ⟨0x18018, 16, 4⟩
def F.BLW_RETRY_MAX : Fld := ⟨0x18018, 0, 4⟩
def F.BLW_STAT_CAUSE : Fld := ⟨0x18004, 4, 4⟩
def F.BLW_STAT_EN : Fld := ⟨0x18004, 8, 1⟩
def F.BLW_STAT_FLT_N : Fld := ⟨0x18004, 10, 1⟩
def F.BLW_STAT_PG : Fld := ⟨0x18004, 9, 1⟩
def F.BLW_STAT_STATE : Fld := ⟨0x18004, 0, 4⟩
def F.BLW_STAT_TIMER_RUN : Fld := ⟨0x18004, 12, 1⟩
def F.BLW_STAT_VGS_OK : Fld := ⟨0x18004, 11, 1⟩
def F.BRG_ALLOW_NODES (i : Nat) : Fld := ⟨0xb2000 + 4 * i, 0, 32⟩
def F.BRG_BACKOFFCNT : Fld := ⟨0xb004c, 0, 32⟩
def F.BRG_BCDISC : Fld := ⟨0xb0070, 0, 32⟩
def F.BRG_CTL_EN : Fld := ⟨0xb0000, 0, 1⟩
def F.BRG_CTOCNT : Fld := ⟨0xb0050, 0, 32⟩
def F.BRG_CTO_US : Fld := ⟨0xb0010, 0, 14⟩
def F.BRG_EVCFG_GAP : Fld := ⟨0xb0024, 0, 16⟩
def F.BRG_EVSUPP : Fld := ⟨0xb0060, 0, 32⟩
def F.BRG_FLAG_CTO : Fld := ⟨0xb0008, 0, 1⟩
def F.BRG_FLAG_EVSUPP : Fld := ⟨0xb0008, 4, 1⟩
def F.BRG_FLAG_LKDROP : Fld := ⟨0xb0008, 6, 1⟩
def F.BRG_FLAG_LOCKBRK : Fld := ⟨0xb0008, 5, 1⟩
def F.BRG_FLAG_SLOTFULL : Fld := ⟨0xb0008, 3, 1⟩
def F.BRG_FLAG_STALE : Fld := ⟨0xb0008, 1, 1⟩
def F.BRG_FLAG_TAGSTALL : Fld := ⟨0xb0008, 2, 1⟩
def F.BRG_LIFE_T : Fld := ⟨0xb0014, 0, 16⟩
def F.BRG_LKCFG_IDLE : Fld := ⟨0xb0020, 16, 16⟩
def F.BRG_LKCFG_POLL : Fld := ⟨0xb0020, 0, 8⟩
def F.BRG_LKCFG_RSV : Fld := ⟨0xb0020, 8, 8⟩
def F.BRG_LKDROP : Fld := ⟨0xb0068, 0, 32⟩
def F.BRG_LOCKBRK : Fld := ⟨0xb0064, 0, 32⟩
def F.BRG_NPCNT : Fld := ⟨0xb0040, 0, 32⟩
def F.BRG_PCNT : Fld := ⟨0xb0044, 0, 32⟩
def F.BRG_RETRYCNT : Fld := ⟨0xb0048, 0, 32⟩
def F.BRG_RTCFG_HOLD : Fld := ⟨0xb001c, 16, 16⟩
def F.BRG_RTCFG_WAIT : Fld := ⟨0xb001c, 0, 4⟩
def F.BRG_SLOTEXP : Fld := ⟨0xb005c, 0, 32⟩
def F.BRG_STALECPL : Fld := ⟨0xb0054, 0, 32⟩
def F.BRG_STATMODE_MODE : Fld := ⟨0xb0030, 16, 2⟩
def F.BRG_TAGCFG_CAP : Fld := ⟨0xb0018, 8, 8⟩
def F.BRG_TAGCFG_HOLD : Fld := ⟨0xb0018, 16, 8⟩
def F.BRG_TAGCFG_STW_RSV : Fld := ⟨0xb0018, 0, 8⟩
def F.BRG_TAGSTALL : Fld := ⟨0xb0058, 0, 32⟩
def F.BRG_TUNCFG_ALLOW : Fld := ⟨0xb002c, 4, 4⟩
def F.BRG_TUNCFG_IN_EN : Fld := ⟨0xb002c, 0, 1⟩
def F.BRG_TUNDROP : Fld := ⟨0xb006c, 0, 32⟩
def F.BRG_TUN_CFG_EN (i : Nat) : Fld := ⟨0xb3008 + 16 * i, 31, 1⟩
def F.BRG_TUN_CFG_GATHER (i : Nat) : Fld := ⟨0xb3008 + 16 * i, 0, 16⟩
def F.BRG_TUN_DST_DLANE (i : Nat) : Fld := ⟨0xb3004 + 16 * i, 0, 6⟩
def F.BRG_TUN_DST_DMEM (i : Nat) : Fld := ⟨0xb3004 + 16 * i, 14, 2⟩
def F.BRG_TUN_DST_DNODE (i : Nat) : Fld := ⟨0xb3004 + 16 * i, 16, 8⟩
def F.BRG_TUN_SRC_LANE (i : Nat) : Fld := ⟨0xb3000 + 16 * i, 0, 6⟩
def F.BRG_WIN_ATTR_ALLOW (i : Nat) : Fld := ⟨0xb1008 + 16 * i, 24, 4⟩
def F.BRG_WIN_ATTR_EN (i : Nat) : Fld := ⟨0xb1008 + 16 * i, 31, 1⟩
def F.BRG_WIN_ATTR_IDEMPOTENT (i : Nat) : Fld := ⟨0xb1008 + 16 * i, 5, 1⟩
def F.BRG_WIN_ATTR_LATE (i : Nat) : Fld := ⟨0xb1008 + 16 * i, 7, 1⟩
def F.BRG_WIN_ATTR_LOCK (i : Nat) : Fld := ⟨0xb1008 + 16 * i, 4, 1⟩
def F.BRG_WIN_ATTR_READ (i : Nat) : Fld := ⟨0xb1008 + 16 * i, 1, 1⟩
def F.BRG_WIN_ATTR_SALVAGE (i : Nat) : Fld := ⟨0xb1008 + 16 * i, 6, 1⟩
def F.BRG_WIN_ATTR_TIMED (i : Nat) : Fld := ⟨0xb1008 + 16 * i, 3, 1⟩
def F.BRG_WIN_ATTR_WRITE (i : Nat) : Fld := ⟨0xb1008 + 16 * i, 2, 1⟩
def F.BRG_WIN_BASE_BLK (i : Nat) : Fld := ⟨0xb1000 + 16 * i, 0, 28⟩
def F.BRG_WIN_BASE_SPACE (i : Nat) : Fld := ⟨0xb1000 + 16 * i, 30, 2⟩
def F.BRG_WIN_LIMIT_BLK (i : Nat) : Fld := ⟨0xb1004 + 16 * i, 0, 28⟩
def F.CAN_BOCNT (k : Nat) : Fld := ⟨canBase k + 0x38, 0, 32⟩
def F.CAN_BTIME_BRP (k : Nat) : Fld := ⟨canBase k + 0x10, 24, 8⟩
def F.CAN_BTIME_TSEG1 (k : Nat) : Fld := ⟨canBase k + 0x10, 16, 8⟩
def F.CAN_BTIME_TSEG2 (k : Nat) : Fld := ⟨canBase k + 0x10, 9, 7⟩
def F.CAN_CLASHCNT (k : Nat) : Fld := ⟨canBase k + 0x30, 0, 32⟩
def F.CAN_CTL_BRSE (k : Nat) : Fld := ⟨canBase k + 0x0, 3, 1⟩
def F.CAN_CTL_EN (k : Nat) : Fld := ⟨canBase k + 0x0, 0, 1⟩
def F.CAN_CTL_FDOE (k : Nat) : Fld := ⟨canBase k + 0x0, 2, 1⟩
def F.CAN_CTL_LISTEN (k : Nat) : Fld := ⟨canBase k + 0x0, 5, 1⟩
def F.CAN_CTL_LOOP (k : Nat) : Fld := ⟨canBase k + 0x0, 6, 1⟩
def F.CAN_CTL_PXHD (k : Nat) : Fld := ⟨canBase k + 0x0, 4, 1⟩
def F.CAN_CTL_RAMINIT (k : Nat) : Fld := ⟨canBase k + 0x0, 8, 1⟩
def F.CAN_CTL_SLEEP (k : Nat) : Fld := ⟨canBase k + 0x0, 7, 1⟩
def F.CAN_CTL_STBPOL (k : Nat) : Fld := ⟨canBase k + 0x0, 1, 1⟩
def F.CAN_DBTIME_BRP (k : Nat) : Fld := ⟨canBase k + 0x14, 24, 5⟩
def F.CAN_DBTIME_TSEG1 (k : Nat) : Fld := ⟨canBase k + 0x14, 16, 5⟩
def F.CAN_DBTIME_TSEG2 (k : Nat) : Fld := ⟨canBase k + 0x14, 8, 4⟩
def F.CAN_ECNT_CEL (k : Nat) : Fld := ⟨canBase k + 0x1c, 24, 8⟩
def F.CAN_FLAG_BUSOFF (k : Nat) : Fld := ⟨canBase k + 0x8, 6, 1⟩
def F.CAN_FLAG_BUSON (k : Nat) : Fld := ⟨canBase k + 0x8, 7, 1⟩
def F.CAN_FLAG_CLASH (k : Nat) : Fld := ⟨canBase k + 0x8, 3, 1⟩
def F.CAN_FLAG_LOST (k : Nat) : Fld := ⟨canBase k + 0x8, 2, 1⟩
def F.CAN_FLAG_PASSIVE (k : Nat) : Fld := ⟨canBase k + 0x8, 5, 1⟩
def F.CAN_FLAG_PXE (k : Nat) : Fld := ⟨canBase k + 0x8, 9, 1⟩
def F.CAN_FLAG_RAM_PARITY (k : Nat) : Fld := ⟨canBase k + 0x8, 12, 1⟩
def F.CAN_FLAG_RX (k : Nat) : Fld := ⟨canBase k + 0x8, 1, 1⟩
def F.CAN_FLAG_TDC_SAT (k : Nat) : Fld := ⟨canBase k + 0x8, 10, 1⟩
def F.CAN_FLAG_TUN_DROP (k : Nat) : Fld := ⟨canBase k + 0x8, 11, 1⟩
def F.CAN_FLAG_TX (k : Nat) : Fld := ⟨canBase k + 0x8, 0, 1⟩
def F.CAN_FLAG_WAKE (k : Nat) : Fld := ⟨canBase k + 0x8, 8, 1⟩
def F.CAN_FLAG_WARN (k : Nat) : Fld := ⟨canBase k + 0x8, 4, 1⟩
def F.CAN_LOSTCNT (k : Nat) : Fld := ⟨canBase k + 0x34, 0, 32⟩
def F.CAN_NEWDAT (k j : Nat) : Fld := ⟨canBase k + 0x70 + j / 32 * 4, j % 32, 1⟩
def F.CAN_STAT_BOREC (k : Nat) : Fld := ⟨canBase k + 0x4, 24, 8⟩
def F.CAN_STAT_CFG_ERR (k : Nat) : Fld := ⟨canBase k + 0x4, 8, 1⟩
def F.CAN_STAT_DLEC (k : Nat) : Fld := ⟨canBase k + 0x4, 16, 3⟩
def F.CAN_STAT_ERRST (k : Nat) : Fld := ⟨canBase k + 0x4, 10, 2⟩
def F.CAN_STAT_LEC (k : Nat) : Fld := ⟨canBase k + 0x4, 12, 3⟩
def F.CAN_STAT_STATE (k : Nat) : Fld := ⟨canBase k + 0x4, 0, 4⟩
def F.CAN_TDC_TDCE (k : Nat) : Fld := ⟨canBase k + 0x18, 31, 1⟩
def F.CAN_TDC_TDCF (k : Nat) : Fld := ⟨canBase k + 0x18, 16, 8⟩
def F.CAN_TDC_TDCV (k : Nat) : Fld := ⟨canBase k + 0x18, 0, 8⟩
def F.CAN_TUNCFG0_DCTL (k : Nat) : Fld := ⟨canBase k + 0x28, 26, 4⟩
def F.CAN_TUNCFG0_DMEM (k : Nat) : Fld := ⟨canBase k + 0x28, 24, 2⟩
def F.CAN_TUNCFG0_DNODE (k : Nat) : Fld := ⟨canBase k + 0x28, 16, 8⟩
def F.CAN_TUNCFG0_GATHER (k : Nat) : Fld := ⟨canBase k + 0x28, 8, 8⟩
def F.CAN_TUNCFG0_OUT_EN (k : Nat) : Fld := ⟨canBase k + 0x28, 31, 1⟩
def F.CAN_TUNCFG1_IN_EN (k : Nat) : Fld := ⟨canBase k + 0x2c, 31, 1⟩
def F.CAN_TUNCFG1_TXBASE (k : Nat) : Fld := ⟨canBase k + 0x2c, 0, 7⟩
def F.CAN_TUNCFG1_TXCNT (k : Nat) : Fld := ⟨canBase k + 0x2c, 16, 7⟩
def F.CAN_TUNDROP (k : Nat) : Fld := ⟨canBase k + 0x3c, 0, 32⟩
def F.CAN_TXDONE (k j : Nat) : Fld := ⟨canBase k + 0x80 + j / 32 * 4, j % 32, 1⟩
def F.CAN_WAKE_MODE (k : Nat) : Fld := ⟨canBase k + 0x20, 24, 2⟩
def F.CAN_WAKE_WBYTE (k : Nat) : Fld := ⟨canBase k + 0x20, 8, 8⟩
def F.CAN_WAKE_WMASK (k : Nat) : Fld := ⟨canBase k + 0x20, 16, 8⟩
def F.CAN_WAKE_WOBJ (k : Nat) : Fld := ⟨canBase k + 0x20, 0, 7⟩
def F.CAN_WBTIME_BRP (k : Nat) : Fld := ⟨canBase k + 0x24, 24, 8⟩
def F.CAN_WBTIME_TSEG1 (k : Nat) : Fld := ⟨canBase k + 0x24, 16, 8⟩
def F.CFG_CTL_AUTO_REAPPLY : Fld := ⟨0x40000, 0, 1⟩
def F.CFG_CTL_LEAD : Fld := ⟨0x40000, 8, 8⟩
def F.CFG_FAIL_CODE : Fld := ⟨0x40024, 16, 8⟩
def F.CFG_FAIL_INST : Fld := ⟨0x40024, 24, 3⟩
def F.CFG_FAIL_KIND : Fld := ⟨0x40024, 28, 4⟩
def F.CFG_FAIL_TILE : Fld := ⟨0x40024, 0, 16⟩
def F.CFG_FLAG_APPLY_FAIL : Fld := ⟨0x40008, 1, 1⟩
def F.CFG_FLAG_FELL_BACK : Fld := ⟨0x40008, 2, 1⟩
def F.CFG_FLAG_FUSE_ADV : Fld := ⟨0x40008, 6, 1⟩
def F.CFG_FLAG_PR_DONE : Fld := ⟨0x40008, 3, 1⟩
def F.CFG_FLAG_PR_FAIL : Fld := ⟨0x40008, 4, 1⟩
def F.CFG_FLAG_REAPPLY : Fld := ⟨0x40008, 5, 1⟩
def F.CFG_FLAG_SESSION_ABORT : Fld := ⟨0x40008, 0, 1⟩
def F.CFG_IMGID_ID : Fld := ⟨0x40010, 0, 32⟩
def F.CFG_PRLOCK_LOCK : Fld := ⟨0x40020, 0, 8⟩
def F.CFG_STAT_CLUS_DEG : Fld := ⟨0x40004, 0, 8⟩
def F.CFG_STAT_CORE_DEG : Fld := ⟨0x40004, 8, 8⟩
def F.CFG_STAT_PHASE : Fld := ⟨0x40004, 28, 4⟩
def F.CFG_STAT_SLOT : Fld := ⟨0x40004, 26, 2⟩
def F.CFG_STAT_TRIALS : Fld := ⟨0x40004, 24, 2⟩
def F.CFG_SVN_BUNDLE : Fld := ⟨0x40014, 8, 8⟩
def F.CFG_XSPI_MODE : Fld := ⟨0x40030, 8, 2⟩
def F.CLK_DIMCNT : Fld := ⟨0x2001c, 0, 32⟩
def F.CLK_DIMSTAT_KEEP : Fld := ⟨0x20018, 0, 5⟩
def F.CLK_DIMSTAT_SLOW : Fld := ⟨0x20018, 8, 1⟩
def F.CLK_DIMTHR_PTHR : Fld := ⟨0x20014, 8, 4⟩
def F.CLK_DIMTIME_COUNT : Fld := ⟨0x20024, 0, 32⟩
def F.CLK_DIM_DEN : Fld := ⟨0x20010, 0, 6⟩
def F.CLK_DIM_HOLD : Fld := ⟨0x20010, 8, 8⟩
def F.CLK_DIM_LONG : Fld := ⟨0x20010, 16, 16⟩
def F.CLK_FLAG_DROOP : Fld := ⟨0x20004, 1, 1⟩
def F.CLK_FLAG_LONG : Fld := ⟨0x20004, 3, 1⟩
def F.CLK_FLAG_PDROOP : Fld := ⟨0x20004, 2, 1⟩
def F.CLK_FLAG_PLL_LOSS : Fld := ⟨0x20004, 0, 1⟩
def F.CLK_FLAG_THERM_WARN : Fld := ⟨0x20004, 4, 1⟩
def F.CLK_PDIMCNT : Fld := ⟨0x20020, 0, 32⟩
def F.CLK_PLLSTAT_LOCK : Fld := ⟨0x20000, 0, 4⟩
def F.CLK_TEMPF_T : Fld := ⟨0x20030, 0, 12⟩
def F.CLK_TEMPP_T : Fld := ⟨0x20034, 0, 12⟩
def F.CLK_THERM_SHUT : Fld := ⟨0x20038, 16, 8⟩
def F.CLK_THERM_WARN : Fld := ⟨0x20038, 0, 8⟩
def F.DRM_CTL_EN : Fld := ⟨0xc0000, 0, 1⟩
def F.DRM_CTL_SIZE : Fld := ⟨0xc0000, 1, 3⟩
def F.DRM_REFILLCNT : Fld := ⟨0xc0218, 0, 32⟩
def F.DRM_REFILL_LO_TILES : Fld := ⟨0xc020c, 0, 15⟩
def F.DRM_SPILLCNT : Fld := ⟨0xc0214, 0, 32⟩
def F.DRM_SPILLDROP : Fld := ⟨0xc021c, 0, 32⟩
def F.DRM_SPILLSTAT_FULL : Fld := ⟨0xc0210, 31, 1⟩
def F.DRM_SPILL_BASE_MIB : Fld := ⟨0xc0200, 0, 11⟩
def F.DRM_SPILL_HI_TILES : Fld := ⟨0xc0208, 0, 15⟩
def F.DRM_SPILL_SIZE_MIB : Fld := ⟨0xc0204, 0, 11⟩
def F.DRM_STAT_RUN : Fld := ⟨0xc0004, 0, 1⟩
def F.DRM_STAT_TRAINED : Fld := ⟨0xc0004, 1, 1⟩
def F.DRM_STAT_TRAIN_ERR : Fld := ⟨0xc0004, 2, 1⟩
def F.DRM_TRAINVAL_V (i : Nat) : Fld := ⟨0xc0040 + 4 * i, 0, 32⟩
def F.DRM_TRAIN_GO : Fld := ⟨0xc0008, 0, 1⟩
def F.DRM_TRAIN_MODE : Fld := ⟨0xc0008, 1, 2⟩
def F.DRN_APPLY_APPLY : Fld := ⟨0x85028, 0, 28⟩
def F.DRN_BNS_NS : Fld := ⟨0x85014, 0, 30⟩
def F.DRN_BSH_SEC : Fld := ⟨0x8501c, 0, 16⟩
def F.DRN_BSL_SEC : Fld := ⟨0x85018, 0, 32⟩
def F.DRN_CFGREJ : Fld := ⟨0x8511c, 0, 32⟩
def F.DRN_CLOSE_CLOSE : Fld := ⟨0x85024, 0, 28⟩
def F.DRN_COMMIT_GO : Fld := ⟨0x8502c, 0, 1⟩
def F.DRN_CTL_EN : Fld := ⟨0x85000, 0, 1⟩
def F.DRN_CYCCNT : Fld := ⟨0x85100, 0, 32⟩
def F.DRN_EXP_A_EXP (i : Nat) : Fld := ⟨0x85800 + 8 * i, 0, 28⟩
def F.DRN_EXP_B_EXP (i : Nat) : Fld := ⟨0x85804 + 8 * i, 0, 28⟩
def F.DRN_FLAG_CFG_ERR : Fld := ⟨0x85008, 5, 1⟩
def F.DRN_FLAG_MISS : Fld := ⟨0x85008, 0, 1⟩
def F.DRN_FLAG_NOTREADY : Fld := ⟨0x85008, 3, 1⟩
def F.DRN_FLAG_REGEN : Fld := ⟨0x85008, 1, 1⟩
def F.DRN_FLAG_SPOILT : Fld := ⟨0x85008, 2, 1⟩
def F.DRN_FLAG_STALE : Fld := ⟨0x85008, 4, 1⟩
def F.DRN_FRM_INS (i : Nat) : Fld := ⟨0x85400 + 8 * i, 24, 6⟩
def F.DRN_FRM_INSV (i : Nat) : Fld := ⟨0x85400 + 8 * i, 30, 1⟩
def F.DRN_FRM_LEN (i : Nat) : Fld := ⟨0x85400 + 8 * i, 0, 14⟩
def F.DRN_FRM_V (i : Nat) : Fld := ⟨0x85400 + 8 * i, 31, 1⟩
def F.DRN_LATEDISC : Fld := ⟨0x85108, 0, 32⟩
def F.DRN_MISS : Fld := ⟨0x85110, 0, 32⟩
def F.DRN_NOTREADY : Fld := ⟨0x8510c, 0, 32⟩
def F.DRN_PER_PER : Fld := ⟨0x85010, 0, 19⟩
def F.DRN_REGEN : Fld := ⟨0x85104, 0, 32⟩
def F.DRN_SLT_W0_DIR (i : Nat) : Fld := ⟨0x86000 + 8 * i, 30, 1⟩
def F.DRN_SLT_W0_FOFF (i : Nat) : Fld := ⟨0x86000 + 8 * i, 0, 14⟩
def F.DRN_SLT_W0_FRAME (i : Nat) : Fld := ⟨0x86000 + 8 * i, 24, 6⟩
def F.DRN_SLT_W0_LEN (i : Nat) : Fld := ⟨0x86000 + 8 * i, 14, 10⟩
def F.DRN_SLT_W0_V (i : Nat) : Fld := ⟨0x86000 + 8 * i, 31, 1⟩
def F.DRN_SLT_W1_INS (i : Nat) : Fld := ⟨0x86004 + 8 * i, 26, 6⟩
def F.DRN_SLT_W1_IOFF (i : Nat) : Fld := ⟨0x86004 + 8 * i, 0, 20⟩
def F.DRN_SPOILT : Fld := ⟨0x85114, 0, 32⟩
def F.DRN_STALECYC : Fld := ⟨0x85118, 0, 32⟩
def F.DRN_STATMODE_MODE : Fld := ⟨0x85030, 16, 2⟩
def F.DRN_TIMES_LEAD : Fld := ⟨0x85020, 16, 16⟩
def F.DRN_TIMES_MARGIN : Fld := ⟨0x85020, 0, 16⟩
def F.ECH_CFG_DEPTH : Fld := ⟨0xb8004, 8, 3⟩
def F.ECH_CFG_SLOTS : Fld := ⟨0xb8004, 0, 7⟩
def F.ECH_CTL_EN : Fld := ⟨0xb8000, 0, 1⟩
def F.ECH_DISCARD : Fld := ⟨0xb8028, 0, 32⟩
def F.ECH_FETCH : Fld := ⟨0xb8020, 0, 32⟩
def F.ECH_FLAG_DISCARD : Fld := ⟨0xb8010, 0, 1⟩
def F.ECH_FLAG_SALVLOST : Fld := ⟨0xb8010, 2, 1⟩
def F.ECH_FLAG_SALVSERVE : Fld := ⟨0xb8010, 1, 1⟩
def F.ECH_HIT : Fld := ⟨0xb8024, 0, 32⟩
def F.ECH_SALVEXP : Fld := ⟨0xb8030, 0, 32⟩
def F.ECH_SALVLIFE_US : Fld := ⟨0xb800c, 0, 16⟩
def F.ECH_SALVLOST : Fld := ⟨0xb8034, 0, 32⟩
def F.ECH_SALVSEL_CLUSTER : Fld := ⟨0xb8040, 4, 3⟩
def F.ECH_SALVSEL_ENTRY : Fld := ⟨0xb8040, 0, 4⟩
def F.ECH_SALVSERVE : Fld := ⟨0xb802c, 0, 32⟩
def F.ECH_TIME_FRESH : Fld := ⟨0xb8008, 0, 16⟩
def F.ECH_TIME_LEAD : Fld := ⟨0xb8008, 16, 16⟩
def F.ERR_CNTC : Fld := ⟨0x30060, 0, 32⟩
def F.ERR_CNTF : Fld := ⟨0x30068, 0, 32⟩
def F.ERR_CNTU : Fld := ⟨0x30064, 0, 32⟩
def F.ERR_CTL_FEC_MIN : Fld := ⟨0x30000, 8, 2⟩
def F.ERR_CTL_INTN_EN : Fld := ⟨0x30000, 31, 1⟩
def F.ERR_CTL_INT_MIN : Fld := ⟨0x30000, 4, 2⟩
def F.ERR_ESC_DELAY : Fld := ⟨0x30054, 0, 8⟩
def F.ERR_ESC_UCMAX : Fld := ⟨0x30054, 16, 8⟩
def F.ERR_ESC_WIN : Fld := ⟨0x30054, 8, 8⟩
def F.ERR_FLAG_ESC : Fld := ⟨0x30008, 3, 1⟩
def F.ERR_FLAG_FEC : Fld := ⟨0x30008, 1, 1⟩
def F.ERR_FLAG_NEW : Fld := ⟨0x30008, 0, 1⟩
def F.ERR_FLAG_OVF : Fld := ⟨0x30008, 2, 1⟩
def F.ERR_HEADBLK_SEC : Fld := ⟨0x3002c, 0, 32⟩
def F.ERR_INJ_CLASS : Fld := ⟨0x30058, 28, 2⟩
def F.ERR_INJ_CODE : Fld := ⟨0x30058, 0, 16⟩
def F.ERR_LOGSEL_IDX : Fld := ⟨0x30020, 0, 5⟩
def F.ERR_LOSTCNT : Fld := ⟨0x3006c, 0, 32⟩
def F.ERR_REPCNT : Fld := ⟨0x30070, 0, 32⟩
def F.ERR_STAT_ESC_PEND : Fld := ⟨0x30004, 30, 1⟩
def F.ERR_TAILBLK_SEC : Fld := ⟨0x30030, 0, 32⟩
def F.GLB_RST_CAUSE_CHANNEL : Fld := ⟨0x14, 5, 1⟩
def F.GLB_RST_CAUSE_FATAL : Fld := ⟨0x14, 3, 1⟩
def F.GLB_RST_CAUSE_PDIE : Fld := ⟨0x14, 4, 1⟩
def F.GLB_RST_CAUSE_RING : Fld := ⟨0x14, 2, 1⟩
def F.GLB_RST_CAUSE_WARM : Fld := ⟨0x14, 1, 1⟩
def F.GLB_RST_CTL_CLUSTER : Fld := ⟨0x10, 8, 8⟩
def F.GLB_RST_CTL_PDIE : Fld := ⟨0x10, 2, 1⟩
def F.GLB_RST_CTL_REGION : Fld := ⟨0x10, 4, 2⟩
def F.GLB_SELF_MEMBER : Fld := ⟨0x8, 14, 2⟩
def F.GLB_SELF_NODE : Fld := ⟨0x8, 16, 8⟩
def F.GLB_STRAP_BOOT_SRC : Fld := ⟨0x4, 2, 1⟩
def F.GLB_STRAP_MEMBER : Fld := ⟨0x4, 0, 2⟩
def F.GLB_STRAP_PREFERRED : Fld := ⟨0x4, 3, 1⟩
def F.GNO_COMMIT_GO : Fld := ⟨0x6001c, 0, 1⟩
def F.GNO_CVALID_VALID : Fld := ⟨0x600a0, 0, 8⟩
def F.GNO_FLAG_PPSIN : Fld := ⟨0x60024, 2, 1⟩
def F.GNO_FLAG_PPSIN_OVF : Fld := ⟨0x60024, 3, 1⟩
def F.GNO_FLAG_PULSE_LATE : Fld := ⟨0x60024, 1, 1⟩
def F.GNO_FLAG_STEP : Fld := ⟨0x60024, 0, 1⟩
def F.GNO_FLAG_TW_LATE : Fld := ⟨0x60024, 4, 1⟩
def F.GNO_FLAG_TW_REFUSED : Fld := ⟨0x60024, 5, 1⟩
def F.GNO_INCR_FRAC : Fld := ⟨0x60010, 0, 24⟩
def F.GNO_INCR_NS : Fld := ⟨0x60010, 24, 8⟩
def F.GNO_PAIR_GO : Fld := ⟨0x60030, 0, 1⟩
def F.GNO_PAIR_NS_NS : Fld := ⟨0x60034, 0, 30⟩
def F.GNO_PAIR_SH_FRAC : Fld := ⟨0x6003c, 16, 16⟩
def F.GNO_PAIR_SH_SEC : Fld := ⟨0x6003c, 0, 16⟩
def F.GNO_PAIR_SL_SEC : Fld := ⟨0x60038, 0, 32⟩
def F.GNO_PCNT_H_CNT (i : Nat) : Fld := ⟨0x60044 + 8 * i, 0, 32⟩
def F.GNO_PCNT_L_CNT (i : Nat) : Fld := ⟨0x60040 + 8 * i, 0, 32⟩
def F.GNO_PG_CTL_EN (i : Nat) : Fld := ⟨0x600c0 + 32 * i, 0, 1⟩
def F.GNO_PG_CTL_EVENT (i : Nat) : Fld := ⟨0x600c0 + 32 * i, 2, 1⟩
def F.GNO_PG_CTL_LANE (i : Nat) : Fld := ⟨0x600c0 + 32 * i, 9, 6⟩
def F.GNO_PG_CTL_PIN (i : Nat) : Fld := ⟨0x600c0 + 32 * i, 7, 2⟩
def F.GNO_PG_CTL_PPS (i : Nat) : Fld := ⟨0x600c0 + 32 * i, 1, 1⟩
def F.GNO_PG_CTL_ROUTE (i : Nat) : Fld := ⟨0x600c0 + 32 * i, 15, 1⟩
def F.GNO_PG_PER_NS (i : Nat) : Fld := ⟨0x600d0 + 32 * i, 0, 32⟩
def F.GNO_PG_TNS_NS (i : Nat) : Fld := ⟨0x600c4 + 32 * i, 0, 30⟩
def F.GNO_PG_TSH_SEC (i : Nat) : Fld := ⟨0x600cc + 32 * i, 0, 16⟩
def F.GNO_PG_TSL_SEC (i : Nat) : Fld := ⟨0x600c8 + 32 * i, 0, 32⟩
def F.GNO_PG_WIDTH_NS (i : Nat) : Fld := ⟨0x600d4 + 32 * i, 0, 32⟩
def F.GNO_PPSIN_NS_NS : Fld := ⟨0x60140, 0, 30⟩
def F.GNO_PPSIN_SH_FRAC : Fld := ⟨0x60148, 16, 16⟩
def F.GNO_PPSIN_SH_SEC : Fld := ⟨0x60148, 0, 16⟩
def F.GNO_PPSIN_SL_SEC : Fld := ⟨0x60144, 0, 32⟩
def F.GNO_STEPN_NEG : Fld := ⟨0x60014, 31, 1⟩
def F.GNO_STEPN_NS : Fld := ⟨0x60014, 0, 30⟩
def F.GNO_STEPS_SEC : Fld := ⟨0x60018, 0, 32⟩
def F.GNO_TWCFG_GUARD : Fld := ⟨0x60080, 0, 16⟩
def F.GNO_TWCFG_HORIZON : Fld := ⟨0x60080, 24, 8⟩
def F.GNO_TW_LATEDROP : Fld := ⟨0x60088, 0, 32⟩
def F.GNO_TW_LATEEXEC : Fld := ⟨0x6008c, 0, 32⟩
def F.GNO_TW_OK : Fld := ⟨0x60084, 0, 32⟩
def F.GNO_TW_REFUSED : Fld := ⟨0x60090, 0, 32⟩
def F.HST_RXBAD : Fld := ⟨0xd3008, 0, 32⟩
def F.HST_RXCFG_WAIT : Fld := ⟨0xd0004, 0, 16⟩
def F.HST_RXDROP : Fld := ⟨0xd3000, 0, 32⟩
def F.HST_RXNODESC : Fld := ⟨0xd300c, 0, 32⟩
def F.HST_RXR_CTL_DELIVER_BAD (i : Nat) : Fld := ⟨0xd2008 + 64 * i, 1, 1⟩
def F.HST_RXR_CTL_EN (i : Nat) : Fld := ⟨0xd2008 + 64 * i, 0, 1⟩
def F.HST_RXR_CTL_LOG2N (i : Nat) : Fld := ⟨0xd2008 + 64 * i, 8, 4⟩
def F.HST_RXR_HEAD_PTR (i : Nat) : Fld := ⟨0xd200c + 64 * i, 0, 13⟩
def F.HST_RXR_TAIL_PTR (i : Nat) : Fld := ⟨0xd2010 + 64 * i, 0, 13⟩
def F.HST_RXTRUNC : Fld := ⟨0xd3004, 0, 32⟩
def F.HST_TXR_CTL_EN (i : Nat) : Fld := ⟨0xd1008 + 64 * i, 0, 1⟩
def F.HST_TXR_CTL_LOG2N (i : Nat) : Fld := ⟨0xd1008 + 64 * i, 8, 4⟩
def F.HST_TXR_HEAD_PTR (i : Nat) : Fld := ⟨0xd100c + 64 * i, 0, 13⟩
def F.HST_TXR_TAIL_PTR (i : Nat) : Fld := ⟨0xd1010 + 64 * i, 0, 13⟩
def F.IOB_CTL_BANK_OK (c : Nat) : Fld := ⟨bankBase c + 0x0, 8, 1⟩
def F.IOB_CTL_MON_EN (c : Nat) : Fld := ⟨bankBase c + 0x0, 9, 1⟩
def F.LMP_ABORTCNT : Fld := ⟨0x98110, 0, 32⟩
def F.LMP_CTL_EN : Fld := ⟨0x98000, 0, 1⟩
def F.LMP_CTL_RECLAIM_EN : Fld := ⟨0x98000, 2, 1⟩
def F.LMP_CTL_RELAY_EN : Fld := ⟨0x98000, 1, 1⟩
def F.LMP_CTL_TAKE_STALE : Fld := ⟨0x98000, 3, 1⟩
def F.LMP_DIVCNT : Fld := ⟨0x98114, 0, 32⟩
def F.LMP_EXPNS_NS : Fld := ⟨0x98030, 0, 30⟩
def F.LMP_EXPSH_SEC : Fld := ⟨0x98038, 0, 16⟩
def F.LMP_EXPSL_SEC : Fld := ⟨0x98034, 0, 32⟩
def F.LMP_FLAG_CFG_ERR : Fld := ⟨0x98008, 10, 1⟩
def F.LMP_FLAG_CLAIM_ABORT : Fld := ⟨0x98008, 4, 1⟩
def F.LMP_FLAG_DIVERGE : Fld := ⟨0x98008, 5, 1⟩
def F.LMP_FLAG_LAPSE : Fld := ⟨0x98008, 2, 1⟩
def F.LMP_FLAG_PAIR_DOWN : Fld := ⟨0x98008, 7, 1⟩
def F.LMP_FLAG_PEER_LOST : Fld := ⟨0x98008, 8, 1⟩
def F.LMP_FLAG_RECLAIM : Fld := ⟨0x98008, 3, 1⟩
def F.LMP_FLAG_RELAYDROP : Fld := ⟨0x98008, 11, 1⟩
def F.LMP_FLAG_RELEASE : Fld := ⟨0x98008, 1, 1⟩
def F.LMP_FLAG_RLEASE_BAD : Fld := ⟨0x98008, 9, 1⟩
def F.LMP_FLAG_SLIP : Fld := ⟨0x98008, 6, 1⟩
def F.LMP_FLAG_TAKE : Fld := ⟨0x98008, 0, 1⟩
def F.LMP_HEALTH_CORES : Fld := ⟨0x98018, 8, 8⟩
def F.LMP_HEALTH_MASK : Fld := ⟨0x98018, 0, 5⟩
def F.LMP_LAPSECNT : Fld := ⟨0x98108, 0, 32⟩
def F.LMP_LEASE_GUARD : Fld := ⟨0x98014, 16, 16⟩
def F.LMP_LEASE_PER : Fld := ⟨0x98014, 0, 16⟩
def F.LMP_PEER_NODE : Fld := ⟨0x98010, 0, 8⟩
def F.LMP_RDN_EN (i : Nat) : Fld := ⟨0x98048 + 4 * i, 31, 1⟩
def F.LMP_RDN_SIZE (i : Nat) : Fld := ⟨0x98048 + 4 * i, 16, 13⟩
def F.LMP_RDN_SRC (i : Nat) : Fld := ⟨0x98048 + 4 * i, 0, 12⟩
def F.LMP_RECLAIMCNT : Fld := ⟨0x9810c, 0, 32⟩
def F.LMP_RECLAIM_HOLDOFF : Fld := ⟨0x98020, 16, 16⟩
def F.LMP_RECLAIM_LEAD : Fld := ⟨0x98020, 0, 16⟩
def F.LMP_RELAYDROP : Fld := ⟨0x9811c, 0, 32⟩
def F.LMP_RELAYDST_BASE : Fld := ⟨0x98044, 0, 12⟩
def F.LMP_RELAYUP_BASE : Fld := ⟨0x98040, 0, 12⟩
def F.LMP_RELCNT : Fld := ⟨0x98104, 0, 32⟩
def F.LMP_SLIPCNT : Fld := ⟨0x98118, 0, 32⟩
def F.LMP_START_WAIT : Fld := ⟨0x98024, 0, 16⟩
def F.LMP_STATMODE_MODE : Fld := ⟨0x98064, 16, 2⟩
def F.LMP_STAT_CFG_ERR : Fld := ⟨0x98004, 9, 1⟩
def F.LMP_STAT_IN_STEP : Fld := ⟨0x98004, 5, 1⟩
def F.LMP_STAT_PEER_STATE : Fld := ⟨0x98004, 16, 4⟩
def F.LMP_STAT_STALE : Fld := ⟨0x98004, 6, 1⟩
def F.LMP_STAT_STATE : Fld := ⟨0x98004, 0, 4⟩
def F.LMP_SYNC_MARKWAIT : Fld := ⟨0x98028, 16, 16⟩
def F.LMP_SYNC_SETTLE : Fld := ⟨0x98028, 0, 8⟩
def F.LMP_TAKECNT : Fld := ⟨0x98100, 0, 32⟩
def F.LN_ACTDROP_COUNT (n : Nat) : Fld := ⟨laneBase n + 0x34, 0, 16⟩
def F.LN_CFG (n : Nat) (i : Nat) : Fld := ⟨laneBase n + 0x50 + 4 * i, 0, 32⟩
def F.LN_CTL_EN (n : Nat) : Fld := ⟨laneBase n + 0x4, 0, 1⟩
def F.LN_CTL_RST (n : Nat) : Fld := ⟨laneBase n + 0x4, 1, 1⟩
def F.LN_DROP_FLUSH (n : Nat) : Fld := ⟨laneBase n + 0x2c, 16, 16⟩
def F.LN_DROP_RESID (n : Nat) : Fld := ⟨laneBase n + 0x2c, 0, 16⟩
def F.LN_FIFO_RX_LVL (n : Nat) : Fld := ⟨laneBase n + 0x14, 0, 7⟩
def F.LN_FIFO_TX_LVL (n : Nat) : Fld := ⟨laneBase n + 0x14, 8, 7⟩
def F.LN_FUNC_CANSEL (n : Nat) : Fld := ⟨laneBase n + 0x0, 4, 1⟩
def F.LN_FUNC_FUNC (n : Nat) : Fld := ⟨laneBase n + 0x0, 0, 4⟩
def F.LN_HOLD_MAXRES (n : Nat) : Fld := ⟨laneBase n + 0x28, 16, 16⟩
def F.LN_HOLD_TIME (n : Nat) : Fld := ⟨laneBase n + 0x28, 0, 16⟩
def F.LN_IEN_M (n : Nat) : Fld := ⟨laneBase n + 0x10, 0, 14⟩
def F.LN_IO_OUT (n : Nat) : Fld := ⟨laneBase n + 0x24, 0, 3⟩
def F.LN_PIN_CAP (n : Nat) (i : Nat) : Fld := ⟨laneBase n + 0x40 + 4 * i, 18, 2⟩
def F.LN_PIN_DEB (n p : Nat) : Fld := ⟨laneBase n + 0x40 + 4 * p, 20, 11⟩
def F.LN_PIN_DRIVE (n p : Nat) : Fld := ⟨laneBase n + 0x40 + 4 * p, 4, 2⟩
def F.LN_PIN_IDLE (n : Nat) (i : Nat) : Fld := ⟨laneBase n + 0x40 + 4 * i, 16, 2⟩
def F.LN_PIN_INV (n : Nat) (i : Nat) : Fld := ⟨laneBase n + 0x40 + 4 * i, 10, 1⟩
def F.LN_PIN_KEEP (n : Nat) (i : Nat) : Fld := ⟨laneBase n + 0x40 + 4 * i, 8, 1⟩
def F.LN_PIN_MODE (n : Nat) (i : Nat) : Fld := ⟨laneBase n + 0x40 + 4 * i, 0, 3⟩
def F.LN_PIN_OD (n : Nat) (i : Nat) : Fld := ⟨laneBase n + 0x40 + 4 * i, 9, 1⟩
def F.LN_PIN_PULL (n : Nat) (i : Nat) : Fld := ⟨laneBase n + 0x40 + 4 * i, 6, 2⟩
def F.LN_PIN_TRIM (n : Nat) (i : Nat) : Fld := ⟨laneBase n + 0x40 + 4 * i, 12, 4⟩
def F.LN_RXTAG_EMPTY (n : Nat) : Fld := ⟨laneBase n + 0x20, 1, 1⟩
def F.LN_RXTAG_POISON (n : Nat) : Fld := ⟨laneBase n + 0x20, 0, 1⟩
def F.LN_RXTAG_REQ (n : Nat) : Fld := ⟨laneBase n + 0x20, 8, 4⟩
def F.LN_STAT_CAUSE (n : Nat) : Fld := ⟨laneBase n + 0x8, 4, 4⟩
def F.LN_STAT_CONFIG_ERR (n : Nat) : Fld := ⟨laneBase n + 0x8, 25, 1⟩
def F.LN_STAT_STATE (n : Nat) : Fld := ⟨laneBase n + 0x8, 0, 3⟩
def F.MBX_ACKIN_CODE (k : Nat) : Fld := ⟨mbxBase k + 0x10, 16, 16⟩
def F.MBX_ACKIN_MID (k : Nat) : Fld := ⟨mbxBase k + 0x10, 0, 8⟩
def F.MBX_CTL_COMPAT (k : Nat) : Fld := ⟨mbxBase k + 0x0, 0, 1⟩
def F.MBX_STAT_ABORTED (k : Nat) : Fld := ⟨mbxBase k + 0x4, 8, 1⟩
def F.MBX_STAT_IN_OVF (k : Nat) : Fld := ⟨mbxBase k + 0x4, 4, 1⟩
def F.MBX_WSTAT_FULL (k : Nat) : Fld := ⟨mbxBase k + 0x24, 0, 1⟩
def F.MBX_WSTAT_RFULL (k : Nat) : Fld := ⟨mbxBase k + 0x24, 1, 1⟩
def F.PLT_CFG_MINOFF : Fld := ⟨0x10814, 8, 8⟩
def F.PLT_CFG_PEWAKE : Fld := ⟨0x10814, 0, 1⟩
def F.PLT_STAT_VAON_POR : Fld := ⟨0x10818, 0, 1⟩
def F.PLT_TIMER_TICKS : Fld := ⟨0x10810, 0, 32⟩
def F.PLT_WEN_EN : Fld := ⟨0x10800, 0, 15⟩
def F.PLT_WFIRST_BIT : Fld := ⟨0x1080c, 0, 5⟩
def F.PLT_WSRC_SRC : Fld := ⟨0x10808, 0, 16⟩
def F.PWR_FLAG_DONE : Fld := ⟨0x10100, 0, 1⟩
def F.PWR_FLAG_REFUSED : Fld := ⟨0x10100, 1, 1⟩
def F.PWR_FLAG_STBY_ABORT : Fld := ⟨0x10100, 4, 1⟩
def F.PWR_FLAG_SUPERSEDED : Fld := ⟨0x10100, 2, 1⟩
def F.PWR_FLAG_WAKE : Fld := ⟨0x10100, 3, 1⟩
def F.PWR_QTIME_US : Fld := ⟨0x10114, 0, 16⟩
def F.PWR_REFUSECNT : Fld := ⟨0x1010c, 0, 32⟩
def F.PWR_REFUSE_REASON : Fld := ⟨0x10108, 28, 4⟩
def F.PWR_REFUSE_UNIT : Fld := ⟨0x10108, 0, 24⟩
def F.PWR_REQ_TARGET (i : Nat) : Fld := ⟨0x10000 + 4 * i, 0, 2⟩
def F.PWR_STATE_PEND (i : Nat) : Fld := ⟨0x10080 + 4 * i, 12, 1⟩
def F.PWR_STATE_PHASE (i : Nat) : Fld := ⟨0x10080 + 4 * i, 4, 3⟩
def F.PWR_STATE_PTARGET (i : Nat) : Fld := ⟨0x10080 + 4 * i, 10, 2⟩
def F.PWR_STATE_RESULT (i : Nat) : Fld := ⟨0x10080 + 4 * i, 13, 3⟩
def F.PWR_STATE_STATE (i : Nat) : Fld := ⟨0x10080 + 4 * i, 0, 2⟩
def F.PWR_STATE_TARGET (i : Nat) : Fld := ⟨0x10080 + 4 * i, 8, 2⟩
def F.PWR_STBY_GO : Fld := ⟨0x10118, 0, 1⟩
def F.PWR_SUPERCNT : Fld := ⟨0x10110, 0, 32⟩
def F.PWR_WAKEMASK_CAN (i : Nat) : Fld := ⟨0x10180 + 4 * i, 8, 2⟩
def F.PWR_WAKEMASK_LANEWK (i : Nat) : Fld := ⟨0x10180 + 4 * i, 0, 8⟩
def F.REED_AQCFG_BRG_RSV (c : Nat) : Fld := ⟨reedBase c + 0x48, 0, 8⟩
def F.REED_AQSTAT_PEAK (c : Nat) : Fld := ⟨reedBase c + 0x4c, 16, 9⟩
def F.REED_COLLCNT_COUNT (c : Nat) : Fld := ⟨reedBase c + 0x5c, 0, 32⟩
def F.REED_CTL_FLUSH (c : Nat) : Fld := ⟨reedBase c + 0x0, 1, 1⟩
def F.REED_CTL_RESUME (c : Nat) : Fld := ⟨reedBase c + 0x0, 2, 1⟩
def F.REED_CTL_RUN (c : Nat) : Fld := ⟨reedBase c + 0x0, 0, 1⟩
def F.REED_CTXEN_EN (c : Nat) : Fld := ⟨reedBase c + 0x10, 0, 16⟩
def F.REED_CTX_FLAG (c x b : Nat) : Fld := ⟨reedBase c + 0x400 + x * 0x40, 28 + b, 1⟩
def F.REED_CTX_W (c : Nat) (i : Nat) : Fld := ⟨reedBase c + 0x400 + 4 * i, 0, 32⟩
def F.REED_FIFOMAP_LEND (c : Nat) : Fld := ⟨reedBase c + 0x2c, 0, 8⟩
def F.REED_FLAG_AQ_PARITY (c : Nat) : Fld := ⟨reedBase c + 0x8, 4, 1⟩
def F.REED_FLAG_CTX_FAULT (c : Nat) : Fld := ⟨reedBase c + 0x8, 2, 1⟩
def F.REED_FLAG_CTX_STICKY (c : Nat) : Fld := ⟨reedBase c + 0x8, 1, 1⟩
def F.REED_FLAG_HALT (c : Nat) : Fld := ⟨reedBase c + 0x8, 0, 1⟩
def F.REED_FLAG_PM_PARITY (c : Nat) : Fld := ⟨reedBase c + 0x8, 3, 1⟩
def F.REED_FLAG_REFUSED (c : Nat) : Fld := ⟨reedBase c + 0x8, 5, 1⟩
def F.REED_FLAG_STOPPED (c : Nat) : Fld := ⟨reedBase c + 0x8, 7, 1⟩
def F.REED_FLAG_SYNC_DONE (c : Nat) : Fld := ⟨reedBase c + 0x8, 6, 1⟩
def F.REED_LATECNT_COUNT (c : Nat) : Fld := ⟨reedBase c + 0x50, 0, 32⟩
def F.REED_LOAD_VALUE (c : Nat) (i : Nat) : Fld := ⟨reedBase c + 0x40 + 4 * i, 0, 32⟩
def F.REED_MISPCNT_COUNT (c : Nat) : Fld := ⟨reedBase c + 0x58, 0, 32⟩
def F.REED_PMAP_PINS (c : Nat) (i : Nat) : Fld := ⟨reedBase c + 0x20 + 4 * i, 0, 32⟩
def F.REED_REFUSECNT_COUNT (c : Nat) : Fld := ⟨reedBase c + 0x60, 0, 32⟩
def F.REED_RUNAHEAD_TICKS (c : Nat) : Fld := ⟨reedBase c + 0x1c, 0, 15⟩
def F.REED_SLOT0_S (c : Nat) : Fld := ⟨reedBase c + 0x14, 0, 32⟩
def F.REED_SLOT1_S (c : Nat) : Fld := ⟨reedBase c + 0x18, 0, 32⟩
def F.REED_SQUASHCNT_COUNT (c : Nat) : Fld := ⟨reedBase c + 0x54, 0, 32⟩
def F.REED_STAT_ACTIVE (c : Nat) : Fld := ⟨reedBase c + 0x4, 0, 1⟩
def F.REED_STAT_EPOCH (c : Nat) : Fld := ⟨reedBase c + 0x4, 4, 4⟩
def F.REED_SYNCT_VALUE (c : Nat) (i : Nat) : Fld := ⟨reedBase c + 0x34 + 4 * i, 0, 32⟩
def F.REED_SYNC_ARM (c : Nat) : Fld := ⟨reedBase c + 0x30, 0, 1⟩
def F.REED_SYNC_DO_LOAD (c : Nat) : Fld := ⟨reedBase c + 0x30, 4, 1⟩
def F.REED_SYNC_DO_START (c : Nat) : Fld := ⟨reedBase c + 0x30, 3, 1⟩
def F.REED_SYNC_SRC (c : Nat) : Fld := ⟨reedBase c + 0x30, 2, 1⟩
def F.RFXC_BANK_BASE (i : Nat) : Fld := ⟨0xe8204 + 4 * i, 0, 12⟩
def F.RFXC_LIVE_BASE : Fld := ⟨0xe8200, 0, 12⟩
def F.RFXC_LIVE_SIZE : Fld := ⟨0xe8200, 16, 13⟩
def F.RFXC_LMAP_I_EN (i : Nat) : Fld := ⟨0xe8400 + 8 * i, 31, 1⟩
def F.RFXC_LMAP_I_OFF (i : Nat) : Fld := ⟨0xe8400 + 8 * i, 0, 20⟩
def F.RFXC_LMAP_O_EN (i : Nat) : Fld := ⟨0xe8404 + 8 * i, 31, 1⟩
def F.RFXC_LMAP_O_OFF (i : Nat) : Fld := ⟨0xe8404 + 8 * i, 0, 20⟩
def F.RFXC_LSUB_EDGE (i : Nat) : Fld := ⟨0xe8000 + 4 * i, 0, 8⟩
def F.RFXC_LSUB_FLAG (i : Nat) : Fld := ⟨0xe8000 + 4 * i, 8, 8⟩
def F.RFXC_PSUB_CORES (i : Nat) : Fld := ⟨0xe8120 + 4 * i, 0, 8⟩
def F.RFXC_RSUB_CORES (i : Nat) : Fld := ⟨0xe8100 + 4 * i, 0, 8⟩
def F.RFX_CTL_RUN (n : Nat) : Fld := ⟨rfxBase n + 0x0, 0, 1⟩
def F.RFX_CTL_WDT_AUTO (n : Nat) : Fld := ⟨rfxBase n + 0x0, 1, 1⟩
def F.RFX_ECCCNT (n : Nat) : Fld := ⟨rfxBase n + 0x34, 0, 32⟩
def F.RFX_ENTRY_ADDR (n : Nat) : Fld := ⟨rfxBase n + 0x10, 1, 15⟩
def F.RFX_EVEN_APPLY (n : Nat) : Fld := ⟨rfxBase n + 0x20, 1, 1⟩
def F.RFX_EVEN_CPL (n : Nat) : Fld := ⟨rfxBase n + 0x20, 2, 1⟩
def F.RFX_EVEN_CYCLE (n : Nat) : Fld := ⟨rfxBase n + 0x20, 0, 1⟩
def F.RFX_EVEN_SOFT (n : Nat) : Fld := ⟨rfxBase n + 0x20, 3, 1⟩
def F.RFX_EVLOST (n : Nat) : Fld := ⟨rfxBase n + 0x28, 0, 32⟩
def F.RFX_FLAG_ECC_COR (n : Nat) : Fld := ⟨rfxBase n + 0x8, 2, 1⟩
def F.RFX_FLAG_ECC_UNC (n : Nat) : Fld := ⟨rfxBase n + 0x8, 3, 1⟩
def F.RFX_FLAG_EVLOST (n : Nat) : Fld := ⟨rfxBase n + 0x8, 0, 1⟩
def F.RFX_FLAG_ISSREJ (n : Nat) : Fld := ⟨rfxBase n + 0x8, 1, 1⟩
def F.RFX_FLAG_STOPPED (n : Nat) : Fld := ⟨rfxBase n + 0x8, 5, 1⟩
def F.RFX_FLAG_WDT (n : Nat) : Fld := ⟨rfxBase n + 0x8, 4, 1⟩
def F.RFX_ISSREJ (n : Nat) : Fld := ⟨rfxBase n + 0x2c, 0, 32⟩
def F.RFX_RESTARTCNT (n : Nat) : Fld := ⟨rfxBase n + 0x30, 0, 32⟩
def F.RFX_STAT_ACTIVE (n : Nat) : Fld := ⟨rfxBase n + 0x4, 0, 1⟩
def F.RFX_STAT_CAUSE (n : Nat) : Fld := ⟨rfxBase n + 0x4, 8, 3⟩
def F.RFX_TCMADDR_DTCM (n : Nat) : Fld := ⟨rfxBase n + 0x14, 31, 1⟩
def F.RFX_TCMADDR_WORD (n : Nat) : Fld := ⟨rfxBase n + 0x14, 2, 14⟩
def F.RFX_WDT_PERIOD (n : Nat) : Fld := ⟨rfxBase n + 0x1c, 0, 24⟩
def F.RNG_CTL_EN : Fld := ⟨0x84000, 0, 1⟩
def F.RNG_DUPBC : Fld := ⟨0x84114, 0, 32⟩
def F.RNG_ELECT_PRIO : Fld := ⟨0x84014, 24, 8⟩
def F.RNG_ELECT_WAIT : Fld := ⟨0x84014, 0, 16⟩
def F.RNG_EPOCH_EPOCH : Fld := ⟨0x84028, 0, 16⟩
def F.RNG_FLAG_HOPDROP : Fld := ⟨0x84008, 6, 1⟩
def F.RNG_FLAG_JOINED : Fld := ⟨0x84008, 0, 1⟩
def F.RNG_FLAG_MASTER : Fld := ⟨0x84008, 9, 1⟩
def F.RNG_FLAG_REFUSED : Fld := ⟨0x84008, 1, 1⟩
def F.RNG_FLAG_REPLAY : Fld := ⟨0x84008, 5, 1⟩
def F.RNG_FLAG_TOPO : Fld := ⟨0x84008, 4, 1⟩
def F.RNG_FLAG_UNWRAP : Fld := ⟨0x84008, 3, 1⟩
def F.RNG_FLAG_WRAP : Fld := ⟨0x84008, 2, 1⟩
def F.RNG_FLAG_WRAPDROP : Fld := ⟨0x84008, 7, 1⟩
def F.RNG_HDRERR : Fld := ⟨0x84100, 0, 32⟩
def F.RNG_HOPDROP : Fld := ⟨0x84104, 0, 32⟩
def F.RNG_JOINCFG_MEMBERS : Fld := ⟨0x84010, 16, 2⟩
def F.RNG_JOINCFG_REQID : Fld := ⟨0x84010, 24, 8⟩
def F.RNG_JOINCFG_STRICT : Fld := ⟨0x84010, 23, 1⟩
def F.RNG_JOINNAK : Fld := ⟨0x8411c, 0, 32⟩
def F.RNG_NAK_REASON : Fld := ⟨0x84024, 0, 8⟩
def F.RNG_NODEST : Fld := ⟨0x8410c, 0, 32⟩
def F.RNG_PLAN_LEAD : Fld := ⟨0x84030, 0, 16⟩
def F.RNG_REPLAY : Fld := ⟨0x84110, 0, 32⟩
def F.RNG_SHIFTCFG_DRNMAX : Fld := ⟨0x8402c, 24, 8⟩
def F.RNG_SHIFTCFG_GAP : Fld := ⟨0x8402c, 0, 16⟩
def F.RNG_STATMODE_MODE : Fld := ⟨0x84040, 16, 2⟩
def F.RNG_STAT_COUNT : Fld := ⟨0x84004, 16, 8⟩
def F.RNG_STAT_JOIN : Fld := ⟨0x84004, 4, 4⟩
def F.RNG_STAT_MASTER : Fld := ⟨0x84004, 24, 8⟩
def F.RNG_STAT_WRAPE : Fld := ⟨0x84004, 0, 1⟩
def F.RNG_STAT_WRAPW : Fld := ⟨0x84004, 1, 1⟩
def F.RNG_TIMING_TOPO : Fld := ⟨0x84020, 0, 16⟩
def F.RNG_TIMING_UNWRAP : Fld := ⟨0x84020, 16, 16⟩
def F.RNG_WRAPCNT : Fld := ⟨0x84118, 0, 32⟩
def F.RNG_WRAPDROP : Fld := ⟨0x84108, 0, 32⟩
def F.SEC_AUTHFAIL_COUNT : Fld := ⟨0x54014, 0, 32⟩
def F.SEC_BOOTID_ID : Fld := ⟨0x54008, 0, 32⟩
def F.SEC_CTL_ALLOW1 : Fld := ⟨0x54000, 4, 4⟩
def F.SEC_CTL_ALLOW3 : Fld := ⟨0x54000, 8, 4⟩
def F.SEC_CTL_AUTH : Fld := ⟨0x54000, 0, 1⟩
def F.SEC_DENYCNT_COUNT : Fld := ⟨0x54018, 0, 32⟩
def F.SEC_VIOLCNT_COUNT : Fld := ⟨0x54010, 0, 32⟩
def F.SEM_BRKCNT : Fld := ⟨0x38084, 0, 32⟩
def F.SWC_CTL_EN : Fld := ⟨0xa0000, 0, 1⟩
def F.SWC_CTL_SPILL_EN : Fld := ⟨0xa0000, 1, 1⟩
def F.SWC_FLAG_LL_DROP : Fld := ⟨0xa0008, 1, 1⟩
def F.SWC_FLAG_QDROP : Fld := ⟨0xa0008, 0, 1⟩
def F.SWC_IN_TH_HEAD (i : Nat) : Fld := ⟨0xa0400 + 4 * i, 22, 10⟩
def F.SWC_IN_TH_XOFF (i : Nat) : Fld := ⟨0xa0400 + 4 * i, 0, 11⟩
def F.SWC_IN_TH_XON (i : Nat) : Fld := ⟨0xa0400 + 4 * i, 11, 11⟩
def F.SWC_LLDROP : Fld := ⟨0xa0028, 0, 32⟩
def F.SWC_LOSSLESS_CLS : Fld := ⟨0xa0014, 0, 8⟩
def F.SWC_POOL_CPL : Fld := ⟨0xa0010, 0, 15⟩
def F.SWC_QCFG_MAX (i : Nat) : Fld := ⟨0xa0100 + 4 * i, 16, 15⟩
def F.SWC_QCFG_MIN (i : Nat) : Fld := ⟨0xa0100 + 4 * i, 0, 15⟩
def F.SWC_QDROP (i : Nat) : Fld := ⟨0xa0300 + 4 * i, 0, 32⟩
def F.SWC_QUSE_PEAK (i : Nat) : Fld := ⟨0xa0200 + 4 * i, 16, 15⟩
def F.SWC_SPILLCLS_CLS : Fld := ⟨0xa0020, 0, 8⟩
def F.SWC_STATMODE_MODE : Fld := ⟨0xa0024, 16, 2⟩
def F.SWC_STAT_CFG_ERR : Fld := ⟨0xa0004, 1, 1⟩
def F.SWC_STAT_RUN : Fld := ⟨0xa0004, 0, 1⟩
def F.SWC_WRR_W0 : Fld := ⟨0xa0018, 0, 8⟩
def F.SWC_WRR_W1 : Fld := ⟨0xa0018, 8, 8⟩
def F.SWC_WRR_W2 : Fld := ⟨0xa0018, 16, 8⟩
def F.TILE_CHKSEL_TILE : Fld := ⟨0xa8034, 0, 14⟩
def F.TILE_CTL_SCRUB_EN : Fld := ⟨0xa8000, 0, 1⟩
def F.TILE_FAILCNT : Fld := ⟨0xa802c, 0, 32⟩
def F.TILE_FLAG_FAIL : Fld := ⟨0xa8008, 1, 1⟩
def F.TILE_FLAG_PASS : Fld := ⟨0xa8008, 0, 1⟩
def F.TILE_FLAG_QFULL : Fld := ⟨0xa8008, 3, 1⟩
def F.TILE_FLAG_QWARN : Fld := ⟨0xa8008, 2, 1⟩
def F.TILE_INJECT_TILE : Fld := ⟨0xa803c, 0, 14⟩
def F.TILE_PART_BASE (i : Nat) : Fld := ⟨0xa8010 + 4 * i, 0, 14⟩
def F.TILE_PART_SIZE (i : Nat) : Fld := ⟨0xa8010 + 4 * i, 16, 13⟩
def F.TILE_QCFG_WARN : Fld := ⟨0xa8024, 0, 7⟩
def F.TILE_QSTAT_PEAK : Fld := ⟨0xa8028, 16, 7⟩
def F.TILE_SCRUBCNT_COUNT : Fld := ⟨0xa8030, 0, 32⟩
def F.TS_ASYM_ASYM (l : Nat) : Fld := ⟨tsBase l + 0x4, 0, 16⟩
def F.TS_CTL_EN (l : Nat) : Fld := ⟨tsBase l + 0x0, 0, 1⟩
def F.TS_CTL_TC_EN (l : Nat) : Fld := ⟨tsBase l + 0x0, 1, 1⟩
def F.TS_LINKDLY_DLY (l : Nat) : Fld := ⟨tsBase l + 0x8, 0, 24⟩
def F.TS_TC_FUPMISS (l : Nat) : Fld := ⟨tsBase l + 0x28, 0, 32⟩
def F.TS_TSQ_OVFCNT (l : Nat) : Fld := ⟨tsBase l + 0x24, 0, 32⟩
def F.TS_TSQ_STAT_OVF (l : Nat) : Fld := ⟨tsBase l + 0xc, 8, 1⟩
def F.X_BCNMISS (l : Nat) : Fld := ⟨linkBase l + 0x130, 0, 32⟩
def F.X_BCN_MISS (l : Nat) : Fld := ⟨linkBase l + 0x24, 16, 4⟩
def F.X_BCN_PERIOD (l : Nat) : Fld := ⟨linkBase l + 0x24, 0, 16⟩
def F.X_COMMIT_GO (l : Nat) : Fld := ⟨linkBase l + 0x3c, 0, 1⟩
def F.X_CTL_EN (l : Nat) : Fld := ⟨linkBase l + 0x0, 0, 1⟩
def F.X_CTL_FEC (l : Nat) : Fld := ⟨linkBase l + 0x0, 1, 1⟩
def F.X_CTL_LPI_EN (l : Nat) : Fld := ⟨linkBase l + 0x0, 2, 1⟩
def F.X_CTL_SHIFT_EN (l : Nat) : Fld := ⟨linkBase l + 0x0, 3, 1⟩
def F.X_CTSTORE (l : Nat) : Fld := ⟨linkBase l + 0x15c, 0, 32⟩
def F.X_FECCORR (l : Nat) : Fld := ⟨linkBase l + 0x138, 0, 32⟩
def F.X_FECUNC (l : Nat) : Fld := ⟨linkBase l + 0x13c, 0, 32⟩
def F.X_FLAG_CNT_HALF (l : Nat) : Fld := ⟨linkBase l + 0x8, 7, 1⟩
def F.X_FLAG_FLARE_DONE (l : Nat) : Fld := ⟨linkBase l + 0x8, 11, 1⟩
def F.X_FLAG_FLARE_REFUSED (l : Nat) : Fld := ⟨linkBase l + 0x8, 12, 1⟩
def F.X_FLAG_GCL_ERR (l : Nat) : Fld := ⟨linkBase l + 0x8, 14, 1⟩
def F.X_FLAG_HOLD_EXP (l : Nat) : Fld := ⟨linkBase l + 0x8, 2, 1⟩
def F.X_FLAG_LOS (l : Nat) : Fld := ⟨linkBase l + 0x8, 9, 1⟩
def F.X_FLAG_LOST (l : Nat) : Fld := ⟨linkBase l + 0x8, 1, 1⟩
def F.X_FLAG_MM_VERIFY_FAIL (l : Nat) : Fld := ⟨linkBase l + 0x8, 13, 1⟩
def F.X_FLAG_MOD_ABS (l : Nat) : Fld := ⟨linkBase l + 0x8, 8, 1⟩
def F.X_FLAG_SFPI2C_DONE (l : Nat) : Fld := ⟨linkBase l + 0x8, 10, 1⟩
def F.X_FLAG_SHIFT_ABORT (l : Nat) : Fld := ⟨linkBase l + 0x8, 5, 1⟩
def F.X_FLAG_SHIFT_DONE (l : Nat) : Fld := ⟨linkBase l + 0x8, 3, 1⟩
def F.X_FLAG_SHIFT_REF (l : Nat) : Fld := ⟨linkBase l + 0x8, 4, 1⟩
def F.X_FLAG_SNAP (l : Nat) : Fld := ⟨linkBase l + 0x8, 6, 1⟩
def F.X_FLAG_UP (l : Nat) : Fld := ⟨linkBase l + 0x8, 0, 1⟩
def F.X_FLAPCNT (l : Nat) : Fld := ⟨linkBase l + 0x164, 0, 32⟩
def F.X_FLARE_COUNT (l : Nat) : Fld := ⟨linkBase l + 0x38, 8, 4⟩
def F.X_FLARE_SEND (l : Nat) : Fld := ⟨linkBase l + 0x38, 0, 1⟩
def F.X_FLUSH (l : Nat) : Fld := ⟨linkBase l + 0x154, 0, 32⟩
def F.X_GATEDROP (l : Nat) : Fld := ⟨linkBase l + 0x158, 0, 32⟩
def F.X_GCL_BNS_NS (l : Nat) : Fld := ⟨linkBase l + 0x40c, 0, 30⟩
def F.X_GCL_BSH_SEC (l : Nat) : Fld := ⟨linkBase l + 0x414, 0, 16⟩
def F.X_GCL_BSL_SEC (l : Nat) : Fld := ⟨linkBase l + 0x410, 0, 32⟩
def F.X_GCL_CTL_EN (l : Nat) : Fld := ⟨linkBase l + 0x400, 0, 1⟩
def F.X_GCL_CYCLE_NS (l : Nat) : Fld := ⟨linkBase l + 0x408, 0, 32⟩
def F.X_GCL_LEN_LEN (l : Nat) : Fld := ⟨linkBase l + 0x404, 0, 8⟩
def F.X_GCL_OPER_IDX (l : Nat) : Fld := ⟨linkBase l + 0x418, 0, 8⟩
def F.X_GCL_W0_GATES (l : Nat) (i : Nat) : Fld := ⟨linkBase l + 0x800 + 8 * i, 0, 8⟩
def F.X_GCL_W0_HOLD (l : Nat) (i : Nat) : Fld := ⟨linkBase l + 0x800 + 8 * i, 8, 1⟩
def F.X_GCL_W1_NS (l : Nat) (i : Nat) : Fld := ⟨linkBase l + 0x804 + 8 * i, 0, 32⟩
def F.X_HOLDRES (l : Nat) : Fld := ⟨linkBase l + 0x14c, 0, 32⟩
def F.X_HOLD_MAXRES (l : Nat) : Fld := ⟨linkBase l + 0x1c, 16, 16⟩
def F.X_HOLD_TIME (l : Nat) : Fld := ⟨linkBase l + 0x1c, 0, 16⟩
def F.X_LOCKLOSS (l : Nat) : Fld := ⟨linkBase l + 0x134, 0, 32⟩
def F.X_LPIENT (l : Nat) : Fld := ⟨linkBase l + 0x140, 0, 32⟩
def F.X_LPI_BCN (l : Nat) : Fld := ⟨linkBase l + 0x2c, 16, 16⟩
def F.X_LPI_IDLE (l : Nat) : Fld := ⟨linkBase l + 0x2c, 0, 16⟩
def F.X_MMERR (l : Nat) : Fld := ⟨linkBase l + 0x160, 0, 32⟩
def F.X_PFCRX (l : Nat) : Fld := ⟨linkBase l + 0x12c, 0, 32⟩
def F.X_PFCTX (l : Nat) : Fld := ⟨linkBase l + 0x128, 0, 32⟩
def F.X_PFC_QUANTA (l : Nat) : Fld := ⟨linkBase l + 0x28, 16, 16⟩
def F.X_PFC_RX_EN (l : Nat) : Fld := ⟨linkBase l + 0x28, 0, 8⟩
def F.X_RATE_MAX (l : Nat) : Fld := ⟨linkBase l + 0x10, 0, 2⟩
def F.X_RATE_MIN (l : Nat) : Fld := ⟨linkBase l + 0x10, 4, 2⟩
def F.X_REROUTE_CLS (l : Nat) : Fld := ⟨linkBase l + 0x20, 0, 8⟩
def F.X_REROUTE_CNT (l : Nat) : Fld := ⟨linkBase l + 0x150, 0, 32⟩
def F.X_RXBIN_COUNT (l : Nat) (i : Nat) : Fld := ⟨linkBase l + 0x180 + 4 * i, 0, 32⟩
def F.X_RXBYTE (l : Nat) : Fld := ⟨linkBase l + 0x10c, 0, 32⟩
def F.X_RXCRC (l : Nat) : Fld := ⟨linkBase l + 0x110, 0, 32⟩
def F.X_RXECL (l : Nat) : Fld := ⟨linkBase l + 0x118, 0, 32⟩
def F.X_RXFRM (l : Nat) : Fld := ⟨linkBase l + 0x108, 0, 32⟩
def F.X_RXHCRC (l : Nat) : Fld := ⟨linkBase l + 0x114, 0, 32⟩
def F.X_RXOVSZ (l : Nat) : Fld := ⟨linkBase l + 0x120, 0, 32⟩
def F.X_RXUNDSZ (l : Nat) : Fld := ⟨linkBase l + 0x124, 0, 32⟩
def F.X_SFPCTL_ABS (l : Nat) : Fld := ⟨linkBase l + 0x30, 8, 1⟩
def F.X_SFPCTL_LOS (l : Nat) : Fld := ⟨linkBase l + 0x30, 9, 1⟩
def F.X_SFPCTL_LOS_EN (l : Nat) : Fld := ⟨linkBase l + 0x30, 1, 1⟩
def F.X_SFPCTL_TXDIS (l : Nat) : Fld := ⟨linkBase l + 0x30, 0, 1⟩
def F.X_SFPI2C_ADDR (l : Nat) : Fld := ⟨linkBase l + 0x34, 16, 8⟩
def F.X_SFPI2C_DATA (l : Nat) : Fld := ⟨linkBase l + 0x34, 0, 8⟩
def F.X_SFPI2C_DEV (l : Nat) : Fld := ⟨linkBase l + 0x34, 24, 1⟩
def F.X_SFPI2C_ERR (l : Nat) : Fld := ⟨linkBase l + 0x34, 29, 1⟩
def F.X_SFPI2C_GO (l : Nat) : Fld := ⟨linkBase l + 0x34, 31, 1⟩
def F.X_SFPI2C_WR (l : Nat) : Fld := ⟨linkBase l + 0x34, 30, 1⟩
def F.X_SHIFTCNT (l : Nat) : Fld := ⟨linkBase l + 0x144, 0, 32⟩
def F.X_SHIFTREF (l : Nat) : Fld := ⟨linkBase l + 0x148, 0, 32⟩
def F.X_SHIFTT_DRAIN (l : Nat) : Fld := ⟨linkBase l + 0x18, 0, 16⟩
def F.X_SHIFTT_HOLDOFF (l : Nat) : Fld := ⟨linkBase l + 0x18, 16, 16⟩
def F.X_SHIFT_DN10 (l : Nat) : Fld := ⟨linkBase l + 0x14, 16, 8⟩
def F.X_SHIFT_DN25 (l : Nat) : Fld := ⟨linkBase l + 0x14, 8, 8⟩
def F.X_SHIFT_UP (l : Nat) : Fld := ⟨linkBase l + 0x14, 24, 8⟩
def F.X_SHIFT_WIN (l : Nat) : Fld := ⟨linkBase l + 0x14, 0, 8⟩
def F.X_SNAPMS_MS (l : Nat) : Fld := ⟨linkBase l + 0x4c, 0, 10⟩
def F.X_SNAPSEC_SEC (l : Nat) : Fld := ⟨linkBase l + 0x48, 0, 32⟩
def F.X_SNAPSEQ_SEQ (l : Nat) : Fld := ⟨linkBase l + 0x44, 0, 16⟩
def F.X_STATMODE_MODE (l : Nat) : Fld := ⟨linkBase l + 0x40, 16, 2⟩
def F.X_STAT_CAUSE (l : Nat) : Fld := ⟨linkBase l + 0x4, 9, 3⟩
def F.X_STAT_LOCK (l : Nat) : Fld := ⟨linkBase l + 0x4, 5, 1⟩
def F.X_STAT_LPI (l : Nat) : Fld := ⟨linkBase l + 0x4, 8, 1⟩
def F.X_STAT_PAUSED_RX (l : Nat) : Fld := ⟨linkBase l + 0x4, 16, 8⟩
def F.X_STAT_PAUSED_TX (l : Nat) : Fld := ⟨linkBase l + 0x4, 24, 8⟩
def F.X_STAT_RATE_ACT (l : Nat) : Fld := ⟨linkBase l + 0x4, 6, 2⟩
def F.X_STAT_STATE (l : Nat) : Fld := ⟨linkBase l + 0x4, 0, 4⟩
def F.X_TXBIN_COUNT (l : Nat) (i : Nat) : Fld := ⟨linkBase l + 0x1a0 + 4 * i, 0, 32⟩
def F.X_TXBYTE (l : Nat) : Fld := ⟨linkBase l + 0x104, 0, 32⟩
def F.X_TXECL (l : Nat) : Fld := ⟨linkBase l + 0x11c, 0, 32⟩
def F.X_TXFRM (l : Nat) : Fld := ⟨linkBase l + 0x100, 0, 32⟩

end Sys2Proof.Machine
end

