-- ==== Sys2Proof/Config.lean ====
section
/-! DEFINITION. What an implementation fixes, and the values the spec leaves open. Every `opaque` here has no body:
nothing in Lean can tell its value, and a statement holds for every one. -/

namespace Sys2Proof

/-- The n-th value drawn where the spec leaves a value open after a command that goes on (log entry 2). The state's
own counter `freeCtr` numbers the draws. -/
opaque Config.freeValue : Nat → Nat

/-- SHA-256 of a byte string (12 R365, R372), a published function the spec names (log entry 6). -/
opaque Config.sha256 : List Byte → BitVec 256

/-- Does an ECDSA P-256 signature verify per FIPS 186: public key X then Y, message digest, signature r then s (12 R365;
log entry 6). -/
opaque Config.verifyP256 : List Byte → BitVec 256 → List Byte → Bool

/-- The 16 tag bytes of AES-128-GMAC, NIST SP 800-38D (13 R403; log entry 6): key, IV, additional data. -/
opaque Config.gmac : BitVec 128 → List (BitVec 8) → List (BitVec 8) → List (BitVec 8)

/-- What a conversion of R151 yields while RATE is 0, from the anchor's counter value and the time (log entry 10). -/
opaque Config.rateZero : Nat → Int → Nat

end Sys2Proof
end

