-- ==== Sys2Proof/Machine/State.lean ====
section
/-! DEFINITION. The hub's state. Register fields live in one table keyed by address and bit (RegMap.lean lists them);
FIFOs, queues, engines and everything else a register does not show stand here in typed structures. Every structure's
default value is its value after reset. -/

namespace Sys2Proof.Machine

/-! ## Outputs -/

/-- The form an error response takes (Table 0.5). -/
inductive ErrForm where
  | accessFault | completerAbort | dropped | cplCA | cplUR | eventFrame | jtagErr
  deriving DecidableEq, Repr

/-- What the hub hands to the outside or to a requester, newest first in `Hub.out`. -/
inductive Out where
  /-- The data of a register read. -/
  | regRead (a : Access) (addr : Nat) (v : W32)
  /-- XSPI_RST_N falls: both flash devices are in 1S-1S-1S mode (R491). -/
  | xspiReset
  /-- Nine clocks and STOP of an I2C bus clear (R65). -/
  | busClear (lane : Fin 64)
  /-- The STOP that ends an abandoned I2C sequence (R65, Table 2.22). -/
  | i2cStop (lane : Fin 64)
  /-- The error response to a refused register access (R11). -/
  | regError (a : Access) (addr : Nat) (f : ErrForm)
  /-- A frame goes out of a switch port; `ecl`: it ends with an eclipse (R278). -/
  | frame (port : Fin 7) (f : Frame) (ecl : Bool := false)
  /-- A final completion to a requester that issues through the bridge: requester, tag, status, EST, LOCK, SALVAGED, data. -/
  | completion (req : BitVec 4) (tag : BitVec 8) (st : BitVec 4) (est : Nat) (lock salv : Bool) (data : List Byte)
  /-- An MSI-X vector is sent to the host (R459). -/
  | msix (vec : Nat)
  /-- A host receive descriptor is written: ring, words, data. -/
  | rxDesc (ring : Fin 8) (ws : List W32) (data : List Byte)
  /-- A host transmit descriptor is closed: ring, status. -/
  | txDone (ring : Fin 8) (st : Nat) (data : List Byte)
  /-- A request leaves for the PCIe host or a device over the endpoint: BAR read data or Completer Abort. -/
  | barRead (off : Nat) (data : List Byte)
  | barAbort (off : Nat)
  /-- A BAR2 read whose tile failed: the completion carries the PCIe poisoned bit (Table 6.1, code 5). -/
  | barPoison (off : Nat)
  /-- An answer of a mailbox command: channel, code, MID, return code, further words. -/
  | mbxAnswer (ch : Fin 4) (code : Nat) (mid : Byte) (ret : Nat) (ws : List W32)
  /-- Bytes or a command go out of a lane's pins towards its device. -/
  | device (lane : Fin 64) (bytes : List Byte)
  /-- A CAN frame goes out on a bus. -/
  | canFrame (k : Fin 16) (f : CanFrame)
  /-- A link starts to send a number of consecutive Flares (R263). -/
  | flare (l : Fin 4) (n : Nat)
  /-- One byte read or write starts on a module's I2C bus. -/
  | sfp (l : Fin 2) (wr : Bool) (dev : Bool) (adr data : Nat)
  deriving DecidableEq, Repr

/-! ## Gnomon (05) -/

/-- A Gnomon time: seconds, nanoseconds, 2^-24 ns (R143). -/
structure GTime where
  sec : Nat := 0
  ns : Nat := 0
  frac : Nat := 0
  deriving DecidableEq, Repr

/-- A pulse generator's hidden state (R163, R164): output level and the named time of its next edge in ns since 0 s
(none when a one-shot has ended), whether a forward step skipped that edge, and the same pair for the edges inserted
into an action queue. -/
structure Pulse where
  high : Bool := false
  next : Option Nat := none
  late : Bool := false
  rHigh : Bool := false
  rNext : Option Nat := none
  deriving DecidableEq, Repr

/-- The Gnomon beside its registers: time, staged step committed for the next apply tick, reader shadows (R148), pulse
generators. -/
structure Gno where
  t : GTime := {}
  /-- GO reads 1: the committed set waits for the apply tick (R145). -/
  goTick : Nat := 0
  /-- The tick of the write that set GNO_PAIR.GO. -/
  pairAt : Nat := 0
  shadow : Vector GTime 16 := Vector.replicate 16 {}
  /-- Shadows of requesters 10 and 11 by source node and member, most recently used first, at most 16 (R148). -/
  remote : List (BitVec 8 × BitVec 2 × GTime) := []
  pg : Vector Pulse 4 := Vector.replicate 4 {}
  ppsOut : Bool := false
  deriving DecidableEq, Repr

/-! ## Lanes (02) -/

/-- A FIFO word with its parity (`good`) and the tick it was pushed (R47, R49). -/
structure FifoWord where
  w : W32
  good : Bool := true
  time : Nat := 0
  deriving DecidableEq, Repr

/-- A lane FIFO: the words held, oldest first, and the two 7-bit pointers of R47. -/
structure Fifo where
  q : List FifoWord := []
  rd : BitVec 7 := 0
  wr : BitVec 7 := 0
  deriving DecidableEq, Repr

/-- A field pin: synchronised level, debounced level, counter at the start of the raw change not yet accepted (R59),
the drive a reed entry left on it (0 low, 1 high, 2 released; R57), an OUT drive released by V = 2 until the next latch
write (R160), the level a keeper holds (R53), the tick of the last timed action and of the last drone output on it
(R58), the tick and tap at which its output last switched (R57). -/
structure Pin where
  raw : Bool := false
  deb : Bool := false
  chg : Option Nat := none
  chgAt : Nat := 0
  drv : Nat := 2
  released : Bool := false
  kept : Bool := false
  actAt : Option Nat := none
  drnAt : Option Nat := none
  swTick : Nat := 0
  swTap : Nat := 0
  deriving DecidableEq, Repr

/-- A device access waiting for or holding a lane's bus (R205, R503): the request, the retry slot that waits on it,
whether Echo asks, and when it arrived. -/
structure DevReq where
  rq : Request
  slot : Option (Fin 128)
  echo : Bool := false
  at_ : Nat
  deriving DecidableEq, Repr

/-- A lane beside its registers. -/
structure Lane where
  rx : Fifo := {}
  tx : Fifo := {}
  pin : Vector Pin 3 := Vector.replicate 3 {}
  /-- Keepers hold the pins after a cluster or wider reset until R22 lets them go. -/
  keep : Bool := false
  /-- The CFG registers written since the reset that cleared them (R41, log entry 120). -/
  cfgW : BitVec 4 := 0
  /-- The tick the lane entered HOLD (R72-R74). -/
  holdAt : Nat := 0
  /-- Cause 5 stands: the function's device or bus does not answer (R46, R65-R67). -/
  devBad : Bool := false
  /-- A stream transfer holds the bus: SPI CS asserted, I2C between START and STOP (R503). -/
  open_ : Bool := false
  /-- SPI: the chip select of the stream transfer (R63). -/
  csel : Nat := 0
  /-- UART: the word being sent, and the DE pin (R61). -/
  cur : Option W32 := none
  de : Bool := false
  /-- PWM: running, stopped by V = 0, the tick its period began, PER and DUTY in force (R160). -/
  pwmOn : Bool := false
  pwmHalt : Bool := false
  pwmStart : Nat := 0
  pwmPer : Nat := 0
  pwmDuty : Nat := 0
  /-- I2C: receive-word bit of the event whose sequence is being discarded, 0 none (Table 2.22); a target stretches
  SCL; a bus clear is under way. -/
  discard : Nat := 0
  stretch : Bool := false
  clearing : Bool := false
  /-- I2C: the tick from which a failed bus clear is repeated (R65). -/
  clearAt : Nat := 0
  /-- SSI: stamp of the sample that runs, tick its monoflop time ends, discards in succession, latest pair (R66). -/
  sample : Option W32 := none
  mono : Nat := 0
  discards : Nat := 0
  lastPair : Option (W32 × W32) := none
  /-- SDCI: process data in, out as last sent, out for the next cycle, EN pin (R67, R69). -/
  pdIn : List Byte := []
  pdOut : List Byte := []
  pdNext : List Byte := []
  enPin : Bool := false
  /-- QUAD: filtered A and B, the tick of the last preset, first Z not yet seen (R68), the tick of the last input
  write of the image and whether a newer count waits for one (Table 10.4). -/
  qa : Bool := false
  qb : Bool := false
  preset : Option Nat := none
  firstZ : Bool := true
  pimLast : Option Nat := none
  pimDue : Bool := false
  /-- Device accesses in order; the head runs on the bus since `devTick` when `devRun` (R205, R503). -/
  dev : List DevReq := []
  devRun : Bool := false
  devTick : Nat := 0
  deriving DecidableEq, Repr

/-! ## Reflex events (10) -/

/-- An event entry, Table 10.2: type, unit, detail, nanoseconds and quarters, seconds; and the tick it was raised in (R318). -/
structure EvEntry where
  typ : BitVec 4
  unit : BitVec 24
  w1 : W32
  w2 : W32
  w3 : W32
  at_ : Nat := 0
  deriving DecidableEq, Repr

/-! ## Error log (16) -/

/-- A log entry (Table 16.2) with its full Gnomon seconds, and the tick its report arrived. -/
structure LogEntry where
  sec : Nat
  us : Nat
  rep : Nat
  unit : BitVec 24
  cls : BitVec 2
  req : BitVec 4
  rnode : BitVec 8
  space : BitVec 2
  code : BitVec 16
  addr : W32
  tick : Nat := 0
  deriving DecidableEq, Repr

/-- The error block beside its registers: log oldest first (R451), first-error capture (R453), ticks of the class-2
errors in the storm window (R447), whether the pending escalation is of P-die scope and the tick its delay ends (R446), and
the error the capture would hold if it were cleared in its cycle (R453). -/
structure Err where
  log : List LogEntry := []
  fec : Option LogEntry := none
  storm : List Nat := []
  escP : Bool := false
  escEnd : Nat := 0
  fecNow : Option LogEntry := none
  deriving DecidableEq, Repr

/-! ## Fuses and straps -/

/-- The fuses (01 Table 1.6, 09 Table 9.8, 12 R371, 13 Tables 13.6, 13.7): lane count of the part, unique ID, vendor
ID, anti-rollback advances, the four key-slot hashes, revoked slots, management key, HOST_TRUST (log entry 5). -/
structure Fuse where
  lanes64 : Bool := true
  uid : BitVec 64 := 0
  vendor : BitVec 16 := 0
  svn : Nat := 0
  keys : Vector (Option (BitVec 256)) 4 := Vector.replicate 4 none
  revoked : BitVec 4 := 0
  mkey : Option (BitVec 128) := none
  hostTrust : Bool := false
  deriving DecidableEq, Repr

/-- A die-link channel (R17): down, and the failed attempts on the flit being sent. -/
structure DieLink where
  down : Bool := false
  fails : Nat := 0
  deriving DecidableEq, Repr

/-! ## Tile memory (06) -/

/-- An entry of the quarantine table: tile, PERM, consumer of the first failure, partition, failed retests (Table 6.3), the
tick of its entry or last retest (R182). -/
structure QEnt where
  tile : Nat
  perm : Bool := false
  cons : Nat
  part : Nat
  tries : Nat := 0
  at_ : Nat := 0
  deriving DecidableEq, Repr

/-- Tile memory: bytes, the check array (an unlisted tile's check is that of 256 zero bytes, log entry 9), tiles that
hold frames, tiles whose entry in the link array fails its parity (R188), the quarantine table, the tile the scrubber
verifies next. -/
structure Tiles where
  mem : Sparse Byte := []
  chk : Sparse W32 := []
  used : List Nat := []
  linkBad : List Nat := []
  quar : Vector (Option QEnt) 64 := Vector.replicate 64 none
  scrub : Nat := 0
  deriving DecidableEq, Repr

/-- The process image beside its registers: the cycle whose freeze runs or ran last and when its copy ends, writes to the live area that wait
while it copies (R324), oldest first, each with whether it may be a full-tile write (R174); the STALE and POIS bit of each extract entry, the LPOIS bit of each lane (R327, R328). -/
structure Pim where
  freezing : Bool := false
  endAt : Nat := 0
  no : Nat := 0
  wait : List (Nat × List Byte × Bool) := []
  stale : BitVec 512 := 0
  pois : BitVec 512 := 0
  lpois : BitVec 64 := 0
  deriving DecidableEq, Repr

/-! ## Reflex cores (10) -/

/-- A line of a tile buffer: tile, its 256 bytes and the dirty mask (R311). -/
structure TLine where
  tile : Nat
  data : List Byte
  dirty : BitVec 256 := 0
  deriving DecidableEq, Repr

/-- The staging registers of the core-local page (Table 10.10). -/
structure IssReg where
  addrl : W32 := 0
  addrh : W32 := 0
  ctl : W32 := 0
  timel : W32 := 0
  timeh : W32 := 0
  dptr : W32 := 0
  rptr : W32 := 0
  last : Nat := 0
  deriving DecidableEq, Repr

/-- An issue slot (Table 10.10, R322, R333): BUSY, DONE, SALVAGED, BYTES, STATUS, where read data go, and whether a
stop let its completion be discarded. -/
structure IssSlot where
  busy : Bool := false
  done : Bool := false
  salv : Bool := false
  bytes : Nat := 0
  status : Nat := 0
  rptr : W32 := 0
  discard : Bool := false
  deriving DecidableEq, Repr

/-- The CSRs of a core that the machine privilege architecture gives it (R308). -/
structure Csrs where
  mstatus : W32 := 0
  mie : W32 := 0
  mtvec : W32 := 0
  mscratch : W32 := 0
  mepc : W32 := 0
  mcause : W32 := 0
  mtval : W32 := 0
  pmpcfg : Vector Byte 8 := Vector.replicate 8 0
  pmpaddr : Vector W32 8 := Vector.replicate 8 0
  mcycle : BitVec 64 := 0
  minstret : BitVec 64 := 0
  mcycleOff : Bool := false
  minstretOff : Bool := false
  mcounteren : W32 := 0
  deriving DecidableEq, Repr

/-- A reflex core: integer registers, pc, privilege, CSRs, TCMs with their ECC marks (1 correctable, 2 uncorrectable,
by word), tile buffer most recently used first, event queue oldest first with the latches of LOC_EVW1-3, issue slots,
watchdog start and its period in force, a stop under way with its cause, waiting in WFI. -/
structure Core where
  x : Vector W32 32 := Vector.replicate 32 0
  pc : W32 := 0
  user : Bool := false
  csr : Csrs := {}
  itcm : Sparse Byte := []
  dtcm : Sparse Byte := []
  iecc : Sparse Nat := []
  decc : Sparse Nat := []
  buf : List TLine := []
  evq : List EvEntry := []
  evw1 : W32 := 0
  evw2 : W32 := 0
  evw3 : W32 := 0
  iss : IssReg := {}
  slot : Vector IssSlot 4 := Vector.replicate 4 {}
  kick : Nat := 0
  wdt : Nat := 0
  stopping : Option Nat := none
  wfi : Bool := false
  deriving DecidableEq, Repr

/-! ## Reed engines (03) and action counters (05) -/

/-- An anchor and its rate (R149): counter value, Gnomon time, Gnomon nanoseconds per tick in 2^-30 ns. -/
structure Anchor where
  n : Nat := 0
  g : GTime := {}
  rate : Nat := 0xA0000000
  deriving DecidableEq, Repr

/-- Who placed an action: a reed context, at a speculation depth, or the bridge. -/
inductive ActSrc where
  | ctx (x : Fin 16)
  | bridge
  deriving DecidableEq, Repr

/-- An entry of a cluster's action queue (R87-R91): due tick and tap, cluster pin 0-23, V, who placed it, speculation
depth, the first tick it can act in, parity, order of insertion. -/
structure Action where
  due : Nat
  tap : Nat
  pin : Nat
  v : Nat
  src : ActSrc
  depth : Nat := 0
  ready : Nat := 0
  good : Bool := true
  idx : Nat := 0
  deriving DecidableEq, Repr

/-- What a sample is for, with the speculation depth it belongs to: an SHI bit, a predicted branch (the level tested and
whether it was predicted taken), or a BPIN without prediction that stalls for it. -/
inductive SampleFor where
  | shi (depth : Nat) (lsb : Bool)
  | br (depth : Nat) (level taken : Bool)
  | hold
  deriving DecidableEq, Repr

/-- A sample a context has asked for and not yet received (R92-R98): the counter value at which its pin is sensed, the
pin, the level it had then, once its synchroniser has shown it, and its purpose. -/
structure Sample where
  tick : Nat
  pin : Nat
  use : SampleFor
  seen : Option Bool := none
  deriving DecidableEq, Repr

/-- What a checkpoint saves of a context. -/
structure CtxRegs where
  g : Vector W32 8 := Vector.replicate 8 0
  sh : W32 := 0
  sc : Nat := 0
  tc : Nat := 0
  tap : Nat := 0
  bt : Nat := 0
  cntHi : W32 := 0
  cst : W32 := 0
  lnk : Nat := 0
  pc : Nat := 0
  deriving DecidableEq, Repr

/-- A reed context beside `r`: state and wait of Table 3.14, fault cause, its four flags, samples in the order of their
ticks, checkpoints oldest first with the path not predicted, bits done of the SHO or SHI it is inside, a WEDGE (its
issue tick, and whether its edge or timeout has come), the level a BPIN without prediction waited for, the register an
outstanding FRD fills and whether its completion has come, and whether its next start is a fresh one (R105). -/
structure Ctx where
  r : CtxRegs := {}
  st : Nat := 0
  wait : Nat := 0
  cause : Nat := 0
  flags : Nat := 0
  samples : List Sample := []
  ckpt : List (CtxRegs × Nat) := []
  bits : Nat := 0
  mid : Bool := false
  wedge : Option (Nat × Bool) := none
  held : Option Bool := none
  frd : Option (Fin 8) := none
  frdCome : Bool := false
  fresh : Bool := false
  deriving DecidableEq, Repr

/-- An armed synchronised start (R114-R116): what was sampled at the ARM write, the tick of that write, and for a Gnomon
time the tick in which the clusters act, once the Gnomon has fired. -/
structure Trig where
  gno : Bool
  doStart : Bool
  doLoad : Bool
  time : Nat
  load : Nat
  at_ : Nat := 0
  fire : Option Nat := none
  deriving DecidableEq, Repr

/-- A queue entry a context took in a tick, which a bridge entry of the same tick may take back (R87): the tick, the
context, the entry and what the context was before. -/
structure Asked where
  at_ : Nat
  x : Fin 16
  idx : Nat
  r : CtxRegs
  bits : Nat
  mid : Bool
  deriving DecidableEq, Repr

/-- A reed engine with the action counter and conversion registers of its cluster: counter, latch of ACNTH, anchor in
force and its write shadow, trigger, a stop under way with the tick it reached the engine and a start asked for, the
context enables that have reached the engine, the tick of slot 0 and the tick of the last instruction, program memory with
its bad words and those to be written again (R111), the action queue with the number of entries ever inserted, the entry a
context took last, and how many entries retired in which tick. -/
structure Reed where
  ctr : Nat := 0
  start : Nat := 0
  ran : Option Nat := none
  retAt : Nat := 0
  retN : Nat := 0
  hi : W32 := 0
  anc : Anchor := {}
  shadow : Anchor := {}
  trig : Option Trig := none
  stopping : Bool := false
  stopAt : Nat := 0
  startWait : Bool := false
  en : BitVec 16 := 0
  asked : Option Asked := none
  pmem : Sparse W32 := []
  pmBad : List Nat := []
  pmNeed : BitVec 2048 := 0
  q : List Action := []
  seq : Nat := 0
  ctx : Vector Ctx 16 := Vector.replicate 16 {}
  deriving DecidableEq, Repr

/-! ## Switch (06) -/

/-- A frame held in a queue: header, payload length, its tiles, the ingress port, whether its tiles were taken from
headroom or from the completion or shared pool (0 reservation, 1 pool, 2 headroom), the tick it was queued, and, for a
spilled frame, its slots of the spill region, in DRAM (R195). -/
structure QFrame where
  hdr : Header
  len : Nat
  tiles : List Nat
  ing : Fin 7
  from_ : Nat := 0
  at_ : Nat := 0
  spill : Option (List Nat) := none
  /-- Copied to the spill region and waiting for SPILL_WRITE_DONE. -/
  copying : Bool := false
  /-- The receive stamp of a PTP frame (R168, R169). -/
  rx : Option GTime := none
  /-- A transmit stamp is wanted (Table 13.2, R169). -/
  cap : Bool := false
  deriving DecidableEq, Repr

/-- The switch beside its registers: the 56 queues oldest first, which are in spill mode, deficits of the round robin
by port and class 0-2, the class whose turn it is, pauses asked of a port's MAC by 8 p + c. -/
structure Sw where
  q : Vector (List QFrame) 56 := Vector.replicate 56 []
  spill : BitVec 56 := 0
  deficit : Vector Nat 21 := Vector.replicate 21 0
  turn : Vector (Fin 3) 7 := Vector.replicate 7 0
  paused : BitVec 56 := 0
  deriving DecidableEq, Repr

/-! ## Ring (09) -/

/-- A replay window: source node and member, the highest number accepted, the map of the 64 numbers below it (R281). -/
structure Window where
  node : BitVec 8
  mem : BitVec 2
  hi : Nat
  seen : BitVec 64 := 0
  deriving DecidableEq, Repr

/-- A position of the topology map: node ID, the link East of it up, wrapped (Table 9.3). -/
structure TopoPos where
  id : Nat
  up : Bool
  wrapped : Bool
  deriving DecidableEq, Repr

/-- What a TOPO entry holds (R289). -/
structure TopoEnt where
  id : Nat
  size : Nat
  eUp : Bool
  wUp : Bool
  eWrap : Bool
  wWrap : Bool
  deriving DecidableEq, Repr

/-- A planned change of the ring: an unwrap (`false`) or a wrap plan (`true`) of the link between two nodes, at an
effective time in the encoding of R156. -/
structure Plan where
  wrap : Bool
  a : BitVec 8
  b : BitVec 8
  at_ : BitVec 64
  deriving DecidableEq, Repr

/-- The ring protocol beside its registers: sequence counters by destination node (and by 256 + type for the types of
R280's second list), replay windows of broadcasts and of MGMT frames, the map, the master's count of IDs in use with
their UIDs, TOPO frames come back, planned wraps and unwraps, election and shift state of a master, and ticks: of the last
JOIN_REQ (R282), since which a candidate has seen no master (R285), of the claim and its last ELECT (R285), of the last
heartbeat sent or heard (R286), of the last sweep (R289), and since which each link is reported UP (R295). -/
structure Ring where
  seq : Sparse Nat := []
  bc : List Window := []
  mg : List Window := []
  map : Option (List TopoPos) := none
  ids : List (Nat × BitVec 64) := []
  topoE : Option (List TopoEnt) := none
  topoW : Option (List TopoEnt) := none
  plans : List Plan := []
  electing : Bool := false
  joinAt : Option Nat := none
  quietAt : Nat := 0
  claimAt : Nat := 0
  electAt : Nat := 0
  hbAt : Nat := 0
  sweepAt : Nat := 0
  prio : Nat := 0
  masterUid : BitVec 64 := 0
  shiftAt : Option Nat := none
  shiftFar : Option (BitVec 8 × BitVec 8) := none
  linkUp : List (BitVec 8 × BitVec 8 × Nat) := []
  /-- RNG_CTL.EN at the last beacon: a hub whose EN is cleared takes part until the next one (R5, Table 9.8). -/
  part : Bool := false
  ringReset : Option (BitVec 64) := none
  oldId : Nat := 0
  deriving DecidableEq, Repr

/-! ## Bridge and Echo (07) -/

/-- Who waits for a completion: nobody the hub must serve, an issue slot of a core, an FRD of a context, a host ring
with its cookie. -/
inductive Issuer where
  | plain
  | core (n : Fin 8) (d : Fin 4)
  | reed (c : Fin 8) (x : Fin 16)
  | host (ring : Fin 8) (cookie : Nat)
  deriving DecidableEq, Repr

/-- A non-posted transaction at its issuer (R206-R208): the request, who waits, the execute time of a TIMED write, the
tick of the first issue, whether an attempt is on its way (else it waits EST), since when or until when, the status of its last
completion, and the issue number a paired unit tells its peer the completion under (R355). -/
structure Tx where
  rq : Request
  who : Issuer := .plain
  timed : Option (BitVec 64) := none
  first : Nat
  flying : Bool := true
  at_ : Nat := 0
  /-- The completion timeout of this attempt (R5, R208). -/
  cto : Nat := 0
  last : Nat := 0
  cplm : Option Nat := none
  deriving DecidableEq, Repr

/-- A tag: free, out of use since a tick, or in use (R206, R209). -/
inductive TagSt where
  | free
  | held (since : Nat)
  | use (t : Tx)
  deriving DecidableEq, Repr

/-- A request that waits in the issue queue for a tag (R207). -/
structure Waiting where
  rq : Request
  who : Issuer
  timed : Option (BitVec 64)
  cplm : Option Nat := none
  /-- The transmit ring it holds back (R390). -/
  ring : Option (Fin 8) := none
  deriving DecidableEq, Repr

/-- States of Table 7.6. -/
inductive SlotSt where
  | free | fetching | ready | echoed
  deriving DecidableEq, Repr

/-- A retry slot: state, the request it was taken for (its key is source node, member and tag), whether an Echo fetch
took it and for which window, data or status, when it was taken and when the access ended, order of taking, whether RETRY has been answered,
whether a differing request abandoned it, whether its fetch ends in salvage with SERVE = 0. -/
structure Slot where
  st : SlotSt := .free
  rq : Option Request := none
  echo : Bool := false
  win : Nat := 0
  data : List Byte := []
  status : Nat := 0
  g : GTime := {}
  at_ : Nat := 0
  tick : Nat := 0
  ord : Nat := 0
  retried : Bool := false
  gone : Bool := false
  noServe : Bool := false
  deriving DecidableEq, Repr

/-- A demand read an Echo stream remembers: device address with lane, length, arrival tick (R222). -/
structure Seen where
  lane : Nat
  off : Nat
  len : Nat
  tick : Nat
  deriving DecidableEq, Repr

/-- An Echo stream, its reads newest first (R222), the tick of its last use, and the fetch it made for the present
period. -/
structure Stream where
  node : BitVec 8
  mem : BitVec 2
  req : BitVec 4
  win : Nat
  hist : List Seen
  used : Nat
  fetched : Bool := false
  deriving DecidableEq, Repr

/-- A salvage entry (R227): lane in cluster, device offset, data, its parity, Gnomon time and tick of the access's end,
ORIGIN, SERVE, order of entry. -/
structure Salv where
  lane : Nat
  off : Nat
  data : List Byte
  good : Bool := true
  g : GTime
  tick : Nat
  origin : Nat
  serve : Bool
  ord : Nat
  deriving DecidableEq, Repr

/-- A lock key (R230). -/
structure Key where
  node : Nat
  mem : Nat
  req : Nat
  deriving DecidableEq, Repr

/-- A lane's lock: owner, waiter, the waiter it is reserved for and since when, keys whose lock was broken, the tick of the
owner's last request (R230-R233). -/
structure LaneLock where
  owner : Option Key := none
  waiter : Option Key := none
  rsv : Option Key := none
  rsvAt : Nat := 0
  broken : List Key := []
  at_ : Nat := 0
  deriving DecidableEq, Repr

/-- EVENT spacing towards an originator node: whether the gap runs, the tick it began, events held back (R235). -/
structure EvGap where
  node : BitVec 8
  run : Bool
  at_ : Nat := 0
  supp : Nat
  deriving DecidableEq, Repr

/-- An entry of the issuer's lock table (R232). -/
structure HeldLock where
  req : BitVec 4
  node : BitVec 8
  mem : BitVec 2
  lane : Fin 64
  deriving DecidableEq, Repr

/-- The bridge, Echo and salvage beside their registers. -/
structure Brg where
  tag : Vector TagSt 256 := Vector.replicate 256 .free
  wait : List Waiting := []
  slot : Vector Slot 128 := Vector.replicate 128 {}
  ord : Nat := 0
  stream : Vector (Option Stream) 16 := Vector.replicate 16 none
  salv : Vector (Vector (Option Salv) 16) 8 := Vector.replicate 8 (Vector.replicate 16 none)
  lock : Vector LaneLock 64 := Vector.replicate 64 {}
  held : List HeldLock := []
  gap : List EvGap := []
  tun : Vector (List W32) 16 := Vector.replicate 16 []
  /-- The tick of the first character that each UART channel gathers (R237). -/
  tunAt : Vector Nat 16 := Vector.replicate 16 0
  tseq : Vector Nat 16 := Vector.replicate 16 0
  /-- EN has been cleared and requests in progress have not yet completed (R239). -/
  closing : Bool := false
  deriving DecidableEq, Repr

/-! ## Host port (13) -/

/-- A completion for a host ring that waits for its receive descriptor (R390). -/
structure HostCpl where
  word : W32
  cookie : Nat
  data : List Byte
  node : BitVec 8 := 0
  mem : BitVec 2 := 0
  deriving DecidableEq, Repr

/-- The host port beside its registers: tunnel sequence number of each transmit ring, buffers of a frame not yet ended,
completions that wait, whether the endpoint answers and the tick of the last host reset (R387), and since when the frame or
completion next for each receive ring has found no free descriptor (R392). -/
structure HostPort where
  tseq : Vector Nat 8 := Vector.replicate 8 0
  part : Vector (List Byte) 8 := Vector.replicate 8 []
  open_ : Vector Bool 8 := Vector.replicate 8 false
  cpl : Vector (List HostCpl) 8 := Vector.replicate 8 []
  answers : Bool := false
  rstAt : Nat := 0
  waitAt : Vector (Option Nat) 8 := Vector.replicate 8 none
  deriving DecidableEq, Repr

/-! ## CAN controllers (04) -/

/-- A transmit attempt: object and whether a cancel was taken. -/
structure Attempt where
  obj : Fin 128
  cancelled : Bool := false
  deriving DecidableEq, Repr

/-- A CAN controller beside its registers: message RAM by word with the words whose parity is bad, the bitmaps of
Table 4.1, object enables that wait for SOF, error counts, the attempt in progress, the counter at the SOF sample
point, a disable that waits for its boundary, a RAM that must be initialised after a parity stop (R135), the outbound
tunnel records with their SEQ, and the TSEQ of the tunnel. -/
structure Can where
  ram : Sparse W32 := []
  bad : List Nat := []
  objen : BitVec 128 := 0
  objenNext : Option (BitVec 128) := none
  txreq : BitVec 128 := 0
  cancel : BitVec 128 := 0
  newdat : BitVec 128 := 0
  txdone : BitVec 128 := 0
  tec : Nat := 0
  rec_ : Nat := 0
  att : Option Attempt := none
  sof : Nat := 0
  closing : Bool := false
  needInit : Bool := false
  out : List (List W32) := []
  rseq : Nat := 0
  tseq : Nat := 0
  deriving DecidableEq, Repr

/-! ## Links (08) -/

/-- A link beside its registers: the wait after a module's insertion, the Clause 99 verify exchange and its failures in
a row, good beacons in consecutive intervals and the tick of the last one (R246, R247), beacons sent, bytes with framing
sent in the utilisation window, the tick it began and the figure of the last one in 0.1 % (R257), the rate this end has
proposed or agreed to, the tick its holdoff ends, the rate before a shift under way and whether the shift failed, the
tick the last frame left and LPI by direction (R261), the Gnomon nanosecond at which a committed gate list becomes
operating (R252), the ticks at which the Flares end (R263), a hold ends (R256), a module's initialisation ends (R243), a
drain ends (R258) and a retraining ends (R260), of the last periodic beacon (R248) and of the last XOFF of each class (R254),
and at which each received pause runs out (R255). -/
structure LinkSt where
  init : Bool := false
  verified : Bool := false
  vfails : Nat := 0
  good : Nat := 0
  bAt : Nat := 0
  bseq : Nat := 0
  sent : Nat := 0
  winAt : Nat := 0
  /-- The window's length in ms; 0 before the first window ends, where WIN itself counts (R5, R257). -/
  winLen : Nat := 0
  util : Nat := 0
  proposed : Option Nat := none
  agreed : Option Nat := none
  holdoff : Nat := 0
  from_ : Option Nat := none
  failed : Bool := false
  idleAt : Nat := 0
  lpiTx : Bool := false
  lpiRx : Bool := false
  gclAt : Nat := 0
  flareEnd : Nat := 0
  holdEnd : Nat := 0
  initEnd : Nat := 0
  drainEnd : Nat := 0
  trainEnd : Nat := 0
  bcnAt : Nat := 0
  xoffAt : Vector Nat 8 := Vector.replicate 8 0
  pauseEnd : Vector Nat 8 := Vector.replicate 8 0
  deriving DecidableEq, Repr

/-! ## The drone (09) -/

/-- A drone cycle in flight (R299): number, start, the entries taken with their bytes and whether poisoned (R303), and by
64 × direction + frame: a head has come or a regeneration has begun, a regeneration has begun, a DRN_LATE has come, one
has been sent (R304), the times until which replacements of eclipsed copies are awaited (R305); whether the master has sent, closed, and APPLY has passed. -/
structure Cycle where
  no : Nat
  at_ : BitVec 64
  got : List (Nat × List Byte × Bool) := []
  head : BitVec 128 := 0
  regen : BitVec 128 := 0
  late : BitVec 128 := 0
  lateOut : BitVec 128 := 0
  spoilt : List (Nat × Nat) := []
  sent : Bool := false
  closed : Bool := false
  applied : Bool := false
  deriving DecidableEq, Repr

/-- The drone beside its registers: cycles in flight, newest first, at most two; the HOPS of the last good copy. -/
structure Drn where
  cyc : List Cycle := []
  /-- DRN_CTL.EN at the last cycle start: a drone whose EN is cleared runs until the next one (R5, Table 9.9). -/
  part : Bool := false
  hops : Vector (BitVec 9) 128 := Vector.replicate 128 0
  deriving DecidableEq, Repr

/-! ## The Lamp (11) -/

/-- A non-posted request of a Shadow's core that waits for a CPLM: its issue number and the request (R355). -/
structure Parked where
  core : Fin 8
  slot : Fin 4
  k : Nat
  rq : Request
  timed : Option (BitVec 64)
  deriving DecidableEq, Repr

/-- The Lamp beside its registers: highest lease number, expiry E of a holder (tick), deadline D of a Shadow (R350, R351),
RELEASE receipt + GUARD, the time C of a claim and whether it is granted (R360), LSEQ sent and received, the claimant's
IN_STEP as last told and its WANT_SYNC, ticks of the steward's and the members' heartbeats, the tick since which IN_STEP
holds, cycles since the sync point and whether all has matched since, the tick of the last WANT_SYNC (R356), by core the
non-posted issues and all issues since the sync point and their CRC, the CRCs at each 64 issues of either unit, requests
that wait for a CPLM, words of lockstep items not yet whole by member (R354), the cycle whose freeze
waits for MARK, and the one the last MARK named. -/
structure Lamp where
  n : Nat := 0
  exp : Nat := 0
  dead : Option Nat := none
  relAt : Option Nat := none
  claim : Option (BitVec 64) := none
  granted : Bool := false
  lseq : Nat := 0
  rseq : Option Nat := none
  peerStep : Bool := false
  wantSync : Bool := false
  stew : Option Nat := none
  beat : Vector (Option Nat) 3 := Vector.replicate 3 none
  stepAt : Option Nat := none
  settled : Option Nat := none
  clean : Bool := false
  wantAt : Option Nat := none
  issued : Vector Nat 8 := Vector.replicate 8 0
  sigs : Vector Nat 8 := Vector.replicate 8 0
  crc : Vector W32 8 := Vector.replicate 8 0xFFFFFFFF#32
  mine : List (Nat × Nat × W32) := []
  theirs : List (Nat × Nat × W32) := []
  parked : List Parked := []
  item : Vector (List W32) 4 := Vector.replicate 4 []
  markOwed : Option Nat := none
  marked : Option Nat := none
  startAt : Nat := 0
  renAt : Nat := 0
  ackAt : Nat := 0
  mask : Option W32 := none
  deriving DecidableEq, Repr

/-! ## Structure image, boot and update (12) -/

/-- A copy of the boot control block with a good CRC (Table 12.5): SEQ, ACTIVE, TRIAL (3 none), TRIALS, the states of
slots A and B (0 EMPTY, 1 WRITTEN, 2 CONFIRMED, 3 FAILED). -/
structure Bcb where
  seq : W32 := 0
  active : Nat := 0
  trial : Nat := 3
  trials : Nat := 0
  a : Nat := 1
  b : Nat := 1
  deriving DecidableEq, Repr

/-- Who opened an update session: channel, and for ring channels the source node and member. -/
structure Party where
  ch : Fin 4
  node : BitVec 8 := 0
  mem : BitVec 2 := 0
  deriving DecidableEq, Repr

/-- An update session (R378): its party, the slot (2: the store of a ring or stack boot), the bundle length, the blocks
received, the tick of its last command. -/
structure Sess where
  who : Party
  slot : Nat
  len : Nat
  got : List Nat := []
  last : Nat
  deriving DecidableEq, Repr

/-- A live activation accepted for a cycle (R381, R382): slot, what changes, whether the clusters are locked and applied,
the drone tables written, a step failed; what the new image enables at start(K). -/
structure Live where
  k : Nat
  slot : Nat
  clus : BitVec 8
  cores : BitVec 8
  drone : Bool
  locked : Bool := false
  drnDone : Bool := false
  bad : Bool := false
  lanes : BitVec 64 := 0
  reeds : BitVec 8 := 0
  runs : BitVec 8 := 0
  deriving DecidableEq, Repr

/-- The configuration loader beside its registers: the two flash slots and the store of a bundle from the ring or stack,
unwritten bytes 0xFF; the two BCB copies; session; a warm reset pending by IMG_ACTIVATE with its time; live activation;
whether a bundle runs; the tick the trial timer ends; whether a partition failed; the cores the image starts; what
boot steps 7 and 8 still owe (DRN_CTL.EN, cores); clusters whose reapply is owed; the stack size of the previous boot;
whether a bundle served over the ring stands ready to boot; the firmware in steward SRAM; when a ring boot took up the
rate it tries, and when it last sent BOOT_WAIT; whether a full DRAM training follows a verify that fails. -/
structure Ldr where
  store : Vector (Sparse Byte) 3 := Vector.replicate 3 []
  bcb : Vector (Option Bcb) 2 := Vector.replicate 2 none
  sess : Option Sess := none
  act : Option (BitVec 64) := none
  live : Option Live := none
  running : Bool := false
  trialEnd : Option Nat := none
  failed : Bool := false
  starts : BitVec 8 := 0
  after : Option Bool := none
  owed : BitVec 8 := 0
  stack : Option Nat := none
  ready : Bool := false
  sram : List W32 := []
  tryAt : Nat := 0
  waitAt : Option Nat := none
  dramOwed : Bool := false
  deriving DecidableEq, Repr

/-! ## Mailboxes (13) -/

/-- A command taken from a ring: source node and member, authenticated, bulk data. -/
structure MSrc where
  node : BitVec 8
  mem : BitVec 2
  auth : Bool
  bulk : List Byte
  deriving DecidableEq, Repr

/-- A mailbox channel beside its registers: inbound and outbound words, answers that wait for room, the MID of the last
message pushed, whether the steward has opened it, sources of the ring commands in the inbound queue in order, and the
two words of COMPAT mode, and whether the steward sees its outbound words ABORTED by a host reset (R400). -/
structure Mbx where
  inq : List W32 := []
  outq : List W32 := []
  wait : List (List W32) := []
  last : Byte := 0
  opened : Bool := false
  src : List MSrc := []
  wordIn : W32 := 0
  wordOut : W32 := 0
  aborted : Bool := false
  deriving DecidableEq, Repr

/-- The last nonce accepted from each source, and the count in the steward's own tags (R403). -/
structure Sec where
  seen : List (BitVec 8 × BitVec 2 × Nat) := []
  own : Nat := 0
  deriving DecidableEq, Repr

/-! ## Power, Pilot and Bellows (14, 15) -/

/-- A domain's sequencer beside PWR_STATEd: blocks that have agreed, whether the target became ON before the commit
point, a CAN controller to be asked again, the exit step that runs, lanes whose keepers held before, the tick the present
step began, PWR_QTIME as the quiesce took it. -/
structure Dom where
  agreed : Nat := 0
  back : Bool := false
  recheck : Bool := false
  exit : Nat := 0
  kept : BitVec 8 := 0
  at_ : Nat := 0
  qt : Nat := 0
  deriving DecidableEq, Repr

/-- Standby entry (R418): the domains still to be requested OFF, whether the first of them has been, those already OFF
by it, whether it unwinds. -/
structure Stby where
  todo : List (Fin 26)
  asked : Bool := false
  off : List (Fin 26) := []
  unwind : Bool := false
  deriving DecidableEq, Repr

/-- The power sequencer and the Pilot beside their registers: standby entry under way; committed and asleep since a tick;
entry complete; a PLL_MAIN loss holds a warm reset; activity seen at the last Flare look; PE_WAKE_N driven; ticks of the
present µs spent below full rate. -/
structure Pwr where
  dom : Vector Dom 26 := Vector.replicate 26 {}
  stby : Option Stby := none
  asleep : Option Nat := none
  minoff : Bool := false
  held : Bool := false
  flare : Vector Bool 2 := Vector.replicate 2 false
  peWake : Bool := false
  slow : Nat := 0
  /-- Since when each die's temperature has been at or above SHUT (R425). -/
  hotAt : Vector (Option Nat) 2 := Vector.replicate 2 none
  /-- Start of the droop event, the last trip, and the start of the divider's recovery (R427). -/
  slowAt : Nat := 0
  tripAt : Nat := 0
  recAt : Option Nat := none
  /-- The tick RST_OUT_N is released at; none from a cold reset until PLL_MAIN locks (R480). -/
  rstOut : Option Nat := none
  /-- The tick XSPI_RST_N rises at after a warm reset (R491). -/
  xspiEnd : Nat := 0
  deriving DecidableEq, Repr

/-- The Bellows beside its registers: tick of the start of RAMP, the tick the off time ends, holds that stand, the tick
BL_PG rose; RAMPMAX as the ramp took it; since when the 33 ticks of R438 count; when the fault timer started and FTIME as it
took it (Table 15.3); when a thermal hold began. -/
structure Bel where
  onAt : Nat := 0
  offEnd : Option Nat := none
  stbyHold : Bool := false
  thermHold : Bool := false
  pgAt : Nat := 0
  rampMax : Nat := 0
  qualAt : Nat := 0
  timerAt : Nat := 0
  ftime : Nat := 0
  thermAt : Nat := 0
  deriving DecidableEq, Repr

/-! ## Timestamps (05) -/

/-- An entry of a timestamp queue (R169). -/
structure TsEnt where
  seq : BitVec 16
  dom : Byte
  typ : BitVec 4
  t : GTime
  deriving DecidableEq, Repr

/-- A port's timestamp unit beside its registers: transmit stamps oldest first, and the pending two-step corrections of
frames leaving by it: domain, sequenceId, correction in 2^-16 ns (R168); delay request-response messages dropped on
arrival, a count no register shows (R166). -/
structure Ts where
  q : List TsEnt := []
  drop : Nat := 0
  fup : List (Byte × BitVec 16 × Int) := []
  deriving DecidableEq, Repr


/-! ## The hub -/

/-- Everything but the queue of waiting commands. -/
structure Hub where
  /-- Model time in CK_LANE ticks of 2.5 ns (log entry 1). -/
  now : Nat := 0
  /-- The model's own counter of free values drawn (log entry 2). -/
  freeCtr : Nat := 0
  /-- Register fields in force, by field key (`Fld.key`); an unlisted field has its reset value. -/
  fields : Sparse Nat := []
  /-- What hardware has set or counted in a field in this cycle, by field key (R4). -/
  hw : Sparse Nat := []
  /-- The highest requester ID that has written a register in this cycle, by offset (17 R468). -/
  wrote : Sparse (Option Nat) := []
  /-- Staged values of S fields not yet committed (R7, R500). -/
  staged : Sparse (Option Nat) := []
  /-- Snapshots of committed S fields that wait for their boundary (R7, R8). -/
  snap : Sparse (Option Nat) := []
  /-- Snapshot banks of counters in PERIOD mode (R264). -/
  bank : Sparse Nat := []
  out : List Out := []
  gno : Gno := {}
  lanes : Vector Lane 64 := Vector.replicate 64 {}
  err : Err := {}
  fuse : Fuse := {}
  dl : Vector DieLink 2 := Vector.replicate 2 {}
  tl : Tiles := {}
  pim : Pim := {}
  core : Vector Core 8 := Vector.replicate 8 {}
  reed : Vector Reed 8 := Vector.replicate 8 {}
  sw : Sw := {}
  ring : Ring := {}
  brg : Brg := {}
  hst : HostPort := {}
  can : Vector Can 16 := Vector.replicate 16 {}
  /-- Clusters whose bank stands outside its window (cause 3, R55). -/
  bank3 : BitVec 8 := 0
  /-- The tick MON_EN was cleared at while cause 3 stood for a cluster (R55). -/
  monOff : Vector (Option Nat) 8 := Vector.replicate 8 none
  link : Vector LinkSt 4 := Vector.replicate 4 {}
  drn : Drn := {}
  lamp : Lamp := {}
  /-- Owners of the 32 lock registers (R329). -/
  sem : Vector (Option Nat) 32 := Vector.replicate 32 none
  /-- A release of this tick that a read of the same cycle has already let take effect: its requester (R330). -/
  semRel : Vector (Option (Nat × Nat)) 32 := Vector.replicate 32 none
  /-- CK_TIME ticks since the last warm or cold reset (R308). -/
  mtime : BitVec 64 := 0
  ldr : Ldr := {}
  mbx : Vector Mbx 4 := Vector.replicate 4 {}
  sec : Sec := {}
  pwr : Pwr := {}
  bel : Bel := {}
  /-- The number of the last PERIOD boundary of each statistics block: links 0-3, RNG, DRN, LMP, SWC, BRG (R265). -/
  statAt : Vector Nat 9 := Vector.replicate 9 0
  /-- DRAM bytes; unwritten bytes read 0 (log entry 9). -/
  dram : Sparse Byte := []
  ts : Vector Ts 4 := Vector.replicate 4 {}
  deriving DecidableEq, Repr

/-- The state: the commands waiting, first in, first out, and the hub. -/
structure State where
  pending : List Instr := []
  hub : Hub := {}
  deriving DecidableEq, Repr

/-- Why a command could stop the machine. No command of this block does: a refused access is an error response and a
log entry (R11), and the hub goes on. The one constructor is raised by nobody. -/
inductive Fault where
  /-- Raised by nobody; safe. -/
  | none
  deriving DecidableEq, Repr

/-- Why a command has no meaning here. -/
inductive Refusal where
  /-- The dispatcher answers it for a command whose meaning is not written yet; safe. -/
  | notModelled (mnemonic : String)
  deriving DecidableEq, Repr

/-- The hub right after a cold reset, the Pilot and the Bellows as VAON power-up leaves them, the strapping pins low
(log entry 3). -/
def State.reset : State := {}

end Sys2Proof.Machine
end

