-- ==== Sys2Proof/Machine/Operands.lean ====
section
/-! DEFINITION. The operand forms of the spec: unit IDs, fabric addresses, execute times, frame headers, payload words,
and the CRCs that guard them. -/

namespace Sys2Proof

/-! ## Bytes and words -/

/-- The four bytes of a word, most significant first (header and payload words, R268). -/
def beBytes (w : W32) : List Byte := [w.extractLsb' 24 8, w.extractLsb' 16 8, w.extractLsb' 8 8, w.extractLsb' 0 8]

/-- The four bytes of a word, least significant first (image data, R326; register data, log entry 7). -/
def leBytes (w : W32) : List Byte := [w.extractLsb' 0 8, w.extractLsb' 8 8, w.extractLsb' 16 8, w.extractLsb' 24 8]

/-- The word whose bytes, most significant first, start a byte list; missing bytes read 0. -/
def beWord (bs : List Byte) : W32 :=
  (bs.getD 0 0) ++ (bs.getD 1 0) ++ (bs.getD 2 0) ++ (bs.getD 3 0)

/-- The word whose bytes, least significant first, start a byte list; missing bytes read 0. -/
def leWord (bs : List Byte) : W32 :=
  (bs.getD 3 0) ++ (bs.getD 2 0) ++ (bs.getD 1 0) ++ (bs.getD 0 0)

/-- Word `i` of a frame payload. -/
def Frame.word (f : Frame) (i : Nat) : W32 := beWord (f.pay.drop (4 * i))

/-- A payload of words. -/
def wordsPay (ws : List W32) : List Byte := ws.flatMap beBytes

/-- The words held in a byte list, least significant byte first. -/
def leWords : Nat → List Byte → List W32
  | 0, _ => []
  | n + 1, bs => leWord bs :: leWords n (bs.drop 4)

/-! ## Check values -/

/-- One bit of CRC-16, polynomial 0x1021, most significant bit first (R269). -/
def crc16Bit (c : BitVec 16) (b : Bool) : BitVec 16 :=
  let top := c.getLsbD 15 != b
  let s := c <<< 1
  if top then s ^^^ 0x1021#16 else s

/-- CRC-16 over bytes, initial value 0xFFFF, no reflection and no final XOR (R269). -/
def crc16 (bs : List Byte) : BitVec 16 :=
  bs.foldl (fun c b => (List.range 8).foldl (fun c i => crc16Bit c (b.getLsbD (7 - i))) c) 0xFFFF#16

/-- One bit of CRC-32, least significant bit first. -/
def crc32Bit (c : W32) : W32 := if c.getLsbD 0 then (c >>> 1) ^^^ 0xEDB88320#32 else c >>> 1

/-- CRC-32 as IEEE 802.3 defines it (R270): initial value and final XOR all ones. -/
def crc32 (bs : List Byte) : W32 :=
  bs.foldl (fun c b => (List.range 8).foldl (fun c _ => crc32Bit c) (c ^^^ b.setWidth 32)) 0xFFFFFFFF#32 ^^^ 0xFFFFFFFF#32

/-! ## Frame headers (Table 9.1) -/

/-- The 18 bytes HCRC covers, as five words with the check field zero. -/
def Header.words (h : Header) : List W32 :=
  [ h.typ ++ h.tc ++ BitVec.ofBool h.x ++ h.hops ++ BitVec.ofBool h.w ++ h.len,
    h.dnode ++ h.dmem ++ h.snode ++ h.smem ++ h.tag ++ BitVec.ofBool h.d ++ BitVec.ofBool h.np ++ 0#2,
    h.seq ++ h.adr.extractLsb' 48 16,
    h.adr.extractLsb' 16 32 ]

/-- The header check of R269. -/
def Header.hcrc (h : Header) : BitVec 16 :=
  crc16 (wordsPay h.words ++ [h.adr.extractLsb' 8 8, h.adr.extractLsb' 0 8])

/-- The header as it is sent: five words, each most significant byte first (R268). -/
def Header.encode (h : Header) : List W32 := h.words ++ [h.adr.extractLsb' 0 16 ++ h.hcrc]

/-- The header that five words carry; reserved bits are ignored. -/
def Header.decode (w0 w1 w2 w3 w4 : W32) : Header where
  typ := w0.extractLsb' 28 4
  tc := w0.extractLsb' 25 3
  x := w0.getLsbD 24
  hops := w0.extractLsb' 15 9
  w := w0.getLsbD 14
  len := w0.extractLsb' 0 14
  dnode := w1.extractLsb' 24 8
  dmem := w1.extractLsb' 22 2
  snode := w1.extractLsb' 14 8
  smem := w1.extractLsb' 12 2
  tag := w1.extractLsb' 4 8
  d := w1.getLsbD 3
  np := w1.getLsbD 2
  seq := w2.extractLsb' 16 16
  adr := w2.extractLsb' 0 16 ++ w3 ++ w4.extractLsb' 16 16

/-! ## Fabric addresses (Table 1.11) -/

/-- Node, [47:40]. -/
def FabAddr.node (a : FabAddr) : BitVec 8 := a.extractLsb' 40 8
/-- Member, [39:38]. -/
def FabAddr.mem (a : FabAddr) : BitVec 2 := a.extractLsb' 38 2
/-- Space, [37:36]. -/
def FabAddr.space (a : FabAddr) : BitVec 2 := a.extractLsb' 36 2
/-- Offset, [35:0]. -/
def FabAddr.off (a : FabAddr) : Nat := (a.extractLsb' 0 36).toNat
/-- The lane an address of space 11 names, offset[35:30] (Table 1.13). -/
def FabAddr.lane (a : FabAddr) : Fin 64 := ⟨(a.extractLsb' 30 6).toNat, (a.extractLsb' 30 6).isLt⟩
/-- The device address, offset[29:0] (Table 1.13). -/
def FabAddr.dev (a : FabAddr) : Nat := (a.extractLsb' 0 30).toNat

/-- The lane of a request in bridge space. -/
def Request.lane (rq : Request) : Fin 64 := rq.addr.lane
/-- The device offset of a request in bridge space, offset[29:0]. -/
def Request.dev (rq : Request) : Nat := rq.addr.dev

/-- Is the requester one of a list? -/
def Access.isIn (a : Access) (l : List Nat) : Bool := l.contains a.req.toNat

/-! ## Execute times (R156) -/

/-- Seconds [31:0] of an execute time. -/
def timeSec (t : BitVec 64) : Nat := (t.extractLsb' 32 32).toNat
/-- Nanoseconds of an execute time. -/
def timeNs (t : BitVec 64) : Nat := (t.extractLsb' 2 30).toNat
/-- Quarter nanoseconds of an execute time. -/
def timeQ (t : BitVec 64) : Nat := (t.extractLsb' 0 2).toNat

end Sys2Proof

namespace Sys2Proof.Machine

/-! ## Gnomon times -/

/-- A Gnomon time as one number in units of 2^-24 ns. -/
def GTime.units (t : GTime) : Nat := (t.sec * 1000000000 + t.ns) * 2 ^ 24 + t.frac

/-- The Gnomon time of a number of 2^-24 ns; seconds wrap after 2^48 (R143). -/
def GTime.ofUnits (u : Nat) : GTime :=
  let n := u / 2 ^ 24
  { sec := n / 1000000000 % 2 ^ 48, ns := n % 1000000000, frac := u % 2 ^ 24 }

/-- As `ofUnits` for a signed number, times below 0 s wrapping. -/
def GTime.ofInt (u : Int) : GTime :=
  GTime.ofUnits (u % ((2 ^ 48 * 1000000000 * 2 ^ 24 : Nat) : Int)).toNat

/-- A Gnomon time in the encoding of R156, rounded down to the quarter nanosecond. -/
def GTime.encode (t : GTime) : BitVec 64 :=
  BitVec.ofNat 32 t.sec ++ BitVec.ofNat 30 t.ns ++ BitVec.ofNat 2 (t.frac / 2 ^ 22)

/-- Add the increment of one CK_TIME tick (R143): `incr` in units of 2^-24 ns. -/
def GTime.step (t : GTime) (incr : Nat) : GTime :=
  let f := t.frac + incr
  let n := t.ns + f / 2 ^ 24
  if 1000000000 ≤ n then { sec := (t.sec + 1) % 2 ^ 48, ns := n - 1000000000, frac := f % 2 ^ 24 }
  else { t with ns := n, frac := f % 2 ^ 24 }

/-! ## Unit IDs (R13, R27, Table 16.3) -/

/-- Which unit, below the node and member: die, region, cluster in region, lane or instance, block code. -/
structure UnitAt where
  pdie : Bool := false
  region : Nat := 0
  cluster : Nat := 0
  inst : Nat := 0
  code : Nat
  deriving DecidableEq, Repr

/-- The 24-bit unit ID (Table 0.7). -/
def unitId (node : Nat) (mem : Nat) (u : UnitAt) : BitVec 24 :=
  BitVec.ofNat 8 node ++ BitVec.ofNat 2 mem ++ BitVec.ofBool u.pdie ++ BitVec.ofNat 1 u.region ++
    BitVec.ofNat 2 u.cluster ++ BitVec.ofNat 3 u.inst ++ BitVec.ofNat 7 u.code

/-- A unit of global cluster c. -/
def clusterUnit (c inst code : Nat) : UnitAt :=
  { pdie := true, region := c / 4, cluster := c % 4, inst := inst, code := code }

/-- Lane n as a unit. -/
def laneUnit (n : Nat) : UnitAt := clusterUnit (n / 8) (n % 8) 0x05
/-- The reed engine of cluster c. -/
def reedUnit (c : Nat) : UnitAt := clusterUnit c 0 0x07
/-- CAN controller k. -/
def canUnit (k : Nat) : UnitAt := clusterUnit (k / 2) (k % 2) 0x08
/-- Reflex core n. -/
def rfxUnit (n : Nat) : UnitAt := { inst := n, code := 0x1D }
/-- Link l. -/
def linkUnit (l : Nat) : UnitAt := { code := 0x14 + l }
/-- An F-die block by its code. -/
def fUnit (code : Nat) : UnitAt := { code := code }

/-- The unit a block is (Tables 1.1, 16.3). -/
def Block.unit : Block → UnitAt
  | .glb => fUnit 0x01
  | .pwr => { pdie := true, code := 0x02 }
  | .plt => { pdie := true, code := 0x0B }
  | .blw => { pdie := true, code := 0x03 }
  | .clk => fUnit 0x04
  | .err => fUnit 0x20
  | .sem => fUnit 0x21
  | .cfg => fUnit 0x22
  | .mbx _ | .sec => fUnit 0x23
  | .gno => fUnit 0x1F
  | .link l | .ts l => linkUnit l
  | .rng => fUnit 0x18
  | .drn => fUnit 0x19
  | .lmp => fUnit 0x1A
  | .swc => fUnit 0x10
  | .tile => fUnit 0x11
  | .brg => fUnit 0x12
  | .ech => fUnit 0x13
  | .drm => fUnit 0x1B
  | .hst => fUnit 0x1C
  | .rfx n => rfxUnit n
  | .rfxc => fUnit 0x24
  | .lane n => laneUnit n
  | .bank c => clusterUnit c 0 0x06
  | .reed c => reedUnit c
  | .can k => canUnit k

end Sys2Proof.Machine
end

