-- ==== Sys2Proof/Machine/Flags.lean ====
section
/-! DEFINITION. Register fields, flags, interrupts and counters. -/

namespace Sys2Proof.Machine

/-! ## Fields -/

/-- Ticks of 2.5 ns in a number of microseconds. -/
def us (n : Nat) : Nat := n * 400

/-- The value of a field in force. -/
def Hub.fld (h : Hub) (f : Fld) : Nat := h.fields.get (resetOf f.key) f.key

/-- Is a field other than 0? -/
def Hub.bit (h : Hub) (f : Fld) : Bool := h.fld f != 0

/-- Give a field a value, cut to its width. -/
def Hub.put (h : Hub) (f : Fld) (v : Nat) : Hub :=
  { h with fields := h.fields.set (resetOf f.key) f.key (v % 2 ^ f.w) }

/-- Set a one-bit field. -/
def Hub.on (h : Hub) (f : Fld) : Hub := h.put f 1

/-- Clear a field. -/
def Hub.off (h : Hub) (f : Fld) : Hub := h.put f 0

/-- A one-bit field from a Bool. -/
def Hub.putB (h : Hub) (f : Fld) (b : Bool) : Hub := h.put f (b2n b)

/-- Remember that hardware has set or counted `n` in a field in this cycle (R4). -/
def Hub.mark (h : Hub) (k n : Nat) : Hub := { h with hw := h.hw.set 0 k n }

/-- What hardware has set or counted in a field in this cycle. -/
def Hub.hwOn (h : Hub) (k : Nat) : Nat := h.hw.get 0 k

/-- Hardware sets bits of a W1C field (R4). -/
def Hub.hwSet (h : Hub) (f : Fld) (v : Nat := 1) : Hub := (h.put f (h.fld f ||| v)).mark f.key (h.hwOn f.key ||| v)

/-- Hardware adds to an RC field (R4). -/
def Hub.hwAdd (h : Hub) (f : Fld) (n : Nat) : Hub := (h.put f (h.fld f + n)).mark f.key (h.hwOn f.key + n)

/-- Add an output. -/
def Hub.emit (h : Hub) (o : Out) : Hub := { h with out := o :: h.out }

/-- Lane n. -/
def Hub.lane (h : Hub) (n : Fin 64) : Lane := h.lanes[n]

/-- Change lane n. -/
def Hub.modLane (h : Hub) (n : Fin 64) (g : Lane → Lane) : Hub :=
  { h with lanes := h.lanes.set n (g h.lanes[n]) }

/-- Draw a free value: the spec leaves it open (log entry 2). -/
def Hub.draw (h : Hub) : Nat × Hub := (Config.freeValue h.freeCtr, { h with freeCtr := h.freeCtr + 1 })

/-! ## Interrupts (R458, R459) -/

/-- Offsets of the FLAG registers that feed an interrupt source (Table 16.5). -/
def srcFlags (s : Nat) : List Nat :=
  if s = 0 then [0x30008]
  else if s ≤ 8 then (List.range 8).map fun i => laneBase ((s - 1) * 8 + i) + 0xC
  else if s ≤ 16 then [reedBase (s - 9) + 8]
  else if s ≤ 32 then [canBase (s - 17) + 8]
  else if s = 33 then [0x60024]
  else if s = 34 then [0xA8008]
  else if s = 35 then [0xA0008]
  else if s = 36 then [0xB0008]
  else if s = 37 then [0xB8010]
  else if s ≤ 41 then [linkBase (s - 38) + 8]
  else if s = 42 then [0x84008]
  else if s = 43 then [0x85008]
  else if s ≤ 51 then [rfxBase (s - 44) + 8]
  else if s = 52 then [0x98008]
  else if s = 53 then [0x40008]
  else if s = 54 then [0x10100]
  else if s = 55 then [0x20004]
  else if s = 56 then [0x18008]
  else []

/-- The source a FLAG register feeds. -/
def srcOf : Block → Nat
  | .err => 0
  | .lane n => 1 + n / 8
  | .reed c => 9 + c
  | .can k => 17 + k
  | .gno => 33
  | .tile => 34
  | .swc => 35
  | .brg => 36
  | .ech => 37
  | .link l => 38 + l
  | .rng => 42
  | .drn => 43
  | .rfx n => 44 + n
  | .lmp => 52
  | .cfg => 53
  | .pwr => 54
  | .clk => 55
  | .blw => 56
  | _ => 63

/-- The block interrupt of a FLAG register: FLAG AND IEN, IEN in the next word. -/
def Hub.irqAt (h : Hub) (off : Nat) : Bool :=
  (List.range 15).any fun i => h.bit ⟨off, i, 1⟩ && (h.fld ⟨off + 4, 0, 32⟩).testBit i

/-- Is an interrupt source pending (R458)? -/
def Hub.pend (h : Hub) (s : Nat) : Bool := (srcFlags s).any h.irqAt

/-- The MSI-X vector of a source: below 16 acts as 16 (Table 16.6). -/
def Hub.vec (h : Hub) (s : Nat) : Nat := max 16 (h.fld ⟨0x30200 + 4 * s, 0, 6⟩)

/-- Run a change of flags or enables; a source that becomes pending sends its vector (R459). -/
def Hub.withIrq (h : Hub) (s : Nat) (g : Hub → Hub) : Hub :=
  let h' := g h
  if !h.pend s && h'.pend s && h'.bit ⟨0x30200 + 4 * s, 29, 1⟩ then h'.emit (.msix (h'.vec s)) else h'

/-- Set a flag bit of a block. -/
def Hub.flag (h : Hub) (b : Block) (f : Fld) : Hub := h.withIrq (srcOf b) (·.hwSet f)

/-- INT_N is low while it is enabled and a source routed to it is pending, and while an escalation is pending (R459, R446). -/
def Hub.intLow (h : Hub) : Bool :=
  h.bit F.ERR_STAT_ESC_PEND ||
    (h.bit F.ERR_CTL_INTN_EN && (List.range 57).any fun s => h.pend s && h.bit ⟨0x30200 + 4 * s, 31, 1⟩)

/-- The steward's external interrupt (R459). -/
def Hub.stewardIrq (h : Hub) : Bool :=
  (List.range 57).any fun s => h.pend s && h.bit ⟨0x30200 + 4 * s, 30, 1⟩

/-! ## Counters (R264) -/

/-- How the counter of a register behaves: rolls, clears on read, restarts at a period, or has no mode. -/
inductive CtrMode where
  | roll | clear | period | noMode
  deriving DecidableEq, Repr

/-- The MODE field that governs the counters at an offset, if one does; blocks that the spec puts in ROLL mode. -/
def statField (off : Nat) : Option Fld × Bool :=
  match locate off with
  | some (.link l, _) => (some (F.X_STATMODE_MODE l), false)
  | some (.rng, _) => (some F.RNG_STATMODE_MODE, false)
  | some (.drn, _) => (some F.DRN_STATMODE_MODE, false)
  | some (.lmp, _) => (some F.LMP_STATMODE_MODE, false)
  | some (.swc, _) | some (.tile, _) => (some F.SWC_STATMODE_MODE, false)
  | some (.drm, o) => if 0x210 ≤ o then (some F.SWC_STATMODE_MODE, false) else (none, false)
  | some (.brg, _) | some (.ech, _) => (some F.BRG_STATMODE_MODE, false)
  | some (.err, _) | some (.rfx _, _) | some (.sem, _) | some (.pwr, _) | some (.clk, _) | some (.sec, _) |
    some (.hst, _) => (none, true)
  | _ => (none, false)

/-- The mode of the counters at an offset (MODE 3 acts as 0, log entry 8). -/
def Hub.ctrMode (h : Hub) (off : Nat) : CtrMode :=
  match statField off with
  | (some f, _) => if h.fld f = 1 then .clear else if h.fld f = 2 then .period else .roll
  | (none, true) => .roll
  | (none, false) => .noMode

/-- Add to a counter that saturates at its width. -/
def Hub.countSat (h : Hub) (f : Fld) (n : Nat := 1) : Hub :=
  (h.put f (min (2 ^ f.w - 1) (h.fld f + n))).mark f.key (h.hwOn f.key + min n (2 ^ f.w - 1 - h.fld f))

/-- Add to a counter by its mode: it saturates within a period and wraps otherwise; a link
counter whose bit 31 rises in ROLL mode sets CNT_HALF (R264). -/
def Hub.count (h : Hub) (f : Fld) (n : Nat := 1) : Hub :=
  match h.ctrMode f.off with
  | .period => h.countSat f n
  | .roll =>
    let h' := h.put f (h.fld f + n)
    match locate f.off with
    | some (.link l, _) =>
      if h.fld f < 2 ^ 31 && 2 ^ 31 ≤ h'.fld f then h'.flag (.link l) (F.X_FLAG_CNT_HALF l) else h'
    | _ => h'
  | _ => h.hwAdd f n

/-- Raise a high-water mark. -/
def Hub.peak (h : Hub) (f : Fld) (v : Nat) : Hub := h.put f (max (h.fld f) v)

end Sys2Proof.Machine
end

