-- ==== Sys2Proof/Machine/Ops.lean ====
section
/-! DEFINITION. The operations every family shares: the error log, error responses and the access checks of R464,
staging and commit, the passing of time, sparse byte memories. -/

namespace Sys2Proof.Machine

/-- The hub after a command; the queue is left as it is. -/
def State.goes (s : State) (h : Hub) : Host.Outcome State Fault Refusal := .next { s with hub := h }

/-! ## Who and where -/

/-- The stack member, GLB_STRAP.MEMBER. -/
def Hub.member (h : Hub) : Nat := h.fld F.GLB_STRAP_MEMBER
/-- The node ID, 0 before the join (R13). -/
def Hub.node (h : Hub) : Nat := h.fld F.GLB_SELF_NODE
/-- The unit ID of one of this hub's units at this moment (R27). -/
def Hub.unit (h : Hub) (u : UnitAt) : BitVec 24 := unitId h.node h.member u

/-- Is a lane present (R2)? -/
def Hub.lanePresent (h : Hub) (n : Fin 64) : Bool := h.fuse.lanes64 || decide (n.val < 32)
/-- Is a cluster present (R2)? -/
def Hub.clusterPresent (h : Hub) (c : Fin 8) : Bool := h.fuse.lanes64 || decide (c.val < 4)

/-- The cluster of a lane. -/
def clusterOf (n : Fin 64) : Fin 8 := ⟨n.val / 8, by omega⟩
/-- The region of a cluster. -/
def regionOf (c : Fin 8) : Fin 2 := ⟨c.val / 4, by omega⟩

/-! ## Power domains and channels -/

/-- The power domain of a block (Table 14.1, Table 17.1); `none` for the Pilot and the Bellows. The conversion
registers of a cluster lie in P_BASE. -/
def Block.domain : Block → Nat → Option Nat
  | .glb, _ | .clk, _ | .err, _ | .sem, _ | .cfg, _ | .mbx _, _ | .sec, _ => some 0
  | .pwr, _ => some 17
  | .plt, _ | .blw, _ => none
  | .gno, _ => some 2
  | .rng, _ | .drn, _ | .swc, _ | .tile, _ | .rfxc, _ => some 3
  | .brg, _ | .ech, _ => some 8
  | .link l, _ | .ts l, _ => some (9 + l)
  | .lmp, _ => some 11
  | .drm, _ => some 13
  | .hst, _ => some 14
  | .rfx n, _ => some (if n.val < 4 then 15 else 16)
  | .lane n, _ => some (18 + n / 8)
  | .bank c, _ => some (18 + c)
  | .reed c, o => if 0x100 ≤ o ∧ o < 0x120 then some 17 else some (18 + c)
  | .can k, _ => some (18 + k / 2)

/-- Is a power domain ON (R408)? -/
def Hub.domOn (h : Hub) (d : Nat) : Bool := h.fld (F.PWR_STATE_STATE d) == 0

/-- Is the cluster reachable: present, its domain ON and its channel up? -/
def Hub.clusterUp (h : Hub) (c : Fin 8) : Bool :=
  h.clusterPresent c && h.domOn (18 + c) && !(h.dl[regionOf c]).down

/-- Is a cluster locked for partial reconfiguration (R382)? -/
def Hub.prlocked (h : Hub) (c : Fin 8) : Bool := (h.fld F.CFG_PRLOCK_LOCK).testBit c

/-- Do the keepers hold every pin of a cluster: its domain is not ON, its channel is down or PRLOCK stands (R408, Table
1.4, R382)? -/
def Hub.pinsHeld (h : Hub) (c : Fin 8) : Bool :=
  !h.domOn (18 + c) || (h.dl[regionOf c]).down || h.prlocked c

/-! ## The error log (R445-R455) -/

/-- The block of 4,096 s a time lies in (R452). -/
def blk (sec : Nat) : Nat := sec / 4096

/-- Microseconds since 0 s of an entry. -/
def LogEntry.at_ (e : LogEntry) : Nat := e.sec * 1000000 + e.us

/-- Does an error merge into the newest entry held (R450)? -/
def LogEntry.merges (e n : LogEntry) : Bool :=
  e.unit == n.unit && e.code == n.code && e.req == n.req && e.addr == n.addr &&
    decide (e.at_ ≤ n.at_ + 1000) && decide (n.at_ ≤ e.at_ + 1000)

/-- The TIME entry written before an entry of another block (R452). -/
def timeEntry (h : Hub) (e : LogEntry) : LogEntry :=
  { sec := e.sec, us := e.us, rep := 0, unit := h.unit (fUnit 0x20), cls := 0, req := 0xF, rnode := 0, space := 0,
    code := 0x20F0, addr := BitVec.ofNat 32 (e.sec / 4096), tick := e.tick }

/-- Is an error entered before another of the same cycle: higher class, lower unit ID, lower CODE (R449)? The errors of one
tick share one cycle (log entry 129). -/
def LogEntry.before (e n : LogEntry) : Bool :=
  e.tick == n.tick && n.code != 0x20F0#16 &&
    (decide (n.cls.toNat < e.cls.toNat) || (n.cls == e.cls &&
      (decide (e.unit.toNat < n.unit.toNat) || (e.unit == n.unit && decide (e.code.toNat < n.code.toNat)))))

/-- An entry joins the log behind the entries that come before it (R449, R451). -/
def logAdd (log : List LogEntry) (e : LogEntry) : List LogEntry :=
  let k := log.length - (log.reverse.takeWhile fun n => e.before n).length
  log.take k ++ e :: log.drop k

/-- HEADBLK and TAILBLK after a change of the log (R452). -/
def Hub.logBlks (h : Hub) : Hub :=
  match h.err.log with
  | [] => h
  | e :: r => (h.put F.ERR_HEADBLK_SEC (blk e.sec)).put F.ERR_TAILBLK_SEC (blk ((r.getLast?.getD e).sec))

/-- An entry that finds no room (R451). -/
def Hub.logLost (h : Hub) : Hub := (h.flag .err F.ERR_FLAG_OVF).count F.ERR_LOSTCNT

/-- Write an entry: merge, take a slot after any TIME entry, or lose it (R450-R452). -/
def Hub.logWrite (h : Hub) (e : LogEntry) : Hub :=
  let log := h.err.log
  let room := fun (k : Nat) => if e.cls == 3 then decide (k ≤ 31) else decide (k ≤ 30)
  match log.getLast? with
  | none =>
    let h := { h with err := { h.err with log := [e] } }
    h.logBlks
  | some n =>
    if n.merges e then
      let h := { h with err := { h.err with log := log.dropLast ++ [{ n with rep := min 255 (n.rep + 1) }] } }
      h.count F.ERR_REPCNT
    else if blk e.sec = blk n.sec then
      if room log.length then (Hub.logBlks { h with err := { h.err with log := logAdd log e } }) else h.logLost
    else if log.length ≤ 30 && room (log.length + 1) then
      Hub.logBlks { h with err := { h.err with log := log ++ [timeEntry h e, e] } }
    else if e.cls == 3 && decide (log.length ≤ 31) then
      Hub.logBlks { h with err := { h.err with log := log ++ [e] } }
    else h.logLost

/-- A fatal error's escalation begins, after DELAY; a second one widens it and ends the delay (R446). The field outputs of a
P-die error go to keepers at once. -/
def Hub.escalate (h : Hub) (pdie : Bool) : Hub :=
  let scope := if h.bit F.ERR_STAT_ESC_PEND then h.err.escP && pdie else pdie
  let end_ := if h.bit F.ERR_STAT_ESC_PEND then h.now else h.now + us (max 1 (h.fld F.ERR_ESC_DELAY))
  let h := { h with err := { h.err with escP := scope, escEnd := end_ } }
  let h := if pdie then { h with lanes := h.lanes.map fun l =>
      { l with keep := true, pin := l.pin.map fun p => { p with kept := p.raw } } } else h
  (h.on F.ERR_STAT_ESC_PEND).flag .err F.ERR_FLAG_ESC

/-- The storm window in ticks of 2.5 ns (R447). -/
def Hub.stormWin (h : Hub) : Nat := h.fld F.ERR_ESC_WIN * 40000

/-- The first-error capture meets an error of its class (R453): it is taken while the capture is empty, or held only by a later
one of the same cycle (R449). -/
def Hub.capture (h : Hub) (e : LogEntry) : Hub :=
  let h : Hub := { h with err := { h.err with
                   fecNow := if h.err.fecNow.any fun n => n.tick == e.tick && !e.before n then h.err.fecNow else some e } }
  match h.err.fec with
  | none => Hub.flag { h with err := { h.err with fec := some e } } .err F.ERR_FLAG_FEC
  | some n => if e.before n then { h with err := { h.err with fec := some e } } else h

/-- Count an error by its class, capture it, flag it and write it (R445, R451, R453, R458). -/
def Hub.record (h : Hub) (e : LogEntry) : Hub :=
  let h := if e.cls == 1 then h.count F.ERR_CNTC else if e.cls == 2 then h.count F.ERR_CNTU
    else if e.cls == 3 then h.count F.ERR_CNTF else h
  let h := if h.fld F.ERR_CTL_FEC_MIN ≤ e.cls.toNat then h.capture e else h
  let h := if h.fld F.ERR_CTL_INT_MIN ≤ e.cls.toNat then h.flag .err F.ERR_FLAG_NEW else h
  h.logWrite e

/-- The entry an error makes now (R449). -/
def Hub.entry (h : Hub) (cls : BitVec 2) (unit : BitVec 24) (code : Nat) (req : BitVec 4) (rnode : BitVec 8)
    (space : BitVec 2) (addr : Nat) : LogEntry :=
  { sec := h.gno.t.sec, us := h.gno.t.ns / 1000, rep := 0, unit := unit, cls := cls, req := req,
    rnode := if req == 10 then rnode else 0, space := space, code := BitVec.ofNat 16 code, addr := BitVec.ofNat 32 addr,
    tick := h.now }

/-- The storm check of R447 after a class-2 error: the error that exceeds UCMAX raises ESCALATE once. -/
def Hub.storm (h : Hub) : Hub :=
  let recent := h.now :: h.err.storm.filter fun t => decide (h.now ≤ t + h.stormWin)
  let h := { h with err := { h.err with storm := recent } }
  let m := h.fld F.ERR_ESC_UCMAX
  if m ≠ 0 ∧ m < recent.length ∧ h.bit F.ERR_STAT_ESC_PEND = false then
    (h.record (h.entry 3 (h.unit (fUnit 0x20)) 0x20F1 0xF 0 0 recent.length)).escalate false
  else h

/-- Raise an error of a class at a unit with a cause (R445-R457). `esc` is false for the two fatal errors that keep
their own actions (R446). -/
def Hub.raise (h : Hub) (cls : BitVec 2) (u : UnitAt) (cause : Nat) (addr : Nat := 0) (req : BitVec 4 := 0xF)
    (rnode : BitVec 8 := 0) (space : BitVec 2 := 0) (esc : Bool := true) : Hub :=
  let h := h.record (h.entry cls (h.unit u) (u.code * 256 + cause) req rnode space addr)
  if cls == 2 then h.storm else if cls == 3 && esc then h.escalate u.pdie else h

/-- Causes of Table 16.4. -/
def causeACCESS : Nat := 0x01
def causePARITY : Nat := 0x02
def causeCHECK : Nat := 0x03
def causeECCCOR : Nat := 0x04
def causeECCUNC : Nat := 0x05
def causeTIMEOUT : Nat := 0x06
def causeLOCKBRK : Nat := 0x07
def causeSTOP : Nat := 0x08
def causeLIMIT : Nat := 0x09
def causePROTO : Nat := 0x0A
def causeHW : Nat := 0x0B
def causePOWER : Nat := 0x0C
def causePREDICT : Nat := 0x0D

/-! ## Error responses and access checks (R11, R464) -/

/-- The form of the error response by requester (Table 0.5). -/
def errForm (a : Access) (wr : Bool) : ErrForm :=
  if a.req.toNat ≤ 8 then .accessFault
  else if a.req == 9 then (if wr then .dropped else .completerAbort)
  else if a.req == 10 || a.req == 11 then (if a.posted then .eventFrame else .cplCA)
  else if a.req == 12 then .cplCA
  else .jtagErr

/-- The secure register region (R395). -/
def secureOff (off : Nat) : Bool := decide (0x50000 ≤ off ∧ off < 0x58000)

/-- Some key slot is provisioned. -/
def Fuse.anyKey (f : Fuse) : Bool := f.keys.toList.any Option.isSome

/-- May the requester use the secure region (R395)? -/
def Hub.secureOk (h : Hub) (a : Access) : Bool :=
  a.req == 0 || a.req == 13 || (a.req == 9 && (h.fuse.hostTrust || !h.fuse.anyKey))

/-- Log an access that is not done with cause ACCESS (R11). -/
def Hub.refuseLog (h : Hub) (a : Access) (off : Nat) : Hub :=
  let u := match locate off with
    | some (b, _) => b.unit
    | none => fUnit 0
  let h := if secureOff off && !h.secureOk a then h.count F.SEC_VIOLCNT_COUNT else h
  h.raise 1 u causeACCESS off a.req a.node

/-- Answer an access with an error response and log it with cause ACCESS (R11). -/
def Hub.refuse (h : Hub) (a : Access) (off : Nat) (wr : Bool) : Hub :=
  (h.refuseLog a off).emit (.regError a off (errForm a wr))

/-- A write to a region whose channel is down is dropped and logged; nobody gets an error response (R36, log entry 117). -/
def Hub.lostWrite (h : Hub) (a : Access) (off : Nat) : Hub := (h.refuseLog a off).emit (.regError a off .dropped)

/-- Does the register admit the requester (R464, case 5)? Each line is the rule that names the requesters. -/
def Hub.admits (h : Hub) (a : Access) (off : Nat) (b : Block) (o : Nat) (wr : Bool) : Bool :=
  if secureOff off then h.secureOk a
  else match b with
  | .glb => !(wr && o == 0x10) || a.isIn [0, 9]                                       -- R25
  | .gno => !wr || a.isIn [0, 13] || ((o == 0x24 || o == 0x28) && a.isIn [9])         -- R147
  | .err => !wr || (if o == 0x58 then a.isIn [0, 13] else a.isIn [0, 9, 13])          -- R454, R460
  | .sem => if o < 0x80 then !a.isIn [10, 11] else !(wr && o == 0x80) || a.isIn [0]   -- R329, R331
  | .rfx n => !(wr && o == 0x18) ||
      (if h.bit (F.RFX_TCMADDR_DTCM n) then a.isIn [0, 9, 13] else a.isIn [0, 13])    -- R335
  | .tile => !(o == 0x34 || o == 0x38 || o == 0x3C) || a.isIn [0, 13]                 -- R200
  | .cfg => !wr || (if o == 0x18 then a.isIn [0] else a.isIn [0, 13])                 -- R384, R380
  | .drm => !(wr && decide (o < 0x200)) || a.isIn [0, 13]                             -- R384
  | .pwr => !wr || (if o == 4 then a.isIn [0, 13] else if o == 0x118 then a.isIn [0, 9]
      else a.isIn [0, 9, 13])                                                         -- R410, R418, R429
  | .plt => !wr || a.isIn [0, 9, 13]                                                  -- R429
  | .blw => !wr || a.isIn [0, 13]                                                     -- R444
  | .hst => !(0x8000 ≤ o && o < 0xA000) || a.isIn [0, 9, 13]                          -- R472
  | .lmp => !(wr && 0x30 ≤ o && o ≤ 0x38 && h.member != 0) || a.isIn [11]             -- Table 11.5
  | _ => true

/-- The outcome of the checks of R464; `lost` is a write whose channel is down (R36). -/
inductive Check where
  | refused | lost | unlisted | ok (b : Block) (o : Nat)
  deriving DecidableEq, Repr

/-- The checks of R464 in their order. -/
def Hub.check (h : Hub) (a : Access) (off : Nat) (wr : Bool) : Check :=
  match locate off with
  | none => .refused
  | some (b, o) =>
    if 0x180000 ≤ off && !h.fuse.lanes64 then .refused
    else if (b.domain o).any fun d => !h.domOn d then .refused
    else if 0x100000 ≤ off && (if off < 0x180000 then (h.dl[0]).down else (h.dl[1]).down) then (if wr then .lost else .refused)
    else if wr && 0x100000 ≤ off && (h.fld F.CFG_PRLOCK_LOCK).testBit ((off - 0x100000) / 0x20000) && !a.isIn [0, 13] then .refused
    else if !h.admits a off b o wr then .refused
    else if (b.regAt o).isNone then .unlisted
    else .ok b o

/-- A register write by a command with a row of its own: the checks, then the operation; an operation that answers
`none` refuses the write by its own rule. -/
def Hub.cmdWrite (h : Hub) (a : Access) (off : Nat) (op : Hub → Option Hub) : Hub :=
  match h.check a off true with
  | .ok _ _ => match op h with
    | some h' => h'
    | none => h.refuse a off true
  | .unlisted => h
  | .lost => h.lostWrite a off
  | .refused => h.refuse a off true

/-- A register read by a command with a row of its own. -/
def Hub.cmdRead (h : Hub) (a : Access) (off : Nat) (op : Hub → Option (Hub × Nat)) : Hub :=
  match h.check a off false with
  | .ok _ _ => match op h with
    | some (h', v) => h'.emit (.regRead a off (BitVec.ofNat 32 v))
    | none => h.refuse a off false
  | .unlisted => h.emit (.regRead a off 0)
  | .refused | .lost => h.refuse a off false

/-! ## Staging and commit (R5-R9, R500) -/

/-- Put a value of an S field into staging. -/
def Hub.stage (h : Hub) (f : Fld) (v : Nat) : Hub :=
  { h with staged := h.staged.set none f.key (some (v % 2 ^ f.w)) }

/-- The value staged for a field, or the value in force. -/
def Hub.stagedOr (h : Hub) (f : Fld) : Nat := (h.staged.get none f.key).getD (h.fld f)

/-- Keys of the fields of addresses `[lo, hi]`. -/
def keyIn (lo hi k : Nat) : Bool := decide (lo ≤ k / 32) && decide (k / 32 ≤ hi)

/-- Snapshot the staged fields of an address range (R7). -/
def Hub.snapshot (h : Hub) (lo hi : Nat) : Hub :=
  { h with
    snap := (h.staged.filter fun p => keyIn lo hi p.1).foldl (fun s p => s.set none p.1 p.2) h.snap
    staged := h.staged.clear (lo * 32) (hi * 32 + 31) }

/-- Put the snapshotted fields of an address range in force. -/
def Hub.applySnap (h : Hub) (lo hi : Nat) : Hub :=
  let h' := (h.snap.filter fun p => keyIn lo hi p.1).foldl (fun h p => match p.2 with
    | some v => { h with fields := h.fields.set (resetOf p.1) p.1 v }
    | none => h) h
  { h' with snap := h'.snap.clear (lo * 32) (hi * 32 + 31) }

/-! ## Resets of register ranges -/

/-- Return every field of an address range to its reset value. -/
def Hub.resetRange (h : Hub) (lo hi : Nat) : Hub :=
  { h with
    fields := h.fields.clear (lo * 32) (hi * 32 + 31)
    hw := h.hw.clear (lo * 32) (hi * 32 + 31)
    staged := h.staged.clear (lo * 32) (hi * 32 + 31)
    snap := h.snap.clear (lo * 32) (hi * 32 + 31)
    bank := h.bank.clear (lo * 32) (hi * 32 + 31) }

/-- As `resetRange`, with some fields keeping their values. -/
def Hub.resetRangeBut (h : Hub) (lo hi : Nat) (kept : List Fld) : Hub :=
  kept.foldl (fun g f => g.put f (h.fld f)) (h.resetRange lo hi)

/-! ## Time -/

/-- GNO_INCR in force, in 2^-24 ns (R145). -/
def Hub.incr (h : Hub) : Nat := h.fld F.GNO_INCR_NS * 2 ^ 24 + h.fld F.GNO_INCR_FRAC

/-- CK_TIME edges inside CK_LANE tick number `t`: 5 in 8 ticks (R145). -/
def timeEdges (t : Nat) : Nat := (t + 1) * 5 / 8 - t * 5 / 8

/-- `k` CK_TIME ticks of the Gnomon (R143). -/
def GTime.steps (incr : Nat) : Nat → GTime → GTime
  | 0, t => t
  | k + 1, t => GTime.steps incr k (t.step incr)

/-! ## Byte memories -/

/-- `n` bytes from an address. -/
def bytesAt (m : Sparse Byte) (a : Nat) : Nat → List Byte
  | 0 => []
  | n + 1 => m.get 0 a :: bytesAt m (a + 1) n

/-- Write bytes from an address up; unwritten bytes read 0 (log entry 9). -/
def writeBytes (m : Sparse Byte) (a : Nat) : List Byte → Sparse Byte
  | [] => m
  | b :: r => writeBytes (m.set 0 a b) (a + 1) r

end Sys2Proof.Machine
end

