-- ==== Sys2Proof/Machine/Events.lean ====
section
/-! DEFINITION. Events to the reflex cores (10 R316-R319) and the conversions between action counters and Gnomon time
(05 R149-R156). -/

namespace Sys2Proof.Machine

/-! ## Access to engines -/

/-- Change core n. -/
def Hub.modCore (h : Hub) (n : Fin 8) (g : Core → Core) : Hub := { h with core := h.core.set n (g h.core[n]) }

/-- Change reed engine c. -/
def Hub.modReed (h : Hub) (c : Fin 8) (g : Reed → Reed) : Hub := { h with reed := h.reed.set c (g h.reed[c]) }

/-- The action counter of a lane's cluster. -/
def Hub.ctrOf (h : Hub) (n : Fin 64) : Nat := (h.reed[clusterOf n]).ctr

/-! ## Counter and Gnomon time -/

/-- `a` as a signed number of `w` bits. -/
def signed (w a : Nat) : Int := if 2 ^ (w - 1) ≤ a % 2 ^ w then ((a % 2 ^ w : Nat) : Int) - (2 ^ w : Nat) else ((a % 2 ^ w : Nat) : Int)

/-- The Gnomon time of a counter value: A_G + (n − A_N) × RATE, rounded to 2^-16 ns with halves up (R150). -/
def Anchor.toG (a : Anchor) (n : Nat) : GTime :=
  let x : Int := (a.g.units * 64 : Nat) + signed 64 (n + 2 ^ 64 - a.n % 2 ^ 64) * (a.rate : Nat)
  GTime.ofInt (((x + 2 ^ 13) / 2 ^ 14) * 2 ^ 8)

/-- A Gnomon time, in units of 2^-24 ns, as counter tick and tap (R151). A RATE of 0 divides by nothing: the tick and
the tap are then free values of the operands (log entry 10). -/
def Anchor.toTick (a : Anchor) (u : Int) : Nat × Nat :=
  if a.rate = 0 then (Config.rateZero a.n u % 2 ^ 64, Config.rateZero a.n (u + 1) % 10)
  else
    let d : Int := (u - (a.g.units : Nat)) * 64
    let q := d / (a.rate : Nat)
    let r := d % (a.rate : Nat)
    let tap := (r * 20 + (a.rate : Nat)) / (2 * (a.rate : Nat))
    let t : Int := (a.n : Nat) + q + (if tap = 10 then 1 else 0)
    ((t % (2 ^ 64 : Nat)).toNat, if tap = 10 then 0 else tap.toNat)

/-- An execute time in units of 2^-24 ns, seconds [47:32] picked to lie within 2^31 s of the Gnomon (R156). -/
def pickTime (now : GTime) (t : BitVec 64) : Int :=
  let base : Int := (now.sec / 2 ^ 32 * 2 ^ 32 + timeSec t : Nat)
  let s : Int := if base - (now.sec : Nat) > 2 ^ 31 then base - 2 ^ 32
    else if base - (now.sec : Nat) < -(2 ^ 31) then base + 2 ^ 32 else base
  (s * 1000000000 + (timeNs t : Nat)) * 2 ^ 24 + (timeQ t * 2 ^ 22 : Nat)

/-! ## Statistics periods (R265) -/

/-- The MODE and PER fields of a block of statistics, and its place in `statAt`. -/
def statMode (b : StatBlock) : Fld :=
  match b with
  | .link l => F.X_STATMODE_MODE l
  | .rng => F.RNG_STATMODE_MODE
  | .drn => F.DRN_STATMODE_MODE
  | .lmp => F.LMP_STATMODE_MODE
  | .swc => F.SWC_STATMODE_MODE
  | .brg => F.BRG_STATMODE_MODE

/-- The period of a block in ms: 0 acts as 1,000. -/
def Hub.statPer (h : Hub) (b : StatBlock) : Nat :=
  let p := h.fld ⟨(statMode b).off, 0, 16⟩
  if p = 0 then 1000 else p

/-- The place of a block in `statAt`. -/
def statIdx (b : StatBlock) : Fin 9 :=
  match b with
  | .link l => ⟨l.val, by omega⟩
  | .rng => 4
  | .drn => 5
  | .lmp => 6
  | .swc => 7
  | .brg => 8

/-- The number of PERIOD boundaries that have passed since 0 s. -/
def Hub.statNum (h : Hub) (b : StatBlock) : Nat :=
  (h.gno.t.sec * 1000 + h.gno.t.ns / 1000000) / h.statPer b

/-- The last boundary of a block becomes the one whose number is `n`. -/
def Hub.statMark (h : Hub) (b : StatBlock) (n : Nat) : Hub := { h with statAt := h.statAt.set (statIdx b) n }

/-- Every block of statistics. -/
def statBlocks : List StatBlock := (List.finRange 4).map StatBlock.link ++ [.rng, .drn, .lmp, .swc, .brg]

/-- After a backward step the next boundary waits for its own time (R265). -/
def Hub.statBack (h : Hub) : Hub :=
  statBlocks.foldl (fun h b => h.statMark b (min h.statAt[statIdx b] (h.statNum b))) h

/-! ## Raising events -/

/-- The entry of an event, with its time in W2 and W3 (Table 10.2). -/
def mkEvent (typ : Nat) (unit : BitVec 24) (w1 : W32) (g : GTime) : EvEntry :=
  { typ := BitVec.ofNat 4 typ, unit := unit, w1 := w1, w2 := (GTime.encode g).extractLsb' 0 32,
    w3 := (GTime.encode g).extractLsb' 32 32 }

/-- Does an event go before another of the same cycle: lower TYPE, then lower unit ID (R318)? -/
def EvEntry.before (a b : EvEntry) : Bool :=
  a.at_ == b.at_ && (decide (a.typ.toNat < b.typ.toNat) || (a.typ == b.typ && decide (a.unit.toNat < b.unit.toNat)))

/-- An event enters a queue behind all others but those of its own cycle that it goes before (R318). -/
def evInsert (q : List EvEntry) (e : EvEntry) : List EvEntry :=
  let late := (q.reverse.takeWhile fun x => e.before x).length
  q.take (q.length - late) ++ e :: q.drop (q.length - late)

/-- An event reaches one core's queue; the one that meets a full queue is lost (R318). -/
def Hub.evPush (h : Hub) (n : Fin 8) (e : EvEntry) : Hub :=
  if !h.bit (F.RFX_CTL_RUN n) then h
  else
    let q := evInsert (h.core[n]).evq { e with at_ := h.now }
    let h := h.modCore n fun c => { c with evq := q.take 64 }
    if q.length ≤ 64 then h else (h.flag (.rfx n) (F.RFX_FLAG_EVLOST n)).count (F.RFX_EVLOST n)

/-- An event reaches every core of a mask (R317). -/
def Hub.evRoute (h : Hub) (mask : Nat) (e : EvEntry) : Hub :=
  (List.finRange 8).foldl (fun h (n : Fin 8) => if mask.testBit n then h.evPush n e else h) h

/-- Lane flag bits (Table 2.7). -/
def lfRX_OVF : Nat := 0
def lfRX_UDF : Nat := 1
def lfTX_OVF : Nat := 2
def lfTX_UDF : Nat := 3
def lfRX_POISON : Nat := 4
def lfTX_POISON : Nat := 5
def lfRX_LVL : Nat := 6
def lfTX_LVL : Nat := 7
def lfDOWN : Nat := 8
def lfUP : Nat := 9
def lfPROTO : Nat := 10
def lfALERT : Nat := 11
def lfHOLD_DROP : Nat := 12
def lfACT_DROP : Nat := 13

end Sys2Proof.Machine
end

