-- ==== Sys2Proof/Machine/Tile.lean ====
section
/-! DEFINITION. Tile memory: checks, full and partial writes, verification at use, quarantine, partitions and the frame
pool (06 R172-R187), and the writes of the process image that wait for a freeze (10 R324). -/

namespace Sys2Proof.Machine

/-! ## CRC-32C (R173) -/

/-- One bit of the reflected CRC-32C register. -/
def crcStep (c : W32) : W32 := if c.getLsbD 0 then (c >>> 1) ^^^ 0x82F63B78#32 else c >>> 1

/-- One byte of CRC-32C. -/
def crcByte (c : W32) (b : Byte) : W32 :=
  crcStep (crcStep (crcStep (crcStep (crcStep (crcStep (crcStep (crcStep (c ^^^ b.setWidth 32))))))))

/-- CRC-32C of a byte string (R173). -/
def crc32c (bs : List Byte) : W32 := bs.foldl crcByte 0xFFFFFFFF#32 ^^^ 0xFFFFFFFF#32

/-- CRC-32C with initial value 0 and no final XOR: the linear part L of R175. -/
def crcLin (bs : List Byte) : W32 := bs.foldl crcByte 0#32

/-- The check of 256 zero bytes, what an unlisted tile's stored check reads as. -/
def zeroCheck : W32 := 0xB872B190#32

/-! ## Reading and writing tiles -/

/-- The stored check of a tile. -/
def Tiles.check (t : Tiles) (i : Nat) : W32 := t.chk.get zeroCheck i

/-- The bytes of a tile. -/
def Tiles.bytes (t : Tiles) (i : Nat) : List Byte := bytesAt t.mem (i * 256) 256

/-- Does a tile's check match its bytes? -/
def Tiles.good (t : Tiles) (i : Nat) : Bool := t.check i == crc32c (t.bytes i)

/-- Is a tile in quarantine? -/
def Tiles.quarantined (t : Tiles) (i : Nat) : Bool := t.quar.toList.any fun q => q.any fun e => e.tile == i

/-- Quarantine entries held. -/
def Tiles.held (t : Tiles) : Nat := (t.quar.toList.filter Option.isSome).length

/-- The delta pattern of a partial write (R175). -/
def deltaOf (old new : List Byte) (off : Nat) : List Byte :=
  (List.range 256).map fun i => if off ≤ i ∧ i < off + new.length then old.getD i 0 ^^^ new.getD (i - off) 0 else 0

/-- The check after a partial write (R175). -/
def partialCheck (chk : W32) (old new : List Byte) (off : Nat) : W32 := chk ^^^ crcLin (deltaOf old new off)

/-- A partial write of bytes within one tile (R175). -/
def Tiles.writePart (t : Tiles) (i off : Nat) (bs : List Byte) : Tiles :=
  { t with
    chk := t.chk.set zeroCheck i (partialCheck (t.check i) (t.bytes i) bs off)
    mem := writeBytes t.mem (i * 256 + off) bs }

/-- A full-tile write (R174). -/
def Tiles.writeFull (t : Tiles) (i : Nat) (bs : List Byte) : Tiles :=
  { t with mem := writeBytes t.mem (i * 256) bs, chk := t.chk.set zeroCheck i (crc32c bs) }

/-! ## Partitions (R186) -/

/-- Does partition p (0 IMG, 1 CMP, 2 HOST, 3 STW) hold a tile? -/
def Hub.inPart (h : Hub) (p i : Nat) : Bool :=
  let b := h.fld (F.TILE_PART_BASE p)
  decide (b ≤ i ∧ i < b + h.fld (F.TILE_PART_SIZE p))

/-- The partition of a tile as QENT.PART codes it: 0 frame pool, 1 IMG, 2 CMP, 3 HOST, 4 STW. -/
def Hub.partOf (h : Hub) (i : Nat) : Nat :=
  if h.inPart 0 i then 1 else if h.inPart 1 i then 2 else if h.inPart 2 i then 3 else if h.inPart 3 i then 4 else 0

/-- Base of the process image in bytes. -/
def Hub.imgBase (h : Hub) : Nat := h.fld (F.TILE_PART_BASE 0) * 256

/-! ## Verification and quarantine (R178-R183) -/

/-- Is a tile a quarantined partition tile, every use of which fails (R181)? -/
def Tiles.quarPart (t : Tiles) (i : Nat) : Bool := t.quar.toList.any fun q => q.any fun e => e.tile == i && e.part != 0

/-- Put a failed tile into the lowest free quarantine entry; at WARN entries the steward's class-1 warning is logged
(R181, R183, log entry 59). -/
def Hub.quarantine (h : Hub) (i cons : Nat) : Hub :=
  if h.tl.quarantined i then h
  else match (List.finRange 64).find? fun k => (h.tl.quar[k]).isNone with
  | some k =>
    let h := { h with tl := { h.tl with quar := h.tl.quar.set k (some { tile := i, cons := cons, part := h.partOf i, at_ := h.now }) } }
    let n := h.tl.held
    let h := h.peak F.TILE_QSTAT_PEAK n
    let w := h.fld F.TILE_QCFG_WARN
    let h := if n = w ∧ 1 ≤ w ∧ w ≤ 64 then
        (h.flag .tile F.TILE_FLAG_QWARN).raise 1 Block.tile.unit causeLIMIT i
      else h
    if n = 64 then h.flag .tile F.TILE_FLAG_QFULL else h
  | none => h.raise 3 Block.tile.unit causeLIMIT i

/-- A verification failure in the order of R179. -/
def Hub.tileFail (h : Hub) (i cons : Nat) : Hub :=
  let h := h.raise 2 Block.tile.unit causeCHECK (i * 256)
  let h := (h.countSat F.TILE_FAILCNT).flag .tile F.TILE_FLAG_FAIL
  h.quarantine i cons

/-- A consumer verifies a tile (Table 6.1): a quarantined partition tile fails every use (R181), and so does a frame's tile
whose link fails its parity (R188); the scrubber judges by the check alone. -/
def Hub.verify (h : Hub) (i cons : Nat) : Hub × Bool :=
  if h.tl.good i && (cons == 0 || (!h.tl.quarPart i && !h.tl.linkBad.contains i)) then (h, true) else (h.tileFail i cons, false)

/-- Verify every tile a byte range touches; all failures are handled. -/
def Hub.verifyAll (h : Hub) (is : List Nat) (cons : Nat) : Hub × Bool :=
  is.foldl (fun p i => let r := p.1.verify i cons; (r.1, p.2 && r.2)) (h, true)

/-- The tiles of a byte range. -/
def tilesOf (a len : Nat) : List Nat :=
  if len = 0 then [] else (List.range ((a + len - 1) / 256 - a / 256 + 1)).map (· + a / 256)

/-! ## Writes that reach tile memory -/

/-- Written bytes replace the clean bytes of a line (R314). -/
def TLine.foreign (l : TLine) (a : Nat) (bs : List Byte) : TLine :=
  { l with data := (List.range 256).map fun i =>
      let p := l.tile * 256 + i
      if a ≤ p ∧ p < a + bs.length ∧ l.dirty.getLsbD i = false then bs.getD (p - a) 0 else l.data.getD i 0 }

/-- Tell every tile buffer of a write (R314). -/
def Hub.snoop (h : Hub) (a : Nat) (bs : List Byte) : Hub :=
  { h with core := h.core.map fun c =>
      { c with buf := c.buf.map fun l =>
          if decide (l.tile * 256 < a + bs.length) && decide (a < l.tile * 256 + 256) then l.foreign a bs else l } }

/-- A quarantined partition tile is released by a full-tile write (R181). -/
def Tiles.release (t : Tiles) (i : Nat) : Tiles :=
  { t with quar := t.quar.map fun q => match q with
      | some e => if e.tile = i ∧ e.part ≠ 0 then none else q
      | none => none }

/-- One request's bytes written to one tile: full or partial (R174, R175). A drone extraction is partial whatever it covers:
its `full` is false. -/
def Hub.tileChunk (h : Hub) (i off : Nat) (bs : List Byte) (full : Bool := true) : Hub :=
  let tl := if full ∧ off = 0 ∧ bs.length = 256 then (h.tl.writeFull i bs).release i else h.tl.writePart i off bs
  ({ h with tl := tl }).snoop (i * 256 + off) bs

/-- A write request to tile memory, tile by tile in address order. -/
def Hub.tileWriteNow (full : Bool) : Nat → Hub → Nat → List Byte → Hub
  | 0, h, _, _ => h
  | fuel + 1, h, a, bs =>
    if bs.isEmpty then h
    else
      let n := min (256 - a % 256) bs.length
      Hub.tileWriteNow full fuel (h.tileChunk (a / 256) (a % 256) (bs.take n) full) (a + n) (bs.drop n)

/-- Does a byte range touch the live area of the process image (R323)? -/
def Hub.touchesLive (h : Hub) (a len : Nat) : Bool :=
  let lo := h.imgBase + h.fld F.RFXC_LIVE_BASE * 256
  decide (lo < a + len) && decide (a < lo + h.fld F.RFXC_LIVE_SIZE * 256)

/-- A write request to tile memory; one that touches the live area while a freeze copies it waits (R324). -/
def Hub.tileWrite (h : Hub) (a : Nat) (bs : List Byte) (full : Bool := true) : Hub :=
  if bs.isEmpty then h
  else if h.pim.freezing && h.touchesLive a bs.length then
    { h with pim := { h.pim with wait := h.pim.wait ++ [(a, bs, full)] } }
  else Hub.tileWriteNow full (bs.length / 256 + 2) h a bs

/-! ## The frame pool (R186, R188) -/

/-- Tiles of the frame pool while the switch runs (TILE_POOL.TOTAL). -/
def Hub.poolTotal (h : Hub) : Nat :=
  if h.bit F.SWC_CTL_EN then
    16384 - (h.fld (F.TILE_PART_SIZE 0) + h.fld (F.TILE_PART_SIZE 1) + h.fld (F.TILE_PART_SIZE 2) +
      h.fld (F.TILE_PART_SIZE 3))
  else 0

/-- Quarantined tiles of the frame pool that hold no frame. -/
def Hub.poolQuar (h : Hub) : Nat :=
  (h.tl.quar.toList.filter fun q => q.any fun e => h.partOf e.tile == 0 && !h.tl.used.contains e.tile).length

/-- Quarantined tiles of the frame pool (R191). -/
def Hub.quarPool (h : Hub) : Nat := (h.tl.quar.toList.filter fun q => q.any fun e => h.partOf e.tile == 0).length

/-- Free frame-pool tiles (TILE_POOL.FREE). -/
def Hub.poolFree (h : Hub) : Nat := h.poolTotal - h.tl.used.length - h.poolQuar

/-- Take `k` free tiles, lowest index first (log entry 11). -/
def Hub.findTiles (h : Hub) : Nat → Nat → Nat → List Nat
  | 0, _, _ => []
  | _, 0, _ => []
  | fuel + 1, k + 1, i =>
    if h.partOf i = 0 && !h.tl.used.contains i && !h.tl.quarantined i then i :: Hub.findTiles h fuel k (i + 1)
    else Hub.findTiles h fuel (k + 1) (i + 1)

/-- Tiles a payload takes (R188). -/
def tilesFor (len : Nat) : Nat := max 1 ((len + 255) / 256)

/-- Pad bytes to whole tiles. -/
def padTile (bs : List Byte) : List Byte := bs ++ List.replicate (256 - bs.length) 0

/-- Write a payload into its tiles, each a full-tile write (R188). -/
def Hub.writeChain (h : Hub) : List Nat → List Byte → Hub
  | [], _ => h
  | t :: r, bs => Hub.writeChain (h.tileChunk t 0 (padTile (bs.take 256))) r (bs.drop 256)

/-- Tiles go into a frame's chain, their links written with good parity (R188). -/
def Hub.takeTiles (h : Hub) (ts : List Nat) : Hub :=
  { h with tl := { h.tl with used := h.tl.used ++ ts, linkBad := h.tl.linkBad.filter fun t => !ts.contains t } }

/-- Store a payload in tiles of the pool: the tiles taken, or `none` when too few are free. -/
def Hub.storeFrame (h : Hub) (pay : List Byte) : Option (Hub × List Nat) :=
  let k := tilesFor pay.length
  if h.poolFree < k then none
  else
    let ts := Hub.findTiles h 16384 k 0
    some ((h.takeTiles ts).writeChain ts pay, ts)

/-- Free a frame's tiles; failed ones stay out of the pool through their quarantine entry (R180). -/
def Hub.freeTiles (h : Hub) (ts : List Nat) : Hub :=
  { h with tl := { h.tl with used := h.tl.used.filter fun t => !ts.contains t } }

/-- Read a payload back from its tiles. -/
def Hub.readChain (h : Hub) (ts : List Nat) (len : Nat) : List Byte := (ts.flatMap h.tl.bytes).take len

end Sys2Proof.Machine
end

