-- ==== Sys2Proof/Machine/RingLow.lean ====
section
/-! DEFINITION. Frames the hub makes: sequence numbers, hop counts and the choice of direction (09 R271, R272, R276,
R280, R290; 01 R19). -/

namespace Sys2Proof.Machine

/-- Frame type codes (Table 9.2). -/
def tDRONE : BitVec 4 := 1
def tREQ_NP : BitVec 4 := 2
def tREQ_P : BitVec 4 := 3
def tCPL : BitVec 4 := 4
def tTIMED : BitVec 4 := 5
def tTUNNEL : BitVec 4 := 6
def tPTP : BitVec 4 := 7
def tBEACON : BitVec 4 := 8
def tRINGCTL : BitVec 4 := 9
def tEVENT : BitVec 4 := 10
def tLAMP : BitVec 4 := 11
def tMGMT : BitVec 4 := 12

/-- Link states (Table 8.2): the one in which frames pass. -/
def linkUP : Nat := 2

/-- Is a link UP? -/
def Hub.linkIsUp (h : Hub) (l : Nat) : Bool := h.fld (F.X_STAT_STATE l) == linkUP

/-- Does a link's transmitter send control frames in its state: TRAIN, UP, HOLD or DOWN (Table 8.2, R248)? -/
def Hub.linkSends (h : Hub) (l : Nat) : Bool := [1, 2, 3, 4].contains (h.fld (F.X_STAT_STATE l))

/-- Change a link's hidden state. -/
def Hub.modLink (h : Hub) (l : Fin 4) (g : LinkSt → LinkSt) : Hub := { h with link := h.link.set l (g h.link[l]) }

/-- Picoseconds a byte takes at the link's rate. -/
def Hub.psPerByte (h : Hub) (l : Fin 4) : Nat :=
  let r := h.fld (F.X_STAT_RATE_ACT l)
  if r = 0 then 320 else if r = 1 then 800 else 3200

/-- Ticks of a pause time in quanta of 512 bit times (R253). -/
def Hub.pauseTicks (h : Hub) (l : Fin 4) (t : Nat) : Nat := (t * 64 * h.psPerByte l + 2499) / 2500

/-- The size bin of a frame's bytes (R266). -/
def sizeBin (n : Nat) : Nat :=
  if n ≤ 64 then 0 else if n ≤ 127 then 1 else if n ≤ 255 then 2 else if n ≤ 511 then 3 else if n ≤ 1023 then 4
  else if n ≤ 1518 then 5 else if n ≤ 9216 then 6 else 7

/-- Bytes a frame takes on a link without framing (R270). -/
def frameBytes (len : Nat) : Nat := 24 + max 8 len

/-- Count a frame a link sends (R266), and its bytes with 20 of framing in the utilisation window (R257). -/
def Hub.txStat (h : Hub) (l : Fin 4) (len : Nat) : Hub :=
  let n := frameBytes len
  let h := ((h.count (F.X_TXFRM l)).count (F.X_TXBYTE l) n).count (F.X_TXBIN_COUNT l (sizeBin n))
  h.modLink l fun k => { k with sent := k.sent + n + 20 }

/-- Take the next number of a sequence counter (R280): the counter's value, 0 after reset (log entry 12). -/
def Hub.takeSeq (h : Hub) (k : Nat) : Nat × Hub :=
  let v := h.ring.seq.get 0 k
  (v, { h with ring := { h.ring with seq := h.ring.seq.set 0 k ((v + 1) % 65536) } })

/-- The counter a frame takes its SEQ from: by destination for the types of R280's first list, by type otherwise. -/
def seqKey (typ : BitVec 4) (dnode : BitVec 8) : Nat :=
  if typ == tREQ_NP || typ == tREQ_P || typ == tTIMED || typ == tTUNNEL || typ == tEVENT || typ == tMGMT
  then dnode.toNat else 256 + typ.toNat

/-- HOPS of a frame this node sources (R276). -/
def Hub.hopsOut (h : Hub) : Nat :=
  match h.ring.map with
  | some m => min 511 (2 * m.length + 2)
  | none => 511

/-- The ring master's ID, 0 where none is known. -/
def Hub.ringMaster (h : Hub) : Nat := h.fld F.RNG_STAT_MASTER

/-- Position of a node in the map. -/
def posOf (m : List TopoPos) (id : Nat) : Option Nat := m.findIdx? fun p => p.id == id

/-- Is the link East of position i broken in the map: down or wrapped? -/
def brokenAt (m : List TopoPos) (i : Nat) : Bool :=
  match m[i % m.length]? with
  | some p => !p.up || p.wrapped
  | none => false

/-- Direction to a node: `false` East, `true` West (R290). Breaks on both paths leave the shorter one. -/
def Hub.goWest (h : Hub) (dnode : Nat) : Bool :=
  match h.ring.map with
  | none => false
  | some m =>
    match posOf m h.node, posOf m dnode with
    | some i, some j =>
      let n := m.length
      let east := (j + n - i) % n
      let west := (i + n - j) % n
      let eastCut := (List.range east).any fun k => brokenAt m (i + k)
      let westCut := (List.range west).any fun k => brokenAt m (j + k)
      if eastCut && !westCut then true else if westCut && !eastCut then false else decide (west < east)
    | _, _ => false

/-- The egress port of a frame this hub sends (R19, R290): Down or Up within the stack, member 0's ring ports
otherwise. `none`: it is for this hub itself. -/
def Hub.portTo (h : Hub) (dnode : BitVec 8) (dmem : BitVec 2) : Option (Fin 7) :=
  if dnode.toNat = h.node ∨ dnode = 0 then
    if dmem.toNat = h.member then none else if h.member < dmem.toNat then some 3 else some 2
  else if h.member ≠ 0 then some 2
  else if dnode = 255 then some 0
  else if h.goWest dnode.toNat then some 1 else some 0

/-- Node 254 becomes the master's ID before a frame is sent (R271), and node 0 this node's own (R28). -/
def Hub.resolve (h : Hub) (n : BitVec 8) : BitVec 8 :=
  if n = 254 then BitVec.ofNat 8 h.ringMaster else if n = 0 then BitVec.ofNat 8 h.node else n

/-- A header for a frame this hub sources; SEQ, D and HOPS are filled when it is sent. -/
def Hub.mkHdr (h : Hub) (typ : BitVec 4) (tc : BitVec 3) (dnode : BitVec 8) (dmem : BitVec 2) (len : Nat)
    (tag : BitVec 8 := 0) (adr : BitVec 64 := 0) (seq : Nat := 0) (np : Bool := false) (x : Bool := false) : Header :=
  { typ := typ, tc := tc, x := x, hops := 0, w := false, len := BitVec.ofNat 14 len, dnode := dnode, dmem := dmem,
    snode := BitVec.ofNat 8 h.node, smem := BitVec.ofNat 2 h.member, tag := tag, d := false, np := np,
    seq := BitVec.ofNat 16 seq, adr := adr }

/-- A link-scope frame leaves a port at once (R272): link control and beacons do not queue. D is 1 by West (Table 9.1). -/
def Hub.sendLink (h : Hub) (l : Fin 4) (typ : BitVec 4) (pay : List Byte) (adr : BitVec 64 := 0)
    (x : Bool := true) : Hub :=
  let r := h.takeSeq (256 + typ.toNat)
  let hdr := { r.2.mkHdr typ 5 0 0 pay.length (adr := adr) (seq := r.1) (x := x) with d := l == 1 }
  (r.2.emit (.frame ⟨l, by omega⟩ { hdr := hdr, pay := pay })).txStat l pay.length

end Sys2Proof.Machine
end

