-- ==== Sys2Proof/Machine/Switch.lean ====
section
/-! DEFINITION. The switch queues: admission, pause, headroom, spill and the choice of the next frame (06 R190-R197),
and where a frame goes that would leave by a wrapped or lost port (08 R256, 09 R291). -/

namespace Sys2Proof.Machine

/-! ## Queue occupancy -/

/-- The queue of a port and class (R190). -/
def qOf (p : Fin 7) (c : Nat) : Fin 56 := ⟨8 * p + c % 8, by omega⟩

/-- Tiles a queue's frames hold on chip. -/
def qTiles (l : List QFrame) : Nat := (l.map fun f => f.tiles.length).foldl (· + ·) 0

/-- All queued frames. -/
def Sw.all (s : Sw) : List QFrame := s.q.toList.flatMap id

/-- Tiles used of a pool: 1 with the class test (completion pool when `c3`, shared pool otherwise), 2 headroom. -/
def Hub.poolUse (h : Hub) (kind : Nat) (c3 : Bool) : Nat :=
  qTiles (h.sw.all.filter fun f => f.from_ == kind && (kind == 2 || (f.hdr.tc == 3) == c3))

/-- Sum of all MIN values. -/
def Hub.sumMin (h : Hub) : Nat := ((List.range 56).map fun q => h.fld (F.SWC_QCFG_MIN q)).foldl (· + ·) 0

/-- MAX of a queue; below MIN it acts as MIN (Table 6.4). -/
def Hub.qMax (h : Hub) (q : Nat) : Nat := max (h.fld (F.SWC_QCFG_MAX q)) (h.fld (F.SWC_QCFG_MIN q))

/-- Free tiles of the shared pool (R191). -/
def Hub.sharedFree (h : Hub) : Nat :=
  h.poolTotal - (h.fld F.SWC_POOL_CPL + h.sumMin + h.quarPool + h.poolUse 2 false + h.poolUse 1 false)

/-- Tiles of frames from an ingress port in a class. -/
def Hub.inTiles (h : Hub) (p : Fin 7) (c : Nat) : Nat :=
  qTiles (h.sw.all.filter fun f => f.ing == p && f.hdr.tc.toNat == c)

/-- Is a class lossless? -/
def Hub.lossless (h : Hub) (c : Nat) : Bool := (h.fld F.SWC_LOSSLESS_CLS).testBit c

/-! ## Pause towards an ingress port (R192, R254) -/

/-- The PFC body for some classes with their times (Table 9.3). -/
def pfcPay (ts : List (Nat × Nat)) : List Byte :=
  let time := fun (c : Nat) => ((ts.find? fun t => t.1 == c).map (·.2)).getD 0
  wordsPay ([0x01000101#32, BitVec.ofNat 32 ((ts.map fun t => 2 ^ t.1).foldl (· + ·) 0)] ++
    (List.range 4).map fun i => BitVec.ofNat 32 (time (2 * i) + time (2 * i + 1) * 2 ^ 16))

/-- The link of a port sends pause for classes, or their release with time 0, in one frame (R254); never for TC6 or TC7,
and while the transmitter is off nothing leaves (Table 8.2). -/
def Hub.sendPause (h : Hub) (p : Fin 7) (cs : List (Nat × Bool)) : Hub :=
  if hp : p.val < 4 then
    let l : Fin 4 := ⟨p.val, hp⟩
    let cs := cs.filter fun c => decide (c.1 < 6)
    if cs.isEmpty then h
    else
      let tx := cs.foldl (fun t (c : Nat × Bool) => if c.2 then t ||| 2 ^ c.1 else t &&& (255 - 2 ^ c.1)) (h.fld (F.X_STAT_PAUSED_TX l))
      let h := (h.put (F.X_STAT_PAUSED_TX l) tx).modLink l fun k =>
        { k with xoffAt := cs.foldl (fun x (c : Nat × Bool) => x.set! c.1 h.now) k.xoffAt }
      if !h.linkSends l then h
      else (h.sendLink l tRINGCTL (pfcPay (cs.map fun c => (c.1, if c.2 then h.fld (F.X_PFC_QUANTA l) else 0)))).count (F.X_PFCTX l)
  else h

/-- What an ingress port's class asks by its thresholds: pause, its release, or nothing new (R192). -/
def Hub.pauseWant (h : Hub) (p : Fin 7) (c : Nat) : Option Bool :=
  if !h.lossless c then none
  else
    let n := h.inTiles p c
    if !h.sw.paused.getLsbD (8 * p.val + c) && decide (h.fld (F.SWC_IN_TH_XOFF p) ≤ n) then some true
    else if h.sw.paused.getLsbD (8 * p.val + c) && decide (n ≤ h.fld (F.SWC_IN_TH_XON p)) then some false
    else none

/-- Ask for or release pause of some classes of an ingress port (R192, R254). -/
def Hub.pauseChecks (h : Hub) (p : Fin 7) (cs : List Nat) : Hub :=
  let want := cs.filterMap fun c => (h.pauseWant p c).map fun on => (c, on)
  let m := want.foldl (fun (m : BitVec 56) (c : Nat × Bool) =>
    if c.2 then m ||| BitVec.twoPow 56 (8 * p.val + c.1) else m &&& ~~~ (BitVec.twoPow 56 (8 * p.val + c.1))) h.sw.paused
  Hub.sendPause { h with sw := { h.sw with paused := m } } p want

/-- As `pauseChecks`, of one class. -/
def Hub.pauseCheck (h : Hub) (p : Fin 7) (c : Nat) : Hub := h.pauseChecks p [c]

/-! ## Admission (R191-R197) -/

/-- Replace a queue. -/
def Hub.setQ (h : Hub) (q : Fin 56) (l : List QFrame) : Hub := { h with sw := { h.sw with q := h.sw.q.set q l } }

/-- Where a frame of `n` tiles would be admitted on chip: 0 reservation, 1 pool, by the first rule of R191 that holds. -/
def Hub.admitRule (h : Hub) (q : Fin 56) (c n : Nat) : Option Nat :=
  let used := qTiles h.sw.q[q]
  if used + n ≤ h.fld (F.SWC_QCFG_MIN q) then some 0
  else if h.qMax q < used + n then none
  else if c = 3 then (if n + h.poolUse 1 true ≤ h.fld F.SWC_POOL_CPL then some 1 else none)
  else if n ≤ h.sharedFree then some 1 else none

/-- May a queue spill (R194)? -/
def Hub.maySpill (h : Hub) (c : Nat) : Bool :=
  h.bit F.SWC_CTL_SPILL_EN && decide (c < 3) && (h.fld F.SWC_SPILLCLS_CLS).testBit c && h.bit F.DRM_SPILL_SIZE_MIB

/-- Slots of the spill region (R195). -/
def Hub.spillSlots (h : Hub) : Nat := min 1024 (h.fld F.DRM_SPILL_SIZE_MIB) * 4032

/-- DRAM address of a slot: 4,032 slots a MiB from SPILL_BASE on (R195). -/
def Hub.slotAddr (h : Hub) (s : Nat) : Nat := (h.fld F.DRM_SPILL_BASE_MIB + s / 4032) * 2 ^ 20 + s % 4032 * 256
/-- DRAM address of a slot's check value, after the slots of its MiB (R195). -/
def Hub.slotCheckAddr (h : Hub) (s : Nat) : Nat := (h.fld F.DRM_SPILL_BASE_MIB + s / 4032) * 2 ^ 20 + 1032192 + s % 4032 * 4
/-- A slot's tile contents and check; the check lies low byte first (DESIGN CHOICE, log entry 125). -/
def Hub.slotRead (h : Hub) (s : Nat) : List Byte × W32 :=
  (bytesAt h.dram (h.slotAddr s) 256, leWord (bytesAt h.dram (h.slotCheckAddr s) 4))
/-- Write a slot. -/
def Hub.slotWrite (h : Hub) (s : Nat) (d : List Byte × W32) : Hub :=
  { h with dram := writeBytes (writeBytes h.dram (h.slotAddr s) d.1) (h.slotCheckAddr s) (leBytes d.2) }

/-- Slots a frame holds or waits for. -/
def QFrame.slots (f : QFrame) : Nat :=
  match f.spill with
  | some l => l.length
  | none => if f.copying then f.tiles.length else 0

/-- Slots in use (DRM_SPILLSTAT.USED). -/
def Hub.spillUsed (h : Hub) : Nat := (h.sw.all.map QFrame.slots).foldl (· + ·) 0

/-- The lowest free slots (DESIGN CHOICE, log entry 125). -/
def Hub.freeSlots (h : Hub) (n : Nat) : List Nat :=
  let held := h.sw.all.flatMap fun f => f.spill.getD []
  ((List.range (held.length + n)).filter fun s => !held.contains s).take n

/-- The queues that may spill, as a map. -/
def Hub.mayMap (h : Hub) : BitVec 56 :=
  (List.range 56).foldl (fun m q => if h.maySpill (q % 8) then m ||| BitVec.twoPow 56 q else m) 0

/-- Below SPILL_HI free frame-pool tiles every queue that may spill enters spill mode (R194; DEDUCED, log entry 125). -/
def Hub.spillEnter (h : Hub) : Hub :=
  if h.bit F.SWC_CTL_SPILL_EN && decide (h.poolFree < h.fld F.DRM_SPILL_HI_TILES) then
    { h with sw := { h.sw with spill := h.sw.spill ||| h.mayMap } }
  else h

/-- Count a frame dropped at a queue. -/
def Hub.qDrop (h : Hub) (q : Fin 56) : Hub := (h.count (F.SWC_QDROP q)).flag .swc F.SWC_FLAG_QDROP

/-- Append a stored frame to its queue and look at the thresholds. -/
def Hub.append (h : Hub) (q : Fin 56) (f : QFrame) : Hub :=
  let h := h.setQ q (h.sw.q[q] ++ [f])
  let h := h.peak (F.SWC_QUSE_PEAK q) (qTiles h.sw.q[q])
  (h.pauseCheck f.ing f.hdr.tc.toNat).spillEnter

/-- A frame that must spill waits, with its tiles, for the DRAM port, or is dropped; its queue is in spill mode either way
(R194, R197). -/
def Hub.spillIn (h : Hub) (q : Fin 56) (ing : Fin 7) (f : Frame) : Hub × Bool :=
  let n := tilesFor f.pay.length
  let h : Hub := { h with sw := { h.sw with spill := h.sw.spill ||| BitVec.twoPow 56 q.val } }
  if h.spillSlots < h.spillUsed + n then
    (((h.on F.DRM_SPILLSTAT_FULL).count F.DRM_SPILLDROP).qDrop q, false)
  else if h.sharedFree < n && (h.sw.all.any fun g => g.copying) then (h.qDrop q, false)
  else match h.storeFrame f.pay with
    | none => (h.qDrop q, false)
    | some (h', ts) =>
      (h'.append q { hdr := f.hdr, len := f.pay.length, tiles := ts, ing := ing, from_ := 1, at_ := h.now, copying := true },
        true)

/-- A frame reaches the queue of a port and its class: admitted, spilled, taken from headroom, or dropped. Nothing is
admitted while the switch is disabled (log entry 13). -/
def Hub.enqueue (h : Hub) (p ing : Fin 7) (f : Frame) : Hub × Bool :=
  let c := f.hdr.tc.toNat
  let q := qOf p c
  let n := tilesFor f.pay.length
  let h := h.spillEnter
  if !h.bit F.SWC_CTL_EN then (h.qDrop q, false)
  else if h.sw.spill.getLsbD q then h.spillIn q ing f
  else
    let keep := fun (src : Nat) => match h.storeFrame f.pay with
      | none => (h.qDrop q, false)
      | some (h', ts) =>
        (h'.append q { hdr := f.hdr, len := f.pay.length, tiles := ts, ing := ing, from_ := src, at_ := h.now }, true)
    match h.admitRule q c n with
    | some src => keep src
    | none =>
      if h.maySpill c then h.spillIn q ing f
      else if h.lossless c then
        if qTiles (h.sw.all.filter fun g => g.from_ == 2 && g.ing == ing) + n ≤ h.fld (F.SWC_IN_TH_HEAD ing) then keep 2
        else
          let h := ((h.qDrop q).count F.SWC_LLDROP).flag .swc F.SWC_FLAG_LL_DROP
          (h.raise 2 Block.swc.unit causeLIMIT q.val, false)
      else (h.qDrop q, false)

/-- Take a frame out of a queue and free its tiles. -/
def Hub.unqueue (h : Hub) (q : Fin 56) (f : QFrame) : Hub := (h.setQ q ((h.sw.q[q]).erase f)).freeTiles f.tiles

/-- As `unqueue`, with the release of a pause that it allows. -/
def Hub.dequeue (h : Hub) (q : Fin 56) (f : QFrame) : Hub := (h.unqueue q f).pauseCheck f.ing f.hdr.tc.toNat

/-- The frame a queue entry stands for. -/
def Hub.frameOf (h : Hub) (f : QFrame) : Frame :=
  { hdr := f.hdr, pay := match f.spill with
      | some l => (l.flatMap fun s => (h.slotRead s).1).take f.len
      | none => h.readChain f.tiles f.len }

/-- A spilled frame has been written to its slots: its tiles are freed (R194, R197). -/
def Hub.spillWritten (h : Hub) (q : Fin 56) : Hub :=
  match (h.sw.q[q]).find? fun f => f.copying with
  | none => h
  | some f =>
    let slots := h.freeSlots f.tiles.length
    let h := (f.tiles.zip slots).foldl (fun h p => h.slotWrite p.2 (h.tl.bytes p.1, h.tl.check p.1)) h
    let g := { f with tiles := [], copying := false, spill := some slots }
    let h := h.setQ q ((h.sw.q[q]).map fun x => if x == f then g else x)
    ((h.freeTiles f.tiles).pauseCheck f.ing f.hdr.tc.toNat).count F.DRM_SPILLCNT

/-- Put a tile and its check back unchanged; an uncorrectable DRAM read inverts the check (R196). -/
def Hub.restoreTile (h : Hub) (t : Nat) (d : List Byte × W32) (bad : Bool) : Hub :=
  { h with tl := { h.tl with
      mem := writeBytes h.tl.mem (t * 256) d.1
      chk := h.tl.chk.set zeroCheck t (if bad then d.2 ^^^ 0xFFFFFFFF#32 else d.2) } }

/-- The head spilled frame of a queue returns on chip (R196); `bad` names the slots whose read failed. -/
def Hub.refill (h : Hub) (q : Fin 56) (bad : List Nat) : Hub :=
  match (h.sw.q[q]).find? fun f => f.spill.isSome with
  | none => h
  | some f =>
    let slots := f.spill.getD []
    let data := slots.map h.slotRead
    if h.fld F.DRM_REFILL_LO_TILES ≤ qTiles h.sw.q[q] ∨ h.sharedFree < data.length ∨ h.poolFree < data.length then h
    else
      let ts := Hub.findTiles h 16384 data.length 0
      let h := h.takeTiles ts
      let h := (ts.zip (data.zip (List.range data.length))).foldl (fun h x => h.restoreTile x.1 x.2.1 (bad.contains x.2.2)) h
      let h := bad.foldl (fun h i => match slots[i]? with
        | some s => h.raise 2 Block.drm.unit causeECCUNC (h.slotAddr s)
        | none => h) h
      let g := { f with tiles := ts, spill := none, from_ := 1 }
      let h := h.setQ q ((h.sw.q[q]).map fun x => if x == f then g else x)
      let h := (h.peak (F.SWC_QUSE_PEAK q) (qTiles h.sw.q[q])).pauseCheck f.ing f.hdr.tc.toNat
      let h := (h.off F.DRM_SPILLSTAT_FULL).count F.DRM_REFILLCNT
      if (h.sw.q[q]).any fun f => f.spill.isSome || f.copying then h
      else { h with sw := { h.sw with spill := h.sw.spill &&& ~~~ (BitVec.twoPow 56 q.val) } }

/-! ## Choosing the next frame (R193) -/

/-- Is the head of a queue on chip? -/
def headReady (l : List QFrame) : Option QFrame :=
  match l with
  | f :: _ => if f.spill.isSome || f.copying then none else some f
  | [] => none

/-- Deficit round robin among TC2, TC1 and TC0: the class to serve, with the deficits and the turn after it. -/
def drr (h : Hub) (p : Fin 7) (ok : Nat → Bool) : Nat → Sw → Option (Fin 3) × Sw
  | 0, s => (none, s)
  | fuel + 1, s =>
    let c := s.turn[p]
    let i : Fin 21 := ⟨3 * p.val + c.val, by omega⟩
    let adv := fun (s : Sw) =>
      let c' : Fin 3 := if c = 0 then 2 else if c = 2 then 1 else 0
      let j : Fin 21 := ⟨3 * p.val + c'.val, by omega⟩
      let w := if c' = 0 then h.fld F.SWC_WRR_W0 else if c' = 1 then h.fld F.SWC_WRR_W1 else h.fld F.SWC_WRR_W2
      let live := ok c'.val && (headReady s.q[qOf p c'.val]).isSome
      { s with turn := s.turn.set p c',
               deficit := s.deficit.set j (if live then s.deficit[j] + max 1 w * 1024 else 0) }
    match headReady s.q[qOf p c.val] with
    | some f =>
      if ok c.val && decide (frameBytes f.len ≤ s.deficit[i]) then
        (some c, { s with deficit := s.deficit.set i (s.deficit[i] - frameBytes f.len) })
      else drr h p ok fuel (adv s)
    | none => drr h p ok fuel (adv s)

/-- The frame a port sends next: strict priority for TC7 to TC3, then the round robin; `ok` says which classes may
start. -/
def Hub.nextFrame (h : Hub) (p : Fin 7) (ok : Nat → Bool) : Option QFrame × Hub :=
  match [7, 6, 5, 4, 3].find? fun c => ok c && (headReady h.sw.q[qOf p c]).isSome with
  | some c => (headReady h.sw.q[qOf p c], h)
  | none =>
    if [0, 1, 2].any fun c => ok c && (headReady h.sw.q[qOf p c]).isSome then
      match drr h p ok 48 h.sw with
      | (some c, s) => (headReady h.sw.q[qOf p c.val], { h with sw := s })
      | (none, _) => (none, h)
    else (none, h)

/-! ## Ports that are wrapped or lost -/

/-- Does a link take frames into its queue: UP, or held for a return (Table 8.2)? -/
def Hub.linkTakes (h : Hub) (l : Nat) : Bool := h.fld (F.X_STAT_STATE l) == 2 || h.fld (F.X_STAT_STATE l) == 3

/-- A frame whose port has no link: to the same class of the other ring port, or flushed (R256). -/
def Hub.rerouteOrFlush (h : Hub) (l : Fin 4) (ing : Fin 7) (f : Frame) : Hub :=
  if l.val < 2 then
    let o := 1 - l.val
    if (h.fld (F.X_REROUTE_CLS l) &&& 0x9F).testBit f.hdr.tc.toNat && h.linkTakes o then
      ((h.enqueue ⟨o, by omega⟩ ing f).1).count (F.X_REROUTE_CNT l)
    else h.count (F.X_FLUSH l)
  else h.count (F.X_FLUSH l)

/-- A frame to go out of a port: wraps first (R291), then lost links, then the queue. The answer says whether it was
taken. -/
def Hub.route (h : Hub) (p ing : Fin 7) (f : Frame) : Hub × Bool :=
  if hp : p.val < 4 then
    let wrapped := (p.val == 0 && h.bit F.RNG_STAT_WRAPE) || (p.val == 1 && h.bit F.RNG_STAT_WRAPW)
    if wrapped then
      if f.hdr.typ == tDRONE then (h, false)
      else if f.hdr.w then ((h.count F.RNG_WRAPDROP).flag .rng F.RNG_FLAG_WRAPDROP, false)
      else h.enqueue ⟨1 - p.val, by omega⟩ ing { f with hdr := { f.hdr with w := true } }
    else if h.linkTakes p.val then h.enqueue p ing f
    else (h.rerouteOrFlush ⟨p.val, hp⟩ ing f, false)
  else h.enqueue p ing f

/-- A broadcast that leaves for the ring at member 0 is delivered at this node too, to the member it names (R30): a request,
record, tunnel or event frame. A node without that member discards it. -/
def Hub.ownCopy (h : Hub) (ing : Fin 7) (f : Frame) : Hub :=
  let t := f.hdr.typ
  if f.hdr.dnode ≠ 255 ∨ h.member ≠ 0 ∨ !(t == tREQ_P || t == tTIMED || t == tTUNNEL || t == tEVENT) then h
  else if h.fld F.RNG_JOINCFG_MEMBERS < f.hdr.dmem.toNat then h.count F.BRG_BCDISC
  else if f.hdr.dmem = 0 then (h.enqueue 5 ing f).1
  else (h.route 3 ing f).1

/-- Does node 0 in a frame's DNODE mean the link it crosses (R272)? -/
def linkType (t : BitVec 4) : Bool := t == tPTP || t == tBEACON || t == tRINGCTL || t == tLAMP

/-- A frame this hub sources leaves the Local port (5) or another by its header: D, HOPS and SEQ are filled here. A
frame for this hub itself goes to the Local port. Node 254 leaves as the master's ID and node 0 as this node's (R28, R271). -/
def Hub.send (h : Hub) (f : Frame) (ing : Fin 7 := 5) : Hub :=
  let f := if linkType f.hdr.typ then f else { f with hdr := { f.hdr with dnode := h.resolve f.hdr.dnode } }
  let p := (h.portTo f.hdr.dnode f.hdr.dmem).getD 5
  let keep := f.hdr.typ == tCPL || f.hdr.typ == tDRONE
  let r := if keep then (f.hdr.seq.toNat, h) else h.takeSeq (seqKey f.hdr.typ f.hdr.dnode)
  let hdr := { f.hdr with seq := BitVec.ofNat 16 r.1, d := p == 1, hops := BitVec.ofNat 9 r.2.hopsOut }
  (r.2.route p ing { f with hdr := hdr }).1.ownCopy ing { f with hdr := hdr }

end Sys2Proof.Machine
end

