-- ==== Sys2Proof/Machine/PairLow.lean ====
section
/-! DEFINITION. Who drives in a redundant pair, and what lanes hand to the image and to the cores: input writes, EDGE and
FLAG events, with the lockstep items and the stack relay they cause (11 R343, R348, R349, R354; 10 R326, R327). -/

namespace Sys2Proof.Machine

/-! ## Lamp states (Table 11.2) -/

def lpSOLO : Nat := 0
def lpSTART : Nat := 1
def lpSHADOW : Nat := 2
def lpHOLDER : Nat := 3
def lpCLAIMING : Nat := 4
def lpHANDING : Nat := 5

/-- The state of the Lamp. -/
def Hub.lampSt (h : Hub) : Nat := h.fld F.LMP_STAT_STATE
/-- Pair operation? -/
def Hub.paired (h : Hub) : Bool := h.bit F.LMP_CTL_EN

/-- LMP_EXP as a Gnomon time. -/
def Hub.lampExp (h : Hub) : GTime :=
  { sec := h.fld F.LMP_EXPSH_SEC * 2 ^ 32 + h.fld F.LMP_EXPSL_SEC, ns := h.fld F.LMP_EXPNS_NS }

/-- Does this member drive its pins (R349)? -/
def Hub.drives (h : Hub) : Bool :=
  !h.paired || (if h.member = 0 then h.lampSt == lpSOLO || h.lampSt == lpHOLDER || h.lampSt == lpHANDING
    else decide (h.gno.t.units < h.lampExp.units))

/-- Does this member belong to the unit that holds? -/
def Hub.holderUnit (h : Hub) : Bool := h.paired && h.drives
/-- Does it belong to the one that does not? -/
def Hub.shadowUnit (h : Hub) : Bool := h.paired && !h.drives

/-- Change the Lamp. -/
def Hub.modLamp (h : Hub) (g : Lamp → Lamp) : Hub := { h with lamp := g h.lamp }

/-! ## Writes the hub itself sends -/

/-- A posted TC4 WRITE to a fabric address; the hub's own writes carry requester 11 (log entry 26). -/
def Hub.postWrite (h : Hub) (node : BitVec 8) (mem : Nat) (space off : Nat) (data : List Byte) : Hub :=
  let w : W32 := BitVec.ofNat 32 ((data.length - 1) * 2 ^ 20 + 11 * 2 ^ 16 + 1)
  let pay := beBytes w ++ data
  h.send { hdr := h.mkHdr tREQ_P 4 node (BitVec.ofNat 2 mem) pay.length (adr := BitVec.ofNat 64 (space * 2 ^ 36 + off)),
           pay := pay }

/-- A posted write of a register of another member of this stack. -/
def Hub.postReg (h : Hub) (mem off : Nat) (v : W32) : Hub := h.postWrite (BitVec.ofNat 8 h.node) mem 0 off (leBytes v)

/-! ## LAMP frames (R347) -/

/-- Send a LAMP frame on the pair link, when it is UP. -/
def Hub.lampSend (h : Hub) (sub : Nat) (ws : List W32) (data : List Byte := []) : Hub :=
  if h.member ≠ 0 ∨ !h.linkIsUp 2 then h
  else
    let w0 := sub * 2 ^ 24 + h.lampSt * 2 ^ 20 + h.fld F.GLB_STRAP_PREFERRED * 2 ^ 19 + h.lamp.lseq
    let h := h.modLamp fun l => { l with lseq := (l.lseq + 1) % 65536 }
    h.sendLink 2 tLAMP (wordsPay (BitVec.ofNat 32 w0 :: ws) ++ data) (x := false)

/-- Hand a lockstep item on: member 0 of a holder sends INPUT, another member writes it to member 0 (R354). -/
def Hub.lockItem (h : Hub) (ws : List W32) : Hub :=
  if !h.holderUnit then h
  else if h.member = 0 then h.lampSend 0x04 (1#32 :: ws)
  else ws.foldl (fun h w => h.postReg 0 0x98060 w) h

/-! ## The live area -/

/-- Byte address of the live area (R323). -/
def Hub.liveBase (h : Hub) : Nat := h.imgBase + h.fld F.RFXC_LIVE_BASE * 256

/-- Bytes of the live area. -/
def Hub.liveSize (h : Hub) : Nat := h.fld F.RFXC_LIVE_SIZE * 256

/-- Does a whole byte range lie in the live area? -/
def Hub.inLive (h : Hub) (a len : Nat) : Bool := decide (h.liveBase ≤ a) && decide (a + len ≤ h.liveBase + h.liveSize)

/-- A write into a member's live area also goes to member 0, widened to whole words of the live area (R343, log
entry 27). -/
def Hub.relayUp (h : Hub) (a : Nat) (len : Nat) : Hub :=
  if h.member = 0 ∨ !h.bit F.LMP_CTL_RELAY_EN ∨ !h.inLive a len ∨ len = 0 then h
  else
    let lo := a / 4 * 4
    let hi := (a + len + 3) / 4 * 4
    h.postWrite (BitVec.ofNat 8 h.node) 0 1
      (h.imgBase + h.fld F.LMP_RELAYUP_BASE * 256 + (lo - h.liveBase)) (bytesAt h.tl.mem lo (hi - lo))

/-- A write request to tile memory with its relay. -/
def Hub.imgWrite (h : Hub) (a : Nat) (bs : List Byte) (full : Bool := true) : Hub := (h.tileWrite a bs full).relayUp a bs.length

/-- Bytes as payload words, the last padded with zeros. -/
def payWords (bs : List Byte) : List W32 := (List.range ((bs.length + 3) / 4)).map fun i => beWord (bs.drop (4 * i))

/-! ## What lanes hand on -/

/-- A lane's bit of PIM_LPOIS. -/
def Hub.lpoisPut (h : Hub) (n : Nat) (v : Bool) : Hub :=
  { h with pim := { h.pim with lpois :=
    if v then h.pim.lpois ||| BitVec.twoPow 64 n else h.pim.lpois &&& ~~~ (BitVec.twoPow 64 n) } }

/-- A lane writes its input bytes to its place in the image; data that failed parity are written as 0 and mark the lane
(R326, R327). A Shadow's lanes leave the live area alone; a change of PIM_LPOIS is an item too (R354, log entry 28). -/
def Hub.pimInput (h : Hub) (n : Fin 64) (bs : List Byte) (good : Bool := true) : Hub :=
  let a := h.imgBase + h.fld (F.RFXC_LMAP_I_OFF n)
  if !h.bit (F.RFXC_LMAP_I_EN n) || bs.isEmpty || (h.shadowUnit && h.touchesLive a bs.length) then h
  else
    let moved := h.pim.lpois.getLsbD n == good
    let h := h.lpoisPut n (!good)
    let d := if good then bs else bs.map fun _ => 0
    let h := h.imgWrite a d
    let h := if h.inLive a d.length then
        h.lockItem (BitVec.ofNat 32 (2 ^ 28 + h.member * 2 ^ 26 + (d.length - 1) * 2 ^ 18 + (a - h.liveBase)) :: payWords d)
      else h
    if moved then h.lockItem [BitVec.ofNat 32 (3 * 2 ^ 28 + h.member * 2 ^ 26 + b2n (!good) * 2 ^ 6 + n)] else h

/-- An EDGE, FLAG or SIG event to the cores of a mask: a Shadow raises none of its own, a holder hands it on (R354). -/
def Hub.lockEvent (h : Hub) (mask : Nat) (e : EvEntry) : Hub :=
  if h.shadowUnit || mask = 0 then h
  else (h.evRoute mask e).lockItem [BitVec.ofNat 32 (2 * 2 ^ 28 + h.member * 2 ^ 26 + mask), e.typ ++ 0#4 ++ e.unit, e.w1, e.w2, e.w3]

/-- An EDGE event (Table 10.3), its time the stamp converted by R150. -/
def Hub.evEdge (h : Hub) (n : Fin 64) (pin : Nat) (level : Bool) (stamp : Nat) : Hub :=
  h.lockEvent (h.fld (F.RFXC_LSUB_EDGE n)) (mkEvent 1 (h.unit (laneUnit n))
    (BitVec.ofNat 32 (b2n level * 2 ^ 31 + pin * 2 ^ 29 + n)) ((h.reed[clusterOf n]).anc.toG stamp))

/-- Set lane flags; a FLAG event tells the enabled bits that were clear (Table 10.3). Flags of one cycle are set in one
call. -/
def Hub.laneFlags (h : Hub) (n : Fin 64) (fs : List Nat) : Hub :=
  let at_ := fun i => (⟨laneBase n + 0xC, i, 1⟩ : Fld)
  let ien := h.fld (F.LN_IEN_M n)
  let new := fs.foldl (fun a i => if !h.bit (at_ i) && ien.testBit i && !a.testBit i then a + 2 ^ i else a) 0
  let h := h.withIrq (srcOf (.lane n)) fun h => fs.foldl (fun h i => h.on (at_ i)) h
  if new = 0 then h
  else h.lockEvent (h.fld (F.RFXC_LSUB_FLAG n)) (mkEvent 2 (h.unit (laneUnit n))
    (BitVec.ofNat 32 (n * 2 ^ 16 + new)) h.gno.t)

/-- The pair link leaves UP (Table 11.4). -/
def Hub.pairDown (h : Hub) : Hub :=
  if h.member ≠ 0 ∨ !h.paired then h
  else
    let h := h.flag .lmp F.LMP_FLAG_PAIR_DOWN
    if h.shadowUnit then ((h.on F.LMP_STAT_STALE).off F.LMP_STAT_IN_STEP).modLamp fun l => { l with stepAt := none, clean := false }
    else h

end Sys2Proof.Machine
end

