-- ==== Sys2Proof/Machine/BrgLow.lean ====
section
/-! DEFINITION. The bridge's own operations: completions to an issuer (07 R203, R204, R209, R232), answers of a target
(R203, R234, R235), retry slots and salvage (R215-R220, R225-R228), lane locks (R230-R233), and the delivery of a final
completion to a core's issue slot, a reed context or a host ring (10 R322, 03 R102, 13 R390). -/

namespace Sys2Proof.Machine

/-! ## Codes -/

/-- Status codes (Table 0.8). -/
def stOK : Nat := 0
def stRETRY : Nat := 1
def stBACKOFF : Nat := 2
def stUR : Nat := 3
def stCA : Nat := 4
def stTIMEOUT : Nat := 5
def stPOISON : Nat := 6
def stLATE : Nat := 7
def stDOWN : Nat := 8

/-- Operation codes (Table 7.1). -/
def opREAD : BitVec 4 := 0
def opWRITE : BitVec 4 := 1
def opLREAD : BitVec 4 := 2
def opLWRITE : BitVec 4 := 3
def opUNLOCK : BitVec 4 := 4

/-- Does an operation read? -/
def isRead (o : BitVec 4) : Bool := o == opREAD || o == opLREAD
/-- Does the operation write? -/
def isWrite (o : BitVec 4) : Bool := o == opWRITE || o == 3

/-- Does an operation take the lane lock? -/
def isLock (o : BitVec 4) : Bool := o == opLREAD || o == opLWRITE

/-- Did this hub itself issue a request? Its own broadcasts come back with its node ID (R30). -/
def Hub.isLocal (h : Hub) (rq : Request) : Bool :=
  (rq.snode == 0 || (h.node != 0 && rq.snode.toNat == h.node)) && rq.smem.toNat == h.member

/-- The lock key of a request (R230). -/
def Hub.keyOf (h : Hub) (rq : Request) : Key :=
  { node := if rq.snode = 0 then h.node else rq.snode.toNat, mem := rq.smem.toNat, req := rq.req.toNat }

/-- Key order: node, member, REQ (R230). -/
def Key.lt (a b : Key) : Bool :=
  decide (a.node < b.node) || (a.node == b.node && (decide (a.mem < b.mem) || (a.mem == b.mem && decide (a.req < b.req))))

/-- An EST drawn from 1 to 8 µs (R219, R231). -/
def Hub.drawEst (h : Hub) : Nat × Hub := (1 + h.draw.1 % 8, h.draw.2)

/-! ## Changing parts -/

/-- Change the bridge. -/
def Hub.modBrg (h : Hub) (g : Brg → Brg) : Hub := { h with brg := g h.brg }
/-- Change a retry slot. -/
def Hub.modSlot (h : Hub) (i : Fin 128) (g : Slot → Slot) : Hub :=
  h.modBrg fun b => { b with slot := b.slot.set i (g b.slot[i]) }
/-- Change a tag. -/
def Hub.setTag (h : Hub) (t : Fin 256) (v : TagSt) : Hub := h.modBrg fun b => { b with tag := b.tag.set t v }
/-- Change a lane's lock. -/
def Hub.modLock (h : Hub) (n : Fin 64) (g : LaneLock → LaneLock) : Hub :=
  h.modBrg fun b => { b with lock := b.lock.set n (g b.lock[n]) }

/-- Tags in use (BRG_STAT.TAGS). -/
def Hub.tagsUsed (h : Hub) : Nat := (h.brg.tag.toList.filter fun t => match t with | .use _ => true | _ => false).length
/-- Slots in use (BRG_STAT.SLOTS). -/
def Hub.slotsUsed (h : Hub) : Nat := (h.brg.slot.toList.filter fun s => s.st != .free).length

/-! ## EVENT frames (R234, R235, R455) -/

/-- The payload of an EVENT frame (Table 7.9). -/
def eventPay (g : GTime) (unit : BitVec 24) (off : Nat) (supp : Nat) (req op : BitVec 4) (st record : Nat)
    (seq : BitVec 16) : List Byte :=
  wordsPay [BitVec.ofNat 32 g.ns, BitVec.ofNat 32 g.sec, unit.setWidth 32, BitVec.ofNat 32 off,
    BitVec.ofNat 8 supp ++ req ++ op ++ 0#12 ++ BitVec.ofNat 4 st,
    BitVec.ofNat 11 0 ++ BitVec.ofNat 5 record ++ seq]

/-- An EVENT frame is written into its originator's error log (R455). -/
def Hub.eventLog (h : Hub) (snode : BitVec 8) (f : Frame) : Hub :=
  let w4 := f.word 4
  let e : LogEntry :=
    { sec := h.gno.t.sec / 2 ^ 32 * 2 ^ 32 + (f.word 1).toNat, us := (f.word 0).bits 29 0 / 1000, rep := 0, tick := h.now,
      unit := (f.word 2).extractLsb' 0 24, cls := 2, req := 10, rnode := snode, space := 0,
      code := BitVec.ofNat 16 (0x1210 + w4.bits 3 0), addr := f.word 3 }
  ((h.record e).count F.ERR_CNTU (w4.bits 31 24)).storm

/-- Report a posted request's status to its originator, at most once per GAP (R234, R235). -/
def Hub.event (h : Hub) (rq : Request) (st : Nat) (unit : BitVec 24) (op : BitVec 4) (record : Nat := 0) : Hub :=
  match h.brg.gap.find? fun g => g.node == rq.snode && g.run with
  | some g =>
    let h := h.modBrg fun b => { b with gap := b.gap.map fun x => if x == g then { x with supp := x.supp + 1 } else x }
    (h.count F.BRG_EVSUPP).flag .brg F.BRG_FLAG_EVSUPP
  | none =>
    let supp := match h.brg.gap.find? fun g => g.node == rq.snode with
      | some g => min 255 g.supp
      | none => 0
    let h := h.modBrg fun b =>
      { b with gap := { node := rq.snode, run := true, at_ := h.now, supp := 0 } :: b.gap.filter fun g => g.node != rq.snode }
    let pay := eventPay h.gno.t unit rq.addr.off supp rq.req op st record rq.seq
    let hdr := h.mkHdr tEVENT 4 rq.snode rq.smem pay.length
    if h.isLocal rq then h.eventLog 0 { hdr := hdr, pay := pay } else h.send { hdr := hdr, pay := pay }

/-! ## Salvage (R227, R228) -/

/-- Replace a salvage entry. -/
def Hub.setSalv (h : Hub) (c : Fin 8) (i : Fin 16) (v : Option Salv) : Hub :=
  h.modBrg fun b => { b with salv := b.salv.set c ((b.salv[c]).set i v) }

/-- The oldest entry of a cluster that meets a test. -/
def oldestSalv (v : Vector (Option Salv) 16) (ok : Salv → Bool) : Option (Fin 16) :=
  (List.finRange 16).foldl (fun best i => match v[i] with
    | some e => if ok e then (match best with
        | some j => match v[j] with
          | some e' => if e.ord < e'.ord then some i else best
          | none => some i
        | none => some i) else best
    | none => best) none

/-- Data enter salvage: a free entry, or the oldest is overwritten (R227). -/
def Hub.salvPut (h : Hub) (lane : Fin 64) (off : Nat) (data : List Byte) (g : GTime) (tick origin : Nat)
    (serve : Bool := true) : Hub :=
  let c := clusterOf lane
  let e : Salv := { lane := lane % 8, off := off, data := data, g := g, tick := tick, origin := origin, serve := serve,
                    ord := h.brg.ord }
  let h := h.modBrg fun b => { b with ord := b.ord + 1 }
  let h := (h.count F.ECH_DISCARD).flag .ech F.ECH_FLAG_DISCARD
  match (List.finRange 16).find? fun i => ((h.brg.salv[c])[i]).isNone with
  | some i => h.setSalv c i (some e)
  | none => match oldestSalv h.brg.salv[c] fun _ => true with
    | some i => ((h.setSalv c i (some e)).count F.ECH_SALVLOST).flag .ech F.ECH_FLAG_SALVLOST
    | none => h

/-- A cluster's salvage entries are freed (R228). -/
def Hub.salvClear (h : Hub) (c : Fin 8) : Hub :=
  h.modBrg fun b => { b with salv := b.salv.set c (Vector.replicate 16 none) }

/-- Do two ranges of device offsets overlap? -/
def overlaps (a la b lb : Nat) : Bool := decide (a < b + lb) && decide (b < a + la)

/-! ## Retry slots -/

/-- Read data a slot holds go to salvage, and the slot is freed; data that a write has overlapped or a lock cut off enter with
SERVE = 0 (R228). -/
def Hub.slotToSalv (h : Hub) (i : Fin 128) (origin : Nat) (serve : Bool := true) : Hub :=
  let s := h.brg.slot[i]
  let h := match s.rq with
    | some rq => if isRead rq.op && s.status == stOK && (decide (s.st = SlotSt.ready) || decide (s.st = SlotSt.echoed)) then
        h.salvPut rq.lane rq.dev s.data s.g s.tick origin (serve && !s.noServe) else h
    | none => h
  h.modSlot i fun _ => {}

/-- Does the access of a slot run on its lane's bus? -/
def Hub.onBus (h : Hub) (n : Fin 64) (i : Fin 128) : Bool :=
  (h.lane n).devRun && (h.lane n).dev.head?.any fun d => d.slot == some i

/-- An Echo fetch that has not started is given up: its slot is free (R221). -/
def Hub.echoDrop (h : Hub) (n : Fin 64) (i : Fin 128) : Hub :=
  (h.modLane n fun l => { l with dev := l.dev.filter fun d => d.slot != some i }).modSlot i fun _ => {}

/-- A slot of another key, or one whose reissue is refused, is abandoned: read data go to salvage, at once or when the access
ends (R214, R217). -/
def Hub.abandon (h : Hub) (i : Fin 128) : Hub :=
  if (h.brg.slot[i]).st = .ready then h.slotToSalv i 2 else h.modSlot i fun s => { s with gone := true }

/-- A lane lock is taken: all the lane's ECHOED data go to salvage with SERVE = 0, what a running fetch reads will too, and a
fetch that waits is given up (R221, R228). -/
def Hub.echoLock (h : Hub) (lane : Fin 64) : Hub :=
  (List.finRange 128).foldl (fun h (i : Fin 128) =>
    let s := h.brg.slot[i]
    if s.rq.any fun rq => rq.lane == lane then
      if s.st = .echoed then h.slotToSalv i 0 false
      else if s.echo ∧ s.st = .fetching then
        (if h.onBus lane i then h.modSlot i fun s => { s with noServe := true } else h.echoDrop lane i)
      else h
    else h) h

/-- A write overlaps device offsets of a lane: ECHOED data there go to salvage with SERVE = 0, and what earlier reads there hold
or fetch will; a fetch that has not started comes after the write (R228). -/
def Hub.echoOut (h : Hub) (lane : Fin 64) (ok : Request → Bool) : Hub :=
  (List.finRange 128).foldl (fun h (i : Fin 128) =>
    let s := h.brg.slot[i]
    if s.rq.any fun rq => rq.lane == lane && isRead rq.op && ok rq then
      if s.st = .echoed then h.slotToSalv i 0 false
      else if s.st = .free ∨ (s.echo && !h.onBus lane i) then h
      else h.modSlot i fun s => { s with noServe := true }
    else h) h

/-- A write overlaps device offsets of a lane: data read before it leave service (R228). -/
def Hub.writeOverlap (h : Hub) (lane : Fin 64) (off len : Nat) : Hub :=
  let h := h.echoOut lane fun rq => overlaps off len rq.dev rq.len
  h.modBrg fun b => { b with salv := b.salv.set (clusterOf lane) ((b.salv[clusterOf lane]).map fun x => x.map fun e =>
    if e.lane == lane.val % 8 && overlaps off len e.off e.data.length then { e with serve := false } else e) }

/-! ## Completions at the issuer -/

/-- The status word of a completion (Table 7.4). -/
def statusWord (st est : Nat) (lock salv : Bool) : W32 :=
  BitVec.ofNat 16 est ++ 0#6 ++ BitVec.ofBool lock ++ BitVec.ofBool salv ++ 0#4 ++ BitVec.ofNat 4 st

/-- ECC marks of DTCM after `len` bytes were written at `a`: a word written whole is good again (R310). -/
def eccAfter (decc : Sparse Nat) (a len : Nat) : Sparse Nat :=
  if (a + 3) / 4 < (a + len) / 4 then decc.clear ((a + 3) / 4) ((a + len) / 4 - 1) else decc

/-- Status codes 0x9-0xF act as UR and are logged (R14). -/
def Hub.stGood (h : Hub) (st : Nat) (addr : Nat) (req : BitVec 4) : Hub × Nat :=
  if 9 ≤ st then (h.raise 2 Block.brg.unit causePROTO addr req, stUR) else (h, st)

/-- A core's issue slot receives its final completion (R322); a stopped core's slot only frees itself (R333). -/
def Hub.coreSlotDone (h : Hub) (n : Fin 8) (d : Fin 4) (st : Nat) (salv : Bool) (data : List Byte) : Hub :=
  let s := (h.core[n]).slot[d]
  if !s.busy then h
  else if s.discard then h.modCore n fun c => { c with slot := c.slot.set d {} }
  else
    let h := h.modCore n fun c =>
      { c with
        dtcm := writeBytes c.dtcm (s.rptr.toNat - 0x10000000) data
        decc := eccAfter c.decc (s.rptr.toNat - 0x10000000) data.length
        slot := c.slot.set d { s with busy := false, done := true, salv := salv, bytes := data.length, status := st } }
    if h.bit (F.RFX_EVEN_CPL n) then
      h.evPush n (mkEvent 7 (h.unit (rfxUnit n)) (BitVec.ofNat 32 (b2n salv * 256 + st * 16 + d)) h.gno.t)
    else h

/-- An FRD receives its final completion: GA and CST[4:0]; the FRD completes in its context's next slot (R78, R102). -/
def Hub.reedFrdDone (h : Hub) (c : Fin 8) (x : Fin 16) (st : Nat) (salv : Bool) (data : W32) : Hub :=
  h.modReed c fun r =>
    let t := r.ctx[x]
    match t.frd with
    | none => r
    | some a =>
      if t.frdCome then r
      else
        let cst := (t.r.cst &&& ~~~ 0x1F#32) ||| BitVec.ofNat 32 (b2n salv * 16 + st)
        let g := t.r.g.set a (if st = stOK then data else 0)
        { r with ctx := r.ctx.set x { t with frdCome := true, r := { t.r with g := g, cst := cst } } }

/-- A final completion goes to whoever waits for it. -/
def Hub.deliver (h : Hub) (t : Tx) (st est : Nat) (lock salv : Bool) (data : List Byte) : Hub :=
  let h := h.emit (.completion t.rq.req t.rq.tag (BitVec.ofNat 4 st) est lock salv data)
  let h := match t.cplm, t.who with
    | some k, .core n _ => h.lampSend 0x06 [BitVec.ofNat 32 (h.member * 2 ^ 30 + n.val * 2 ^ 27 + k % 65536), statusWord st est lock salv] data
    | _, _ => h
  match t.who with
  | .plain => h
  | .core n d => h.coreSlotDone n d st salv data
  | .reed c x => h.reedFrdDone c x st salv (leWord data)
  | .host ring cookie => { h with hst := { h.hst with cpl := h.hst.cpl.set ring (h.hst.cpl[ring] ++
      [{ word := statusWord st est lock salv, cookie := cookie, data := data, node := t.rq.addr.node, mem := t.rq.addr.mem }]) } }

/-- Release a lane's lock; a waiter gets the lane reserved (R231). -/
def Hub.lockRelease (h : Hub) (n : Fin 64) : Hub :=
  h.modLock n fun l => { l with owner := none, rsv := l.waiter.or l.rsv, rsvAt := if l.waiter.isSome then h.now else l.rsvAt, waiter := none }

/-- The lock's owner sends a request to the lane: the IDLE time starts again (R233). -/
def Hub.lockTouch (h : Hub) (n : Fin 64) (k : Key) : Hub :=
  if (h.brg.lock[n]).owner = some k then h.modLock n fun l => { l with at_ := h.now } else h

/-- Break a lane's lock (R233). -/
def Hub.lockBreak (h : Hub) (n : Fin 64) : Hub :=
  match (h.brg.lock[n]).owner with
  | none => h
  | some k =>
    let h := (h.lockRelease n).modLock n fun l => { l with broken := k :: l.broken.filter (· != k) }
    ((h.count F.BRG_LOCKBRK).flag .brg F.BRG_FLAG_LOCKBRK).raise 1 Block.brg.unit causeLOCKBRK n

/-- UNLOCK at the target: the owner releases, another key has no effect (Table 7.7). -/
def Hub.unlockAt (h : Hub) (n : Fin 64) (k : Key) : Hub :=
  if (h.brg.lock[n]).owner == some k then h.lockRelease n else h

/-- An UNLOCK meets the lock of its lane (Table 7.7, R233): a key whose lock was broken is forgotten and answered BACKOFF,
the owner releases, another key has no effect. -/
def Hub.unlockMeet (h : Hub) (n : Fin 64) (k : Key) : Hub × Bool :=
  if (h.brg.lock[n]).broken.contains k then
    (h.modLock n fun l => { l with broken := l.broken.filter (· != k) }, false)
  else (h.unlockAt n k, true)

/-- Lane states (Table 2.14). -/
def lnNONE : Nat := 0
def lnIDLE : Nat := 1
def lnUP : Nat := 2
def lnHOLD : Nat := 3
def lnDOWN : Nat := 4
def lnRESET : Nat := 5

/-- Function codes (Table 2.1). -/
def fnPINS : Nat := 0
def fnUART : Nat := 1
def fnSPI : Nat := 2
def fnPAIR : Nat := 3
def fnI2C : Nat := 4
def fnSSI : Nat := 5
def fnSDCI : Nat := 6
def fnQUAD : Nat := 7
def fnCAN : Nat := 8
def fnNONE : Nat := 15

/-- The lane's function. -/
def Hub.fn (h : Hub) (n : Fin 64) : Nat := h.fld (F.LN_FUNC_FUNC n)
/-- The lane's state. -/
def Hub.ln (h : Hub) (n : Fin 64) : Nat := h.fld (F.LN_STAT_STATE n)
/-- Is the lane UP? -/
def Hub.up (h : Hub) (n : Fin 64) : Bool := h.ln n == lnUP
/-! ## Who asks -/

/-- The requester a request acts as at its target (Table 0.6, R212): its own for a local one, 11 for another member of
this node, 10 from the ring. -/
def Hub.accessOf (h : Hub) (rq : Request) : Access :=
  if h.isLocal rq then { req := rq.req, node := 0, mem := rq.smem, posted := rq.posted }
  else if rq.snode = 0 ∨ rq.snode.toNat = h.node then { req := 11, node := 0, mem := rq.smem, posted := rq.posted }
  else { req := 10, node := rq.snode, mem := rq.smem, posted := rq.posted }

/-- Log a refused access with its address (R11). -/
def Hub.logAccess (h : Hub) (rq : Request) (off : Nat := rq.addr.off) : Hub :=
  let a := h.accessOf rq
  h.raise 1 Block.brg.unit causeACCESS (off % 2 ^ 32) a.req a.node rq.addr.space

/-- The lane check that comes before anything else (R33): absent or unconfigured UR, down DOWN. -/
def Hub.laneFirst (h : Hub) (rq : Request) : Option Nat :=
  let n := rq.lane
  if rq.addr.space ≠ 3 then none
  else if !h.lanePresent n || h.fn n == fnNONE then some stUR
  else if h.pinsHeld (clusterOf n) || !h.up n then some stDOWN
  else none

/-! ## Windows and allowlists (R210-R212) -/

/-- Does an allowlist admit a node (R212)? -/
def Hub.listAdmits (h : Hub) (i : Nat) (node : Nat) : Bool :=
  i == 0 || (decide (node < 254) && (h.fld (F.BRG_ALLOW_NODES (i % 16 * 8 + node / 32))).testBit (node % 32))

/-- Does window w match? -/
def Hub.winHits (h : Hub) (rq : Request) (w : Nat) : Bool :=
  let b := rq.addr.off / 256
  h.bit (F.BRG_WIN_ATTR_EN w) && h.fld (F.BRG_WIN_BASE_SPACE w) == rq.addr.space.toNat &&
    decide (h.fld (F.BRG_WIN_BASE_BLK w) ≤ b ∧ b ≤ h.fld (F.BRG_WIN_LIMIT_BLK w))

/-- The window that decides: the lowest that matches. -/
def Hub.winOf (h : Hub) (rq : Request) : Option Nat := (List.range 64).find? fun w => h.winHits rq w

/-- Are the rights of Table 7.1 in a window? -/
def Hub.winRights (h : Hub) (w : Nat) (o : BitVec 4) : Bool :=
  (!isRead o || h.bit (F.BRG_WIN_ATTR_READ w)) && (!isWrite o || h.bit (F.BRG_WIN_ATTR_WRITE w)) &&
    (!isLock o || h.bit (F.BRG_WIN_ATTR_LOCK w))

/-- The source an allowlist looks up. -/
def Hub.srcOfRq (h : Hub) (rq : Request) : Nat := if rq.snode.toNat = h.node then 0 else rq.snode.toNat

/-- Is a request free of window checks: the steward's or debug's own to this node (R210)? -/
def Hub.winExempt (h : Hub) (rq : Request) : Bool := h.isLocal rq && (rq.req == 0 || rq.req == 13)

/-- The window check: `some w` lets the request through window w, `some none` exempt, `none` is CA. -/
def Hub.winCheck (h : Hub) (rq : Request) : Option (Option Nat) :=
  if h.winExempt rq then some none
  else match h.winOf rq with
    | none => none
    | some w =>
      let last := rq.addr.off + (if rq.op = opUNLOCK then 0 else rq.len - 1)
      if h.fld (F.BRG_WIN_LIMIT_BLK w) * 256 + 255 < last then none
      else if !h.listAdmits (h.fld (F.BRG_WIN_ATTR_ALLOW w)) (h.srcOfRq rq) then none
      else if !h.winRights w rq.op then none
      else some (some w)

/-- Does the bridge serve? -/
def Hub.brgOn (h : Hub) : Bool := h.bit F.BRG_CTL_EN && !h.brg.closing

/-- A posted UNLOCK of this hub to one of its own lanes, served as any request (R28, R33, R210, R230, R233, R234). -/
def Hub.unlockOwn (h : Hub) (rq : Request) : Hub :=
  let h := h.count F.BRG_PCNT
  let no := fun (h : Hub) (st : Nat) => h.event rq st (h.unit (laneUnit rq.lane)) opUNLOCK
  if !h.brgOn then no h stDOWN
  else match h.laneFirst rq with
    | some st => no h st
    | none =>
      if (h.winCheck rq).isNone then no (h.logAccess rq) stCA
      else
        let r := h.unlockMeet rq.lane (h.keyOf rq)
        if r.2 then r.1 else no r.1.drawEst.2 stBACKOFF

/-- A posted UNLOCK of one entry of the lock table (R232). -/
def Hub.sendUnlock (h : Hub) (e : HeldLock) : Hub :=
  let d := h.resolve e.node
  if d.toNat = h.node ∧ e.mem.toNat = h.member then
    h.unlockOwn { op := opUNLOCK, addr := d ++ e.mem ++ BitVec.ofNat 38 (3 * 2 ^ 36 + e.lane * 2 ^ 30), len := 0, req := e.req,
                  snode := 0, smem := e.mem, tag := 0, again := false, posted := true, tc := 4, seq := 0, data := [] }
  else
    let w : W32 := 0#12 ++ e.req ++ 0#11 ++ 0#1 ++ opUNLOCK
    h.send { hdr := h.mkHdr tREQ_P 4 e.node e.mem 4 (adr := BitVec.ofNat 64 (3 * 2 ^ 36 + e.lane * 2 ^ 30)),
             pay := wordsPay [w] }

/-- The issuer's lock table after a final completion (R232). -/
def Hub.lockTable (h : Hub) (rq : Request) (st : Nat) (lock : Bool) : Hub :=
  let e : HeldLock := { req := rq.req, node := rq.addr.node, mem := rq.addr.mem, lane := rq.lane }
  if st = stBACKOFF ∧ lock then
    let mine := h.brg.held.filter fun x => x.req == rq.req
    mine.reverse.foldl Hub.sendUnlock (h.modBrg fun b => { b with held := b.held.filter fun x => x.req != rq.req })
  else if isLock rq.op && st == stOK then h.modBrg fun b => { b with held := e :: b.held.filter (· != e) }
  else if rq.op == opUNLOCK && st == stOK then h.modBrg fun b => { b with held := b.held.filter (· != e) }
  else h

/-- A transaction ends with a final status: its tag is freed, and its issuer receives it (R204, R206). -/
def Hub.finish (h : Hub) (tag : Fin 256) (t : Tx) (tagNext : TagSt) (st est : Nat) (lock salv : Bool)
    (data : List Byte) : Hub :=
  ((h.setTag tag tagNext).lockTable t.rq st lock).deliver t st est lock salv data

/-- A completion that no attempt waits for (R209). -/
def Hub.staleCpl (h : Hub) : Hub := (h.count F.BRG_STALECPL).flag .brg F.BRG_FLAG_STALE

/-- A completion arrives at the issuing bridge (R204, R209, R14): RETRY, and BACKOFF with LOCK = 0, wait for a reissue; all
else is final. -/
def Hub.cplIn (h : Hub) (tag : BitVec 8) (node mem : Nat) (st est : Nat) (lock salv : Bool) (data : List Byte) : Hub :=
  let tg : Fin 256 := ⟨tag.toNat, tag.isLt⟩
  match h.brg.tag[tg] with
  | .use t =>
    if !t.flying || mem != t.rq.addr.mem.toNat || !(node == t.rq.addr.node.toNat ||
        (t.rq.addr.node == 0 && node == h.node) || (t.rq.addr.node == 254 && node == h.fld F.RNG_STAT_MASTER)) then h.staleCpl
    else if st = stRETRY ∨ (st = stBACKOFF ∧ lock = false) then
      h.setTag tg (.use { t with flying := false, at_ := h.now + us est, last := st })
    else
      let r := h.stGood st (t.rq.addr.off % 2 ^ 32) t.rq.req
      r.1.finish tg t .free r.2 est lock salv data
  | _ => h.staleCpl

/-! ## Answers of the target -/

/-- The CPL frame a target sends (R203, R280). -/
def Hub.cplFrame (h : Hub) (rq : Request) (st est : Nat) (lock salv : Bool) (data : List Byte) : Frame :=
  let pay := beBytes (statusWord st est lock salv) ++ data
  { hdr := h.mkHdr tCPL 3 rq.snode rq.smem pay.length (tag := rq.tag) (seq := rq.seq.toNat), pay := pay }

/-- The unit an EVENT names: the lane in bridge space, the bridge otherwise. -/
def Hub.targetUnit (h : Hub) (rq : Request) : BitVec 24 :=
  if rq.addr.space = 3 then h.unit (laneUnit rq.lane) else h.unit Block.brg.unit

/-- The target answers a request: a completion, or for a posted request an EVENT unless the status is OK (R234). -/
def Hub.respond (h : Hub) (rq : Request) (st : Nat) (est : Nat := 0) (lock salv : Bool := false)
    (data : List Byte := []) : Hub :=
  if rq.posted then (if st = stOK then h else h.event rq st (h.targetUnit rq) rq.op)
  else
    let h := if st = stRETRY then h.count F.BRG_RETRYCNT else h
    if h.isLocal rq then h.cplIn rq.tag rq.addr.node.toNat rq.addr.mem.toNat st est lock salv data
    else h.send (h.cplFrame rq st est lock salv data)

/-- A slot's lane access ends (R216, R217, R220, R225). -/
def Hub.slotEnd (h : Hub) (i : Fin 128) (st : Nat) (data : List Byte) : Hub :=
  let s := h.brg.slot[i]
  match s.rq with
  | none => h
  | some rq =>
    if s.st != .fetching then h
    else
      let h := h.modSlot i fun s => { s with data := data, status := st, g := h.gno.t, tick := h.now }
      if s.gone then (h.modSlot i fun s => { s with st := .ready }).slotToSalv i 2
      else if s.echo then
        if st != stOK then h.modSlot i fun _ => {}
        else if s.noServe then (h.modSlot i fun s => { s with st := .echoed }).slotToSalv i 0
        else h.modSlot i fun s => { s with st := .echoed }
      else if s.retried then h.modSlot i fun s => { s with st := .ready }
      else (h.modSlot i fun _ => {}).respond rq st 0 false false data

/-- The lane leaves UP, or is cut: device accesses at it and in its queue complete DOWN (R72, R220), and its lock is
broken (R233). -/
def Hub.cutDevice (h : Hub) (n : Fin 64) : Hub :=
  let dev := (h.lane n).dev
  let h := h.modLane n fun l => { l with dev := [], devRun := false }
  let h := dev.foldl (fun h d => match d.slot with
    | some i => h.slotEnd i stDOWN []
    | none => h.respond d.rq stDOWN) h
  h.lockBreak n

end Sys2Proof.Machine
end

