-- ==== Sys2Proof/Machine/RvIns.lean ====
section
/-! DEFINITION. The instructions of a reflex core: RV32IMC with Zicsr (10 R308). The spec names the instruction set; its
encodings are those of the RISC-V unprivileged and privileged architectures (log entry 34). -/

namespace Sys2Proof.Machine

/-- Arithmetic of OP, OP-IMM and their compressed forms. -/
inductive RvAlu where
  | add | sub | sll | slt | sltu | xor | srl | sra | or | and
  deriving DecidableEq, Repr

/-- Conditions of a branch. -/
inductive RvCond where
  | eq | ne | lt | ge | ltu | geu
  deriving DecidableEq, Repr

/-- Multiplication and division. -/
inductive RvMul where
  | mul | mulh | mulhsu | mulhu | div | divu | rem | remu
  deriving DecidableEq, Repr

/-- What a CSR instruction does with the CSR. -/
inductive RvCsr where
  | rw | rs | rc
  deriving DecidableEq, Repr

/-- A decoded instruction. Register numbers are 0-31; immediates are sign-extended words. -/
inductive Rv where
  | lui (rd : Fin 32) (imm : W32)
  | auipc (rd : Fin 32) (imm : W32)
  | jal (rd : Fin 32) (imm : W32)
  | jalr (rd rs : Fin 32) (imm : W32)
  | branch (c : RvCond) (rs1 rs2 : Fin 32) (imm : W32)
  /-- A load of 1, 2 or 4 bytes, sign-extended or not. -/
  | load (sz : Nat) (sx : Bool) (rd rs : Fin 32) (imm : W32)
  | store (sz : Nat) (rs1 rs2 : Fin 32) (imm : W32)
  | opImm (o : RvAlu) (rd rs : Fin 32) (imm : W32)
  | op (o : RvAlu) (rd rs1 rs2 : Fin 32)
  | mul (o : RvMul) (rd rs1 rs2 : Fin 32)
  | fence
  | ecall
  | ebreak
  | mret
  | wfi
  /-- A CSR access with a register (`false`) or the 5-bit immediate `rs` (`true`). -/
  | csr (o : RvCsr) (imm : Bool) (rd rs : Fin 32) (num : Nat)
  deriving DecidableEq, Repr

/-- A 5-bit field of a word as a register number. -/
def rvReg (w : W32) (lo : Nat) : Fin 32 := ⟨w.bits (lo + 4) lo % 32, Nat.mod_lt _ (by decide)⟩

/-- A field of `n` bits sign-extended to a word. -/
def sext (n v : Nat) : W32 := (BitVec.ofNat n v).signExtend 32

/-- The immediate of a B-type word. -/
def immB (w : W32) : W32 :=
  sext 13 (w.bits 31 31 * 4096 + w.bits 7 7 * 2048 + w.bits 30 25 * 32 + w.bits 11 8 * 2)
/-- The immediate of a J-type word. -/
def immJ (w : W32) : W32 :=
  sext 21 (w.bits 31 31 * 2 ^ 20 + w.bits 19 12 * 4096 + w.bits 20 20 * 2048 + w.bits 30 21 * 2)

/-- The operation a funct3 names, `alt` for the other of a pair. -/
def aluOf (f3 : Nat) (alt : Bool) : RvAlu :=
  match f3 with
  | 0 => if alt then .sub else .add
  | 1 => .sll
  | 2 => .slt
  | 3 => .sltu
  | 4 => .xor
  | 5 => if alt then .sra else .srl
  | 6 => .or
  | _ => .and

/-- The M operation a funct3 names. -/
def mulOf (f3 : Nat) : RvMul :=
  match f3 with
  | 0 => .mul
  | 1 => .mulh
  | 2 => .mulhsu
  | 3 => .mulhu
  | 4 => .div
  | 5 => .divu
  | 6 => .rem
  | _ => .remu

/-- A 32-bit instruction; `none` is illegal. -/
def rvDecode32 (w : W32) : Option Rv :=
  let rd := rvReg w 7
  let rs1 := rvReg w 15
  let rs2 := rvReg w 20
  let f3 := w.bits 14 12
  let f7 := w.bits 31 25
  let immI := sext 12 (w.bits 31 20)
  match w.bits 6 0 with
  | 0x37 => some (.lui rd (w &&& 0xFFFFF000#32))
  | 0x17 => some (.auipc rd (w &&& 0xFFFFF000#32))
  | 0x6F => some (.jal rd (immJ w))
  | 0x67 => if f3 = 0 then some (.jalr rd rs1 immI) else none
  | 0x63 => match f3 with
    | 0 => some (.branch .eq rs1 rs2 (immB w))
    | 1 => some (.branch .ne rs1 rs2 (immB w))
    | 4 => some (.branch .lt rs1 rs2 (immB w))
    | 5 => some (.branch .ge rs1 rs2 (immB w))
    | 6 => some (.branch .ltu rs1 rs2 (immB w))
    | 7 => some (.branch .geu rs1 rs2 (immB w))
    | _ => none
  | 0x03 => match f3 with
    | 0 => some (.load 1 true rd rs1 immI)
    | 1 => some (.load 2 true rd rs1 immI)
    | 2 => some (.load 4 false rd rs1 immI)
    | 4 => some (.load 1 false rd rs1 immI)
    | 5 => some (.load 2 false rd rs1 immI)
    | _ => none
  | 0x23 =>
    let imm := sext 12 (f7 * 32 + w.bits 11 7)
    match f3 with
    | 0 => some (.store 1 rs1 rs2 imm)
    | 1 => some (.store 2 rs1 rs2 imm)
    | 2 => some (.store 4 rs1 rs2 imm)
    | _ => none
  | 0x13 =>
    if f3 = 1 then (if f7 = 0 then some (.opImm .sll rd rs1 (BitVec.ofNat 32 rs2)) else none)
    else if f3 = 5 then
      (if f7 = 0 then some (.opImm .srl rd rs1 (BitVec.ofNat 32 rs2))
       else if f7 = 0x20 then some (.opImm .sra rd rs1 (BitVec.ofNat 32 rs2)) else none)
    else some (.opImm (aluOf f3 false) rd rs1 immI)
  | 0x33 =>
    if f7 = 0 then some (.op (aluOf f3 false) rd rs1 rs2)
    else if f7 = 0x20 ∧ (f3 = 0 ∨ f3 = 5) then some (.op (aluOf f3 true) rd rs1 rs2)
    else if f7 = 1 then some (.mul (mulOf f3) rd rs1 rs2)
    else none
  | 0x0F => if f3 = 0 then some .fence else none
  | 0x73 =>
    let num := w.bits 31 20
    match f3 with
    | 0 =>
      if w = 0x00000073#32 then some .ecall
      else if w = 0x00100073#32 then some .ebreak
      else if w = 0x30200073#32 then some .mret
      else if w = 0x10500073#32 then some .wfi
      else none
    | 1 => some (.csr .rw false rd rs1 num)
    | 2 => some (.csr .rs false rd rs1 num)
    | 3 => some (.csr .rc false rd rs1 num)
    | 5 => some (.csr .rw true rd rs1 num)
    | 6 => some (.csr .rs true rd rs1 num)
    | 7 => some (.csr .rc true rd rs1 num)
    | _ => none
  | _ => none

/-- A 3-bit register field of a compressed instruction: x8-x15. -/
def cReg (w : W32) (lo : Nat) : Fin 32 := ⟨8 + w.bits (lo + 2) lo % 8, by omega⟩

/-- The offset of C.J and C.JAL. -/
def immCJ (w : W32) : W32 :=
  sext 12 (w.bits 12 12 * 2048 + w.bits 8 8 * 1024 + w.bits 10 9 * 256 + w.bits 6 6 * 128 + w.bits 7 7 * 64 +
    w.bits 2 2 * 32 + w.bits 11 11 * 16 + w.bits 5 3 * 2)

/-- The offset of C.BEQZ and C.BNEZ. -/
def immCB (w : W32) : W32 :=
  sext 9 (w.bits 12 12 * 256 + w.bits 6 5 * 64 + w.bits 2 2 * 32 + w.bits 11 10 * 8 + w.bits 4 3 * 2)

/-- Quadrant 0 of the compressed instructions. -/
def rvDecodeC0 (w : W32) : Option Rv :=
  let rd := cReg w 2
  let rs := cReg w 7
  let off : W32 := BitVec.ofNat 32 (w.bits 5 5 * 64 + w.bits 12 10 * 8 + w.bits 6 6 * 4)
  match w.bits 15 13 with
  | 0 =>
    let imm := w.bits 10 7 * 64 + w.bits 12 11 * 16 + w.bits 5 5 * 8 + w.bits 6 6 * 4
    if imm = 0 then none else some (.opImm .add rd 2 (BitVec.ofNat 32 imm))
  | 2 => some (.load 4 false rd rs off)
  | 6 => some (.store 4 rs rd off)
  | _ => none

/-- Quadrant 1 of the compressed instructions. -/
def rvDecodeC1 (w : W32) : Option Rv :=
  let rd := rvReg w 7
  let imm := sext 6 (w.bits 12 12 * 32 + w.bits 6 2)
  let rc := cReg w 7
  let r2 := cReg w 2
  match w.bits 15 13 with
  | 0 => some (.opImm .add rd rd imm)
  | 1 => some (.jal 1 (immCJ w))
  | 2 => some (.opImm .add rd 0 imm)
  | 3 =>
    if rd = 2 then
      let v := w.bits 12 12 * 512 + w.bits 4 3 * 128 + w.bits 5 5 * 64 + w.bits 2 2 * 32 + w.bits 6 6 * 16
      if v = 0 then none else some (.opImm .add 2 2 (sext 10 v))
    else if imm = 0 then none
    else some (.lui rd (imm <<< 12))
  | 4 => match w.bits 11 10 with
    | 0 => if w.bit 12 then none else some (.opImm .srl rc rc (BitVec.ofNat 32 (w.bits 6 2)))
    | 1 => if w.bit 12 then none else some (.opImm .sra rc rc (BitVec.ofNat 32 (w.bits 6 2)))
    | 2 => some (.opImm .and rc rc imm)
    | _ =>
      if w.bit 12 then none
      else match w.bits 6 5 with
      | 0 => some (.op .sub rc rc r2)
      | 1 => some (.op .xor rc rc r2)
      | 2 => some (.op .or rc rc r2)
      | _ => some (.op .and rc rc r2)
  | 5 => some (.jal 0 (immCJ w))
  | 6 => some (.branch .eq rc 0 (immCB w))
  | _ => some (.branch .ne rc 0 (immCB w))

/-- Quadrant 2 of the compressed instructions. -/
def rvDecodeC2 (w : W32) : Option Rv :=
  let rd := rvReg w 7
  let r2 := rvReg w 2
  match w.bits 15 13 with
  | 0 => if w.bit 12 then none else some (.opImm .sll rd rd (BitVec.ofNat 32 (w.bits 6 2)))
  | 2 =>
    if rd = 0 then none
    else some (.load 4 false rd 2 (BitVec.ofNat 32 (w.bits 3 2 * 64 + w.bits 12 12 * 32 + w.bits 6 4 * 4)))
  | 4 =>
    if w.bit 12 then
      (if r2 ≠ 0 then some (.op .add rd rd r2) else if rd = 0 then some .ebreak else some (.jalr 1 rd 0))
    else if r2 ≠ 0 then some (.op .add rd 0 r2)
    else if rd = 0 then none else some (.jalr 0 rd 0)
  | 6 => some (.store 4 2 r2 (BitVec.ofNat 32 (w.bits 8 7 * 64 + w.bits 12 9 * 4)))
  | _ => none

/-- A 16-bit instruction in the low half of a word; `none` is illegal. -/
def rvDecode16 (w : W32) : Option Rv :=
  match w.bits 1 0 with
  | 0 => rvDecodeC0 w
  | 1 => rvDecodeC1 w
  | 2 => rvDecodeC2 w
  | _ => none

/-! ## What the operations compute -/

/-- The result of an arithmetic operation; shifts take the low five bits of `b`. -/
def RvAlu.eval (o : RvAlu) (a b : W32) : W32 :=
  match o with
  | .add => a + b
  | .sub => a - b
  | .sll => a <<< (b.toNat % 32)
  | .slt => if a.slt b then 1 else 0
  | .sltu => if a.ult b then 1 else 0
  | .xor => a ^^^ b
  | .srl => a >>> (b.toNat % 32)
  | .sra => a.sshiftRight (b.toNat % 32)
  | .or => a ||| b
  | .and => a &&& b

/-- Does a branch take? -/
def RvCond.eval (c : RvCond) (a b : W32) : Bool :=
  match c with
  | .eq => a == b
  | .ne => a != b
  | .lt => a.slt b
  | .ge => !a.slt b
  | .ltu => a.ult b
  | .geu => !a.ult b

/-- The result of a multiplication or division; division by 0 and the signed overflow as the M extension gives them. -/
def RvMul.eval (o : RvMul) (a b : W32) : W32 :=
  match o with
  | .mul => a * b
  | .mulh => BitVec.ofInt 32 (a.toInt * b.toInt / 2 ^ 32)
  | .mulhsu => BitVec.ofInt 32 (a.toInt * b.toNat / 2 ^ 32)
  | .mulhu => BitVec.ofNat 32 (a.toNat * b.toNat / 2 ^ 32)
  | .div => if b = 0 then 0xFFFFFFFF#32 else a.sdiv b
  | .divu => if b = 0 then 0xFFFFFFFF#32 else a / b
  | .rem => if b = 0 then a else a.srem b
  | .remu => if b = 0 then a else a % b

end Sys2Proof.Machine
end

