-- ==== Sys2Proof/Machine/CpuLow.lean ====
section
/-! DEFINITION. What surrounds a reflex core's instructions: tile buffer, PMP, traps, TCMs, event queue, core-local page,
start, stop and watchdog, and the lock registers (10 R308-R319, R322, R329-R335). -/

namespace Sys2Proof.Machine

/-- Does core n run? -/
def Hub.coreActive (h : Hub) (n : Fin 8) : Bool := h.bit (F.RFX_STAT_ACTIVE n)

/-- Does it execute instructions: active, and no stop under way (R333)? -/
def Hub.coreRuns (h : Hub) (n : Fin 8) : Bool := h.coreActive n && (h.core[n]).stopping.isNone

/-- The requester ID of core n (R308). -/
def coreReq (n : Fin 8) : BitVec 4 := BitVec.ofNat 4 (n + 1)

/-- Read an integer register; x0 reads 0. -/
def Core.rx (c : Core) (r : Fin 32) : W32 := if r = 0 then 0 else c.x[r]

/-- Write an integer register; a write of x0 is lost. -/
def Core.wx (c : Core) (r : Fin 32) (v : W32) : Core := if r = 0 then c else { c with x := c.x.set r v }

/-! ## Traps (RISC-V machine mode; log entry 34) -/

/-- `mstatus.MIE`. -/
def Core.mie (c : Core) : Bool := c.csr.mstatus.bit 3

/-- mstatus of its fields MIE, MPIE, MPP (0 or 3) and the bits a trap leaves alone. -/
def mstatusOf (old : W32) (mie mpie : Bool) (mpp : Nat) : W32 :=
  (old &&& ~~~ 0x1888#32) ||| BitVec.ofNat 32 (b2n mie * 8 + b2n mpie * 128 + mpp * 2048)

/-- Core n takes a trap: mepc, mcause, mtval and mstatus are saved, machine mode is entered and the pc goes to mtvec. -/
def Hub.trap (h : Hub) (n : Fin 8) (cause : Nat) (tval : W32) : Hub :=
  h.modCore n fun c =>
    let base := c.csr.mtvec &&& ~~~ 3#32
    let intr := decide (2 ^ 31 ≤ cause)
    { c with
      csr := { c.csr with
        mepc := c.pc, mcause := BitVec.ofNat 32 cause, mtval := tval,
        mstatus := mstatusOf c.csr.mstatus false c.mie (if c.user then 0 else 3) }
      user := false
      wfi := false
      pc := if intr && c.csr.mtvec.bit 0 then base + BitVec.ofNat 32 (4 * (cause % 2 ^ 31)) else base }

/-- MRET. -/
def Core.mret (c : Core) : Core :=
  let ms := c.csr.mstatus
  let toUser := ms.bits 12 11 = 0
  let ms' := mstatusOf ms (ms.bit 7) true 0
  { c with
    pc := c.csr.mepc
    user := toUser
    csr := { c.csr with mstatus := if toUser then ms' &&& ~~~ 0x20000#32 else ms' } }

/-! ## PMP (R308) -/

/-- Configuration byte and address register of PMP entry i. -/
def Core.pmpCfg (c : Core) (i : Fin 8) : Byte := c.csr.pmpcfg[i]

/-- The byte range [lo, hi) of PMP entry i: TOR, NA4 or NAPOT; an entry that is OFF has none. -/
def Core.pmpRange (c : Core) (i : Fin 8) : Option (Nat × Nat) :=
  let a := (c.csr.pmpaddr[i]).toNat
  match ((c.pmpCfg i).extractLsb' 3 2).toNat with
  | 0 => none
  | 1 => some (if h : 0 < i.val then ((c.csr.pmpaddr[i.val - 1]'(by omega)).toNat * 4) else 0, a * 4)
  | 2 => some (a * 4, a * 4 + 4)
  | _ =>
    let k := ((List.range 32).find? fun j => !a.testBit j).getD 32
    some (a / 2 ^ k * 2 ^ k * 4, (a / 2 ^ k * 2 ^ k + 2 ^ (k + 1)) * 4)

/-- May an access of `len` bytes go ahead: `k` 0 read, 1 write, 2 execute? The lowest entry that touches any byte decides, and must
hold all of them; machine mode is bound by locked entries only. -/
def Core.pmpOk (c : Core) (user : Bool) (a len k : Nat) : Bool :=
  match (List.finRange 8).find? fun (i : Fin 8) =>
      (c.pmpRange i).any fun r => decide (r.1 < a + len) && decide (a < r.2) && decide (r.1 < r.2) with
  | none => !user
  | some i =>
    let whole := (c.pmpRange i).any fun r => decide (r.1 ≤ a) && decide (a + len ≤ r.2)
    let lock := (c.pmpCfg i).getLsbD 7
    whole && ((!user && !lock) || (c.pmpCfg i).getLsbD k)

/-! ## The tile buffer (R311-R315) -/

/-- The line that holds a tile. -/
def Core.line (c : Core) (t : Nat) : Option TLine := c.buf.find? fun l => l.tile == t

/-- A line becomes the most recently used. -/
def Core.front (c : Core) (l : TLine) : Core := { c with buf := l :: c.buf.filter fun x => x.tile != l.tile }

/-- A line leaves the buffer. -/
def Core.drop (c : Core) (t : Nat) : Core := { c with buf := c.buf.filter fun x => x.tile != t }

/-- May the buffer hold a tile: TILE_IMG and TILE_CMP only (Table 10.1)? -/
def Hub.coreTile (h : Hub) (t : Nat) : Bool := h.inPart 0 t || h.inPart 1 t

/-- The runs of dirty bytes of a line, with their offsets. -/
def TLine.runs (l : TLine) : List (Nat × List Byte) :=
  (List.range 256).foldr (fun i acc =>
    if l.dirty.getLsbD i then match acc with
      | (a, bs) :: r => if a = i + 1 then (i, l.data.getD i 0 :: bs) :: r else (i, [l.data.getD i 0]) :: acc
      | [] => [(i, [l.data.getD i 0])]
    else acc) []

/-- A dirty line is written back and stays valid and clean (R313). The runs of one partial write change the check as one
write does, since the check is linear (R175). -/
def Hub.writeBack (h : Hub) (n : Fin 8) (t : Nat) : Hub :=
  match (h.core[n]).line t with
  | none => h
  | some l =>
    let h := l.runs.foldl (fun h (r : Nat × List Byte) => h.imgWrite (t * 256 + r.1) r.2) h
    h.modCore n fun c => { c with buf := c.buf.map fun x => if x.tile = t then { x with dirty := 0 } else x }

/-- Room for a new line: the least recently used one of a full buffer is written back and leaves (R311). -/
def Hub.evict (h : Hub) (n : Fin 8) : Hub :=
  if (h.core[n]).buf.length < 64 then h
  else match (h.core[n]).buf.getLast? with
  | none => h
  | some l => (h.writeBack n l.tile).modCore n fun c => c.drop l.tile

/-- The line of a tile is made ready: a hit is made the most recent; a miss fills and verifies the tile (R311, R312). -/
def Hub.fill (h : Hub) (n : Fin 8) (t : Nat) : Hub × Bool :=
  match (h.core[n]).line t with
  | some l => (h.modCore n fun c => c.front l, true)
  | none =>
    let r := (h.evict n).verify t 4
    if r.2 then (r.1.modCore n fun c => c.front { tile := t, data := r.1.tl.bytes t }, true) else (r.1, false)

/-- Tile-buffer operation `code` on one tile (R315). -/
def Hub.tbopLine (h : Hub) (n : Fin 8) (code : Nat) (t : Nat) : Hub :=
  if code = 3 then
    let h := if ((h.core[n]).line t).isSome then h else h.evict n
    h.modCore n fun c => c.front { tile := t, data := List.replicate 256 0, dirty := BitVec.allOnes 256 }
  else if ((h.core[n]).line t).isNone then h
  else if code = 0 then h.writeBack n t
  else if code = 1 then (h.writeBack n t).modCore n fun c => c.drop t
  else h.modCore n fun c => c.drop t

/-- The tile a tile-window address names. -/
def tileOfAddr (a : Nat) : Option Nat := if 0x20000000 ≤ a ∧ a < 0x20400000 then some ((a - 0x20000000) / 256) else none

/-- A write to TBOP (R315); `none` is a store access fault. -/
def Hub.tbop (h : Hub) (n : Fin 8) (code : Nat) (v : W32) : Option Hub :=
  let a := v.toNat / 8 * 8
  let c := h.core[n]
  if v.bit 2 then
    some ((c.buf.map fun l => l.tile).foldl (fun h t => h.tbopLine n (if code = 3 then 1 else code) t) h)
  else if c.user && !c.pmpOk true a 4 1 then none
  else match tileOfAddr a with
  | none => none
  | some t => if code = 3 && !h.coreTile t then none else some (h.tbopLine n code t)

/-- A TBOP write as a command of its own: the core that runs takes the trap of a write that faults. -/
def Hub.tbopCmd (h : Hub) (n : Fin 8) (code : Nat) (v : W32) : Hub :=
  if !h.coreRuns n then h else (h.tbop n code v).getD (h.trap n 7 v)

/-- TILE_BUFFER_FILL (R311, R312). -/
def execTileBufferFill (n : Fin 8) (tile : Fin 16384) (s : State) : Host.Outcome State Fault Refusal :=
  s.goes (
    let h := s.hub
    let tv : W32 := BitVec.ofNat 32 (0x20000000 + tile * 256)
    if !h.coreRuns n then h
    else if !h.coreTile tile then h.trap n 5 tv
    else
      let r := h.fill n tile
      if r.2 then r.1 else r.1.trap n 5 tv)

/-- TBOP_WRITE_BACK (R315). -/
def execTbopWriteBack (n : Fin 8) (addr : W32) (s : State) : Host.Outcome State Fault Refusal :=
  s.goes (s.hub.tbopCmd n 0 addr)

/-- TBOP_WRITE_BACK_INVALIDATE (R315). -/
def execTbopWriteBackInvalidate (n : Fin 8) (addr : W32) (s : State) : Host.Outcome State Fault Refusal :=
  s.goes (s.hub.tbopCmd n 1 addr)

/-- TBOP_INVALIDATE (R315). -/
def execTbopInvalidate (n : Fin 8) (addr : W32) (s : State) : Host.Outcome State Fault Refusal :=
  s.goes (s.hub.tbopCmd n 2 addr)

/-- TBOP_ALLOCATE_ZERO (R315). -/
def execTbopAllocateZero (n : Fin 8) (addr : W32) (s : State) : Host.Outcome State Fault Refusal :=
  s.goes (s.hub.tbopCmd n 3 addr)

/-! ## Stop and start (R332-R334) -/

/-- A stop begins: RUN reads 0 and no further instruction is executed (R333, log entry 35). -/
def Hub.coreHalt (h : Hub) (n : Fin 8) (cause : Nat) : Hub :=
  let h := h.off (F.RFX_CTL_RUN n)
  if h.coreRuns n then h.modCore n fun c => { c with stopping := some cause } else h

/-- The core starts (R332). -/
def Hub.coreBegin (h : Hub) (n : Fin 8) : Hub :=
  (h.on (F.RFX_STAT_ACTIVE n)).modCore n fun c =>
    { c with
      x := Vector.replicate 32 0
      pc := BitVec.ofNat 32 (h.fld (F.RFX_ENTRY_ADDR n) * 2)
      user := false
      csr := {}
      buf := []
      evq := []
      kick := h.now
      wdt := h.fld (F.RFX_WDT_PERIOD n)
      stopping := none
      wfi := false }

/-- A write of 1 to RUN (R332); during a stop the start follows it. -/
def Hub.coreRun (h : Hub) (n : Fin 8) : Hub :=
  if h.bit (F.RFX_CTL_RUN n) then h
  else
    let h := h.on (F.RFX_CTL_RUN n)
    if h.coreActive n then h else h.coreBegin n

/-- A write of 0 to RUN (R333). -/
def Hub.coreUnrun (h : Hub) (n : Fin 8) : Hub := if h.bit (F.RFX_CTL_RUN n) then h.coreHalt n 1 else h

/-- A lock is released without its owner's write (R331). -/
def Hub.semBreak (h : Hub) (i : Fin 32) : Hub :=
  ({ h with sem := h.sem.set i none }.count F.SEM_BRKCNT).raise 1 Block.sem.unit causeLOCKBRK i

/-- Release every lock of a requester. -/
def Hub.semBreakAll (h : Hub) (r : Nat) : Hub :=
  (List.finRange 32).foldl (fun h (i : Fin 32) => if h.sem[i] = some r then h.semBreak i else h) h

/-- What a stop does before ACTIVE reads 0 (R333). -/
def Hub.coreEnd (h : Hub) (n : Fin 8) (cause : Nat) : Hub :=
  let h := ((h.core[n]).buf.map fun l => l.tile).foldl (fun h t => h.writeBack n t) h
  let h := h.semBreakAll (n + 1)
  let h := h.modCore n fun c =>
    { c with
      stopping := none, wfi := false
      slot := c.slot.map fun s => if s.busy then { s with discard := true } else s }
  ((h.flag (.rfx n) (F.RFX_FLAG_STOPPED n)).put (F.RFX_STAT_CAUSE n) cause).off (F.RFX_STAT_ACTIVE n)

/-- The stop completes; a RUN written meanwhile, or WDT_AUTO, starts the core again (R333, R334). -/
def Hub.coreStopped (h : Hub) (n : Fin 8) : Hub :=
  match (h.core[n]).stopping with
  | none => h
  | some k =>
    if !h.coreActive n then h
    else
      let h := h.coreEnd n k
      if h.bit (F.RFX_CTL_RUN n) then h.coreBegin n
      else if k = 2 && h.bit (F.RFX_CTL_WDT_AUTO n) then
        ((h.on (F.RFX_CTL_RUN n)).count (F.RFX_RESTARTCNT n)).coreBegin n
      else h

/-- An uncorrectable word stops the core (R310). -/
def Hub.eccStop (h : Hub) (n : Fin 8) (a : Nat) : Hub :=
  ((h.flag (.rfx n) (F.RFX_FLAG_ECC_UNC n)).raise 2 (rfxUnit n) causeECCUNC a).coreHalt n 3

/-- A correctable word is corrected, counted and logged (R310). -/
def Hub.eccFix (h : Hub) (n : Fin 8) (a : Nat) : Hub :=
  ((h.count (F.RFX_ECCCNT n)).flag (.rfx n) (F.RFX_FLAG_ECC_COR n)).raise 1 (rfxUnit n) causeECCCOR a

/-- The watchdog restarts (R334). -/
def Hub.wdKick (h : Hub) (n : Fin 8) : Hub :=
  h.modCore n fun c => { c with kick := h.now, wdt := h.fld (F.RFX_WDT_PERIOD n) }

/-- The watchdog expires when its period has passed since the last kick (R334). -/
def Hub.wdExpire (h : Hub) (n : Fin 8) : Hub :=
  let c := h.core[n]
  if !h.coreRuns n || c.wdt == 0 || decide (h.now < c.kick + us c.wdt) then h
  else ((h.flag (.rfx n) (F.RFX_FLAG_WDT n)).raise 2 (rfxUnit n) causeSTOP).coreHalt n 2

/-- CORE_START (R332). -/
def execCoreStart (a : Access) (n : Fin 8) (s : State) : Host.Outcome State Fault Refusal :=
  s.goes (s.hub.cmdWrite a (rfxBase n) fun h => some (h.coreRun n))

/-- CORE_STOP (R333). -/
def execCoreStop (a : Access) (n : Fin 8) (s : State) : Host.Outcome State Fault Refusal :=
  s.goes (s.hub.cmdWrite a (rfxBase n) fun h => some (h.coreUnrun n))

/-- CORE_STOPPED (R333). -/
def execCoreStopped (n : Fin 8) (s : State) : Host.Outcome State Fault Refusal := s.goes (s.hub.coreStopped n)

/-- WATCHDOG_KICK (R334). -/
def execWatchdogKick (n : Fin 8) (s : State) : Host.Outcome State Fault Refusal :=
  s.goes (if s.hub.coreRuns n then s.hub.wdKick n else s.hub)

/-- WATCHDOG_EXPIRE (R334). -/
def execWatchdogExpire (n : Fin 8) (s : State) : Host.Outcome State Fault Refusal := s.goes (s.hub.wdExpire n)

/-! ## TCM access (R335) -/

/-- Byte address TCMADDR names. -/
def Hub.tcmAt (h : Hub) (n : Fin 8) : Nat := h.fld (F.RFX_TCMADDR_WORD n) * 4

/-- TCMADDR.WORD advances. -/
def Hub.tcmNext (h : Hub) (n : Fin 8) : Hub := h.put (F.RFX_TCMADDR_WORD n) (h.fld (F.RFX_TCMADDR_WORD n) + 1)

/-- A read of TCMDATA. -/
def Hub.tcmRead (h : Hub) (n : Fin 8) : Hub × W32 :=
  let c := h.core[n]
  let m := if h.bit (F.RFX_TCMADDR_DTCM n) then c.dtcm else c.itcm
  (h.tcmNext n, leWord (bytesAt m (h.tcmAt n) 4))

/-- A write of TCMDATA: a change of an ITCM word is refused while the core is active (R466). -/
def Hub.tcmWrite (h : Hub) (n : Fin 8) (v : W32) : Option Hub :=
  let a := h.tcmAt n
  if h.bit (F.RFX_TCMADDR_DTCM n) then
    some ((h.modCore n fun c => { c with dtcm := writeBytes c.dtcm a (leBytes v), decc := c.decc.set 0 (a / 4) 0 }).tcmNext n)
  else if h.coreActive n then (if leWord (bytesAt (h.core[n]).itcm a 4) = v then some (h.tcmNext n) else none)
  else some ((h.modCore n fun c => { c with itcm := writeBytes c.itcm a (leBytes v), iecc := c.iecc.set 0 (a / 4) 0 }).tcmNext n)

/-- TCM_DATA_ACCESS (R335). -/
def execTcmDataAccess (a : Access) (n : Fin 8) (wr : Option W32) (s : State) : Host.Outcome State Fault Refusal :=
  s.goes (match wr with
    | some v => s.hub.cmdWrite a (rfxBase n + 0x18) fun h => h.tcmWrite n v
    | none => s.hub.cmdRead a (rfxBase n + 0x18) fun h => some ((h.tcmRead n).1, (h.tcmRead n).2.toNat))

/-! ## Events (R316-R319) -/

/-- A read of LOC_EVPOP (R319). -/
def Hub.evPop (h : Hub) (n : Fin 8) : Hub × W32 :=
  match (h.core[n]).evq with
  | [] => (h, 0)
  | e :: r => (h.modCore n fun c => { c with evq := r, evw1 := e.w1, evw2 := e.w2, evw3 := e.w3 }, e.typ ++ 0#4 ++ e.unit)

/-- EVENT_POP (R319). -/
def execEventPop (n : Fin 8) (s : State) : Host.Outcome State Fault Refusal :=
  s.goes (if s.hub.coreRuns n then (s.hub.evPop n).1 else s.hub)

/-- A write of RFXn_EVPOST (Table 10.3). -/
def Hub.evPost (h : Hub) (a : Access) (n : Fin 8) (code : Nat) : Hub :=
  if h.bit (F.RFX_EVEN_SOFT n) then
    h.evPush n (mkEvent 8 (h.unit (rfxUnit n)) (BitVec.ofNat 32 (a.req.toNat * 2 ^ 16 + code % 2 ^ 16)) h.gno.t)
  else h

/-- EVENT_POST (R317). -/
def execEventPost (a : Access) (n : Fin 8) (code : BitVec 16) (s : State) : Host.Outcome State Fault Refusal :=
  s.goes (s.hub.cmdWrite a (rfxBase n + 0x24) fun h => some (h.evPost a n code.toNat))

/-! ## Issue slots (R320, R322) -/

/-- ISSUE_COMPLETION (R322). -/
def execIssueCompletion (n : Fin 8) (d : Fin 4) (st : BitVec 4) (salvaged : Bool) (data : List Byte) (s : State) :
    Host.Outcome State Fault Refusal := 
  let r := s.hub.stGood st.toNat 0 (BitVec.ofNat 4 (1 + n))
  s.goes (r.1.coreSlotDone n d r.2 salvaged data)

/-- A write of 1 to DONE frees the slot (R322). -/
def Hub.slotFree (h : Hub) (n : Fin 8) (d : Fin 4) : Hub :=
  if ((h.core[n]).slot[d]).done then h.modCore n fun c => { c with slot := c.slot.set d {} } else h

/-- ISSUE_SLOT_FREE (R322). -/
def execIssueSlotFree (n : Fin 8) (d : Fin 4) (s : State) : Host.Outcome State Fault Refusal :=
  s.goes (if s.hub.coreRuns n then s.hub.slotFree n d else s.hub)

/-- Is a slot free? -/
def IssSlot.free (s : IssSlot) : Bool := !s.busy && !s.done

/-- A slot as LOC_ISS_SLOTd shows it. -/
def IssSlot.word (s : IssSlot) : W32 :=
  BitVec.ofNat 32 (b2n s.busy * 2 ^ 31 + b2n s.done * 2 ^ 30 + b2n s.salv * 2 ^ 29 + s.bytes % 8192 * 2 ^ 16 + s.status % 16)

/-- A read of the core-local page (Table 10.10). -/
def Hub.locRead (h : Hub) (n : Fin 8) (o : Nat) : Hub × W32 :=
  let c := h.core[n]
  if o = 0 then h.evPop n
  else
    (h, match o with
      | 0x004 => c.evw1
      | 0x008 => c.evw2
      | 0x00C => c.evw3
      | 0x100 => c.iss.addrl
      | 0x104 => c.iss.addrh
      | 0x108 => c.iss.ctl
      | 0x10C => c.iss.timel
      | 0x110 => c.iss.timeh
      | 0x114 => c.iss.dptr
      | 0x118 => c.iss.rptr
      | 0x120 => BitVec.ofNat 32 (c.iss.last * 16 +
          ((List.finRange 4).foldl (fun m (d : Fin 4) => if (c.slot[d]).free then m + 2 ^ d.val else m) 0))
      | 0x130 => (c.slot[0]).word
      | 0x134 => (c.slot[1]).word
      | 0x138 => (c.slot[2]).word
      | 0x13C => (c.slot[3]).word
      | _ => 0)

/-- A write of the core-local page but for LOC_ISS_GO. -/
def Hub.locWrite (h : Hub) (n : Fin 8) (o : Nat) (v : W32) : Hub :=
  let iss := fun (g : IssReg → IssReg) => h.modCore n fun c => { c with iss := g c.iss }
  match o with
  | 0x030 => if v.bit 0 then h.wdKick n else h
  | 0x100 => iss fun r => { r with addrl := v }
  | 0x104 => iss fun r => { r with addrh := v &&& 0xFFFF#32 }
  | 0x108 => iss fun r => { r with ctl := v &&& 0xFF1F0FFF#32 }
  | 0x10C => iss fun r => { r with timel := v }
  | 0x110 => iss fun r => { r with timeh := v }
  | 0x114 => iss fun r => { r with dptr := v }
  | 0x118 => iss fun r => { r with rptr := v }
  | 0x130 => if v.bit 30 then h.slotFree n 0 else h
  | 0x134 => if v.bit 30 then h.slotFree n 1 else h
  | 0x138 => if v.bit 30 then h.slotFree n 2 else h
  | 0x13C => if v.bit 30 then h.slotFree n 3 else h
  | _ => h

/-! ## Lock registers (R329-R331) -/

/-- A read of SEM_LOCKi: requester 13 looks, every other acquires a free lock (R329). -/
def Hub.semRead (h : Hub) (a : Access) (i : Fin 32) : Hub × Nat :=
  match h.sem[i] with
  | none => if a.req = 13 then (h, 0) else ({ h with sem := h.sem.set i (some a.req.toNat) }, a.req.toNat)
  | some r => (h, if r = a.req.toNat then r else 2 ^ 31 + r)

/-- A write of SEM_LOCKi (R329); a release that a read of the same cycle has met has had its effect (R330). -/
def Hub.semWrite (h : Hub) (a : Access) (i : Fin 32) (v : W32) : Hub :=
  if h.semRel[i] = some (a.req.toNat, h.now) ∧ v.bits 3 0 = 0 then { h with semRel := h.semRel.set i none }
  else if h.sem[i] = some a.req.toNat then
    (if v.bits 3 0 = 0 then { h with sem := h.sem.set i none } else h)
  else h.raise 1 Block.sem.unit causeACCESS (0x38000 + 4 * i) a.req a.node

/-- A write of SEM_FORCE (R331). -/
def Hub.semForce (h : Hub) (i : Fin 32) : Hub := if (h.sem[i]).isSome then h.semBreak i else h

/-- Does the register router let an access to a lock through? -/
def Hub.semMay (h : Hub) (a : Access) (i : Fin 32) (wr : Bool) : Bool :=
  match h.check a (0x38000 + 4 * i) wr with
  | .ok _ _ => true
  | _ => false

/-- The requesters whose reads of a lock come in the present cycle, but requester 13, which only looks (R330). -/
def State.semReaders (s : State) (i : Fin 32) : List Nat :=
  s.pending.filterMap fun c => match c with
    | .semLockRead a j => if j = i ∧ a.req ≠ 13 ∧ s.hub.semMay a i false then some a.req.toNat else none
    | _ => none

/-- Does the owner of a lock release it in the present cycle (R330)? -/
def State.semFreed (s : State) (i : Fin 32) (r : Nat) : Bool :=
  s.pending.any fun c => match c with
    | .semLockRelease a j v => j == i && a.req.toNat == r && v.bits 3 0 == 0 && s.hub.semMay a i true
    | _ => false

/-- A read of SEM_LOCKi among those of its cycle: a release of the cycle takes effect first, and the lowest requester acquires
a free lock (R330). -/
def State.semTake (s : State) (a : Access) (i : Fin 32) : Hub :=
  let h := s.hub
  let h : Hub := match h.sem[i] with
    | some r => if r ≠ a.req.toNat ∧ s.semFreed i r then
        { h with sem := h.sem.set i none, semRel := h.semRel.set i (some (r, h.now)) } else h
    | none => h
  let low := (s.semReaders i).foldl min (if a.req = 13 then 16 else a.req.toNat)
  if (h.sem[i]).isNone ∧ low < 16 ∧ low ≠ a.req.toNat then { h with sem := h.sem.set i (some low) } else h

/-- SEM_LOCK_READ (R329, R330). -/
def execSemLockRead (a : Access) (i : Fin 32) (s : State) : Host.Outcome State Fault Refusal :=
  let h := if s.hub.semMay a i false then s.semTake a i else s.hub
  s.goes (h.cmdRead a (0x38000 + 4 * i) fun h => some (h.semRead a i))

/-- SEM_LOCK_RELEASE (R329). -/
def execSemLockRelease (a : Access) (i : Fin 32) (v : W32) (s : State) : Host.Outcome State Fault Refusal :=
  s.goes (s.hub.cmdWrite a (0x38000 + 4 * i) fun h => some (h.semWrite a i v))

/-- SEM_FORCE (R331). -/
def execSemForce (a : Access) (i : Fin 32) (s : State) : Host.Outcome State Fault Refusal :=
  s.goes (s.hub.cmdWrite a 0x38080 fun h => some (h.semForce i))

end Sys2Proof.Machine
end

