-- ==== Sys2Proof/Machine/CanLow.lean ====
section
/-! DEFINITION. CAN FD controllers: message objects, reception, transmission, error counting, sleep, tunnelling, and
what a lane's coming and going does to its controller (04 R119-R142). -/

namespace Sys2Proof.Machine

/-- Controller states (Table 4.2). -/
def canOFF : Nat := 0
def canWAIT : Nat := 1
def canINTEGRATE : Nat := 2
def canIDLE : Nat := 3
def canRECEIVE : Nat := 4
def canTRANSMIT : Nat := 5
def canBUSOFF : Nat := 6
def canSLEEPE : Nat := 7
def canSLEEPF : Nat := 8
def canSTOPPED : Nat := 9

/-- Change controller k. -/
def Hub.modCan (h : Hub) (k : Fin 16) (g : Can → Can) : Hub := { h with can := h.can.set k (g h.can[k]) }
/-- STAT.STATE. -/
def Hub.canSt (h : Hub) (k : Fin 16) : Nat := h.fld (F.CAN_STAT_STATE k)
/-- Enter a state. -/
def Hub.canTo (h : Hub) (k : Fin 16) (s : Nat) : Hub := h.put (F.CAN_STAT_STATE k) s
/-- Set a flag of controller k. -/
def Hub.canFlag (h : Hub) (k : Fin 16) (f : Fld) : Hub := h.flag (.can k) f
/-- The cluster of a controller. -/
def canCluster (k : Fin 16) : Fin 8 := ⟨k.val / 2, by omega⟩

/-- Is a pin taken from the lane's function: its MODE is other than ROLE (R39)? -/
def Hub.taken (h : Hub) (n : Fin 64) (p : Fin 3) : Bool := h.fld (F.LN_PIN_MODE n p) != 0

/-- The lane a controller is attached to (R119, R42). -/
def Hub.canLane (h : Hub) (k : Fin 16) : Option (Fin 64) :=
  (List.finRange 64).find? fun n => n.val / 8 == k.val / 2 && h.fld (F.LN_FUNC_FUNC n) == 8 &&
    h.fld (F.LN_FUNC_CANSEL n) == k.val % 2

/-- The controller a CAN lane is attached to. -/
def Hub.laneCan (h : Hub) (n : Fin 64) : Fin 16 := ⟨n.val / 8 * 2 + h.fld (F.LN_FUNC_CANSEL n) % 2, by omega⟩

/-- The level of pin C, STB: the standby level, which STBPOL gives, in SLEEP_EDGE alone (R137, R138, Table 4.2). -/
def Hub.canStb (h : Hub) (k : Fin 16) : Bool := (h.canSt k == canSLEEPE) != h.bit (F.CAN_CTL_STBPOL k)

/-- Is TXD held recessive: in loopback, with LISTEN set or acting as set in a member that does not drive (R349), and in
every state that neither sends nor acknowledges (R120, R122, R134, R135, Table 4.2)? -/
def Hub.canMute (h : Hub) (k : Fin 16) : Bool :=
  h.bit (F.CAN_CTL_LOOP k) || h.bit (F.CAN_CTL_LISTEN k) || !h.drives || !(h.canSt k == canRECEIVE || h.canSt k == canTRANSMIT)

/-- Is a pin of the controller's lane taken from it (R39)? -/
def Hub.canTaken (h : Hub) (k : Fin 16) (p : Fin 3) : Bool := (h.canLane k).any fun n => h.taken n p

/-- Does nothing of the bus reach the receiver: TXD feeds it in loopback (Table 4.2), or RXD is taken (R39)? -/
def Hub.canDeaf (h : Hub) (k : Fin 16) : Bool := h.bit (F.CAN_CTL_LOOP k) || h.canTaken k 1

/-! ## Message RAM (R126) -/

/-- Word w of object j. -/
def Can.word (c : Can) (j : Fin 128) (w : Nat) : W32 := c.ram.get 0 (j.val * 20 + w)
/-- Write word w of object j with good parity. -/
def Can.setWord (c : Can) (j : Fin 128) (w : Nat) (v : W32) : Can :=
  { c with ram := c.ram.set 0 (j.val * 20 + w) v, bad := c.bad.filter (· != j.val * 20 + w) }
/-- W3 as a reader sees it: NEWDAT mirrors the bitmap (Table 4.4). -/
def Can.readWord (c : Can) (i : Nat) : W32 :=
  let v := c.ram.get 0 i
  if i % 20 = 3 then (v &&& 0x7FFFFFFF#32) ||| (if c.newdat.getLsbD (i / 20) then 0x80000000#32 else 0) else v
/-- The bits a word of an object holds: its reserved bits read 0 and are not written (Table 4.4, 17 R465). -/
def ramMask (w : Nat) : W32 := if w = 0 then 0xFE0F0000#32 else if w = 1 ∨ w = 2 then 0x1FFFFFFF#32 else 0xFFFFFFFF#32
/-- The first bad word among some of an object, by its number in the message RAM. -/
def Can.firstBad (c : Can) (j : Fin 128) (ws : List Nat) : Option Nat := (ws.map (j.val * 20 + ·)).find? c.bad.contains

/-- Bytes of a DLC (R126). -/
def dlcLen (fd : Bool) (d : Nat) : Nat :=
  if d ≤ 8 then d else if !fd then 8
  else if d = 9 then 12 else if d = 10 then 16 else if d = 11 then 20 else if d = 12 then 24
  else if d = 13 then 32 else if d = 14 then 48 else 64

/-- Data words of a byte string, missing bytes of the last word keeping their old contents (R126, R128). -/
def Can.setData (c : Can) (j : Fin 128) (bs : List Byte) : Can :=
  (List.range ((bs.length + 3) / 4)).foldl (fun c i =>
    let old := leBytes (c.word j (4 + i))
    let new := bs.drop (4 * i)
    c.setWord j (4 + i) (leWord ((List.range 4).map fun b => (new[b]?).getD (old.getD b 0)))) c

/-- The data bytes of an object. -/
def Can.dataOf (c : Can) (j : Fin 128) (n : Nat) : List Byte :=
  ((List.range 16).flatMap fun i => leBytes (c.word j (4 + i))).take n

/-! ## Ends of requests (R130) -/

/-- A request ends with a TXRES code. -/
def Hub.canEnd (h : Hub) (k : Fin 16) (j : Fin 128) (res : Nat) : Hub :=
  let h := (h.modCan k fun c =>
    let w3 := c.word j 3
    let c := c.setWord j 3 ((w3 &&& ~~~ (0x38000000#32)) ||| BitVec.ofNat 32 (res * 2 ^ 27))
    { c with txreq := c.txreq &&& ~~~ (BitVec.twoPow 128 j), cancel := c.cancel &&& ~~~ (BitVec.twoPow 128 j),
             txdone := c.txdone ||| BitVec.twoPow 128 j }).mark (F.CAN_TXDONE k j).key 1
  h.canFlag k (F.CAN_FLAG_TX k)

/-- Every pending request ends CANCELLED. -/
def Hub.canCancelAll (h : Hub) (k : Fin 16) : Hub :=
  let h := (List.finRange 128).foldl (fun h (j : Fin 128) => if (h.can[k]).txreq.getLsbD j then h.canEnd k j 2 else h) h
  h.modCan k fun c => { c with att := none }

/-- The controller enters OFF (R122). -/
def Hub.canOff (h : Hub) (k : Fin 16) : Hub :=
  ((h.canCancelAll k).modCan k fun c => { c with closing := false }).canTo k canOFF

/-- A message RAM parity failure stops the controller, and a disable that waited takes effect (R135, R122). -/
def Hub.canStop (h : Hub) (k : Fin 16) (word : Nat) : Hub :=
  let h := (h.canCancelAll k).canTo k canSTOPPED
  let h := (h.modCan k fun c => { c with needInit := true }).canFlag k (F.CAN_FLAG_RAM_PARITY k)
  let h := h.raise 2 (canUnit k) causePARITY (0x1000 + 4 * word)
  if (h.can[k]).closing then h.canOff k else h

/-- The bus is free again after a frame or error frame: IDLE, or OFF when a disable waits (R122). -/
def Hub.canIdle (h : Hub) (k : Fin 16) : Hub := if (h.can[k]).closing then h.canOff k else h.canTo k canIDLE

/-- The attempt in progress fails without winning the bus to its end (R131, R133): `one` is the one-shot code. -/
def Hub.canFail (h : Hub) (k : Fin 16) (one : Nat) : Hub :=
  match (h.can[k]).att with
  | none => h
  | some a =>
    let h := h.modCan k fun c => { c with att := none }
    if a.cancelled then h.canEnd k a.obj 2
    else if ((h.can[k]).word a.obj 0).getLsbD 26 then h.canEnd k a.obj one
    else h

/-! ## The lane's part (R120) -/

/-- Where an enabled controller starts on the bus: waiting for its lane, in bus-off it had not left (log entry 15), or
integrating. -/
def Hub.canJoin (h : Hub) (k : Fin 16) : Hub :=
  let up := (h.canLane k).any fun n => h.fld (F.LN_STAT_STATE n) == 2
  if !up then h.canTo k canWAIT
  else if h.fld (F.CAN_STAT_ERRST k) = 2 then (h.put (F.CAN_STAT_BOREC k) 0).canTo k canBUSOFF
  else h.canTo k canINTEGRATE

/-- A CAN lane has left UP: the attempt in progress counts as failed by error, and the controller waits. -/
def Hub.canLaneDown (h : Hub) (n : Fin 64) : Hub :=
  if h.fld (F.LN_FUNC_FUNC n) ≠ 8 then h
  else
    let k := h.laneCan n
    let s := h.canSt k
    if s = canOFF ∨ s = canSTOPPED then h
    else
      let h := h.canFail k 5
      if (h.can[k]).closing then h.canOff k else h.canTo k canWAIT

/-- A CAN lane has entered UP. -/
def Hub.canLaneUp (h : Hub) (n : Fin 64) : Hub :=
  if h.fld (F.LN_FUNC_FUNC n) ≠ 8 then h
  else if h.canSt (h.laneCan n) = canWAIT then h.canJoin (h.laneCan n) else h

/-! ## Enable, disable, RAM clear (R122, R123, R125) -/

/-- Ticks of a nominal bit of BTIME (R123). -/
def Hub.canNominal (h : Hub) (k : Fin 16) : Nat :=
  (h.fld (F.CAN_BTIME_BRP k) + 1) * (1 + (max 1 (h.fld (F.CAN_BTIME_TSEG1 k)) + 1) + (h.fld (F.CAN_BTIME_TSEG2 k) + 1))
/-- Ticks of a data-phase bit. -/
def Hub.canData (h : Hub) (k : Fin 16) : Nat :=
  (h.fld (F.CAN_DBTIME_BRP k) + 1) * (1 + (h.fld (F.CAN_DBTIME_TSEG1 k) + 1) + (h.fld (F.CAN_DBTIME_TSEG2 k) + 1))
/-- Ticks from the start of SOF to its sample point. -/
def Hub.canSample (h : Hub) (k : Fin 16) : Nat :=
  (h.fld (F.CAN_BTIME_BRP k) + 1) * (1 + (max 1 (h.fld (F.CAN_BTIME_TSEG1 k)) + 1))

/-- EN is set: the timing check, then the bus (R122, R123). Over a disable that still waits it leaves the controller as
it runs, since the waiting write is never applied (00 R6). Refused while a parity stop still asks for RAMINIT (R135).
While RAMINIT still reads 1 it acts at once (DESIGN CHOICE, log entry 54). -/
def Hub.canEnable (h : Hub) (k : Fin 16) : Option Hub :=
  if h.bit (F.CAN_CTL_EN k) then some h
  else if (h.can[k]).needInit then none
  else if (h.can[k]).closing then some ((h.on (F.CAN_CTL_EN k)).modCan k fun c => { c with closing := false })
  else
    let h := h.on (F.CAN_CTL_EN k)
    if h.canNominal k < 400 ∨ h.canData k < 50 ∨ h.canNominal k < h.canData k then
      some ((h.on (F.CAN_STAT_CFG_ERR k)).canTo k canOFF)
    else
      let h := (h.off (F.CAN_STAT_CFG_ERR k)).modCan k fun c => { c with tec := 0, rec_ := 0 }
      let h := (h.put (F.CAN_STAT_BOREC k) 0).put (F.CAN_STAT_ERRST k) 0
      some (h.canJoin k)

/-- EN is cleared: at once, or at the end of the frame in progress (R122). It clears CFG_ERR, whose end the spec does not
give (DESIGN CHOICE, log entry 122). -/
def Hub.canDisable (h : Hub) (k : Fin 16) : Hub :=
  if !h.bit (F.CAN_CTL_EN k) then h
  else
    let h := (h.off (F.CAN_CTL_EN k)).off (F.CAN_STAT_CFG_ERR k)
    let s := h.canSt k
    if s = canRECEIVE ∨ s = canTRANSMIT then h.modCan k fun c => { c with closing := true } else h.canOff k

/-- RAMINIT: zero with good parity in all 2,560 words (Table 4.2). -/
def Hub.canRamInit (h : Hub) (k : Fin 16) : Hub :=
  (h.on (F.CAN_CTL_RAMINIT k)).modCan k fun c => { c with ram := [], bad := [], needInit := false }

/-! ## Requests (R130, R133, R138) -/

/-- The controller wakes (R138). -/
def Hub.canWakeUp (h : Hub) (k : Fin 16) : Hub :=
  ((h.off (F.CAN_CTL_SLEEP k)).canFlag k (F.CAN_FLAG_WAKE k)).canJoin k

/-- Is the controller asleep? -/
def Hub.canAsleep (h : Hub) (k : Fin 16) : Bool := h.canSt k == canSLEEPE || h.canSt k == canSLEEPF

/-- Set a TXREQ bit (R130); it wakes a sleeping controller (R138). -/
def Hub.canTxReq (h : Hub) (k : Fin 16) (j : Fin 128) : Hub :=
  if (h.can[k]).txreq.getLsbD j then h
  else
    let h := h.modCan k fun c =>
      let c := c.setWord j 3 (c.word j 3 &&& ~~~ (0x38000000#32))
      { c with txreq := c.txreq ||| BitVec.twoPow 128 j }
    let h := if (h.can[k]).objen.getLsbD j then h else h.canEnd k j 2
    if h.canAsleep k then h.canWakeUp k else h

/-- Set a TXCANCEL bit, or clear OBJEN of a pending object (R133). -/
def Hub.canCancel (h : Hub) (k : Fin 16) (j : Fin 128) : Hub :=
  let c := h.can[k]
  if !c.txreq.getLsbD j then h
  else match c.att with
    | some a =>
      if a.obj = j then h.modCan k fun c =>
        { c with cancel := c.cancel ||| BitVec.twoPow 128 j, att := some { a with cancelled := true } }
      else h.canEnd k j 2
    | none => h.canEnd k j 2

/-- A write of OBJEN bits: in force at once when the bus is idle, else at the next SOF; a bit cleared cancels (R133). -/
def Hub.canObjen (h : Hub) (k : Fin 16) (v : BitVec 128) : Hub :=
  let s := h.canSt k
  let old := ((h.can[k]).objenNext).getD (h.can[k]).objen
  let h := if s = canRECEIVE ∨ s = canTRANSMIT then h.modCan k fun c => { c with objenNext := some v }
    else h.modCan k fun c => { c with objen := v, objenNext := none }
  (List.finRange 128).foldl (fun h (j : Fin 128) => if old.getLsbD j && !v.getLsbD j then h.canCancel k j else h) h

/-! ## Transmission -/

/-- The bits that decide arbitration, dominant 0, as one number (ISO 11898-1): base identifier, RTR or SRR, IDE, the
rest of an extended identifier, RTR. The RRS bit of an FD frame is dominant. -/
def arbKey (ide rtr : Bool) (id : Nat) : Nat :=
  if ide then (id / 2 ^ 18) * 2 ^ 21 + 2 ^ 20 + 2 ^ 19 + (id % 2 ^ 18) * 2 + b2n rtr
  else (id / 2 ^ 18) * 2 ^ 21 + b2n rtr * 2 ^ 20

/-- The frame an object sends (Table 4.4, Table 4.2: FDOE, BRSE). -/
def Hub.canFrameOf (h : Hub) (k : Fin 16) (j : Fin 128) : CanFrame :=
  let c := h.can[k]
  let w0 := c.word j 0
  let fd := w0.getLsbD 29 && h.bit (F.CAN_CTL_FDOE k)
  let rtr := w0.getLsbD 27 && !fd
  let dlc := w0.bits 19 16
  let dlc := if w0.getLsbD 29 && !fd then min 8 dlc else dlc
  { ide := w0.getLsbD 30, fdf := fd, brs := fd && w0.getLsbD 28 && h.bit (F.CAN_CTL_BRSE k),
    esi := fd && h.fld (F.CAN_STAT_ERRST k) == 1, rtr := rtr, ident := (c.word j 1).extractLsb' 0 29,
    dlc := BitVec.ofNat 4 dlc, data := if rtr then [] else c.dataOf j (dlcLen fd dlc) }

/-- The pending object that would win arbitration, lowest number first among equals (R130). -/
def Hub.canPick (h : Hub) (k : Fin 16) : Option (Fin 128) :=
  let c := h.can[k]
  let key := fun (j : Fin 128) => let f := h.canFrameOf k j; arbKey f.ide f.rtr f.ident.toNat
  (List.finRange 128).foldl (fun best (j : Fin 128) =>
    if c.txreq.getLsbD j && c.objen.getLsbD j && (c.word j 0).getLsbD 31 then
      match best with
      | some b => if key j < key b then some j else best
      | none => some j
    else best) none

/-- Ticks from the start of SOF to its sample point in SLEEP_FRAME: WBTIME counts in 40 ns (R137, Table 4.3). -/
def Hub.canWakeSample (h : Hub) (k : Fin 16) : Nat :=
  16 * ((h.fld (F.CAN_WBTIME_BRP k) + 1) * (1 + (max 1 (h.fld (F.CAN_WBTIME_TSEG1 k)) + 1)))

/-- Start of a frame on the bus: object enables that waited apply, and the choice of a frame to send freezes (R130). In
loopback, and with TXD taken, the frame stays off the bus (Table 4.2, R39). -/
def Hub.canSof (h : Hub) (k : Fin 16) : Hub :=
  if h.canSt k = canSLEEPF then
    h.modCan k fun c => { c with sof := ((h.reed[canCluster k]).ctr + h.canWakeSample k) % 2 ^ 64 }
  else if h.canSt k ≠ canIDLE then h
  else
    let h := h.modCan k fun c =>
      { c with objen := c.objenNext.getD c.objen, objenNext := none, sof := ((h.reed[canCluster k]).ctr + h.canSample k) % 2 ^ 64 }
    let pend := fun (j : Fin 128) => (h.can[k]).txreq.getLsbD j && (h.can[k]).objen.getLsbD j
    match (List.finRange 128).findSome? fun (j : Fin 128) => if pend j then (h.can[k]).firstBad j [0, 1] else none with
    | some i => h.canStop k i
    | none =>
      match if h.bit (F.CAN_CTL_LISTEN k) || !h.drives then none else h.canPick k with
      | none => if h.canDeaf k then h else h.canTo k canRECEIVE
      | some j =>
        let f := h.canFrameOf k j
        match (h.can[k]).firstBad j ((List.range ((f.data.length + 3) / 4)).map (· + 4)) with
        | some i => h.canStop k i
        | none =>
          let h := h.modCan k fun c =>
            { c.setWord j 3 (c.word j 3 &&& ~~~ (0x00080000#32)) with att := some { obj := j } }
          let h := if h.bit (F.CAN_CTL_LOOP k) || h.canTaken k 0 then h else h.emit (.canFrame k f)
          h.canTo k canTRANSMIT

/-! ## Reception (R127, R128, R139, R140) -/

/-- The object that stores a frame (R127). -/
def Can.accepts (c : Can) (j : Fin 128) (f : CanFrame) : Bool :=
  let w0 := c.word j 0
  c.objen.getLsbD j && !w0.getLsbD 31 && w0.getLsbD 30 == f.ide && w0.getLsbD 27 == f.rtr &&
    ((f.ident.setWidth 32 ^^^ c.word j 1) &&& c.word j 2).extractLsb' 0 29 == 0

/-- A tunnel record (Table 4.7). -/
def canRecord (k : Fin 16) (f : CanFrame) (seq : Nat) (g : GTime) : List W32 :=
  [ BitVec.ofBool f.ide ++ BitVec.ofBool f.fdf ++ BitVec.ofBool f.brs ++ f.ident,
    BitVec.ofBool f.rtr ++ BitVec.ofBool f.esi ++ 0#6 ++ BitVec.ofNat 4 k ++ f.dlc ++ BitVec.ofNat 16 seq,
    BitVec.ofNat 32 g.ns, BitVec.ofNat 32 g.sec ] ++ leWords ((f.data.length + 3) / 4) f.data

/-- The records at the front that one TUNNEL frame carries beside its first word, and the rest: 2,560 bytes at most, none
split (R140). -/
def fitRecords : Nat → List (List W32) → List (List W32) × List (List W32)
  | _, [] => ([], [])
  | room, r :: rs => if room < 4 * r.length then ([], r :: rs) else
      let (a, b) := fitRecords (room - 4 * r.length) rs
      (r :: a, b)

/-- The gathered records leave as one TUNNEL frame, as many as it may carry (R140). -/
def Hub.canTunnelSend (h : Hub) (k : Fin 16) : Hub :=
  let c := h.can[k]
  if c.out.isEmpty || !h.bit F.BRG_CTL_EN then h
  else
    let w : W32 := 2#4 ++ 0#4 ++ BitVec.ofNat 8 (h.fld (F.CAN_TUNCFG0_DCTL k)) ++ BitVec.ofNat 16 c.tseq
    let (now, rest) := fitRecords 2556 c.out
    let pay := wordsPay (w :: now.flatMap id)
    let h := h.modCan k fun c => { c with out := rest, tseq := (c.tseq + 1) % 65536 }
    h.send { hdr := h.mkHdr tTUNNEL 2 (BitVec.ofNat 8 (h.fld (F.CAN_TUNCFG0_DNODE k)))
                      (BitVec.ofNat 2 (h.fld (F.CAN_TUNCFG0_DMEM k))) pay.length, pay := pay }

/-- A stored frame of a TUN object becomes a record (R140). -/
def Hub.canTunnelOut (h : Hub) (k : Fin 16) (f : CanFrame) : Hub :=
  let c := h.can[k]
  let rec_ := canRecord k f c.rseq ((h.reed[canCluster k]).anc.toG c.sof)
  let h := h.modCan k fun c => { c with rseq := (c.rseq + 1) % 65536 }
  let h := if (fitRecords 2556 (c.out ++ [rec_])).2.isEmpty then h else h.canTunnelSend k
  if 32 ≤ (h.can[k]).out.length then (h.countSat (F.CAN_TUNDROP k)).canFlag k (F.CAN_FLAG_TUN_DROP k)
  else
    let h := h.modCan k fun c => { c with out := c.out ++ [rec_] }
    if h.fld (F.CAN_TUNCFG0_GATHER k) = 0 ∨ (h.can[k]).out.length = 32 then h.canTunnelSend k else h

/-- A frame is stored in the object that accepts it: W1 and data first, W3 last (R128). -/
def Hub.canStore (h : Hub) (k : Fin 16) (f : CanFrame) : Hub :=
  match (List.finRange 128).find? fun (j : Fin 128) => (h.can[k]).objen.getLsbD j &&
      (((h.can[k]).firstBad j [0, 1, 2]).isSome || (h.can[k]).accepts j f) with
  | none => h
  | some j =>
    match (h.can[k]).firstBad j [0, 1, 2] with
    | some i => h.canStop k i
    | none =>
      let c := h.can[k]
      let lost := c.newdat.getLsbD j
      let w3 : W32 := 1#1 ++ BitVec.ofBool lost ++ 0#3 ++ BitVec.ofBool f.esi ++ BitVec.ofBool f.fdf ++
        BitVec.ofBool f.brs ++ f.dlc ++ 0#4 ++ BitVec.ofNat 16 (c.sof / 16)
      let h := (h.modCan k fun c =>
        let c := (c.setWord j 1 (f.ident.setWidth 32)).setData j f.data
        { c.setWord j 3 w3 with newdat := c.newdat ||| BitVec.twoPow 128 j }).mark (F.CAN_NEWDAT k j).key 1
      let h := h.canFlag k (F.CAN_FLAG_RX k)
      let h := if lost then (h.countSat (F.CAN_LOSTCNT k)).canFlag k (F.CAN_FLAG_LOST k) else h
      if (c.word j 0).getLsbD 25 && h.bit (F.CAN_TUNCFG0_OUT_EN k) then h.canTunnelOut k f else h

/-! ## Error counters (R134, ISO 11898-1; log entry 16) -/

/-- New counts: the warning flag, the error state and, above 255, bus-off. -/
def Hub.canCounts (h : Hub) (k : Fin 16) (tec rec_ : Nat) : Hub :=
  let c := h.can[k]
  let h := h.modCan k fun c => { c with tec := tec, rec_ := min 255 rec_ }
  let h := if (c.tec < 96 ∧ 96 ≤ tec) ∨ (c.rec_ < 96 ∧ 96 ≤ rec_) then h.canFlag k (F.CAN_FLAG_WARN k) else h
  if 255 < tec then
    let h := (h.put (F.CAN_STAT_ERRST k) 2).put (F.CAN_STAT_BOREC k) 0
    ((h.countSat (F.CAN_BOCNT k)).canFlag k (F.CAN_FLAG_BUSOFF k)).canTo k canBUSOFF
  else if 128 ≤ tec ∨ 128 ≤ rec_ then
    if h.fld (F.CAN_STAT_ERRST k) = 0 then (h.put (F.CAN_STAT_ERRST k) 1).canFlag k (F.CAN_FLAG_PASSIVE k) else h
  else h.put (F.CAN_STAT_ERRST k) 0

/-- A frame was received without error: REC falls by 1, or returns to 119-127 from above (a free value). -/
def Hub.canRxOk (h : Hub) (k : Fin 16) : Hub :=
  let c := h.can[k]
  if 127 < c.rec_ then h.draw.2.canCounts k c.tec (119 + h.draw.1 % 9)
  else h.canCounts k c.tec (c.rec_ - 1)

/-! ## Inbound tunnel (R141) -/

/-- The records of a TUNNEL frame, each with the data words its length gives (R139, R140). A piece at the end that is no
whole record is no record (DESIGN CHOICE, log entry 122). -/
def splitRecords : Nat → List W32 → List (List W32)
  | 0, _ => []
  | n + 1, ws =>
    let w0 := ws.getD 0 0
    let w1 := ws.getD 1 0
    let len := 4 + (if w1.getLsbD 31 then 0 else (dlcLen (w0.getLsbD 30) (w1.bits 19 16) + 3) / 4)
    if ws.length < len then [] else ws.take len :: splitRecords n (ws.drop len)

/-- An inbound record takes the lowest free object of the range; the answer says whether it did. -/
def Hub.canInbound (h : Hub) (k : Fin 16) (ws : List W32) : Hub × Bool :=
  let w0 := ws.getD 0 0
  let w1 := ws.getD 1 0
  let base := h.fld (F.CAN_TUNCFG1_TXBASE k)
  let cnt := h.fld (F.CAN_TUNCFG1_TXCNT k)
  let drop := ((h.countSat (F.CAN_TUNDROP k)).canFlag k (F.CAN_FLAG_TUN_DROP k), false)
  if !h.bit (F.CAN_TUNCFG1_IN_EN k) || decide (128 < base + cnt) then drop
  else
    let c := h.can[k]
    match (List.finRange 128).find? fun (j : Fin 128) => decide (base ≤ j.val ∧ j.val < base + cnt) && c.objen.getLsbD j &&
        !c.txreq.getLsbD j && (c.word j 0).getLsbD 31 with
    | none => drop
    | some j =>
      let h := h.modCan k fun c =>
        let v0 := (c.word j 0 &&& ~~~ (0x780F0000#32)) ||| (BitVec.ofBool (w0.getLsbD 31)).setWidth 32 <<< 30 |||
          (w0.extractLsb' 29 2).setWidth 32 <<< 28 ||| (BitVec.ofBool (w1.getLsbD 31)).setWidth 32 <<< 27 |||
          (w1.extractLsb' 16 4).setWidth 32 <<< 16
        let c := (c.setWord j 0 v0).setWord j 1 (w0 &&& 0x1FFFFFFF#32)
        (List.range (ws.length - 4)).foldl (fun c i => c.setWord j (4 + i) (ws.getD (4 + i) 0)) c
      (h.canTxReq k j, true)

end Sys2Proof.Machine
end

