-- ==== Sys2Proof/Machine/Lane.lean ====
section
/-! DEFINITION. Field lanes: FIFOs, states and down causes, pins, captures, and the engines of the lane functions
(02 R37-R74). -/

namespace Sys2Proof.Machine

/-- The Reset columns of the configuration tables (Tables 2.17-2.25). -/
def cfgReset (f i : Nat) : Nat :=
  if i = 0 then
    (if f = fnUART then 0x003000D9 else if f = fnSPI then 0x00380004 else if f = fnI2C then 0x6410
     else if f = fnSSI then 0x00180014 else if f = fnQUAD then 0x42 else 0)
  else if i = 1 then
    (if f = fnUART then 0x0D0B1010 else if f = fnSPI then 0x00020101 else if f = fnSSI then 0x014003E8
     else if f = fnSDCI then 20 else 0)
  else 0
/-- The word of LNnn_CFGi: storage once written; before that the reset values that the table of the function gives (R41,
log entry 120). -/
def Hub.cfg (h : Hub) (n : Fin 64) (i : Nat) : W32 :=
  let v := h.fld (F.LN_CFG n i)
  BitVec.ofNat 32 (if v ≠ 0 ∨ (h.lane n).cfgW.getLsbD i then v else cfgReset (h.fn n) i)
/-- Write LNnn_CFGi. -/
def Hub.setCfg (h : Hub) (n : Fin 64) (i : Nat) (v : W32) : Hub :=
  (h.put (F.LN_CFG n i) v.toNat).modLane n fun l => { l with cfgW := l.cfgW ||| BitVec.twoPow 4 i }
/-- An I2C controller? -/
def Hub.i2cCtl (h : Hub) (n : Fin 64) : Bool := h.fn n == fnI2C && !(h.cfg n 0).getLsbD 2
/-- The SPI partner of a lane: its odd or even neighbour (R40). -/
def partner (n : Fin 64) : Fin 64 := ⟨if n.val % 2 = 0 then n.val + 1 else n.val - 1, by split <;> omega⟩
/-- Is the lane lent to the reed engine (FIFOMAP.LEND)? -/
def Hub.lent (h : Hub) (n : Fin 64) : Bool := (h.fld (F.REED_FIFOMAP_LEND (clusterOf n))).testBit (n % 8)

/-! ## FIFOs (R47-R51) -/

/-- A push; a full FIFO loses the word (R48). -/
def Fifo.push (f : Fifo) (w : FifoWord) : Fifo × Bool :=
  if f.q.length < 64 then ({ f with q := f.q ++ [w], wr := f.wr + 1 }, true) else (f, false)

/-- A pop. -/
def Fifo.pop (f : Fifo) : Fifo × Option FifoWord :=
  match f.q with
  | [] => (f, none)
  | w :: r => ({ f with q := r, rd := f.rd + 1 }, some w)

/-- Empty a FIFO. -/
def Fifo.flush (f : Fifo) : Fifo := { f with q := [], rd := f.wr }

/-- Did a quantity cross a level upward (R50)? -/
def crossed (lvl before after : Nat) : Bool := decide (1 ≤ lvl ∧ lvl ≤ 64 ∧ before < lvl ∧ lvl ≤ after)

/-- Push a whole record into the receive FIFO, or lose it whole (R50, R51). -/
def Hub.pushRx (h : Hub) (n : Fin 64) (ws : List W32) (extra : List Nat := []) (good : Bool := true) : Hub :=
  let f := (h.lane n).rx
  if 64 < f.q.length + ws.length then h.laneFlags n (extra ++ [lfRX_OVF])
  else
    let f' := ws.foldl (fun f w => (f.push { w := w, good := good, time := h.now }).1) f
    let h := h.modLane n fun l => { l with rx := f' }
    let lv := crossed (h.fld (F.LN_FIFO_RX_LVL n)) f.q.length f'.q.length
    let fs := extra ++ (if lv then [lfRX_LVL] else [])
    if fs.isEmpty then h else h.laneFlags n fs

/-- Set TX_LVL when free space has crossed its level (R50). -/
def Hub.txFreed (h : Hub) (n : Fin 64) (before : Nat) (extra : List Nat := []) : Hub :=
  let lv := crossed (h.fld (F.LN_FIFO_TX_LVL n)) (64 - before) (64 - (h.lane n).tx.q.length)
  let fs := extra ++ (if lv then [lfTX_LVL] else [])
  if fs.isEmpty then h else h.laneFlags n fs

/-- A function draws a transmit word; one that fails parity is not sent (R49). -/
def Hub.drawTx (h : Hub) (n : Fin 64) : Hub × Option FifoWord :=
  let f := (h.lane n).tx
  match f.pop with
  | (_, none) => (h, none)
  | (f', some w) =>
    let h := h.modLane n fun l => { l with tx := f' }
    let h := h.txFreed n f.q.length (if w.good then [] else [lfTX_POISON])
    (if w.good then h else h.raise 2 (laneUnit n) causePARITY (f.rd.toNat % 64), some w)

/-- Empty the transmit FIFO and count the words in DROP.FLUSH. -/
def Hub.flushWords (h : Hub) (n : Fin 64) (extra : List Nat := []) : Hub :=
  let f := (h.lane n).tx
  let h := h.modLane n fun l => { l with tx := l.tx.flush }
  (h.countSat (F.LN_DROP_FLUSH n) f.q.length).txFreed n f.q.length extra

/-- A pop of the receive FIFO: the word, its parity and an empty FIFO go to RXTAG and the flags (R43, R48, R49). -/
def Hub.popRx (h : Hub) (n : Fin 64) (req : BitVec 4) : Hub × Nat :=
  let h := h.put (F.LN_RXTAG_REQ n) req.toNat
  match (h.lane n).rx.pop with
  | (_, none) => (((h.on (F.LN_RXTAG_EMPTY n)).off (F.LN_RXTAG_POISON n)).laneFlags n [lfRX_UDF], 0)
  | (f', some w) =>
    let rd := (h.lane n).rx.rd
    let h := (h.modLane n fun l => { l with rx := f' }).off (F.LN_RXTAG_EMPTY n)
    let h := h.putB (F.LN_RXTAG_POISON n) (!w.good)
    (if w.good then h else (h.laneFlags n [lfRX_POISON]).raise 2 (laneUnit n) causePARITY (rd.toNat % 64), w.w.toNat)

/-! ## Device accesses (R205, R503) -/

/-- Start the access at the head of the queue when the lane is UP and its bus is free: an access that arrived no later
than the stream word at the head of the transmit FIFO goes first (R503). -/
def Hub.devStart (h : Hub) (n : Fin 64) : Hub :=
  let l := h.lane n
  match l.dev with
  | [] => h
  | d :: _ =>
    let first := match l.tx.q with
      | w :: _ => h.fn n == fnSDCI || decide (d.at_ ≤ w.time)
      | [] => true
    if h.up n && h.drives && !l.devRun && !l.open_ && first then
      h.modLane n fun l => { l with devRun := true, devTick := h.now }
    else h

/-- Add an access to a lane's queue: demand accesses go before Echo fetches, never before the one that runs (R205). -/
def Hub.devAdd (h : Hub) (n : Fin 64) (d : DevReq) : Hub :=
  let h := h.modLane n fun l =>
    let run := if l.devRun then l.dev.take 1 else []
    let rest := if l.devRun then l.dev.drop 1 else l.dev
    let rest := if d.echo then rest ++ [d]
      else (rest.filter fun x => !x.echo) ++ [d] ++ rest.filter fun x => x.echo
    { l with dev := run ++ rest }
  h.devStart n

/-- The stream transfer on the bus ends. -/
def Hub.streamEnd (h : Hub) (n : Fin 64) : Hub :=
  (h.modLane n fun l => { l with open_ := false }).devStart n

/-- Ticks a device access takes on the bus: the bits of its command, index and data at the lane's rate (R216). An ISDU's
length on the wire is the device's, so its estimate is a free value (log entry 17). -/
def Hub.devTicks (h : Hub) (n : Fin 64) (rq : Request) : Nat :=
  if h.fn n = fnSPI then
    let div := max 4 ((h.cfg n 0).bits 15 0)
    ((h.cfg n 0).bits 26 25 + rq.len) * 8 * 2 * div
  else if h.fn n = fnI2C then
    let bit := if (h.cfg n 0).bits 1 0 = 0 then 4000 else if (h.cfg n 0).bits 1 0 = 1 then 1000 else 400
    let regw := min 2 ((h.cfg n 0).bits 5 4)
    let addr := if rq.dev.testBit 27 then 18 else 9
    if isRead rq.op then (1 + addr + 9 * regw + 1 + 9 + 9 * rq.len + 1) * bit
    else (1 + addr + 9 * regw + 9 * rq.len + 1) * bit
  else (1 + h.draw.1 % 65535) * 400

/-- Ticks until an access with these ahead of it is expected to end. -/
def Hub.estTicks (h : Hub) (n : Fin 64) (ahead : List DevReq) (rq : Request) : Nat :=
  let l := h.lane n
  let total := ((ahead.map fun d => h.devTicks n d.rq).foldl (· + ·) 0) + h.devTicks n rq
  total - (if l.devRun then h.now - l.devTick else 0)

/-- EST: whole microseconds, at least 1 (R216). -/
def estUs (t : Nat) : Nat := min 65535 (max 1 ((t + 399) / 400))

/-- EST of the access of a slot (R216). -/
def Hub.estOf (h : Hub) (i : Fin 128) : Nat :=
  match (h.brg.slot[i]).rq with
  | none => 1
  | some rq => estUs (h.estTicks rq.lane ((h.lane rq.lane).dev.takeWhile fun d => d.slot != some i) rq)

/-- The access that runs ends with a status (R71). -/
def Hub.devEnd (h : Hub) (n : Fin 64) (st : Nat) (data : List Byte) : Hub :=
  match (h.lane n).dev with
  | [] => h
  | d :: r =>
    if !(h.lane n).devRun then h
    else
      let h := h.modLane n fun l => { l with dev := r, devRun := false }
      let data := if isRead d.rq.op && st == stOK then data.take d.rq.len else []
      let h := match d.slot with
        | some i => h.slotEnd i st data
        | none => h.respond d.rq st 0 false false data
      h.devStart n

/-! ## States and causes (R44-R46, R72-R74) -/

/-- Enter a state with a cause; the odd lane of an SPI port goes with its even lane (R40). -/
def Hub.lnTo (h : Hub) (n : Fin 64) (st cause : Nat) : Hub :=
  let h := (h.put (F.LN_STAT_STATE n) st).put (F.LN_STAT_CAUSE n) cause
  if n.val % 2 = 0 ∧ h.fn n = fnSPI ∧ h.fn (partner n) = fnPAIR then
    (h.put (F.LN_STAT_STATE (partner n)) st).put (F.LN_STAT_CAUSE (partner n)) cause
  else h

/-- The keepers of a lane take the levels their pins sense; a CAN lane that leaves UP has driven TXD recessive before (R53,
R120). -/
def Hub.gripOne (h : Hub) (n : Fin 64) : Hub :=
  let txd := h.fn n == fnCAN && h.up n && !h.taken n 0
  h.modLane n fun l =>
    let l := { l with pin := l.pin.map fun p => { p with kept := p.raw } }
    if txd then { l with pin := l.pin.set 0 { l.pin[0] with kept := !h.bit (F.LN_PIN_INV n 0) } } else l

/-- As `gripOne`, with the odd lane of an SPI port (R40, R53). -/
def Hub.grip (h : Hub) (n : Fin 64) : Hub :=
  let h := h.gripOne n
  if n.val % 2 = 0 ∧ h.fn n = fnSPI ∧ h.fn (partner n) = fnPAIR then h.gripOne (partner n) else h

/-- The down cause that stands for a lane (Table 2.6). -/
def Hub.causeOf (h : Hub) (n : Fin 64) : Nat :=
  if (h.dl[regionOf (clusterOf n)]).down then 4
  else if h.bank3.getLsbD (n / 8) then 3
  else if (h.lane n).devBad then 5 else 0

/-- The function of a lane stops: a character, transfer or sample in progress is cut. -/
def Hub.fnStop (h : Hub) (n : Fin 64) : Hub :=
  let h := if h.fn n = fnSSI then h.setCfg n 2 (h.cfg n 2 &&& ~~~ 1#32) else h
  h.modLane n fun l =>
    { l with open_ := false, cur := none, de := false, pwmOn := false, pwmHalt := false, discard := 0, stretch := false,
             sample := none }

/-- The PWM waveform starts afresh with a period beginning now, while PER is not 0 (R160). -/
def Hub.pwmStart (h : Hub) (n : Fin 64) : Hub :=
  let per := (h.cfg n 0).bits 23 0
  h.modLane n fun l =>
    { l with pwmOn := decide (per ≠ 0), pwmHalt := false, pwmStart := h.ctrOf n, pwmPer := per,
             pwmDuty := (h.cfg n 1).bits 23 0 }

/-- The UART begins a burst: DE rises (R61); without DE the first word is drawn at once. -/
def Hub.uartBegin (h : Hub) (n : Fin 64) : Hub :=
  let l := h.lane n
  if h.fn n = fnUART ∧ h.up n ∧ l.cur.isNone ∧ !l.tx.q.isEmpty then
    if (h.cfg n 0).bits 30 29 = 1 then h.modLane n fun l => { l with de := true }
    else match h.drawTx n with
      | (h, some w) => if w.good then h.modLane n fun l => { l with cur := some w.w } else h
      | (h, none) => h
  else h

/-- The lane enters UP: its flag, a fresh PWM waveform, held characters, its CAN controller and its waiting accesses. -/
def Hub.enterUp (h : Hub) (n : Fin 64) : Hub :=
  let h := (h.lnTo n lnUP 0).modLane n fun l => { l with firstZ := true }
  let h := if h.fn n = fnPINS then h.pwmStart n else h
  let h := h.laneFlags n [lfUP]
  ((h.uartBegin n).canLaneUp n).devStart n

/-- FLUSH_TX: an SPI transfer ends at the word boundary with the empty FIFO, and a waiting device access may start (R63,
R503). -/
def Hub.flushTx (h : Hub) (n : Fin 64) (extra : List Nat := []) : Hub :=
  let h := h.flushWords n extra
  if h.fn n = fnSPI then h.streamEnd n else h.devStart n

/-- The lane enters DOWN and flushes its transmit FIFO (R74). -/
def Hub.enterDown (h : Hub) (n : Fin 64) (cause : Nat) (extra : List Nat := []) : Hub :=
  let held := (h.lane n).tx.q.length
  (h.lnTo n lnDOWN cause).flushWords n (extra ++ (if held = 0 then [] else [lfHOLD_DROP]))

/-- An UP lane meets a cause (R72): HOLD for causes 3 and 5 with a hold time, else DOWN as a hold that expires at once. -/
def Hub.leaveUp (h : Hub) (n : Fin 64) (cause : Nat) : Hub :=
  if !h.up n then h
  else
    let h := ((h.grip n).fnStop n).modLane n fun l => { l with cur := none }
    let h := if (cause = 3 ∨ cause = 5) ∧ h.bit (F.LN_HOLD_TIME n) then ((h.lnTo n lnHOLD cause).modLane n fun l => { l with holdAt := h.now }).laneFlags n [lfDOWN]
      else h.enterDown n cause [lfDOWN]
    (h.cutDevice n).canLaneDown n

/-- Held words older than MAXRES are dropped before sending resumes (R73). -/
def Hub.dropOld (h : Hub) (n : Fin 64) : Hub :=
  let m := h.fld (F.LN_HOLD_MAXRES n)
  if m = 0 then h
  else
    let f := (h.lane n).tx
    let keep := f.q.filter fun w => decide (h.now - w.time ≤ m * 4000)
    let k := f.q.length - keep.length
    if k = 0 then h
    else
      let h := h.modLane n fun l => { l with tx := { q := keep, rd := l.tx.rd + BitVec.ofNat 7 k, wr := l.tx.wr } }
      (h.countSat (F.LN_DROP_RESID n) k).txFreed n f.q.length [lfHOLD_DROP]

/-- The tick HOLD.TIME runs out at. -/
def Hub.holdEnd (h : Hub) (n : Fin 64) : Nat := (h.lane n).holdAt + h.fld (F.LN_HOLD_TIME n) * 4000

/-- The hold of a lane runs out (R74). -/
def Hub.holdOut (h : Hub) (n : Fin 64) : Hub :=
  if h.ln n = lnHOLD then h.enterDown n (h.fld (F.LN_STAT_CAUSE n)) else h

/-- In HOLD or DOWN, return to UP when no cause stands, else show the one that does (R73). A channel loss ends a hold (R74),
and a return after the hold has run out finds it expired. -/
def Hub.laneEval (h : Hub) (n : Fin 64) : Hub :=
  if h.ln n = lnHOLD ∨ h.ln n = lnDOWN then
    let c := h.causeOf n
    let h := if c = 4 ∨ h.holdEnd n < h.now then h.holdOut n else h
    if c = 0 then (h.dropOld n).enterUp n else h.put (F.LN_STAT_CAUSE n) c
  else h

/-- Does a function start in DOWN until its device or bus answers (R46, R67)? SDCI does in MODE 3 (log entry 18). -/
def Hub.needsDevice (h : Hub) (n : Fin 64) : Bool :=
  h.fn n == fnSSI || (h.fn n == fnSDCI && (h.cfg n 0).bits 25 24 == 3) || h.i2cCtl n

/-- An enabled lane in IDLE starts: CONFIG_ERR keeps it there (R40), else UP, or DOWN with the cause that stands.
An I2C controller starts a bus clear (R46), an SDCI port asserts EN (R67). -/
def Hub.laneStart (h : Hub) (n : Fin 64) : Hub :=
  if h.ln n ≠ lnIDLE then h
  else if h.fn n = fnSPI ∧ h.fn (partner n) ≠ fnPAIR then
    (h.on (F.LN_STAT_CONFIG_ERR n)).put (F.LN_STAT_CAUSE n) 0
  else
    let clear := h.i2cCtl n
    let en := h.fn n == fnSDCI && (h.cfg n 0).bits 25 24 == 3
    let h := (h.off (F.LN_STAT_CONFIG_ERR n)).modLane n fun l =>
      { l with devBad := h.needsDevice n, discards := 0, clearing := clear, clearAt := 0, enPin := en }
    let h := if clear then h.emit (.busClear n) else h
    let c := h.causeOf n
    if c = 0 then h.enterUp n else (h.grip n).lnTo n lnDOWN c

/-- Is the lane the odd lane of a pair, which its even lane owns (R40)? -/
def Hub.pairOwned (h : Hub) (n : Fin 64) : Bool := h.fn n == fnPAIR

/-- LNnn_CTL.EN is set. The keepers of a reset let go (R22). The odd lane of an SPI port ignores it (R40). -/
def Hub.laneEnable (h : Hub) (n : Fin 64) : Hub :=
  if h.pairOwned n then h
  else
    let h := h.modLane n fun l => { l with keep := false }
    let h := if h.fn n = fnSPI ∧ h.fn (partner n) = fnPAIR then h.modLane (partner n) fun l => { l with keep := false } else h
    if h.bit (F.LN_CTL_EN n) then h else (h.on (F.LN_CTL_EN n)).laneStart n

/-- LNnn_CTL.EN is cleared: IDLE at once, the transmit FIFO flushed and counted, the receive FIFO kept (R45). -/
def Hub.laneDisable (h : Hub) (n : Fin 64) : Hub :=
  if !h.bit (F.LN_CTL_EN n) then h
  else
    let h := (h.off (F.LN_CTL_EN n)).off (F.LN_STAT_CONFIG_ERR n)
    if h.ln n = lnRESET ∨ h.ln n = lnNONE then h
    else
      let was := h.up n
      let h := (h.fnStop n).modLane n fun l => { l with devBad := false, enPin := false, de := false }
      let h := if h.fn n = fnSDCI then h.setCfg n 2 (h.cfg n 2 &&& 0xFFF8FFFF#32) else h
      let h := ((h.lnTo n lnIDLE 1).flushWords n).modLane n fun l => { l with clearing := false }
      if was then (h.cutDevice n).canLaneDown n else h

/-! ## Lane reset (R21, Table 1.5) -/

/-- A lane reset starts: FIFOs, function state and status are cleared, the configuration stays, keepers hold. -/
def Hub.laneReset (h : Hub) (n : Fin 64) : Hub :=
  let was := h.up n
  let h := h.grip n
  let pins := (h.lane n).pin
  let h := if was then h.cutDevice n else h.lockBreak n
  let h := h.modLane n fun l => { ({} : Lane) with pin := pins.map fun p => { p with drv := 2, released := false }, keep := l.keep, cfgW := l.cfgW }
  let h := h.resetRange (laneBase n + 0x0C) (laneBase n + 0x0C)
  let h := (h.resetRange (laneBase n + 0x20) (laneBase n + 0x20)).resetRange (laneBase n + 0x2C) (laneBase n + 0x2C)
  let h := (h.resetRange (laneBase n + 0x34) (laneBase n + 0x34)).off (F.LN_STAT_CONFIG_ERR n)
  let h := if h.fn n = fnSSI then h.setCfg n 2 (h.cfg n 2 &&& ~~~ 1#32)
    else if h.fn n = fnSDCI then h.setCfg n 2 (h.cfg n 2 &&& 0xFFF80000#32) else h
  let h := (h.lnTo n lnRESET 2).on (F.LN_CTL_RST n)
  if was then h.canLaneDown n else h

/-- The lane reset ends: the lane goes to IDLE or NONE, and, still enabled, starts again (R22, R44). The odd lane of an SPI
port takes the state of its even lane (R40). -/
def Hub.laneResetEnd (h : Hub) (n : Fin 64) : Hub :=
  if h.ln n ≠ lnRESET then h
  else
    let h := h.off (F.LN_CTL_RST n)
    if h.fn n = fnNONE then h.lnTo n lnNONE 0
    else if h.fn n = fnPAIR ∧ h.fn (partner n) = fnSPI ∧ h.bit (F.LN_CTL_EN (partner n)) then
      h.lnTo n (h.ln (partner n)) (h.fld (F.LN_STAT_CAUSE (partner n)))
    else
      let h := h.lnTo n lnIDLE (if h.bit (F.LN_CTL_EN n) then 0 else 1)
      if h.bit (F.LN_CTL_EN n) then h.laneStart n else h

/-! ## Function select (R37, R40, R42) -/

/-- Is the lane's configuration locked: enabled, or the odd lane of an enabled SPI port (R10, R40)? -/
def Hub.laneLocked (h : Hub) (n : Fin 64) : Bool :=
  h.bit (F.LN_CTL_EN n) || (h.pairOwned n && h.fn (partner n) == fnSPI && h.bit (F.LN_CTL_EN (partner n)))

/-- May a lane take a function: no reserved code, SPI only on even and SPI_PAIR on odd lanes, one lane per controller? -/
def Hub.fnAllowed (h : Hub) (n : Fin 64) (f sel : Nat) : Bool :=
  !(9 ≤ f && f ≤ 14) && !(f == fnSPI && n.val % 2 == 1) && !(f == fnPAIR && n.val % 2 == 0) &&
    !(f == fnCAN && (List.finRange 64).any fun (m : Fin 64) => m != n && m.val / 8 == n.val / 8 &&
        h.fn m == fnCAN && h.fld (F.LN_FUNC_CANSEL m) == sel)

/-- A write of LNnn_FUNC; `none` where it is refused. -/
def Hub.funcWrite (h : Hub) (n : Fin 64) (v : W32) : Option Hub :=
  let f := v.bits 3 0
  let sel := v.bits 4 4
  let same := f = h.fn n ∧ sel = h.fld (F.LN_FUNC_CANSEL n)
  if same then some h
  else if h.laneLocked n then none
  else if !h.fnAllowed n f sel then none
  else
    let h := (h.put (F.LN_FUNC_FUNC n) f).put (F.LN_FUNC_CANSEL n) sel
    some (if h.ln n = lnRESET then h else if f = fnNONE then h.lnTo n lnNONE 0 else h.lnTo n lnIDLE 1)

/-! ## Pins -/

/-- Pin mode codes (Table 2.15). -/
def pmROLE : Nat := 0
def pmIN : Nat := 1
def pmOUT : Nat := 2
def pmPWM : Nat := 3
def pmREED : Nat := 4

/-- The level LNnn_IO.IN shows: debounced, after INV. -/
def Hub.inLevel (h : Hub) (n : Fin 64) (p : Fin 3) : Bool :=
  ((h.lane n).pin[p]).deb != h.bit (F.LN_PIN_INV n p)

/-- The three bits of LNnn_IO.IN. -/
def Hub.inBits (h : Hub) (n : Fin 64) : Nat := b2n (h.inLevel n 0) + 2 * b2n (h.inLevel n 1) + 4 * b2n (h.inLevel n 2)

/-- TRIM; above 9 it acts and reads as 9. -/
def Hub.trim (h : Hub) (n : Fin 64) (p : Nat) : Nat := min 9 (h.fld (F.LN_PIN_TRIM n p))

/-- Change one pin. -/
def Hub.modPin (h : Hub) (n : Fin 64) (p : Fin 3) (g : Pin → Pin) : Hub :=
  h.modLane n fun l => { l with pin := l.pin.set p (g l.pin[p]) }

/-- Write one latch bit of an OUT pin. -/
def Hub.latch (h : Hub) (n : Fin 64) (p : Fin 3) (b : Bool) : Hub :=
  let v := h.fld (F.LN_IO_OUT n)
  let v := if b then v ||| 2 ^ p.val else v &&& (7 - 2 ^ p.val)
  (h.put (F.LN_IO_OUT n) v).modPin n p fun q => { q with released := false }

/-- A register or bridge write of LNnn_IO.OUT: it loses to a timed action or a drone output of the same tick (R58). -/
def Hub.outWrite (h : Hub) (n : Fin 64) (v : Nat) : Hub :=
  (List.finRange 3).foldl (fun h (p : Fin 3) =>
    let q := (h.lane n).pin[p]
    if q.actAt == some h.now || q.drnAt == some h.now then h else h.latch n p (v.testBit p)) h

/-- A drone output for one latch: it loses to a timed action of the same tick (R58, R328). -/
def Hub.droneOut (h : Hub) (n : Fin 64) (p : Fin 3) (b : Bool) : Hub :=
  if ((h.lane n).pin[p]).actAt == some h.now then h
  else (h.latch n p b).modPin n p fun q => { q with drnAt := some h.now, swTick := h.ctrOf n, swTap := 0 }

/-- What a ball carries. -/
inductive Ball where
  | drive (b : Bool) (ma : Nat) | keep (b : Bool) | pull (code : Nat) | role (openDrain : Bool) (ma : Nat) | off
  deriving DecidableEq, Repr

/-- The drive current of a pin in mA (Table 2.15). -/
def Hub.driveMa (h : Hub) (n : Fin 64) (p : Fin 3) : Nat :=
  let d := h.fld (F.LN_PIN_DRIVE n p)
  if d = 0 then 4 else if d = 2 then 16 else 8

/-- Is a pin's output open-drain: by OD, forced for I2C SCL and SDA (Table 2.15)? -/
def Hub.openDrain (h : Hub) (n : Fin 64) (p : Fin 3) : Bool :=
  h.bit (F.LN_PIN_OD n p) || (h.fn n == fnI2C && p != 2 && !h.taken n p)

/-- Is a chip select of the SPI port whose odd lane is n active: by the stream transfer or the device access on the bus
(R63, Table 2.26)? -/
def Hub.csActive (h : Hub) (n : Fin 64) (p : Fin 3) : Bool :=
  let l := h.lane (partner n)
  (l.open_ && l.csel == p.val) || (l.devRun && l.dev.head?.any fun d => d.rq.dev / 2 ^ 26 % 4 == p.val)

/-- The level that a role output carries, where the hub's state gives it: DE, RTS (low while 8 words are free), chip
selects, the SDCI PHY's EN, the CAN transceiver's STB and a TXD held recessive (Tables 2.2, 2.18, 2.20, 4.2; R61, R137). -/
def Hub.roleLevel (h : Hub) (n : Fin 64) (p : Fin 3) : Option Bool :=
  let f := h.fn n
  let l := h.lane n
  if f = fnUART ∧ p = 2 then some (if (h.cfg n 0).bits 30 29 = 1 then l.de else decide (56 < l.rx.q.length))
  else if f = fnPAIR then some (h.csActive n p == (h.cfg (partner n) 0).getLsbD (27 + p.val))
  else if f = fnSDCI ∧ p = 2 then some l.enPin
  else if f = fnCAN ∧ p = 2 then some (h.canStb (h.laneCan n))
  else if f = fnCAN ∧ p = 0 ∧ h.canMute (h.laneCan n) then some true
  else none

/-- Does a ROLE pin's function drive it (R501)? -/
def Hub.roleDrives (h : Hub) (n : Fin 64) (p : Fin 3) : Bool :=
  let f := h.fn n
  let c0 := h.cfg n 0
  if f = fnUART then p == 0 || (p == 2 && (c0.bits 30 29 == 1 || c0.bits 30 29 == 2))
  else if f = fnSPI then if c0.getLsbD 24 then p == 2 else p != 2
  else if f = fnPAIR then !(h.cfg (partner n) 0).getLsbD 24
  else if f = fnI2C then p != 2
  else if f = fnSSI then p == 0
  else if f = fnSDCI then p != 1
  else if f = fnCAN then p != 1
  else false

/-- Has a pin a role under the lane's function (Table 2.2)? -/
def Hub.hasRole (h : Hub) (n : Fin 64) (p : Fin 3) : Bool :=
  let f := h.fn n
  if f = fnUART then p != 2 || (h.cfg n 0).bits 30 29 == 1 || (h.cfg n 0).bits 30 29 == 2
  else if f = fnSSI then p != 2
  else f == fnSPI || f == fnPAIR || f == fnI2C || f == fnSDCI || f == fnQUAD || f == fnCAN

/-- The ball at the IDLE level of its PINx (R501, Table 2.15). -/
def Hub.idleBall (h : Hub) (n : Fin 64) (p : Fin 3) (canDrive : Bool) : Ball :=
  let i := h.fld (F.LN_PIN_IDLE n p)
  if i = 1 ∧ canDrive then .drive false (h.driveMa n p)
  else if i = 2 ∧ canDrive then .drive true (h.driveMa n p)
  else if i = 0 ∧ h.bit (F.LN_PIN_KEEP n p) then .keep ((h.lane n).pin[p]).raw
  else .pull (h.fld (F.LN_PIN_PULL n p) % 3)

/-- The level of the lane's PWM waveform at this tick (Table 2.17). -/
def Hub.pwmLevel (h : Hub) (n : Fin 64) : Bool :=
  let l := h.lane n
  l.pwmOn && decide ((h.ctrOf n + 2 ^ 64 - l.pwmStart) % 2 ^ 64 < l.pwmDuty)

/-- What a pin carries now, from the lane's state, the pin's mode and the keepers (R39, R44, R53, R501, R502). Without supply
nothing is driven (R75); the balls of absent lanes are held by their pull-downs (R2). An open-drain output whose level is
high is not driven: its ball carries what IDLE gives a pin that cannot drive (DESIGN CHOICE, log entry 121). -/
def Hub.ball (h : Hub) (n : Fin 64) (p : Fin 3) : Ball :=
  let l := h.lane n
  let st := h.ln n
  let m := h.fld (F.LN_PIN_MODE n p)
  let inv := h.bit (F.LN_PIN_INV n p)
  let out := fun (b : Bool) =>
    let b := b != inv
    if b && h.openDrain n p then h.idleBall n p false else Ball.drive b (h.driveMa n p)
  if h.pwr.asleep.isSome then .off
  else if !h.lanePresent n then .pull 2
  else if l.keep || h.pinsHeld (clusterOf n) || !h.drives || st == lnHOLD || st == lnDOWN || st == lnRESET then .keep ((l.pin[p]).kept)
  else if st = lnNONE ∨ m = pmIN then h.idleBall n p false
  else if m = pmOUT then
    if (l.pin[p]).released then h.idleBall n p true else out ((h.fld (F.LN_IO_OUT n)).testBit p)
  else if m = pmPWM then
    if st = lnUP ∧ h.fn n = fnPINS then out (h.pwmLevel n) else h.idleBall n p true
  else if m = pmREED then
    if st = lnUP ∧ (l.pin[p]).drv < 2 then out ((l.pin[p]).drv == 1) else h.idleBall n p true
  else if h.hasRole n p then
    if st = lnUP ∧ h.roleDrives n p then (match h.roleLevel n p with
      | some b => out b
      | none => .role (h.openDrain n p) (h.driveMa n p))
    else h.idleBall n p (h.roleDrives n p)
  else h.idleBall n p true

/-! ## Captures (R59, R60) -/

/-- Does the hub drive a ball now? -/
def Hub.drivesBall (h : Hub) (n : Fin 64) (p : Fin 3) : Bool :=
  match h.ball n p with
  | .drive _ _ | .role _ _ => true
  | _ => false

/-- A change of a pin's synchronised level (R59): the debounce restarts at the tick of the change, the synchroniser's
2 cycles taken off. -/
def Hub.rawChange (h : Hub) (n : Fin 64) (p : Fin 3) (level : Bool) : Hub :=
  let q := (h.lane n).pin[p]
  if q.raw == level then h
  else h.modPin n p fun q =>
    { q with raw := level, chgAt := h.now, chg := if level == q.deb then none else some ((h.ctrOf n + 2 ^ 64 - 2) % 2 ^ 64) }

/-- How long a level must have been stable: DEB, or a second sample (Table 2.15). -/
def Hub.debTicks (h : Hub) (n : Fin 64) (p : Fin 3) : Nat := max 1 (us (h.fld (F.LN_PIN_DEB n p)))

/-- A level that has been stable for DEB is accepted: the debounced level, the lane's image byte, a capture pair and its event (R59, R60). -/
def Hub.accept (h : Hub) (n : Fin 64) (p : Fin 3) : Hub :=
  let q := (h.lane n).pin[p]
  match q.chg with
  | none => h
  | some t =>
    if h.now < q.chgAt + h.debTicks n p then h
    else
    let h := h.modPin n p fun q => { q with deb := q.raw, chg := none }
    let h := if h.fn n = fnPINS then h.pimInput n [BitVec.ofNat 8 (h.inBits n)] else h
    let m := h.fld (F.LN_PIN_MODE n p)
    let lev := if m = pmROLE ∨ m = pmIN then h.inLevel n p else q.raw
    let cap := h.fld (F.LN_PIN_CAP n p)
    if h.fn n = fnPINS ∧ h.up n ∧ ((lev ∧ cap.testBit 0) ∨ (!lev ∧ cap.testBit 1)) ∧ h.lent n = false then
      let w1 := b2n lev * 2 ^ 31 + p.val * 2 ^ 29 + t / 2 ^ 32 % 2 ^ 24
      (h.pushRx n [BitVec.ofNat 32 t, BitVec.ofNat 32 w1]).evEdge n p lev t
    else h

end Sys2Proof.Machine
end

