-- ==== Sys2Proof/Machine/LaneCmd.lean ====
section
/-! DEFINITION. The commands of field lanes: enables, FIFOs, banks, pins, PWM, UART, SPI (02 R37-R63). -/

namespace Sys2Proof.Machine

/-! ## Configuration and FIFOs -/

/-- LANE_RESET: a write of 1 to LNnn_CTL.RST (R21). A second one while it runs is absorbed (R23). -/
def execLaneReset (a : Access) (n : Fin 64) (s : State) : Host.Outcome State Fault Refusal :=
  s.goes (s.hub.cmdWrite a (laneBase n + 4) fun h => some (if h.ln n = lnRESET then h else h.laneReset n))

/-- LANE_RESET_END: the 16 cycles have passed; a wider reset ends by RESET_COMPLETE (R22, R44). -/
def execLaneResetEnd (n : Fin 64) (s : State) : Host.Outcome State Fault Refusal :=
  s.goes (if s.hub.bit (F.LN_CTL_RST n) then s.hub.laneResetEnd n else s.hub)

/-- LANE_FUNC_WRITE (R37, R40, R42). -/
def execLaneFuncWrite (a : Access) (n : Fin 64) (v : W32) (s : State) : Host.Outcome State Fault Refusal :=
  s.goes (s.hub.cmdWrite a (laneBase n) fun h => h.funcWrite n v)

/-- LANE_ENABLE (R44, R46). -/
def execLaneEnable (a : Access) (n : Fin 64) (s : State) : Host.Outcome State Fault Refusal :=
  s.goes (s.hub.cmdWrite a (laneBase n + 4) fun h => some (h.laneEnable n))

/-- LANE_DISABLE (R45). -/
def execLaneDisable (a : Access) (n : Fin 64) (s : State) : Host.Outcome State Fault Refusal :=
  s.goes (s.hub.cmdWrite a (laneBase n + 4) fun h => some (if h.pairOwned n then h else h.laneDisable n))

/-- FLUSH_RX (Table 2.5). -/
def execFlushRx (a : Access) (n : Fin 64) (s : State) : Host.Outcome State Fault Refusal :=
  s.goes (s.hub.cmdWrite a (laneBase n + 4) fun h => some (h.modLane n fun l => { l with rx := l.rx.flush }))

/-- FLUSH_TX (Table 2.5). -/
def execFlushTx (a : Access) (n : Fin 64) (s : State) : Host.Outcome State Fault Refusal :=
  s.goes (s.hub.cmdWrite a (laneBase n + 4) fun h => some (h.flushTx n))

/-- A function sends bytes to its device over some role pins; the drive of a taken pin goes nowhere (R39). -/
def Hub.devOut (h : Hub) (n : Fin 64) (pins : List (Fin 3)) (bs : List Byte) : Hub :=
  if pins.any fun p => h.taken n p then h else h.emit (.device n bs)

/-- A word as a role input on a taken pin reads it: constant at the role's idle level, which the spec does not state for
SPI (R39, log entry 123). -/
def Hub.idleWord (h : Hub) (taken : Bool) (w : W32) : Hub × W32 :=
  if taken then (h.draw.2, if h.draw.1 % 2 = 0 then 0 else 0xFFFFFFFF#32) else (h, w)

/-- A stretched I2C target returns the byte that arrives (R65). -/
def Hub.unstretch (h : Hub) (n : Fin 64) : Hub :=
  if (h.lane n).stretch then
    match h.drawTx n with
    | (h, some w) => (h.modLane n fun l => { l with stretch := false }).devOut n [0, 1]
        [if w.good then w.w.extractLsb' 0 8 else 0xFF]
    | (h, none) => h
  else h

/-- A push into the transmit FIFO: lost with TX_OVF when it is full or the lane is in DOWN (R46, R48). -/
def Hub.pushTx (h : Hub) (n : Fin 64) (v : W32) : Hub :=
  if h.ln n = lnDOWN then h.laneFlags n [lfTX_OVF]
  else match (h.lane n).tx.push { w := v, time := h.now } with
    | (f, true) => ((h.modLane n fun l => { l with tx := f }).uartBegin n).unstretch n
    | (_, false) => h.laneFlags n [lfTX_OVF]

/-- TXDATA_PUSH (R48). -/
def execTxdataPush (a : Access) (n : Fin 64) (v : W32) (s : State) : Host.Outcome State Fault Refusal :=
  s.goes (s.hub.cmdWrite a (laneBase n + 0x18) fun h => some (h.pushTx n v))

/-- RXDATA_POP (R48, R49). -/
def execRxdataPop (a : Access) (n : Fin 64) (s : State) : Host.Outcome State Fault Refusal :=
  s.goes (s.hub.cmdRead a (laneBase n + 0x1C) fun h => some (h.popRx n a.req))

/-- OUT_LATCH_WRITE (R58). -/
def execOutLatchWrite (a : Access) (n : Fin 64) (v : BitVec 3) (s : State) : Host.Outcome State Fault Refusal :=
  s.goes (s.hub.cmdWrite a (laneBase n + 0x24) fun h => some (h.outWrite n v.toNat))

/-! ## Banks and causes (R55, R72-R74) -/

/-- The lanes of a cluster. -/
def lanesOf (c : Fin 8) : List (Fin 64) := (List.finRange 8).map fun i => ⟨c.val * 8 + i.val, by omega⟩

/-- The bank of a cluster leaves its window (R55). -/
def Hub.bankFault (h : Hub) (c : Fin 8) : Hub :=
  if !h.bit (F.IOB_CTL_MON_EN c) then h
  else
    let h := { h with bank3 := h.bank3 ||| BitVec.twoPow 8 c }
    let h := h.off (F.IOB_CTL_BANK_OK c)
    (lanesOf c).foldl (fun h n => h.leaveUp n 3) h

/-- BANK_VOLTAGE_FAULT (R55). -/
def execBankVoltageFault (c : Fin 8) (s : State) : Host.Outcome State Fault Refusal :=
  s.goes (if s.hub.clusterUp c then s.hub.bankFault c else s.hub)

/-- The bank has stayed inside its window, or counted as inside it, for 1 ms (R55). -/
def Hub.bankOk (h : Hub) (c : Fin 8) : Hub :=
  let h := { h with bank3 := h.bank3 &&& ~~~ (BitVec.twoPow 8 c), monOff := h.monOff.set c none }
  let h := h.putB (F.IOB_CTL_BANK_OK c) (h.bit (F.IOB_CTL_MON_EN c))
  (lanesOf c).foldl (fun h n => h.laneEval n) h

/-- BANK_VOLTAGE_OK (R55): nothing is compared while MON_EN is 0. -/
def execBankVoltageOk (c : Fin 8) (s : State) : Host.Outcome State Fault Refusal :=
  s.goes (if s.hub.clusterUp c && s.hub.bit (F.IOB_CTL_MON_EN c) then s.hub.bankOk c else s.hub)

/-- MON_EN is written: cleared, BANK_OK reads 0 and a standing cause 3 clears 1 ms later; set, that time is given up (R55). -/
def Hub.monWrite (h : Hub) (c : Fin 8) (on : Bool) : Hub :=
  if on then { h with monOff := h.monOff.set c none }
  else
    let h := h.off (F.IOB_CTL_BANK_OK c)
    if h.bank3.getLsbD c && (h.monOff[c]).isNone then { h with monOff := h.monOff.set c (some h.now) } else h

/-- The millisecond after a clear of MON_EN has passed (R55). -/
def Hub.monTick (h : Hub) : Hub :=
  (List.finRange 8).foldl (fun h (c : Fin 8) =>
    if (h.monOff[c]).any fun t => decide (t + us 1000 ≤ h.now) then h.bankOk c else h) h

/-- LANE_CAUSE_CLEAR: the device cause clears; a bank or channel cause that stands keeps the lane down (R73). -/
def execLaneCauseClear (n : Fin 64) (s : State) : Host.Outcome State Fault Refusal :=
  let h := s.hub
  s.goes (if h.ln n = lnHOLD ∨ h.ln n = lnDOWN then (h.modLane n fun l => { l with devBad := false }).laneEval n else h)

/-- Does a command that waits in this cycle clear the cause a lane is held for? Commands in the queue share the cycle (log
entry 1), so the return wins over the expiry (R73). -/
def State.returns (s : State) (n : Fin 64) : Bool :=
  let c := s.hub.fld (F.LN_STAT_CAUSE n)
  s.pending.any fun i => (c == 5 && i == .laneCauseClear n) || (c == 3 && i == .bankVoltageOk (clusterOf n))

/-- LANE_HOLD_EXPIRE (R74): TIME has run out, and no return comes in the same cycle (R73). -/
def execLaneHoldExpire (n : Fin 64) (s : State) : Host.Outcome State Fault Refusal :=
  s.goes (if s.hub.now < s.hub.holdEnd n || s.returns n then s.hub else s.hub.holdOut n)

/-! ## Pins (R59, R60, R160) -/

/-- PIN_RAW_CHANGE (R59). -/
def execPinRawChange (n : Fin 64) (p : Fin 3) (level : Bool) (s : State) : Host.Outcome State Fault Refusal :=
  s.goes (if s.hub.clusterUp (clusterOf n) then s.hub.rawChange n p level else s.hub)

/-- DEBOUNCE_ACCEPT (R59, R60). -/
def execDebounceAccept (n : Fin 64) (p : Fin 3) (s : State) : Host.Outcome State Fault Refusal :=
  s.goes (s.hub.accept n p)

/-- A PWM period ends: PER and DUTY as written take effect, PER = 0 stops the waveform (Table 2.17). -/
def Hub.pwmNext (h : Hub) (n : Fin 64) : Hub :=
  if h.fn n = fnPINS ∧ h.up n ∧ (h.lane n).pwmOn then h.pwmStart n else h

/-- PWM_PERIOD_END (R160). -/
def execPwmPeriodEnd (n : Fin 64) (s : State) : Host.Outcome State Fault Refusal :=
  s.goes (s.hub.pwmNext n)

/-! ## UART (R61) and its tunnel (07 R237) -/

/-- The tunnel channel whose source a UART lane is. -/
def Hub.tunOf (h : Hub) (n : Fin 64) : Option (Fin 16) :=
  (List.finRange 16).find? fun (k : Fin 16) => h.bit (F.BRG_TUN_CFG_EN k) && h.fld (F.BRG_TUN_SRC_LANE k) == n.val &&
    h.fn n == fnUART

/-- Halfwords two to a word, low half first (R237). -/
def packHalves : List W32 → List W32
  | a :: b :: r => (b.extractLsb' 0 16 ++ a.extractLsb' 0 16) :: packHalves r
  | [a] => [(a.extractLsb' 0 16).setWidth 32]
  | [] => []

/-- The gathered characters of a channel leave as one TUNNEL frame; an odd last halfword takes two bytes (R237). -/
def Hub.tunSend (h : Hub) (k : Fin 16) : Hub :=
  let cs := h.brg.tun[k]
  if cs.isEmpty || !h.bit F.BRG_CTL_EN then h
  else
    let w : W32 := 3#4 ++ 0#4 ++ BitVec.ofNat 8 (h.fld (F.BRG_TUN_DST_DLANE k)) ++ BitVec.ofNat 16 h.brg.tseq[k]
    let body := (packHalves cs).flatMap leBytes
    let pay := beBytes w ++ body.take (2 * cs.length)
    let h := h.modBrg fun b => { b with tun := b.tun.set k [], tseq := b.tseq.set k ((b.tseq[k] + 1) % 65536) }
    h.send { hdr := h.mkHdr tTUNNEL 2 (BitVec.ofNat 8 (h.fld (F.BRG_TUN_DST_DNODE k)))
                      (BitVec.ofNat 2 (h.fld (F.BRG_TUN_DST_DMEM k))) pay.length, pay := pay }

/-- The bridge pops one word of a tunnelled UART: an IDLE mark closes the held frame, 128 characters send it. -/
def Hub.tunPop (h : Hub) (n : Fin 64) (k : Fin 16) : Hub :=
  let w := BitVec.ofNat 32 (h.popRx n 12).2
  let h := (h.popRx n 12).1
  let h := if w.getLsbD 12 then h.tunSend k else h
  let c : W32 := (w &&& 0x1FF#32) ||| (if w.getLsbD 11 then 0x8000#32 else 0)
  let h := h.modBrg fun b =>
    { b with tun := b.tun.set k (b.tun[k] ++ [c]), tunAt := if (b.tun[k]).isEmpty then b.tunAt.set k h.now else b.tunAt }
  let held := (h.brg.tun[k]).length
  if 128 ≤ held then h.tunSend k else h

/-- The bridge is the one popper of a tunnelled UART's receive FIFO, and pops all that it holds. -/
def Hub.tunTake (h : Hub) (n : Fin 64) : Hub :=
  match h.tunOf n with
  | none => h
  | some (k : Fin 16) => ((h.lane n).rx.q).foldl (fun h _ => h.tunPop n k) h

/-- UART_TUNNEL_SEND: GATHER has passed since the first character (07 R237). -/
def execUartTunnelSend (k : Fin 16) (s : State) : Host.Outcome State Fault Refusal :=
  s.goes (if s.hub.brg.tunAt[k] + us (s.hub.fld (F.BRG_TUN_CFG_GATHER k)) ≤ s.hub.now then s.hub.tunSend k else s.hub)

/-- A character or break ends on the wire: the next word is drawn, and DE falls with an empty FIFO (R61). -/
def Hub.uartSent (h : Hub) (n : Fin 64) : Hub :=
  if h.fn n ≠ fnUART ∨ !h.up n then h
  else
    let r := match (h.lane n).cur with
      | some w => (h.modLane n fun l => { l with cur := none }, some w)
      | none => match h.drawTx n with
        | (h, some w) => (h, if w.good then some w.w else none)
        | (h, none) => (h, none)
    let h := match r.2 with
      | some w => r.1.devOut n [0] [w.extractLsb' 0 8, w.extractLsb' 8 8]
      | none => r.1
    match h.drawTx n with
    | (h, some w) => if w.good then h.modLane n fun l => { l with cur := some w.w }
        else h.modLane n fun l => { l with de := !l.tx.q.isEmpty && l.de }
    | (h, none) => h.modLane n fun l => { l with de := false }

/-- UART_CHAR_SENT (R61). -/
def execUartCharSent (n : Fin 64) (s : State) : Host.Outcome State Fault Refusal :=
  s.goes (s.hub.uartSent n)

/-- A received character with its marks (Table 2.19); discarded while DE is high (R61). A taken RXD stays high (R39). -/
def Hub.uartReceived (h : Hub) (n : Fin 64) (ch : UartChar) : Hub :=
  if h.fn n ≠ fnUART ∨ !h.up n ∨ (h.lane n).de ∨ h.taken n 1 then h
  else
    let bits := min 4 ((h.cfg n 0).bits 22 20) + 5
    let w := b2n ch.idle * 2 ^ 12 + b2n ch.brk * 2 ^ 11 + b2n ch.framing * 2 ^ 10 + b2n ch.parity * 2 ^ 9 +
      ch.data.toNat % 2 ^ bits
    let h := h.pushRx n [BitVec.ofNat 32 w] (if ch.brk || ch.framing || ch.parity then [lfPROTO] else [])
    h.tunTake n

/-- UART_CHAR_RECEIVED (R61). -/
def execUartCharReceived (n : Fin 64) (ch : UartChar) (s : State) : Host.Outcome State Fault Refusal :=
  s.goes (s.hub.uartReceived n ch)

/-! ## SPI (R63) -/

/-- The word bits of an SPI port: WIDTH + 1, 4 at least (Table 2.20). -/
def Hub.spiBits (h : Hub) (n : Fin 64) : Nat := max 3 ((h.cfg n 0).bits 23 19) + 1

/-- A controller stream word: sent, the word received in the same clocks pushed, CS released when the FIFO runs empty. -/
def Hub.spiWord (h : Hub) (n : Fin 64) (rx : W32) : Hub :=
  if h.fn n ≠ fnSPI ∨ !h.up n ∨ !h.drives ∨ (h.cfg n 0).getLsbD 24 ∨ (h.lane n).devRun then h
  else match h.drawTx n with
    | (h, none) => h
    | (h, some w) =>
      if !w.good then h.streamEnd n
      else
        let m := 2 ^ h.spiBits n
        let h := h.devOut n [0, 1] (beBytes (BitVec.ofNat 32 (w.w.toNat % m)))
        let cs := (h.cfg n 1).bits 25 24 % 3
        let h := h.modLane n fun l => { l with open_ := true, csel := if l.open_ then l.csel else cs }
        let r := h.idleWord (h.taken n 2) rx
        let h := r.1
        let rx := r.2
        let h := h.pushRx n [BitVec.ofNat 32 (rx.toNat % m)]
        if (h.lane n).tx.q.isEmpty then h.streamEnd n else h

/-- SPI_STREAM_WORD (R63). -/
def execSpiStreamWord (n : Fin 64) (rx : W32) (s : State) : Host.Outcome State Fault Refusal :=
  s.goes (s.hub.spiWord n rx)

/-- A word clocked by an SPI controller: one drawn for it, zeros with TX_UDF from an empty FIFO, the word in pushed. With
SCK or CS0 taken no word is clocked (R39). -/
def Hub.spiTarget (h : Hub) (n : Fin 64) (rx : W32) : Hub :=
  if h.fn n ≠ fnSPI ∨ !h.up n ∨ !(h.cfg n 0).getLsbD 24 ∨ h.taken n 0 ∨ h.taken (partner n) 0 then h
  else
    let m := 2 ^ h.spiBits n
    let r := h.drawTx n
    let out := match r.2 with
      | some w => if w.good then w.w.toNat % m else 0
      | none => 0
    let h := r.1.devOut n [2] (beBytes (BitVec.ofNat 32 out))
    let i := h.idleWord (h.taken n 1) rx
    let h := i.1
    let rx := i.2
    h.pushRx n [BitVec.ofNat 32 (rx.toNat % m)] (if r.2.isNone then [lfTX_UDF] else [])

/-- SPI_TARGET_WORD (R63). -/
def execSpiTargetWord (n : Fin 64) (rx : W32) (s : State) : Host.Outcome State Fault Refusal :=
  s.goes (s.hub.spiTarget n rx)

end Sys2Proof.Machine
end

