-- ==== Sys2Proof/Machine/LaneFunc.lean ====
section
/-! DEFINITION. The commands of the I2C, SSI, SDCI and quadrature functions of field lanes (02 R64-R68), and the end of
a device access (R71). -/

namespace Sys2Proof.Machine

/-! ## I2C (R64, R65, Table 2.22) -/

/-- A command sequence ends by an event before its STOP: the rest is discarded unless this word had the STOP, and the
controller sends STOP, unless arbitration was lost. -/
def Hub.i2cAbort (h : Hub) (n : Fin 64) (bit : Nat) (stopWord : Bool) : Hub :=
  let h := if (h.lane n).open_ && bit != 9 && !h.taken n 0 && !h.taken n 1 then h.emit (.i2cStop n) else h
  (h.modLane n fun l => { l with discard := if stopWord then 0 else bit }).streamEnd n

/-- What an I2C controller senses: both lines high where SDA is taken (R39). -/
def Hub.i2cSense (h : Hub) (n : Fin 64) (bus : I2cBus) : I2cBus :=
  if h.taken n 1 then { bus with nack := true, rd := 0xFF, arbLost := false } else bus

/-- One command word of an I2C controller: exactly one receive word (Table 2.22). -/
def Hub.i2cWord (h : Hub) (n : Fin 64) (bus : I2cBus) : Hub :=
  if !h.i2cCtl n || !h.up n || !h.drives || (h.lane n).devRun || (h.lane n).clearing then h
  else
    let bus := h.i2cSense n bus
    let d := (h.lane n).discard
    match h.drawTx n with
    | (h, none) => h
    | (h, some w) =>
      let stop := w.w.getLsbD 9
      if d ≠ 0 then
        let h := h.pushRx n [BitVec.ofNat 32 (2 ^ d)]
        if stop then h.modLane n fun l => { l with discard := 0 } else h
      else if !w.good then (h.pushRx n [BitVec.ofNat 32 (2 ^ 11)]).i2cAbort n 11 stop
      else
        let read := w.w.getLsbD 10
        let h := h.modLane n fun l => { l with open_ := l.open_ || w.w.getLsbD 8 }
        let h := h.devOut n [0, 1] [w.w.extractLsb' 0 8]
        if bus.arbLost then (h.pushRx n [BitVec.ofNat 32 (2 ^ 9)] [lfPROTO]).i2cAbort n 9 stop
        else
          let nack := bus.nack && !read
          let v := (if nack then 2 ^ 8 else 0) + (if read then bus.rd.toNat else 0)
          let h := h.pushRx n [BitVec.ofNat 32 v] (if nack then [lfPROTO] else [])
          if stop then h.streamEnd n else h

/-- I2C_COMMAND_WORD (Table 2.22). -/
def execI2cCommandWord (n : Fin 64) (bus : I2cBus) (s : State) : Host.Outcome State Fault Refusal :=
  s.goes (s.hub.i2cWord n bus)

/-- SCL has been held beyond a non-zero STRETCH (R65): a controller's command or device access ends, a target returns
0xFF. -/
def Hub.i2cStretch (h : Hub) (n : Fin 64) : Hub :=
  if h.fn n ≠ fnI2C ∨ !h.up n ∨ (h.cfg n 0).bits 15 8 = 0 ∨ h.taken n 0 then h
  else if h.i2cCtl n then
    if (h.lane n).devRun then ((h.laneFlags n [lfPROTO]).emit (.i2cStop n)).devEnd n stTIMEOUT []
    else match h.drawTx n with
      | (h, none) => h
      | (h, some w) => (h.pushRx n [BitVec.ofNat 32 (2 ^ 10)] [lfPROTO]).i2cAbort n 10 (w.w.getLsbD 9)
  else if (h.lane n).stretch then
    ((h.modLane n fun l => { l with stretch := false }).devOut n [0, 1] [0xFF]).laneFlags n [lfTX_UDF]
  else h

/-- I2C_STRETCH_TIMEOUT (R65). -/
def execI2cStretchTimeout (n : Fin 64) (s : State) : Host.Outcome State Fault Refusal :=
  s.goes (s.hub.i2cStretch n)

/-- A bus clear ends: the lane enters UP when both lines are high, else it stays in DOWN or leaves UP with cause 5, and the
clear is repeated in 100 ms. -/
def Hub.i2cClear (h : Hub) (n : Fin 64) (released : Bool) : Hub :=
  if !h.i2cCtl n || !h.bit (F.LN_CTL_EN n) || !(h.lane n).clearing then h
  else
    let released := released || (h.taken n 0 && h.taken n 1)
    let h := h.modLane n fun l => { l with clearing := false, devBad := !released, clearAt := h.now + us 100000 }
    if released then h.laneEval n else h.leaveUp n 5

/-- I2C_BUS_CLEAR (R65). -/
def execI2cBusClear (n : Fin 64) (released : Bool) (s : State) : Host.Outcome State Fault Refusal :=
  s.goes (s.hub.i2cClear n released)

/-- A line has been low for 35 ms, or 100 ms have passed since a clear that failed: a bus clear starts (R65). Taken lines
read high (R39). -/
def Hub.i2cStuck (h : Hub) (n : Fin 64) : Hub :=
  let l := h.lane n
  if !h.i2cCtl n || !h.bit (F.LN_CTL_EN n) || !h.drives || l.clearing || (h.taken n 0 && h.taken n 1) ||
      (l.devBad && decide (h.now < l.clearAt)) then h
  else (h.modLane n fun l => { l with clearing := true }).emit (.busClear n)

/-- I2C_BUS_STUCK (R65). -/
def execI2cBusStuck (n : Fin 64) (s : State) : Host.Outcome State Fault Refusal := s.goes (s.hub.i2cStuck n)

/-- I2C_ALERT (R65). -/
def execI2cAlert (n : Fin 64) (s : State) : Host.Outcome State Fault Refusal :=
  let h := s.hub
  s.goes (if h.fn n = fnI2C ∧ h.up n ∧ !h.taken n 2 then h.laneFlags n [lfALERT] else h)

/-- A byte at an I2C target: written bytes are pushed with their marks, a read draws one or stretches SCL. -/
def Hub.i2cTarget (h : Hub) (n : Fin 64) (ev : I2cTarget) : Hub :=
  if h.fn n ≠ fnI2C ∨ h.i2cCtl n ∨ !h.up n ∨ h.taken n 0 ∨ h.taken n 1 then h
  else match ev with
    | .write b first stop => h.pushRx n [BitVec.ofNat 32 (b2n stop * 2 ^ 9 + b2n first * 2 ^ 8 + b.toNat)]
    | .read => (h.modLane n fun l => { l with stretch := true }).unstretch n

/-- I2C_TARGET_BYTE (Table 2.22, R65). -/
def execI2cTargetByte (n : Fin 64) (ev : I2cTarget) (s : State) : Host.Outcome State Fault Refusal :=
  s.goes (s.hub.i2cTarget n ev)

/-! ## SSI (R66) -/

/-- Gray code to binary. -/
def grayToBin (v bits : Nat) : Nat := (List.range bits).foldl (fun a i => a ^^^ (v >>> i)) 0 % 2 ^ bits

/-- A trigger starts a sample, or is skipped with PROTO while one and its monoflop time still run. -/
def Hub.ssiTrig (h : Hub) (n : Fin 64) (soft : Bool) : Hub :=
  let l := h.lane n
  if h.fn n ≠ fnSSI ∨ !h.drives ∨ !h.bit (F.LN_CTL_EN n) ∨ !(h.up n ∨ l.devBad) then h
  else if l.sample.isSome || decide (h.now < l.mono) then h.laneFlags n [lfPROTO]
  else
    let h := if soft then h.setCfg n 2 (h.cfg n 2 ||| 1#32) else h
    h.modLane n fun l => { l with sample := some (BitVec.ofNat 32 (h.ctrOf n)) }

/-- SSI_SAMPLE (R66). -/
def execSsiSample (n : Fin 64) (trig : SsiTrigger) (s : State) : Host.Outcome State Fault Refusal :=
  s.goes (match trig with
    | .software a => s.hub.cmdWrite a (laneBase n + 0x58) fun h => some (h.ssiTrig n true)
    | .period => if (s.hub.cfg n 0).bits 23 22 = 1 then s.hub.ssiTrig n false else s.hub
    | .cycle => if (s.hub.cfg n 0).bits 23 22 = 2 then s.hub.ssiTrig n false else s.hub)

/-- A sample ends: its pair is pushed whole, or it is discarded because DATA was not high; eight discards in succession
are cause 5, a good sample clears it. -/
def Hub.ssiDone (h : Hub) (n : Fin 64) (raw : W32) (dataHigh good : Bool) : Hub :=
  match (h.lane n).sample with
  | none => h
  | some stamp =>
    let tm := max 10 ((h.cfg n 1).bits 27 20)
    let dataHigh := dataHigh || h.taken n 1
    let raw := if h.taken n 1 then 0xFFFFFFFF#32 else raw
    let h := h.setCfg n 2 (h.cfg n 2 &&& ~~~ 1#32)
    let h := h.modLane n fun l => { l with sample := none, mono := h.now + us tm }
    if !dataHigh then
      let h := (h.modLane n fun l => { l with discards := l.discards + 1 }).laneFlags n [lfPROTO]
      if 8 ≤ (h.lane n).discards then (h.modLane n fun l => { l with devBad := true }).leaveUp n 5 else h
    else
      let bits := max 7 ((h.cfg n 0).bits 20 16) + 1
      let v := raw.toNat % 2 ^ bits
      let v := BitVec.ofNat 32 (if (h.cfg n 0).getLsbD 21 then grayToBin v bits else v)
      let h := (h.modLane n fun l => { l with discards := 0, devBad := false, lastPair := some (v, stamp) }).laneEval n
      (h.pushRx n [v, stamp] [] good).pimInput n (leBytes v) good

/-- SSI_SAMPLE_DONE (R66). -/
def execSsiSampleDone (n : Fin 64) (raw : W32) (dataHigh good : Bool) (s : State) : Host.Outcome State Fault Refusal :=
  s.goes (s.hub.ssiDone n raw dataHigh good)

/-! ## SDCI (R67) -/

/-- Is the lane an enabled SDCI port in MODE 3? -/
def Hub.sdci (h : Hub) (n : Fin 64) : Bool :=
  h.fn n == fnSDCI && h.drives && h.bit (F.LN_CTL_EN n) && (h.cfg n 0).bits 25 24 == 3

/-- SDCI_WAKEUP: the wake-up pulse is sent on TXD (R67). -/
def execSdciWakeup (n : Fin 64) (s : State) : Host.Outcome State Fault Refusal :=
  let h := s.hub
  s.goes (if h.sdci n && (h.lane n).devBad then (h.modLane n fun l => { l with enPin := true }).devOut n [0] [] else h)

/-- SDCI_CONNECT: communication at a rate COM allows; the cause clears (R67, Table 2.24). -/
def execSdciConnect (n : Fin 64) (com : BitVec 2) (s : State) : Host.Outcome State Fault Refusal :=
  let h := s.hub
  let want := (h.cfg n 0).bits 1 0
  s.goes (if h.sdci n && !h.taken n 1 && (h.lane n).enPin && (h.lane n).devBad && com != 0 && (want == 0 || want == com.toNat) then
    let h := h.setCfg n 2 ((h.cfg n 2 &&& 0xFFF8FFFF#32) ||| BitVec.ofNat 32 (2 ^ 18 + com.toNat * 2 ^ 16))
    (h.modLane n fun l => { l with devBad := false }).laneEval n
  else h)

/-- SDCI_DEVICE_LOST (R67). -/
def execSdciDeviceLost (n : Fin 64) (s : State) : Host.Outcome State Fault Refusal :=
  let h := s.hub
  s.goes (if h.sdci n && !(h.lane n).devBad then
    let h := h.setCfg n 2 (h.cfg n 2 &&& 0xFFFBFFFF#32)
    (h.modLane n fun l => { l with devBad := true }).leaveUp n 5
  else h)

/-- SDCI_DEVICE_EVENT (R67). -/
def execSdciDeviceEvent (n : Fin 64) (code : BitVec 16) (s : State) : Host.Outcome State Fault Refusal :=
  let h := s.hub
  s.goes (if h.sdci n && h.up n && !h.taken n 1 then h.pushRx n [0x80000000#32 ||| code.setWidth 32] [lfALERT] else h)

/-- An M-sequence: process data in are latched and written to the image, the staged output leaves (R67, Table 10.4). With
RXD taken nothing comes in (R39). -/
def Hub.mSequence (h : Hub) (n : Fin 64) (pdi : List Byte) (good : Bool) : Hub :=
  if !h.sdci n || !h.up n then h
  else
    let pi := min 32 ((h.cfg n 0).bits 13 8)
    let po := min 32 ((h.cfg n 0).bits 21 16)
    let inp := (pdi ++ List.replicate pi 0).take pi
    let outp := ((h.lane n).pdNext ++ List.replicate po 0).take po
    let h := (h.modLane n fun l => { l with pdOut := outp }).devOut n [0] outp
    if h.taken n 1 then h else (h.modLane n fun l => { l with pdIn := inp }).pimInput n inp good

/-- SDCI_M_SEQUENCE (R67). -/
def execSdciMSequence (n : Fin 64) (pdi : List Byte) (good : Bool) (s : State) : Host.Outcome State Fault Refusal :=
  s.goes (s.hub.mSequence n pdi good)

/-! ## Quadrature (R68) -/

/-- The image write of a count: at most every 256 ns (102.4 ticks), the latest value (Table 10.4). -/
def Hub.quadPim (h : Hub) (n : Fin 64) : Hub :=
  let l := h.lane n
  if l.pimLast.any fun t => decide (h.now < t + 103) then h.modLane n fun l => { l with pimDue := true }
  else (h.modLane n fun l => { l with pimLast := some h.now, pimDue := false }).pimInput n (leBytes (h.cfg n 1))

/-- What a filtered transition adds to the count: +1, -1 or 0, by MODE and DIRINV (Table 2.25). Direction: A leading B
counts up; in mode 3 a rising pulse counts up while B is high (log entry 19). -/
def quadStep (mode : Nat) (inv a b a' b' : Bool) : Int :=
  let up := if a != a' then a' != b else a == b'
  let counts := if mode = 2 then true
    else if mode = 1 then a != a'
    else if mode = 0 then a != a' && !b
    else !a && a'
  let up := if mode = 3 then b' else up
  if counts then (if up != inv then 1 else -1) else 0

/-- A filtered change of A and B (R68); outside UP the levels are followed and nothing is counted (R502). A taken
input keeps its level (R39). -/
def Hub.quadCount (h : Hub) (n : Fin 64) (qa qb : Bool) : Hub :=
  let qa := if h.taken n 0 then (h.lane n).qa else qa
  let qb := if h.taken n 1 then (h.lane n).qb else qb
  if h.fn n ≠ fnQUAD then h
  else if !h.up n then h.modLane n fun l => { l with qa := qa, qb := qb }
  else
    let l := h.lane n
    let both := (l.qa != qa) && (l.qb != qb)
    let h := h.modLane n fun l => { l with qa := qa, qb := qb }
    if both then h.laneFlags n [lfPROTO]
    else if (l.qa == qa) && (l.qb == qb) then h
    else
      let d := quadStep ((h.cfg n 0).bits 1 0) ((h.cfg n 0).getLsbD 14) l.qa l.qb qa qb
      if d = 0 ∨ l.preset = some h.now then h
      else (h.setCfg n 1 (h.cfg n 1 + BitVec.ofInt 32 d)).quadPim n

/-- QUAD_COUNT (R68). -/
def execQuadCount (n : Fin 64) (qa qb : Bool) (s : State) : Host.Outcome State Fault Refusal :=
  s.goes (s.hub.quadCount n qa qb)

/-- A Z edge by ZMODE (Table 2.25): latch, latch and clear, or clear at the first and latch at the later ones. -/
def Hub.quadZ (h : Hub) (n : Fin 64) : Hub :=
  if h.fn n ≠ fnQUAD ∨ !h.up n ∨ h.taken n 2 then h
  else
    let m := (h.cfg n 0).bits 13 12
    let latch := fun (h : Hub) => (h.setCfg n 2 (h.cfg n 1)).setCfg n 3 (BitVec.ofNat 32 (h.ctrOf n))
    if m = 0 then h
    else if m = 1 then latch h
    else if m = 2 then ((latch h).setCfg n 1 0).quadPim n
    else if (h.lane n).firstZ then
      ((h.modLane n fun l => { l with firstZ := false }).setCfg n 1 0).quadPim n
    else latch h

/-- QUAD_Z_EDGE (R68). -/
def execQuadZEdge (n : Fin 64) (s : State) : Host.Outcome State Fault Refusal :=
  s.goes (s.hub.quadZ n)

/-- A write of COUNT: it is in force from the next count tick, and a count of the same tick is lost (R68). -/
def Hub.quadPreset (h : Hub) (n : Fin 64) (v : W32) : Hub :=
  let h := h.setCfg n 1 v
  if h.fn n = fnQUAD then (h.modLane n fun l => { l with preset := some h.now }).quadPim n else h

/-- QUAD_PRESET (R68). -/
def execQuadPreset (a : Access) (n : Fin 64) (v : W32) (s : State) : Host.Outcome State Fault Refusal :=
  s.goes (s.hub.cmdWrite a (laneBase n + 0x54) fun h => some (h.quadPreset n v))

/-! ## The end of a device access (R71) -/

/-- Bytes of a device answer cut or filled to a length: bytes the device does not hold are free values. -/
def Hub.fit (h : Hub) (bs : List Byte) (len : Nat) : Hub × List Byte :=
  if len ≤ bs.length then (h, bs.take len)
  else (h.draw.2, bs ++ List.replicate (len - bs.length) (BitVec.ofNat 8 h.draw.1))

/-- Is an access one to SDCI process data (Table 2.26)? -/
def Hub.isPd (h : Hub) (n : Fin 64) (rq : Request) : Bool := h.fn n == fnSDCI && rq.dev.testBit 24

/-- An access to process data ends: a read takes the latest data in, a write stages the data of the next cycle (Table 2.26). -/
def Hub.pdDone (h : Hub) (n : Fin 64) (rq : Request) : Hub :=
  if isRead rq.op then
    let r := h.fit (h.lane n).pdIn rq.len
    r.1.devEnd n stOK r.2
  else (h.modLane n fun l => { l with pdNext := rq.data ++ l.pdNext.drop rq.data.length }).devEnd n stOK []

/-- The completion a device's answer maps to (R71), with the flags and the ISDU code it leaves. -/
def Hub.deviceDone (h : Hub) (n : Fin 64) (ans : DeviceAnswer) : Hub :=
  if !(h.lane n).devRun then h
  else match ans with
    | .ok data => match (h.lane n).dev.head? with
      | some d => if h.isPd n d.rq then h.pdDone n d.rq else h.devEnd n stOK data
      | none => h
    | .nack => (h.laneFlags n [lfPROTO]).devEnd n stTIMEOUT []
    | .stretch => (h.laneFlags n [lfPROTO]).devEnd n stTIMEOUT []
    | .noDevice => h.devEnd n stTIMEOUT []
    | .isduRefused code => (h.setCfg n 2 ((h.cfg n 2 &&& 0xFFFF0000#32) ||| code.setWidth 32)).devEnd n stUR []
    | .poison => (h.raise 2 (laneUnit n) causePARITY).devEnd n stPOISON []

/-- DEVICE_ACCESS_DONE (R71). -/
def execDeviceAccessDone (n : Fin 64) (ans : DeviceAnswer) (s : State) : Host.Outcome State Fault Refusal :=
  s.goes (s.hub.deviceDone n ans)

end Sys2Proof.Machine
end

