-- ==== Sys2Proof/Machine/ReedIns.lean ====
section
/-! DEFINITION. The reed instruction set (03 Tables 3.3, 3.4): instructions, their 32-bit words, and the ALU functions
and branch conditions. -/

namespace Sys2Proof.Machine

/-- A reed instruction with its fields as Table 3.3 places them. Codes that can be illegal (F, C, E, SEL, P) stay as
they stand in the word: an illegal one faults the context when the instruction runs. -/
inductive ReedIns where
  | nop | halt | ret | taddb | waitt
  | li (a : BitVec 3) (imm : BitVec 16)
  | lih (a : BitVec 3) (imm : BitVec 16)
  | alu (a b : BitVec 3) (f : BitVec 4)
  | alui (a : BitVec 3) (f : BitVec 4) (imm : BitVec 16)
  | br (a b : BitVec 3) (c : BitVec 4) (tgt : BitVec 11)
  | djnz (a : BitVec 3) (tgt : BitVec 11)
  | jmp (tgt : BitVec 11)
  | call (tgt : BitVec 11)
  | tset (imm : BitVec 16)
  | tadd (u : Bool) (imm : BitVec 16)
  | wedge (p : BitVec 5) (e : BitVec 2) (tmo : BitVec 16)
  | act (p : BitVec 5) (v : BitVec 2) (adv : Bool)
  | actg (p : BitVec 5) (adv : Bool) (g : BitVec 3)
  | sho (p : BitVec 5) (lsb : Bool) (n : BitVec 5)
  | shi (p : BitVec 5) (lsb : Bool) (n : BitVec 5)
  | bpin (p : BitVec 5) (l : Bool) (hint : BitVec 2) (tgt : BitVec 11)
  | pull (a lane : BitVec 3) (w : Bool)
  | push (a lane : BitVec 3)
  | sig (imm : BitVec 8)
  | frd (a b : BitVec 3)
  | fwr (a b : BitVec 3)
  | movs (a : BitVec 3) (sel : BitVec 4)
  | movt (a : BitVec 3) (sel : BitVec 4)
  deriving DecidableEq, Repr

/-- Field A, [25:23]. -/
def fieldA (w : W32) : BitVec 3 := w.extractLsb' 23 3
/-- Field B, or the lane of PULL and PUSH, [22:20]. -/
def fieldB (w : W32) : BitVec 3 := w.extractLsb' 20 3
/-- Field F, C or SEL, [19:16]. -/
def fieldF (w : W32) : BitVec 4 := w.extractLsb' 16 4
/-- Field P, [25:21]. -/
def fieldP (w : W32) : BitVec 5 := w.extractLsb' 21 5
/-- Field IMM16 or TO, [15:0]. -/
def fieldI (w : W32) : BitVec 16 := w.extractLsb' 0 16
/-- Field TGT, [10:0]. -/
def fieldT (w : W32) : BitVec 11 := w.extractLsb' 0 11

/-- The instruction a word carries; an opcode that Table 3.3 does not list carries none (R83). -/
def decodeReed (w : W32) : Option ReedIns :=
  match (w.extractLsb' 26 6).toNat with
  | 0x00 => some .nop
  | 0x01 => some .halt
  | 0x02 => some (.li (fieldA w) (fieldI w))
  | 0x03 => some (.lih (fieldA w) (fieldI w))
  | 0x04 => some (.alu (fieldA w) (fieldB w) (fieldF w))
  | 0x05 => some (.alui (fieldA w) (fieldF w) (fieldI w))
  | 0x06 => some (.br (fieldA w) (fieldB w) (fieldF w) (fieldT w))
  | 0x07 => some (.djnz (fieldA w) (fieldT w))
  | 0x08 => some (.jmp (fieldT w))
  | 0x09 => some (.call (fieldT w))
  | 0x0A => some .ret
  | 0x10 => some (.tset (fieldI w))
  | 0x11 => some (.tadd (w.getLsbD 19) (fieldI w))
  | 0x12 => some .taddb
  | 0x13 => some .waitt
  | 0x14 => some (.wedge (fieldP w) (w.extractLsb' 19 2) (fieldI w))
  | 0x18 => some (.act (fieldP w) (w.extractLsb' 19 2) (w.getLsbD 18))
  | 0x19 => some (.actg (fieldP w) (w.getLsbD 18) (w.extractLsb' 15 3))
  | 0x1A => some (.sho (fieldP w) (w.getLsbD 17) (w.extractLsb' 0 5))
  | 0x1B => some (.shi (fieldP w) (w.getLsbD 17) (w.extractLsb' 0 5))
  | 0x1C => some (.bpin (fieldP w) (w.getLsbD 20) (w.extractLsb' 18 2) (fieldT w))
  | 0x20 => some (.pull (fieldA w) (fieldB w) (w.getLsbD 19))
  | 0x21 => some (.push (fieldA w) (fieldB w))
  | 0x22 => some (.sig (w.extractLsb' 0 8))
  | 0x23 => some (.frd (fieldA w) (fieldB w))
  | 0x24 => some (.fwr (fieldA w) (fieldB w))
  | 0x28 => some (.movs (fieldA w) (fieldF w))
  | 0x29 => some (.movt (fieldA w) (fieldF w))
  | _ => none

/-- The word of an instruction, bits Table 3.3 does not list written 0 (R83). -/
def encodeReed : ReedIns → W32
  | .nop => 0
  | .halt => 0x01#6 ++ 0#26
  | .ret => 0x0A#6 ++ 0#26
  | .taddb => 0x12#6 ++ 0#26
  | .waitt => 0x13#6 ++ 0#26
  | .li a i => 0x02#6 ++ a ++ 0#7 ++ i
  | .lih a i => 0x03#6 ++ a ++ 0#7 ++ i
  | .alu a b f => 0x04#6 ++ a ++ b ++ f ++ 0#16
  | .alui a f i => 0x05#6 ++ a ++ 0#3 ++ f ++ i
  | .br a b c t => 0x06#6 ++ a ++ b ++ c ++ 0#5 ++ t
  | .djnz a t => 0x07#6 ++ a ++ 0#12 ++ t
  | .jmp t => 0x08#6 ++ 0#15 ++ t
  | .call t => 0x09#6 ++ 0#15 ++ t
  | .tset i => 0x10#6 ++ 0#10 ++ i
  | .tadd u i => 0x11#6 ++ 0#6 ++ BitVec.ofBool u ++ 0#3 ++ i
  | .wedge p e t => 0x14#6 ++ p ++ e ++ 0#3 ++ t
  | .act p v d => 0x18#6 ++ p ++ v ++ BitVec.ofBool d ++ 0#18
  | .actg p d g => 0x19#6 ++ p ++ 0#2 ++ BitVec.ofBool d ++ g ++ 0#15
  | .sho p l n => 0x1A#6 ++ p ++ 0#3 ++ BitVec.ofBool l ++ 0#12 ++ n
  | .shi p l n => 0x1B#6 ++ p ++ 0#3 ++ BitVec.ofBool l ++ 0#12 ++ n
  | .bpin p l k t => 0x1C#6 ++ p ++ BitVec.ofBool l ++ k ++ 0#7 ++ t
  | .pull a l w => 0x20#6 ++ a ++ l ++ BitVec.ofBool w ++ 0#19
  | .push a l => 0x21#6 ++ a ++ l ++ 0#20
  | .sig i => 0x22#6 ++ 0#18 ++ i
  | .frd a b => 0x23#6 ++ a ++ b ++ 0#20
  | .fwr a b => 0x24#6 ++ a ++ b ++ 0#20
  | .movs a s => 0x28#6 ++ a ++ 0#3 ++ s ++ 0#16
  | .movt a s => 0x29#6 ++ a ++ 0#3 ++ s ++ 0#16

/-- ALU functions (Table 3.4); `none` for a code the table does not list. -/
def reedAlu (f : Nat) (a b : W32) : Option W32 :=
  match f with
  | 0 => some (a + b)
  | 1 => some (a - b)
  | 2 => some (a &&& b)
  | 3 => some (a ||| b)
  | 4 => some (a ^^^ b)
  | 5 => some (a <<< (b.toNat % 32))
  | 6 => some (a >>> (b.toNat % 32))
  | 7 => some (a.sshiftRight (b.toNat % 32))
  | 8 => some b
  | _ => none

/-- Branch conditions (Table 3.4). -/
def reedCond (c : Nat) (a b : W32) : Option Bool :=
  match c with
  | 0 => some (a == b)
  | 1 => some (a != b)
  | 2 => some (a.ult b)
  | 3 => some (!a.ult b)
  | 4 => some (a.slt b)
  | 5 => some (!a.slt b)
  | 6 => some ((a &&& b) != 0)
  | 7 => some ((a &&& b) == 0)
  | _ => none

end Sys2Proof.Machine
end

