-- ==== Sys2Proof/Machine/ReedLow.lean ====
section
/-! DEFINITION. Reed engines and action queues: contexts, actions, samples, speculation, faults, start, stop and
triggers (03 R76-R117). A tick has been reached when it lies up to 2^63 ticks behind the counter, so that what a counter
load moves keeps its real instant (R116). -/

namespace Sys2Proof.Machine

/-! ## Access -/

/-- Context x of engine c. -/
def Hub.cx (h : Hub) (c : Fin 8) (x : Fin 16) : Ctx := (h.reed[c]).ctx[x]

/-- Change a context. -/
def Hub.modCtx (h : Hub) (c : Fin 8) (x : Fin 16) (g : Ctx → Ctx) : Hub :=
  h.modReed c fun r => { r with ctx := r.ctx.set x (g r.ctx[x]) }

/-- The action counter of a cluster. -/
def Hub.ctr (h : Hub) (c : Fin 8) : Nat := (h.reed[c]).ctr

/-- Context states (Table 3.14). -/
def cxOFF : Nat := 0
def cxRUN : Nat := 1
def cxHALT : Nat := 2
def cxFAULT : Nat := 3

/-- Lane and pin of a pin number 0-23 (R79). -/
def reedPin (c : Fin 8) (p : Nat) : Fin 64 × Fin 3 :=
  (⟨8 * c.val + p / 3 % 8, by omega⟩, ⟨p % 3, Nat.mod_lt _ (by decide)⟩)

/-- The context that owns a pin (Table 3.10). -/
def Hub.pinOwner (h : Hub) (c : Fin 8) (p : Nat) : Nat := h.fld (F.REED_PMAP_PINS c (p / 8)) / 16 ^ (p % 8) % 16

/-- May context x drive pin p (R79)? -/
def Hub.ownsPin (h : Hub) (c : Fin 8) (x : Fin 16) (p : Nat) : Bool :=
  h.fld (F.LN_PIN_MODE (reedPin c p).1 (reedPin c p).2) == pmREED && h.pinOwner c p == x.val

/-- The synchronised level of a pin after INV (R92). -/
def Hub.senses (h : Hub) (c : Fin 8) (p : Nat) : Bool :=
  let n := (reedPin c p).1
  let q := (reedPin c p).2
  ((h.lane n).pin[q]).raw != h.bit (F.LN_PIN_INV n q)

/-- Add to a 64-bit count. -/
def add64 (a d : Nat) : Nat := (a + d) % 2 ^ 64

/-- Ticks since tick t when the counter shows c. -/
def since (c t : Nat) : Nat := (c + 2 ^ 64 - t % 2 ^ 64) % 2 ^ 64

/-- Has the counter c reached tick t? -/
def reached (c t : Nat) : Bool := decide (since c t < 2 ^ 63)

/-- A sample takes its place in the order of ticks (R93). -/
def putSample (s : Sample) : List Sample → List Sample
  | [] => [s]
  | a :: r => if s.tick != a.tick && reached a.tick s.tick then s :: a :: r else a :: putSample s r

/-- Is a sample of the BPIN that stalls for it? -/
def Sample.holds (s : Sample) : Bool := s.use == .hold

/-! ## Sticky flags, faults -/

/-- Set a sticky flag of a context, [31:28] as bits 3-0, and CTX_STICKY. -/
def Hub.ctxFlag (h : Hub) (c : Fin 8) (x : Fin 16) (b : Nat) : Hub :=
  ((h.modCtx c x fun t => { t with flags := t.flags ||| 2 ^ b }).mark (F.REED_CTX_FLAG c x b).key 1).flag (.reed c)
    (F.REED_FLAG_CTX_STICKY c)

/-- Remove entries of the queue and count them in SQUASHCNT. -/
def Hub.squash (h : Hub) (c : Fin 8) (p : Action → Bool) : Hub :=
  let q := (h.reed[c]).q
  (h.modReed c fun r => { r with q := q.filter fun e => !p e }).countSat (F.REED_SQUASHCNT_COUNT c) (q.filter p).length

/-- Is an entry of context x? -/
def Action.of_ (e : Action) (x : Fin 16) : Bool := e.src == .ctx x

/-- The pins a context owns go to their IDLE level (R104, R107). -/
def Hub.idlePins (h : Hub) (c : Fin 8) (x : Fin 16) : Hub :=
  (List.range 24).foldl (fun h p => if h.ownsPin c x p then
    h.modPin (reedPin c p).1 (reedPin c p).2 fun q => { q with drv := 2 } else h) h

/-- A context faults (R104). -/
def Hub.ctxFault (h : Hub) (c : Fin 8) (x : Fin 16) (cause : Nat) : Hub :=
  let pc := (h.cx c x).r.pc
  let h := h.squash c (·.of_ x)
  let h := h.modCtx c x fun t =>
    { t with st := cxFAULT, wait := 0, cause := cause, samples := [], bits := 0, mid := false, wedge := none, held := none,
             fresh := true, r := { t.r with sc := 0 } }
  let h := (h.idlePins c x).flag (.reed c) (F.REED_FLAG_CTX_FAULT c)
  h.raise 2 (reedUnit c) causeSTOP pc

/-- A stall: WAIT tells its kind (Table 3.14). -/
def Hub.stall (h : Hub) (c : Fin 8) (x : Fin 16) (w : Nat) : Hub := h.modCtx c x fun t => { t with wait := w }

/-- An instruction that would fault: it faults at depth 0 and stalls on a speculative path (R96). -/
def Hub.faultOr (h : Hub) (c : Fin 8) (x : Fin 16) (cause : Nat) : Hub :=
  if (h.cx c x).ckpt.isEmpty then h.ctxFault c x cause else h.stall c x 3

/-- The instruction completes: registers change and the next one follows. -/
def Hub.done (h : Hub) (c : Fin 8) (x : Fin 16) (g : CtxRegs → CtxRegs) : Hub :=
  h.modCtx c x fun t => { t with wait := 0, r := let r := g t.r; { r with pc := (t.r.pc + 1) % 2048 } }

/-- The instruction completes and goes on at a target. -/
def Hub.goTo (h : Hub) (c : Fin 8) (x : Fin 16) (pc : Nat) (g : CtxRegs → CtxRegs := id) : Hub :=
  h.modCtx c x fun t => { t with wait := 0, r := let r := g t.r; { r with pc := pc } }

/-! ## The time cursor (R85) -/

/-- Add taps to TC. -/
def CtxRegs.addTaps (r : CtxRegs) (d : Int) : CtxRegs :=
  let u : Int := ((r.tc * 10 + r.tap : Nat) : Int) + d
  { r with tc := ((u / 10) % ((2 ^ 64 : Nat) : Int)).toNat, tap := (u % 10).toNat }

/-- TC + BT. -/
def CtxRegs.addBt (r : CtxRegs) : CtxRegs := r.addTaps (r.bt : Nat)

/-- Is a tick beyond the run-ahead window (R86)? -/
def Hub.beyond (h : Hub) (c : Fin 8) (t : Nat) : Bool :=
  !reached (h.ctr c + min 25600 (h.fld (F.REED_RUNAHEAD_TICKS c))) t

/-! ## The action queue (R87-R91) -/

/-- Put an entry into the queue. -/
def Hub.aqPut (h : Hub) (c : Fin 8) (e : Action) : Hub :=
  let h := h.modReed c fun r => { r with q := r.q ++ [{ e with idx := r.seq }], seq := r.seq + 1 }
  h.peak (F.REED_AQSTAT_PEAK c) (h.reed[c]).q.length

/-- Is there an entry for a context (R87)? -/
def Hub.aqRoom (h : Hub) (c : Fin 8) : Bool :=
  decide (h.fld (F.REED_AQCFG_BRG_RSV c) < 256 - (h.reed[c]).q.length)

/-- A context queues value v on pin p at TC; it reaches the latch 4 ticks after this slot (R88). -/
def Hub.aqContext (h : Hub) (c : Fin 8) (x : Fin 16) (p v : Nat) : Hub :=
  let t := h.cx c x
  let h := h.modReed c fun r => { r with asked := some ⟨h.now, x, r.seq, t.r, t.bits, t.mid⟩ }
  h.aqPut c { due := t.r.tc, tap := t.r.tap, pin := p, v := v, src := .ctx x, depth := t.ckpt.length, ready := h.now + 4 }

/-- The bridge takes an entry of a tick before a context does: where both cannot have one, the context's entry of this
tick is taken back and its instruction stalls (R87). -/
def Hub.aqYield (h : Hub) (c : Fin 8) : Hub :=
  match (h.reed[c]).asked with
  | none => h
  | some a =>
    if a.at_ ≠ h.now ∨ h.aqRoom c ∨ !((h.reed[c]).q.any fun e => e.idx == a.idx) then h
    else
      let h := h.modReed c fun r => { r with q := r.q.filter fun e => e.idx != a.idx, asked := none }
      h.modCtx c a.x fun t => { t with r := a.r, bits := a.bits, mid := a.mid, wait := 3 }

/-- A bridge entry; a full queue refuses it (R87). One that is already due is late and acts from the next tick on (R88). -/
def Hub.aqBridge (h : Hub) (c : Fin 8) (p v due tap : Nat) : Hub × Bool :=
  let h := h.aqYield c
  if 256 ≤ (h.reed[c]).q.length then
    ((h.countSat (F.REED_REFUSECNT_COUNT c)).flag (.reed c) (F.REED_FLAG_REFUSED c), false)
  else (h.aqPut c { due := due, tap := tap, pin := p, v := v, src := .bridge, ready := h.now + 1 }, true)

/-- Retire order when the counter shows c: due tick, tap, insertion (R89). -/
def Action.before (c : Nat) (a b : Action) : Bool :=
  decide (since c b.due < since c a.due) ||
    (a.due == b.due && (decide (a.tap < b.tap) || (a.tap == b.tap && decide (a.idx < b.idx))))

/-- Insert in retire order. -/
def Action.place (c : Nat) (e : Action) : List Action → List Action
  | [] => [e]
  | a :: r => if e.before c a then e :: a :: r else a :: Action.place c e r

/-- Of entries in retire order, those that are the first for their pin. -/
def firstPerPin : List Action → List Action
  | [] => []
  | a :: r => a :: (firstPerPin r).filter fun e => e.pin != a.pin

/-- A timed action is discarded at its lane (R72, R91). -/
def Hub.actDrop (h : Hub) (n : Fin 64) : Hub := (h.countSat (F.LN_ACTDROP_COUNT n)).laneFlags n [lfACT_DROP]

/-- The level a pin holds: what it drives, what a keeper holds, or what it senses. -/
def Hub.holds (h : Hub) (n : Fin 64) (q : Fin 3) : Bool :=
  match h.ball n q with
  | .drive b _ => b
  | .keep b => b
  | _ => ((h.lane n).pin[q]).raw

/-- An entry acts on its pin (R57, R91, R160). A PWM pin whose mode changed from OUT takes V = 2 and 3 as nothing
(log entry 21). -/
def Hub.actOn (h : Hub) (n : Fin 64) (q : Fin 3) (e : Action) (late : Bool) : Hub :=
  let c := clusterOf n
  let sub := if late then 0 else e.tap + h.trim n q
  let h := h.modPin n q fun p => { p with actAt := some h.now, swTick := h.ctr c + sub / 10, swTap := sub % 10 }
  match e.src with
  | .ctx _ =>
    let d := ((h.lane n).pin[q]).drv
    let v := if e.v < 3 then e.v
      else if d < 2 then 1 - d else b2n ((!h.holds n q) != h.bit (F.LN_PIN_INV n q))
    h.modPin n q fun p => { p with drv := v }
  | .bridge =>
    if h.fld (F.LN_PIN_MODE n q) = pmOUT then
      if e.v = 2 then h.modPin n q fun p => { p with released := true }
      else h.latch n q (if e.v = 3 then !((h.fld (F.LN_IO_OUT n)).testBit q) else e.v == 1)
    else if e.v = 1 then h.pwmStart n
    else if e.v = 0 then h.modLane n fun l => { l with pwmOn := false, pwmHalt := true }
    else h

/-- An entry retires: parity, lane state, pin mode and owner, lateness (R88, R91, R112); which of the 256 indexes an entry
holds is a free value (log entry 109). -/
def Hub.retireOne (h : Hub) (c : Fin 8) (e : Action) : Hub :=
  let n := (reedPin c e.pin).1
  let q := (reedPin c e.pin).2
  let m := h.fld (F.LN_PIN_MODE n q)
  let ok := match e.src with
    | .ctx x => h.ownsPin c x e.pin
    | .bridge => m == pmOUT || m == pmPWM
  if !e.good then
    (h.draw.2.flag (.reed c) (F.REED_FLAG_AQ_PARITY c)).raise 2 (reedUnit c) causePARITY (h.draw.1 % 256)
  else if !h.up n || h.prlocked c || !ok then h.actDrop n
  else
    let late := e.due != h.ctr c
    let h := h.actOn n q e late
    if !late then h
    else
      let h := h.countSat (F.REED_LATECNT_COUNT c)
      match e.src with
      | .ctx x => h.ctxFlag c x 0
      | .bridge => h

/-- Due entries retire: of two of one due tick for one pin the later inserted acts and the other is discarded, at most 8 in
a tick, and a pin changes at most once in a tick, so that late entries of different due ticks follow one another (R89,
R90). A later entry that fails its own checks at retire still discards the earlier one (DESIGN CHOICE, log entry 124). -/
def Hub.aqRetire (h : Hub) (c : Fin 8) : Hub :=
  let r := h.reed[c]
  let now := fun (e : Action) => e.depth == 0 && reached r.ctr e.due && decide (e.ready ≤ h.now) &&
    ((h.lane (reedPin c e.pin).1).pin[(reedPin c e.pin).2]).actAt != some h.now
  let cand := r.q.filter now
  let beaten := fun (e : Action) => now e && cand.any fun f => f.pin == e.pin && f.due == e.due && decide (e.idx < f.idx)
  let order := firstPerPin ((cand.filter fun e => !beaten e).foldl (fun l e => e.place r.ctr l) [])
  let used := if r.retAt = h.now then r.retN else 0
  let act := order.take (8 - used)
  let ids := act.map (·.idx)
  let h := h.modReed c fun r =>
    { r with q := r.q.filter fun e => !beaten e && !ids.contains e.idx, retAt := h.now, retN := used + act.length }
  let h := if cand.any beaten then h.countSat (F.REED_COLLCNT_COUNT c) (cand.filter beaten).length else h
  act.foldl (fun h e => h.retireOne c e) h

/-! ## Samples and speculation (R92-R99) -/

/-- A sample bit shifts in (R93). -/
def CtxRegs.shiftIn (r : CtxRegs) (lsb level : Bool) : CtxRegs :=
  let b := BitVec.ofNat 32 (b2n level)
  { r with sc := r.sc - 1, sh := if lsb then (r.sh >>> 1) ||| (b <<< 31) else (r.sh <<< 1) ||| b }

/-- The context goes back to checkpoint k: deeper entries and samples go, the path's state is restored with a PC. -/
def Hub.restore (h : Hub) (c : Fin 8) (x : Fin 16) (k : Nat) (alt : Bool) : Hub :=
  let t := h.cx c x
  match t.ckpt[k]? with
  | none => h
  | some (r, a) =>
    let h := h.squash c fun e => e.of_ x && decide (k < e.depth)
    h.modCtx c x fun t =>
      { t with
        r := { r with pc := if alt then a else r.pc, cntHi := t.r.cntHi }
        ckpt := t.ckpt.take k
        samples := t.samples.filter fun s => match s.use with
          | .shi d _ => decide (d ≤ k)
          | .br d _ _ => decide (d < k)
          | .hold => false
        bits := 0, mid := false, wedge := none, held := none, wait := 0 }

/-- Branch k resolves as predicted: everything deeper moves up one depth (R97, R99). -/
def Hub.confirm (h : Hub) (c : Fin 8) (x : Fin 16) (k : Nat) : Hub :=
  let up := fun (d : Nat) => if k < d then d - 1 else d
  let h := h.modReed c fun r =>
    { r with q := r.q.map fun e => if e.of_ x && decide (k < e.depth) then
        { e with depth := e.depth - 1, ready := if e.depth = 1 then h.now + 4 else e.ready } else e }
  h.modCtx c x fun t =>
    { t with
      ckpt := t.ckpt.eraseIdx k
      samples := t.samples.map fun s => { s with use := match s.use with
        | .shi d l => .shi (up d) l
        | .br d l w => .br (up d) l w
        | .hold => .hold } }

/-- The first sample of a context, if it is that of the tick named, resolves 3 ticks after its own, with the level its pin had then (R92, R97, R98). -/
def Hub.sampleResolve (h : Hub) (c : Fin 8) (x : Fin 16) (tick : Nat) : Hub :=
  match (h.cx c x).samples with
  | [] => h
  | s :: rest =>
    if s.tick ≠ tick ∨ !reached (h.ctr c) (s.tick + 3) then h
    else
      let level := s.seen.getD (h.senses c s.pin)
      let h := h.modCtx c x fun t => { t with samples := rest }
      match s.use with
      | .hold => h.modCtx c x fun t => { t with held := some level }
      | .shi d lsb => h.modCtx c x fun t =>
        { t with
          r := t.r.shiftIn lsb level
          ckpt := t.ckpt.mapIdx fun i k => if d ≤ i then (k.1.shiftIn lsb level, k.2) else k }
      | .br d l taken =>
        if (level == l) == taken then h.confirm c x d
        else (h.restore c x d true).countSat (F.REED_MISPCNT_COUNT c)

/-- The tick a sample is taken at: TC, or now with LATE where TC has passed (R92). -/
def Hub.sampleAt (h : Hub) (c : Fin 8) (x : Fin 16) : Hub × Nat :=
  let tc := (h.cx c x).r.tc
  if tc ≠ h.ctr c ∧ reached (h.ctr c) tc then (h.ctxFlag c x 0, h.ctr c) else (h, tc)

/-- The level of a pin at a sample's tick leaves the synchroniser 2 ticks later (R59, R92). -/
def Hub.samplesSee (h : Hub) (c : Fin 8) : Hub :=
  if (h.reed[c]).ctx.toList.all fun t => t.samples.isEmpty then h
  else
    let see := fun (s : Sample) =>
      if s.seen.isNone && reached (h.ctr c) (s.tick + 2) then { s with seen := some (h.senses c s.pin) } else s
    h.modReed c fun r => { r with ctx := r.ctx.map fun t => { t with samples := t.samples.map see } }

/-! ## Start and stop (R105-R109) -/

/-- Does the slot table give slot s to context x (R77)? -/
def Hub.slotOwner (h : Hub) (c : Fin 8) (s : Nat) : Nat :=
  (if s < 8 then h.fld (F.REED_SLOT0_S c) / 16 ^ s else h.fld (F.REED_SLOT1_S c) / 16 ^ (s - 8)) % 16

/-- A context starts afresh at its ENTRY with TC at a count (R105). -/
def Hub.ctxFresh (h : Hub) (c : Fin 8) (x : Fin 16) (tc : Nat) : Hub :=
  let e := h.fld (F.REED_CTX_W c (16 * x.val + 1)) % 2048
  h.modCtx c x fun t =>
    { st := cxRUN, flags := t.flags, r := { pc := e, bt := t.r.bt, tc := tc, tap := 0, cntHi := t.r.cntHi } }

/-- The engine starts in this cycle, its slot counter at 0 (R76, R105). -/
def Hub.reedStart (h : Hub) (c : Fin 8) : Hub :=
  let resume := h.bit (F.REED_CTL_RESUME c)
  let en := BitVec.ofNat 16 (h.fld (F.REED_CTXEN_EN c))
  let h := (h.on (F.REED_STAT_ACTIVE c)).modReed c fun r => { r with start := h.now, ran := none, startWait := false, en := en }
  (List.finRange 16).foldl (fun h (x : Fin 16) =>
    if !en.getLsbD x then h.modCtx c x fun t => { t with st := cxOFF }
    else if resume && !(h.cx c x).fresh then h.modCtx c x fun t => { t with st := cxRUN, wait := 0 }
    else h.ctxFresh c x (h.ctr c)) h

/-- An FRD is abandoned: its completion finds nobody (R106). -/
def Hub.frdAbandon (h : Hub) (c : Fin 8) (x : Fin 16) : Hub :=
  let plain := fun (w : Issuer) => if w = .reed c x then Issuer.plain else w
  h.modBrg fun b =>
    { b with
      tag := b.tag.map fun t => match t with
        | .use t => .use { t with who := plain t.who }
        | t => t
      wait := b.wait.map fun w => { w with who := plain w.who } }

/-- A context stops at an instruction boundary: speculation undone, an FRD abandoned, a shift aborted (R106, R107). What an
FRD completion or the end of a WEDGE wrote before stays written (DESIGN CHOICE, log entry 124). A context in HALT is left
as it is, its pending samples too (DESIGN CHOICE, log entry 124). -/
def Hub.ctxStop (h : Hub) (c : Fin 8) (x : Fin 16) : Hub :=
  if (h.cx c x).st ≠ cxRUN then h
  else
    let h := (h.restore c x 0 false).frdAbandon c x
    let h := h.modCtx c x fun t =>
      { t with st := cxOFF, wait := 0, wedge := none, held := none, frd := none, frdCome := false,
               samples := t.samples.filter fun s => !s.holds }
    let t := h.cx c x
    if t.mid || decide (0 < t.r.sc) then
      let h := h.squash c (·.of_ x)
      let h := h.modCtx c x fun t =>
        { t with samples := [], bits := 0, mid := false, fresh := true, r := { t.r with sh := 0, sc := 0 } }
      (h.idlePins c x).ctxFlag c x 3
    else h

/-- An armed trigger is cancelled. -/
def Hub.disarm (h : Hub) (c : Fin 8) : Hub := (h.modReed c fun r => { r with trig := none }).off (F.REED_SYNC_ARM c)

/-- Does an armed trigger fire in this cycle: the counter equals its value, or had passed it before the ARM write's cycle
ended, or the Gnomon has fired (R114, R115)? -/
def Hub.trigDue (h : Hub) (c : Fin 8) : Bool :=
  (h.reed[c]).trig.any fun t =>
    if t.gno then t.fire.any fun k => decide (k ≤ h.now)
    else t.time == h.ctr c || (decide (t.time < h.ctr c) && decide (t.at_ < h.now))

/-- RUN is written 0: the engine stops from the next cycle on, and a trigger that would start it or that fires in this
cycle is cancelled (R106, R117, Table 3.7). -/
def Hub.reedStop (h : Hub) (c : Fin 8) : Hub :=
  let h := h.off (F.REED_CTL_RUN c)
  let h := if ((h.reed[c]).trig.any fun t => t.doStart) || h.trigDue c then h.disarm c else h
  h.modReed c fun r => { r with startWait := false }

/-- RUN is written 1: the engine starts in the next cycle, or after a stop under way; `none` while the program memory must
be written again (R105, R111). -/
def Hub.reedRun (h : Hub) (c : Fin 8) : Option Hub :=
  let r := h.reed[c]
  if r.pmNeed ≠ 0 then none
  else
    let h := h.on (F.REED_CTL_RUN c)
    some (if (r.trig.any fun t => t.doStart) || !h.drives then h
      else if h.bit (F.REED_STAT_ACTIVE c) && !r.stopping then h
      else h.modReed c fun r => { r with startWait := true })

/-- Every context has stopped: ACTIVE falls and STOPPED sets (R106). -/
def Hub.reedEnd (h : Hub) (c : Fin 8) : Hub :=
  let h := (List.finRange 16).foldl (fun h (x : Fin 16) => h.ctxStop c x) h
  ((h.off (F.REED_STAT_ACTIVE c)).modReed c fun r => { r with stopping := false }).flag (.reed c) (F.REED_FLAG_STOPPED c)

/-- Does a context own a slot? -/
def Hub.ownsSlot (h : Hub) (c : Fin 8) (x : Fin 16) : Bool := (List.range 16).any fun s => h.slotOwner c s == x.val

/-- Have all contexts with a slot stopped, each at a slot of its own (R106)? -/
def Hub.allStopped (h : Hub) (c : Fin 8) : Bool :=
  (List.finRange 16).all fun x => (h.cx c x).st != cxRUN || !h.ownsSlot c x

/-- The stop comes to its end (R106). -/
def Hub.reedStopped (h : Hub) (c : Fin 8) : Hub := if (h.reed[c]).stopping && h.allStopped c then h.reedEnd c else h

/-- FLUSH discards every entry that came from a context, in the next tick (R108). -/
def Hub.reedFlush (h : Hub) (c : Fin 8) : Hub := h.on (F.REED_CTL_FLUSH c)

/-- A CTXEN bit is set: in a running engine the context starts at its ENTRY in its next slot (R109). -/
def Hub.ctxEnable (h : Hub) (c : Fin 8) (x : Fin 16) : Hub :=
  let v := h.fld (F.REED_CTXEN_EN c)
  if v.testBit x then h else h.put (F.REED_CTXEN_EN c) (v + 2 ^ x.val)

/-- A CTXEN bit is cleared: in a running engine the context stops alone at its next slot (R109). -/
def Hub.ctxDisable (h : Hub) (c : Fin 8) (x : Fin 16) : Hub :=
  let v := h.fld (F.REED_CTXEN_EN c)
  if v.testBit x then h.put (F.REED_CTXEN_EN c) (v - 2 ^ x.val) else h

/-- The context whose slot this cycle is. -/
def Hub.slotNow (h : Hub) (c : Fin 8) : Fin 16 :=
  ⟨h.slotOwner c ((h.now - (h.reed[c]).start) % 16), by unfold Hub.slotOwner; omega⟩

/-- The end of a cycle in an engine: samples see their pins, and the context of the slot stops where the engine stops or
its enable has been cleared (R92, R106, R109). -/
def Hub.reedLeave (h : Hub) (c : Fin 8) : Hub :=
  let h := h.samplesSee c
  if !h.bit (F.REED_STAT_ACTIVE c) then h
  else
    let x := h.slotNow c
    if (h.reed[c]).stopping then h.ctxStop c x
    else if (h.reed[c]).en.getLsbD x then h
    else (h.ctxStop c x).modCtx c x fun t => { t with st := cxOFF }

/-- The start of a cycle in an engine: a flush, a start, a stop and the context enables written in the last cycle reach it,
a stop ends after 16 cycles, and an enabled context that is OFF starts in its slot (R105, R106, R108, R109). -/
def Hub.reedEnter (h : Hub) (c : Fin 8) : Hub :=
  let h := if h.bit (F.REED_CTL_FLUSH c) then (h.squash c fun e => e.src != .bridge).off (F.REED_CTL_FLUSH c) else h
  if !h.bit (F.REED_STAT_ACTIVE c) then (if (h.reed[c]).startWait && h.drives then h.reedStart c else h)
  else if (h.reed[c]).stopping then (if (h.reed[c]).stopAt + 16 ≤ h.now then h.reedEnd c else h)
  else if !h.bit (F.REED_CTL_RUN c) then h.modReed c fun r => { r with stopping := true, stopAt := h.now }
  else
    let h := h.modReed c fun r => { r with en := BitVec.ofNat 16 (h.fld (F.REED_CTXEN_EN c)) }
    let x := h.slotNow c
    if (h.reed[c]).en.getLsbD x && (h.cx c x).st == cxOFF then h.ctxFresh c x (h.ctr c) else h

/-- A word of program memory fails parity at fetch (R111). -/
def Hub.pmParity (h : Hub) (c : Fin 8) (pc : Nat) : Hub :=
  let h := (h.reedStop c).modReed c fun r => { r with pmNeed := BitVec.allOnes 2048 }
  (h.flag (.reed c) (F.REED_FLAG_PM_PARITY c)).raise 2 (reedUnit c) causePARITY (reedBase c + 0x4000 + 4 * pc)

/-- A word of program memory is written (R111). -/
def Hub.pmWrite (h : Hub) (c : Fin 8) (i : Nat) (v : W32) : Hub :=
  h.modReed c fun r =>
    { r with pmem := r.pmem.set 0 i v, pmBad := r.pmBad.filter (· != i), pmNeed := r.pmNeed &&& ~~~ (1#2048 <<< i) }

/-! ## Triggers and counter loads (R114-R117) -/

/-- A counter load rebases queue entries, samples, cursors and anchors; EPOCH counts it (R116). -/
def Hub.ctrLoad (h : Hub) (c : Fin 8) (v : Nat) : Hub :=
  let d := (v + 2 ^ 64 - h.ctr c) % 2 ^ 64
  let tcs := fun (r : CtxRegs) => { r with tc := add64 r.tc d }
  let h := h.modReed c fun r =>
    { r with
      ctr := v
      q := r.q.map fun e => { e with due := add64 e.due d }
      anc := { r.anc with n := add64 r.anc.n d }
      shadow := { r.shadow with n := add64 r.shadow.n d }
      ctx := r.ctx.map fun t =>
        { t with r := tcs t.r, ckpt := t.ckpt.map fun k => (tcs k.1, k.2), samples := t.samples.map fun s => { s with tick := add64 s.tick d },
                 wedge := t.wedge.map fun w => (add64 w.1 d, w.2) } }
  let h := { h with lanes := h.lanes.mapIdx fun i (l : Lane) => if i / 8 = c.val then { l with pwmStart := add64 l.pwmStart d } else l }
  h.put (F.REED_STAT_EPOCH c) (h.fld (F.REED_STAT_EPOCH c) + 1)

/-- The Gnomon fires a trigger at its first edge at or after the time, and the cluster acts in the first cycle that begins
at least 5 ns later, the second one after (R115). `k` edges have come with the tick that ends. -/
def Hub.trigGnomon (h : Hub) (k : Nat) (c : Fin 8) : Hub :=
  if k ≠ 0 && (h.reed[c]).trig.any fun t => t.gno && t.fire.isNone && decide (t.time ≤ h.gno.t.sec * 1000000000 + h.gno.t.ns) then
    h.modReed c fun r => { r with trig := r.trig.map fun t => { t with fire := some (h.now + 3) } }
  else h

/-- An armed trigger fires (R114); a start that R111 forbids is left out. -/
def Hub.trigFire (h : Hub) (c : Fin 8) : Hub :=
  let r := h.reed[c]
  match r.trig with
  | none => h
  | some t =>
    let h := (h.disarm c).flag (.reed c) (F.REED_FLAG_SYNC_DONE c)
    let h := if t.doLoad then h.ctrLoad c t.load else h
    if !t.doStart || r.pmNeed != 0 then h
    else
      let h := h.on (F.REED_CTL_RUN c)
      if r.stopping then h.modReed c fun r => { r with startWait := true }
      else if h.bit (F.REED_STAT_ACTIVE c) then h
      else h.reedStart c

/-- The bits of a write of REEDc_SYNC with ARM or DISARM set; `none` where R111 refuses it. An old trigger that fires in
this cycle acts before the new one is armed (R114). -/
def Hub.syncWrite (h : Hub) (c : Fin 8) (v : W32) : Option Hub :=
  let put := fun (h : Hub) => ((h.putB (F.REED_SYNC_DO_LOAD c) (v.bit 4)).putB (F.REED_SYNC_DO_START c) (v.bit 3)).putB
    (F.REED_SYNC_SRC c) (v.bit 2)
  if v.bit 1 then some ((put h).disarm c)
  else if !v.bit 0 then some (put h)
  else if v.bit 3 ∧ (h.reed[c]).pmNeed ≠ 0 then none
  else
    let t := fun (i : Nat) => h.fld (F.REED_SYNCT_VALUE c i)
    let time := if v.bit 2 then (t 2 % 2 ^ 16 * 2 ^ 32 + t 1) * 1000000000 + t 0 % 2 ^ 30 else t 1 * 2 ^ 32 + t 0
    let trig : Trig := { gno := v.bit 2, doStart := v.bit 3, doLoad := v.bit 4, time := time, at_ := h.now,
                         load := h.fld (F.REED_LOAD_VALUE c 1) * 2 ^ 32 + h.fld (F.REED_LOAD_VALUE c 0) }
    let h := if h.trigDue c then h.trigFire c else h
    some (((put h).on (F.REED_SYNC_ARM c)).modReed c fun r => { r with trig := some trig })

end Sys2Proof.Machine
end

