-- ==== Sys2Proof/Machine/Reed.lean ====
section
/-! DEFINITION. The commands of the reed engines but FRD and FWR (03): instructions, samples, retiring, start, stop and
triggers. An instruction command is the slot of its context: it runs the word at the context's PC when that word is its
instruction; a word of no instruction, or one that fails parity, acts as R83 or R111 says whichever command comes. -/

namespace Sys2Proof.Machine

/-- Does context x own this cycle's slot in a running engine, with no instruction run in it yet (R76, R77)? -/
def Hub.reedTurn (h : Hub) (c : Fin 8) (x : Fin 16) : Bool :=
  let r := h.reed[c]
  h.clusterPresent c && h.domOn (18 + c) && h.drives && h.bit (F.REED_STAT_ACTIVE c) && !r.stopping && (h.cx c x).st == cxRUN &&
    r.en.getLsbD x && decide (r.start ≤ h.now) && h.slotOwner c ((h.now - r.start) % 16) == x.val && r.ran != some h.now

/-- The word at a context's PC. -/
def Hub.reedWord (h : Hub) (c : Fin 8) (x : Fin 16) : W32 := (h.reed[c]).pmem.get 0 (h.cx c x).r.pc

/-- One slot: fetch, parity, decode (R83, R111); `f` gives the meaning of the instructions this slot is for. -/
def Hub.reedSlot (h : Hub) (c : Fin 8) (x : Fin 16) (f : ReedIns → Option (Hub → Hub)) : Hub :=
  if !h.reedTurn c x then h
  else
    let pc := (h.cx c x).r.pc
    let on := h.modReed c fun r => { r with ran := some h.now }
    if (h.reed[c]).pmBad.contains pc then on.pmParity c pc
    else match decodeReed (h.reedWord c x) with
      | none => on.faultOr c x 1
      | some i => match f i with
        | some g => g on
        | none => h

/-- Register GA. -/
def CtxRegs.ga (r : CtxRegs) (a : BitVec 3) : W32 := r.g[a.toNat]'(a.isLt)
/-- Write GA. -/
def CtxRegs.setG (r : CtxRegs) (a : BitVec 3) (v : W32) : CtxRegs := { r with g := r.g.set a.toNat v a.isLt }

/-- NOP. -/
def execNop (c : Fin 8) (x : Fin 16) (s : State) : Host.Outcome State Fault Refusal :=
  s.goes (s.hub.reedSlot c x fun i => match i with
    | .nop => some fun h => h.done c x id
    | _ => none)

/-- HALT stalls while speculative. -/
def execHalt (c : Fin 8) (x : Fin 16) (s : State) : Host.Outcome State Fault Refusal :=
  s.goes (s.hub.reedSlot c x fun i => match i with
    | .halt => some fun h =>
      if !(h.cx c x).ckpt.isEmpty then h.stall c x 3
      else ((h.done c x id).modCtx c x fun t => { t with st := cxHALT }).flag (.reed c) (F.REED_FLAG_HALT c)
    | _ => none)

/-- LI. -/
def execLi (c : Fin 8) (x : Fin 16) (s : State) : Host.Outcome State Fault Refusal :=
  s.goes (s.hub.reedSlot c x fun i => match i with
    | .li a k => some fun h => h.done c x fun r => r.setG a (k.setWidth 32)
    | _ => none)

/-- LIH. -/
def execLih (c : Fin 8) (x : Fin 16) (s : State) : Host.Outcome State Fault Refusal :=
  s.goes (s.hub.reedSlot c x fun i => match i with
    | .lih a k => some fun h => h.done c x fun r => r.setG a (k ++ (r.ga a).extractLsb' 0 16)
    | _ => none)

/-- ALU (R84). -/
def execAlu (c : Fin 8) (x : Fin 16) (s : State) : Host.Outcome State Fault Refusal :=
  s.goes (s.hub.reedSlot c x fun i => match i with
    | .alu a b f => some fun h =>
      let r := (h.cx c x).r
      match reedAlu f.toNat (r.ga a) (r.ga b) with
      | some v => h.done c x fun r => r.setG a v
      | none => h.faultOr c x 1
    | _ => none)

/-- ALUI (R84). -/
def execAlui (c : Fin 8) (x : Fin 16) (s : State) : Host.Outcome State Fault Refusal :=
  s.goes (s.hub.reedSlot c x fun i => match i with
    | .alui a f k => some fun h =>
      match reedAlu f.toNat ((h.cx c x).r.ga a) (k.setWidth 32) with
      | some v => h.done c x fun r => r.setG a v
      | none => h.faultOr c x 1
    | _ => none)

/-- BR (R84). -/
def execBr (c : Fin 8) (x : Fin 16) (s : State) : Host.Outcome State Fault Refusal :=
  s.goes (s.hub.reedSlot c x fun i => match i with
    | .br a b k t => some fun h =>
      let r := (h.cx c x).r
      match reedCond k.toNat (r.ga a) (r.ga b) with
      | some true => h.goTo c x t.toNat
      | some false => h.done c x id
      | none => h.faultOr c x 1
    | _ => none)

/-- DJNZ. -/
def execDjnz (c : Fin 8) (x : Fin 16) (s : State) : Host.Outcome State Fault Refusal :=
  s.goes (s.hub.reedSlot c x fun i => match i with
    | .djnz a t => some fun h =>
      let v := (h.cx c x).r.ga a - 1
      if v ≠ 0 then h.goTo c x t.toNat fun r => r.setG a v else h.done c x fun r => r.setG a v
    | _ => none)

/-- JMP. -/
def execJmp (c : Fin 8) (x : Fin 16) (s : State) : Host.Outcome State Fault Refusal :=
  s.goes (s.hub.reedSlot c x fun i => match i with
    | .jmp t => some fun h => h.goTo c x t.toNat
    | _ => none)

/-- CALL. -/
def execCall (c : Fin 8) (x : Fin 16) (s : State) : Host.Outcome State Fault Refusal :=
  s.goes (s.hub.reedSlot c x fun i => match i with
    | .call t => some fun h => h.goTo c x t.toNat fun r => { r with lnk := (r.pc + 1) % 2048 }
    | _ => none)

/-- RET. -/
def execRet (c : Fin 8) (x : Fin 16) (s : State) : Host.Outcome State Fault Refusal :=
  s.goes (s.hub.reedSlot c x fun i => match i with
    | .ret => some fun h => h.goTo c x (h.cx c x).r.lnk
    | _ => none)

/-- TSET. -/
def execTset (c : Fin 8) (x : Fin 16) (s : State) : Host.Outcome State Fault Refusal :=
  s.goes (s.hub.reedSlot c x fun i => match i with
    | .tset k => some fun h => h.done c x fun r => { r with tc := add64 (h.ctr c) k.toNat, tap := 0 }
    | _ => none)

/-- TADD (R85). -/
def execTadd (c : Fin 8) (x : Fin 16) (s : State) : Host.Outcome State Fault Refusal :=
  s.goes (s.hub.reedSlot c x fun i => match i with
    | .tadd u k => some fun h => h.done c x fun r => r.addTaps (if u then k.toInt else k.toInt * 10)
    | _ => none)

/-- TADDB (R85). -/
def execTaddb (c : Fin 8) (x : Fin 16) (s : State) : Host.Outcome State Fault Refusal :=
  s.goes (s.hub.reedSlot c x fun i => match i with
    | .taddb => some fun h => h.done c x CtxRegs.addBt
    | _ => none)

/-- WAITT. -/
def execWaitt (c : Fin 8) (x : Fin 16) (s : State) : Host.Outcome State Fault Refusal :=
  s.goes (s.hub.reedSlot c x fun i => match i with
    | .waitt => some fun h => if reached (h.ctr c) (h.cx c x).r.tc then h.done c x id else h.stall c x 1
    | _ => none)

/-- WEDGE begins to wait, goes on waiting, or completes once its edge or timeout has come (R78, R103). A pin above 23 with
E = 0 reports cause 2 (DESIGN CHOICE, log entry 124). -/
def execWedge (c : Fin 8) (x : Fin 16) (s : State) : Host.Outcome State Fault Refusal :=
  s.goes (s.hub.reedSlot c x fun i => match i with
    | .wedge p e _ => some fun h =>
      if 24 ≤ p.toNat then h.faultOr c x 2
      else if e = 0 then h.faultOr c x 1
      else match (h.cx c x).wedge with
        | none => (h.stall c x 1).modCtx c x fun t => { t with wedge := some (h.ctr c, false) }
        | some (_, false) => h.stall c x 1
        | some (_, true) => (h.done c x id).modCtx c x fun t => { t with wedge := none }
    | _ => none)

/-- The WEDGE a running context waits in: its issue tick, its edge select and its timeout. -/
def Hub.wedgeOf (h : Hub) (c : Fin 8) (x : Fin 16) : Option (Nat × Nat × Nat) :=
  match (h.cx c x).wedge, decodeReed (h.reedWord c x) with
  | some (t, false), some (.wedge _ e tmo) => some (t, e.toNat, tmo.toNat)
  | _, _ => none

/-- The wait ends: TC takes a tick, CST.TIMEOUT tells how. -/
def Hub.wedgeEnd (h : Hub) (c : Fin 8) (x : Fin 16) (tc : Nat) (timeout : Bool) : Hub :=
  h.modCtx c x fun t =>
    { t with
      wedge := t.wedge.map fun w => (w.1, true)
      r := { t.r with tc := tc, tap := 0, cst := (t.r.cst &&& ~~~ 0x100#32) ||| (if timeout then 0x100#32 else 0) } }

/-- WEDGE_EDGE_FOUND: the edge's tick is 2 ticks back, the synchroniser delay removed (R59, R103). -/
def execWedgeEdgeFound (c : Fin 8) (x : Fin 16) (rising : Bool) (s : State) : Host.Outcome State Fault Refusal :=
  let h := s.hub
  s.goes (match h.wedgeOf c x with
    | some (iss, e, _) =>
      let te := add64 (h.ctr c) (2 ^ 64 - 2)
      if e.testBit (if rising then 0 else 1) ∧ reached te iss ∧ reached te (h.cx c x).r.tc then h.wedgeEnd c x te false else h
    | none => h)

/-- WEDGE_TIMEOUT (R103). -/
def execWedgeTimeout (c : Fin 8) (x : Fin 16) (s : State) : Host.Outcome State Fault Refusal :=
  let h := s.hub
  s.goes (match h.wedgeOf c x with
    | some (iss, _, tmo) =>
      if tmo ≠ 0 ∧ reached (h.ctr c) (iss + 400 * tmo) then h.wedgeEnd c x (add64 iss (400 * tmo)) true else h
    | none => h)

/-- Queue an action of a context: its pin, the window and the queue's room first (R79, R86, R87). -/
def Hub.reedAct (h : Hub) (c : Fin 8) (x : Fin 16) (p v : Nat) (then_ : Hub → Hub) : Hub :=
  if 24 ≤ p ∨ !h.ownsPin c x p then h.faultOr c x 2
  else if h.beyond c (h.cx c x).r.tc ∨ !h.aqRoom c then h.stall c x 3
  else then_ (h.aqContext c x p v)

/-- ACT. -/
def execAct (c : Fin 8) (x : Fin 16) (s : State) : Host.Outcome State Fault Refusal :=
  s.goes (s.hub.reedSlot c x fun i => match i with
    | .act p v adv => some fun h =>
      h.reedAct c x p.toNat v.toNat fun h => h.done c x fun r => if adv then r.addBt else r
    | _ => none)

/-- ACTG. -/
def execActg (c : Fin 8) (x : Fin 16) (s : State) : Host.Outcome State Fault Refusal :=
  s.goes (s.hub.reedSlot c x fun i => match i with
    | .actg p adv g => some fun h =>
      h.reedAct c x p.toNat (b2n (((h.cx c x).r.ga g).getLsbD 0)) fun h =>
        h.done c x fun r => if adv then r.addBt else r
    | _ => none)

/-- One bit of an SHO or SHI is done: the next bit, or the next instruction (R93). -/
def Hub.nextBit (h : Hub) (c : Fin 8) (x : Fin 16) (n : Nat) (g : CtxRegs → CtxRegs) : Hub :=
  if (h.cx c x).bits < n then h.modCtx c x fun t => { t with bits := t.bits + 1, wait := 0, r := g t.r }
  else (h.done c x g).modCtx c x fun t => { t with bits := 0, mid := false }

/-- SHO: one bit a slot (R93). One that stalls before its first bit is inside the shift (DESIGN CHOICE, log entry 124). -/
def execSho (c : Fin 8) (x : Fin 16) (s : State) : Host.Outcome State Fault Refusal :=
  s.goes (s.hub.reedSlot c x fun i => match i with
    | .sho p lsb n => some fun h =>
      let sh := (h.cx c x).r.sh
      let h := h.modCtx c x fun t => { t with mid := true }
      h.reedAct c x p.toNat (b2n (if lsb then sh.getLsbD 0 else sh.getLsbD 31)) fun h =>
        h.nextBit c x n.toNat fun r => { r.addBt with sh := if lsb then r.sh >>> 1 else r.sh <<< 1 }
    | _ => none)

/-- SHI: one bit a slot, at most 32 samples pending (R92, R93). One that stalls before its first bit is inside the shift
(DESIGN CHOICE, log entry 124). -/
def execShi (c : Fin 8) (x : Fin 16) (s : State) : Host.Outcome State Fault Refusal :=
  s.goes (s.hub.reedSlot c x fun i => match i with
    | .shi p lsb n => some fun h =>
      if 24 ≤ p.toNat then h.faultOr c x 2
      else
        let h := h.modCtx c x fun t => { t with mid := true }
        if h.beyond c (h.cx c x).r.tc ∨ 32 ≤ (h.cx c x).r.sc then h.stall c x 3
        else
          let a := h.sampleAt c x
          let h := a.1.modCtx c x fun t => { t with samples := putSample ⟨a.2, p.toNat, .shi t.ckpt.length lsb, none⟩ t.samples }
          h.nextBit c x n.toNat fun r => { r.addBt with sc := r.sc + 1 }
    | _ => none)

/-- BPIN: decided on its sample where it waited for it (HINT 3), else predicted with a checkpoint (R95, R96). One that
issues after its tick samples the pin at once (R92) and is predicted all the same (DESIGN CHOICE, log entry 124). -/
def execBpin (c : Fin 8) (x : Fin 16) (s : State) : Host.Outcome State Fault Refusal :=
  s.goes (s.hub.reedSlot c x fun i => match i with
    | .bpin p l hint tgt => some fun h =>
      let t := h.cx c x
      let next := (t.r.pc + 1) % 2048
      if 24 ≤ p.toNat then h.faultOr c x 2
      else match t.held with
      | some lv => (h.goTo c x (if lv == l then tgt.toNat else next)).modCtx c x fun t => { t with held := none }
      | none =>
        if (t.samples.any fun s => s.holds) || h.beyond c t.r.tc then h.stall c x 3
        else if hint = 3 then
          let a := h.sampleAt c x
          (a.1.stall c x 3).modCtx c x fun t => { t with samples := putSample ⟨a.2, p.toNat, .hold, none⟩ t.samples }
        else if 2 ≤ t.ckpt.length then h.stall c x 3
        else
          let a := h.sampleAt c x
          let taken := hint == 1 || (hint == 2 && h.senses c p.toNat == l)
          let h := a.1.modCtx c x fun t =>
            { t with samples := putSample ⟨a.2, p.toNat, .br t.ckpt.length l taken, none⟩ t.samples
                     ckpt := t.ckpt ++ [(t.r, if taken then next else tgt.toNat)] }
          h.goTo c x (if taken then tgt.toNat else next)
    | _ => none)

/-- A lane of the cluster by its number. -/
def laneIn (c : Fin 8) (l : BitVec 3) : Fin 64 := ⟨8 * c.val + l.toNat, by have := l.isLt; omega⟩

/-- Is a lane lent (R81)? -/
def Hub.lentPins (h : Hub) (n : Fin 64) : Bool := h.lent n && h.fn n == fnPINS

/-- PULL (R100). -/
def execPull (c : Fin 8) (x : Fin 16) (s : State) : Host.Outcome State Fault Refusal :=
  s.goes (s.hub.reedSlot c x fun i => match i with
    | .pull a l w => some fun h =>
      let n := laneIn c l
      if !(h.cx c x).ckpt.isEmpty then h.stall c x 3
      else if !h.lentPins n then h.ctxFault c x 3
      else match h.drawTx n with
        | (h, some v) => h.done c x fun r =>
          { r.setG a v.w with
            cst := (r.cst &&& ~~~ (if w then 0x400#32 else 0x600#32)) ||| (if v.good then 0 else 0x400#32) }
        | (h, none) =>
          if w then h.stall c x 2
          else (h.done c x fun r => { r.setG a 0 with cst := (r.cst &&& ~~~ 0x400#32) ||| 0x200#32 }).ctxFlag c x 2
    | _ => none)

/-- PUSH (R100). -/
def execPush (c : Fin 8) (x : Fin 16) (s : State) : Host.Outcome State Fault Refusal :=
  s.goes (s.hub.reedSlot c x fun i => match i with
    | .push a l => some fun h =>
      let n := laneIn c l
      if !(h.cx c x).ckpt.isEmpty then h.stall c x 3
      else if !h.lentPins n then h.ctxFault c x 3
      else
        let full := decide (64 ≤ (h.lane n).rx.q.length)
        let h := (h.pushRx n [(h.cx c x).r.ga a]).done c x id
        if full then h.ctxFlag c x 1 else h
    | _ => none)

/-- SIG: the event carries the engine, context, code and the time of issue (R101, Table 10.3). -/
def execSig (c : Fin 8) (x : Fin 16) (s : State) : Host.Outcome State Fault Refusal :=
  s.goes (s.hub.reedSlot c x fun i => match i with
    | .sig k => some fun h =>
      if !(h.cx c x).ckpt.isEmpty then h.stall c x 3
      else
        let e := mkEvent 3 (h.unit (reedUnit c)) (BitVec.ofNat 32 (x.val * 256 + k.toNat)) ((h.reed[c]).anc.toG (h.ctr c))
        (h.lockEvent (h.fld (F.RFXC_RSUB_CORES c)) e).done c x id
    | _ => none)

/-- FRD_COMPLETION (R102). -/
def execFrdCompletion (c : Fin 8) (x : Fin 16) (st : BitVec 4) (salvaged : Bool) (data : W32) (s : State) :
    Host.Outcome State Fault Refusal :=
  let r := s.hub.stGood st.toNat 0 12
  s.goes (r.1.reedFrdDone c x r.2 salvaged data)

/-- A special register as MOVS reads it (Table 3.1); `none` for a SEL of 11-15. -/
def Hub.special (h : Hub) (c : Fin 8) (x : Fin 16) (sel : Nat) : Option W32 :=
  let r := (h.cx c x).r
  match sel with
  | 0 => some r.sh
  | 1 => some (BitVec.ofNat 32 r.sc)
  | 2 => some (BitVec.ofNat 32 r.tc)
  | 3 => some (BitVec.ofNat 32 (r.tc / 2 ^ 32))
  | 4 => some (BitVec.ofNat 32 r.tap)
  | 5 => some (BitVec.ofNat 32 r.bt)
  | 6 => some (BitVec.ofNat 32 (h.ctr c))
  | 7 => some r.cntHi
  | 8 => some r.cst
  | 9 => some (BitVec.ofNat 32 x.val)
  | 10 => some (BitVec.ofNat 32 r.lnk)
  | _ => none

/-- MOVS (R82, R94). -/
def execMovs (c : Fin 8) (x : Fin 16) (s : State) : Host.Outcome State Fault Refusal :=
  s.goes (s.hub.reedSlot c x fun i => match i with
    | .movs a sel => some fun h =>
      match h.special c x sel.toNat with
      | none => h.faultOr c x 1
      | some v =>
        if sel = 0 ∧ (h.cx c x).r.sc ≠ 0 then h.stall c x 3
        else h.done c x fun r =>
          let r := r.setG a v
          if sel = 6 then { r with cntHi := BitVec.ofNat 32 (h.ctr c / 2 ^ 32) } else r
    | _ => none)

/-- A special register as MOVT writes it (Table 3.1). -/
def CtxRegs.putSpecial (r : CtxRegs) (sel : Nat) (v : W32) : CtxRegs :=
  match sel with
  | 0 => { r with sh := v }
  | 2 => { r with tc := r.tc / 2 ^ 32 * 2 ^ 32 + v.toNat }
  | 3 => { r with tc := v.toNat * 2 ^ 32 + r.tc % 2 ^ 32 }
  | 4 => { r with tap := min 9 (v.bits 3 0) }
  | 5 => { r with bt := v.bits 19 0 }
  | 10 => { r with lnk := v.bits 10 0 }
  | _ => r

/-- MOVT (R82, R94). -/
def execMovt (c : Fin 8) (x : Fin 16) (s : State) : Host.Outcome State Fault Refusal :=
  s.goes (s.hub.reedSlot c x fun i => match i with
    | .movt a sel => some fun h =>
      if 11 ≤ sel.toNat then h.faultOr c x 1
      else if sel = 0 ∧ (h.cx c x).r.sc ≠ 0 then h.stall c x 3
      else h.done c x fun r => r.putSpecial sel.toNat (r.ga a)
    | _ => none)

/-- ACTION_RETIRE (R89). -/
def execActionRetire (c : Fin 8) (s : State) : Host.Outcome State Fault Refusal :=
  s.goes (if s.hub.domOn (18 + c) then s.hub.aqRetire c else s.hub)

/-- SAMPLE_RESOLVE (R92, R97, R98). -/
def execSampleResolve (c : Fin 8) (x : Fin 16) (tick : Nat) (s : State) : Host.Outcome State Fault Refusal :=
  s.goes (s.hub.sampleResolve c x tick)

/-- REED_RUN (R105). -/
def execReedRun (a : Access) (c : Fin 8) (s : State) : Host.Outcome State Fault Refusal :=
  s.goes (s.hub.cmdWrite a (reedBase c) fun h => h.reedRun c)

/-- REED_STOP (R106). -/
def execReedStop (a : Access) (c : Fin 8) (s : State) : Host.Outcome State Fault Refusal :=
  s.goes (s.hub.cmdWrite a (reedBase c) fun h => some (h.reedStop c))

/-- REED_STOPPED (R106). -/
def execReedStopped (c : Fin 8) (s : State) : Host.Outcome State Fault Refusal :=
  s.goes (s.hub.reedStopped c)

/-- REED_FLUSH (R108). -/
def execReedFlush (a : Access) (c : Fin 8) (s : State) : Host.Outcome State Fault Refusal :=
  s.goes (s.hub.cmdWrite a (reedBase c) fun h => some (h.reedFlush c))

/-- CONTEXT_ENABLE (R109). -/
def execContextEnable (a : Access) (c : Fin 8) (x : Fin 16) (s : State) : Host.Outcome State Fault Refusal :=
  s.goes (s.hub.cmdWrite a (reedBase c + 0x10) fun h => some (h.ctxEnable c x))

/-- CONTEXT_DISABLE (R109). -/
def execContextDisable (a : Access) (c : Fin 8) (x : Fin 16) (s : State) : Host.Outcome State Fault Refusal :=
  s.goes (s.hub.cmdWrite a (reedBase c + 0x10) fun h => some (h.ctxDisable c x))

/-- SYNC_ARM (R114, R117). -/
def execSyncArm (a : Access) (c : Fin 8) (v : W32) (s : State) : Host.Outcome State Fault Refusal :=
  s.goes (s.hub.cmdWrite a (reedBase c + 0x30) fun h => h.syncWrite c (v ||| 1))

/-- SYNC_DISARM (R117). -/
def execSyncDisarm (a : Access) (c : Fin 8) (s : State) : Host.Outcome State Fault Refusal :=
  s.goes (s.hub.cmdWrite a (reedBase c + 0x30) fun h => some (h.disarm c))

/-- Does a write of RUN = 0 to an engine wait in the queue, in the same cycle? -/
def State.stops (s : State) (c : Fin 8) : Bool :=
  s.pending.any fun i => match i with
    | .reedStop _ d => d == c
    | .registerWrite _ addr v _ => addr.toNat == reedBase c && !v.bit 0
    | _ => false

/-- A trigger that is due fires, or is cancelled by a stop of the same cycle (R114, R117). -/
def Hub.trigger (h : Hub) (c : Fin 8) (stops : Bool) : Hub :=
  if !h.trigDue c then h else if stops then h.disarm c else h.trigFire c

/-- SYNC_TRIGGER: the counter has reached SYNCT (R114). -/
def execSyncTrigger (c : Fin 8) (s : State) : Host.Outcome State Fault Refusal :=
  s.goes (if (s.hub.reed[c]).trig.any fun t => t.gno then s.hub else s.hub.trigger c (s.stops c))

/-- SYNC_TRIGGER_GNOMON: every cluster for which the Gnomon has fired acts (R115). -/
def execSyncTriggerGnomon (s : State) : Host.Outcome State Fault Refusal :=
  s.goes ((List.finRange 8).foldl (fun h (c : Fin 8) =>
    if (h.reed[c]).trig.any fun t => t.gno then h.trigger c (s.stops c) else h) s.hub)

end Sys2Proof.Machine
end

