-- ==== Sys2Proof/Machine/Gnomon.lean ====
section
/-! DEFINITION. The Gnomon, anchors, pulse generators and PPS (05 R143-R155, R163-R165). -/

namespace Sys2Proof.Machine

/-- Change the Gnomon. -/
def Hub.modGno (h : Hub) (g : Gno → Gno) : Hub := { h with gno := g h.gno }

/-- Nanoseconds since 0 s. -/
def GTime.nanos (t : GTime) : Nat := t.sec * 1000000000 + t.ns

/-- A Gnomon time in three registers (Table 5.3). -/
def Hub.putTime (h : Hub) (ns sl frac sh : Fld) (t : GTime) : Hub :=
  (((h.put ns t.ns).put sl t.sec).put frac (t.frac / 256)).put sh (t.sec / 2 ^ 32)

/-! ## Pairing and commit (R145, R153, R155) -/

/-- The pairing strobe: the Gnomon and every counter are latched. -/
def Hub.pairStrobe (h : Hub) : Hub :=
  let h := h.putTime F.GNO_PAIR_NS_NS F.GNO_PAIR_SL_SEC F.GNO_PAIR_SH_FRAC F.GNO_PAIR_SH_SEC h.gno.t
  (List.finRange 8).foldl (fun h (c : Fin 8) => if h.clusterPresent c then
    (h.put (F.GNO_PCNT_L_CNT c) (h.ctr c)).put (F.GNO_PCNT_H_CNT c) (h.ctr c / 2 ^ 32) else h) h

/-- Mark a cluster anchored (R155). -/
def Hub.cvalid (h : Hub) (c : Fin 8) : Hub := h.put F.GNO_CVALID_VALID (h.fld F.GNO_CVALID_VALID ||| 2 ^ c.val)

/-- A write of 1 to GNO_COMMIT.GO; a second one while GO reads 1 has no effect (R8, R145). -/
def Hub.gnoGo (h : Hub) : Hub :=
  if h.bit F.GNO_COMMIT_GO then h
  else ((h.snapshot 0x60010 0x60018).on F.GNO_COMMIT_GO).modGno fun g => { g with goTick := h.now }

/-- The step in force, in ns. -/
def Hub.gnoStep (h : Hub) : Int :=
  let v : Int := (h.fld F.GNO_STEPS_SEC * 1000000000 + h.fld F.GNO_STEPN_NS : Nat)
  if h.bit F.GNO_STEPN_NEG then -v else v

/-- Pulse edges that a forward step from `a` to `b` passes over are late (R164). -/
def Hub.pulseSkip (h : Hub) (a b : Nat) : Hub :=
  h.modGno fun g => { g with pg := g.pg.map fun p =>
    if (p.next.any fun t => decide (a < t ∧ t ≤ b)) then { p with late := true } else p }

/-- An apply tick: CK_TIME and CK_LANE edges coincide every 8 CK_LANE ticks (R145). -/
def Hub.applyTick (h : Hub) : Bool := h.now % 8 == 0

/-- The apply tick of a commit (R145, R153). The CK_TIME edge of this tick has counted the increment in force before; the
new one takes its place, and the step comes on top. -/
def Hub.gnoApply (h : Hub) : Hub :=
  if !h.bit F.GNO_COMMIT_GO || h.gno.goTick == h.now || !h.applyTick then h
  else
    let old : Int := (h.incr : Nat)
    let h := (h.applySnap 0x60010 0x60018).off F.GNO_COMMIT_GO
    let st := h.gnoStep
    let was := h.gno.t.nanos
    let h := h.modGno fun g => { g with t := GTime.ofInt ((g.t.units : Nat) + ((h.incr : Nat) - old) + st * (2 ^ 24 : Nat)) }
    let h := if 0 < st then h.pulseSkip was h.gno.t.nanos else if st < 0 then h.statBack else h
    let h := ((h.off F.GNO_STEPN_NEG).off F.GNO_STEPN_NS).off F.GNO_STEPS_SEC
    let h := if st ≠ 0 then h.flag .gno F.GNO_FLAG_STEP else h
    let rate := 40 * h.incr
    (List.finRange 8).foldl (fun h (c : Fin 8) =>
      let a : Anchor := { n := h.ctr c, g := h.gno.t, rate := rate }
      if h.clusterPresent c then (h.modReed c fun r => { r with anc := a, shadow := a }).cvalid c else h) h.pairStrobe

/-- GNO_COMMIT (R145). -/
def execGnoCommit (a : Access) (s : State) : Host.Outcome State Fault Refusal :=
  s.goes (s.hub.cmdWrite a 0x6001C fun h => some h.gnoGo)

/-- GNO_APPLY (R145, R153). -/
def execGnoApply (s : State) : Host.Outcome State Fault Refusal := s.goes s.hub.gnoApply

/-! ## Reading the time (R148) -/

/-- Does a requester read over the ring or stack, with a shadow of its own source? -/
def isRemote (a : Access) : Bool := a.req == 10 || a.req == 11

/-- A read of GNO_NOW_NS latches the reader's shadow. -/
def Hub.nowRead (h : Hub) (a : Access) : Hub × Nat :=
  let t := h.gno.t
  let h := if isRemote a then
      h.modGno fun g =>
        { g with remote := ((a.node, a.mem, t) :: g.remote.filter fun e => !(e.1 == a.node && e.2.1 == a.mem)).take 16 }
    else h.modGno fun g => { g with shadow := g.shadow.set a.req.toNat t a.req.isLt }
  (h, t.ns)

/-- The reader's shadow. -/
def Hub.shadowOf (h : Hub) (a : Access) : Option GTime :=
  if isRemote a then (h.gno.remote.find? fun e => e.1 == a.node && e.2.1 == a.mem).map fun e => e.2.2
  else some (h.gno.shadow[a.req.toNat]'(a.req.isLt))

/-- A read of GNO_NOW_SL or GNO_NOW_SH. -/
def Hub.shadowRead (h : Hub) (a : Access) (hi : Bool) : Option (Hub × Nat) :=
  (h.shadowOf a).map fun t => (h, if hi then t.frac / 256 * 2 ^ 16 + t.sec / 2 ^ 32 else t.sec % 2 ^ 32)

/-- GNO_NOW_READ (R148). -/
def execGnoNowRead (a : Access) (s : State) : Host.Outcome State Fault Refusal :=
  s.goes (s.hub.cmdRead a 0x60000 fun h => some (h.nowRead a))

/-- GNO_SHADOW_READ (R148). -/
def execGnoShadowRead (a : Access) (hi : Bool) (s : State) : Host.Outcome State Fault Refusal :=
  s.goes (s.hub.cmdRead a (if hi then 0x60008 else 0x60004) fun h => h.shadowRead a hi)

/-- A write of 1 to GNO_PAIR.GO. -/
def Hub.pairGo (h : Hub) : Hub := if h.bit F.GNO_PAIR_GO then h else (h.on F.GNO_PAIR_GO).modGno fun g => { g with pairAt := h.now }

/-- GNO_PAIR (Table 5.3). -/
def execGnoPair (a : Access) (s : State) : Host.Outcome State Fault Refusal :=
  s.goes (s.hub.cmdWrite a 0x60030 fun h => some h.pairGo)

/-- GNO_PAIR_LATCH: the strobe fires at the next apply tick (Table 5.3). -/
def execGnoPairLatch (s : State) : Host.Outcome State Fault Refusal :=
  let h := s.hub
  s.goes (if h.bit F.GNO_PAIR_GO && h.gno.pairAt != h.now && h.applyTick then h.pairStrobe.off F.GNO_PAIR_GO else h)

/-! ## Conversion registers (R153, R154) -/

/-- One value of the write shadow is replaced: OFFCL, OFFCH, OFFGS, OFFGH, OFFGN in the order of their offsets. -/
def Anchor.replace (a : Anchor) (which : Nat) (v : W32) : Anchor :=
  match which with
  | 0 => { a with n := a.n / 2 ^ 32 * 2 ^ 32 + v.toNat }
  | 1 => { a with n := v.toNat * 2 ^ 32 + a.n % 2 ^ 32 }
  | 2 => { a with g := { a.g with sec := a.g.sec / 2 ^ 32 * 2 ^ 32 + v.toNat } }
  | 3 => { a with g := { a.g with sec := v.bits 15 0 * 2 ^ 32 + a.g.sec % 2 ^ 32, frac := v.bits 31 16 * 256 } }
  | _ => { a with g := { a.g with ns := v.bits 29 0 } }

/-- A conversion register as it reads: the set in force. -/
def Anchor.read (a : Anchor) (which : Nat) : Nat :=
  match which with
  | 0 => a.n % 2 ^ 32
  | 1 => a.n / 2 ^ 32
  | 2 => a.g.sec % 2 ^ 32
  | 3 => a.g.frac / 256 * 2 ^ 16 + a.g.sec / 2 ^ 32
  | 4 => a.g.ns
  | _ => a.rate

/-- A write of REEDc_RATE applies the set (R154, R155). -/
def Hub.anchorApply (h : Hub) (c : Fin 8) (v : W32) : Hub :=
  (h.modReed c fun r =>
    let a := { r.shadow with rate := v.toNat }
    { r with anc := a, shadow := a }).cvalid c

/-- A write of one of the other conversion registers. -/
def Hub.anchorShadow (h : Hub) (c : Fin 8) (which : Nat) (v : W32) : Hub :=
  h.modReed c fun r => { r with shadow := r.shadow.replace which v }

/-- The steward rewrites the anchor of a cluster from the pair just latched. A prediction that misses it by more than 1 ns
is logged; a cluster whose armed trigger will load is left alone (R155, log entry 61). The conversion registers lie in
P_BASE, so that a cluster that is not ON is anchored too. -/
def Hub.refreshOne (h : Hub) (c : Fin 8) : Hub :=
  if !h.clusterPresent c || (h.dl[regionOf c]).down || ((h.reed[c]).trig.any fun t => t.doLoad) then h
  else
    let old := (h.reed[c]).anc.toG (h.ctr c)
    let miss := ((old.units : Int) - (h.gno.t.units : Nat)).natAbs
    let h := if (h.fld F.GNO_CVALID_VALID).testBit c && decide (2 ^ 24 < miss) then
        h.raise 1 (clusterUnit c 0 0x09) causePREDICT (miss * 1000 / 2 ^ 24)
      else h
    let a : Anchor := { n := h.ctr c, g := { h.gno.t with frac := h.gno.t.frac / 256 * 256 }, rate := 40 * h.incr }
    (h.modReed c fun r => { r with anc := a, shadow := a }).cvalid c

/-- The steward's refresh of all anchors, every 10 ms (the text after R155). -/
def Hub.anchorRefresh (h : Hub) : Hub :=
  if h.now % 4000000 ≠ 0 then h else (List.finRange 8).foldl (fun h (c : Fin 8) => h.refreshOne c) h.pairStrobe

/-- ANCHOR_SHADOW_WRITE (R154). -/
def execAnchorShadowWrite (a : Access) (c : Fin 8) (which : Fin 5) (v : W32) (s : State) :
    Host.Outcome State Fault Refusal :=
  s.goes (s.hub.cmdWrite a (reedBase c + 0x108 + 4 * which) fun h => some (h.anchorShadow c which v))

/-- ANCHOR_APPLY (R154). -/
def execAnchorApply (a : Access) (c : Fin 8) (v : W32) (s : State) : Host.Outcome State Fault Refusal :=
  s.goes (s.hub.cmdWrite a (reedBase c + 0x11C) fun h => some (h.anchorApply c v))

/-- A read of REEDc_ACNTL latches the upper half. -/
def Hub.acntlRead (h : Hub) (c : Fin 8) : Hub × Nat :=
  (h.modReed c fun r => { r with hi := BitVec.ofNat 32 (r.ctr / 2 ^ 32) }, h.ctr c % 2 ^ 32)

/-- ACNTL_READ (Table 5.5). -/
def execAcntlRead (a : Access) (c : Fin 8) (s : State) : Host.Outcome State Fault Refusal :=
  s.goes (s.hub.cmdRead a (reedBase c + 0x100) fun h => some (h.acntlRead c))

/-! ## Pulse generators and PPS (R163-R165) -/

/-- Start time of a generator in ns. -/
def Hub.pgStart (h : Hub) (g : Fin 4) : Nat :=
  (h.fld (F.GNO_PG_TSH_SEC g) * 2 ^ 32 + h.fld (F.GNO_PG_TSL_SEC g)) * 1000000000 + h.fld (F.GNO_PG_TNS_NS g)

/-- Period: 0 is one-shot, 1-999 act as 1,000. -/
def Hub.pgPer (h : Hub) (g : Fin 4) : Nat :=
  let p := h.fld (F.GNO_PG_PER_NS g)
  if p = 0 then 0 else max 1000 p

/-- High time (R163). -/
def Hub.pgWidth (h : Hub) (g : Fin 4) : Nat :=
  let w := h.fld (F.GNO_PG_WIDTH_NS g)
  let p := h.pgPer g
  if p = 0 then (if w = 0 then 500 else w) else if w = 0 ∨ p ≤ w then p / 2 else w

/-- The first rising edge named at or after a time; none for a one-shot whose time has passed. -/
def Hub.pgFirst (h : Hub) (g : Fin 4) (t : Nat) : Option Nat :=
  let s := h.pgStart g
  let p := h.pgPer g
  if t ≤ s then some s else if p = 0 then none else some (s + (t - s + p - 1) / p * p)

/-- The edge that follows one named at `t`; a rising edge that a step has left behind is not named again (R164). -/
def Hub.pgAfter (h : Hub) (g : Fin 4) (rising : Bool) (t now : Nat) : Option Nat :=
  if rising then some (t + h.pgWidth g)
  else if h.pgPer g = 0 then none
  else
    let r := t - h.pgWidth g + h.pgPer g
    if now < r then some r else h.pgFirst g (now + 1)

/-- Change a generator. -/
def Hub.modPg (h : Hub) (g : Fin 4) (f : Pulse → Pulse) : Hub := h.modGno fun n => { n with pg := n.pg.set g (f n.pg[g]) }

/-- A generator is enabled: its first edge is the first one named from now on (log entry 22); disabled, its output
is low. -/
def Hub.pgEnable (h : Hub) (g : Fin 4) (on : Bool) : Hub :=
  if on == h.bit (F.GNO_PG_CTL_EN g) then h
  else
    let h := h.putB (F.GNO_PG_CTL_EN g) on
    if on then
      let n := h.pgFirst g h.gno.t.nanos
      h.modPg g fun _ => { next := n, rNext := n }
    else
      let h := if g = 0 then h.modGno fun n => { n with ppsOut := false } else h
      h.modPg g fun _ => {}

/-- A generator makes its edge once its named time has come (R163, R164). -/
def Hub.pulseEdge (h : Hub) (g : Fin 4) (rising : Bool) : Hub :=
  let p := h.gno.pg[g]
  match p.next with
  | none => h
  | some t =>
    let now := h.gno.t.nanos
    if !h.bit (F.GNO_PG_CTL_EN g) || decide (now < t) || p.high == rising then h
    else
      let h := if p.late then h.flag .gno F.GNO_FLAG_PULSE_LATE else h
      let h := h.modPg g fun p => { p with high := rising, next := h.pgAfter g rising t now, late := false }
      let h := if g = 0 ∧ h.bit (F.GNO_PG_CTL_PPS 0) then h.modGno fun n => { n with ppsOut := rising } else h
      if rising ∧ h.bit (F.GNO_PG_CTL_EVENT g) then
        h.evRoute (h.fld (F.RFXC_PSUB_CORES g)) (mkEvent 4 (h.unit (fUnit 0x1F)) (BitVec.ofNat 32 g.val) h.gno.t)
      else h

/-- PULSE_EDGE (R163). -/
def execPulseEdge (g : Fin 4) (rising : Bool) (s : State) : Host.Outcome State Fault Refusal :=
  s.goes (s.hub.pulseEdge g rising)

/-- 10 µs ahead of an edge, a routed generator inserts it as a bridge entry (R163). -/
def Hub.pulseRoute (h : Hub) (g : Fin 4) (rising : Bool) : Hub :=
  let p := h.gno.pg[g]
  match p.rNext with
  | none => h
  | some t =>
    let now := h.gno.t.nanos
    if !h.bit (F.GNO_PG_CTL_EN g) || !h.bit (F.GNO_PG_CTL_ROUTE g) || decide (now + 10000 < t) || p.rHigh == rising then h
    else
      let h := h.modPg g fun p => { p with rHigh := rising, rNext := h.pgAfter g rising t now }
      let n : Fin 64 := ⟨h.fld (F.GNO_PG_CTL_LANE g) % 64, by omega⟩
      let c := clusterOf n
      if !h.clusterUp c then h
      else
        let pin := n.val % 8 * 3 + h.fld (F.GNO_PG_CTL_PIN g) % 3
        let k := (h.reed[c]).anc.toTick ((t * 2 ^ 24 : Nat) : Int)
        (h.aqBridge c pin (b2n rising) k.1 k.2).1

/-- PULSE_ROUTE_INSERT (R163). -/
def execPulseRouteInsert (g : Fin 4) (rising : Bool) (s : State) : Host.Outcome State Fault Refusal :=
  s.goes (s.hub.pulseRoute g rising)

/-- PPS_IN_EDGE: the stamp is the Gnomon less the fixed delay of 2 ticks (R165). -/
def execPpsInEdge (s : State) : Host.Outcome State Fault Refusal :=
  let h := s.hub
  let t := GTime.ofInt ((h.gno.t.units : Nat) - (2 * h.incr : Nat))
  let h1 := h.putTime F.GNO_PPSIN_NS_NS F.GNO_PPSIN_SL_SEC F.GNO_PPSIN_SH_FRAC F.GNO_PPSIN_SH_SEC t
  s.goes (if h.bit F.GNO_FLAG_PPSIN then h1.flag .gno F.GNO_FLAG_PPSIN_OVF else h1.flag .gno F.GNO_FLAG_PPSIN)

end Sys2Proof.Machine
end

