-- ==== Sys2Proof/Machine/Gates.lean ====
section
/-! DEFINITION. Time gates, when a frame may start on a link (08 R249-R251), counting what a link sends (R266), and the
transit of frames from one ring port to the other (09 R276-R279). -/

namespace Sys2Proof.Machine

/-- The operating entries of one cycle: gates, HOLD, start and end in ns, cut at the cycle's end, the last extended to
it. -/
def Hub.gateList (h : Hub) (l : Fin 4) : List (Nat × Bool × Nat × Nat) :=
  let n := min 128 (h.fld (F.X_GCL_LEN_LEN l))
  let cyc := h.fld (F.X_GCL_CYCLE_NS l)
  let r := (List.range n).foldl (fun (a : Nat × List (Nat × Bool × Nat × Nat)) i =>
    let e := if i + 1 = n then max (a.1 + 100) cyc else a.1 + max 100 (h.fld (F.X_GCL_W1_NS l i))
    (e, a.2 ++ [(h.fld (F.X_GCL_W0_GATES l i), h.bit (F.X_GCL_W0_HOLD l i), a.1, min e cyc)])) (0, [])
  r.2.filter fun e => e.2.2.1 < e.2.2.2

/-- Lengths of the stretches in which a class's gate is open, over two cycles from an entry, in ns. -/
def openRuns (l : List (Bool × Nat)) : List Nat :=
  (l.foldl (fun (a : List Nat) e => match a with
    | r :: rest => if e.1 then (r + e.2) :: rest else 0 :: r :: rest
    | [] => if e.1 then [e.2] else [0]) [0]).reverse

/-- Where the Gnomon stands in the gate cycle, which starts at BASE + k × CYCLE (R250). -/
def Hub.gatePos (h : Hub) (l : Fin 4) : Nat :=
  let cyc := max 1 (h.fld (F.X_GCL_CYCLE_NS l))
  let base := (h.fld (F.X_GCL_BSH_SEC l) * 2 ^ 32 + h.fld (F.X_GCL_BSL_SEC l)) * 1000000000 + h.fld (F.X_GCL_BNS_NS l)
  (h.gno.t.nanos + cyc - base % cyc) % cyc

/-- The entry in force at the Gnomon's time. -/
def Hub.gateIdx (h : Hub) (l : Fin 4) : Nat :=
  ((h.gateList l).findIdx? fun e => decide (h.gatePos l < e.2.2.2)).getD 0

/-- Nanoseconds until the gate of a class next closes: none while it never does, 0 while it is shut (R251). -/
def Hub.gateLeft (h : Hub) (l : Fin 4) (c : Nat) : Option Nat :=
  if !h.bit (F.X_GCL_CTL_EN l) then none
  else
    let gl := h.gateList l
    if gl.all fun e => e.1.testBit c then none
    else
      let off := h.gatePos l
      let rot := gl.drop (h.gateIdx l) ++ gl ++ gl
      let run := rot.takeWhile fun e => e.1.testBit c
      match run with
      | [] => some 0
      | e :: r => some ((e.2.2.2 - off) + (r.map fun e => e.2.2.2 - e.2.2.1).foldl (· + ·) 0)

/-- The longest open stretch a class has; none where it is always open. -/
def Hub.gateLongest (h : Hub) (l : Fin 4) (c : Nat) : Option Nat :=
  if !h.bit (F.X_GCL_CTL_EN l) then none
  else
    let gl := h.gateList l
    if gl.all fun e => e.1.testBit c then none
    else some ((openRuns ((gl ++ gl).map fun e => (e.1.testBit c, e.2.2.2 - e.2.2.1))).foldl max 0)

/-- Does HOLD stop the preemptable MAC? -/
def Hub.gateHold (h : Hub) (l : Fin 4) : Bool :=
  h.bit (F.X_GCL_CTL_EN l) && ((h.gateList l)[h.gateIdx l]?).any fun e => e.2.1

/-- Nanoseconds a frame takes with its framing at the current rate (R251). -/
def Hub.frameNs (h : Hub) (l : Fin 4) (len : Nat) : Nat := ((frameBytes len + 20) * h.psPerByte l + 999) / 1000

/-- May a frame of a class start on a link now (R249-R251, R255)? -/
def Hub.mayStart (h : Hub) (l : Fin 4) (c len : Nat) : Bool :=
  h.linkIsUp l && !(h.fld (F.X_STAT_PAUSED_RX l)).testBit c && !(c < 7 && h.gateHold l) &&
    match h.gateLeft l c with
    | none => true
    | some n => decide (h.frameNs l len ≤ n)

/-- LPI of a link's two directions; STAT.LPI shows either (R261). -/
def Hub.putLpi (h : Hub) (l : Fin 4) (tx rx : Bool) : Hub :=
  (h.modLink l fun k => { k with lpiTx := tx, lpiRx := rx }).putB (F.X_STAT_LPI l) (tx || rx)

/-- Count a frame sent by a link; it ends LPI of that direction (R261, R266). -/
def Hub.txCount (h : Hub) (l : Fin 4) (len : Nat) : Hub :=
  ((h.putLpi l false (h.link[l]).lpiRx).modLink l fun k => { k with idleAt := h.now }).txStat l len

/-! ## Transit -/

/-- Is a frame longer than the longest open interval its class has (R251)? -/
def Hub.tooLong (h : Hub) (l : Fin 4) (f : Frame) : Bool :=
  (h.gateLongest l f.hdr.tc.toNat).any fun n => decide (n < h.frameNs l f.pay.length)

/-- A frame leaves on a link, ended good or with an eclipse (R278). -/
def Hub.emitOn (h : Hub) (l : Fin 4) (f : Frame) (good : Bool) : Hub :=
  let h := if good then h else h.count (F.X_TXECL l)
  (h.txCount l f.pay.length).emit (.frame ⟨l.val, by omega⟩ f (!good))

/-- A frame in transit to a link: cut through where its class may start, else stored (R277, R251); a bad frame that is
stored is discarded whole (R278). -/
def Hub.transit (h : Hub) (ing : Fin 7) (l : Fin 4) (f : Frame) (good : Bool) : Hub :=
  let p : Fin 7 := ⟨l.val, by omega⟩
  let wrapped := (l == 0 && h.bit F.RNG_STAT_WRAPE) || (l == 1 && h.bit F.RNG_STAT_WRAPW)
  if !wrapped && h.linkTakes l then
    if h.linkIsUp l && h.tooLong l f then h.count (F.X_GATEDROP l)
    else if h.mayStart l f.hdr.tc.toNat f.pay.length then h.emitOn l f good
    else if good then (h.count (F.X_CTSTORE l)).route p ing f |>.1 else h
  else if good then (h.route p ing f).1 else h

/-- A frame goes on to the other ring port with one hop less (R275, R276). -/
def Hub.forward (h : Hub) (p : Fin 4) (f : Frame) (good : Bool := true) : Hub :=
  if f.hdr.hops = 0 then (h.count F.RNG_HOPDROP).flag .rng F.RNG_FLAG_HOPDROP
  else h.transit ⟨p.val, by omega⟩ (if p = 0 then 1 else 0) { f with hdr := { f.hdr with hops := f.hdr.hops - 1 } } good

end Sys2Proof.Machine
end

