-- ==== Sys2Proof/Machine/Ring.lean ====
section
/-! DEFINITION. The ring protocol: joining, election, heartbeats, topology, wraps and planned changes
(09 R273, R281-R298). -/

namespace Sys2Proof

/-- The UID in words 1 and 2 of a payload. -/
def Frame.uid (f : Frame) : BitVec 64 := f.word 2 ++ f.word 1

/-- Is it a RINGCTL frame of a subtype? -/
def Frame.isRing (f : Frame) (sub : Nat) : Bool := f.hdr.typ == Machine.tRINGCTL && (f.word 0).bits 31 24 == sub

end Sys2Proof

namespace Sys2Proof.Machine

/-! ## Frames -/

/-- Change the ring protocol's state. -/
def Hub.modRing (h : Hub) (g : Ring → Ring) : Hub := { h with ring := g h.ring }

/-- RNG_STAT.JOIN codes (Table 9.8). -/
def jnIDLE : Nat := 0
def jnWAIT : Nat := 1
def jnELECTING : Nat := 2
def jnJOINING : Nat := 3
def jnJOINED : Nat := 4
def jnREFUSED : Nat := 5
def jnMASTER : Nat := 6

/-- Is this hub the master? -/
def Hub.isMaster (h : Hub) : Bool := h.fld F.RNG_STAT_JOIN == jnMASTER
/-- The master known, 0 if none. -/
def Hub.master (h : Hub) : Nat := h.ringMaster
/-- Enter a JOIN state. -/
def Hub.join (h : Hub) (j : Nat) : Hub := h.put F.RNG_STAT_JOIN j
/-- The unique device ID as two words. -/
def Hub.uidWords (h : Hub) : List W32 := [h.fuse.uid.extractLsb' 0 32, h.fuse.uid.extractLsb' 32 32]

/-- Send a RINGCTL frame (Table 9.3). -/
def Hub.ringCtl (h : Hub) (dnode sub low : Nat) (ws : List W32) (at_ : BitVec 64 := 0) : Hub :=
  let pay := wordsPay (BitVec.ofNat 32 (sub * 2 ^ 24 + low) :: ws)
  h.send { hdr := h.mkHdr tRINGCTL 5 (BitVec.ofNat 8 dnode) 0 pay.length (adr := at_), pay := pay }


/-- Is a ring port UP? -/
def Hub.ringPortUp (h : Hub) : Bool := h.linkIsUp 0 || h.linkIsUp 1

/-- Does this hub take part in joining and election: member 0, enabled, a ring port UP (R282)? EN cleared takes effect at the
next beacon (Table 9.8). -/
def Hub.takesPart (h : Hub) : Bool := h.member == 0 && (h.bit F.RNG_CTL_EN || h.ring.part) && h.ringPortUp

/-- A beacon of a ring port is the safe boundary of RNG_CTL.EN (Table 9.8). -/
def Hub.ringBoundary (h : Hub) (l : Fin 4) : Hub :=
  if l.val < 2 then h.modRing fun r => { r with part := h.bit F.RNG_CTL_EN } else h

/-- An execute time `us` microseconds from now. -/
def Hub.timeIn (h : Hub) (us : Nat) : BitVec 64 := GTime.encode (GTime.ofUnits (h.gno.t.units + us * 1000 * 2 ^ 24))

/-- Has an execute time come? -/
def Hub.timeCome (h : Hub) (t : BitVec 64) : Bool := decide (pickTime h.gno.t t ≤ ((h.gno.t.units : Nat) : Int))

/-! ## Replay windows (R281) -/

/-- One window sees a number: accepted or not, and the window after it. -/
def Window.see (w : Window) (seq : Nat) : Bool × Window :=
  let d := (seq + 65536 - w.hi) % 65536
  if 1 ≤ d ∧ d ≤ 32767 then
    (true, { w with hi := seq, seen := if d ≤ 64 then (w.seen <<< d) ||| (1#64 <<< (d - 1)) else 0 })
  else if 65536 - 64 ≤ d ∧ !w.seen.getLsbD (65535 - d) then
    (true, { w with seen := w.seen ||| (1#64 <<< (65535 - d)) })
  else (false, w)

/-- A frame's number at the window of its source; the first frame after a clear is accepted. -/
def seeIn (l : List Window) (node : BitVec 8) (mem : BitVec 2) (seq : Nat) : Bool × List Window :=
  match l.find? fun w => w.node == node && w.mem == mem with
  | none => (true, { node := node, mem := mem, hi := seq } :: l)
  | some w =>
    let r := w.see seq
    (r.1, l.map fun v => if v.node == node && v.mem == mem then r.2 else v)

/-- A broadcast at its window. -/
def Hub.seeBroadcast (h : Hub) (f : Frame) : Bool × Hub :=
  let r := seeIn h.ring.bc f.hdr.snode f.hdr.smem f.hdr.seq.toNat
  let h := h.modRing fun g => { g with bc := r.2 }
  (r.1, if r.1 then h else h.count F.RNG_DUPBC)

/-- A MGMT frame at its window. -/
def Hub.seeMgmt (h : Hub) (f : Frame) : Bool × Hub :=
  let r := seeIn h.ring.mg f.hdr.snode f.hdr.smem f.hdr.seq.toNat
  let h := h.modRing fun g => { g with mg := r.2 }
  (r.1, if r.1 then h else (h.count F.RNG_REPLAY).flag .rng F.RNG_FLAG_REPLAY)

/-! ## The stack (R288) -/

/-- Member 0 pushes the node ID to member 1, and each member on down. -/
def Hub.idPush (h : Hub) : Hub :=
  if h.member < h.fld F.RNG_JOINCFG_MEMBERS ∧ h.linkIsUp 3 then
    h.sendLink 3 tRINGCTL (wordsPay [0x06000000#32,
      BitVec.ofNat 32 (h.node * 2 ^ 24 + h.fld F.RNG_EPOCH_EPOCH)])
  else h

/-- A new epoch; member 0 tells the stack. -/
def Hub.newEpoch (h : Hub) (e : Nat) : Hub :=
  if e % 65536 = h.fld F.RNG_EPOCH_EPOCH then h else (h.put F.RNG_EPOCH_EPOCH e).idPush

/-- The master known changes (RNG_FLAG bit 9): the times of R282, R285 and R286 start again. -/
def Hub.setMaster (h : Hub) (id : Nat) : Hub :=
  if id = h.master then h
  else ((h.put F.RNG_STAT_MASTER id).flag .rng F.RNG_FLAG_MASTER).modRing fun r =>
    { r with joinAt := none, quietAt := if id = 0 then h.now else r.quietAt, hbAt := h.now }

/-! ## Topology (R289, R290) -/

/-- The master sends one TOPO frame in each direction. -/
def Hub.topoSweep (h : Hub) : Hub :=
  let one := fun (h : Hub) (p : Fin 7) =>
    let pay := wordsPay [BitVec.ofNat 32 (0x15 * 2 ^ 24 + h.fld F.RNG_EPOCH_EPOCH)] ++ List.replicate 508 0
    let r := h.takeSeq (256 + tRINGCTL.toNat)
    let hdr := { r.2.mkHdr tRINGCTL 5 (BitVec.ofNat 8 h.node) 0 pay.length (seq := r.1) with
      d := p == 1, hops := BitVec.ofNat 9 r.2.hopsOut }
    (r.2.route p 5 { hdr := hdr, pay := pay }).1
  let h := h.modRing fun r => { r with topoE := none, topoW := none, sweepAt := h.now }
  one (one h 0) 1

/-- The master's sweep, when this hub is the master. -/
def Hub.masterSweep (h : Hub) : Hub := if h.isMaster then h.topoSweep else h

/-- The position of this node in a map, 0 where it has none. -/
def Hub.myPos (h : Hub) (m : List TopoPos) : Nat := (posOf m h.node).getD 0

/-- The neighbour of a node over one of its ring ports in the map: East (0) or West (1). -/
def Hub.neighbour (h : Hub) (id : Nat) (west : Bool) : Option Nat :=
  match h.ring.map with
  | none => none
  | some m => match posOf m id with
    | none => none
    | some i => (m[(i + (if west then m.length - 1 else 1)) % m.length]?).map (·.id)

/-- The link a node's port stands for: its West end and its East end. -/
def Hub.linkOf (h : Hub) (id : Nat) (west : Bool) : Option (BitVec 8 × BitVec 8) :=
  (h.neighbour id west).map fun o =>
    if west then (BitVec.ofNat 8 o, BitVec.ofNat 8 id) else (BitVec.ofNat 8 id, BitVec.ofNat 8 o)

/-- The port of this hub on a link named by its two ends: the West end's East port, the East end's West port. -/
def Hub.portOn (h : Hub) (a b : BitVec 8) : Option (Fin 4) :=
  if a.toNat = h.node then some 0 else if b.toNat = h.node then some 1 else none

/-- The entries a TOPO payload holds, in the order they were written. -/
def topoEntries (f : Frame) : List TopoEnt :=
  ((List.range 254).map fun i =>
    let id := f.pay.getD (4 + 2 * i) 0
    let b := f.pay.getD (5 + 2 * i) 0
    ({ id := id.toNat, size := b.toNat / 64, eUp := b.getLsbD 5, wUp := b.getLsbD 4, eWrap := b.getLsbD 3,
       wWrap := b.getLsbD 2 } : TopoEnt)).filter fun e => e.id != 0

/-- This node's TOPO entry: two bytes (R289). -/
def Hub.topoMine (h : Hub) : List Byte :=
  [BitVec.ofNat 8 h.node,
   BitVec.ofNat 8 (h.fld F.RNG_JOINCFG_MEMBERS * 64 + b2n (h.linkIsUp 0) * 32 + b2n (h.linkIsUp 1) * 16 +
     b2n (h.bit F.RNG_STAT_WRAPE) * 8 + b2n (h.bit F.RNG_STAT_WRAPW) * 4)]

/-- Write this node's entry into the first entry whose first byte is 0. -/
def Hub.topoWrite (h : Hub) (f : Frame) : Frame :=
  match (List.range 254).find? fun i => f.pay.getD (4 + 2 * i) 0 == 0 with
  | none => f
  | some i => { f with pay := f.pay.take (4 + 2 * i) ++ h.topoMine ++ f.pay.drop (6 + 2 * i) }

/-- The master's merge of the two sweeps: nodes in East order from itself, and each link East of a node. -/
def Hub.topoMerge (h : Hub) (e w : List TopoEnt) : List TopoPos :=
  let me : TopoEnt :=
    { id := h.node, size := 0, eUp := h.linkIsUp 0, wUp := h.linkIsUp 1, eWrap := h.bit F.RNG_STAT_WRAPE,
      wWrap := h.bit F.RNG_STAT_WRAPW }
  let l := me :: e ++ w.reverse.filter fun x => !(e.any fun y => y.id == x.id)
  (List.range l.length).map fun i =>
    let a := l.getD i me
    let b := l.getD ((i + 1) % l.length) me
    { id := a.id, up := a.eUp && b.wUp, wrapped := a.eWrap || b.wWrap }

/-- A map is taken over: RNG_STAT.COUNT, the epoch and the flag (R289). -/
def Hub.takeMap (h : Hub) (m : List TopoPos) (epoch : Nat) : Hub :=
  (((h.modRing fun r => { r with map := some m }).put F.RNG_STAT_COUNT m.length).newEpoch epoch).flag .rng F.RNG_FLAG_TOPO

/-- The payload words of a TOPO_MAP after word 0: the count, then IDs and link bytes. -/
def mapBytes (m : List TopoPos) : List Byte :=
  beBytes (BitVec.ofNat 32 m.length) ++ m.map (fun p => BitVec.ofNat 8 p.id) ++
    m.map fun p => BitVec.ofNat 8 (b2n p.up * 2 + b2n p.wrapped)

/-- The master broadcasts the map and keeps the IDs it shows. -/
def Hub.mapSend (h : Hub) (m : List TopoPos) : Hub :=
  let e := h.fld F.RNG_EPOCH_EPOCH
  let h := (h.modRing fun r => { r with ids := r.ids.filter fun p => (posOf m p.1).isSome, topoE := none, topoW := none }).takeMap m e
  let pay := wordsPay [BitVec.ofNat 32 (0x16 * 2 ^ 24 + e)] ++ mapBytes m
  h.send { hdr := h.mkHdr tRINGCTL 5 255 0 pay.length, pay := pay }

/-- A TOPO frame of the present epoch comes back to the master (R289). -/
def Hub.topoBack (h : Hub) (f : Frame) : Hub :=
  if (f.word 0).bits 15 0 ≠ h.fld F.RNG_EPOCH_EPOCH then h
  else
    let l := topoEntries f
    let h := h.modRing fun r => if f.hdr.d then { r with topoW := some l } else { r with topoE := some l }
    match h.ring.topoE, h.ring.topoW with
    | some e, some w => h.mapSend (h.topoMerge e w)
    | _, _ => h

/-- A TOPO frame at a ring port (R289). -/
def Hub.onTopo (h : Hub) (p : Fin 4) (f : Frame) : Hub :=
  if !f.isRing 0x15 then h
  else if f.hdr.snode.toNat = h.node ∧ h.node ≠ 0 then (if h.isMaster then h.topoBack f else h)
  else h.forward p (if f.hdr.w then f else h.topoWrite f)

/-- A TOPO_MAP (R289). -/
def Hub.onTopoMap (h : Hub) (f : Frame) : Hub :=
  if !f.isRing 0x16 || h.isMaster then h
  else
    let n := (f.word 1).bits 7 0
    let m := (List.range n).map fun i =>
      let b := f.pay.getD (8 + n + i) 0
      ({ id := (f.pay.getD (8 + i) 0).toNat, up := b.getLsbD 1, wrapped := b.getLsbD 0 } : TopoPos)
    h.takeMap m ((f.word 0).bits 15 0)

/-! ## Wraps (R291, R295, R296) -/

/-- Tell the master something about a port; the master hears itself at once. -/
def Hub.tellMaster (h : Hub) (sub port cause : Nat) (here : Hub → Hub) : Hub :=
  if h.isMaster then here h
  else if h.master = 0 then h
  else h.ringCtl h.master sub 0 [BitVec.ofNat 32 (cause * 256 + port)]

/-- The wrap bit of a ring port. -/
def wrapFld (p : Nat) : Fld := if p = 0 then F.RNG_STAT_WRAPE else F.RNG_STAT_WRAPW

/-- The master hears of a wrap: the link is not up, and the topology is swept (R289). -/
def Hub.masterWrap (h : Hub) (node : Nat) (west : Bool) : Hub :=
  let h := match h.linkOf node west with
    | some l => h.modRing fun r => { r with linkUp := r.linkUp.filter fun x => (x.1, x.2.1) != l }
    | none => h
  h.topoSweep

/-- A wrap of port p comes into force. -/
def Hub.wrapOn (h : Hub) (p : Nat) (cause : Nat) : Hub :=
  let h := ((h.on (wrapFld p)).count F.RNG_WRAPCNT).flag .rng F.RNG_FLAG_WRAP
  h.tellMaster 0x17 p cause fun h => h.masterWrap h.node (p == 1)

/-- Wraps follow the ring ports: a port that is not UP is wrapped while the other one is UP (R291). -/
def Hub.wrapEval (h : Hub) : Hub :=
  [0, 1].foldl (fun h p =>
    if h.linkIsUp p then h
    else if h.linkIsUp (1 - p) then
      (if h.bit (wrapFld p) then h else h.wrapOn p (h.fld (F.X_STAT_CAUSE p)))
    else h.off (wrapFld p)) h

/-- A wrapped port that is lost again: an unwrap announced for its link is cancelled, and the master told (R295). -/
def Hub.wrapAgain (h : Hub) (p : Nat) (cause : Nat) : Hub :=
  if decide (p < 2) && h.bit (wrapFld p) && h.linkIsUp (1 - p) then
    let h := h.modRing fun r => { r with plans := r.plans.filter fun q => q.wrap || !((h.portOn q.a q.b).any fun x => x.val == p) }
    h.tellMaster 0x17 p cause fun h => h.masterWrap h.node (p == 1)
  else h

/-- Announce a change of a link at an effective time (R295, R296). -/
def Hub.planSend (h : Hub) (wrap : Bool) (a b : BitVec 8) (t : BitVec 64) : Hub :=
  let h := h.modRing fun r => { r with plans := r.plans ++ [⟨wrap, a, b, t⟩] }
  h.ringCtl 255 (if wrap then 0x1A else 0x19) 0 [a ++ b ++ 0#16] t

/-- The master announces an unwrap LEAD µs ahead. -/
def Hub.unwrapSend (h : Hub) (a b : BitVec 8) : Hub :=
  let h := h.modRing fun r => { r with linkUp := r.linkUp.filter fun x => (x.1, x.2.1) != (a, b) }
  h.planSend false a b (h.timeIn (h.fld F.RNG_PLAN_LEAD))

/-- The master hears that a link is UP again: a shift's planned wrap is removed at once, another waits (R295, R296). -/
def Hub.masterLinkUp (h : Hub) (node : Nat) (west : Bool) : Hub :=
  match h.linkOf node west with
  | none => h
  | some l =>
    if h.ring.shiftFar = some l then (h.modRing fun r => { r with shiftFar := none }).unwrapSend l.1 l.2
    else if h.ring.linkUp.any fun x => (x.1, x.2.1) == l then h
    else h.modRing fun r => { r with linkUp := (l.1, l.2, h.now) :: r.linkUp }

/-- Record an announced change; a copy that comes again by a wrapped path changes nothing. -/
def Hub.planTake (h : Hub) (wrap : Bool) (f : Frame) : Hub :=
  let w := f.word 1
  let p : Plan := ⟨wrap, w.extractLsb' 24 8, w.extractLsb' 16 8, f.hdr.adr⟩
  if h.ring.plans.contains p then h else h.modRing fun r => { r with plans := r.plans ++ [p] }

/-- The map after a planned change of a link: every node steers by it (R295, R296). -/
def Hub.steer (h : Hub) (p : Plan) : Hub :=
  h.modRing fun r => { r with map := r.map.map fun m => m.map fun q =>
    if q.id = p.a.toNat then { q with wrapped := p.wrap } else q }

/-- A planned unwrap or wrap comes to its time at this node: a wrap for an agreed shift starts the drain (R258), a link lost
before an unwrap keeps its wrap and reports it again, and the master sweeps at an unwrap (R289). -/
def Hub.planDo (h : Hub) (p : Plan) : Hub :=
  let h := h.modRing fun r => { r with plans := r.plans.erase p }
  match h.portOn p.a p.b with
  | none => if p.wrap then h.steer p else (h.steer p).masterSweep
  | some q =>
    if p.wrap then
      let h := h.modLink q fun k => if k.agreed.isSome then { k with drainEnd := h.now + us (h.fld (F.X_SHIFTT_DRAIN q)) } else k
      if h.bit (wrapFld q) then h.steer p else (h.steer p).wrapOn q 7
    else if h.linkIsUp q then (((h.steer p).off (wrapFld q)).flag .rng F.RNG_FLAG_UNWRAP).masterSweep
    else h.tellMaster 0x17 q (h.fld (F.X_STAT_CAUSE q)) fun h => h.masterWrap h.node (q.val == 1)

/-- Every plan of a kind whose time has come. -/
def Hub.plansDo (h : Hub) (wrap : Bool) : Hub :=
  (h.ring.plans.filter fun p => p.wrap == wrap && h.timeCome p.at_).foldl (fun h p => h.planDo p) h

/-! ## Joining (R282-R284, R287) -/

/-- JOIN_REQ goes to the master: every 1 ms, after a refusal every 1 s. -/
def Hub.joinReqSend (h : Hub) : Hub :=
  let j := h.fld F.RNG_STAT_JOIN
  let soon := h.ring.joinAt.any fun t => decide (h.now < t + us (if j = jnREFUSED then 1000000 else 1000))
  if !h.takesPart || h.master == 0 || j == jnJOINED || j == jnMASTER || soon then h
  else
    let req := if h.ring.oldId = 0 then h.fld F.RNG_JOINCFG_REQID else h.ring.oldId
    let w3 := BitVec.ofNat 32 (req * 2 ^ 24 + h.fld F.RNG_JOINCFG_STRICT * 2 ^ 23 + h.fld F.RNG_JOINCFG_MEMBERS * 2 ^ 16)
    let h := (if j = jnREFUSED then h else h.join jnJOINING).modRing fun r => { r with joinAt := some h.now }
    h.ringCtl h.master 0x10 0 (h.uidWords ++ [w3])

/-- IDs in use on the ring as the master knows them. -/
def Hub.idsUsed (h : Hub) : List Nat :=
  h.node :: h.ring.ids.map (·.1) ++ (match h.ring.map with | some m => m.map TopoPos.id | none => [])

/-- The lowest free ID. -/
def Hub.idFree (h : Hub) : Option Nat := (List.range 253).map (· + 1) |>.find? fun i => !h.idsUsed.contains i

/-- The master answers a JOIN_REQ (R283, R284): the ID granted, or (left) the reason of the refusal. -/
def Hub.joinGrant (h : Hub) (uid : BitVec 64) (w3 : W32) : Nat ⊕ Nat :=
  let req := w3.bits 31 24
  match h.ring.ids.find? fun p => p.2 == uid with
  | some p => .inr p.1
  | none =>
    if 1 ≤ req ∧ req ≤ 253 ∧ !h.idsUsed.contains req then .inr req
    else if w3.bit 23 ∧ 1 ≤ req then (if h.idFree.isNone then .inl 1 else .inl 2)
    else match h.idFree with
      | some i => .inr i
      | none => .inl 1

/-- A JOIN_REQ at the master: after a grant the epoch rises and a new sweep starts. -/
def Hub.onJoinReq (h : Hub) (f : Frame) : Hub :=
  if !f.isRing 0x10 || !h.isMaster then h
  else match h.joinGrant f.uid (f.word 3) with
    | .inl r => h.ringCtl 255 0x12 0 [f.word 1, f.word 2, BitVec.ofNat 32 r]
    | .inr id =>
      let e := (h.fld F.RNG_EPOCH_EPOCH + 1) % 65536
      let h := (h.modRing fun r =>
        { r with ids := (id, f.uid) :: r.ids.filter fun p => p.1 != id
                 bc := r.bc.filter fun w => w.node.toNat != id, mg := r.mg.filter fun w => w.node.toNat != id }).newEpoch e
      (h.ringCtl 255 0x11 0 [f.word 1, f.word 2, BitVec.ofNat 32 (id * 2 ^ 24 + e)]).topoSweep

/-- A JOIN_ACK: windows of the ID are cleared; the hub whose UID it names takes the ID (R281, R282). -/
def Hub.onJoinAck (h : Hub) (f : Frame) : Hub :=
  if !f.isRing 0x11 then h
  else
    let id := (f.word 3).bits 31 24
    let h := h.modRing fun r =>
      { r with bc := r.bc.filter fun w => w.node.toNat != id, mg := r.mg.filter fun w => w.node.toNat != id, ids := (id, f.uid) :: r.ids.filter fun p => p.1 != id }
    if f.uid ≠ h.fuse.uid ∨ h.isMaster then h
    else
      let h := ((h.put F.GLB_SELF_NODE id).put F.GLB_SELF_MEMBER h.member).modRing fun r => { r with oldId := 0 }
      (((h.join jnJOINED).flag .rng F.RNG_FLAG_JOINED).put F.RNG_EPOCH_EPOCH ((f.word 3).bits 15 0)).idPush

/-- A JOIN_NAK for this hub (R282, R287). -/
def Hub.onJoinNak (h : Hub) (f : Frame) : Hub :=
  if !f.isRing 0x12 || f.uid != h.fuse.uid then h
  else
    let r := (f.word 3).bits 7 0
    let h := ((h.put F.RNG_NAK_REASON r).count F.RNG_JOINNAK).join jnREFUSED
    let h := if r = 2 ∧ h.ring.oldId ≠ 0 then (h.put F.GLB_SELF_NODE 0).modRing fun r => { r with oldId := 0 } else h
    (h.flag .rng F.RNG_FLAG_REFUSED).raise 1 (fUnit 0x18) causePROTO h.node

/-! ## Election and heartbeats (R285-R287) -/

/-- Is a claim (priority, UID) better than another? -/
def better (p : Nat) (u : BitVec 64) (p' : Nat) (u' : BitVec 64) : Bool :=
  decide (p' < p) || (p == p' && decide (u.toNat < u'.toNat))

/-- A candidate claims once it has seen no master for WAIT ms, and repeats its claim every 1 ms (R285, R286). -/
def Hub.electStart (h : Hub) : Hub :=
  let p := h.fld F.RNG_ELECT_PRIO
  let due := if h.ring.electing then h.ring.electAt + us 1000 else h.ring.quietAt + us (max 1 (h.fld F.RNG_ELECT_WAIT) * 1000)
  if !h.takesPart || p == 0 || h.master != 0 || decide (h.now < due) then h
  else
    let h := (h.modRing fun r =>
      { r with electing := true, electAt := h.now, claimAt := if r.electing then r.claimAt else h.now }).join jnELECTING
    h.ringCtl 255 0x13 0 (h.uidWords ++ [BitVec.ofNat 32 p])

/-- The master resigns: its nodes, and itself, join the better one with their present IDs (R287). -/
def Hub.resign (h : Hub) : Hub :=
  ((h.setMaster 0).join jnWAIT).modRing fun r => { r with oldId := h.node, electing := false }

/-- A claim is heard: a candidate that hears a better one withdraws, and waits for WAIT ms again (log entry 126). -/
def Hub.onElect (h : Hub) (f : Frame) : Hub :=
  if !f.isRing 0x13 then h
  else if better ((f.word 3).bits 7 0) f.uid (h.fld F.RNG_ELECT_PRIO) h.fuse.uid then
    if h.isMaster then h.resign
    else if h.ring.electing then (h.modRing fun r => { r with electing := false, quietAt := h.now }).join jnWAIT
    else h.modRing fun r => { r with quietAt := h.now }
  else h

/-- The master's heartbeat. -/
def Hub.hbOut (h : Hub) : Hub :=
  if !h.isMaster then h
  else (h.modRing fun r => { r with hbAt := h.now }).ringCtl 255 0x14 0 (h.uidWords ++
    [BitVec.ofNat 32 (h.fld F.RNG_EPOCH_EPOCH * 2 ^ 16 + h.fld F.RNG_ELECT_PRIO)])

/-- The heartbeat is due every 1 ms (R286). -/
def Hub.hbSend (h : Hub) : Hub := if h.now < h.ring.hbAt + us 1000 then h else h.hbOut

/-- A candidate that has heard no better claim for 3 ms becomes master. -/
def Hub.electWin (h : Hub) : Hub :=
  if !h.ring.electing ∨ h.now < h.ring.claimAt + us 3000 then h
  else
    let req := h.fld F.RNG_JOINCFG_REQID
    let used := match h.ring.map with | some m => m.map TopoPos.id | none => []
    let id := if h.node ≠ 0 then h.node
      else if 1 ≤ req ∧ req ≤ 253 ∧ !used.contains req then req
      else (((List.range 253).map (· + 1)).find? fun i => !used.contains i).getD 1
    let h := (h.put F.GLB_SELF_NODE id).put F.GLB_SELF_MEMBER h.member
    let h := h.modRing fun r =>
      { r with electing := false, prio := h.fld F.RNG_ELECT_PRIO, masterUid := h.fuse.uid, ids := [(id, h.fuse.uid)], oldId := 0 }
    ((((h.setMaster id).join jnMASTER).hbOut).topoSweep).idPush

/-- A heartbeat: renews the master, or makes a worse one give way (R286, R287). -/
def Hub.onMasterHb (h : Hub) (f : Frame) : Hub :=
  if !f.isRing 0x14 then h
  else
    let p := (f.word 3).bits 7 0
    let id := f.hdr.snode.toNat
    let adopt := fun (h : Hub) => (h.setMaster id).modRing fun r =>
      { r with prio := p, masterUid := f.uid, electing := false, hbAt := h.now }
    if h.isMaster then
      if better p f.uid (h.fld F.RNG_ELECT_PRIO) h.fuse.uid then (adopt h.resign).join jnJOINING else h
    else if h.master = 0 then
      let j := h.fld F.RNG_STAT_JOIN
      adopt (if j = jnJOINED then h else if h.node ≠ 0 ∧ h.ring.oldId = 0 then h.join jnJOINED
        else h.join jnJOINING)
    else if f.uid = h.ring.masterUid ∨ id = h.master then adopt h
    else if better p f.uid h.ring.prio h.ring.masterUid then
      ((adopt h).modRing fun r => { r with oldId := h.node }).join jnJOINING
    else h

/-- 3 ms without a heartbeat (R286). -/
def Hub.masterLost (h : Hub) : Hub :=
  if h.isMaster || h.master == 0 || decide (h.now < h.ring.hbAt + us 3000) then h
  else
    let h := (h.setMaster 0).modRing fun r => { r with electing := false }
    if h.fld F.RNG_STAT_JOIN = jnJOINED then h else h.join jnWAIT

/-! ## Rate shifts at the master (R297) -/

/-- What a rate carries in `ns`, in bytes: 25, 10 or 2.5 Gb/s. -/
def rateBytes (r ns : Nat) : Nat := if r = 0 then ns * 25 / 8 else if r = 1 then ns * 10 / 8 else ns * 25 / 80

/-- Drone bytes of one direction in a cycle: the frames plus 44 bytes each. -/
def Hub.droneBytes (h : Hub) : Nat :=
  ((List.range 64).map fun f => if h.bit (F.DRN_FRM_V f) then h.fld (F.DRN_FRM_LEN f) + 44 else 0).foldl (· + ·) 0

/-- Does the master approve a shift of the link between two nodes to a rate? A request whose utilisation is above UP is
for an upshift, any other for a downshift (log entry 23). -/
def Hub.shiftOk (h : Hub) (l : BitVec 8 × BitVec 8) (t util : Nat) : Bool :=
  let others := match h.ring.map with
    | some m => m.all fun p => !p.wrapped && (p.up || p.id == l.1.toNat)
    | none => false
  let gap := match h.ring.shiftAt with
    | some a => decide (h.fld F.RNG_SHIFTCFG_GAP * 400000 ≤ h.now - a)
    | none => true
  let up := h.fld (F.X_SHIFT_UP 0)
  let down := decide (util ≤ up * 10)
  let drn := decide (h.droneBytes * 100 ≤ h.fld F.RNG_SHIFTCFG_DRNMAX * rateBytes t (h.fld F.DRN_PER_PER * 250))
  let scaled := if t = 1 then util * 5 / 2 else util * 4
  others && gap && !h.bit F.RNG_STAT_WRAPE && !h.bit F.RNG_STAT_WRAPW && (!down || (drn && decide (scaled < up * 10)))

/-- A SHIFT_REQ is decided: the answer, and the time of an approved shift. -/
def Hub.shiftDecide (h : Hub) (src : Nat) (w1 w2 : W32) : Hub × Option (BitVec 64) :=
  let far := w1.bits 31 24
  let l : BitVec 8 × BitVec 8 :=
    if h.neighbour src false = some far then (BitVec.ofNat 8 src, BitVec.ofNat 8 far) else (BitVec.ofNat 8 far, BitVec.ofNat 8 src)
  if h.shiftOk l (w1.bits 1 0) (w2.bits 9 0) then
    let t := h.timeIn (h.fld F.RNG_PLAN_LEAD)
    (h.modRing fun r => { r with shiftAt := some h.now, shiftFar := some l }, some t)
  else (h, none)

/-- After an approval the master announces the planned wrap. -/
def Hub.shiftPlan (h : Hub) (t : BitVec 64) : Hub :=
  match h.ring.shiftFar with
  | some l => h.planSend true l.1 l.2 t
  | none => h

/-- A SHIFT_REQ frame at the master (R297). -/
def Hub.onShiftReq (h : Hub) (f : Frame) : Hub :=
  if !f.isRing 0x1B || !h.isMaster then h
  else
    let src := f.hdr.snode.toNat
    match h.shiftDecide src (f.word 1) (f.word 2) with
    | (h, some t) => (h.ringCtl src 0x1C 0 [1] t).shiftPlan t
    | (h, none) => h.ringCtl src 0x1C 0 [0]

/-- A RESET frame: from the current master it is scheduled, a foreign one is discarded and logged (R298). -/
def Hub.onRingReset (h : Hub) (f : Frame) : Hub :=
  if !f.isRing 0x1D then h
  else if f.hdr.snode.toNat = h.master ∧ h.master ≠ 0 then h.modRing fun r => { r with ringReset := some f.hdr.adr }
  else h.raise 1 (fUnit 0x18) causePROTO f.hdr.snode.toNat

/-- An ID_PUSH down the stack (R288). -/
def Hub.onIdPush (h : Hub) (f : Frame) : Hub :=
  if !f.isRing 0x06 || h.member == 0 then h
  else
    let h := (h.put F.GLB_SELF_NODE ((f.word 1).bits 31 24)).put F.GLB_SELF_MEMBER h.member
    (h.put F.RNG_EPOCH_EPOCH ((f.word 1).bits 15 0)).idPush

/-! ## The commands -/

/-- JOIN_REQ_SEND (R282). -/
def execJoinReqSend (s : State) : Host.Outcome State Fault Refusal := s.goes s.hub.joinReqSend
/-- JOIN_REQ (R283). -/
def execJoinReq (f : Frame) (s : State) : Host.Outcome State Fault Refusal := s.goes (s.hub.onJoinReq f)
/-- JOIN_ACK (R282). -/
def execJoinAck (f : Frame) (s : State) : Host.Outcome State Fault Refusal := s.goes (s.hub.onJoinAck f)
/-- JOIN_NAK (R282). -/
def execJoinNak (f : Frame) (s : State) : Host.Outcome State Fault Refusal := s.goes (s.hub.onJoinNak f)
/-- ELECT_START (R285). -/
def execElectStart (s : State) : Host.Outcome State Fault Refusal := s.goes s.hub.electStart
/-- ELECT (R285). -/
def execElect (f : Frame) (s : State) : Host.Outcome State Fault Refusal := s.goes (s.hub.onElect f)
/-- ELECT_WIN (R285). -/
def execElectWin (s : State) : Host.Outcome State Fault Refusal := s.goes s.hub.electWin
/-- MASTER_HB_SEND (R286). -/
def execMasterHbSend (s : State) : Host.Outcome State Fault Refusal := s.goes s.hub.hbSend
/-- MASTER_HB (R287). -/
def execMasterHb (f : Frame) (s : State) : Host.Outcome State Fault Refusal := s.goes (s.hub.onMasterHb f)
/-- MASTER_LOST (R286). -/
def execMasterLost (s : State) : Host.Outcome State Fault Refusal := s.goes s.hub.masterLost
/-- ID_PUSH (R288). -/
def execIdPush (f : Frame) (s : State) : Host.Outcome State Fault Refusal := s.goes (s.hub.onIdPush f)
/-- The sweep that is due every TOPO_PER ms (R289). -/
def Hub.sweepDue (h : Hub) : Hub :=
  if h.now < h.ring.sweepAt + us (max 1 (h.fld F.RNG_TIMING_TOPO) * 1000) then h else h.masterSweep

/-- TOPO_SWEEP (R289). -/
def execTopoSweep (s : State) : Host.Outcome State Fault Refusal := s.goes s.hub.sweepDue
/-- TOPO (R289). -/
def execTopo (port : Fin 2) (f : Frame) (s : State) : Host.Outcome State Fault Refusal :=
  s.goes (s.hub.onTopo ⟨port, by omega⟩ f)
/-- TOPO_MAP (R289). -/
def execTopoMap (f : Frame) (s : State) : Host.Outcome State Fault Refusal := s.goes (s.hub.onTopoMap f)
/-- WRAP (R289). -/
def execWrap (f : Frame) (s : State) : Host.Outcome State Fault Refusal :=
  s.goes (if f.isRing 0x17 ∧ s.hub.isMaster then s.hub.masterWrap f.hdr.snode.toNat ((f.word 1).bit 0) else s.hub)
/-- LINKUP (R295, R296). -/
def execLinkup (f : Frame) (s : State) : Host.Outcome State Fault Refusal :=
  s.goes (if f.isRing 0x18 ∧ s.hub.isMaster then s.hub.masterLinkUp f.hdr.snode.toNat ((f.word 1).bit 0) else s.hub)
/-- Has a link been reported UP continuously for UNWRAP_HOLD ms (R295)? -/
def Hub.heldUp (h : Hub) (a b : BitVec 8) : Bool :=
  h.ring.linkUp.any fun x => x.1 == a && x.2.1 == b && decide (x.2.2 + us (max 1 (h.fld F.RNG_TIMING_UNWRAP) * 1000) ≤ h.now)

/-- UNWRAP_HOLD_EXPIRE (R295). -/
def execUnwrapHoldExpire (a b : BitVec 8) (s : State) : Host.Outcome State Fault Refusal :=
  s.goes (if s.hub.isMaster ∧ s.hub.heldUp a b then s.hub.unwrapSend a b else s.hub)
/-- UNWRAP (R295). -/
def execUnwrap (f : Frame) (s : State) : Host.Outcome State Fault Refusal :=
  s.goes (if f.isRing 0x19 then s.hub.planTake false f else s.hub)
/-- UNWRAP_TIME (R295). -/
def execUnwrapTime (s : State) : Host.Outcome State Fault Refusal := s.goes (s.hub.plansDo false)
/-- WRAP_PLAN (R296). -/
def execWrapPlan (f : Frame) (s : State) : Host.Outcome State Fault Refusal :=
  s.goes (if f.isRing 0x1A then s.hub.planTake true f else s.hub)
/-- WRAP_PLAN_TIME (R296). -/
def execWrapPlanTime (s : State) : Host.Outcome State Fault Refusal := s.goes (s.hub.plansDo true)
/-- SHIFT_REQ (R297). -/
def execShiftReq (f : Frame) (s : State) : Host.Outcome State Fault Refusal := s.goes (s.hub.onShiftReq f)
/-- RING_RESET_FRAME (R298). -/
def execRingResetFrame (f : Frame) (s : State) : Host.Outcome State Fault Refusal := s.goes (s.hub.onRingReset f)

end Sys2Proof.Machine
end

