-- ==== Sys2Proof/Machine/Link.lean ====
section
/-! DEFINITION. Ring and stack links: states, beacons, cages, pause, time gates, rate shift, low-power idle, Flare and
statistics periods (08). Links: 0 East, 1 West, 2 Up, 3 Down. -/

namespace Sys2Proof.Machine

/-- Link states beside UP (Table 8.3). -/
def lkOFF : Nat := 0
def lkTRAIN : Nat := 1
def lkHOLD : Nat := 3
def lkDOWN : Nat := 4
def lkSHIFT : Nat := 5
def lkFLARE : Nat := 6

/-- The state of a link. -/
def Hub.lk (h : Hub) (l : Fin 4) : Nat := h.fld (F.X_STAT_STATE l)

/-- A flag of a link. -/
def Hub.lkFlag (h : Hub) (l : Fin 4) (f : Fld) : Hub := h.flag (.link l) f

/-- The switch port of a link. -/
def portOf (l : Fin 4) : Fin 7 := ⟨l.val, by omega⟩

/-! ## Beacons (R248, R274) -/

/-- Send a beacon (Table 9.4); WRAP is set on the wrapped port and, by R291, on the other ring port (log entry 114). -/
def Hub.beacon (h : Hub) (l : Fin 4) : Hub :=
  let wrapped := l.val < 2 && (h.bit F.RNG_STAT_WRAPE || h.bit F.RNG_STAT_WRAPW)
  let w0 := h.master * 2 ^ 24 + h.fld F.RNG_EPOCH_EPOCH * 2 ^ 8 + b2n (!h.linkIsUp l) * 2 ^ 7 + b2n wrapped * 2 ^ 6 +
    b2n (l == 1 || l == 2) * 2 ^ 5
  let n := (h.link[l]).bseq
  ((h.ringBoundary l).modLink l fun k => { k with bseq := (k.bseq + 1) % 65536 }).sendLink l tBEACON
    (wordsPay [BitVec.ofNat 32 w0, BitVec.ofNat 32 (n * 2 ^ 16)])

/-- Are beacons sent in this state? -/
def Hub.beacons (h : Hub) (l : Fin 4) : Bool := h.linkSends l

/-- A beacon interval in ns: PERIOD, or LPI.BCN while either direction is in LPI (R246, R261). -/
def Hub.bcnNs (h : Hub) (l : Fin 4) : Nat :=
  if h.bit (F.X_STAT_LPI l) then max 1 (h.fld (F.X_LPI_BCN l)) * 1000 else max 1000 (h.fld (F.X_BCN_PERIOD l))

/-- Whole beacon intervals since the last good beacon, to the nearest (log entry 115). -/
def Hub.bcnGap (h : Hub) (l : Fin 4) : Nat :=
  let p := h.bcnNs l
  ((h.now - (h.link[l]).bAt) * 5 + p) / (2 * p)

/-! ## The TXDIS ball (R243, R486) -/

/-- TXDIS is high, the hub releasing the open-drain ball: in OFF, in FLARE and while SFPCTL.TXDIS is 1. Otherwise the hub
drives it low. -/
def Hub.txdisHigh (h : Hub) (l : Fin 2) : Bool :=
  let k : Fin 4 := ⟨l.val, by omega⟩
  h.lk k == lkOFF || h.lk k == lkFLARE || h.bit (F.X_SFPCTL_TXDIS k)

/-! ## Losing a link (R246, R256) -/

/-- Every frame queued to a port is rerouted or flushed, classes ascending, each queue in order; the pauses this releases
go in one frame for each ingress port (R254). -/
def Hub.clearPort (h : Hub) (l : Fin 4) : Hub :=
  let h := (List.range 8).foldl (fun h c =>
    let q := qOf (portOf l) c
    (h.sw.q[q]).foldl (fun h f =>
      let fr := h.frameOf f
      (h.unqueue q f).rerouteOrFlush l f.ing fr) h) h
  (List.finRange 7).foldl (fun h p => h.pauseChecks p (List.range 8)) h

/-- What ends in every departure from UP: pauses, LPI and the count of good beacons. -/
def Hub.lkQuiet (h : Hub) (l : Fin 4) : Hub :=
  ((h.put (F.X_STAT_PAUSED_RX l) 0).putLpi l false false).modLink l fun k => { k with good := 0 }

/-- Enter OFF: the queues are emptied at once, and Flares under way end. -/
def Hub.lkOff (h : Hub) (l : Fin 4) : Hub :=
  let h := (((h.lkQuiet l).put (F.X_STAT_STATE l) lkOFF).off (F.X_STAT_LOCK l)).off (F.X_FLARE_SEND l)
  (h.modLink l fun k => { k with verified := false, vfails := 0, from_ := none, proposed := none, agreed := none }).clearPort l

/-- A link in UP is lost: HOLD with a hold time, else DOWN at once; causes 5 and 6 lead to OFF. The ring wraps, and one
RF beacon leaves at once. -/
def Hub.linkLoss (h : Hub) (l : Fin 4) (cause : Nat) : Hub :=
  if !h.linkIsUp l then h
  else
    let h := (h.put (F.X_STAT_CAUSE l) cause).lkQuiet l
    let h := if cause = 5 ∨ cause = 6 then h.lkOff l
      else if h.bit (F.X_HOLD_TIME l) then
        (h.put (F.X_STAT_STATE l) lkHOLD).modLink l fun k => { k with holdEnd := h.now + h.fld (F.X_HOLD_TIME l) * 4000 }
      else (h.put (F.X_STAT_STATE l) lkDOWN).clearPort l
    let h := ((h.lkFlag l (F.X_FLAG_LOST l)).wrapAgain l cause).wrapEval
    let h := if l = 2 then h.pairDown else h
    if h.beacons l then h.beacon l else h

/-! ## Entering UP (R247, R256) -/

/-- Held frames older than MAXRES are dropped (R256). -/
def Hub.holdDrop (h : Hub) (l : Fin 4) : Hub :=
  let m := h.fld (F.X_HOLD_MAXRES l)
  if m = 0 then h
  else (List.range 8).foldl (fun h c =>
    let q := qOf (portOf l) c
    (h.sw.q[q]).foldl (fun h f =>
      if m * 4000 < h.now - f.at_ then (h.dequeue q f).count (F.X_HOLDRES l) else h) h) h

/-- The link enters UP. -/
def Hub.linkEnterUp (h : Hub) (l : Fin 4) : Hub :=
  let was := h.lk l
  let h := if l.val < 2 ∧ !h.ringPortUp then h.modRing fun r => { r with bc := [], mg := [], quietAt := h.now } else h
  let h := (h.put (F.X_STAT_STATE l) linkUP).lkFlag l (F.X_FLAG_UP l)
  let h := if was = lkHOLD then (h.holdDrop l).count (F.X_FLAPCNT l) else h
  let h : Hub := match (h.link[l]).from_ with
    | none => h
    | some _ =>
      let h := if (h.link[l]).failed then (h.put (F.X_STAT_CAUSE l) 7).lkFlag l (F.X_FLAG_SHIFT_ABORT l)
        else (h.count (F.X_SHIFTCNT l)).lkFlag l (F.X_FLAG_SHIFT_DONE l)
      h.modLink l fun k => { k with from_ := none, failed := false, proposed := none, agreed := none }
  let h := h.wrapEval
  let h := if l.val < 2 ∧ h.fld F.RNG_STAT_JOIN = jnIDLE ∧ h.takesPart then h.join jnWAIT else h
  if l.val < 2 ∧ h.bit (wrapFld l) then
    h.tellMaster 0x18 l 0 fun h => h.masterLinkUp h.node (l == 1)
  else h

/-- UP once lock, verify and three good beacons hold together. -/
def Hub.linkEval (h : Hub) (l : Fin 4) : Hub :=
  let k := h.link[l]
  if h.bit (F.X_CTL_EN l) && h.bit (F.X_STAT_LOCK l) && k.verified && decide (3 ≤ k.good) &&
      [lkTRAIN, lkHOLD, lkDOWN, lkSHIFT].contains (h.lk l) then h.linkEnterUp l
  else h

/-- The port starts to train at a rate. -/
def Hub.linkTrain (h : Hub) (l : Fin 4) : Hub :=
  ((h.put (F.X_STAT_STATE l) lkTRAIN).put (F.X_STAT_RATE_ACT l) (min 2 (h.fld (F.X_RATE_MAX l)))).modLink l fun k =>
    { k with verified := false, vfails := 0, good := 0 }

/-- Is the module in place and initialised? Stack links have no cage. -/
def Hub.modulePresent (h : Hub) (l : Fin 4) : Bool :=
  decide (2 ≤ l.val) || (!h.bit (F.X_SFPCTL_ABS l) && !(h.link[l]).init)

/-- May a link leave OFF: its module is in place, and the ring ports of members 1-3 stay off (R19). -/
def Hub.linkAllowed (h : Hub) (l : Fin 4) : Bool := h.modulePresent l && (decide (2 ≤ l.val) || h.member == 0)

/-- RGE_CTL.EN is set (R245). -/
def Hub.linkEnable (h : Hub) (l : Fin 4) : Hub :=
  let h := h.on (F.X_CTL_EN l)
  if h.lk l = lkOFF ∧ h.linkAllowed l then h.linkTrain l else h

/-- RGE_CTL.EN is cleared (R246, R256). -/
def Hub.linkDisable (h : Hub) (l : Fin 4) : Hub :=
  let h := h.off (F.X_CTL_EN l)
  if h.linkIsUp l then h.linkLoss l 6
  else if h.lk l = lkOFF then h
  else (h.put (F.X_STAT_CAUSE l) 6).lkOff l

/-- A beacon is received. A frame received shows block lock and light, so LOCK reads 1 and LOS 0 (log entry 24). One that
comes in the interval of the last good beacon adds nothing, one in the next interval adds to the row, and one that comes
later begins a new row; in UP the intervals between are missed (R247, Table 8.4, log entry 115). -/
def Hub.onBeacon (h : Hub) (l : Fin 4) (f : Frame) : Hub :=
  if f.hdr.typ != tBEACON || h.lk l == lkOFF || h.lk l == lkFLARE then h
  else
    let h := ((h.ringBoundary l).on (F.X_STAT_LOCK l)).off (F.X_SFPCTL_LOS l)
    let m := (f.word 0).bits 31 24
    let h := if l.val < 2 ∧ h.takesPart ∧ h.master = 0 ∧ m ≠ 0 then h.setMaster m else h
    let gap := h.bcnGap l
    let h := if h.linkIsUp l ∧ 2 ≤ gap then h.count (F.X_BCNMISS l) (gap - 1) else h
    let first := (h.link[l]).good == 0
    let h := if first ∨ gap ≠ 0 then h.modLink l fun k =>
      { k with bAt := h.now, good := if first || gap != 1 then 1 else min 3 (k.good + 1) } else h
    if h.linkIsUp l then (if (f.word 0).bit 7 then h.linkLoss l 3 else h) else h.linkEval l

/-- MISS consecutive beacon intervals have passed since the last good beacon, in LPI intervals of LPI.BCN (R246, R261);
the command does nothing before that time. -/
def Hub.beaconMiss (h : Hub) (l : Fin 4) : Hub :=
  let m := max 1 (h.fld (F.X_BCN_MISS l))
  if h.lk l = lkOFF ∨ h.lk l = lkFLARE ∨ (h.now - (h.link[l]).bAt) * 5 < 2 * m * h.bcnNs l then h
  else
    let h := if h.linkIsUp l then h.count (F.X_BCNMISS l) m else h
    (h.modLink l fun k => { k with good := 0 }).linkLoss l 3

/-- Block lock is lost or hi_ber declared (R246). -/
def Hub.lockLoss (h : Hub) (l : Fin 4) (hiBer : Bool) : Hub :=
  if h.lk l = lkOFF then h
  else
    let h := if hiBer then h else (h.off (F.X_STAT_LOCK l)).count (F.X_LOCKLOSS l)
    (h.modLink l fun k => { k with good := 0, verified := false, vfails := 0 }).linkLoss l (if hiBer then 2 else 1)

/-- An event of the verify exchange (R247): the third failure in a row is flagged and logged. -/
def Hub.verifyEvent (h : Hub) (l : Fin 4) (ev : VerifyEvent) : Hub :=
  match ev with
  | .verifyReceived => h
  | .responseReceived => (h.modLink l fun k => { k with verified := true, vfails := 0 }).linkEval l
  | .timerExpired =>
    let n := (h.link[l]).vfails + 1
    let h := h.modLink l fun k => { k with vfails := if 3 ≤ n then 0 else n, verified := false }
    if 3 ≤ n then (h.lkFlag l (F.X_FLAG_MM_VERIFY_FAIL l)).raise 1 (linkUnit l) causePROTO l else h

/-! ## Commands of the states -/

/-- LINK_ENABLE (R245). -/
def execLinkEnable (a : Access) (l : Fin 4) (s : State) : Host.Outcome State Fault Refusal :=
  s.goes (s.hub.cmdWrite a (linkBase l) fun h => some (h.linkEnable l))

/-- LINK_DISABLE (R256). -/
def execLinkDisable (a : Access) (l : Fin 4) (s : State) : Host.Outcome State Fault Refusal :=
  s.goes (s.hub.cmdWrite a (linkBase l) fun h => some (h.linkDisable l))

/-- East or West as a link. -/
def ringLink (l : Fin 2) : Fin 4 := ⟨l.val, by omega⟩

/-- MODULE_INSERTED: ABS falls (R243). -/
def execModuleInserted (l : Fin 2) (s : State) : Host.Outcome State Fault Refusal :=
  let h := s.hub
  let k := ringLink l
  s.goes (if h.bit (F.X_SFPCTL_ABS k) then
    ((h.off (F.X_SFPCTL_ABS k)).modLink k fun x => { x with init := true, initEnd := h.now + 120000000 }).lkFlag k (F.X_FLAG_MOD_ABS k) else h)

/-- MODULE_INIT_DONE: 300 ms after ABS fell (R243). -/
def execModuleInitDone (l : Fin 2) (s : State) : Host.Outcome State Fault Refusal :=
  let h := s.hub
  let k := ringLink l
  s.goes (if (h.link[k]).init ∧ (h.link[k]).initEnd ≤ h.now then
      let h := h.modLink k fun x => { x with init := false }
      if h.bit (F.X_CTL_EN k) ∧ h.lk k = lkOFF ∧ h.linkAllowed k then h.linkTrain k else h
    else h)

/-- ABS rises (R243). -/
def Hub.moduleRemoved (h : Hub) (l : Fin 4) : Hub :=
  if h.bit (F.X_SFPCTL_ABS l) then h
  else
    let h := ((h.on (F.X_SFPCTL_ABS l)).modLink l fun x => { x with init := false }).lkFlag l (F.X_FLAG_MOD_ABS l)
    if h.linkIsUp l then h.linkLoss l 5
    else if h.lk l = lkOFF then h
    else (h.put (F.X_STAT_CAUSE l) 5).lkOff l

/-- MODULE_REMOVED (R243). -/
def execModuleRemoved (l : Fin 2) (s : State) : Host.Outcome State Fault Refusal :=
  s.goes (s.hub.moduleRemoved (ringLink l))

/-- LOS is high: with LOS_EN the link is lost at once (R243). -/
def Hub.losLost (h : Hub) (l : Fin 4) : Hub :=
  if h.bit (F.X_SFPCTL_LOS l) ∧ h.bit (F.X_SFPCTL_LOS_EN l) then
    (h.modLink l fun x => { x with good := 0, verified := false }).linkLoss l 4
  else h

/-- LOS_ASSERT (R243). -/
def execLosAssert (l : Fin 2) (s : State) : Host.Outcome State Fault Refusal :=
  let k := ringLink l
  s.goes (((s.hub.on (F.X_SFPCTL_LOS k)).lkFlag k (F.X_FLAG_LOS k)).losLost k)

/-- BLOCK_LOCK_LOSS (R246). -/
def execBlockLockLoss (l : Fin 4) (hiBer : Bool) (s : State) : Host.Outcome State Fault Refusal :=
  s.goes (s.hub.lockLoss l hiBer)

/-- BEACON_MISS (R246). -/
def execBeaconMiss (l : Fin 4) (s : State) : Host.Outcome State Fault Refusal := s.goes (s.hub.beaconMiss l)

/-- BEACON_SEND: an interval has passed since the last periodic beacon (R248). -/
def execBeaconSend (l : Fin 4) (s : State) : Host.Outcome State Fault Refusal :=
  let h := s.hub
  s.goes (if h.beacons l ∧ 2 * h.bcnNs l ≤ (h.now - (h.link[l]).bcnAt) * 5 then
    (h.modLink l fun k => { k with bcnAt := h.now }).beacon l else h)

/-- BEACON_RECEIVED (R274). -/
def execBeaconReceived (l : Fin 4) (f : Frame) (s : State) : Host.Outcome State Fault Refusal :=
  s.goes (s.hub.onBeacon l f)

/-- Does a command that waits in the queue, and so falls in this same cycle, bring a link UP? -/
def Hub.returnsNow (h : Hub) (l : Fin 4) (cs : List Instr) : Bool :=
  cs.any fun c => match c with
    | .beaconReceived k f => k == l && (h.onBeacon l f).linkIsUp l
    | .preemptionVerify k ev => k == l && (h.verifyEvent l ev).linkIsUp l
    | _ => false

/-- LINK_HOLD_EXPIRE: HOLD.TIME, in units of 10 µs, has passed (R256); a return in the same cycle counts as a return. -/
def execLinkHoldExpire (l : Fin 4) (s : State) : Host.Outcome State Fault Refusal :=
  let h := s.hub
  s.goes (if h.lk l = lkHOLD ∧ (h.link[l]).holdEnd ≤ h.now ∧ !h.returnsNow l s.pending then
    ((h.put (F.X_STAT_STATE l) lkDOWN).lkFlag l (F.X_FLAG_HOLD_EXP l)).clearPort l else h)

/-- PREEMPTION_VERIFY (R247). -/
def execPreemptionVerify (l : Fin 4) (ev : VerifyEvent) (s : State) : Host.Outcome State Fault Refusal :=
  s.goes (s.hub.verifyEvent l ev)

/-! ## Module memory (R244) -/

/-- A write of RGE_SFPI2C: GO starts a byte transfer, or is ignored while one runs. -/
def Hub.sfpWrite (h : Hub) (l : Fin 4) (v : W32) : Hub :=
  if h.bit (F.X_SFPI2C_GO l) then h
  else
    let h := (((h.putB (F.X_SFPI2C_WR l) (v.bit 30)).putB (F.X_SFPI2C_DEV l) (v.bit 24)).put (F.X_SFPI2C_ADDR l)
      (v.bits 23 16)).put (F.X_SFPI2C_DATA l) (v.bits 7 0)
    if v.bit 31 then
      ((h.on (F.X_SFPI2C_GO l)).off (F.X_SFPI2C_ERR l)).emit
        (.sfp ⟨l.val % 2, by omega⟩ (v.bit 30) (v.bit 24) (v.bits 23 16) (v.bits 7 0))
    else h

/-- SFP_I2C_GO (R244). -/
def execSfpI2cGo (a : Access) (l : Fin 2) (v : W32) (s : State) : Host.Outcome State Fault Refusal :=
  s.goes (s.hub.cmdWrite a (linkBase l + 0x34) fun h => some (h.sfpWrite (ringLink l) (v ||| 0x80000000#32)))

/-- SFP_I2C_DONE (R244). -/
def execSfpI2cDone (l : Fin 2) (data : Byte) (nack : Bool) (s : State) : Host.Outcome State Fault Refusal :=
  let h := s.hub
  let k := ringLink l
  s.goes (if h.bit (F.X_SFPI2C_GO k) then
      let h := (h.off (F.X_SFPI2C_GO k)).putB (F.X_SFPI2C_ERR k) nack
      let h := if !h.bit (F.X_SFPI2C_WR k) ∧ !nack then h.put (F.X_SFPI2C_DATA k) data.toNat else h
      h.lkFlag k (F.X_FLAG_SFPI2C_DONE k)
    else h)

/-! ## Commit and time gates (R250-R252) -/

/-- A write of 1 to RGE_COMMIT.GO: HOLD, REROUTE and STATMODE take effect at once, a gate list at its cycle start. A list
of bad length is left out (R252); LEN is looked at when the commit carries gate-list fields (log entry 25). -/
def Hub.linkGo (h : Hub) (l : Fin 4) : Hub :=
  if h.bit (F.X_COMMIT_GO l) then h
  else
    let b := linkBase l
    let gcl := h.staged.any fun p => keyIn (b + 0x400) (b + 0xBFF) p.1
    let h := (h.snapshot b (b + 0xFFF)).applySnap b (b + 0x3FF)
    if !gcl then h
    else
      let n := (h.snap.get none (F.X_GCL_LEN_LEN l).key).getD (h.fld (F.X_GCL_LEN_LEN l))
      if n = 0 ∨ 128 < n then
        Hub.lkFlag { h with snap := h.snap.clear ((b + 0x400) * 32) ((b + 0xBFF) * 32 + 31) } l (F.X_FLAG_GCL_ERR l)
      else
        let new := fun (f : Fld) => (h.snap.get none f.key).getD (h.fld f)
        let cyc := max 1 (new (F.X_GCL_CYCLE_NS l))
        let base := (new (F.X_GCL_BSH_SEC l) * 2 ^ 32 + new (F.X_GCL_BSL_SEC l)) * 1000000000 + new (F.X_GCL_BNS_NS l)
        let t := h.gno.t.nanos + 1000
        (h.modLink l fun k => { k with gclAt := t + (base % cyc + cyc - t % cyc) % cyc }).on (F.X_COMMIT_GO l)

/-- GCL_SWAP: at the first cycle start at least 1 µs after the commit (R252); it does nothing before. -/
def execGclSwap (l : Fin 4) (s : State) : Host.Outcome State Fault Refusal :=
  let h := s.hub
  let b := linkBase l
  s.goes (if h.bit (F.X_COMMIT_GO l) ∧ (h.link[l]).gclAt ≤ h.gno.t.nanos then
    let h := (h.applySnap (b + 0x400) (b + 0xBFF)).off (F.X_COMMIT_GO l)
    h.put (F.X_GCL_OPER_IDX l) (h.gateIdx l) else h)

/-- GATE_INTERVAL_END: the operating entry is the one the Gnomon stands in (R250). -/
def execGateIntervalEnd (l : Fin 4) (s : State) : Host.Outcome State Fault Refusal :=
  let h := s.hub
  s.goes (if h.bit (F.X_GCL_CTL_EN l) then h.put (F.X_GCL_OPER_IDX l) (h.gateIdx l) else h)

/-! ## Pause (R253-R255) -/

/-- A PFC frame (R255); classes 6 and 7 are ignored. -/
def Hub.onPfc (h : Hub) (l : Fin 4) (f : Frame) : Hub :=
  if !f.isRing 0x01 then h
  else
    let en := (f.word 1).bits 7 0 &&& h.fld (F.X_PFC_RX_EN l)
    let t := fun (c : Nat) => (f.word (2 + c / 2)).bits (16 * (c % 2) + 15) (16 * (c % 2))
    let h := h.count (F.X_PFCRX l)
    (List.range 6).foldl (fun h c =>
      if !en.testBit c then h
      else
        let p := h.fld (F.X_STAT_PAUSED_RX l)
        if t c = 0 then h.put (F.X_STAT_PAUSED_RX l) (p &&& (255 - 2 ^ c))
        else if h.linkIsUp l then
          (h.put (F.X_STAT_PAUSED_RX l) (p ||| 2 ^ c)).modLink l fun k =>
            { k with pauseEnd := k.pauseEnd.set! c (h.now + h.pauseTicks l (t c)) }
        else h) h

/-- PFC (R255). -/
def execPfc (l : Fin 4) (f : Frame) (s : State) : Host.Outcome State Fault Refusal := s.goes (s.hub.onPfc l f)

/-- PFC_REPEAT: half the pause time has passed since the last XOFF of the class (R254). -/
def execPfcRepeat (l : Fin 4) (cls : Fin 8) (s : State) : Host.Outcome State Fault Refusal :=
  s.goes (if (s.hub.fld (F.X_STAT_PAUSED_TX l)).testBit cls ∧
      ((s.hub.link[l]).xoffAt[cls] + s.hub.pauseTicks l (s.hub.fld (F.X_PFC_QUANTA l)) / 2) ≤ s.hub.now then s.hub.sendPause (portOf l) [(cls.val, true)] else s.hub)

/-- PAUSE_EXPIRE: the time of a pause has run out at the rate it came at (R255); it does nothing before. -/
def execPauseExpire (l : Fin 4) (cls : Fin 8) (s : State) : Host.Outcome State Fault Refusal :=
  let h := s.hub
  s.goes (if (h.link[l]).pauseEnd[cls] ≤ h.now then
    h.put (F.X_STAT_PAUSED_RX l) (h.fld (F.X_STAT_PAUSED_RX l) &&& (255 - 2 ^ cls.val)) else h)

/-! ## Rate shift (R257-R260) -/

/-- The lower threshold of the current rate in 0.1 %. -/
def Hub.downThr (h : Hub) (l : Fin 4) : Option Nat :=
  let r := h.fld (F.X_STAT_RATE_ACT l)
  if r = 0 then some (h.fld (F.X_SHIFT_DN25 l) * 10) else if r = 1 then some (h.fld (F.X_SHIFT_DN10 l) * 10) else none

/-- May a downshift follow a window with this utilisation? -/
def Hub.wantsDown (h : Hub) (l : Fin 4) (util : Nat) : Bool :=
  ((h.downThr l).any fun t => decide (util < t)) && decide (h.fld (F.X_STAT_RATE_ACT l) + 1 ≤ min 2 (h.fld (F.X_RATE_MIN l)))

/-- May an upshift? -/
def Hub.wantsUp (h : Hub) (l : Fin 4) (util : Nat) : Bool :=
  decide (h.fld (F.X_SHIFT_UP l) * 10 < util) && decide (h.fld (F.X_RATE_MAX l) < h.fld (F.X_STAT_RATE_ACT l))

/-- A SHIFT handshake frame. -/
def Hub.shiftFrame (h : Hub) (l : Fin 4) (sub t util : Nat) : Hub :=
  h.sendLink l tRINGCTL (wordsPay [BitVec.ofNat 32 (sub * 2 ^ 24), BitVec.ofNat 32 t, BitVec.ofNat 32 (util % 1024)])

/-- Milliseconds of the next utilisation window: WIN, 0 acts as 1 (R257). -/
def Hub.winMs (h : Hub) (l : Fin 4) : Nat := max 1 (h.fld (F.X_SHIFT_WIN l))

/-- Ticks of the present window: WIN as it was when the window began (R257; Table 8.3: safe boundary the next window). -/
def Hub.winTicks (h : Hub) (l : Fin 4) : Nat :=
  (if (h.link[l]).winLen = 0 then h.winMs l else (h.link[l]).winLen) * 400000

/-- Transmit utilisation of the window so far, in 0.1 % of what the current rate carries in it (R257). -/
def Hub.utilNow (h : Hub) (l : Fin 4) : Nat := (h.link[l]).sent * h.psPerByte l * 1000 / (h.winTicks l * 2500)

/-- Does a planned wrap of a link wait or stand? -/
def Hub.planned (h : Hub) (l : Fin 4) : Bool := h.bit (wrapFld l) || !h.ring.plans.isEmpty

/-- A window closes (R257): the lower ID proposes a downshift, the end above UP an upshift. An agreement that no planned
wrap has followed by now has been refused by the master (log entry 116). -/
def Hub.shiftWindow (h : Hub) (l : Fin 4) : Hub :=
  let util := h.utilNow l
  let h := h.modLink l fun k => { k with util := util, sent := 0, winAt := h.now, winLen := h.winMs l,
                                         agreed := if h.planned l then k.agreed else none }
  let r := h.fld (F.X_STAT_RATE_ACT l)
  if !h.bit (F.X_CTL_SHIFT_EN l) || !h.linkIsUp l || (h.link[l]).agreed.isSome then h
  else if h.wantsUp l util then (h.modLink l fun k => { k with proposed := some (r - 1) }).shiftFrame l 2 (r - 1) util
  else if h.wantsDown l util && decide ((h.link[l]).holdoff ≤ h.now) &&
      ((h.neighbour h.node (l == 1)).any fun o => decide (h.node < o)) then
    (h.modLink l fun k => { k with proposed := some (r + 1) }).shiftFrame l 2 (r + 1) util
  else h

/-- SHIFT_WINDOW_END (R257) of the present window; it does nothing before the window has lasted WIN ms. -/
def execShiftWindowEnd (l : Fin 2) (start : Nat) (s : State) : Host.Outcome State Fault Refusal :=
  s.goes (if (s.hub.link[ringLink l]).winAt = start ∧ start + s.hub.winTicks (ringLink l) ≤ s.hub.now then s.hub.shiftWindow (ringLink l)
    else s.hub)

/-- Has this end an upshift of its own proposed, which stands because its ID is the lower (R257)? -/
def Hub.ownUpshift (h : Hub) (l : Fin 4) : Bool :=
  ((h.link[l]).proposed.any fun t => decide (t < h.fld (F.X_STAT_RATE_ACT l))) &&
    ((h.neighbour h.node (l == 1)).any fun o => decide (h.node < o))

/-- A proposal is answered (R257). Where both ends are above UP the lower ID's proposal stands. -/
def Hub.onShiftPropose (h : Hub) (l : Fin 4) (f : Frame) : Hub :=
  if !f.isRing 0x02 then h
  else
    let t := (f.word 1).bits 1 0
    let u := (h.link[l]).util
    let up := decide (t < h.fld (F.X_STAT_RATE_ACT l))
    if up ∧ h.ownUpshift l then h
    else
    let h := if up then h.modLink l fun k => { k with proposed := none } else h
    if h.bit (F.X_CTL_SHIFT_EN l) ∧ (up ∨ h.wantsDown l u) then
      (h.modLink l fun k => { k with agreed := some t }).shiftFrame l 3 t u
    else h.shiftFrame l 4 t u

/-- SHIFT_PROPOSE (R257). -/
def execShiftPropose (l : Fin 2) (f : Frame) (s : State) : Host.Outcome State Fault Refusal :=
  s.goes (s.hub.onShiftPropose (ringLink l) f)

/-- The master's answer reaches the proposer (R258, R259). -/
def Hub.shiftAnswered (h : Hub) (l : Fin 4) (ok : Bool) : Hub :=
  match (h.link[l]).proposed with
  | none => h
  | some t =>
    if ok then h.modLink l fun k => { k with agreed := some t }
    else
      let h := h.modLink l fun k => { k with proposed := none, agreed := none }
      if t ≤ h.fld (F.X_STAT_RATE_ACT l) then h
      else ((h.modLink l fun k => { k with holdoff := h.now + h.fld (F.X_SHIFTT_HOLDOFF l) * 400000 }).count
        (F.X_SHIFTREF l)).lkFlag l (F.X_FLAG_SHIFT_REF l)

/-- AGREE: the proposer asks the master, which may be this hub (R257, R297). -/
def Hub.onShiftAgree (h : Hub) (l : Fin 4) (f : Frame) : Hub :=
  if !f.isRing 0x03 then h
  else match (h.link[l]).proposed, h.neighbour h.node (l == 1) with
    | some t, some far =>
      let w1 := BitVec.ofNat 32 (far * 2 ^ 24 + t)
      let w2 := BitVec.ofNat 32 ((h.link[l]).util % 1024)
      if h.isMaster then
        match h.shiftDecide h.node w1 w2 with
        | (h, some at_) => (h.shiftAnswered l true).shiftPlan at_
        | (h, none) => h.shiftAnswered l false
      else h.ringCtl h.master 0x1B 0 [w1, w2]
    | _, _ => h

/-- SHIFT_AGREE (R257). -/
def execShiftAgree (l : Fin 2) (f : Frame) (s : State) : Host.Outcome State Fault Refusal :=
  s.goes (s.hub.onShiftAgree (ringLink l) f)

/-- REJECT: nothing is proposed. -/
def Hub.onShiftReject (h : Hub) (l : Fin 4) (f : Frame) : Hub :=
  if f.isRing 0x04 then h.modLink l fun k => { k with proposed := none } else h

/-- SHIFT_REJECT (R257). -/
def execShiftReject (l : Fin 2) (f : Frame) (s : State) : Host.Outcome State Fault Refusal :=
  s.goes (s.hub.onShiftReject (ringLink l) f)

/-- A SHIFT_ANS frame reaches the link that has proposed. -/
def Hub.onShiftAns (h : Hub) (f : Frame) : Hub :=
  if !f.isRing 0x1C then h
  else [0, 1].foldl (fun h (l : Fin 4) => h.shiftAnswered l ((f.word 1).bit 0)) h

/-- SHIFT_ANS (R259). -/
def execShiftAns (f : Frame) (s : State) : Host.Outcome State Fault Refusal := s.goes (s.hub.onShiftAns f)

/-- Are a port's queues empty? -/
def Hub.portEmpty (h : Hub) (p : Fin 7) : Bool := (List.range 8).all fun c => (h.sw.q[qOf p c]).isEmpty

/-- The drain ends: SHIFT with empty queues, else after DRAIN µs the shift is abandoned and the master told the link is UP (R258). -/
def Hub.shiftDrainEnd (h : Hub) (l : Fin 4) : Hub :=
  match (h.link[l]).agreed with
  | none => h
  | some t =>
    if !h.linkIsUp l || !h.bit (wrapFld l) then h
    else if h.portEmpty (portOf l) then
      let r := h.fld (F.X_STAT_RATE_ACT l)
      let h := ((h.lkQuiet l).put (F.X_STAT_STATE l) lkSHIFT).put (F.X_STAT_RATE_ACT l) t
      (h.off (F.X_STAT_LOCK l)).modLink l fun k =>
        { k with from_ := some r, failed := false, verified := false, vfails := 0, trainEnd := h.now + 800000 }
    else if h.now < (h.link[l]).drainEnd then h
    else
      let h := (h.modLink l fun k => { k with proposed := none, agreed := none }).lkFlag l (F.X_FLAG_SHIFT_ABORT l)
      h.tellMaster 0x18 l 0 fun h => h.masterLinkUp h.node (l == 1)

/-- SHIFT_DRAIN_END (R258). -/
def execShiftDrainEnd (l : Fin 2) (s : State) : Host.Outcome State Fault Refusal :=
  s.goes (s.hub.shiftDrainEnd (ringLink l))

/-- SHIFT_RETRAIN_TIMEOUT: after 2 ms back to the old rate (R260). -/
def execShiftRetrainTimeout (l : Fin 2) (s : State) : Host.Outcome State Fault Refusal :=
  let h := s.hub
  let k := ringLink l
  s.goes (match h.lk k == lkSHIFT && decide ((h.link[k]).trainEnd ≤ h.now), (h.link[k]).from_ with
    | true, some r => (h.put (F.X_STAT_RATE_ACT k) r).modLink k fun x => { x with failed := true, good := 0, verified := false }
    | _, _ => h)

/-! ## LPI and Flare (R261-R263) -/

/-- Have a link's queues been empty for LPI.IDLE µs? -/
def Hub.lpiIdle (h : Hub) (l : Fin 4) : Bool :=
  h.portEmpty (portOf l) && decide ((h.link[l]).idleAt + h.fld (F.X_LPI_IDLE l) * 400 ≤ h.now)

/-- LPI begins in a direction: the transmitter's after LPI.IDLE µs with empty queues, or the neighbour's as its codes arrive
(R261); never on the pair link (R346). -/
def Hub.lpiEnter (h : Hub) (l : Fin 4) (rx : Bool) : Hub :=
  let r := h.fld (F.X_STAT_RATE_ACT l)
  let k := h.link[l]
  if !h.linkIsUp l || (h.member == 0 && l == 2) || !(r == 1 || (r == 0 && !h.bit (F.X_CTL_FEC l))) then h
  else if rx then h.putLpi l k.lpiTx true
  else if h.bit (F.X_CTL_LPI_EN l) && h.lpiIdle l && !k.lpiTx then (h.putLpi l true k.lpiRx).count (F.X_LPIENT l)
  else h

/-- LPI_ENTER (R261). -/
def execLpiEnter (d : LpiAt) (s : State) : Host.Outcome State Fault Refusal := s.goes (s.hub.lpiEnter d.link d.rx)

/-- RGE_FLARE.SEND: COUNT Flares of 2 ms, below 3 acts as 3 (R263). -/
def Hub.flareSend (h : Hub) (l : Fin 4) : Hub :=
  if h.lk l = lkTRAIN ∨ h.lk l = lkDOWN then
    let n := max 3 (h.fld (F.X_FLARE_COUNT l))
    (((h.put (F.X_STAT_STATE l) lkFLARE).on (F.X_FLARE_SEND l)).modLink l fun k => { k with flareEnd := h.now + n * 800000 }).emit
      (.flare l n)
  else h.lkFlag l (F.X_FLAG_FLARE_REFUSED l)

/-- FLARE_SEND (R263). -/
def execFlareSend (a : Access) (l : Fin 4) (s : State) : Host.Outcome State Fault Refusal :=
  s.goes (s.hub.cmdWrite a (linkBase l + 0x38) fun h => some (h.flareSend l))

/-- FLARE_DONE: the Flares have been sent (R263); it does nothing before. -/
def execFlareDone (l : Fin 4) (s : State) : Host.Outcome State Fault Refusal :=
  let h := s.hub
  s.goes (if h.lk l = lkFLARE ∧ (h.link[l]).flareEnd ≤ h.now then
    ((h.off (F.X_FLARE_SEND l)).linkTrain l).lkFlag l (F.X_FLAG_FLARE_DONE l) else h)

/-! ## Statistics periods (R264, R265) -/

/-- Is a field a counter of the statistics that a STATMODE governs: access RC, 32 bits? -/
def isCounter (mode : Fld) (key : Nat) : Bool :=
  (statField (key / 32)).1 == some mode && match regAt (key / 32) with
  | some r => (r.fields.find? fun f => f.lo == key % 32).any fun f => f.acc == .rc && f.w == 32
  | none => false

/-- Clear the counters and snapshots that a STATMODE governs. -/
def Hub.zeroCounters (h : Hub) (mode : Fld) : Hub :=
  { h with fields := h.fields.filter (fun p => !isCounter mode p.1)
           hw := h.hw.filter (fun p => !isCounter mode p.1)
           bank := h.bank.filter fun p => !isCounter mode p.1 }

/-- A boundary: every counter is latched into the snapshot and restarts from 0. It falls where the whole milliseconds of
the Gnomon reach a multiple of PER; several passed over by a step give one latch (R265). -/
def Hub.statBoundary (h : Hub) (b : StatBlock) : Hub :=
  let m := statMode b
  let n := h.statNum b
  if h.fld m ≠ 2 ∨ n ≤ h.statAt[statIdx b] then h
  else
    let ms := n * h.statPer b
    let h := h.statMark b n
    let cs := h.fields.filter fun p => isCounter m p.1
    let h := h.zeroCounters m
    let h := { h with bank := cs.foldl (fun t p => t.set 0 p.1 p.2) h.bank }
    match b with
    | .link l =>
      let h := (h.put (F.X_SNAPSEQ_SEQ l) (h.fld (F.X_SNAPSEQ_SEQ l) + 1)).put (F.X_SNAPSEC_SEC l) (ms / 1000)
      (h.put (F.X_SNAPMS_MS l) (ms % 1000)).lkFlag l (F.X_FLAG_SNAP l)
    | _ => h

/-- STATS_PERIOD_BOUNDARY (R265). -/
def execStatsPeriodBoundary (b : StatBlock) (s : State) : Host.Outcome State Fault Refusal :=
  s.goes (s.hub.statBoundary b)

/-- Run a commit of a statistics block: a change of MODE clears its counters and snapshots (R265). -/
def Hub.withStatMode (h : Hub) (b : StatBlock) (g : Hub → Hub) : Hub :=
  let m := statMode b
  let h' := g h
  if h'.fld m = h.fld m then h' else (h'.zeroCounters m).statMark b (h'.statNum b)

end Sys2Proof.Machine
end

