-- ==== Sys2Proof/Machine/Drone.lean ====
section
/-! DEFINITION. The drone cycle and the process image: cycle start and freeze, inserts and extracts, regeneration, APPLY,
and the stack relay of outputs (09 R299-R307; 10 R323-R328; 11 R343, R354, R358). -/

namespace Sys2Proof.Machine

/-- Change the drone's hidden state. -/
def Hub.modDrn (h : Hub) (g : Drn → Drn) : Hub := { h with drn := g h.drn }

/-! ## Cycles (R299) -/

/-- BASE in ns since 0 s. -/
def Hub.drnBase (h : Hub) : Nat :=
  (h.fld F.DRN_BSH_SEC * 2 ^ 32 + h.fld F.DRN_BSL_SEC) * 1000000000 + h.fld F.DRN_BNS_NS

/-- PER in ns. -/
def Hub.drnPer (h : Hub) : Nat := max 1 (h.fld F.DRN_PER_PER) * 250

/-- The cycle that runs now by the Gnomon. -/
def Hub.cycleNow (h : Hub) : Option Nat :=
  if h.gno.t.nanos < h.drnBase then none else some ((h.gno.t.nanos - h.drnBase) / h.drnPer)

/-- The start of a cycle as an execute time. -/
def Hub.cycleAt (h : Hub) (k : Nat) : BitVec 64 := GTime.encode (GTime.ofUnits ((h.drnBase + k * h.drnPer) * 2 ^ 24))

/-- Time since the start of a cycle in units of 10 ns. -/
def Hub.since (h : Hub) (c : Cycle) : Nat :=
  (((h.gno.t.units : Nat) : Int) - pickTime h.gno.t c.at_).toNat / 2 ^ 24 / 10

/-- Change the cycle with a number. -/
def Hub.modCyc (h : Hub) (no : Nat) (g : Cycle → Cycle) : Hub :=
  h.modDrn fun d => { d with cyc := d.cyc.map fun c => if c.no = no then g c else c }

/-- Does the drone run: enabled, or enabled when the present cycle started (Table 9.9: safe boundary the next cycle start)? -/
def Hub.drnOn (h : Hub) : Bool := h.bit F.DRN_CTL_EN || h.drn.part

/-- DRN_STAT.ROLE. -/
def Hub.drnRole (h : Hub) : Nat := if !h.drnOn then 0 else if h.isMaster then 2 else 1

/-- Raise an event that every core asks for by its own EVEN bit, with the core's own unit (Tables 10.2, 10.3). -/
def Hub.evOwn (h : Hub) (typ : Nat) (en : Nat → Fld) (w1 : W32) : Hub :=
  (List.finRange 8).foldl (fun h (n : Fin 8) =>
    if h.bit (en n) then h.evPush n (mkEvent typ (h.unit (rfxUnit n)) w1 h.gno.t) else h) h

/-! ## The freeze (R324) -/

/-- Copy a tile with its check to another one; every byte of the target is written (log entry 31). -/
def Hub.copyTile (h : Hub) (src dst : Nat) : Hub :=
  let d := h.tl.bytes src
  let h := h.restoreTile dst (d, h.tl.check src) false
  Hub.snoop { h with tl := h.tl.release dst } (dst * 256) d

/-- The base tile of the bank of a cycle. -/
def Hub.bankOf (h : Hub) (k : Nat) : Nat := h.fld (F.TILE_PART_BASE 0) + h.fld (F.RFXC_BANK_BASE (k % 2))

/-- Ticks the copy of the live area takes: 32 bytes in each CK_CORE cycle, half as fast in a droop event (R324). -/
def Hub.copyTicks (h : Hub) : Nat := (h.fld F.RFXC_LIVE_SIZE * 8 * (if h.bit F.CLK_DIMSTAT_SLOW then 2 else 1) * 2 + 4) / 5

/-- The live area is copied into the bank of a cycle; writes to it wait from now on. -/
def Hub.freeze (h : Hub) (k : Nat) : Hub :=
  let src := h.liveBase / 256
  let h := (List.range (h.fld F.RFXC_LIVE_SIZE)).foldl (fun h i => h.copyTile (src + i) (h.bankOf k + i)) h
  { h with pim := { h.pim with freezing := true, endAt := h.now + h.copyTicks, no := k } }

/-- The holder's MARK after its freeze, with S for a wanted sync point (R354, R356). -/
def Hub.markSend (h : Hub) (k : Nat) : Hub :=
  if h.member ≠ 0 ∨ !h.holderUnit then h
  else
    let s := h.lamp.wantSync
    let h := h.lampSend 0x05 [BitVec.ofNat 32 (b2n s * 2 ^ 31 + k % 65536)]
    if s then h.modLamp fun l =>
      { l with wantSync := false, issued := Vector.replicate 8 0, sigs := Vector.replicate 8 0,
               crc := Vector.replicate 8 0xFFFFFFFF#32, mine := [], theirs := [] }
    else h

/-- The copy ends: waiting writes go on, and CYCLE is raised. -/
def Hub.freezeDone (h : Hub) : Hub :=
  if !h.pim.freezing ∨ h.now < h.pim.endAt then h
  else
    let ws := h.pim.wait
    let h := { h with pim := { h.pim with freezing := false, wait := [] } }
    let h := ws.foldl (fun h w => Hub.tileWriteNow w.2.2 (w.2.1.length / 256 + 2) h w.1 w.2.1) h
    (h.evOwn 5 F.RFX_EVEN_CYCLE (BitVec.ofNat 32 (h.pim.no % 65536))).markSend h.pim.no

/-! ## The tables and their commit (R301, R306) -/

/-- A slot-table entry (Table 9.6). -/
structure SlotEnt where
  ins : Bool
  frm : Nat
  len : Nat
  foff : Nat
  who : Nat
  ioff : Nat
  deriving DecidableEq, Repr

/-- Entry i of the slot table through a view of the fields: in force, or as staged. -/
def slotEnt (v : Fld → Nat) (i : Nat) : Option SlotEnt :=
  if v (F.DRN_SLT_W0_V i) = 0 then none
  else some { ins := v (F.DRN_SLT_W0_DIR i) == 1, frm := v (F.DRN_SLT_W0_FRAME i), len := v (F.DRN_SLT_W0_LEN i) + 1,
              foff := v (F.DRN_SLT_W0_FOFF i), who := v (F.DRN_SLT_W1_INS i), ioff := v (F.DRN_SLT_W1_IOFF i) }

/-- The entries in force, with their numbers. -/
def Hub.slots (h : Hub) : List (Nat × SlotEnt) :=
  (List.range 512).filterMap fun i => (slotEnt h.fld i).map fun e => (i, e)

/-- Does an entry keep the limits of R306, given the INSERT entries before it? -/
def Hub.slotOk (h : Hub) (v : Fld → Nat) (e : SlotEnt) (before : List SlotEnt) : Bool :=
  decide (e.foff + e.len + 16 ≤ v (F.DRN_FRM_LEN e.frm)) &&
    decide (e.ioff + e.len ≤ h.fld (F.TILE_PART_SIZE 0) * 256) &&
    (!e.ins || (v (F.DRN_FRM_INSV e.frm) == 1 &&
      !(before.any fun b => b.ins && b.frm == e.frm && decide (b.foff < e.foff + e.len) && decide (e.foff < b.foff + b.len))))

/-- Keys of the slot-table entry i. -/
def slotKeys (i : Nat) : Nat × Nat := ((0x86000 + 8 * i) * 32, (0x86004 + 8 * i) * 32 + 31)

/-- A write of 1 to DRN_COMMIT.GO: bad entries are rejected, the rest waits for the next cycle start, or takes effect at
once while the drone does not run (R8, R9, R306). A rejected entry keeps its old words where those were staged over, and goes out of
use where the frame table that is committed has made it bad (log entry 127). -/
def Hub.drnGo (h : Hub) : Hub :=
  if h.bit F.DRN_COMMIT_GO then h
  else
    let v := h.stagedOr
    let r := (List.range 512).foldl (fun (a : Hub × List SlotEnt) i =>
      let k := slotKeys i
      match slotEnt v i with
      | none => a
      | some e =>
        if h.slotOk v e a.2 then (a.1, e :: a.2)
        else
          let was := h.staged.any fun p => decide (k.1 ≤ p.1) && decide (p.1 ≤ k.2)
          let g : Hub := { a.1 with staged := a.1.staged.clear k.1 k.2 }
          (((if was then g else g.stage (F.DRN_SLT_W0_V i) 0).count F.DRN_CFGREJ).flag .drn F.DRN_FLAG_CFG_ERR, a.2)) (h, [])
    let h := (r.1.snapshot 0x85000 0x86FFF).snapshot 0xE8400 0xE87FF
    if h.drnOn then h.on F.DRN_COMMIT_GO
    else (h.withStatMode .drn fun h => h.applySnap 0x85000 0x86FFF).applySnap 0xE8400 0xE87FF

/-- The committed fields take effect at a cycle start. -/
def Hub.drnApplyCommit (h : Hub) : Hub :=
  if h.bit F.DRN_COMMIT_GO then
    ((h.withStatMode .drn fun h => h.applySnap 0x85000 0x86FFF).applySnap 0xE8400 0xE87FF).off F.DRN_COMMIT_GO
  else h

/-! ## Enable (R307, R325) -/

/-- Do two areas of live size overlap? -/
def areasMeet (a b n : Nat) : Bool := decide (a < b + n) && decide (b < a + n)

/-- Is the schedule, and are the image areas, fit for the drone to run? -/
def Hub.drnFit (h : Hub) : Bool :=
  let per := h.fld F.DRN_PER_PER
  let n := h.fld F.RFXC_LIVE_SIZE
  let l := h.fld F.RFXC_LIVE_BASE
  let b0 := h.fld (F.RFXC_BANK_BASE 0)
  let b1 := h.fld (F.RFXC_BANK_BASE 1)
  let img := h.fld (F.TILE_PART_SIZE 0)
  decide (125 ≤ per ∧ per ≤ 400000) && decide (h.fld F.DRN_CLOSE_CLOSE < 50 * per) &&
    decide (h.fld F.DRN_APPLY_APPLY < 50 * per) &&
    !(areasMeet l b0 n || areasMeet l b1 n || areasMeet b0 b1 n) &&
    decide (l + n ≤ img ∧ b0 + n ≤ img ∧ b1 + n ≤ img) &&
    !(n == 0 && h.slots.any fun e => e.2.ins && (e.2.ioff / 256 == b0 || e.2.ioff / 256 == b1))

/-- DRN_CTL.EN is set, or refused with CFG_ERR. -/
def Hub.droneEnable (h : Hub) : Hub :=
  if h.bit F.DRN_CTL_EN then h
  else if h.drnFit then h.on F.DRN_CTL_EN else h.flag .drn F.DRN_FLAG_CFG_ERR

/-- DRN_CTL.EN is cleared: at once where no cycle has started, else at the next cycle start (Table 9.9). -/
def Hub.droneDisable (h : Hub) : Hub :=
  let h := h.off F.DRN_CTL_EN
  if h.drnOn then h else h.drnApplyCommit

/-- DRONE_ENABLE (R307). -/
def execDroneEnable (a : Access) (s : State) : Host.Outcome State Fault Refusal :=
  s.goes (s.hub.cmdWrite a 0x85000 fun h => some h.droneEnable)

/-! ## Outputs (R328, R343) -/

/-- The output bytes a mapped lane takes. -/
def Hub.outLen (h : Hub) (n : Fin 64) : Nat :=
  if h.fn n = fnPINS then 1 else if h.fn n = fnSDCI then min 32 ((h.cfg n 0).bits 21 16) else 0

/-- A mapped lane takes its output bytes, unless they lie in an entry taken poisoned (R328, Table 10.4). Outputs to a lane
that is not UP are discarded (R72, R502). -/
def Hub.laneOut (h : Hub) (bad : List (Nat × Nat)) (n : Fin 64) : Hub :=
  let o := h.fld (F.RFXC_LMAP_O_OFF n)
  let len := h.outLen n
  if !h.up n || !h.bit (F.RFXC_LMAP_O_EN n) || len == 0 || (bad.any fun e => decide (e.1 < o + len) && decide (o < e.1 + e.2)) then h
  else
    let bs := bytesAt h.tl.mem (h.imgBase + o) len
    if h.fn n = fnPINS then
      (List.finRange 3).foldl (fun h (p : Fin 3) =>
        if h.fld (F.LN_PIN_MODE n p) = pmOUT then h.droneOut n p ((bs.getD 0 0).getLsbD p) else h) h
    else h.modLane n fun l => { l with pdNext := bs }

/-- All lanes take their outputs. -/
def Hub.lanesOut (h : Hub) (bad : List (Nat × Nat)) : Hub := (List.finRange 64).foldl (fun h n => h.laneOut bad n) h

/-- Raise APPLY of a cycle. -/
def Hub.applyEvent (h : Hub) (k : Nat) (odd : Bool) : Hub :=
  h.evOwn 6 F.RFX_EVEN_APPLY (BitVec.ofNat 32 (b2n odd * 65536 + k % 65536))

/-- Member 0 sends the copies of its image to the other members (R343). Each tile is verified as an insertion verifies it,
and one that fails is not sent, so that its copy stays incomplete (R178; DESIGN CHOICE, log entry 125). -/
def Hub.relayDown (h : Hub) : Hub :=
  if h.member ≠ 0 then h
  else (List.range 3).foldl (fun h m =>
    if !h.bit (F.LMP_RDN_EN m) then h
    else (List.range (h.fld (F.LMP_RDN_SIZE m))).foldl (fun h i =>
      let v := h.verify (h.fld (F.TILE_PART_BASE 0) + h.fld (F.LMP_RDN_SRC m) + i) 6
      if !v.2 then v.1
      else v.1.postWrite (BitVec.ofNat 8 h.node) (m + 1) 1 (h.imgBase + (h.fld F.LMP_RELAYDST_BASE + i) * 256)
        (bytesAt h.tl.mem (h.imgBase + (h.fld (F.LMP_RDN_SRC m) + i) * 256) 256)) h) h

/-! ## CYCLE_START -/

/-- Cycle k starts, or a drone whose EN is cleared ends (R299): a member 1-3 whose copy of the last cycle did not come raises its APPLY (R343); a Shadow's
member 0 waits for MARK before it freezes (R354). -/
def Hub.cycleStart (h : Hub) : Hub :=
  if !h.bit F.DRN_CTL_EN then h.drnApplyCommit.modDrn fun d => { d with cyc := [], part := false }
  else match h.cycleNow with
    | none => h
    | some k =>
      if h.drn.cyc.any fun c => c.no == k then h
      else
        let h := if h.member ≠ 0 then h.drn.cyc.foldl (fun h c => if c.applied then h else h.applyEvent c.no true) h else h
        let h := h.drnApplyCommit.count F.DRN_CYCCNT
        let h := h.modDrn fun d => { d with part := true, cyc := { no := k, at_ := h.cycleAt k } :: (d.cyc.take 1).map fun c =>
          if h.member = 0 then c else { c with applied := true } }
        if h.member = 0 ∧ h.shadowUnit then
          (if h.lamp.marked = some (k % 65536) then h else h.modLamp fun l => { l with markOwed := some k })
        else h.freeze k

/-- CYCLE_START (R299). -/
def execCycleStart (s : State) : Host.Outcome State Fault Refusal := s.goes s.hub.cycleStart

/-- FREEZE_DONE (R324). -/
def execFreezeDone (s : State) : Host.Outcome State Fault Refusal := s.goes s.hub.freezeDone

/-! ## Inserting (R302, R358) -/

/-- May this unit insert into copies of a cycle (R358)? -/
def Hub.mayInsert (h : Hub) (c : Cycle) : Bool :=
  if !h.paired then true
  else
    let before := h.lamp.claim.any fun t => decide (pickTime h.gno.t c.at_ < pickTime h.gno.t t)
    let st := h.lampSt
    st == lpHOLDER || (st == lpHANDING && before) || (st == lpCLAIMING && h.lamp.granted && !before)

/-- Put bytes over a payload; its length stays. -/
def overlay (pay : List Byte) (off : Nat) (bs : List Byte) : List Byte :=
  (List.range pay.length).map fun i =>
    if off ≤ i ∧ i < off + bs.length then bs.getD (i - off) 0 else pay.getD i 0

/-- Bit i of the 64-bit map at a byte offset of a payload (Table 9.5, log entry 30). -/
def mapBit (pay : List Byte) (base i : Nat) : Bool := (pay.getD (base + i / 8) 0).getLsbD (i % 8)

/-- Set bit i of a map. -/
def setMapBit (pay : List Byte) (base i : Nat) : List Byte :=
  overlay pay (base + i / 8) [pay.getD (base + i / 8) 0 ||| (1#8 <<< (i % 8))]

/-- Input bytes of a mapped lane, as offset and length in the image. -/
def Hub.inRange (h : Hub) (n : Fin 64) : Nat × Nat :=
  let f := h.fn n
  (h.fld (F.RFXC_LMAP_I_OFF n), if f = fnPINS then 1 else if f = fnQUAD ∨ f = fnSSI then 4
    else if f = fnSDCI then min 32 ((h.cfg n 0).bits 13 8) else 0)

/-- Does an entry cover the bytes of a lane whose input failed parity (R327)? -/
def Hub.coversBad (h : Hub) (e : SlotEnt) : Bool :=
  (List.finRange 64).any fun (n : Fin 64) =>
    h.pim.lpois.getLsbD n && h.bit (F.RFXC_LMAP_I_EN n) &&
      (let r := h.inRange n; decide (e.ioff < r.1 + r.2) && decide (r.1 < e.ioff + e.len))

/-- Where an INSERT entry reads: the bank of its cycle for the live area, the image itself otherwise (R323). -/
def Hub.insertAddr (h : Hub) (c : Cycle) (e : SlotEnt) : Nat :=
  let live := h.fld F.RFXC_LIVE_BASE * 256
  if live ≤ e.ioff ∧ e.ioff < live + h.liveSize then h.bankOf c.no * 256 + (e.ioff - live) else h.imgBase + e.ioff

/-- Insert one entry: its bytes, or zeros when a tile of it fails (Table 6.1, code 6); the answer says whether it failed. -/
def Hub.insertOne (h : Hub) (c : Cycle) (pay : List Byte) (e : SlotEnt) : Hub × List Byte × Bool :=
  let a := h.insertAddr c e
  let r := h.verifyAll (tilesOf a e.len) 6
  let ok := r.2 && !h.coversBad e
  (r.1, overlay pay (16 + e.foff) (if ok then bytesAt r.1.tl.mem a e.len else List.replicate e.len 0), !ok)

/-- This node's inserts into a copy of frame f of a cycle: PRES, slots and POIS (R302). -/
def Hub.insertInto (h : Hub) (c : Cycle) (f : Nat) (pay : List Byte) : Hub × List Byte :=
  if !h.bit (F.DRN_FRM_V f) || !h.bit (F.DRN_FRM_INSV f) || !h.mayInsert c then (h, pay)
  else
    let who := h.fld (F.DRN_FRM_INS f)
    let es := h.slots.filter fun e => e.2.ins && e.2.frm == f
    let r := es.foldl (fun (a : Hub × List Byte × Bool) e =>
      let x := a.1.insertOne c a.2.1 e.2
      (x.1, x.2.1, a.2.2 || x.2.2)) (h, setMapBit pay 0 who, false)
    (r.1, if r.2.2 then setMapBit r.2.1 8 who else r.2.1)

/-- Nanoseconds after the cycle start at which the data of frame f are prepared; doubled while a droop halves CK_CORE
(R302). -/
def Hub.prepNs (h : Hub) (f : Nat) : Nat :=
  let n := ((h.slots.filter fun e => e.2.ins && decide (e.2.frm ≤ f)).map fun e => e.2.len).foldl (· + ·) 0
  1000 + (n + 31) / 32 * (if h.bit F.CLK_DIMSTAT_SLOW then 2 else 1)

/-! ## Extracting (R303) -/

/-- Take the entries of a good copy that no earlier copy has filled. -/
def Hub.extract (h : Hub) (c : Cycle) (f : Nat) (pay : List Byte) : Hub :=
  let new := h.slots.filterMap fun e =>
    if !e.2.ins && e.2.frm == f && mapBit pay 0 e.2.who && !(c.got.any fun g => g.1 == e.1) &&
        decide (16 + e.2.foff + e.2.len ≤ pay.length)
    then some (e.1, (pay.drop (16 + e.2.foff)).take e.2.len, mapBit pay 8 e.2.who) else none
  h.modCyc c.no fun c => { c with got := c.got ++ new }

/-! ## Sending and passing copies -/

/-- The bit of a direction and frame in a cycle's maps. -/
def dirBit (d f : Nat) : BitVec 128 := BitVec.twoPow 128 (64 * (d % 2) + f % 64)

/-- EXP of a direction and frame (Table 9.9). -/
def expFld (d f : Nat) : Fld := if d = 0 then F.DRN_EXP_A_EXP f else F.DRN_EXP_B_EXP f

/-- The port a copy leaves by: A East, B West. -/
def downPort (d : Nat) : Fin 4 := if d % 2 = 0 then 0 else 1
/-- The port a copy comes by: A West, B East. -/
def upPort (d : Nat) : Fin 4 := if d % 2 = 0 then 1 else 0

/-- Header of a copy this node sends (Table 9.2). -/
def Hub.droneHdr (h : Hub) (c : Cycle) (d f len : Nat) (hops : BitVec 9) (regen : Bool) : Header :=
  { h.mkHdr tDRONE 6 (BitVec.ofNat 8 h.master) 0 len (tag := BitVec.ofNat 8 (b2n regen * 64 + f)) (adr := c.at_)
      (seq := c.no) with
    snode := BitVec.ofNat 8 h.master, d := d % 2 == 1, hops := hops }

/-- At LEAD the master sends every frame of its table, copy A East and copy B West, back to back in frame order (R299). -/
def Hub.droneSend (h : Hub) : Hub :=
  match h.drn.cyc with
  | [] => h
  | c :: _ =>
    if !h.drnOn || !h.isMaster || c.sent || decide (h.since c < h.fld F.DRN_TIMES_LEAD) then h
    else
      let h := h.modCyc c.no fun c => { c with sent := true }
      (List.range 64).foldl (fun h f =>
        if !h.bit (F.DRN_FRM_V f) then h
        else
          let len := min 9216 (max 16 (h.fld (F.DRN_FRM_LEN f)))
          let r := h.insertInto c f (List.replicate len 0)
          [0, 1].foldl (fun h d =>
            (h.route ⟨(downPort d).val, by omega⟩ 5
              { hdr := h.droneHdr c d f len (BitVec.ofNat 9 h.hopsOut) false, pay := r.2 }).1) r.1) h

/-- DRONE_SEND (R299). -/
def execDroneSend (s : State) : Host.Outcome State Fault Refusal := s.goes s.hub.droneSend

/-- This node regenerates a frame of a cycle (R304). -/
def Hub.regen (h : Hub) (c : Cycle) (d f : Nat) : Hub :=
  let h := h.modCyc c.no fun c => { c with head := c.head ||| dirBit d f, regen := c.regen ||| dirBit d f }
  let h := (h.count F.DRN_REGEN).flag .drn F.DRN_FLAG_REGEN
  let len := min 9216 (max 16 (h.fld (F.DRN_FRM_LEN f)))
  let r := h.insertInto c f (List.replicate len 0)
  let i : Fin 128 := ⟨64 * (d % 2) + f % 64, by omega⟩
  (r.1.route ⟨(downPort d).val, by omega⟩ 5 { hdr := r.1.droneHdr c d f len (r.1.drn.hops[i]) true, pay := r.2 }).1

/-- MARGIN in units of 10 ns. -/
def Hub.margin (h : Hub) : Nat := max 100 (h.fld F.DRN_TIMES_MARGIN)

/-- A copy passes a node (R302, R303, R305). -/
def Hub.dronePass (h : Hub) (p : Fin 4) (c : Cycle) (f : Frame) (fin : FrameEnd) : Hub :=
  let n := (f.hdr.tag.extractLsb' 0 6).toNat
  let d := b2n f.hdr.d
  let i : Fin 128 := ⟨64 * (d % 2) + n % 64, by omega⟩
  if (c.regen &&& dirBit d n) ≠ 0 then h.count F.DRN_LATEDISC
  else
    let early := h.bit (F.DRN_FRM_V n) && h.bit (F.DRN_FRM_INSV n) && decide (h.since c * 10 < h.prepNs n)
    let r := if early then ((h.count F.DRN_NOTREADY).flag .drn F.DRN_FLAG_NOTREADY, f.pay) else h.insertInto c n f.pay
    let h := r.1
    let g := { f with pay := r.2 }
    match fin with
    | .good =>
      let h := h.modCyc c.no fun c => { c with head := c.head ||| dirBit d n }
      let h := h.put (expFld d n) (max 1 (h.since c))
      let h := h.modDrn fun x => { x with hops := x.hops.set i f.hdr.hops }
      (h.extract c n f.pay).forward p g true
    | .bad => (h.forward p g false).regen c d n
    | .eclipsed =>
      let h := h.modCyc c.no fun x => { x with spoilt := (64 * d + n, h.since c + 2 * h.margin) :: x.spoilt }
      ((h.count F.DRN_SPOILT).flag .drn F.DRN_FLAG_SPOILT).forward p g false

/-- A DRONE copy arrives: consumed at the master, rewritten on its way at a node; one of another cycle passes untouched
(R275, R299). -/
def Hub.onDrone (h : Hub) (p : Fin 4) (f : Frame) (fin : FrameEnd) : Hub :=
  if f.hdr.typ ≠ tDRONE then h
  else
    let stale := fun (h : Hub) => if h.drnOn then (h.count F.DRN_STALECYC).flag .drn F.DRN_FLAG_STALE else h
    match h.drn.cyc.find? fun c => c.at_ == f.hdr.adr with
    | none => if h.isMaster then stale h else (stale h).forward p f (fin == .good)
    | some c =>
      if h.isMaster then
        (if fin = .good ∧ !c.closed then h.extract c (f.hdr.tag.extractLsb' 0 6).toNat f.pay else h)
      else h.dronePass p c f fin

/-- DRONE (R302). -/
def execDrone (port : Fin 2) (f : Frame) (fin : FrameEnd) (s : State) : Host.Outcome State Fault Refusal :=
  s.goes (s.hub.onDrone ⟨port, by omega⟩ f fin)

/-- The time at which this node regenerates a frame that has no head (R304): EXP while the upstream port is down, else
EXP + MARGIN, or EXP + 2 × MARGIN after a DRN_LATE; after an eclipsed copy its end + 2 × MARGIN (R305). -/
def Hub.regenDue (h : Hub) (c : Cycle) (d f : Nat) : Nat :=
  let e := h.fld (expFld d f)
  if !h.linkIsUp (upPort d) then e
  else match c.spoilt.find? fun x => x.1 == 64 * d + f with
    | some x => x.2
    | none => if (c.late &&& dirBit d f) == 0 then e + h.margin else e + 2 * h.margin

/-- The newest cycle in which a frame has had no head by a time. -/
def Hub.missing (h : Hub) (d f : Nat) (by_ : Cycle → Nat) : Option Cycle :=
  if h.isMaster || h.fld (expFld d f) == 0 then none
  else h.drn.cyc.find? fun c => decide (by_ c ≤ h.since c) && (c.head &&& dirBit d f) == 0

/-- DRONE_REGEN: the upstream port is down at EXP, or no head has come in time (R304, R305). -/
def execDroneRegen (dir : Fin 2) (frm : Fin 64) (s : State) : Host.Outcome State Fault Refusal :=
  s.goes (match s.hub.missing dir frm (fun c => s.hub.regenDue c dir frm) with
    | some c => s.hub.regen c dir frm
    | none => s.hub)

/-- DRN_LATE on the downstream port, once for a cycle, frame and direction (R304). -/
def Hub.lateSend (h : Hub) (d f : Nat) : Hub :=
  match h.missing d f (fun _ => h.fld (expFld d f) + h.margin / 2) with
  | some c =>
    if (c.lateOut &&& dirBit d f) ≠ 0 then h
    else (h.modCyc c.no fun c => { c with lateOut := c.lateOut ||| dirBit d f }).sendLink (downPort d) tRINGCTL
      (wordsPay [0x05000000#32, BitVec.ofNat 32 (c.no % 65536 * 65536 + d % 2 * 32768 + f)])
  | none => h

/-- DRN_LATE_SEND (R304). -/
def execDrnLateSend (dir : Fin 2) (frm : Fin 64) (s : State) : Host.Outcome State Fault Refusal :=
  s.goes (s.hub.lateSend dir frm)

/-- A DRN_LATE from upstream (R304). -/
def Hub.onDrnLate (h : Hub) (f : Frame) : Hub :=
  if !f.isRing 0x05 then h
  else
    let w := f.word 1
    h.modDrn fun d => { d with cyc := d.cyc.map fun c =>
      if (w.bits 31 16) = c.no % 65536 then { c with late := c.late ||| dirBit (w.bits 15 15) (w.bits 5 0) } else c }

/-- DRN_LATE (R304). -/
def execDrnLate (f : Frame) (s : State) : Host.Outcome State Fault Refusal := s.goes (s.hub.onDrnLate f)

/-! ## CLOSE and APPLY (R299, R303, R328) -/

/-- The oldest cycle in flight that meets a test. -/
def Hub.oldestCyc (h : Hub) (p : Cycle → Bool) : Option Cycle := h.drn.cyc.reverse.find? p

/-- Count the entries of a cycle that nothing filled. -/
def Hub.countMiss (h : Hub) (c : Cycle) : Hub :=
  let n := (h.slots.filter fun e => !e.2.ins && !(c.got.any fun g => g.1 == e.1)).length
  if n = 0 then h else (h.count F.DRN_MISS n).flag .drn F.DRN_FLAG_MISS

/-- At CLOSE the master stops taking inputs for the cycle (R299). -/
def Hub.droneClose (h : Hub) : Hub :=
  match h.oldestCyc (fun c => !c.closed && decide (h.fld F.DRN_CLOSE_CLOSE ≤ h.since c)) with
  | some c => if h.isMaster then (h.modCyc c.no fun c => { c with closed := true }).countMiss c else h
  | none => h

/-- DRONE_CLOSE (R299). -/
def execDroneClose (s : State) : Host.Outcome State Fault Refusal := s.goes s.hub.droneClose

/-- The entries of a cycle reach the image with their STALE and POIS bits. -/
def Hub.applyEntries (h : Hub) (c : Cycle) : Hub :=
  (h.slots.filter fun e => !e.2.ins).foldl (fun h e =>
    let b := BitVec.twoPow 512 e.1
    match c.got.find? fun g => g.1 == e.1 with
    | some g =>
      let h := h.imgWrite (h.imgBase + e.2.ioff) g.2.1 false
      { h with pim := { h.pim with stale := h.pim.stale &&& ~~~ b,
                                   pois := if g.2.2 then h.pim.pois ||| b else h.pim.pois &&& ~~~ b } }
    | none => { h with pim := { h.pim with stale := h.pim.stale ||| b, pois := h.pim.pois &&& ~~~ b } }) h

/-- At APPLY, the oldest cycle in flight that has not had it. Members 1-3 wait for their copy (R299, R343). -/
def Hub.droneApply (h : Hub) : Hub :=
  if h.member ≠ 0 then h
  else match h.oldestCyc (fun c => !c.applied && decide (h.fld F.DRN_APPLY_APPLY ≤ h.since c)) with
    | none => h
    | some c =>
      let h := h.modCyc c.no fun c => { c with applied := true }
      let h := if h.isMaster then h else h.countMiss c
      let h := h.applyEntries c
      let ex := h.slots.filter fun e => !e.2.ins
      let bad := ex.filterMap fun e => if h.pim.pois.getLsbD e.1 then some (e.2.ioff, e.2.len) else none
      let odd := !bad.isEmpty || ex.any fun e => h.pim.stale.getLsbD e.1
      ((h.lanesOut bad).applyEvent c.no odd).relayDown

/-- DRONE_APPLY (R328). -/
def execDroneApply (s : State) : Host.Outcome State Fault Refusal := s.goes s.hub.droneApply

/-- RELAY_COPY_COMPLETE: a member 1-3 takes its outputs and raises APPLY (R343). -/
def Hub.relayComplete (h : Hub) : Hub :=
  if h.member = 0 then h
  else match h.oldestCyc (fun c => !c.applied) with
    | none => h
    | some c => ((h.modCyc c.no fun c => { c with applied := true }).lanesOut []).applyEvent c.no false

/-- RELAY_COPY_COMPLETE (R343). -/
def execRelayCopyComplete (s : State) : Host.Outcome State Fault Refusal := s.goes s.hub.relayComplete

end Sys2Proof.Machine
end

