-- ==== Sys2Proof/Machine/Issue.lean ====
section
/-! DEFINITION. The issuing bridge: request frames, tags, and requests that leave for another hub (07 R201, R206-R209). -/

namespace Sys2Proof.Machine

/-- The request word (Table 7.2). -/
def Request.word (rq : Request) : W32 :=
  BitVec.ofNat 12 (rq.len - 1) ++ rq.req ++ 0#11 ++ BitVec.ofBool rq.again ++ rq.op

/-- The frame a request leaves in (R201, Table 9.2): REQ_P, REQ_NP, or TIMED with its execute time. -/
def Hub.reqFrame (h : Hub) (rq : Request) (timed : Option (BitVec 64)) : Frame :=
  let pay := beBytes (Request.word rq) ++ rq.data
  let d := h.resolve rq.addr.node
  { hdr := match timed with
      | some t => h.mkHdr tTIMED 7 d rq.addr.mem pay.length (tag := if rq.posted then 0 else rq.tag) (adr := t)
          (np := !rq.posted) (x := true)
      | none => h.mkHdr (if rq.posted then tREQ_P else tREQ_NP) (if rq.posted then rq.tc else 4) d rq.addr.mem pay.length
          (tag := if rq.posted then 0 else rq.tag) (adr := (rq.addr.extractLsb' 0 38).setWidth 64)
    pay := pay }

/-- Does a request stay in this hub: node 0 or its own ID, and its own member (R28)? -/
def Hub.staysHere (h : Hub) (rq : Request) : Bool :=
  (rq.addr.node == 0 || (h.node != 0 && rq.addr.node.toNat == h.node) ||
    (rq.addr.node == 254 && h.isMaster)) && rq.addr.mem.toNat == h.member

/-- Tags a requester holds. -/
def Hub.tagsOf (h : Hub) (r : BitVec 4) : Nat :=
  (h.brg.tag.toList.filter fun t => match t with | .use t => t.rq.req == r | _ => false).length

/-- The tag a requester gets, if one is available to it (R206): the lowest free one (log entry 11). -/
def Hub.tagFor (h : Hub) (r : BitVec 4) : Option (Fin 256) :=
  let free := (h.brg.tag.toList.filter fun t => t == .free).length
  let rsv := h.fld F.BRG_TAGCFG_STW_RSV - h.tagsOf 0
  if r ≠ 0 ∧ (max 1 (h.fld F.BRG_TAGCFG_CAP) ≤ h.tagsOf r ∨ free ≤ rsv) then none
  else (List.finRange 256).find? fun t => h.brg.tag[t] == .free

/-- BRG_CTO in ticks, of 1 to 10,000 µs (Table 7.11). -/
def Hub.cto (h : Hub) : Nat := us (max 1 (min 10000 (h.fld F.BRG_CTO_US)))

/-- A non-posted request takes a tag (R206). -/
def Hub.takeTag (h : Hub) (tag : Fin 256) (w : Waiting) : Hub :=
  h.setTag tag (.use { rq := { w.rq with tag := BitVec.ofNat 8 tag, snode := 0, smem := BitVec.ofNat 2 h.member }, who := w.who,
                       timed := w.timed, first := h.now, at_ := h.now, cto := h.cto, cplm := w.cplm })

/-- Wait for a tag: counted and flagged (R207). -/
def Hub.waitTag (h : Hub) (w : Waiting) : Hub :=
  ((h.modBrg fun b => { b with wait := b.wait ++ [w] }).count F.BRG_TAGSTALL).flag .brg F.BRG_FLAG_TAGSTALL

/-- May a requester's next request go now: none of its own waits, and a tag is available (R207)? -/
def Hub.tagNow (h : Hub) (r : BitVec 4) : Option (Fin 256) :=
  if h.brg.wait.any fun w => w.rq.req == r then none else h.tagFor r

/-- A request leaves for another hub. -/
def Hub.issueOut (h : Hub) (w : Waiting) : Hub :=
  if w.rq.posted then h.send (h.reqFrame w.rq w.timed)
  else match h.tagNow w.rq.req with
    | none => h.waitTag w
    | some t => (h.takeTag t w).send (h.reqFrame { w.rq with tag := BitVec.ofNat 8 t } w.timed)

end Sys2Proof.Machine
end

