-- ==== Sys2Proof/Machine/Lamp.lean ====
section
/-! DEFINITION. The Lamp of a redundant pair: lease, take and release, lockstep, reclaim (11 R345-R361). -/

namespace Sys2Proof.Machine

/-! ## Times and conditions -/

/-- PER in ticks, kept within 20-10,000 µs (Table 11.5). -/
def Hub.lampPer (h : Hub) : Nat := us (min 10000 (max 20 (h.fld F.LMP_LEASE_PER)))

/-- GUARD in ticks, at least 1,000 ns. -/
def Hub.lampGuard (h : Hub) : Nat := (max 1000 (h.fld F.LMP_LEASE_GUARD) * 2 + 4) / 5

/-- Has the hub a ring path: joined, and a ring port UP? -/
def Hub.ringPath (h : Hub) : Bool :=
  (h.fld F.RNG_STAT_JOIN == jnJOINED || h.fld F.RNG_STAT_JOIN == jnMASTER) && h.ringPortUp

/-- Isolated (R350). -/
def Hub.isolated (h : Hub) : Bool := !h.linkIsUp 2 && !h.ringPath

/-- A member's heartbeat lies within PER (LMP_MSEEN). -/
def Hub.mseen (h : Hub) (m : Fin 3) : Bool := (h.lamp.beat[m]).any fun t => decide (h.now ≤ t + h.lampPer)

/-- Every health condition that MASK selects (R350). A value of LMP_HEALTH that a holder's software writes waits for the
next renewal (Table 11.5). -/
def Hub.healthy (h : Hub) : Bool :=
  let m := match h.lamp.mask with
    | some w => w.bits 4 0
    | none => h.fld F.LMP_HEALTH_MASK
  let cores := match h.lamp.mask with
    | some w => w.bits 15 8
    | none => h.fld F.LMP_HEALTH_CORES
  (!m.testBit 0 || (List.range 8).all fun n => !cores.testBit n || h.bit (F.RFX_STAT_ACTIVE n)) &&
    (!m.testBit 1 || (h.bit F.DRN_CTL_EN && h.drnRole != 0)) &&
    (!m.testBit 2 || (List.finRange 3).all fun (i : Fin 3) => decide (h.fld F.RNG_JOINCFG_MEMBERS ≤ i.val) || h.mseen i) &&
    (!m.testBit 3 || h.bit F.BLW_STAT_PG) &&
    (!m.testBit 4 || h.lamp.stew.any fun t => decide (h.now ≤ t + us 10000))

/-- Does this unit count as the preferred one (R345)? After CFG_ERR the lower UID does; a peer whose UID was never heard
counts as the higher. -/
def Hub.preferred (h : Hub) : Bool :=
  if h.bit F.LMP_STAT_CFG_ERR then
    (match h.ring.ids.find? fun p => p.1 == h.fld F.LMP_PEER_NODE with
      | some p => decide (h.fuse.uid.toNat < p.2.toNat)
      | none => true)
  else h.bit F.GLB_STRAP_PREFERRED

/-- Lease numbers compare modulo 2^32 (R351). -/
def newerLease (n old : Nat) : Bool := decide (1 ≤ (n + 2 ^ 32 - old) % 2 ^ 32) && decide ((n + 2 ^ 32 - old) % 2 ^ 32 ≤ 2 ^ 31)

/-- Enter a Lamp state. -/
def Hub.lampTo (h : Hub) (st : Nat) : Hub := h.put F.LMP_STAT_STATE st

/-- A flag of the Lamp. -/
def Hub.lampFlag (h : Hub) (f : Fld) : Hub := h.flag .lmp f

/-! ## Driving (R349, R353) -/

/-- Member 0 writes LMP_EXP on every other member. -/
def Hub.writeExp (h : Hub) (g : GTime) : Hub :=
  if h.member ≠ 0 then h
  else (List.range (h.fld F.RNG_JOINCFG_MEMBERS)).foldl (fun h i =>
    ((h.postReg (i + 1) 0x98030 (BitVec.ofNat 32 g.ns)).postReg (i + 1) 0x98034 (BitVec.ofNat 32 (g.sec % 2 ^ 32))).postReg
      (i + 1) 0x98038 (BitVec.ofNat 32 (g.sec / 2 ^ 32))) h

/-- Every reed engine whose RUN is 1 starts, in the next cycle (R353, 03 R105). -/
def Hub.reedsStart (h : Hub) : Hub :=
  (List.finRange 8).foldl (fun h (c : Fin 8) =>
    if !h.bit (F.REED_CTL_RUN c) || ((h.reed[c]).trig.any fun t => t.doStart) then h
    else if h.bit (F.REED_STAT_ACTIVE c) && !(h.reed[c]).stopping then h
    else h.modReed c fun r => { r with startWait := true }) h

/-- The pins go to their keepers and the reed engines stop, RUN left as it is (R353). -/
def Hub.stopDriving (h : Hub) : Hub :=
  let h := (List.finRange 64).foldl (fun h (n : Fin 64) => h.grip n) h
  (List.finRange 8).foldl (fun h (c : Fin 8) => h.modReed c fun r =>
    let go := h.bit (F.REED_STAT_ACTIVE c) && !r.stopping
    { r with startWait := false, stopping := r.stopping || go, stopAt := if go then h.now else r.stopAt }) h

/-! ## The lease (R350) -/

/-- A Gnomon time some ticks of 2.5 ns from now. -/
def Hub.gnoAfter (h : Hub) (ticks : Nat) : GTime := GTime.ofUnits (h.gno.t.units + ticks * 5 * 2 ^ 23)

/-- Send a lease number on both paths. -/
def Hub.leaseSend (h : Hub) (n : Nat) : Hub :=
  let h := h.lampSend 0x01 [BitVec.ofNat 32 n]
  if h.ringPath then h.postWrite (BitVec.ofNat 8 (h.fld F.LMP_PEER_NODE)) 0 0 0x9802C (leBytes (BitVec.ofNat 32 n)) else h

/-- A holder renews, when it is neither isolated nor unhealthy; in HANDING the members' expiry is C (R349). -/
def Hub.renewNow (h : Hub) : Hub :=
  let st := h.lampSt
  if h.member ≠ 0 ∨ !h.paired ∨ !(st = lpHOLDER ∨ st = lpHANDING) then h
  else
    let h := h.modLamp fun l => { l with mask := none, renAt := h.now }
    if h.isolated ∨ !h.healthy then h
    else
      let n := (h.lamp.n + 1) % 2 ^ 32
      let h := (h.leaseSend n).modLamp fun l => { l with n := n, exp := h.now + h.lampPer }
      match h.lamp.claim with
      | some c => if st = lpHANDING then h.writeExp (GTime.ofInt (pickTime h.gno.t c)) else h.writeExp (h.gnoAfter h.lampPer)
      | none => h.writeExp (h.gnoAfter h.lampPer)

/-- The renewal of every PER / 4. -/
def Hub.leaseRenew (h : Hub) : Hub := if h.now < h.lamp.renAt + h.lampPer / 4 then h else h.renewNow

/-- Take the Lamp (R353). -/
def Hub.take (h : Hub) (lapse : Bool) : Hub :=
  let h := ((h.lampTo lpHOLDER).off F.LMP_STAT_IN_STEP).off F.LMP_STAT_STALE
  let ps := h.lamp.parked
  let h := h.modLamp fun l =>
    { l with exp := h.now, ackAt := h.now, dead := none, relAt := none, claim := none, granted := false,
             stepAt := none, settled := none, parked := [], peerStep := false, mine := [], theirs := [] }
  let h := h.renewNow.reedsStart
  let h := ps.foldl (fun h p => h.issueOut { rq := p.rq, who := .core p.core p.slot, timed := p.timed, cplm := some p.k }) h
  let h := (h.count F.LMP_TAKECNT).lampFlag F.LMP_FLAG_TAKE
  if lapse then (h.count F.LMP_LAPSECNT).lampFlag F.LMP_FLAG_LAPSE else h

/-- Release the Lamp and become the Shadow (R352, R360). -/
def Hub.release (h : Hub) : Hub :=
  let h := h.stopDriving.lampTo lpSHADOW
  let h := h.modLamp fun l =>
    { l with dead := some (h.now + h.lampPer + h.lampGuard), relAt := none, claim := none,
             granted := false, settled := none, clean := false, mask := none }
  (h.count F.LMP_RELCNT).lampFlag F.LMP_FLAG_RELEASE

/-- RELEASE goes out (log entry 33), and the Lamp is released. -/
def Hub.releaseTold (h : Hub) : Hub := (h.lampSend 0x03 [BitVec.ofNat 32 h.lamp.n]).release

/-- May a Shadow take: not isolated, and not stale without TAKE_STALE (R351)? -/
def Hub.mayTake (h : Hub) : Bool := !h.isolated && (!h.bit F.LMP_STAT_STALE || h.bit F.LMP_CTL_TAKE_STALE)

/-- A Shadow, claiming or not? -/
def Hub.isShadow (h : Hub) : Bool := h.member == 0 && h.paired && (h.lampSt == lpSHADOW || h.lampSt == lpCLAIMING)

/-- Does this member 0 hold? -/
def Hub.isHolder (h : Hub) : Bool := h.member == 0 && h.paired && (h.lampSt == lpHOLDER || h.lampSt == lpHANDING)

/-! ## Slips and claims -/

/-- Requests that wait for a CPLM complete DOWN (R355, log entry 29). -/
def Hub.unpark (h : Hub) : Hub :=
  h.lamp.parked.foldl (fun h p => h.coreSlotDone p.core p.slot stDOWN false []) (h.modLamp fun l => { l with parked := [] })

/-- STALE: the Shadow is no longer in step. -/
def Hub.lampStale (h : Hub) : Hub :=
  (((h.on F.LMP_STAT_STALE).off F.LMP_STAT_IN_STEP).modLamp fun l => { l with clean := false, stepAt := none }).unpark

/-- A slip (R354). -/
def Hub.slip (h : Hub) : Hub :=
  if h.isShadow then ((h.count F.LMP_SLIPCNT).lampFlag F.LMP_FLAG_SLIP).lampStale else h

/-- A mismatch of issue CRCs (R356). -/
def Hub.diverge (h : Hub) : Hub := ((h.count F.LMP_DIVCNT).lampFlag F.LMP_FLAG_DIVERGE).lampStale

/-- A claim ends without a take; HOLDOFF starts again (R360). -/
def Hub.claimAbort (h : Hub) : Hub :=
  let h := (h.lampTo lpSHADOW).modLamp fun l => { l with claim := none, granted := false, stepAt := l.stepAt.map fun _ => h.now }
  (h.count F.LMP_ABORTCNT).lampFlag F.LMP_FLAG_CLAIM_ABORT

/-- The words of a claim's time C: nanoseconds and seconds. -/
def claimWords (t : BitVec 64) : List W32 := [BitVec.ofNat 32 (timeNs t), BitVec.ofNat 32 (timeSec t)]

/-- C as an execute time. -/
def claimTime (f : Frame) : BitVec 64 := f.word 2 ++ ((f.word 1).extractLsb' 0 30 ++ 0#2)

/-! ## Receiving LAMP frames (R345, R347) -/

/-- What every LAMP frame of a subtype does first: peer state, PREF, LSEQ; then its own effect. -/
def Hub.lampRx (h : Hub) (f : Frame) (sub : Nat) (g : Hub → Hub) : Hub :=
  let w := f.word 0
  if f.hdr.typ ≠ tLAMP ∨ w.bits 31 24 ≠ sub ∨ h.member ≠ 0 ∨ !h.paired then h
  else
    let h := h.put F.LMP_STAT_PEER_STATE (w.bits 23 20)
    let h := if w.bits 19 19 = h.fld F.GLB_STRAP_PREFERRED then (h.on F.LMP_STAT_CFG_ERR).lampFlag F.LMP_FLAG_CFG_ERR else h
    let gap := h.lamp.rseq.any fun r => w.bits 15 0 != (r + 1) % 65536
    let h := h.modLamp fun l => { l with rseq := some (w.bits 15 0) }
    g (if gap then h.slip else h)

/-- A lease number reaches this unit on either path (R351, R359). -/
def Hub.leaseIn (h : Hub) (n : Nat) : Hub :=
  let due := some (h.now + h.lampPer + h.lampGuard)
  if h.lampSt = lpSTART then (h.lampTo lpSHADOW).modLamp fun l => { l with n := n, dead := due }
  else if h.isShadow ∧ newerLease n h.lamp.n then h.modLamp fun l => { l with n := n, dead := due, relAt := none }
  else h

/-- The Shadow's ACK (Table 11.1); WANT_SYNC at most once a second (R356). -/
def Hub.ackSend (h : Hub) (n : Nat) : Hub :=
  if !h.isShadow then h
  else
    let want := !h.bit F.LMP_STAT_IN_STEP && !(h.lamp.wantAt.any fun t => decide (h.now < t + 400000000))
    let h := if want then h.modLamp fun l => { l with wantAt := some h.now } else h
    h.lampSend 0x02 [BitVec.ofNat 32 n, BitVec.ofNat 32 (b2n want * 8 + b2n h.healthy * 4 +
      h.fld F.LMP_STAT_STALE * 2 + h.fld F.LMP_STAT_IN_STEP)]

/-! ## The commands of the lease -/

/-- The bits of the pair in LMP_STAT read 0 where EN changes (log entry 32). -/
def Hub.lampStat0 (h : Hub) : Hub :=
  (((h.off F.LMP_STAT_IN_STEP).off F.LMP_STAT_STALE).off F.LMP_STAT_CFG_ERR).put F.LMP_STAT_PEER_STATE 0

/-- Some lane of the package is enabled: the owning enable of LMP_CTL.EN (R363). -/
def Hub.anyLane (h : Hub) : Bool := (List.range 64).any fun n => h.bit (F.LN_CTL_EN n)

/-- LMP_CTL.EN changes; `none` while a lane is enabled (R359, R466). -/
def Hub.lampEnable (h : Hub) (en : Bool) : Option Hub :=
  if en = h.paired then some h
  else if h.anyLane then none
  else if en then
    let h := (h.lampStat0.on F.LMP_CTL_EN).modLamp fun _ => { startAt := h.now, renAt := h.now }
    some (if h.member = 0 then (h.stopDriving).lampTo lpSTART else h.stopDriving)
  else
    let h := if h.isHolder then h.lampSend 0x03 [BitVec.ofNat 32 h.lamp.n] else h
    some (((h.unpark.lampStat0.off F.LMP_CTL_EN).lampTo lpSOLO).reedsStart)

/-- LAMP_ENABLE (R359). -/
def execLampEnable (a : Access) (s : State) : Host.Outcome State Fault Refusal :=
  s.goes (s.hub.cmdWrite a 0x98000 fun h => h.lampEnable true)

/-- Has START lasted WAIT, or 2 × WAIT in a unit that is not the preferred one (R359)? -/
def Hub.startOver (h : Hub) : Bool :=
  decide (h.lamp.startAt + (if h.preferred then 1 else 2) * max 1 (h.fld F.LMP_START_WAIT) * 400000 ≤ h.now)

/-- Does a newer lease reach the unit in this cycle, on either path (R351)? -/
def State.leaseComes (s : State) : Bool :=
  s.pending.any fun i => match i with
    | .lease f => f.hdr.typ == tLAMP && (f.word 0).bits 31 24 == 1 && newerLease (f.word 1).toNat s.hub.lamp.n
    | .rleaseWrite a v => a.req == 10 && a.node.toNat == s.hub.fld F.LMP_PEER_NODE && newerLease v.toNat s.hub.lamp.n
    | _ => false

/-- LAMP_START_WAIT: WAIT for the preferred unit, 2 × WAIT for the other, without a lease (R359). -/
def execLampStartWait (s : State) : Host.Outcome State Fault Refusal :=
  let h := s.hub
  s.goes (if h.member = 0 ∧ h.lampSt = lpSTART ∧ h.startOver ∧ !h.isolated then h.take false else h)

/-- LEASE_RENEW (R350). -/
def execLeaseRenew (s : State) : Host.Outcome State Fault Refusal := s.goes s.hub.leaseRenew

/-- A LEASE on the pair link; the Shadow acknowledges it. -/
def Hub.onLease (h : Hub) (f : Frame) : Hub :=
  h.lampRx f 0x01 fun h => (h.leaseIn (f.word 1).toNat).ackSend (f.word 1).toNat

/-- LEASE (R351). -/
def execLease (f : Frame) (s : State) : Host.Outcome State Fault Refusal := s.goes (s.hub.onLease f)

/-- A write to LMP_RLEASE: only the peer's over the ring counts (R351). -/
def Hub.rleaseWrite (h : Hub) (a : Access) (v : W32) : Hub :=
  if h.member = 0 ∧ h.paired ∧ a.req = 10 ∧ a.node.toNat = h.fld F.LMP_PEER_NODE then h.leaseIn v.toNat
  else (h.lampFlag F.LMP_FLAG_RLEASE_BAD).raise 1 Block.lmp.unit causeACCESS 0x9802C a.req a.node

/-- RLEASE_WRITE (R351). -/
def execRleaseWrite (a : Access) (v : W32) (s : State) : Host.Outcome State Fault Refusal :=
  s.goes (s.hub.cmdWrite a 0x9802C fun h => some (h.rleaseWrite a v))

/-- LEASE_LAPSE: E has come without a renewal (R350). -/
def execLeaseLapse (s : State) : Host.Outcome State Fault Refusal :=
  let h := s.hub
  s.goes (if h.isHolder ∧ h.lamp.exp ≤ h.now then h.release else h)

/-- LEASE_DEADLINE: D has passed with no newer lease; one that comes in the cycle of D is accepted (R351). -/
def execLeaseDeadline (s : State) : Host.Outcome State Fault Refusal :=
  let h := s.hub
  s.goes (if h.isShadow && (h.lamp.dead.any fun d => decide (d ≤ h.now)) && h.mayTake && !s.leaseComes then h.take true else h)

/-- An ACK at the holder (R350, R360). -/
def Hub.onAck (h : Hub) (f : Frame) : Hub :=
  h.lampRx f 0x02 fun h => if h.isHolder then
    h.modLamp fun l => { l with ackAt := h.now, peerStep := (f.word 2).bit 0, wantSync := l.wantSync || (f.word 2).bit 3 } else h

/-- LAMP_ACK (R350). -/
def execLampAck (f : Frame) (s : State) : Host.Outcome State Fault Refusal := s.goes (s.hub.onAck f)

/-- ACK_MISSING: PER has passed without an ACK, since the last one or since the take (R350). -/
def execAckMissing (s : State) : Host.Outcome State Fault Refusal :=
  let h := s.hub
  s.goes (if h.isHolder ∧ h.lamp.ackAt + h.lampPer ≤ h.now then h.lampFlag F.LMP_FLAG_PEER_LOST else h)

/-- A health condition is lost: the holder releases, a claimant refuses its own claim (R352, R361). -/
def Hub.healthLoss (h : Hub) : Hub :=
  if h.healthy then h
  else if h.isHolder then h.releaseTold
  else if h.isShadow ∧ h.lampSt = lpCLAIMING then
    (match h.lamp.claim with
      | some c => h.lampSend 0x0B (claimWords c)
      | none => h).claimAbort
  else h

/-- HEALTH_LOSS (R352). -/
def execHealthLoss (s : State) : Host.Outcome State Fault Refusal := s.goes s.hub.healthLoss

/-- LMP_CTL.FORCE_REL. -/
def Hub.forceRel (h : Hub) : Hub := if h.isHolder then h.releaseTold else h
/-- LMP_CTL.FORCE_TAKE. -/
def Hub.forceTake (h : Hub) : Hub := if h.isShadow then h.take false else h

/-- FORCE_REL (R352). -/
def execForceRel (a : Access) (s : State) : Host.Outcome State Fault Refusal :=
  s.goes (s.hub.cmdWrite a 0x98000 fun h => some h.forceRel)

/-- FORCE_TAKE (R352). -/
def execForceTake (a : Access) (s : State) : Host.Outcome State Fault Refusal :=
  s.goes (s.hub.cmdWrite a 0x98000 fun h => some h.forceTake)

/-- A RELEASE at the Shadow (R352). -/
def Hub.onRelease (h : Hub) (f : Frame) : Hub :=
  h.lampRx f 0x03 fun h =>
    if h.isShadow then h.modLamp fun l =>
      { l with relAt := some (h.now + h.lampGuard), n := if newerLease (f.word 1).toNat l.n then (f.word 1).toNat else l.n }
    else h

/-- LAMP_RELEASE (R352). -/
def execLampRelease (f : Frame) (s : State) : Host.Outcome State Fault Refusal := s.goes (s.hub.onRelease f)

/-- RELEASE_GUARD_EXPIRE (R352). -/
def execReleaseGuardExpire (s : State) : Host.Outcome State Fault Refusal :=
  let h := s.hub
  s.goes (if h.isShadow && (h.lamp.relAt.any fun d => decide (d ≤ h.now)) && h.mayTake then h.take false else h)

/-- MEMBER_DRIVE_EXPIRE (R349). -/
def execMemberDriveExpire (s : State) : Host.Outcome State Fault Refusal :=
  let h := s.hub
  s.goes (if h.member ≠ 0 ∧ h.shadowUnit then h.stopDriving else h)

/-- A member's heartbeat. -/
def Hub.memberBeat (h : Hub) (m : Nat) : Hub :=
  h.modLamp fun l => { l with beat := match m with
    | 1 => l.beat.set 0 (some h.now)
    | 2 => l.beat.set 1 (some h.now)
    | 3 => l.beat.set 2 (some h.now)
    | _ => l.beat }

/-- MEMBER_BEAT (R350). -/
def execMemberBeat (a : Access) (m : BitVec 2) (s : State) : Host.Outcome State Fault Refusal :=
  s.goes (s.hub.cmdWrite a 0x98058 fun h => some (h.memberBeat m.toNat))

/-- The steward's heartbeat. -/
def Hub.stewBeat (h : Hub) : Hub := h.modLamp fun l => { l with stew := some h.now }

/-- STEWARD_HEARTBEAT (R350). -/
def execStewardHeartbeat (a : Access) (s : State) : Host.Outcome State Fault Refusal :=
  s.goes (s.hub.cmdWrite a 0x9801C fun h => some h.stewBeat)

/-! ## Lockstep (R354-R356) -/

/-- Words a lockstep item takes, by its first word (Table 11.1); a change of PIM_LPOIS takes one (log entry 28). -/
def itemLen (w : W32) : Nat := if w.bits 31 28 = 1 then 1 + (w.bits 25 18 + 4) / 4 else if w.bits 31 28 = 2 then 5 else 1

/-- Apply an item in this member of a Shadow. -/
def Hub.itemApply (h : Hub) (ws : List W32) : Hub :=
  match ws with
  | [] => h
  | w :: r =>
    if w.bits 31 28 = 1 then
      let d := (r.flatMap beBytes).take (w.bits 25 18 + 1)
      if h.inLive (h.liveBase + w.bits 17 0) d.length then h.imgWrite (h.liveBase + w.bits 17 0) d else h
    else if w.bits 31 28 = 2 then
      let w0 := r.getD 0 0
      h.evRoute (w.bits 7 0) { typ := w0.extractLsb' 28 4, unit := w0.extractLsb' 0 24, w1 := r.getD 1 0, w2 := r.getD 2 0,
                               w3 := r.getD 3 0 }
    else if w.bits 31 28 = 3 then h.lpoisPut (w.bits 5 0) (w.bit 6)
    else h

/-- Member 0 of a Shadow takes an item: its own is applied, another's goes down the stack. -/
def Hub.itemIn (h : Hub) (ws : List W32) : Hub :=
  let m := (ws.getD 0 0).bits 27 26
  if m = h.member then h.itemApply ws else ws.foldl (fun h w => h.postReg m 0x98060 w) h

/-- The items of an INPUT frame, one after the other. -/
def Hub.itemsIn : Nat → Hub → List W32 → Hub
  | 0, h, _ => h
  | n + 1, h, ws =>
    let k := itemLen (ws.getD 0 0)
    if ws.isEmpty then h else Hub.itemsIn n (h.itemIn (ws.take k)) (ws.drop k)

/-- An INPUT frame at the Shadow. -/
def Hub.onInput (h : Hub) (f : Frame) : Hub :=
  h.lampRx f 0x04 fun h =>
    if h.shadowUnit then Hub.itemsIn ((f.word 1).bits 15 0) h ((List.range ((f.pay.length - 8) / 4)).map fun i => f.word (2 + i)) else h

/-- LAMP_INPUT (R354). -/
def execLampInput (f : Frame) (s : State) : Host.Outcome State Fault Refusal := s.goes (s.hub.onInput f)

/-- A word of an item at LMP_STKIN; a whole item is handed on by the holder's member 0, or applied by a Shadow's member. -/
def Hub.stackItem (h : Hub) (a : Access) (v : W32) : Hub :=
  let i : Fin 4 := ⟨a.mem.toNat, a.mem.isLt⟩
  let ws := h.lamp.item[i] ++ [v]
  let whole := decide (itemLen (ws.getD 0 0) ≤ ws.length)
  let h := h.modLamp fun l => { l with item := l.item.set i (if whole then [] else ws) }
  if !whole then h
  else if h.member = 0 then (if h.holderUnit then h.lampSend 0x04 (1#32 :: ws) else h)
  else if h.shadowUnit then h.itemApply ws
  else h

/-- STACK_ITEM (R354). -/
def execStackItem (a : Access) (v : W32) (s : State) : Host.Outcome State Fault Refusal :=
  s.goes (s.hub.cmdWrite a 0x98060 fun h => some (h.stackItem a v))

/-- IN_STEP once SETTLE cycles have passed since the sync point, all has matched and the pair link is UP (R356). -/
def Hub.stepCheck (h : Hub) : Hub :=
  if h.isShadow && h.lamp.clean && (h.lamp.settled.any fun n => decide (h.fld F.LMP_SYNC_SETTLE ≤ n)) && h.linkIsUp 2 &&
      !h.bit F.LMP_STAT_IN_STEP then
    ((h.on F.LMP_STAT_IN_STEP).off F.LMP_STAT_STALE).modLamp fun l => { l with stepAt := some h.now }
  else h

/-- MARK: the Shadow freezes; a sync point clears issue numbers and CRCs (R354, R356). -/
def Hub.onMark (h : Hub) (f : Frame) : Hub :=
  h.lampRx f 0x05 fun h =>
    if !h.isShadow then h
    else
      let k := (f.word 1).bits 15 0
      let h := (h.freeze k).modLamp fun l => { l with markOwed := none, marked := some k }
      let h := h.modLamp fun l =>
        if (f.word 1).bit 31 then
          { l with settled := some 0, clean := true, issued := Vector.replicate 8 0, sigs := Vector.replicate 8 0,
                   crc := Vector.replicate 8 0xFFFFFFFF#32, mine := [], theirs := [] }
        else { l with settled := l.settled.map (· + 1) }
      h.stepCheck

/-- LAMP_MARK (R354). -/
def execLampMark (f : Frame) (s : State) : Host.Outcome State Fault Refusal := s.goes (s.hub.onMark f)

/-- MARKWAIT has passed since the start of a cycle whose MARK is owed: the freeze runs alone, a slip (R354). -/
def Hub.markLate (h : Hub) : Hub :=
  match h.lamp.markOwed with
  | none => h
  | some k =>
    if h.drn.cyc.any fun c => c.no == k && decide (h.fld F.LMP_SYNC_MARKWAIT * 100 ≤ h.since c) then
      ((h.freeze k).modLamp fun l => { l with markOwed := none }).slip
    else h

/-- Does a MARK reach the unit in this cycle? -/
def State.markComes (s : State) : Bool :=
  s.pending.any fun i => match i with
    | .lampMark f => f.hdr.typ == tLAMP && (f.word 0).bits 31 24 == 5
    | _ => false

/-- MARK_WAIT_EXPIRE (R354). -/
def execMarkWaitExpire (s : State) : Host.Outcome State Fault Refusal :=
  s.goes (if s.markComes then s.hub else s.hub.markLate)

/-- A CPLM completes the request that waits for it (R355). -/
def Hub.onCplm (h : Hub) (f : Frame) : Hub :=
  h.lampRx f 0x06 fun h =>
    let w := f.word 1
    let s := f.word 2
    match h.lamp.parked.find? fun p => w.bits 31 30 == h.member && w.bits 29 27 == p.core.val && w.bits 15 0 == p.k % 65536 with
    | none => h
    | some p =>
      let r := h.stGood (s.bits 3 0) 0 (BitVec.ofNat 4 (1 + p.core))
      (r.1.modLamp fun l => { l with parked := l.parked.erase p }).coreSlotDone p.core p.slot r.2 (s.bit 8) (f.pay.drop 12)

/-- CPLM (R355). -/
def execCplm (f : Frame) (s : State) : Host.Outcome State Fault Refusal := s.goes (s.hub.onCplm f)

/-- The CRCs of both units at one count of a core, once both are known (R356). -/
def Hub.sigMatch (h : Hub) : Hub :=
  h.lamp.theirs.foldl (fun h t =>
    match h.lamp.mine.find? fun m => m.1 == t.1 && m.2.1 == t.2.1 with
    | none => h
    | some m =>
      let h := h.modLamp fun l => { l with mine := l.mine.erase m, theirs := l.theirs.erase t }
      if m.2.2 = t.2.2 then h else h.diverge) h

/-- SIG at the Shadow (R356). -/
def Hub.onSig (h : Hub) (f : Frame) : Hub :=
  h.lampRx f 0x07 fun h =>
    let w := f.word 1
    if h.isShadow ∧ w.bits 31 30 = h.member then
      (h.modLamp fun l => { l with theirs := l.theirs ++ [(w.bits 29 27, w.bits 15 0, f.word 2)] }).sigMatch
    else h

/-- LAMP_SIG (R356). -/
def execLampSig (f : Frame) (s : State) : Host.Outcome State Fault Refusal := s.goes (s.hub.onSig f)

/-- A core's request to another node enters the issue CRC; each 64th is compared (R356). -/
def Hub.issueCrc (h : Hub) (n : Fin 8) (rq : Request) : Hub :=
  if !h.paired then h
  else
    let addr := (List.range 6).map fun i => (rq.addr >>> (40 - 8 * i)).setWidth 8
    let crc := (beBytes (Request.word rq) ++ addr ++ rq.data).foldl crcByte h.lamp.crc[n]
    let k := h.lamp.sigs[n] + 1
    let h := h.modLamp fun l => { l with crc := l.crc.set n crc, sigs := l.sigs.set n k }
    if k % 64 ≠ 0 then h
    else
      let v := crc ^^^ 0xFFFFFFFF#32
      if h.isShadow then (h.modLamp fun l => { l with mine := l.mine ++ [(n.val, k % 65536, v)] }).sigMatch
      else if h.isHolder then h.lampSend 0x07 [BitVec.ofNat 32 (h.member * 2 ^ 30 + n.val * 2 ^ 27 + k % 65536), v]
      else h

/-! ## Reclaim (R360, R361) -/

/-- The first drone cycle start at least LEAD µs ahead, or the first whole millisecond when no drone runs. -/
def Hub.claimAt (h : Hub) : BitVec 64 :=
  let t := h.gno.t.nanos + max 100 (h.fld F.LMP_RECLAIM_LEAD) * 1000
  if h.drnOn ∧ h.drnBase ≤ t then h.cycleAt ((t - h.drnBase + h.drnPer - 1) / h.drnPer)
  else GTime.encode (GTime.ofUnits ((t + 999999) / 1000000 * 1000000 * 2 ^ 24))

/-- A preferred Shadow that has been in step for HOLDOFF reclaims. -/
def Hub.reclaimStart (h : Hub) : Hub :=
  if h.isShadow && h.lampSt == lpSHADOW && h.bit F.GLB_STRAP_PREFERRED && h.bit F.LMP_CTL_RECLAIM_EN &&
      !h.bit F.LMP_STAT_CFG_ERR && h.bit F.LMP_STAT_IN_STEP && h.linkIsUp 2 &&
      h.lamp.stepAt.any fun t => decide (t + h.fld F.LMP_RECLAIM_HOLDOFF * 400000000 ≤ h.now) then
    let c := h.claimAt
    let h := (h.lampTo lpCLAIMING).modLamp fun l => { l with claim := some c, granted := false }
    ((h.count F.LMP_RECLAIMCNT).lampFlag F.LMP_FLAG_RECLAIM).lampSend 0x09 (claimWords c)
  else h

/-- RECLAIM_START (R360). -/
def execReclaimStart (s : State) : Host.Outcome State Fault Refusal := s.goes s.hub.reclaimStart

/-- A CLAIM: GRANT from a healthy holder whose peer is in step, else REFUSE. -/
def Hub.onClaim (h : Hub) (f : Frame) : Hub :=
  h.lampRx f 0x09 fun h =>
    let c := claimTime f
    if h.lampSt = lpHOLDER ∧ h.healthy ∧ h.lamp.peerStep then
      let h := ((h.lampTo lpHANDING).modLamp fun l => { l with claim := some c }).lampSend 0x0A (claimWords c)
      h.writeExp (GTime.ofInt (pickTime h.gno.t c))
    else h.lampSend 0x0B (claimWords c)

/-- CLAIM (R360). -/
def execClaim (f : Frame) (s : State) : Host.Outcome State Fault Refusal := s.goes (s.hub.onClaim f)

/-- A GRANT of the claim made. -/
def Hub.onGrant (h : Hub) (f : Frame) : Hub :=
  h.lampRx f 0x0A fun h =>
    if h.lampSt = lpCLAIMING ∧ h.lamp.claim = some (claimTime f) then h.modLamp fun l => { l with granted := true } else h

/-- GRANT (R360). -/
def execGrant (f : Frame) (s : State) : Host.Outcome State Fault Refusal := s.goes (s.hub.onGrant f)

/-- A REFUSE: the claimant returns to SHADOW, a handing holder stays the holder (R360, R361). -/
def Hub.onRefuse (h : Hub) (f : Frame) : Hub :=
  h.lampRx f 0x0B fun h =>
    if h.lampSt = lpCLAIMING then h.claimAbort
    else if h.lampSt = lpHANDING then (h.lampTo lpHOLDER).modLamp fun l => { l with claim := none }
    else h

/-- REFUSE (R361). -/
def execRefuse (f : Frame) (s : State) : Host.Outcome State Fault Refusal := s.goes (s.hub.onRefuse f)

/-- Has C come? -/
def Hub.claimCome (h : Hub) : Bool := h.lamp.claim.any fun c => h.timeCome c

/-- HANDOVER_RELEASE: at C the handing holder releases (R360). -/
def execHandoverRelease (s : State) : Host.Outcome State Fault Refusal :=
  s.goes (if s.hub.isHolder ∧ s.hub.lampSt = lpHANDING ∧ s.hub.claimCome then s.hub.release else s.hub)

/-- Has the time `ns` nanoseconds after C come? -/
def Hub.claimPast (h : Hub) (ns : Int) : Bool :=
  h.lamp.claim.any fun c => decide (pickTime h.gno.t c + ns * 2 ^ 24 ≤ ((h.gno.t.units : Nat) : Int))

/-- CLAIM_TAKE: at C + GUARD the claimant takes (R360). -/
def execClaimTake (s : State) : Host.Outcome State Fault Refusal :=
  let h := s.hub
  s.goes (if h.isShadow ∧ h.lampSt = lpCLAIMING ∧ h.lamp.granted ∧ h.claimPast (max 1000 (h.fld F.LMP_LEASE_GUARD)) then h.take false else h)

/-- Does the GRANT of the claim made reach the unit in this cycle? -/
def State.grantComes (s : State) : Bool :=
  s.pending.any fun i => match i with
    | .grant f => f.hdr.typ == tLAMP && (f.word 0).bits 31 24 == 0x0A && s.hub.lamp.claim == some (claimTime f)
    | _ => false

/-- CLAIM_TIMEOUT: no GRANT by C − LEAD / 2 (R360). -/
def execClaimTimeout (s : State) : Host.Outcome State Fault Refusal :=
  let h := s.hub
  s.goes (if !s.grantComes ∧ h.lampSt = lpCLAIMING ∧ !h.lamp.granted ∧ h.claimPast (-(max 100 (h.fld F.LMP_RECLAIM_LEAD) * 500 : Nat)) then
    h.claimAbort else h)

/-- A write of LMP_EXP on members 1-3: a member that begins to drive starts its reed engines (R349, R353). -/
def Hub.expWritten (h : Hub) (was : Bool) : Hub := if !was && h.drives then h.reedsStart else h

end Sys2Proof.Machine
end

