-- ==== Sys2Proof/Machine/TileCmd.lean ====
section
/-! DEFINITION. The commands of tile memory and of the switch's own registers: retest, scrub, enable, spill, refill,
injection (06 R182-R186, R194-R197, R200). -/

namespace Sys2Proof.Machine

/-- A full tile of a pattern is written to cells that do not hold it: one byte reads back wrong, which and how is a free
value (log entry 57). -/
def Hub.badPattern (h : Hub) (t : Nat) (b : Byte) : Hub :=
  let d := h.draw.1
  let tl := h.tl.writeFull t (List.replicate 256 b)
  { h.draw.2 with tl := { tl with mem := writeBytes tl.mem (t * 256 + d % 256) [b ^^^ BitVec.ofNat 8 (1 + d / 256 % 255)] } }

/-- The retest of a quarantined frame-pool tile, 10 s after its entry or the last retest (R182): a tile that holds both
patterns returns to the pool with the second one in it. `fail` says which of the two (0x55, then 0xAA) it does not hold:
that verification is logged and counted as any other of a quarantined tile (R179), a try is counted, and the third makes
the entry permanent. -/
def Hub.retest (h : Hub) (i : Fin 64) (fail : Option Bool) : Hub :=
  match h.tl.quar[i] with
  | none => h
  | some e =>
    if e.part ≠ 0 ∨ e.perm ∨ h.now < e.at_ + 4000000000 then h
    else match fail with
    | none =>
      let tl := { h.tl with quar := h.tl.quar.set i none }
      { h with tl := tl.writeFull e.tile (List.replicate 256 0xAA) }
    | some second =>
      let h := (h.badPattern e.tile (if second then 0xAA else 0x55)).tileFail e.tile 5
      let e := { e with tries := e.tries + 1, perm := decide (3 ≤ e.tries + 1), at_ := h.now }
      { h with tl := { h.tl with quar := h.tl.quar.set i (some e) } }

/-- QUARANTINE_RETEST (R182). -/
def execQuarantineRetest (i : Fin 64) (fail : Option Bool) (s : State) : Host.Outcome State Fault Refusal :=
  s.goes (s.hub.retest i fail)

/-- A scrub step: it yields to a write on its tile, else verifies it and goes on to the next (R184, R185). -/
def Hub.scrubStep (h : Hub) (busy : Bool) : Hub :=
  if !h.bit F.TILE_CTL_SCRUB_EN || busy then h
  else
    let t := h.tl.scrub
    let h := (h.verify t 0).1
    let h := { h with tl := { h.tl with scrub := (t + 1) % 16384 } }
    if t + 1 < 16384 then h
    else (h.put F.TILE_SCRUBCNT_COUNT (h.fld F.TILE_SCRUBCNT_COUNT + 1)).flag .tile F.TILE_FLAG_PASS

/-- SCRUB_STEP (R184, R185). -/
def execScrubStep (busy : Bool) (s : State) : Host.Outcome State Fault Refusal := s.goes (s.hub.scrubStep busy)

/-- The first and the end tile of a partition. -/
def Hub.partRange (h : Hub) (p : Nat) : Nat × Nat :=
  let b := h.fld (F.TILE_PART_BASE p)
  (b, b + h.fld (F.TILE_PART_SIZE p))

/-- Are the partitions and the frame pool legal (R186)? -/
def Hub.swcLegal (h : Hub) : Bool :=
  let r := (List.range 4).map h.partRange
  let sizes := (r.map fun p => p.2 - p.1).foldl (· + ·) 0
  let apart := (List.range 4).all fun i => (List.range i).all fun j =>
    let a := r.getD i (0, 0)
    let b := r.getD j (0, 0)
    decide (a.1 = a.2 ∨ b.1 = b.2 ∨ a.2 ≤ b.1 ∨ b.2 ≤ a.1)
  r.all (fun p => decide (p.2 ≤ 16384)) && decide (h.fld (F.TILE_PART_SIZE 0) ≤ 4096) && apart &&
    decide (h.fld F.SWC_POOL_CPL + h.sumMin + 36 + sizes ≤ 16384)

/-- A write of 1 to SWC_CTL.EN: refused with CFG_ERR, or the switch runs (R186, R409). -/
def Hub.swcEnable (h : Hub) : Hub :=
  if h.bit F.SWC_CTL_EN then h
  else if h.swcLegal && h.domOn 4 && h.domOn 5 && h.domOn 6 && h.domOn 7 then ((h.on F.SWC_CTL_EN).on F.SWC_STAT_RUN).off F.SWC_STAT_CFG_ERR
  else h.on F.SWC_STAT_CFG_ERR

/-- SWITCH_ENABLE (R186). -/
def execSwitchEnable (a : Access) (s : State) : Host.Outcome State Fault Refusal :=
  s.goes (s.hub.cmdWrite a 0xA0000 fun h => some h.swcEnable)

/-- SPILL_WRITE_DONE (R194, R197). -/
def execSpillWriteDone (q : Fin 56) (s : State) : Host.Outcome State Fault Refusal := s.goes (s.hub.spillWritten q)

/-- REFILL (R196). -/
def execRefill (q : Fin 56) (bad : List Nat) (s : State) : Host.Outcome State Fault Refusal := s.goes (s.hub.refill q bad)

/-- A write of TILE_INJECT with GO inverts bit 0 of a tile's stored check (R200). -/
def Hub.tileInject (h : Hub) (v : W32) : Hub :=
  let t := v.bits 13 0
  let h := h.put F.TILE_INJECT_TILE t
  if v.bit 31 then { h with tl := { h.tl with chk := h.tl.chk.set zeroCheck t (h.tl.check t ^^^ 1#32) } } else h

/-- TILE_INJECT (R200). -/
def execTileInject (a : Access) (v : W32) (s : State) : Host.Outcome State Fault Refusal :=
  s.goes (s.hub.cmdWrite a 0xA803C fun h => some (h.tileInject (v ||| 0x80000000#32)))

end Sys2Proof.Machine
end

