-- ==== Sys2Proof/Machine/Reset.lean ====
section
/-! DEFINITION. Resets and the loss of a die-link channel (01 R17, R20-R26; 16 R454; 13 R400). -/

namespace Sys2Proof.Machine

/-! ## The keepers -/

/-- The keepers of a cluster take the levels their pins hold. -/
def Hub.gripAll (h : Hub) (c : Fin 8) : Hub := (lanesOf c).foldl (fun h n => h.grip n) h

/-- A pin after a reset: only its ball's level is left, and the keeper holds it. -/
def Pin.cleared (p : Pin) : Pin := { raw := p.raw, deb := p.raw, kept := p.raw }

/-- A lane after a cluster or wider reset. -/
def Lane.cleared (l : Lane) (keep : Bool) : Lane := { ({} : Lane) with pin := l.pin.map Pin.cleared, keep := keep }

/-! ## What the resets clear (Table 1.5) -/

/-- A lane's transactions and lock end when a reset covers it. -/
def Hub.laneCut (h : Hub) (n : Fin 64) : Hub := if h.up n then h.cutDevice n else h.lockBreak n

/-- The reed engine of a cluster is cleared with its program and the whole action queue; the action counter stays (R113). -/
def Hub.reedClear (h : Hub) (c : Fin 8) : Hub :=
  let h := (List.finRange 16).foldl (fun h (x : Fin 16) => h.frdAbandon c x) h
  h.modReed c fun r => { ctr := r.ctr, anc := r.anc, shadow := r.shadow }

/-- A cluster is cleared: reed engine, CAN controllers, lanes, bank and configuration (Table 1.5), its salvage entries
(R228); its lanes are in RESET and their keepers hold. -/
def Hub.clusterClear (h : Hub) (c : Fin 8) : Hub :=
  let h := (lanesOf c).foldl (fun h n => h.laneCut n) h
  let h := (h.reedClear c).salvClear c
  let h := { h with
    lanes := Vector.ofFn fun n => if n.val / 8 = c.val then (h.lanes[n]).cleared true else h.lanes[n]
    can := Vector.ofFn fun k => if k.val / 2 = c.val then {} else h.can[k]
    bank3 := h.bank3 &&& ~~~ (BitVec.twoPow 8 c) }
  let h := h.resetRangeBut (clusterBase c) (clusterBase c + 0x1FFFF) [F.REED_STAT_EPOCH c]
  (lanesOf c).foldl (fun h (n : Fin 64) => (h.put (F.LN_STAT_STATE n) lnRESET).put (F.LN_STAT_CAUSE n) 2) h

/-- A partial reconfiguration of a cluster that is reset fails (R24). -/
def Hub.liveAbort (h : Hub) (c : Fin 8) : Hub :=
  { h with ldr := { h.ldr with live := h.ldr.live.map fun l => if l.locked && l.clus.getLsbD c then { l with bad := true } else l } }

/-- The power sequencer gives up an entry of a cluster's domain that is not committed, as for a wake; past its commit
point the domain comes back with the keepers holding (R417, R414). -/
def Hub.domAbandon (h : Hub) (d : Fin 26) : Hub :=
  let ph := h.fld (F.PWR_STATE_PHASE d)
  if 1 ≤ ph ∧ ph ≤ 3 then
    let h := ((h.put (F.PWR_STATE_PHASE d) 0).put (F.PWR_STATE_TARGET d) 0).put (F.PWR_STATE_RESULT d) 3
    let h := (h.count F.PWR_SUPERCNT).flag .pwr F.PWR_FLAG_SUPERSEDED
    { h with pwr := { h.pwr with dom := h.pwr.dom.set d {} } }
  else { h with pwr := { h.pwr with dom := h.pwr.dom.set d { h.pwr.dom[d] with kept := 0xFF#8 } } }

/-- The reset of one cluster. A domain in RET or OFF keeps its state: what it held is cleared now, so its next exit
restores nothing (R417). -/
def Hub.clusterRst (h : Hub) (c : Fin 8) : Hub := ((h.domAbandon ⟨18 + c, by omega⟩).clusterClear c).liveAbort c

/-- The clusters of a region. -/
def clustersOf (r : Fin 2) : List (Fin 8) := (List.finRange 4).map fun i => ⟨r.val * 4 + i.val, by omega⟩

/-- The reset of a region restores its die-link channel (R17). -/
def Hub.regionRst (h : Hub) (r : Fin 2) : Hub :=
  let h := if (h.dl[r]).down then h.hwSet F.GLB_RST_CAUSE_CHANNEL else h
  let h : Hub := { h with dl := h.dl.set r ({} : DieLink) }
  (clustersOf r).foldl (fun h c => h.clusterRst c) h

/-- The action counters restart at 0, all in one cycle, their EPOCH too, and no cluster is anchored (R116, R149, R155). -/
def Hub.ctrsRestart (h : Hub) : Hub :=
  let h := (List.finRange 8).foldl (fun h (c : Fin 8) => h.put (F.REED_STAT_EPOCH c) 0) h
  ({ h with reed := h.reed.map fun (r : Reed) => { r with ctr := 0, anc := {}, shadow := {} } }).put F.GNO_CVALID_VALID 0

/-- The CLK fields that lie on the P-die: the detectors 4 and 5 with their threshold and count, and the temperature sensor
(Tables 1.1, 14.10). -/
def Hub.pdieClk (h : Hub) : Hub :=
  let h := (h.put F.CLK_DIM_DEN (h.fld F.CLK_DIM_DEN % 16 + 48)).put F.CLK_DIMTHR_PTHR 4
  ((h.put F.CLK_PDIMCNT 0).put F.CLK_TEMPP_T 0).off F.CLK_FLAG_PDROOP

/-- The power datapath is cleared: every request, sequence and domain state takes its reset value (Tables 1.1, 14.8). -/
def Hub.pwrClear (h : Hub) : Hub :=
  { h.resetRange 0x10000 0x107FF with pwr := { h.pwr with dom := Vector.replicate 26 {}, stby := none } }

/-- The reset of the P-die: both regions, their channels, the action counters, the power datapath and the P-die's part of
CLK; the Pilot and the Bellows stay (Table 1.5, log entry 119). -/
def Hub.pdieRst (h : Hub) : Hub :=
  let h : Hub := { h with dl := Vector.replicate 2 {} }
  (((h.regionRst 0).regionRst 1).ctrsRestart.pwrClear.pdieClk).hwSet F.GLB_RST_CAUSE_PDIE

/-! ## Warm and cold resets -/

/-- Fields a cold reset keeps: the Pilot and the Bellows, and the levels the cage pins show. -/
def coldKeeps (k : Nat) : Bool :=
  let off := k / 32
  keyIn 0x10800 0x10FFF k || keyIn 0x18000 0x18FFF k || off == linkBase 0 + 0x30 && 8 ≤ k % 32 ||
    off == linkBase 1 + 0x30 && 8 ≤ k % 32

/-- Fields a warm reset keeps beside them: strap latch, reset causes, and the ERR fields R454 lists. -/
def warmKeeps (k : Nat) : Bool :=
  coldKeeps k || keyIn 0x4 0x4 k || (keyIn 0x8 0x8 k && k % 32 == 14) || keyIn 0x14 0x14 k || keyIn 0x30008 0x30008 k ||
    keyIn 0x3002C 0x30030 k || keyIn 0x30060 0x30070 k

/-- A mailbox channel after a reset of the steward (R400). -/
def Mbx.restart (m : Mbx) : Mbx := { last := m.last }

/-- ACKIN reads ABORTED with the MID of the last message pushed, and ABORTED sets (R400). -/
def Hub.mbxAbort (h : Hub) : Hub :=
  (List.finRange 4).foldl (fun h (k : Fin 4) =>
    ((h.put (F.MBX_ACKIN_CODE k) 7).put (F.MBX_ACKIN_MID k) (h.mbx[k]).last.toNat).hwSet (F.MBX_STAT_ABORTED k)) h

/-- Everything but what `kept` and the arguments keep takes its reset value; flash, fuses, the Pilot and the Bellows
are untouched by every reset. -/
def Hub.restart (h : Hub) (kept : Nat → Bool) (err : Err) (keep : Bool) (stack : Option Nat) : Hub :=
  let fresh : Hub := {}
  { fresh with
    now := h.now
    freeCtr := h.freeCtr
    out := h.out
    fuse := h.fuse
    fields := h.fields.filter fun p => kept p.1
    err := err
    lanes := h.lanes.map fun l => l.cleared keep
    bel := h.bel
    pwr := { asleep := h.pwr.asleep, minoff := h.pwr.minoff, flare := h.pwr.flare, peWake := h.pwr.peWake }
    mbx := h.mbx.map Mbx.restart
    ldr := { store := (h.ldr.store).set 2 [], bcb := h.ldr.bcb, stack := stack } }

/-- Is RST_OUT_N low: from a cold reset until 1 ms after PLL_MAIN locks, during a warm reset and 1 ms after it (R480)? -/
def Hub.rstOutLow (h : Hub) : Bool := h.pwr.held || h.pwr.rstOut.all fun t => decide (h.now < t)

/-- Is XSPI_RST_N low: the first 10 µs of a warm reset (R491)? -/
def Hub.xspiRstLow (h : Hub) : Bool := decide (h.now < h.pwr.xspiEnd)

/-- Are the flash devices in 8D-8D-8D mode: as CFG_XSPI.MODE selects, from 1S-1S-1S at every reset (R491)? -/
def Hub.xspiOctal (h : Hub) : Bool := h.fld F.CFG_XSPI_MODE == 1 && !h.xspiRstLow

/-- The warm reset of the package (Table 1.5, R454); its cause bit is set by whoever asked. RST_OUT_N stays low for 1 ms
after it, XSPI_RST_N for 10 µs (R480, R491). -/
def Hub.warmRst (h : Hub) : Hub :=
  let g := (h.restart warmKeeps { log := h.err.log, fec := h.err.fec } true h.ldr.stack).mbxAbort
  let g := { g with pwr := { g.pwr with rstOut := h.pwr.rstOut.map fun _ => h.now + us 1000, xspiEnd := h.now + us 10 } }
  g.emit .xspiReset

/-- A cold reset: PORST_N is low, the straps are latched; everything but the Pilot and the Bellows is cleared, and the
field pins are inputs with pull-down (Table 1.5, Table 12.7). -/
def Hub.coldRst (h : Hub) (strap : BitVec 4) : Hub :=
  let h := (h.restart coldKeeps {} false none).mbxAbort
  let h := Hub.emit { h with pwr := { h.pwr with asleep := none, minoff := false } } .xspiReset
  let h := (h.put F.GLB_STRAP_MEMBER (strap.extractLsb' 0 2).toNat).put F.GLB_SELF_MEMBER (strap.extractLsb' 0 2).toNat
  (h.putB F.GLB_STRAP_BOOT_SRC (strap.getLsbD 2)).putB F.GLB_STRAP_PREFERRED (strap.getLsbD 3)

/-! ## Requests (R23, R25, Table 1.9) -/

/-- A software cluster or region reset is recorded in the error log (Table 1.10; class and cause are the model's, log
entry 36). -/
def Hub.rstLog (h : Hub) (a : Access) (i : Nat) : Hub := h.raise 0 (fUnit 0x01) causeSTOP i a.req a.node

/-- A bit of a row of one-bit requests in GLB_RST_CTL. -/
def Hub.rstBit (h : Hub) (f : Fld) (i : Nat) (on : Bool) : Hub :=
  h.put f (if on then h.fld f ||| 2 ^ i else h.fld f &&& (2 ^ f.w - 1 - 2 ^ i))

/-- Does a P-die or region reset that runs cover a region? -/
def Hub.regionBusy (h : Hub) (r : Nat) : Bool := h.bit F.GLB_RST_CTL_PDIE || (h.fld F.GLB_RST_CTL_REGION).testBit r

/-- GLB_RST_CTL.CLUSTER[c] is written 1: absorbed while a covering reset runs (R23). -/
def Hub.askCluster (h : Hub) (a : Access) (c : Fin 8) : Hub :=
  if !h.clusterPresent c then h
  else
    let h := h.rstLog a c
    if h.regionBusy (c / 4) || (h.fld F.GLB_RST_CTL_CLUSTER).testBit c then h
    else (h.rstBit F.GLB_RST_CTL_CLUSTER c true).clusterRst c

/-- GLB_RST_CTL.REGION[r] is written 1. -/
def Hub.askRegion (h : Hub) (a : Access) (r : Fin 2) : Hub :=
  if !h.fuse.lanes64 && r == 1 then h
  else
    let h := h.rstLog a r
    if h.regionBusy r then h
    else
      let h := (clustersOf r).foldl (fun h c => h.rstBit F.GLB_RST_CTL_CLUSTER c false) h
      (h.rstBit F.GLB_RST_CTL_REGION r true).regionRst r

/-- GLB_RST_CTL.PDIE is written 1, or a P-die fatal error escalates. -/
def Hub.askPdie (h : Hub) : Hub :=
  if h.bit F.GLB_RST_CTL_PDIE then h.hwSet F.GLB_RST_CAUSE_PDIE
  else (((h.put F.GLB_RST_CTL_CLUSTER 0).put F.GLB_RST_CTL_REGION 0).on F.GLB_RST_CTL_PDIE).pdieRst

/-- A reset of clusters ends: their lanes leave RESET, and the steward owes their reapply (R22, R376). -/
def Hub.clustersDone (h : Hub) (cs : List (Fin 8)) : Hub :=
  let h := cs.foldl (fun h c => (lanesOf c).foldl (fun h n => h.laneResetEnd n) h) h
  if h.bit F.CFG_CTL_AUTO_REAPPLY then
    { h with ldr := { h.ldr with owed := cs.foldl (fun m (c : Fin 8) => m ||| BitVec.twoPow 8 c) h.ldr.owed } }
  else h

/-- The end of a reset that runs. -/
def Hub.resetDone (h : Hub) (u : ResetUnit) : Hub :=
  match u with
  | .cluster c =>
    if (h.fld F.GLB_RST_CTL_CLUSTER).testBit c then (h.rstBit F.GLB_RST_CTL_CLUSTER c false).clustersDone [c] else h
  | .region r =>
    if (h.fld F.GLB_RST_CTL_REGION).testBit r then (h.rstBit F.GLB_RST_CTL_REGION r false).clustersDone (clustersOf r) else h
  | .pdie =>
    if h.bit F.GLB_RST_CTL_PDIE then ((h.off F.GLB_RST_CTL_PDIE).clustersDone (List.finRange 8)).ctrsRestart else h

/-- COLD_RESET (R21). -/
def execColdReset (strap : BitVec 4) (s : State) : Host.Outcome State Fault Refusal := s.goes (s.hub.coldRst strap)

/-- The warm reset asked for: a register write, an escalation, a ring-wide reset. -/
def Hub.warmAsk (h : Hub) (why : WarmCause) : Hub :=
  match why with
  | .software a => h.cmdWrite a 0x10 fun h => some (h.warmRst.hwSet F.GLB_RST_CAUSE_WARM)
  | .fatal => h.warmRst.hwSet F.GLB_RST_CAUSE_FATAL
  | .ring => h.warmRst.hwSet F.GLB_RST_CAUSE_RING

/-- WARM_RESET (R21). -/
def execWarmReset (why : WarmCause) (s : State) : Host.Outcome State Fault Refusal := s.goes (s.hub.warmAsk why)

/-- PDIE_RESET (R21). -/
def execPdieReset (a : Access) (s : State) : Host.Outcome State Fault Refusal :=
  s.goes (s.hub.cmdWrite a 0x10 fun h => some h.askPdie)

/-- REGION_RESET (R21). -/
def execRegionReset (a : Access) (r : Fin 2) (s : State) : Host.Outcome State Fault Refusal :=
  s.goes (s.hub.cmdWrite a 0x10 fun h => some (h.askRegion a r))

/-- CLUSTER_RESET (R21). -/
def execClusterReset (a : Access) (c : Fin 8) (s : State) : Host.Outcome State Fault Refusal :=
  s.goes (s.hub.cmdWrite a 0x10 fun h => some (h.askCluster a c))

/-- RESET_COMPLETE (R22). -/
def execResetComplete (u : ResetUnit) (s : State) : Host.Outcome State Fault Refusal := s.goes (s.hub.resetDone u)

/-- At the time a RESET frame names, the node resets warm (R298). -/
def Hub.ringResetTime (h : Hub) : Hub :=
  match h.ring.ringReset with
  | none => h
  | some t => if (h.gno.t.units : Int) < pickTime h.gno.t t then h else h.warmRst.hwSet F.GLB_RST_CAUSE_RING

/-- RING_RESET_TIME (R298). -/
def execRingResetTime (s : State) : Host.Outcome State Fault Refusal := s.goes s.hub.ringResetTime

/-! ## Die-link channels (R17) -/

/-- A flit fails its check; the fourth failure in a row takes the channel down and contains the region. -/
def Hub.flitFail (h : Hub) (r : Fin 2) : Hub :=
  let d := h.dl[r]
  if d.down then h
  else if d.fails < 3 then { h with dl := h.dl.set r { d with fails := d.fails + 1 } }
  else
    let h := (clustersOf r).foldl (fun h c => h.gripAll c) h
    let h := { h with dl := h.dl.set r { down := true, fails := 4 } }
    let h := h.raise 2 { pdie := true, region := r, code := 0x0A } causeCHECK
    (clustersOf r).foldl (fun h c => (lanesOf c).foldl (fun h n => (h.leaveUp n 4).laneEval n) h) h

/-- DIE_LINK_FLIT_FAIL (R17). -/
def execDieLinkFlitFail (r : Fin 2) (s : State) : Host.Outcome State Fault Refusal := s.goes (s.hub.flitFail r)

end Sys2Proof.Machine
end

