-- ==== Sys2Proof/Machine/HostLow.lean ====
section
/-! DEFINITION. Mailbox channels, management frames and the host reset (13 R387, R395-R403). -/

namespace Sys2Proof.Machine

/-! ## Return codes (Table 0.9) -/

def rcOK : Nat := 0
def rcBUSY : Nat := 1
def rcBAD_ARG : Nat := 2
def rcBAD_STATE : Nat := 3
def rcCHECK_FAIL : Nat := 4
def rcAUTH_FAIL : Nat := 5
def rcNO_SPACE : Nat := 6
def rcABORTED : Nat := 7
def rcUNSUPPORTED : Nat := 8

/-- Change a mailbox channel. -/
def Hub.modMbx (h : Hub) (k : Fin 4) (g : Mbx → Mbx) : Hub := { h with mbx := h.mbx.set k (g h.mbx[k]) }

/-! ## Messages (R396, R397) -/

/-- Words of a message by its header: NARG + 1. -/
def msgWords (hd : W32) : Nat := hd.bits 3 0 + 1

/-- The whole messages at the front of a queue and the words of one not yet whole. -/
def splitMsgs : Nat → List W32 → List (List W32) × List W32
  | 0, q => ([], q)
  | fuel + 1, q => match q with
    | [] => ([], [])
    | hd :: r =>
      if q.length < msgWords hd then ([], q)
      else
        let s := splitMsgs fuel ((hd :: r).drop (msgWords hd))
        ((hd :: r).take (msgWords hd) :: s.1, s.2)

/-- The header of a message: CODE, MID, NARG. -/
def msgHead (code : Nat) (mid : Byte) (narg : Nat) : W32 :=
  BitVec.ofNat 16 code ++ mid ++ 0#4 ++ BitVec.ofNat 4 narg

/-- Does channel 2 behave as the single-word register: COMPAT, with both queues empty (R401)? -/
def Hub.compat (h : Hub) (k : Fin 4) : Bool :=
  k == 2 && h.bit (F.MBX_CTL_COMPAT k) && (h.mbx[k]).inq.isEmpty && (h.mbx[k]).outq.isEmpty && (h.mbx[k]).wait.isEmpty

/-- Answers that wait move to the outbound queue as room comes. -/
def Mbx.settle : Nat → Mbx → Mbx
  | 0, m => m
  | fuel + 1, m => match m.wait with
    | [] => m
    | w :: r => if m.outq.length + w.length ≤ 8 then Mbx.settle fuel { m with outq := m.outq ++ w, wait := r } else m

/-! ## Answers -/

/-- The additional data and IV of a MGMT frame's tag (R403). -/
def mgmtIv (hd : Header) (ch : Nat) (nonce : List Byte) : List Byte :=
  [hd.snode, hd.dnode, BitVec.ofNat 8 (hd.smem.toNat * 64 + hd.dmem.toNat * 16 + ch), 0] ++ nonce

/-- Header bytes 4-9. -/
def mgmtHdr (hd : Header) : List Byte := ((wordsPay hd.words).drop 4).take 6

/-- The steward's answer to a ring command goes to the command's source, tagged when the command was (R402, R403). -/
def Hub.mgmtAnswer (h : Hub) (ch : Fin 4) (src : MSrc) (auth : Bool) (msg : List W32) : Hub :=
  let w0 : W32 := BitVec.ofNat 32 (2 * 2 ^ 28 + b2n auth * 2 ^ 27 + ch * 2 ^ 16)
  let nonce := beBytes (BitVec.ofNat 32 (h.fld F.SEC_BOOTID_ID)) ++ beBytes (BitVec.ofNat 32 h.sec.own)
  let body := beBytes w0 ++ (if auth then nonce else []) ++ wordsPay msg
  let len := body.length + (if auth then 16 else 0)
  let hd := h.mkHdr tMGMT 4 src.node src.mem len
  let p := (h.portTo src.node src.mem).getD 5
  let hd' := { hd with seq := BitVec.ofNat 16 (h.takeSeq (seqKey tMGMT src.node)).1, d := p == 1 }
  let tag := if auth then Config.gmac (h.fuse.mkey.getD 0) (mgmtIv hd' ch nonce) (mgmtHdr hd' ++ body) else []
  let h := if auth then { h with sec := { h.sec with own := (h.sec.own + 1) % 2 ^ 32 } } else h
  h.send { hdr := hd, pay := body ++ tag } 6

/-- An answer on a channel (R396): into the outbound queue for the host, in a frame for a ring manager. -/
def Hub.answer (h : Hub) (ch : Fin 4) (src : Option MSrc) (code : Nat) (mid : Byte) (ret : Nat) (ws : List W32) : Hub :=
  let h := h.emit (.mbxAnswer ch code mid ret ws)
  let msg := msgHead code mid (1 + ws.length) :: BitVec.ofNat 32 ret :: ws
  match src with
  | some s => h.mgmtAnswer ch s s.auth msg
  | none =>
    if ch.val % 2 = 0 then h.modMbx ch fun m => Mbx.settle 64 { m with wait := m.wait ++ [msg], aborted := false } else h

/-! ## The inbound side -/

/-- A word pushed into a channel (R397): a full queue loses it, and the steward discards the message it belongs to and
answers BAD_ARG. -/
def Hub.mbxPush (h : Hub) (k : Fin 4) (v : W32) : Hub :=
  if h.compat k then h
  else
    let q := (h.mbx[k]).inq
    if q.length < 8 then
      let q := q ++ [v]
      let s := splitMsgs 8 q
      h.modMbx k fun m =>
        { m with inq := q, last := if s.2.isEmpty then ((s.1.getLastD []).headD 0).extractLsb' 8 8 else m.last }
    else
      let s := splitMsgs 8 q
      let hd := (s.2 ++ [v]).headD 0
      let h := (h.modMbx k fun m => { m with inq := s.1.flatten }).hwSet (F.MBX_STAT_IN_OVF k)
      h.answer k none (hd.bits 31 16) (hd.extractLsb' 8 8) rcBAD_ARG []

/-- The host pops an outbound word (R397). -/
def Hub.mbxPop (h : Hub) (k : Fin 4) : Hub × Nat :=
  match (h.mbx[k]).outq with
  | [] => (h, 0)
  | w :: r => (h.modMbx k fun m => Mbx.settle 64 { m with outq := r }, w.toNat)

/-- The steward takes a message: the one at the front of the queue when it is the command named; ACKIN takes its MID
(R399). -/
def Hub.mbxTake (h : Hub) (k : Fin 4) (code : Nat) (mid : Byte) : Hub × Option MSrc :=
  let m := h.mbx[k]
  let h := ((h.put (F.MBX_ACKIN_CODE k) 0).put (F.MBX_ACKIN_MID k) mid.toNat).modMbx k fun m => { m with opened := true }
  match splitMsgs 8 m.inq with
  | (msg :: _, _) =>
    if (msg.headD 0).bits 31 8 = code * 256 + mid.toNat then
      (h.modMbx k fun m => { m with inq := m.inq.drop msg.length, src := m.src.drop 1 },
       if k.val % 2 = 1 then m.src.head? else none)
    else (h, none)
  | _ => (h, none)

/-- The steward serves a command of a channel (R404): refused with AUTH_FAIL where Table 13.5 or 12.8 does not allow it. -/
def Hub.steward (h : Hub) (ch : Fin 4) (code : Nat) (mid : Byte) (allowed : Bool)
    (op : Hub → Option MSrc → Hub × Nat × List W32) : Hub :=
  let t := h.mbxTake ch code mid
  let r := if allowed then op t.1 t.2 else (t.1, rcAUTH_FAIL, [])
  r.1.answer ch t.2 code mid r.2.1 r.2.2

/-- A channel is secure (Table 13.4). -/
def secureCh (ch : Fin 4) : Bool := decide (ch.val < 2)

/-- MBX_IN_PUSH (R397). -/
def execMbxInPush (a : Access) (k : Fin 4) (v : W32) (s : State) : Host.Outcome State Fault Refusal :=
  s.goes (s.hub.cmdWrite a (mbxBase k + 8) fun h => some (h.mbxPush k v))

/-- A read of MBXk_OUT; in COMPAT mode it reads 0 (R401). -/
def Hub.mbxOut (h : Hub) (k : Fin 4) : Hub × Nat := if h.compat k then (h, 0) else h.mbxPop k

/-- MBX_OUT_POP (R397). -/
def execMbxOutPop (a : Access) (k : Fin 4) (s : State) : Host.Outcome State Fault Refusal :=
  s.goes (s.hub.cmdRead a (mbxBase k + 0xC) fun h => some (h.mbxOut k))

/-- A write of MBX2_WORD: the steward's sets RFULL, any other's FULL; one that finds its flag set is discarded (R401). -/
def Hub.wordWrite (h : Hub) (a : Access) (v : W32) : Hub :=
  if !h.compat 2 then h
  else
    let f := if a.req = 0 then F.MBX_WSTAT_RFULL 2 else F.MBX_WSTAT_FULL 2
    if h.bit f then h.hwSet (F.MBX_STAT_IN_OVF 2)
    else (h.on f).modMbx 2 fun m => if a.req = 0 then { m with wordOut := v } else { m with wordIn := v }

/-- A read of MBX2_WORD: the steward's clears FULL, any other's RFULL (R401). -/
def Hub.wordRead (h : Hub) (a : Access) : Hub × Nat :=
  if !h.compat 2 then (h, 0)
  else if a.req = 0 then (h.off (F.MBX_WSTAT_FULL 2), (h.mbx[(2 : Fin 4)]).wordIn.toNat)
  else (h.off (F.MBX_WSTAT_RFULL 2), (h.mbx[(2 : Fin 4)]).wordOut.toNat)

/-- MBX2_WORD_ACCESS (R401). -/
def execMbx2WordAccess (a : Access) (wr : Option W32) (s : State) : Host.Outcome State Fault Refusal :=
  s.goes (match wr with
    | some v => s.hub.cmdWrite a (mbxBase 2 + 0x20) fun h => some (h.wordWrite a v)
    | none => s.hub.cmdRead a (mbxBase 2 + 0x20) fun h => some (h.wordRead a))

/-! ## Management frames (R402, R403) -/

/-- The node a frame's source counts as (R212). -/
def Hub.srcNode (h : Hub) (snode : BitVec 8) : Nat := if snode.toNat = h.node then 0 else snode.toNat

/-- A tag verifies, its BOOTID is the current one and its counter exceeds the source's last (R403). -/
def Hub.mgmtGood (h : Hub) (f : Frame) (ch : Nat) : Bool :=
  let body := f.pay.take (f.pay.length - 16)
  let nonce := (f.pay.drop 4).take 8
  let last := ((h.sec.seen.find? fun s => s.1 == f.hdr.snode && s.2.1 == f.hdr.smem).map fun s => s.2.2 + 1).getD 0
  match h.fuse.mkey with
  | none => false
  | some k => Config.gmac k (mgmtIv f.hdr ch nonce) (mgmtHdr f.hdr ++ body) == f.pay.drop (f.pay.length - 16) &&
      decide ((f.word 1).toNat = h.fld F.SEC_BOOTID_ID) && decide (last ≤ (f.word 2).toNat)

/-- A command frame's message reaches its channel (R397, R400). -/
def Hub.mgmtIn (h : Hub) (k : Fin 4) (s : MSrc) (msg : List W32) : Hub :=
  let hd := msg.headD 0
  let code := hd.bits 31 16
  let mid := hd.extractLsb' 8 8
  let m := h.mbx[k]
  if !m.opened then h.answer k (some s) code mid rcABORTED []
  else if msg.isEmpty || decide (msg.length < msgWords hd) || decide (8 < m.inq.length + msg.length) then
    (h.hwSet (F.MBX_STAT_IN_OVF k)).answer k (some s) code mid rcBAD_ARG []
  else h.modMbx k fun m => { m with inq := m.inq ++ msg, src := m.src ++ [s], last := mid }

/-- A MGMT frame that passed R281 reaches the Steward port (R402, R403). -/
def Hub.onMgmt (h : Hub) (f : Frame) : Hub :=
  let w0 := f.word 0
  let ch := w0.bits 17 16
  let a := w0.bit 27
  let skip := if a then 12 else 4
  let rest := f.pay.drop skip
  let hd := beWord rest
  let n := msgWords hd
  let msg := (List.range (min n (rest.length / 4))).map fun i => beWord (rest.drop (4 * i))
  let bulk := (rest.drop (4 * n)).take ((rest.drop (4 * n)).length - (if a then 16 else 0))
  let k : Fin 4 := if ch = 1 then 1 else 3
  if ch ≠ 1 ∧ ch ≠ 3 then h
  else if !h.listAdmits (h.fld (if ch = 1 then F.SEC_CTL_ALLOW1 else F.SEC_CTL_ALLOW3)) (h.srcNode f.hdr.snode) then
    h.count F.SEC_DENYCNT_COUNT
  else if w0.bits 31 28 ≠ 1 then h
  else
    let s : MSrc := { node := f.hdr.snode, mem := f.hdr.smem, auth := a, bulk := bulk }
    let must := a || (ch == 1 && h.bit F.SEC_CTL_AUTH)
    if must && !(a && h.mgmtGood f ch) then
      (h.count F.SEC_AUTHFAIL_COUNT).answer k (some { s with auth := false }) (hd.bits 31 16) (hd.extractLsb' 8 8)
        rcAUTH_FAIL [BitVec.ofNat 32 (h.fld F.SEC_BOOTID_ID)]
    else
      let h := if a then { h with sec := { h.sec with seen := (f.hdr.snode, f.hdr.smem, (f.word 2).toNat) ::
          (h.sec.seen.filter (fun s => !(s.1 == f.hdr.snode && s.2.1 == f.hdr.smem))) } } else h
      h.mgmtIn k s msg

/-- A MGMT frame that failed a tile check at the Steward port (Table 6.1, code 7). -/
def Hub.mgmtBad (h : Hub) (f : Frame) : Hub :=
  let w0 := f.word 0
  let hd := beWord (f.pay.drop (if w0.bit 27 then 12 else 4))
  if w0.bits 31 28 = 1 then
    h.answer (if w0.bits 17 16 = 1 then 1 else 3) (some { node := f.hdr.snode, mem := f.hdr.smem, auth := false, bulk := [] })
      (hd.bits 31 16) (hd.extractLsb' 8 8) rcCHECK_FAIL []
  else h

/-- MGMT (R402). -/
def execMgmt (f : Frame) (s : State) : Host.Outcome State Fault Refusal := s.goes (s.hub.onMgmt f)

/-! ## Host reset (R387) -/

/-- The frames queued to the Host port are flushed and counted. -/
def Hub.hostFlush (h : Hub) : Hub :=
  (List.range 8).foldl (fun h c =>
    let q := qOf 4 c
    (h.sw.q[q]).foldl (fun h f => (h.dequeue q f).count F.HST_RXDROP) h) h

/-- PERST_N is low or a Function Level Reset came: DMA rings stop, the Host port's queues are flushed, outbound
mailboxes are cleared, which the steward sees (R400), and completions of host requests find nobody. -/
def Hub.hostRst (h : Hub) : Hub :=
  let h := (List.range 8).foldl (fun h i => (h.off (F.HST_TXR_CTL_EN i)).off (F.HST_RXR_CTL_EN i)) h
  let h := h.hostFlush
  let h := ([0, 2] : List (Fin 4)).foldl (fun h (k : Fin 4) => h.modMbx k (fun m => { m with outq := [], wait := [], aborted := true })) h
  let unhost : Issuer → Issuer := fun w => match w with
    | .host _ _ => .plain
    | w => w
  let h := h.modBrg fun b =>
    { b with
      tag := b.tag.map (fun (t : TagSt) => match t with
        | .use t => .use { t with who := unhost t.who }
        | t => t)
      wait := b.wait.filter (fun (w : Waiting) => match w.who with | .host _ _ => false | _ => true) }
  { h with hst := { h.hst with cpl := Vector.replicate 8 [], part := Vector.replicate 8 [],
                               open_ := Vector.replicate 8 false, answers := false,
                               rstAt := h.now, waitAt := Vector.replicate 8 none } }

/-- HOST_RESET (R387). -/
def execHostReset (s : State) : Host.Outcome State Fault Refusal := s.goes s.hub.hostRst

/-- ENDPOINT_READY: 20 ms after PERST_N rose the endpoint answers; PE_WAKE_N is let go (R387, R419). -/
def execEndpointReady (s : State) : Host.Outcome State Fault Refusal :=
  s.goes (if s.hub.now < s.hub.hst.rstAt + 8000000 then s.hub else { s.hub with hst := { s.hub.hst with answers := true }, pwr := { s.hub.pwr with peWake := false } })

end Sys2Proof.Machine
end

