-- ==== Sys2Proof/Machine/Bellows.lean ====
section
/-! DEFINITION. The Bellows: hot insertion and electronic fuse (15 R430-R444). Analogue thresholds and the timers of
CK_PILOT arrive as commands; the state holds what they leave. -/

namespace Sys2Proof.Machine

def blIDLE : Nat := 0
def blRAMP : Nat := 1
def blQUAL : Nat := 2
def blON : Nat := 3
def blOFFTIME : Nat := 4
def blLATCHED : Nat := 5
def blHOLD : Nat := 6

/-- Change the Bellows' hidden state. -/
def Hub.modBel (h : Hub) (g : Bel → Bel) : Hub := { h with bel := g h.bel }

/-- The Bellows' state (Table 15.2). -/
def Hub.bl (h : Hub) : Nat := h.fld F.BLW_STAT_STATE

/-- Enter a state: BL_FLT_N is low in OFFTIME and LATCHED (Table 15.1). -/
def Hub.blTo (h : Hub) (st : Nat) : Hub :=
  (h.put F.BLW_STAT_STATE st).putB F.BLW_STAT_FLT_N (!(st == blOFFTIME || st == blLATCHED))

/-- Is the gate on or charging: RAMP, QUAL or ON? -/
def Hub.gateOn (h : Hub) : Bool := h.bl == blRAMP || h.bl == blQUAL || h.bl == blON

/-- CK_PILOT ticks in a number of model ticks: 32,768 Hz against 400 MHz. -/
def pilotTicks (t : Nat) : Nat := t * 32768 / 400000000

/-- Model ticks of a number of CK_PILOT ticks, rounded up. -/
def ofPilot (p : Nat) : Nat := (p * 400000000 + 32767) / 32768

/-- The tick the fault timer expires: FTIME in units of 0.1 ms, rounded up to whole CK_PILOT ticks (R436). -/
def Hub.timerEnd (h : Hub) : Nat :=
  h.bel.timerAt + ofPilot ((min 500 (max 1 h.bel.ftime) * 32768 + 9999) / 10000)

/-- Does the fault timer expire now? -/
def Hub.timerOver (h : Hub) : Bool := h.gateOn && h.bit F.BLW_STAT_TIMER_RUN && decide (h.timerEnd ≤ h.now)

/-- One second in model ticks. -/
def oneSecond : Nat := 400000000

/-- The gate turns off for a cause: BL_PG falls with it, and the fault timer stops (R438). -/
def Hub.gateOff (h : Hub) (cause : Nat) : Hub :=
  let h := if h.bit F.BLW_STAT_PG then h.flag .blw F.BLW_FLAG_PG_FALL else h
  (((h.off F.BLW_STAT_PG).off F.BLW_STAT_VGS_OK).off F.BLW_STAT_TIMER_RUN).put F.BLW_STAT_CAUSE cause

/-- The state after a gate-off or at the end of an off time or a hold: a hold that stands, an off time that runs, else
IDLE (R440, R442, Table 15.3). -/
def Hub.blRest (h : Hub) : Hub :=
  h.blTo (if h.bel.stbyHold || h.bel.thermHold then blHOLD else if h.bel.offEnd.isSome then blOFFTIME else blIDLE)

/-- A fault ends the attempt: on time, counts, and LATCHED or an off time of max(100 × on time, 1 s) (R439). -/
def Hub.blFault (h : Hub) (cause : Nat) (f : Fld) : Hub :=
  let t := h.now - h.bel.onAt
  let h := ((h.gateOff cause).put F.BLW_ONT_TICKS (pilotTicks t)).flag .blw f
  let h := (h.countSat F.BLW_FCNT).countSat F.BLW_RETRY_CONSEC
  let m := h.fld F.BLW_RETRY_MAX
  if !h.bit F.BLW_CTL_RETRY_EN || (m != 0 && decide (m ≤ h.fld F.BLW_RETRY_CONSEC)) then
    (h.blTo blLATCHED).flag .blw F.BLW_FLAG_LATCHED
  else
    ((h.modBel fun b => { b with offEnd := some (h.now + max (100 * t) oneSecond) }).blTo blOFFTIME).flag .blw F.BLW_FLAG_RETRY

/-- The gate turns off without a fault: IDLE, no off time (R433, R435). -/
def Hub.blStop (h : Hub) (cause : Nat) : Hub := (h.gateOff cause).blTo blIDLE

/-- BELLOWS_START: BL_VIN lies in its window, and BL_EN and the holds allow a start (R432). -/
def execBellowsStart (s : State) : Host.Outcome State Fault Refusal :=
  let h := s.hub
  s.goes (if h.bl = blIDLE ∧ h.bit F.BLW_STAT_EN ∧ h.bel.stbyHold = false ∧ h.bel.thermHold = false then
    (h.blTo blRAMP).modBel fun b => { b with onAt := h.now, rampMax := h.fld F.BLW_GATE_RAMPMAX } else h)

/-- RAMP_DONE (R434). -/
def execRampDone (s : State) : Host.Outcome State Fault Refusal :=
  let h := s.hub
  s.goes (if h.bl = blRAMP then ((h.blTo blQUAL).on F.BLW_STAT_VGS_OK).modBel fun b => { b with qualAt := h.now } else h)

/-- RAMP_TIMEOUT: RAMPMAX has passed since the start of the ramp (R434). -/
def execRampTimeout (s : State) : Host.Outcome State Fault Refusal :=
  let h := s.hub
  s.goes (if h.bl = blRAMP ∧ h.bel.onAt + us (max 1 h.bel.rampMax * 10000) ≤ h.now then h.blFault 3 F.BLW_FLAG_RAMP else h)

/-- Does a trip come in this cycle? It wins over an undervoltage and over BL_EN falling (Table 15.3). -/
def State.tripComes (s : State) : Bool :=
  s.hub.gateOn && s.pending.any fun i => match i with
    | .fastTrip => true
    | .slowTrip => s.hub.timerOver
    | _ => false

/-- BL_EN_FALL (R435). -/
def execBlEnFall (s : State) : Host.Outcome State Fault Refusal :=
  let h := s.hub.off F.BLW_STAT_EN
  s.goes (if h.gateOn ∧ !s.tripComes then h.blStop 7 else h)

/-- BL_EN_RISE: a rising BL_EN leaves LATCHED (Table 15.2). -/
def execBlEnRise (s : State) : Host.Outcome State Fault Refusal :=
  let h := s.hub
  let up := h.on F.BLW_STAT_EN
  s.goes (if h.bl = blLATCHED ∧ h.bit F.BLW_STAT_EN = false then up.blRest else up)

/-- UNDERVOLTAGE (R433, R440). -/
def execUndervoltage (s : State) : Host.Outcome State Fault Refusal :=
  let h := s.hub
  s.goes (if h.gateOn ∧ !s.tripComes then (h.blStop 5).flag .blw F.BLW_FLAG_UV else h)

/-- OVERVOLTAGE (R433). -/
def execOvervoltage (s : State) : Host.Outcome State Fault Refusal :=
  let h := s.hub
  s.goes (if h.gateOn then (h.blStop 6).flag .blw F.BLW_FLAG_OV else h)

/-- BREAKER_LIMIT: the fault timer starts, with FTIME as it stands (R436, Table 15.3). -/
def execBreakerLimit (s : State) : Host.Outcome State Fault Refusal :=
  let h := s.hub
  s.goes (if h.gateOn ∧ h.bit F.BLW_STAT_TIMER_RUN = false then
    (h.on F.BLW_STAT_TIMER_RUN).modBel fun b => { b with timerAt := h.now, ftime := h.fld F.BLW_BRK_FTIME } else h)

/-- VS has stayed below 0.9 × VTH for a whole tick: the timer stops, and qualification starts over (R436, R438). At its
expiry the slow trip wins (Table 15.3). -/
def Hub.breakerClear (h : Hub) : Hub :=
  if h.timerOver then h.blFault 2 F.BLW_FLAG_SLOW
  else if h.bit F.BLW_STAT_TIMER_RUN ∧ h.bel.timerAt + ofPilot 1 ≤ h.now then
    (h.off F.BLW_STAT_TIMER_RUN).modBel fun b => { b with qualAt := h.now }
  else h

/-- BREAKER_CLEAR (R436). -/
def execBreakerClear (s : State) : Host.Outcome State Fault Refusal := s.goes s.hub.breakerClear

/-- SLOW_TRIP: the fault timer expires (R436). -/
def execSlowTrip (s : State) : Host.Outcome State Fault Refusal :=
  let h := s.hub
  s.goes (if h.timerOver then h.blFault 2 F.BLW_FLAG_SLOW else h)

/-- FAST_TRIP (R437). -/
def execFastTrip (s : State) : Host.Outcome State Fault Refusal :=
  let h := s.hub
  s.goes (if h.gateOn then h.blFault 1 F.BLW_FLAG_FAST else h)

/-- Does the fault timer start in this cycle? It wins over the 33rd qualifying tick (Table 15.3). -/
def State.timerComes (s : State) : Bool :=
  s.pending.any fun i => match i with
    | .breakerLimit => true
    | _ => false

/-- POWER_GOOD: 33 qualifying ticks have passed; a fault timer that runs wins (R438, Table 15.3). -/
def execPowerGood (s : State) : Host.Outcome State Fault Refusal :=
  let h := s.hub
  s.goes (if h.bl = blQUAL ∧ h.bit F.BLW_STAT_TIMER_RUN = false ∧ h.bel.qualAt + ofPilot 33 ≤ h.now ∧ !s.timerComes then
    (((h.blTo blON).on F.BLW_STAT_PG).modBel fun b => { b with pgAt := h.now }).flag .blw F.BLW_FLAG_PG_RISE else h)

/-- CONSEC_CLEAR: BL_PG has stayed high for 1 s (R439). -/
def execConsecClear (s : State) : Host.Outcome State Fault Refusal :=
  let h := s.hub
  s.goes (if h.bit F.BLW_STAT_PG ∧ h.bel.pgAt + oneSecond ≤ h.now then h.put F.BLW_RETRY_CONSEC 0 else h)

/-- OFFTIME_END (R440). -/
def execOfftimeEnd (s : State) : Host.Outcome State Fault Refusal :=
  let h := s.hub
  s.goes (match h.bel.offEnd with
    | none => h
    | some t => if h.now < t then h else (h.modBel fun b => { b with offEnd := none }).blRest)

/-- A write of BLW_CTL.CLEAR: ignored but in LATCHED (R443). -/
def Hub.blClear (h : Hub) : Hub := if h.bl = blLATCHED then h.blRest else h

/-- BELLOWS_CLEAR (R443). -/
def execBellowsClear (a : Access) (s : State) : Host.Outcome State Fault Refusal :=
  s.goes (s.hub.cmdWrite a 0x18000 fun h => some h.blClear)

/-- A thermal shutdown has the gate turned off and holds it (R425, R442). -/
def Hub.blThermal (h : Hub) : Hub :=
  let h := if h.gateOn then h.gateOff 9 else h
  ((h.modBel fun b => { b with thermHold := true, thermAt := h.now }).blTo blHOLD)

/-- The standby commit has the gate turned off and holds it (R418, R442). -/
def Hub.blStandby (h : Hub) : Hub :=
  let h := if h.gateOn then h.gateOff 8 else h
  ((h.modBel fun b => { b with stbyHold := true }).blTo blHOLD)

/-- THERMAL_HOLD_END, 10 s after the shutdown (R442). -/
def execThermalHoldEnd (s : State) : Host.Outcome State Fault Refusal :=
  let h := s.hub
  s.goes (if h.bel.thermHold ∧ h.bel.thermAt + 10 * oneSecond ≤ h.now then (h.modBel fun b => { b with thermHold := false }).blRest else h)

/-- Off time remaining, in CK_PILOT ticks (BLW_OFFT). -/
def Hub.offTicks (h : Hub) : Nat :=
  match h.bel.offEnd with
  | none => 0
  | some t => pilotTicks (t - h.now)

end Sys2Proof.Machine
end

