-- ==== Sys2Proof/Machine/Can.lean ====
section
/-! DEFINITION. The commands of the CAN FD controllers (04). -/

namespace Sys2Proof.Machine

/-- Offset of a controller's register. -/
def canReg (k : Fin 16) (o : Nat) : Nat := canBase k + o

/-- CAN_ENABLE (R122, R123). -/
def execCanEnable (a : Access) (k : Fin 16) (s : State) : Host.Outcome State Fault Refusal :=
  s.goes (s.hub.cmdWrite a (canReg k 0) fun h => h.canEnable k)

/-- CAN_DISABLE (R122). -/
def execCanDisable (a : Access) (k : Fin 16) (s : State) : Host.Outcome State Fault Refusal :=
  s.goes (s.hub.cmdWrite a (canReg k 0) fun h => some (h.canDisable k))

/-- Recovery from bus-off (R134). -/
def Hub.canRecover (h : Hub) (k : Fin 16) : Hub :=
  let h := h.modCan k fun c => { c with tec := 0, rec_ := 0 }
  let h := (h.put (F.CAN_STAT_ERRST k) 0).put (F.CAN_STAT_BOREC k) 128
  (h.canFlag k (F.CAN_FLAG_BUSON k)).canTo k canIDLE

/-- 11 consecutive recessive bits: integration ends, and bus-off counts them in BOREC, leaving at the 128th (R122, R134). -/
def Hub.canEleven (h : Hub) (k : Fin 16) : Hub :=
  if h.canSt k = canINTEGRATE then h.canTo k canIDLE
  else if h.canSt k = canBUSOFF then
    if 127 ≤ h.fld (F.CAN_STAT_BOREC k) then h.canRecover k else h.count (F.CAN_STAT_BOREC k)
  else h

/-- CAN_INTEGRATED: 11 consecutive recessive bits (R122, R134). -/
def execCanIntegrated (k : Fin 16) (s : State) : Host.Outcome State Fault Refusal :=
  s.goes (s.hub.canEleven k)

/-- CAN_RAMINIT: a K field of CTL (Table 4.2). -/
def execCanRaminit (a : Access) (k : Fin 16) (s : State) : Host.Outcome State Fault Refusal :=
  s.goes (s.hub.cmdWrite a (canReg k 0) fun h => if h.bit (F.CAN_CTL_EN k) then none else some (h.canRamInit k))

/-- CAN_RAMINIT_DONE: the 2,560 cycles have passed (Table 4.2). -/
def execCanRaminitDone (k : Fin 16) (s : State) : Host.Outcome State Fault Refusal :=
  s.goes (s.hub.off (F.CAN_CTL_RAMINIT k))

/-- A frame came to its end without error: stored, counted, and the bus is free (R127, R134). None reaches a controller
in loopback or with RXD taken, and FD frames are errors with FDOE = 0 (Table 4.2, R39). -/
def Hub.canReceived (h : Hub) (k : Fin 16) (f : CanFrame) : Hub :=
  if h.canSt k ≠ canRECEIVE ∨ h.canDeaf k ∨ (f.fdf ∧ !h.bit (F.CAN_CTL_FDOE k)) then h
  else
    let h := (h.canRxOk k).canStore k f
    if h.canSt k = canRECEIVE then h.canIdle k else h

/-- CAN_FRAME_RECEIVED (R127, R128). -/
def execCanFrameReceived (k : Fin 16) (f : CanFrame) (s : State) : Host.Outcome State Fault Refusal :=
  s.goes (s.hub.canReceived k f)

/-- CAN_TXREQ: a write of 1 to a TXREQ bit (R130). -/
def execCanTxreq (a : Access) (k : Fin 16) (j : Fin 128) (s : State) : Host.Outcome State Fault Refusal :=
  s.goes (s.hub.cmdWrite a (canReg k (0x50 + j / 32 * 4)) fun h => some (h.canTxReq k j))

/-- CAN_TXCANCEL: a write of 1 to a TXCANCEL bit (R133). -/
def execCanTxcancel (a : Access) (k : Fin 16) (j : Fin 128) (s : State) : Host.Outcome State Fault Refusal :=
  s.goes (s.hub.cmdWrite a (canReg k (0x60 + j / 32 * 4)) fun h => some (h.canCancel k j))

/-- CAN_SOF (R130). -/
def execCanSof (k : Fin 16) (s : State) : Host.Outcome State Fault Refusal :=
  s.goes (s.hub.canSof k)

/-- The attempt loses arbitration; the controller receives the winner (R131). -/
def Hub.canArbLost (h : Hub) (k : Fin 16) : Hub :=
  if h.canSt k ≠ canTRANSMIT then h else (h.canFail k 4).canTo k canRECEIVE

/-- CAN_ARB_LOST (R131). -/
def execCanArbLost (k : Fin 16) (s : State) : Host.Outcome State Fault Refusal :=
  s.goes (s.hub.canArbLost k)

/-- The loop delay measured in an FD frame sent with BRS: an outside value, free from TDCF on, since earlier edges are
ignored (R124). -/
def Hub.canTdc (h : Hub) (k : Fin 16) (f : CanFrame) : Hub :=
  if h.bit (F.CAN_TDC_TDCE k) && f.fdf && f.brs then
    let v := h.fld (F.CAN_TDC_TDCF k) + h.draw.1
    let h := h.draw.2.put (F.CAN_TDC_TDCV k) (min 255 v)
    if 255 < v then h.canFlag k (F.CAN_FLAG_TDC_SAT k) else h
  else h

/-- The attempt completes on the bus (R130, R133). -/
def Hub.canSent (h : Hub) (k : Fin 16) : Hub :=
  match (h.can[k]).att with
  | none => h
  | some a =>
    if h.canSt k ≠ canTRANSMIT then h
    else
      let f := h.canFrameOf k a.obj
      let h := h.canTdc k f
      let h := h.canCounts k ((h.can[k]).tec - 1) (h.can[k]).rec_
      let h := h.modCan k fun c =>
        { c.setWord a.obj 3 ((c.word a.obj 3 &&& 0xFFFF0000#32) ||| BitVec.ofNat 32 (c.sof / 16 % 65536)) with att := none }
      let h := h.canEnd k a.obj (if a.cancelled then 3 else 1)
      let h := if h.bit (F.CAN_CTL_LOOP k) then h.canStore k f else h
      if h.canSt k = canTRANSMIT then h.canIdle k else h

/-- CAN_FRAME_SENT (R130). -/
def execCanFrameSent (k : Fin 16) (s : State) : Host.Outcome State Fault Refusal :=
  s.goes (s.hub.canSent k)

/-- The measurement of R124 in a frame that ends in an error: made where the error lies after the FDF bit, as an ACK or
data-phase error does, not made in arbitration, and a free choice elsewhere. -/
def Hub.canErrorTdc (h : Hub) (k : Fin 16) (e : CanError) : Hub :=
  match (h.can[k]).att with
  | none => h
  | some a =>
    if e.stuffInArb then h
    else if e.dataPhase || e.code == 3 then h.canTdc k (h.canFrameOf k a.obj)
    else if h.draw.1 % 2 = 1 then h.draw.2.canTdc k (h.canFrameOf k a.obj) else h.draw.2

/-- An error ends the frame (R131, R132, R134; the counting rules of ISO 11898-1, log entry 16). LEC and DLEC keep the
last error, and a one-shot clash whose error leads to bus-off ends FAIL_BUSOFF (DESIGN CHOICE, log entry 122). -/
def Hub.canError (h : Hub) (k : Fin 16) (e : CanError) : Hub :=
  let tx := h.canSt k == canTRANSMIT
  if !tx && h.canSt k != canRECEIVE then h
  else
    let h := if tx then h.canErrorTdc k e else h
    let h := h.countSat (F.CAN_ECNT_CEL k)
    let h := h.put (if e.dataPhase then F.CAN_STAT_DLEC k else F.CAN_STAT_LEC k) e.code.toNat
    let c := h.can[k]
    let clash := tx && e.ctrlOrData && (e.code == 4 || e.code == 5)
    let h := match c.att with
      | some a => if clash then
          ((h.modCan k fun c => c.setWord a.obj 3 (c.word a.obj 3 ||| 0x00080000#32)).countSat
            (F.CAN_CLASHCNT k)).canFlag k (F.CAN_FLAG_CLASH k) else h
      | none => h
    let quiet := (e.passiveNoDominant && e.code == 3 && h.fld (F.CAN_STAT_ERRST k) == 1) || (e.stuffInArb && e.code == 1)
    let tec := if tx && !quiet then c.tec + 8 else c.tec
    let rec_ := if tx then c.rec_ else c.rec_ + 1 + (if e.dominantAfterFlag then 8 else 0)
    let h := h.canFail k (if 255 < tec then 7 else if clash then 6 else 5)
    let h := h.canCounts k tec rec_
    if 255 < tec then (if (h.can[k]).closing then h.canOff k else h) else h.canIdle k

/-- CAN_BUS_ERROR (R134). -/
def execCanBusError (k : Fin 16) (e : CanError) (s : State) : Host.Outcome State Fault Refusal :=
  s.goes (s.hub.canError k e)

/-- CAN_BUSOFF_RECOVER: the 128th occurrence of 11 recessive bits, with the first 127 counted (R134). -/
def execCanBusoffRecover (k : Fin 16) (s : State) : Host.Outcome State Fault Refusal :=
  s.goes (if s.hub.canSt k = canBUSOFF ∧ 127 ≤ s.hub.fld (F.CAN_STAT_BOREC k) then s.hub.canRecover k else s.hub)

/-- A write of CTL.SLEEP (R137, R138). -/
def Hub.canSleepBit (h : Hub) (k : Fin 16) (on : Bool) : Hub :=
  if on then h.on (F.CAN_CTL_SLEEP k) else if h.canAsleep k then h.canWakeUp k else h.off (F.CAN_CTL_SLEEP k)

/-- CAN_SLEEP_REQUEST (R137). -/
def execCanSleepRequest (a : Access) (k : Fin 16) (on : Bool) (s : State) : Host.Outcome State Fault Refusal :=
  s.goes (s.hub.cmdWrite a (canReg k 0) fun h => some (h.canSleepBit k on))

/-- CAN_SLEEP_ENTER: 11 idle bits with SLEEP set and no request pending (R137). -/
def execCanSleepEnter (k : Fin 16) (s : State) : Host.Outcome State Fault Refusal :=
  let h := s.hub
  s.goes (if h.bit (F.CAN_CTL_SLEEP k) && h.canSt k == canIDLE && (h.can[k]).txreq == 0 then
    h.canTo k (if h.fld (F.CAN_WAKE_MODE k) = 1 then canSLEEPF else canSLEEPE) else h)

/-- The object that defines the wake frame (Table 4.6). -/
def Hub.canWobj (h : Hub) (k : Fin 16) : Fin 128 := ⟨h.fld (F.CAN_WAKE_WOBJ k) % 128, Nat.mod_lt _ (by decide)⟩

/-- Does a frame match the wake settings (R138, Table 4.6)? -/
def Hub.canWakes (h : Hub) (k : Fin 16) (f : CanFrame) : Bool :=
  let c := h.can[k]
  let j := h.canWobj k
  let m := BitVec.ofNat 8 (h.fld (F.CAN_WAKE_WMASK k))
  !f.brs && (c.word j 0).getLsbD 30 == f.ide &&
    ((f.ident.setWidth 32 ^^^ c.word j 1) &&& c.word j 2).extractLsb' 0 29 == 0 &&
    (m == 0 || (!f.data.isEmpty && ((f.data.getD 0 0 ^^^ BitVec.ofNat 8 (h.fld (F.CAN_WAKE_WBYTE k))) &&& m) == 0))

/-- A frame decoded in SLEEP_FRAME: the wake object's words are read with their parity, and a match wakes and is stored
(R135, R137, R138). -/
def Hub.canWakeFrame (h : Hub) (k : Fin 16) (f : CanFrame) : Hub :=
  if h.canSt k ≠ canSLEEPF ∨ h.canDeaf k ∨ (f.fdf ∧ !h.bit (F.CAN_CTL_FDOE k)) then h
  else match (h.can[k]).firstBad (h.canWobj k) [0, 1, 2] with
    | some i => h.canStop k i
    | none => if h.canWakes k f then (h.canWakeUp k).canStore k f else h

/-- CAN_WAKE (R138). -/
def execCanWake (k : Fin 16) (why : CanWake) (s : State) : Host.Outcome State Fault Refusal :=
  let h := s.hub
  s.goes (match why with
    | .dominant => if h.canSt k = canSLEEPE ∧ !h.canTaken k 1 then h.canWakeUp k else h
    | .frame f => h.canWakeFrame k f
    | .request => if h.canAsleep k then h.canWakeUp k else h)

/-- CAN_TUNNEL_SEND (R140). -/
def execCanTunnelSend (k : Fin 16) (s : State) : Host.Outcome State Fault Refusal :=
  s.goes (s.hub.canTunnelSend k)

/-- The protocol exception event ends the frame: integration, or OFF where a disable waits (Table 4.2, R122). -/
def Hub.canException (h : Hub) (k : Fin 16) : Hub :=
  if h.canSt k = canRECEIVE ∧ h.bit (F.CAN_CTL_PXHD k) = false then
    let h := h.canFlag k (F.CAN_FLAG_PXE k)
    if (h.can[k]).closing then h.canOff k else h.canTo k canINTEGRATE
  else h

/-- CAN_PROTOCOL_EXCEPTION (Table 4.2: PXHD, PXE). -/
def execCanProtocolException (k : Fin 16) (s : State) : Host.Outcome State Fault Refusal :=
  s.goes (s.hub.canException k)

end Sys2Proof.Machine
end

