-- ==== Sys2Proof/Machine/Ptp.lean ====
section
/-! DEFINITION. PTP frames: stamps, the transparent clock and the timestamp queues (05 R166-R169). The places of fields
in a PTP message are those of IEEE 1588-2019 (log entry 38). -/

namespace Sys2Proof.Machine

/-- Change a port's timestamp unit. -/
def Hub.modTs (h : Hub) (l : Fin 4) (g : Ts → Ts) : Hub := { h with ts := h.ts.set l (g h.ts[l]) }

/-- A stamp taken now: within 4 ns of Gnomon time (R167). -/
def Hub.stamp (h : Hub) : Hub × GTime :=
  (h.draw.2, GTime.ofInt ((h.gno.t.units : Nat) + (h.draw.1 % (8 * 2 ^ 24 + 1) : Nat) - (4 * 2 ^ 24 : Nat)))

/-- A receive stamp: TS_ASYM, signed in 0.25 ns, is added (R167). -/
def Hub.rxStamp (h : Hub) (l : Fin 4) : Hub × GTime :=
  let r := h.stamp
  (r.1, GTime.ofInt ((r.2.units : Nat) + signed 16 (h.fld (F.TS_ASYM_ASYM l)) * (2 ^ 22 : Nat)))

/-- messageType, twoStepFlag, domainNumber, sequenceId, correctionField of a message. -/
def ptpType (pay : List Byte) : Nat := (pay.getD 0 0).toNat % 16
def ptpTwoStep (pay : List Byte) : Bool := (pay.getD 6 0).getLsbD 1
def ptpDom (pay : List Byte) : Byte := pay.getD 4 0
def ptpSeq (pay : List Byte) : BitVec 16 := pay.getD 30 0 ++ pay.getD 31 0
def ptpCorr (pay : List Byte) : BitVec 64 := beWord (pay.drop 8) ++ beWord (pay.drop 12)

/-- A message with an amount in 2^-16 ns added to its correctionField. -/
def ptpAdd (pay : List Byte) (d : Int) : List Byte :=
  let c := ptpCorr pay + BitVec.ofInt 64 d
  pay.take 8 ++ beBytes (c.extractLsb' 32 32) ++ beBytes (c.extractLsb' 0 32) ++ pay.drop 16

/-- The transparent clock at an egress port (R168): a one-step Sync takes residence and ingress link delay itself, a
two-step one leaves them for its Follow_Up. -/
def Hub.ptpCorrect (h : Hub) (l : Fin 4) (ing : Fin 4) (res : Int) (pay : List Byte) : Hub × List Byte :=
  if !h.bit (F.TS_CTL_TC_EN l) || !h.bit (F.TS_CTL_EN l) then (h, pay)
  else
    let d : Int := res / 256 + (h.fld (F.TS_LINKDLY_DLY ing) * 256 : Nat)
    if ptpType pay = 0 then
      if ptpTwoStep pay then
        if (h.ts[l]).fup.length < 16 then (h.modTs l fun t => { t with fup := t.fup ++ [(ptpDom pay, ptpSeq pay, d)] }, pay)
        else (h, pay)
      else (h, ptpAdd pay d)
    else if ptpType pay = 8 then
      match (h.ts[l]).fup.find? fun e => e.1 == ptpDom pay && e.2.1 == ptpSeq pay with
      | some e => (h.modTs l fun t => { t with fup := t.fup.erase e }, ptpAdd pay e.2.2)
      | none => (h.countSat (F.TS_TC_FUPMISS l), pay)
    else (h, pay)

/-- The stored PTP frame that has just been queued keeps its receive stamp. -/
def Hub.ptpQueued (h : Hub) (t : GTime) : Hub :=
  { h with sw := { h.sw with q := h.sw.q.map fun l => l.map fun f =>
      if f.hdr.typ == tPTP && f.ing.val < 4 && f.rx.isNone then { f with rx := some t } else f } }

/-- A PTP frame received at `t` goes on by a link: cut through it takes its residence, the egress stamp less the ingress
stamp, before it leaves; stored, when it leaves (R168). -/
def Hub.ptpTransit (h : Hub) (p l : Fin 4) (f : Frame) (t : GTime) (good : Bool) : Hub :=
  let wrapped := (l == 0 && h.bit F.RNG_STAT_WRAPE) || (l == 1 && h.bit F.RNG_STAT_WRAPW)
  if !wrapped && h.linkIsUp l && !h.tooLong l f && h.mayStart l f.hdr.tc.toNat f.pay.length then
    let e := h.stamp
    let r := e.1.ptpCorrect l p ((e.2.units : Nat) - (t.units : Nat)) f.pay
    r.1.emitOn l { f with pay := r.2 } good
  else (h.transit ⟨p.val, by omega⟩ l f good).ptpQueued t

/-- A PTP frame goes on to the other ring port. -/
def Hub.ptpForward (h : Hub) (p : Fin 4) (f : Frame) (t : GTime) (good : Bool) : Hub :=
  if f.hdr.hops = 0 then (h.count F.RNG_HOPDROP).flag .rng F.RNG_FLAG_HOPDROP
  else h.ptpTransit p (if p = 0 then 1 else 0) { f with hdr := { f.hdr with hops := f.hdr.hops - 1 } } t good

/-- A PTP frame for this hub goes to the Host port with its receive stamp. -/
def Hub.ptpDeliver (h : Hub) (p : Fin 4) (f : Frame) (t : GTime) : Hub :=
  ((h.enqueue 4 ⟨p.val, by omega⟩ f).1).ptpQueued t

/-- Is a message part of the delay request-response mechanism: Delay_Req or Delay_Resp (R166)? -/
def ptpDelay (pay : List Byte) : Bool := ptpType pay == 1 || ptpType pay == 9

/-- A PTP frame that passed the checks of R269 arrives at a port (R272, R275). Delay request-response messages on a ring
link are dropped and counted (R166). -/
def Hub.onPtp (h : Hub) (p : Fin 4) (f : Frame) (good : Bool) : Hub :=
  if p.val < 2 ∧ ptpDelay f.pay then h.modTs p fun t => { t with drop := t.drop + 1 }
  else
  let r := h.rxStamp p
  let h := r.1
  let dn := f.hdr.dnode.toNat
  if dn = 0 ∨ (dn = h.node ∧ f.hdr.dmem.toNat = h.member) then (if good then h.ptpDeliver p f r.2 else h)
  else if dn = h.node ∧ h.node ≠ 0 ∧ f.hdr.snode.toNat ≠ h.node then
    (if good then ((h.route ((h.portTo f.hdr.dnode f.hdr.dmem).getD 5) ⟨p.val, by omega⟩ f).1).ptpQueued r.2 else h)
  else if 2 ≤ p.val then h
  else if f.hdr.snode.toNat = h.node ∧ h.node ≠ 0 ∧ f.hdr.w = false then (if dn = 255 then h else h.count F.RNG_NODEST)
  else if dn = 255 then (if good then h.ptpDeliver p f r.2 else h).ptpForward p f r.2 good
  else h.ptpForward p f r.2 good

/-- PTP (R168). -/
def execPtp (port : Fin 4) (f : Frame) (s : State) : Host.Outcome State Fault Refusal := s.goes (s.hub.onPtp port f true)

/-- A transmit stamp enters its port's queue, or is discarded and counted (R169). -/
def Hub.txStamp (h : Hub) (l : Fin 4) (seq : BitVec 16) (dom : Byte) (typ : BitVec 4) : Hub :=
  if !h.bit (F.TS_CTL_EN l) then h
  else if (h.ts[l]).q.length < 16 then
    let r := h.stamp
    r.1.modTs l fun t => { t with q := t.q ++ [{ seq := seq, dom := dom, typ := typ, t := r.2 }] }
  else (h.hwSet (F.TS_TSQ_STAT_OVF l)).countSat (F.TS_TSQ_OVFCNT l)

/-- PTP_TX_STAMP (R169). -/
def execPtpTxStamp (port : Fin 4) (seq : BitVec 16) (dom : Byte) (typ : BitVec 4) (s : State) :
    Host.Outcome State Fault Refusal := s.goes (s.hub.txStamp port seq dom typ)

/-- TWO_STEP_EXPIRE (R168). -/
def execTwoStepExpire (port : Fin 4) (dom : Byte) (seq : BitVec 16) (s : State) : Host.Outcome State Fault Refusal :=
  s.goes (s.hub.modTs port fun t => { t with fup := t.fup.filter fun e => !(e.1 == dom && e.2.1 == seq) })

/-- TSQ_POP (R171). -/
def execTsqPop (a : Access) (port : Fin 4) (s : State) : Host.Outcome State Fault Refusal :=
  s.goes (s.hub.cmdWrite a (tsBase port + 0x20) fun h => some (h.modTs port fun t => { t with q := t.q.drop 1 }))

end Sys2Proof.Machine
end

