-- ==== Sys2Proof/Machine/Power.lean ====
section
/-! DEFINITION. Power domains and their sequencer, standby and the Pilot, clocks, thermal protection and the Dimmer
(14 R407-R428; 08 R262). The ends of the steps of Tables 14.2 and 14.3 arrive as commands, which the durations hold back. -/

namespace Sys2Proof.Machine

/-! ## Domains (Table 14.1, R409) -/

/-- The clusters' domain. -/
def clusterDom (c : Fin 8) : Fin 26 := ⟨18 + c.val, by omega⟩

/-- The cluster of domains 18-25. -/
def domCluster (d : Fin 26) : Option (Fin 8) := if h : 18 ≤ d.val then some ⟨d.val - 18, by omega⟩ else none

/-- The parent of a domain. -/
def domParent (d : Fin 26) : Option (Fin 26) :=
  if d.val = 0 then none else if d.val ≤ 7 ∨ d.val = 17 then some 0 else if d.val ≤ 16 then some 3 else some 17

/-- May a domain enter retention? -/
def domRet (d : Fin 26) : Bool := (4 ≤ d.val && d.val ≤ 7) || d.val == 13 || d.val == 15 || d.val == 16 || 18 ≤ d.val

/-- The blocks of a domain, in the order of Table 14.4. The fuse array has the unit of the block that holds its
registers. -/
def domUnits (d : Fin 26) : List UnitAt :=
  match domCluster d with
  | some c => (List.range 8).map (fun i => laneUnit (8 * c.val + i)) ++ [reedUnit c, canUnit (2 * c.val), canUnit (2 * c.val + 1)]
  | none =>
    if d.val = 0 then [fUnit 0x1E] else if d.val = 1 then [fUnit 0x01] else if d.val = 2 then [fUnit 0x1F]
    else if d.val = 3 then [fUnit 0x10] else if d.val ≤ 7 then [fUnit 0x11] else if d.val = 8 then [fUnit 0x12]
    else if d.val ≤ 12 then [linkUnit (d.val - 9)] else if d.val = 13 then [fUnit 0x1B] else if d.val = 14 then [fUnit 0x1C]
    else if d.val = 15 then (List.range 4).map rfxUnit else if d.val = 16 then (List.range 4).map fun i => rfxUnit (4 + i)
    else [{ pdie := true, code := 0x0A }]

/-- Block i of a domain. -/
def domUnit (d : Fin 26) (i : Nat) : UnitAt := (domUnits d).getD i (fUnit 0)

/-- STATE and PHASE of a domain. -/
def Hub.dst (h : Hub) (d : Fin 26) : Nat := h.fld (F.PWR_STATE_STATE d)
def Hub.dph (h : Hub) (d : Fin 26) : Nat := h.fld (F.PWR_STATE_PHASE d)

/-- Change the sequencer of a domain. -/
def Hub.modDom (h : Hub) (d : Fin 26) (g : Dom → Dom) : Hub :=
  { h with pwr := { h.pwr with dom := h.pwr.dom.set d (g h.pwr.dom[d]) } }

/-- Change the power state that stands beside the domains. -/
def Hub.modPwr (h : Hub) (g : Pwr → Pwr) : Hub := { h with pwr := g h.pwr }

/-- The child that forbids a domain a target: one that is ON, or for OFF one that is not OFF (R409). -/
def Hub.domChild (h : Hub) (d : Fin 26) (tgt : Nat) : Option (Fin 26) :=
  (List.finRange 26).find? fun e =>
    domParent e == some d && (h.dph e == 5 || h.dst e == 0 || (tgt == 2 && h.dst e != 2))

/-! ## Quiesce answers (Table 14.4) -/

/-- A block's answer: it agrees, waits (with the reason it would state at once, were it not waiting), or refuses. -/
inductive Quiesce where
  | agree | wait | refuse (reason : Nat)
  deriving DecidableEq, Repr

/-- The answer to a condition that is refused at once. -/
def Quiesce.need (ok : Bool) (reason : Nat) : Quiesce := if ok then .agree else .refuse reason

def rsACTIVE : Nat := 1
def rsQUEUE : Nat := 2
def rsTIMEOUT : Nat := 3
def rsCLOCKED : Nat := 4
def rsNO_OFF : Nat := 5
def rsIN_USE : Nat := 6
def rsCHILD : Nat := 7
def rsPARENT : Nat := 8
def rsWAKE_PENDING : Nat := 9

/-- STAT.BUSY = 0 and TX_CNT = 0. -/
def Hub.laneQuiet (h : Hub) (n : Fin 64) : Bool :=
  let l := h.lane n
  l.tx.q.isEmpty && l.cur.isNone && !l.open_ && l.dev.isEmpty && l.sample.isNone

/-- The answer of a CAN controller for a target. -/
def Hub.canQuiesce (h : Hub) (k : Fin 16) (tgt : Nat) : Quiesce :=
  let s := h.canSt k
  if s = canOFF ∨ s = canSTOPPED then .agree
  else if s = canSLEEPE then .need (tgt == 1) rsNO_OFF
  else .refuse (if s = canSLEEPF then rsCLOCKED else rsACTIVE)

/-- The answer of block i of a cluster. -/
def Hub.clusterQuiesce (h : Hub) (c : Fin 8) (i tgt : Nat) : Quiesce :=
  if hi : i < 8 then (if h.laneQuiet ⟨8 * c.val + i, by omega⟩ then .agree else .wait)
  else if i = 8 then
    if h.bit (F.REED_STAT_ACTIVE c) then .refuse rsACTIVE else .need (h.reed[c]).q.isEmpty rsQUEUE
  else h.canQuiesce ⟨2 * c.val + (if i = 9 then 0 else 1), by split <;> omega⟩ tgt

/-- Every DMA ring is stopped. -/
def Hub.ringsOff (h : Hub) : Bool :=
  (List.range 8).all fun i => !h.bit (F.HST_TXR_CTL_EN i) && !h.bit (F.HST_RXR_CTL_EN i)

/-- The answer of block i of a domain. -/
def Hub.quiesce (h : Hub) (d : Fin 26) (i tgt : Nat) : Quiesce :=
  match domCluster d with
  | some c => h.clusterQuiesce c i tgt
  | none =>
    if d.val = 2 then
      .need (!h.bit F.DRN_CTL_EN && (List.range 4).all fun g => !h.bit (F.GNO_PG_CTL_EN g)) rsACTIVE
    else if 3 ≤ d.val ∧ d.val ≤ 7 then .need (!h.bit F.SWC_CTL_EN) rsIN_USE
    else if d.val = 8 then .need (!h.bit F.BRG_CTL_EN) rsACTIVE
    else if 9 ≤ d.val ∧ d.val ≤ 12 then
      .need (!h.bit (F.X_CTL_EN (d.val - 9)) && h.fld (F.X_STAT_STATE (d.val - 9)) == 0) rsACTIVE
    else if d.val = 13 then .need (h.spillUsed == 0 && (tgt == 1 || !h.bit F.DRM_CTL_EN)) rsIN_USE
    else if d.val = 14 then .need (h.ringsOff && !h.hst.answers) rsACTIVE
    else if d.val = 15 ∨ d.val = 16 then
      .need (!h.bit (F.RFX_STAT_ACTIVE ((d.val - 15) * 4 + i))) rsACTIVE
    else .agree

/-! ## What a domain loses (R408) -/

/-- The TILE quarter of a domain is filled with zero tiles of correct check value. -/
def Hub.tileZero (h : Hub) (q : Nat) : Hub :=
  { h with tl := { h.tl with mem := h.tl.mem.clear (q * 1048576) (q * 1048576 + 1048575),
                             chk := h.tl.chk.clear (q * 4096) (q * 4096 + 4095) } }

/-- The cores of a domain lose everything but their TCMs, which RET keeps. -/
def Hub.coresLost (h : Hub) (d : Nat) (ret : Bool) : Hub :=
  (List.finRange 4).foldl (fun h (i : Fin 4) =>
    let n : Fin 8 := ⟨((d - 15) * 4 + i.val) % 8, Nat.mod_lt _ (by decide)⟩
    let h := h.modCore n fun c =>
      if ret then { itcm := c.itcm, dtcm := c.dtcm, iecc := c.iecc, decc := c.decc } else {}
    h.resetRange (rfxBase n) (rfxBase n + 0xFFF)) h

/-- A domain reaches RET or OFF and loses what Table 14.1 does not keep; a domain that comes back starts from this. -/
def Hub.domLose (h : Hub) (d : Fin 26) (tgt : Nat) : Hub :=
  match domCluster d with
  | some c => if tgt = 2 then h.clusterClear c else h
  | none =>
    if d.val = 2 then { h.resetRange 0x60000 0x6FFFF with gno := {} }
    else if d.val = 3 then
      let h := (h.resetRange 0x84000 0x86FFF).resetRange 0xA0000 0xAFFFF
      { h.resetRange 0xE8000 0xEFFFF with
        sw := {}, ring := {}, drn := {}, pim := {}, tl := { mem := h.tl.mem, chk := h.tl.chk } }
    else if 4 ≤ d.val ∧ d.val ≤ 7 then (if tgt = 2 then h.tileZero (d.val - 4) else h)
    else if d.val = 8 then { h.resetRange 0xB0000 0xBFFFF with brg := {} }
    else if hl : 9 ≤ d.val ∧ d.val ≤ 12 then
      let l : Fin 4 := ⟨d.val - 9, by omega⟩
      let h := (h.resetRange (linkBase l) (linkBase l + 0x3FFF)).resetRange (tsBase l) (tsBase l + 0xFFF)
      let h : Hub := { h with link := h.link.set l {}, ts := h.ts.set l {} }
      if d.val = 11 then { h.resetRange 0x98000 0x9FFFF with lamp := {} } else h
    else if d.val = 13 then
      if tgt = 2 then { h.resetRange 0xC0000 0xCFFFF with dram := [] }
      else h.resetRangeBut 0xC0000 0xCFFFF (F.DRM_STAT_TRAINED :: (List.range 16).map fun i => F.DRM_TRAINVAL_V i)
    else if d.val = 14 then { h.resetRange 0xD0000 0xDFFFF with hst := {} }
    else if d.val = 15 ∨ d.val = 16 then h.coresLost d (tgt == 1)
    else h

/-! ## The sequencer (R410-R415) -/

/-- The sequencer's flag. -/
def Hub.pwrFlag (h : Hub) (f : Fld) : Hub := h.flag .pwr f

/-- A transition of a domain ends: idle, with a RESULT. -/
def Hub.domEnd (h : Hub) (d : Fin 26) (result : Nat) : Hub :=
  (((h.put (F.PWR_STATE_PHASE d) 0).put (F.PWR_STATE_TARGET d) 0).put (F.PWR_STATE_RESULT d) result).modDom d fun _ => {}

/-- A request completes DONE. -/
def Hub.domDone (h : Hub) (d : Fin 26) : Hub := (h.domEnd d 1).pwrFlag F.PWR_FLAG_DONE

/-- A refusal is recorded (R413). -/
def Hub.domRefused (h : Hub) (d : Fin 26) (reason : Nat) (u : UnitAt) : Hub :=
  let h := ((h.domEnd d 2).put F.PWR_REFUSE_REASON reason).put F.PWR_REFUSE_UNIT (h.unit u).toNat
  (h.count F.PWR_REFUSECNT).pwrFlag F.PWR_FLAG_REFUSED

/-- The agreed blocks are released: a cluster's lanes let go of the keepers this entry gripped. A lane in RESET keeps
its keepers (R22). -/
def Hub.domRelease (h : Hub) (d : Fin 26) : Hub :=
  match domCluster d with
  | none => h
  | some c =>
    let e := h.pwr.dom[d]
    (List.finRange 8).foldl (fun h (i : Fin 8) =>
      let n : Fin 64 := ⟨8 * c.val + i.val, by omega⟩
      if i.val < e.agreed && h.ln n != lnRESET then h.modLane n fun l => { l with keep := e.kept.getLsbD i } else h) h

/-- Block i agrees and stops: a lane's pins go to their keepers. -/
def Hub.domAgree (h : Hub) (d : Fin 26) : Hub :=
  let e := h.pwr.dom[d]
  let h := match domCluster d with
    | some c =>
      if hi : e.agreed < 8 then
        let n : Fin 64 := ⟨8 * c.val + e.agreed, by omega⟩
        let was := (h.lane n).keep
        let h := if was then h else h.grip n
        (h.modLane n fun l => { l with keep := true }).modDom d fun e =>
          { e with kept := if was then e.kept ||| BitVec.twoPow 8 e.agreed else e.kept }
      else h
    | none => h
  h.modDom d fun e => { e with agreed := e.agreed + 1, at_ := h.now }

/-- A request replaces one not yet ended (R414, R415). -/
def Hub.domReplaced (h : Hub) : Hub := (h.count F.PWR_SUPERCNT).pwrFlag F.PWR_FLAG_SUPERSEDED

/-- The entry is given up for ON: released, RESULT SUPERSEDED (R414). -/
def Hub.domUnwound (h : Hub) (d : Fin 26) : Hub := (h.domRelease d).domEnd d 3

/-- A block refuses: released, the refusal recorded (R413). -/
def Hub.domUnwindRefused (h : Hub) (d : Fin 26) (reason : Nat) (u : UnitAt) : Hub :=
  (h.domRelease d).domRefused d reason u

/-- An exit to ON begins (R411), unless the parent is not ON (R412). -/
def Hub.domExit (h : Hub) (d : Fin 26) : Hub :=
  match (domParent d).filter fun p => h.dst p != 0 with
  | some p => h.domRefused d rsPARENT (domUnit p 0)
  | none => ((h.put (F.PWR_STATE_PHASE d) 5).put (F.PWR_STATE_TARGET d) 0).modDom d fun e => { e with exit := 1, at_ := h.now }

/-- A target is put to a domain: at its start, before its commit point, or held behind a transition (R410-R415). From
RET to OFF or back the domain passes ON (log entry 37). -/
def Hub.domAsk (h : Hub) (d : Fin 26) (tgt : Nat) : Hub :=
  let ph := h.dph d
  if ph = 0 then
    if tgt = h.dst d then h.domDone d
    else if tgt = 0 then h.domExit d
    else if h.dst d = 0 then
      match h.domChild d tgt with
      | some e => h.domRefused d rsCHILD (domUnit e 0)
      | none => ((h.put (F.PWR_STATE_PHASE d) 1).put (F.PWR_STATE_TARGET d) tgt).modDom d fun _ =>
          { at_ := h.now, qt := h.fld F.PWR_QTIME_US }
    else
      let h := h.domExit d
      if h.dph d = 5 then (h.on (F.PWR_STATE_PEND d)).put (F.PWR_STATE_PTARGET d) tgt else h
  else if ph ≤ 3 then
    let h := h.domReplaced
    if tgt = 0 then
      if ph = 1 then h.domUnwound d
      else (h.put (F.PWR_STATE_TARGET d) 0).modDom d fun e => { e with back := true }
    else (h.put (F.PWR_STATE_TARGET d) tgt).modDom d fun e => { e with back := false, recheck := true }
  else
    let h := if h.bit (F.PWR_STATE_PEND d) then h.domReplaced else h
    (h.on (F.PWR_STATE_PEND d)).put (F.PWR_STATE_PTARGET d) tgt

/-- The pending request of a domain runs (R415). -/
def Hub.domPending (h : Hub) (d : Fin 26) : Hub :=
  if h.bit (F.PWR_STATE_PEND d) then
    let t := h.fld (F.PWR_STATE_PTARGET d)
    ((h.off (F.PWR_STATE_PEND d)).put (F.PWR_STATE_PTARGET d) 0).domAsk d t
  else h

/-- A CAN controller that agreed in SLEEP_EDGE is asked again for the new target (R414). -/
def Hub.domAgain (h : Hub) (d : Fin 26) (tgt : Nat) : Option (Nat × UnitAt) :=
  match domCluster d with
  | none => none
  | some c =>
    let e := h.pwr.dom[d]
    if !e.recheck then none
    else
      let ask (k : Fin 16) (i : Nat) : Option (Nat × UnitAt) :=
        if i < e.agreed then match h.canQuiesce k tgt with
          | .refuse r => some (r, canUnit k)
          | _ => none
        else none
      (ask ⟨2 * c.val, by omega⟩ 9).or (ask ⟨2 * c.val + 1, by omega⟩ 10)

/-- An abort point: a target that became ON, a controller asked again, and R409 for the target; else the next phase. -/
def Hub.domAbort (h : Hub) (d : Fin 26) (next : Nat) : Hub :=
  let tgt := h.fld (F.PWR_STATE_TARGET d)
  if (h.pwr.dom[d]).back then h.domUnwound d
  else match h.domAgain d tgt with
    | some r => h.domUnwindRefused d r.1 r.2
    | none => match h.domChild d tgt with
      | some e => h.domUnwindRefused d rsCHILD (domUnit e 0)
      | none => (h.put (F.PWR_STATE_PHASE d) next).modDom d fun e => { e with recheck := false, at_ := h.now }

/-- The next block answers its quiesce request; after the last comes A1. -/
def Hub.domStep1 (h : Hub) (d : Fin 26) : Hub :=
  let e := h.pwr.dom[d]
  match h.quiesce d e.agreed (h.fld (F.PWR_STATE_TARGET d)) with
  | .wait => h
  | .refuse r => h.domUnwindRefused d r (domUnit d e.agreed)
  | .agree =>
    let h := h.domAgree d
    if e.agreed + 1 < (domUnits d).length then h else h.domAbort d 2

/-- A step of an exit ends. Step 2 is for TILE quarters from OFF alone (Table 14.3). -/
def Hub.domStep5 (h : Hub) (d : Fin 26) : Hub :=
  h.modDom d fun e =>
    { e with at_ := h.now, exit := if e.exit = 1 ∧ ¬(4 ≤ d.val ∧ d.val ≤ 7 ∧ h.dst d = 2) then 3 else min 5 (e.exit + 1) }

/-- The time the present step of a domain takes, in ticks (Tables 14.2, 14.3). -/
def Hub.domTime (h : Hub) (d : Fin 26) : Nat :=
  let ph := h.dph d
  if ph = 1 ∨ ph = 3 then 16
  else if ph = 2 then 64
  else if ph = 4 then (if h.fld (F.PWR_STATE_TARGET d) = 1 then 400 else 800)
  else match (h.pwr.dom[d]).exit with
    | 1 => if h.dst d = 2 then 8000 else 400
    | 2 => if h.bit F.CLK_DIMSTAT_SLOW then 26215 else 13108
    | 3 => 16
    | 4 => 64
    | _ => 16 * (domUnits d).length

/-- Has the present step of a domain taken its time? -/
def Hub.domDue (h : Hub) (d : Fin 26) : Bool := decide ((h.pwr.dom[d]).at_ + h.domTime d ≤ h.now)

/-- A step of an entry or exit ends. -/
def Hub.domStep (h : Hub) (d : Fin 26) : Hub :=
  let ph := h.dph d
  if !h.domDue d then h
  else if ph = 1 then h.domStep1 d
  else if ph = 2 then h.domAbort d 3
  else if ph = 3 then h.domAbort d 4
  else if ph = 5 then h.domStep5 d
  else h

/-- What a domain starts with when it is ON again (R408): a cluster from RET lets its pins go, one from OFF, or reset in
the meantime, comes back unconfigured. -/
def Hub.domBack (h : Hub) (d : Fin 26) (from_ : Nat) : Hub :=
  match domCluster d with
  | some c => if from_ = 2 || h.ln ⟨8 * c.val, by omega⟩ == lnRESET then h.clustersDone [c] else h.domRelease d
  | none => h

/-- The last step of an entry or exit ends: the state is reached. -/
def Hub.domReach (h : Hub) (d : Fin 26) : Hub :=
  if !h.domDue d then h
  else if h.dph d = 4 then
    let t := h.fld (F.PWR_STATE_TARGET d)
    let e := h.pwr.dom[d]
    let h := (h.domLose d t).put (F.PWR_STATE_STATE d) t
    ((h.domDone d).modDom d fun _ => { agreed := e.agreed, kept := e.kept }).domPending d
  else if h.dph d = 5 ∧ (h.pwr.dom[d]).exit = 5 then
    let was := h.dst d
    let h := (h.put (F.PWR_STATE_STATE d) 0).domBack d was
    (h.domDone d).domPending d
  else h

/-! ## Standby (R418, R419) -/

/-- Sources enabled and latched. -/
def Hub.wakes (h : Hub) : Nat := h.fld F.PLT_WSRC_SRC &&& h.fld F.PLT_WEN_EN

/-- The standby commit: the Pilot takes over and has the Bellows turn the gate off. -/
def Hub.stbyCommit (h : Hub) : Hub :=
  ((h.modPwr fun p => { p with stby := none, asleep := some h.now, minoff := false }).off F.PWR_STBY_GO).blStandby

/-- Standby entry goes on with the domain in turn: OFF downwards, or ON upwards once it unwinds. -/
def Hub.stbyGo : Nat → Hub → Hub
  | 0, h => h
  | fuel + 1, h => match h.pwr.stby with
    | none => h
    | some s =>
      if s.unwind then match s.off with
        | [] => (h.modPwr fun p => { p with stby := none }).off F.PWR_STBY_GO
        | d :: r =>
          if h.dph d ≠ 0 then h
          else if h.dst d = 0 then Hub.stbyGo fuel (h.modPwr fun p => { p with stby := some { s with off := r } })
          else h.domAsk d 0
      else match s.todo with
        | [] => h.stbyCommit
        | d :: r =>
          if h.dph d = 0 ∧ h.dst d = 2 then
            let off := if s.asked then d :: s.off else s.off
            Hub.stbyGo fuel (h.modPwr fun p => { p with stby := some { todo := r, off := off } })
          else if s.asked && h.dph d != 0 then h
          else
            let g := (h.modPwr fun p => { p with stby := some { s with asked := true } }).domAsk d 2
            if g.dph d = 0 then
              Hub.stbyGo fuel ((g.pwrFlag F.PWR_FLAG_STBY_ABORT).modPwr fun p => { p with stby := some { s with unwind := true } })
            else g

/-- Standby entry aborts: the domains already OFF are requested ON in ascending order (R418). -/
def Hub.stbyAbort (h : Hub) : Hub :=
  match h.pwr.stby with
  | none => h
  | some s =>
    if s.unwind then h
    else
      let h := h.pwrFlag F.PWR_FLAG_STBY_ABORT
      let d := (s.todo.headD 1)
      let busy := s.asked && h.dph d != 0
      let h := if busy then h.domAsk d 0 else h
      Hub.stbyGo 60 (h.modPwr fun p => { p with stby := some { s with unwind := true, off := if busy then d :: s.off else s.off } })

/-- After a change of a domain standby entry goes on; a refusal of the domain it waits for aborts it. -/
def Hub.stbyNext (h : Hub) (before : Hub) : Hub :=
  match h.pwr.stby with
  | none => h
  | some s =>
    let d := s.todo.headD 1
    if !s.unwind && s.asked && h.dph d == 0 && h.fld (F.PWR_STATE_RESULT d) == 2 && before.dph d != 0 then h.stbyAbort
    else Hub.stbyGo 60 h

/-- A write of 1 to PWR_STBY.GO. -/
def Hub.stbyStart (h : Hub) : Hub :=
  if h.pwr.stby.isSome || h.pwr.asleep.isSome then h
  else if h.wakes != 0 then (h.put F.PWR_REFUSE_REASON rsWAKE_PENDING).pwrFlag F.PWR_FLAG_STBY_ABORT
  else
    let todo := ((List.finRange 26).filter fun d => d.val != 0 && d.val != 17).reverse
    let h := (h.on F.PWR_STBY_GO).modPwr fun p => { p with stby := some { todo := todo } }
    Hub.stbyGo 60 h

/-- CK_PILOT ticks PLT_TIMER has left: it counts down from the standby commit (R420). -/
def Hub.timerLeft (h : Hub) : Nat :=
  match h.pwr.asleep with
  | none => h.fld F.PLT_TIMER_TICKS
  | some t => h.fld F.PLT_TIMER_TICKS - pilotTicks (h.now - t)

/-- The exit of standby: an entry that is complete and a latched source let the Bellows ramp the gate (R418, R419). -/
def Hub.stbyExit (h : Hub) : Hub :=
  if h.pwr.asleep.isSome && h.pwr.minoff && h.wakes != 0 && h.bel.stbyHold then
    let h := ((h.modBel fun b => { b with stbyHold := false }).blRest).put F.PLT_TIMER_TICKS h.timerLeft
    if h.bit F.PLT_CFG_PEWAKE then h.modPwr fun p => { p with peWake := true } else h
  else h

/-- A source latches in PLT_WSRC (R419). -/
def Hub.wakeIn (h : Hub) (src : Nat) : Hub :=
  let was := h.fld F.PLT_WSRC_SRC
  let h := if was = 0 then h.put F.PLT_WFIRST_BIT src else h
  let h := h.hwSet F.PLT_WSRC_SRC (2 ^ src)
  if src < 15 then h.stbyAbort.stbyExit else h

/-- A lane detector whose pin the hub drives sees only its own drive, which the Pilot ignores (R75). -/
def Hub.ownDrive (h : Hub) (src : Nat) : Bool :=
  if hs : 4 ≤ src ∧ src ≤ 11 then h.drivesBall ⟨src - 4, by omega⟩ 1 else false

/-- An enabled source is detected. -/
def Hub.wakeLatch (h : Hub) (src : Nat) : Hub :=
  if src < 15 ∧ (h.fld F.PLT_WEN_EN).testBit src ∧ !h.ownDrive src then h.wakeIn src else h

/-! ## Commands of the power sequencer -/

/-- A write of PWR_REQd (R410). -/
def Hub.powerRequest (h : Hub) (a : Access) (d : Fin 26) (tgt : Nat) : Option Hub :=
  if tgt = 3 ∨ (tgt = 1 ∧ domRet d = false) ∨ (tgt ≠ 0 ∧ (d.val = 0 ∨ d.val = 17)) ∨
      (d.val = 1 ∧ a.isIn [0, 13] = false) then none
  else some (((h.put (F.PWR_REQ_TARGET d) tgt).domAsk d tgt).stbyNext h)

/-- POWER_REQUEST (R410). -/
def execPowerRequest (a : Access) (d : Fin 26) (target : BitVec 2) (s : State) : Host.Outcome State Fault Refusal :=
  s.goes (s.hub.cmdWrite a (0x10000 + 4 * d) fun h => h.powerRequest a d target.toNat)

/-- The block in turn has not agreed by PWR_QTIME (R412). -/
def Hub.quiesceTimeout (h : Hub) (d : Fin 26) : Hub :=
  let i := (h.pwr.dom[d]).agreed
  if h.dph d = 1 ∧ h.quiesce d i (h.fld (F.PWR_STATE_TARGET d)) = .wait ∧
      (h.pwr.dom[d]).at_ + us (max 1 (h.pwr.dom[d]).qt) ≤ h.now then
    (h.domUnwindRefused d rsTIMEOUT (domUnit d i)).stbyNext h
  else h

/-- QUIESCE_TIMEOUT (R412). -/
def execQuiesceTimeout (d : Fin 26) (s : State) : Host.Outcome State Fault Refusal := s.goes (s.hub.quiesceTimeout d)

/-- POWER_STEP_DONE (R411). -/
def execPowerStepDone (d : Fin 26) (s : State) : Host.Outcome State Fault Refusal :=
  s.goes ((s.hub.domStep d).stbyNext s.hub)

/-- POWER_STATE_REACHED (R415). -/
def execPowerStateReached (d : Fin 26) (s : State) : Host.Outcome State Fault Refusal :=
  s.goes ((s.hub.domReach d).stbyNext s.hub)

/-- A wake of a cluster's domain (R416): a CAN controller's WAKE flag or, for CL0, a lane detector, where enabled. -/
def Hub.powerWake (h : Hub) (d : Fin 26) : Hub :=
  match domCluster d with
  | none => h
  | some c =>
    let m := h.fld (F.PWR_WAKEMASK_CAN c)
    let can := (List.finRange 2).any fun (i : Fin 2) => m.testBit i && h.bit (F.CAN_FLAG_WAKE (2 * c.val + i.val))
    if can || (c == 0 && h.fld (F.PWR_WAKEMASK_LANEWK c) &&& (h.fld F.PLT_WSRC_SRC / 16) != 0) then
      let h := h.pwrFlag F.PWR_FLAG_WAKE
      (h.domAsk d 0).stbyNext h
    else h

/-- POWER_WAKE (R416). -/
def execPowerWake (d : Fin 26) (s : State) : Host.Outcome State Fault Refusal := s.goes (s.hub.powerWake d)

/-- STANDBY (R418). -/
def execStandby (a : Access) (s : State) : Host.Outcome State Fault Refusal :=
  s.goes (s.hub.cmdWrite a 0x10118 fun h => some h.stbyStart)

/-- STANDBY_MINOFF_END: MINOFF has passed since the commit (R418). -/
def execStandbyMinoffEnd (s : State) : Host.Outcome State Fault Refusal :=
  let h := s.hub
  s.goes (if h.pwr.asleep.any fun t => decide (t + us (max 1 (h.fld F.PLT_CFG_MINOFF) * 1000) ≤ h.now) then
    (h.modPwr fun p => { p with minoff := true }).stbyExit else h)

/-- WAKE_LATCH (R419). -/
def execWakeLatch (src : Fin 16) (s : State) : Host.Outcome State Fault Refusal := s.goes (s.hub.wakeLatch src)

/-- A look of the Pilot at an enabled pair; activity at two looks is a wake (R262). -/
def Hub.flareLook (h : Hub) (p : Fin 2) (act : Bool) : Hub :=
  if !(h.fld F.PLT_WEN_EN).testBit (12 + p) then h
  else
    let was := h.pwr.flare[p]
    let h := h.modPwr fun w => { w with flare := w.flare.set p (act && !was) }
    if act && was then h.wakeIn (12 + p) else h

/-- FLARE_LOOK (R262). -/
def execFlareLook (port : Fin 2) (activity : Bool) (s : State) : Host.Outcome State Fault Refusal :=
  s.goes (s.hub.flareLook port activity)

/-- PILOT_TIMER_EXPIRE (R420). -/
def execPilotTimerExpire (s : State) : Host.Outcome State Fault Refusal :=
  let h := s.hub
  s.goes (if h.pwr.asleep.isSome ∧ h.fld F.PLT_TIMER_TICKS ≠ 0 ∧ h.timerLeft = 0 then
    (h.wakeLatch 14).put F.PLT_TIMER_TICKS 0 else h)

/-- The Pilot and the Bellows lose their registers (R421, R441). -/
def Hub.vaonClear (h : Hub) : Hub :=
  { (h.resetRange 0x10800 0x10FFF).resetRange 0x18000 0x18FFF with
    bel := {}, pwr := { h.pwr with asleep := none, minoff := false, flare := Vector.replicate 2 false, peWake := false } }

/-- VAON_POWER_UP (R421). -/
def execVaonPowerUp (s : State) : Host.Outcome State Fault Refusal := s.goes (s.hub.vaonClear.hwSet F.PLT_STAT_VAON_POR)

/-- VAON_LOSS (R441): BL_PG falls with the gate. -/
def execVaonLoss (s : State) : Host.Outcome State Fault Refusal := s.goes (s.hub.vaonClear.off F.PLT_STAT_VAON_POR)

/-! ## Clocks (R424) -/

/-- A bit of CLK_PLLSTAT. -/
def Hub.pllLock (h : Hub) (p : Nat) (on : Bool) : Hub := h.rstBit F.CLK_PLLSTAT_LOCK p on

/-- An error of the CLK block: its ADDR is the value of CLK_FLAG (Table 16.4). -/
def Hub.clkError (h : Hub) (cls : BitVec 2) : Hub :=
  h.raise cls (fUnit 0x04) causeHW
    ((List.range 5).foldl (fun v i => v + h.fld ⟨0x20004, i, 1⟩ * 2 ^ i) 0) (esc := false)

/-- A PLL loses lock (Table 14.7: 0 MAIN, 1 SER, 2 DRAM, 3 HOST). -/
def Hub.pllLoss (h : Hub) (p : Fin 4) : Hub :=
  let h := (h.pllLock p false).flag .clk F.CLK_FLAG_PLL_LOSS
  if p.val = 0 then (h.clkError 3).modPwr fun w => { w with held := true }
  else if p.val = 1 then (List.finRange 4).foldl (fun h l => h.linkLoss l 1) (h.clkError 2)
  else if p.val = 2 then (h.clkError 2).off F.DRM_STAT_RUN
  else (h.clkError 2).hostRst

/-- PLL_LOSS (R424). -/
def execPllLoss (p : Fin 4) (s : State) : Host.Outcome State Fault Refusal := s.goes (s.hub.pllLoss p)

/-- A PLL locks: a warm reset held for PLL_MAIN proceeds, and the DRAM port runs again. After a cold reset RST_OUT_N is
released 1 ms after PLL_MAIN locks (R480). -/
def Hub.pllRelock (h : Hub) (p : Fin 4) : Hub :=
  let h := if p.val = 0 && h.pwr.held then
      let l := h.fld F.CLK_PLLSTAT_LOCK
      (h.warmRst.put F.CLK_PLLSTAT_LOCK l).hwSet F.GLB_RST_CAUSE_FATAL
    else h
  let h := h.pllLock p true
  let h := if p.val = 0 ∧ h.pwr.rstOut = none then h.modPwr fun w => { w with rstOut := some (h.now + us 1000) } else h
  if p.val = 2 then h.putB F.DRM_STAT_RUN (h.bit F.DRM_CTL_EN && h.bit F.DRM_STAT_TRAINED) else h

/-- PLL_RELOCK (R424). -/
def execPllRelock (p : Fin 4) (s : State) : Host.Outcome State Fault Refusal := s.goes (s.hub.pllRelock p)

/-! ## Thermal protection (R425) -/

/-- The temperature SHUT, in steps of 0.25 °C. -/
def Hub.shutTemp (h : Hub) : Int := ((4 * h.fld F.CLK_THERM_SHUT : Nat) : Int)

/-- A die's temperature is measured; the time at or above SHUT runs on or ends. -/
def Hub.tempPut (h : Hub) (pdie : Bool) (t : BitVec 12) : Hub :=
  let i : Fin 2 := if pdie then 1 else 0
  let was := h.pwr.hotAt[i]
  (h.put (if pdie then F.CLK_TEMPP_T else F.CLK_TEMPF_T) t.toNat).modPwr fun p =>
    { p with hotAt := p.hotAt.set i (if h.shutTemp ≤ t.toInt then some (was.getD h.now) else none) }

/-- THERMAL_WARN (R425). -/
def execThermalWarn (pdie : Bool) (temp : BitVec 12) (s : State) : Host.Outcome State Fault Refusal :=
  let h := s.hub.tempPut pdie temp
  s.goes (if ((4 * h.fld F.CLK_THERM_WARN : Nat) : Int) ≤ temp.toInt then h.flag .clk F.CLK_FLAG_THERM_WARN else h)

/-- THERMAL_SHUTDOWN: the die has stayed at or above SHUT for 1 ms (R425). -/
def execThermalShutdown (pdie : Bool) (temp : BitVec 12) (s : State) : Host.Outcome State Fault Refusal :=
  let h := s.hub.tempPut pdie temp
  let hot := h.pwr.hotAt[(if pdie then 1 else 0 : Fin 2)]
  s.goes (if h.shutTemp ≤ temp.toInt ∧ (hot.any fun t => decide (t + us 1000 ≤ h.now)) then ((h.clkError 3).wakeIn 15).blThermal else h)

/-! ## The Dimmer (R426-R428) -/

/-- DIMMER_TRIP (R427). -/
def execDimmerTrip (det : Fin 4) (s : State) : Host.Outcome State Fault Refusal :=
  let h := s.hub
  s.goes (if (h.fld F.CLK_DIM_DEN).testBit det then
    let fresh := !h.bit F.CLK_DIMSTAT_SLOW || h.pwr.recAt.isSome
    ((((h.on F.CLK_DIMSTAT_SLOW).put F.CLK_DIMSTAT_KEEP 8).flag .clk F.CLK_FLAG_DROOP).count F.CLK_DIMCNT).modPwr fun p =>
      { p with tripAt := h.now, slowAt := if fresh then h.now else p.slowAt, recAt := none }
    else h)

/-- Every F-die detector has cleared, HOLD after the last trip: the divider starts to restore the clock, one pulse in 16
every 8 source cycles (R426, R427). -/
def Hub.dimmerClear (h : Hub) : Hub :=
  if h.bit F.CLK_DIMSTAT_SLOW ∧ h.pwr.recAt = none ∧ h.pwr.tripAt + 40 * max 1 (h.fld F.CLK_DIM_HOLD) ≤ h.now then
    h.modPwr fun p => { p with recAt := some h.now }
  else h

/-- DIMMER_CLEAR (R427). -/
def execDimmerClear (s : State) : Host.Outcome State Fault Refusal := s.goes s.hub.dimmerClear

/-- Pulses kept of 16, a number of ticks into the recovery: 8 ns each step. -/
def keepAt (t : Nat) : Nat := min 16 (8 + t * 5 / 16)

/-- The divider's recovery goes on; at full rate the event ends (R427). -/
def Hub.dimRecover (h : Hub) : Hub :=
  match h.pwr.recAt with
  | none => h
  | some t =>
    let k := keepAt (h.now + 1 - t)
    let h := h.put F.CLK_DIMSTAT_KEEP k
    if k = 16 then (h.off F.CLK_DIMSTAT_SLOW).modPwr fun p => { p with recAt := none } else h

/-- DIMMER_LONG: the clock has been held halved for longer than LONG (R427). -/
def execDimmerLong (s : State) : Host.Outcome State Fault Refusal :=
  let h := s.hub
  s.goes (if h.bit F.CLK_DIMSTAT_SLOW ∧ h.pwr.recAt = none ∧ h.pwr.slowAt + us (h.fld F.CLK_DIM_LONG) < h.now then (h.flag .clk F.CLK_FLAG_LONG).clkError 1 else h)

/-- PDIE_DROOP (R428). -/
def execPdieDroop (det : Fin 2) (s : State) : Host.Outcome State Fault Refusal :=
  let h := s.hub
  s.goes (if (h.fld F.CLK_DIM_DEN).testBit (4 + det) then
    ((h.flag .clk F.CLK_FLAG_PDROOP).count F.CLK_PDIMCNT).clkError 1 else h)

end Sys2Proof.Machine
end

