-- ==== Sys2Proof/Machine/Errors.lean ====
section
/-! DEFINITION. The commands of the error block (16 R446-R460). -/

namespace Sys2Proof.Machine

/-- The escalation that pends is carried out when its delay has ended: a P-die reset where every fatal error was confined to the P-die, else a
warm reset with FATAL (R446). -/
def Hub.escalation (h : Hub) : Hub :=
  if !h.bit F.ERR_STAT_ESC_PEND ∨ h.now < h.err.escEnd then h
  else if h.err.escP then (h.off F.ERR_STAT_ESC_PEND).askPdie
  else h.warmAsk .fatal

/-- ESCALATION (R446). -/
def execEscalation (s : State) : Host.Outcome State Fault Refusal := s.goes s.hub.escalation

/-- A write of ERR_LOGPOP: the head entry goes, unless it was written in this cycle (R454). -/
def Hub.logPop (h : Hub) : Hub :=
  let keep := h.err.log.head?.any fun e => e.tick == h.now
  Hub.logBlks { h.put F.ERR_LOGSEL_IDX 0 with err := { h.err with log := if keep then h.err.log else h.err.log.drop 1 } }

/-- LOG_POP (R454). -/
def execLogPop (a : Access) (s : State) : Host.Outcome State Fault Refusal :=
  s.goes (s.hub.cmdWrite a 0x30024 fun h => some h.logPop)

/-- The capture is emptied; an error of this cycle is then what it holds (R453). -/
def Hub.fecClear (h : Hub) : Hub :=
  { h with err := { h.err with fec := h.err.fecNow.filter fun e => e.tick == h.now } }

/-- The log is emptied, but for entries of this cycle, and the capture cleared (R454). -/
def Hub.logClear (h : Hub) : Hub :=
  Hub.logBlks (Hub.fecClear { h with err := { h.err with log := h.err.log.filter fun e => e.tick == h.now } })

/-- ERR_LOG_CLEAR (R454). -/
def execErrLogClear (a : Access) (s : State) : Host.Outcome State Fault Refusal :=
  s.goes (s.hub.cmdWrite a 0x30028 fun h => some h.logClear)

/-- FEC_CLEAR (R453). -/
def execFecClear (a : Access) (s : State) : Host.Outcome State Fault Refusal :=
  s.goes (s.hub.cmdWrite a 0x30050 fun h => some h.fecClear)

/-- A write of ERR_INJ; with GO an INJECT entry is made and acts as its class (R460). -/
def Hub.errInject (h : Hub) (a : Access) (v : W32) : Hub :=
  let cls := v.extractLsb' 28 2
  let h := (h.put F.ERR_INJ_CLASS cls.toNat).put F.ERR_INJ_CODE (v.bits 15 0)
  if !v.bit 31 then h
  else
    let h := h.record { h.entry cls (h.unit (fUnit 0x20)) (v.bits 15 8 * 256 + 0xF2) a.req 0 0 (v.bits 7 0) with rnode := 0 }
    if cls == 2 then h.storm else if cls == 3 then h.escalate false else h

/-- ERROR_INJECT (R460). -/
def execErrorInject (a : Access) (v : W32) (s : State) : Host.Outcome State Fault Refusal :=
  s.goes (s.hub.cmdWrite a 0x30058 fun h => some (h.errInject a v))

/-- A write of ERR_REARM: the vector of a source that is still pending is sent again (R459). -/
def Hub.rearm (h : Hub) (s : Nat) : Hub :=
  if h.pend s && h.bit ⟨0x30200 + 4 * s, 29, 1⟩ then h.emit (.msix (h.vec s)) else h

/-- INTERRUPT_REARM (R459). -/
def execInterruptRearm (a : Access) (v : W32) (s : State) : Host.Outcome State Fault Refusal :=
  s.goes (s.hub.cmdWrite a 0x30088 fun h => some (h.rearm (v.bits 5 0)))

end Sys2Proof.Machine
end

