-- ==== Sys2Proof/Machine/RegOps.lean ====
section
/-! DEFINITION. Effects of register writes that belong to no other family: the bridge's enable and commit, salvage clear,
partial-reconfiguration locks, the trial timer and DRAM training (07 R214, R228, R239; 12 R380, R382, R384), and which
K fields are locked (R10, R466, Table 17.1). -/

namespace Sys2Proof.Machine

/-! ## The bridge (R214, R239) -/

/-- Do requests run that a clear of BRG_CTL.EN waits for: tags in use, requests in the issue queue, lane accesses, and
requests answered RETRY whose reissue has not come (R239)? -/
def Hub.brgBusy (h : Hub) : Bool :=
  decide (0 < h.tagsUsed) || !h.brg.wait.isEmpty ||
    (h.brg.slot.toList.any fun s => (s.st == .fetching || s.st == .ready) && !s.echo) ||
    h.lanes.toList.any fun l => l.dev.any fun d => d.slot.isNone

/-- The clear of BRG_CTL.EN takes effect: slots are freed, locks broken, Echo stops. -/
def Hub.brgClosed (h : Hub) : Hub :=
  let h := (h.off F.BRG_CTL_EN).modBrg fun b =>
    { b with closing := false, slot := Vector.replicate 128 {}, stream := Vector.replicate 16 none }
  let h := { h with lanes := h.lanes.map fun l => { l with dev := l.dev.filter fun d => d.slot.isNone } }
  (List.finRange 64).foldl (fun h (n : Fin 64) => h.lockBreak n) h

/-- EN is cleared: at once, or when the requests in progress have completed. -/
def Hub.brgDisable (h : Hub) : Hub :=
  if !h.bit F.BRG_CTL_EN then h
  else if h.brgBusy then h.modBrg fun b => { b with closing := true }
  else h.brgClosed

/-- A clear that waits takes effect once nothing runs. -/
def Hub.brgClose (h : Hub) : Hub := if h.brg.closing && !h.brgBusy then h.brgClosed else h

/-- EN is set. -/
def Hub.brgEnable (h : Hub) : Hub := (h.on F.BRG_CTL_EN).modBrg fun b => { b with closing := false }

/-- May Echo learn and fetch in window w: enabled, with READ and IDEMPOTENT (R214, R221)? -/
def Hub.echoWin (h : Hub) (w : Nat) : Bool :=
  h.bit (F.BRG_WIN_ATTR_EN w) && h.bit (F.BRG_WIN_ATTR_READ w) && h.bit (F.BRG_WIN_ATTR_IDEMPOTENT w)

/-- BRG_COMMIT.GO: windows and allowlists take effect; Echo data of a window that loses EN, READ or IDEMPOTENT goes to
salvage with SERVE = 0 (R214). -/
def Hub.brgGo (h : Hub) : Hub :=
  let h' := h.withStatMode .brg fun h => (h.snapshot 0xB0000 0xB7FFF).applySnap 0xB0000 0xB7FFF
  (List.range 64).foldl (fun g w =>
    if h.echoWin w && !h'.echoWin w then
      (List.finRange 128).foldl (fun g (i : Fin 128) =>
        let s := g.brg.slot[i]
        if s.echo && s.win == w then
          (if s.st = .echoed then g.slotToSalv i 0 false else g.modSlot i fun s => { s with noServe := true })
        else g) g
    else g) h'

/-- ECH_SALVCLR. -/
def Hub.salvClearAll (h : Hub) (mask : Nat) : Hub :=
  (List.finRange 8).foldl (fun h (c : Fin 8) => if mask.testBit c then h.salvClear c else h) h

/-- BRIDGE_DISABLE (R239). -/
def execBridgeDisable (a : Access) (s : State) : Host.Outcome State Fault Refusal :=
  s.goes (s.hub.cmdWrite a 0xB0000 fun h => some h.brgDisable)

/-- SALVAGE_CLEAR (R228). -/
def execSalvageClear (a : Access) (v : W32) (s : State) : Host.Outcome State Fault Refusal :=
  s.goes (s.hub.cmdWrite a 0xB8018 fun h => some (h.salvClearAll (v.bits 7 0)))

/-! ## Configuration and DRAM (R380, R382, R384) -/

/-- CFG_PRLOCK is written: the keepers of a cluster newly locked take the levels their pins sense, and what its lanes
run for others completes DOWN (R382). -/
def Hub.prlockPut (h : Hub) (m : Nat) : Hub :=
  let old := h.fld F.CFG_PRLOCK_LOCK
  let h := (List.finRange 8).foldl (fun h (c : Fin 8) =>
    if m.testBit c && !old.testBit c then (lanesOf c).foldl (fun h n => (h.grip n).cutDevice n) h else h) h
  h.put F.CFG_PRLOCK_LOCK m

/-- PRLOCK_WRITE (R382, R384). -/
def execPrlockWrite (a : Access) (v : W32) (s : State) : Host.Outcome State Fault Refusal :=
  s.goes (s.hub.cmdWrite a 0x40020 fun h => some (h.prlockPut (v.bits 7 0)))

/-- The trial timer stops (R380). -/
def Hub.trialStop (h : Hub) : Hub := { h with ldr := { h.ldr with trialEnd := none } }

/-- TRIAL_STOP (R380). -/
def execTrialStop (a : Access) (s : State) : Host.Outcome State Fault Refusal :=
  s.goes (s.hub.cmdWrite a 0x40018 fun h => some h.trialStop)

/-- Training starts: GO reads 1 until done. -/
def Hub.dramTrain (h : Hub) (mode : Nat) : Hub := (h.put F.DRM_TRAIN_MODE mode).on F.DRM_TRAIN_GO

/-- DRM_CTL.EN; a write of 1 is refused unless the DRAM is trained. -/
def Hub.dramEnable (h : Hub) (on : Bool) : Option Hub :=
  if on == h.bit F.DRM_CTL_EN then some h
  else if on && !h.bit F.DRM_STAT_TRAINED then none
  else some ((h.putB F.DRM_CTL_EN on).putB F.DRM_STAT_RUN (on && (h.fld F.CLK_PLLSTAT_LOCK).testBit 2))

/-! ## Which K fields are locked (R10, R466, Table 17.1) -/

/-- K bits of LNnn_CFG0 and LNnn_CFG1 under a function (Tables 2.18-2.25). -/
def cfgK (f i : Nat) : W32 :=
  if i = 0 then
    (if f = fnUART then 0x7FFFFFFF else if f = fnSPI then 0x3FFFFFFF else if f = fnI2C then 0x37
     else if f = fnSSI then 0x00FFFFFF else if f = fnSDCI then 0x033F3F03 else if f = fnQUAD then 0x4003 else 0)
  else if i = 1 then
    (if f = fnI2C then 0x7FF else if f = fnSSI then 0x0FF00000 else if f = fnSDCI then 0x30000 else 0)
  else 0

/-- Is some lane of a cluster enabled (R54)? -/
def Hub.clusterOn (h : Hub) (c : Fin 8) : Bool := (lanesOf c).any fun n => h.bit (F.LN_CTL_EN n)

/-- Is the owning enable of the K fields of a register set? -/
def Hub.kLocked (h : Hub) (b : Block) (o : Nat) : Bool :=
  match b with
  | .gno => 0xC0 ≤ o && o < 0x140 && h.bit (F.GNO_PG_CTL_EN ((o - 0xC0) / 32))
  | .link l => h.bit (F.X_CTL_EN l)
  | .rng => h.bit F.RNG_CTL_EN
  | .drn => h.bit F.DRN_CTL_EN
  | .lmp => if o = 0 then h.anyLane else if 0x40 ≤ o ∧ o < 0x58 then h.bit F.DRN_CTL_EN else h.bit F.LMP_CTL_EN
  | .swc => if o = 0x20 then h.bit F.SWC_CTL_SPILL_EN else h.bit F.SWC_CTL_EN
  | .tile => h.bit F.SWC_CTL_EN
  | .brg => if 0x3000 ≤ o then h.bit (F.BRG_TUN_CFG_EN ((o - 0x3000) / 16)) else h.bit F.BRG_CTL_EN
  | .drm => if 0x200 ≤ o then h.bit F.SWC_CTL_SPILL_EN else h.bit F.DRM_CTL_EN
  | .hst => if 0x2000 ≤ o then h.bit (F.HST_RXR_CTL_EN ((o - 0x2000) / 64)) else h.bit (F.HST_TXR_CTL_EN ((o - 0x1000) / 64))
  | .rfx n => h.coreActive n
  | .rfxc => h.bit F.DRN_CTL_EN
  | .lane n => h.laneLocked n
  | .bank c => h.clusterOn c
  | .reed c => h.bit (F.REED_STAT_ACTIVE c)
  | .can k => h.bit (F.CAN_CTL_EN k)
  | _ => false

/-- The field of a register as a key. -/
def FieldD.at_ (f : FieldD) (off : Nat) : Fld := ⟨off, f.lo, f.w⟩

/-- The bits a write gives a field. -/
def FieldD.of_ (f : FieldD) (v : W32) : Nat := v.toNat / 2 ^ f.lo % 2 ^ f.w

/-- LMP_CTL.RELAY_EN is a relay field, owned by DRN_CTL.EN; LMP_CTL.EN is owned by the lanes (R363). -/
def Hub.kLockedFld (h : Hub) (b : Block) (o : Nat) (f : FieldD) : Bool :=
  if b = .lmp ∧ o = 0 ∧ f.lo = 1 then h.bit F.DRN_CTL_EN else h.kLocked b o

/-- Would a write change a locked K field (R466)? Lane configuration words and fields held in typed state have checks of
their own. -/
def Hub.kRefused (h : Hub) (b : Block) (o off : Nat) (r : RegD) (v : W32) : Bool :=
  r.fields.any fun f => f.app == .k && (f.acc == .rw || f.acc == .w1s) && h.kLockedFld b o f &&
    (if f.acc == .rw then f.of_ v != h.fld (f.at_ off) else f.of_ v == 1)

end Sys2Proof.Machine
end

