-- ==== Sys2Proof/Machine/RegRead.lean ====
section
/-! DEFINITION. Reads of the local register space: what each field shows, and the reads of Table 17.2 that change state
(17 R464-R469). -/

namespace Sys2Proof.Machine

/-! ## Words held in typed state -/

/-- Word i of a log entry (Table 16.2). -/
def LogEntry.word (e : LogEntry) (i : Nat) : Nat :=
  match i with
  | 0 => e.sec % 4096 * 2 ^ 20 + e.us
  | 1 => e.rep * 2 ^ 24 + e.unit.toNat
  | 2 => e.cls.toNat * 2 ^ 30 + e.req.toNat * 2 ^ 26 + e.rnode.toNat * 2 ^ 18 + e.space.toNat * 2 ^ 16 + e.code.toNat
  | _ => e.addr.toNat

/-- Bits of a list as a number, the first lowest. -/
def bitsOf (l : List Bool) : Nat := l.foldr (fun b a => 2 * a + b2n b) 0

/-- Quarter i of a 128-bit map, word i of longer ones. -/
def mapWord {w : Nat} (m : BitVec w) (i : Nat) : Nat := (m.extractLsb' (32 * i) 32).toNat

/-- Word i of a timestamp queue's head (Table 5.6). -/
def TsEnt.word (e : TsEnt) (i : Nat) : Nat :=
  match i with
  | 0 => e.seq.toNat * 2 ^ 16 + e.dom.toNat * 256 + e.typ.toNat
  | 1 => e.t.sec % 2 ^ 32
  | 2 => e.t.frac / 256 * 2 ^ 16 + e.t.sec / 2 ^ 32
  | _ => e.t.ns

/-- Node IDs of four East positions from this node (RNG_TOPOi). -/
def Hub.topoWord (h : Hub) (i : Nat) : Nat :=
  match h.ring.map with
  | none => 0
  | some m =>
    let r := (posOf m h.node).getD 0
    let l := m.drop r ++ m.take r
    (List.range 4).foldl (fun a j => a + ((l[4 * i + j]?).map fun p => p.id).getD 0 * 2 ^ (8 * j)) 0

/-- Word i of context x (Table 3.13). -/
def Hub.ctxWord (h : Hub) (c : Fin 8) (x : Fin 16) (i : Nat) : Nat :=
  let t := h.cx c x
  match i with
  | 0 => t.flags * 2 ^ 28 + t.ckpt.length * 2 ^ 24 + t.cause * 2 ^ 20 + t.st * 2 ^ 18 + t.wait * 2 ^ 16 + t.r.pc
  | 1 => h.fld (F.REED_CTX_W c (16 * x.val + 1)) % 2048
  | 2 => t.r.tc % 2 ^ 32
  | 3 => t.r.tc / 2 ^ 32
  | 4 => t.r.bt * 16 + t.r.tap
  | 5 => t.r.sh.toNat
  | 6 => t.r.cst.toNat
  | 7 => t.r.lnk
  | _ => if hi : i - 8 < 8 then (t.r.g[i - 8]).toNat else 0

/-- The salvage entry that ECH_SALVSEL shows. -/
def Hub.salvShown (h : Hub) : Option Salv :=
  let c : Fin 8 := ⟨h.fld F.ECH_SALVSEL_CLUSTER % 8, by omega⟩
  let e : Fin 16 := ⟨h.fld F.ECH_SALVSEL_ENTRY % 16, by omega⟩
  (h.brg.salv[c])[e]

/-- A quarantine entry as TILE_QENTi shows it (Table 6.3). -/
def QEnt.word (e : QEnt) : Nat :=
  2 ^ 31 + b2n e.perm * 2 ^ 30 + e.cons * 2 ^ 27 + e.part * 2 ^ 24 + min 3 e.tries * 2 ^ 22 + e.tile

/-- BRG_LANELKl. -/
def Hub.lockWord (h : Hub) (n : Fin 64) : Nat :=
  match (h.brg.lock[n]).owner with
  | some k => 2 ^ 31 + k.node * 2 ^ 16 + k.mem * 2 ^ 14 + k.req * 2 ^ 8
  | none => 0

/-- LNnn_STAT beside its stored fields. -/
def Lane.statWord (l : Lane) : Nat :=
  b2n (l.cur.isSome || l.sample.isSome || l.open_ || l.devRun) * 2 ^ 24 + l.tx.q.length * 2 ^ 16 + l.rx.q.length * 2 ^ 8

/-- The bits of a register that come from typed state, at their places in the word. -/
def Hub.typedBits (h : Hub) (b : Block) (o : Nat) : Nat :=
  match b with
  | .glb => if h.fuse.lanes64 then 0x40 else 0x20
  | .blw => h.offTicks
  | .err =>
    if o = 4 then b2n h.err.fec.isSome * 2 ^ 31 + h.err.log.length
    else if o < 0x20 then ((h.err.log[h.fld F.ERR_LOGSEL_IDX]?).map fun e => e.word ((o - 0x10) / 4)).getD 0
    else if o < 0x50 then (h.err.fec.map fun e => e.word ((o - 0x40) / 4)).getD 0
    else bitsOf ((List.range 32).map fun i => h.pend ((o - 0x80) / 4 * 32 + i))
  | .cfg =>
    if o = 0x14 then h.fuse.svn
    else match h.ldr.trialEnd with
      | some t => 2 ^ 30 + (t - h.now + 3999999) / 4000000
      | none => 0
  | .mbx k =>
    let m := h.mbx[k]
    m.outq.length * 2 ^ 24 + (8 - m.inq.length) * 2 ^ 16 + b2n (!m.outq.isEmpty)
  | .sec =>
    b2n h.fuse.mkey.isSome * 2 ^ 9 + b2n h.fuse.hostTrust * 2 ^ 8 + h.fuse.revoked.toNat * 16 +
      bitsOf (h.fuse.keys.toList.map Option.isSome)
  | .ts l =>
    let q := (h.ts[l]).q
    if o = 0xC then q.length else (q.head?.map fun e => e.word ((o - 0x10) / 4)).getD 0
  | .rng =>
    if o = 0x18 then (h.fuse.uid.extractLsb' 0 32).toNat
    else if o = 0x1C then (h.fuse.uid.extractLsb' 32 32).toNat
    else h.topoWord ((o - 0x400) / 4)
  | .drn => (h.cycleNow.getD 0) % 2 ^ 16 * 2 ^ 16 + h.drnRole
  | .lmp =>
    if o = 4 then b2n (h.paired && h.isolated) * 2 ^ 8 + b2n (h.paired && h.linkIsUp 2) * 2 ^ 7 + b2n h.drives * 2 ^ 4
    else bitsOf ((List.finRange 3).map fun (m : Fin 3) => h.mseen m)
  | .swc => if hq : (o - 0x200) / 4 < 56 then qTiles h.sw.q[(o - 0x200) / 4] else 0
  | .tile =>
    if o = 0x20 then h.poolFree * 2 ^ 16 + h.poolTotal
    else if o = 0x28 then h.tl.held
    else if o = 0x38 then (h.tl.check (h.fld F.TILE_CHKSEL_TILE)).toNat
    else if hq : (o - 0x100) / 4 < 64 then ((h.tl.quar[(o - 0x100) / 4]).map QEnt.word).getD 0 else 0
  | .brg => if o = 4 then h.tagsUsed * 2 ^ 16 + h.slotsUsed
    else if hl : (o - 0x100) / 4 < 64 then h.lockWord ⟨(o - 0x100) / 4, hl⟩ else 0
  | .ech => match h.salvShown with
    | none => 0
    | some e =>
      if o = 0x44 then 2 ^ 31 + b2n e.serve * 2 ^ 30 + e.origin * 2 ^ 28 + e.lane * 2 ^ 24 + e.data.length
      else if o = 0x48 then e.off
      else if o = 0x4C then e.g.ns
      else e.g.sec % 2 ^ 32
  | .drm => h.spillUsed
  | .hst => h.fuse.vendor.toNat
  | .rfx n => (h.core[n]).evq.length * 2 ^ 16
  | .rfxc =>
    if o < 0x840 then mapWord h.pim.stale ((o - 0x800) / 4)
    else if o < 0x880 then mapWord h.pim.pois ((o - 0x840) / 4)
    else mapWord h.pim.lpois ((o - 0x880) / 4)
  | .lane n =>
    if o = 8 then (h.lane n).statWord
    else if o = 0x24 then bitsOf ((h.lane n).pin.toList.map fun p => p.raw) * 2 ^ 16 + h.inBits n * 2 ^ 8
    else if o < 0x50 then (if hp : (o - 0x40) / 4 < 3 then b2n ((h.lane n).pin[(o - 0x40) / 4]).raw * 2 ^ 31 else 0)
    else (h.cfg n ((o - 0x50) / 4)).toNat
  | .reed c =>
    let r := h.reed[c]
    if o = 4 then bitsOf (r.ctx.toList.map fun t => t.st == cxRUN) * 2 ^ 16 + b2n (r.ctx.toList.any fun t => !t.ckpt.isEmpty) * 8 +
      b2n r.trig.isSome * 4
    else if o = 0x4C then r.q.length
    else if o = 0x104 then r.hi.toNat
    else if o < 0x120 then r.anc.read ((o - 0x108) / 4)
    else if o < 0x800 then
      (if hx : (o - 0x400) / 64 < 16 then h.ctxWord c ⟨(o - 0x400) / 64, hx⟩ ((o - 0x400) % 64 / 4) else 0)
    else (r.pmem.get 0 ((o - 0x4000) / 4)).toNat
  | .can k =>
    let c := h.can[k]
    if o = 4 then b2n (96 ≤ c.tec || 96 ≤ c.rec_) * 2 ^ 9
    else if o = 0x1C then b2n (128 ≤ c.rec_) * 2 ^ 15 + c.rec_ % 128 * 2 ^ 8 + min 255 c.tec
    else if o < 0x50 then mapWord (c.objenNext.getD c.objen) ((o - 0x40) / 4)
    else if o < 0x60 then mapWord c.txreq ((o - 0x50) / 4)
    else if o < 0x70 then mapWord c.cancel ((o - 0x60) / 4)
    else if o < 0x80 then mapWord c.newdat ((o - 0x70) / 4)
    else if o < 0x90 then mapWord c.txdone ((o - 0x80) / 4)
    else (c.readWord ((o - 0x1000) / 4)).toNat
  | _ => 0

/-! ## Reads with an effect of their own (Table 17.2) -/

/-- A read that answers a word. -/
def answered (r : Hub × Nat) : Hub × Option Nat := (r.1, some r.2)

/-- The reads that typed state answers with an effect: the new hub and the word, or no word for an error response. A bad
word of a CAN message RAM stops its controller and is such a read (04 R135). -/
def Hub.readFx (h : Hub) (a : Access) (b : Block) (o : Nat) : Option (Hub × Option Nat) :=
  match b with
  | .sem => if o < 0x80 then some (answered (if hi : o / 4 < 32 then h.semRead a ⟨o / 4, hi⟩ else (h, 0))) else none
  | .mbx k =>
    if o = 0xC then some (answered (h.mbxOut k))
    else if o = 0x20 then some (answered (h.wordRead a))
    else none
  | .gno =>
    if o = 0 then some (answered (h.nowRead a))
    else if o = 4 ∨ o = 8 then some (match h.shadowRead a (o == 8) with
      | some r => answered r
      | none => (h, none))
    else none
  | .rfx n => if o = 0x18 then some (answered ((h.tcmRead n).1, (h.tcmRead n).2.toNat)) else none
  | .lane n => if o = 0x1C then some (answered (h.popRx n a.req)) else none
  | .reed c => if o = 0x100 then some (answered (h.acntlRead c)) else none
  | .can k =>
    let i := (o - 0x1000) / 4
    if 0x1000 ≤ o ∧ (h.can[k]).bad.contains i then some (h.canStop k i, none) else none
  | _ => none

/-! ## Fields -/

/-- Is a register's RC field a high-water mark, which no PERIOD boundary latches? -/
def isPeak (b : Block) (o : Nat) : Bool :=
  match b with
  | .tile => o == 0x28
  | .swc => decide (0x200 ≤ o ∧ o < 0x2E0)
  | _ => false

/-- Does a read clear the RC fields at an offset: in CLEAR_ON_READ mode and where no mode applies (R264, Table 17.2)? -/
def Hub.rcClears (h : Hub) (off : Nat) : Bool := h.ctrMode off == .clear || h.ctrMode off == .noMode

/-- The value an RC field shows (R264): the snapshot in PERIOD mode, and where the read clears it the value before this
cycle's increments (R4). -/
def Hub.rcValue (h : Hub) (b : Block) (o : Nat) (f : Fld) : Nat :=
  if !isPeak b o && h.ctrMode f.off == .period then h.bank.get 0 f.key
  else if h.rcClears f.off then h.fld f - h.hwOn f.key else h.fld f

/-- A read clears an RC field; what hardware counted in the same cycle stays (R4). -/
def Hub.rcClear (h : Hub) (f : Fld) : Hub := if h.rcClears f.off then h.put f (h.hwOn f.key) else h

/-- The bits a stored field shows in its register. -/
def Hub.fieldBits (h : Hub) (b : Block) (o off : Nat) (f : FieldD) : Nat :=
  let v := match f.acc with
    | .rw | .ro | .w1c | .w1s => h.fld (f.at_ off)
    | .rc => h.rcValue b o (f.at_ off)
    | .wo | .ext => 0
  v * 2 ^ f.lo

/-- COMPAT reads 0 on the other channels (Table 13.6). -/
def Block.blank (b : Block) (o : Nat) : Bool :=
  match b with
  | .mbx k => k != 2 && o == 0
  | _ => false

/-- A read of a listed register that the checks have let through; no word is an error response. -/
def Hub.readBlock (h : Hub) (a : Access) (b : Block) (o off : Nat) (r : RegD) : Hub × Option Nat :=
  match h.readFx a b o with
  | some x => x
  | none =>
    if b.blank o then (h, some 0)
    else
      let typed := if r.fields.any fun f => f.acc == .ext then h.typedBits b o else 0
      let v := r.fields.foldl (fun v f => v + h.fieldBits b o off f) typed
      (r.fields.foldl (fun h f => if f.acc == .rc then h.rcClear (f.at_ off) else h) h, some v)

/-- A read of the local register space (R464): the new hub and the word, or no word where it gets an error response. -/
def Hub.readReg (h : Hub) (a : Access) (off : Nat) : Hub × Option Nat :=
  match h.check a off false with
  | .refused | .lost => (h, none)
  | .unlisted => (h, some 0)
  | .ok b o => match b.regAt o with
    | none => (h, some 0)
    | some r => h.readBlock a b o off r

/-- Does a requester with a lower ID read the same register in this cycle, and is it one of RC fields alone? The lower ID
receives the count then and the other what follows the clear (R468). -/
def State.readFirst (s : State) (a : Access) (addr : W32) : Bool :=
  (match s.hub.check a addr.toNat false with
    | .ok b o => (b.regAt o).any fun r => r.fields.all fun f => f.acc == .rc
    | _ => false) &&
  s.pending.any fun i => match i with
    | .counterReadClear a' addr' => addr' == addr && decide (a'.req.toNat < a.req.toNat)
    | _ => false

/-- COUNTER_READ_CLEAR: a read, with its value or its error response (R264, R468). -/
def execCounterReadClear (a : Access) (addr : W32) (s : State) : Host.Outcome State Fault Refusal :=
  let (h, x) := s.hub.readReg a addr.toNat
  s.goes (if s.readFirst a addr then
      (match (h.readReg a addr.toNat).2 with
        | some v => s.hub.emit (.regRead a addr.toNat (BitVec.ofNat 32 v))
        | none => s.hub.refuse a addr.toNat false)
    else match x with
      | some v => h.emit (.regRead a addr.toNat (BitVec.ofNat 32 v))
      | none => h.refuse a addr.toNat false)

end Sys2Proof.Machine
end

