-- ==== Sys2Proof/Machine/Regs.lean ====
section
/-! DEFINITION. Writes of the local register space: the apply class of each field, the registers whose write is an
operation, and the register rows of the command table (00 R5-R11, 17 R464-R468). -/

namespace Sys2Proof.Machine

/-! ## Fields -/

/-- Write one field by its access code and apply class: S fields are staged, W1C bits cleared; W1S and WO fields act
through their register's operation. A bit that hardware sets in the same cycle stays set (R4). A TRIM above 9 reads as 9
(Table 2.15). -/
def Hub.writeField (h : Hub) (b : Block) (o off : Nat) (f : FieldD) (v : W32) : Hub :=
  let x := match b with
    | .lane _ => if 0x40 ≤ o ∧ o < 0x4C ∧ f.lo = 12 then min 9 (f.of_ v) else f.of_ v
    | _ => f.of_ v
  match f.acc with
  | .rw => if f.app == .s then h.stage (f.at_ off) x else h.put (f.at_ off) x
  | .w1c => h.put (f.at_ off) (h.fld (f.at_ off) &&& ((2 ^ f.w - 1 - x) ||| h.hwOn (f.at_ off).key))
  | _ => h

/-- Write the fields of a register but those at some low bits. -/
def Hub.writeFields (h : Hub) (b : Block) (o off : Nat) (r : RegD) (v : W32) (skip : List Nat := []) : Hub :=
  h.withIrq (srcOf b) fun h =>
    r.fields.foldl (fun h f => if skip.contains f.lo then h else h.writeField b o off f v) h

/-- Do something for every bit that is set of a field of a written word. -/
def Hub.eachBit {n : Nat} (h : Hub) (v : W32) (lo : Nat) (g : Hub → Fin n → Hub) : Hub :=
  (List.finRange n).foldl (fun h i => if v.bit (lo + i.val) then g h i else h) h

/-! ## Registers whose write is an operation -/

/-- GLB_RST_CTL (Table 1.9): a warm reset absorbs the rest, a P-die reset the regions and clusters, a region its
clusters. What a request beside WARM in one write leaves is open: the model lets it vanish, with no cause bit and no log
entry (DESIGN CHOICE, log entry 118). -/
def Hub.rstCtl (h : Hub) (a : Access) (v : W32) : Hub :=
  if v.bit 0 then h.warmRst.hwSet F.GLB_RST_CAUSE_WARM
  else
    let h := if v.bit 2 then h.askPdie else h
    let h := h.eachBit v 4 fun h (r : Fin 2) => h.askRegion a r
    h.eachBit v 8 fun h (c : Fin 8) => h.askCluster a c

/-- LNnn_CFGi (R41, Tables 2.17-2.25): `none` where a locked K bit would change. -/
def Hub.cfgWrite (h : Hub) (n : Fin 64) (i : Nat) (v : W32) : Option Hub :=
  let old := h.cfg n i
  let f := h.fn n
  if h.laneLocked n && ((old ^^^ v) &&& cfgK f i) != 0 then none
  else if f = fnQUAD ∧ i = 1 then some (h.quadPreset n v)
  else if f = fnQUAD ∧ 2 ≤ i then some h
  else if f = fnSDCI ∧ i = 2 then some (h.setCfg n i ((v &&& 0xFFF80000#32) ||| (old &&& 0x7FFFF#32)))
  else if f = fnSSI ∧ i = 2 then
    let h := h.setCfg n i ((v &&& 0xFFFFFFFE#32) ||| (old &&& 1#32))
    some (if v.bit 0 then h.ssiTrig n true else h)
  else if f = fnPINS ∧ i = 0 then
    let h' := h.setCfg n i v
    some (if old.bits 23 0 = 0 ∧ v.bits 23 0 ≠ 0 ∧ h.up n ∧ !(h.lane n).pwmHalt then h'.pwmStart n else h')
  else some (h.setCfg n i v)

/-- LNnn_CTL (Table 2.5). -/
def Hub.laneCtl (h : Hub) (n : Fin 64) (v : W32) : Hub :=
  let h := if v.bit 0 then h.laneEnable n else if h.pairOwned n then h else h.laneDisable n
  let h := if v.bit 3 then h.modLane n fun l => { l with rx := l.rx.flush } else h
  let h := if v.bit 2 then h.flushTx n else h
  if v.bit 1 && h.ln n != lnRESET then h.laneReset n else h

/-- A write of a lane register. -/
def Hub.laneWrite (h : Hub) (n : Fin 64) (o off : Nat) (r : RegD) (v : W32) : Option Hub :=
  if o = 0 then h.funcWrite n v
  else if o = 4 then some (h.laneCtl n v)
  else if o = 0x18 then some (h.pushTx n v)
  else if o = 0x24 then some (h.outWrite n (v.bits 2 0))
  else if o = 0x30 then
    some (if v.bit 0 then (h.snapshot (laneBase n) (laneBase n + 0xFFF)).applySnap (laneBase n) (laneBase n + 0xFFF) else h)
  else if 0x50 ≤ o then h.cfgWrite n ((o - 0x50) / 4) v
  else some (h.writeFields (.lane n) o off r v)

/-- A write of a context register (Tables 3.13, 3.14): K while the engine is active. -/
def Hub.ctxWrite (h : Hub) (c : Fin 8) (x : Fin 16) (i : Nat) (v : W32) : Option Hub :=
  let mask : W32 := match i with
    | 0 | 1 | 7 => 0x7FF#32
    | 4 => 0xFFFFFF#32
    | 6 => 0#32
    | _ => 0xFFFFFFFF#32
  let tap := min 9 (v.bits 3 0)
  let new := if i = 4 then BitVec.ofNat 32 (v.bits 23 4 * 16 + tap) else v &&& mask
  let clears := (List.range 4).foldl (fun m b =>
    if v.bit (28 + b) && h.hwOn (F.REED_CTX_FLAG c x b).key == 0 then m + 2 ^ b else m) 0
  if h.bit (F.REED_STAT_ACTIVE c) && new != (BitVec.ofNat 32 (h.ctxWord c x i) &&& mask) then none
  else
    let reg := fun (g : CtxRegs → CtxRegs) => some (h.modCtx c x fun t => { t with r := g t.r })
    match i with
    | 0 => some (h.modCtx c x fun t => { t with flags := t.flags &&& (15 - clears), r := { t.r with pc := v.bits 10 0 } })
    | 1 => some (h.put (F.REED_CTX_W c (16 * x.val + 1)) (v.bits 10 0))
    | 2 => reg fun r => { r with tc := r.tc / 2 ^ 32 * 2 ^ 32 + v.toNat }
    | 3 => reg fun r => { r with tc := v.toNat * 2 ^ 32 + r.tc % 2 ^ 32 }
    | 4 => reg fun r => { r with bt := v.bits 23 4, tap := tap }
    | 5 => reg fun r => { r with sh := v }
    | 6 => some h
    | 7 => reg fun r => { r with lnk := v.bits 10 0 }
    | _ => reg fun r => { r with g := r.g.set! (i - 8) v }

/-- A write of a reed register. -/
def Hub.reedWrite (h : Hub) (c : Fin 8) (o off : Nat) (r : RegD) (v : W32) : Option Hub :=
  if o = 0 then
    let h := h.putB (F.REED_CTL_RESUME c) (v.bit 2)
    let h := if v.bit 1 then h.reedFlush c else h
    if v.bit 0 then h.reedRun c else some (h.reedStop c)
  else if o = 0x10 then
    some ((List.finRange 16).foldl (fun h (x : Fin 16) => if v.bit x then h.ctxEnable c x else h.ctxDisable c x) h)
  else if o = 0x30 then h.syncWrite c v
  else if 0x108 ≤ o ∧ o < 0x11C then some (h.anchorShadow c ((o - 0x108) / 4) v)
  else if o = 0x11C then some (h.anchorApply c v)
  else if 0x400 ≤ o ∧ o < 0x800 then
    if hx : (o - 0x400) / 64 < 16 then h.ctxWrite c ⟨(o - 0x400) / 64, hx⟩ ((o - 0x400) % 64 / 4) v else some h
  else if 0x4000 ≤ o then
    let i := (o - 0x4000) / 4
    if h.bit (F.REED_STAT_ACTIVE c) && (h.reed[c]).pmem.get 0 i != v then none else some (h.pmWrite c i v)
  else some (h.writeFields (.reed c) o off r v)

/-- Quarter i of a 128-bit map, replaced. -/
def putQuarter (m : BitVec 128) (i : Nat) (v : W32) : BitVec 128 :=
  (m &&& ~~~ ((0xFFFFFFFF#128) <<< (32 * i))) ||| (v.setWidth 128 <<< (32 * i))

/-- The object of bit b of bitmap register i. -/
def objAt (i b : Nat) : Fin 128 := ⟨(32 * i + b) % 128, by omega⟩

/-- A write of a message RAM word (R126): W0-W2 and the data words are K while OBJEN is set, the data words also while
TXREQ is; W3 is read-only, and reserved bits are ignored (17 R465). -/
def Hub.ramWrite (h : Hub) (k : Fin 16) (i : Nat) (v : W32) : Option Hub :=
  let c := h.can[k]
  let j : Fin 128 := ⟨i / 20 % 128, by omega⟩
  let w := i % 20
  if w = 3 then some h
  else if (c.objen.getLsbD j || (4 ≤ w && c.txreq.getLsbD j)) && c.word j w != v &&& ramMask w then none
  else some (h.modCan k fun c => c.setWord j w (v &&& ramMask w))

/-- The bits of a map word that a write of 1 may clear: those hardware set in the same cycle stay (00 R4, R128). -/
def Hub.softBits (h : Hub) (f : Nat → Fld) (i : Nat) (v : W32) : BitVec 128 :=
  putQuarter 0 i ((List.finRange 32).foldl (fun w (b : Fin 32) =>
    if h.hwOn (f (32 * i + b)).key = 0 then w else w &&& ~~~ (BitVec.twoPow 32 b)) v)

/-- A write of a CAN register. -/
def Hub.canWrite (h : Hub) (k : Fin 16) (o off : Nat) (r : RegD) (v : W32) : Option Hub :=
  if o = 0 then
    let h := h.writeFields (.can k) o off r v [0, 7]
    let h := if v.bit 8 then h.canRamInit k else h
    let h := if v.bit 7 == h.bit (F.CAN_CTL_SLEEP k) then h else h.canSleepBit k (v.bit 7)
    if v.bit 0 then h.canEnable k else some (h.canDisable k)
  else if 0x40 ≤ o ∧ o < 0x50 then
    some (h.canObjen k (putQuarter ((h.can[k]).objenNext.getD (h.can[k]).objen) ((o - 0x40) / 4) v))
  else if 0x50 ≤ o ∧ o < 0x60 then some (h.eachBit v 0 fun h (b : Fin 32) => h.canTxReq k (objAt ((o - 0x50) / 4) b))
  else if 0x60 ≤ o ∧ o < 0x70 then some (h.eachBit v 0 fun h (b : Fin 32) => h.canCancel k (objAt ((o - 0x60) / 4) b))
  else if 0x70 ≤ o ∧ o < 0x80 then
    some (h.modCan k fun c => { c with newdat := c.newdat &&& ~~~ (h.softBits (F.CAN_NEWDAT k) ((o - 0x70) / 4) v) })
  else if 0x80 ≤ o ∧ o < 0x90 then
    some (h.modCan k fun c => { c with txdone := c.txdone &&& ~~~ (h.softBits (F.CAN_TXDONE k) ((o - 0x80) / 4) v) })
  else if 0x1000 ≤ o then h.ramWrite k ((o - 0x1000) / 4) v
  else some (h.writeFields (.can k) o off r v)

/-- A write of a link register. -/
def Hub.linkWrite (h : Hub) (l : Fin 4) (o off : Nat) (r : RegD) (v : W32) : Hub :=
  if o = 0 then
    let h := h.writeFields (.link l) o off r v [0]
    if v.bit 0 then h.linkEnable l else h.linkDisable l
  else if o = 0x30 then (h.writeFields (.link l) o off r v).losLost l
  else if o = 0x34 then h.sfpWrite l v
  else if o = 0x38 then
    let h := h.writeFields (.link l) o off r v
    if v.bit 0 then h.flareSend l else h
  else if o = 0x3C then (if v.bit 0 then h.withStatMode (.link l) fun h => h.linkGo l else h)
  else h.writeFields (.link l) o off r v

/-- A write of an LMP register. -/
def Hub.lampWrite (h : Hub) (a : Access) (o off : Nat) (r : RegD) (v : W32) : Option Hub :=
  if o = 0 then
    let h := h.writeFields .lmp o off r v [0]
    (h.lampEnable (v.bit 0)).map fun h =>
      let h := if v.bit 4 then h.forceRel else h
      if v.bit 5 then h.forceTake else h
  else if o = 0x18 then
    let was := BitVec.ofNat 32 (h.fld F.LMP_HEALTH_CORES * 256 + h.fld F.LMP_HEALTH_MASK)
    some ((h.modLamp fun l => { l with mask := if h.isHolder then some (l.mask.getD was) else none }).writeFields .lmp o off r v)
  else if o = 0x1C then some h.stewBeat
  else if o = 0x2C then some (h.rleaseWrite a v)
  else if 0x30 ≤ o ∧ o ≤ 0x38 then
    some (if h.member = 0 then h else (h.writeFields .lmp o off r v).expWritten h.drives)
  else if o = 0x58 then some (h.memberBeat (v.bits 1 0))
  else if o = 0x60 then some (h.stackItem a v)
  else if o = 0x68 then
    some (if v.bit 0 then h.withStatMode .lmp fun h => (h.snapshot 0x98000 0x9FFFF).applySnap 0x98000 0x9FFFF else h)
  else some (h.writeFields .lmp o off r v)

/-- A write of an SWC register. -/
def Hub.swcWrite (h : Hub) (o off : Nat) (r : RegD) (v : W32) : Hub :=
  if o = 0 then
    let h := h.putB F.SWC_CTL_SPILL_EN (v.bit 1)
    if v.bit 0 then h.swcEnable else (h.off F.SWC_CTL_EN).off F.SWC_STAT_RUN
  else if o = 0x1C then
    (if v.bit 0 then h.withStatMode .swc fun h => (h.snapshot 0xA0000 0xA7FFF).applySnap 0xA0000 0xA7FFF else h)
  else h.writeFields .swc o off r v

/-- A write of a BRG register; a channel that is enabled takes what its lane holds, and one that is disabled drops the frame it
gathers (R237). -/
def Hub.brgWrite (h : Hub) (o off : Nat) (r : RegD) (v : W32) : Hub :=
  if o = 0 then (if v.bit 0 then h.brgEnable else h.brgDisable)
  else if o = 0x28 then (if v.bit 0 then h.brgGo else h)
  else if 0x3000 ≤ o ∧ o % 16 = 8 then
    let h := h.writeFields .brg o off r v
    let lane : Fin 64 := ⟨h.fld (F.BRG_TUN_SRC_LANE ((o - 0x3000) / 16)) % 64, by omega⟩
    if v.bit 31 then h.tunTake lane
    else if hk : (o - 0x3000) / 16 < 16 then h.modBrg fun b => { b with tun := b.tun.set ((o - 0x3000) / 16) [] hk }
    else h
  else h.writeFields .brg o off r v

/-- A write of a core's register page. -/
def Hub.rfxWrite (h : Hub) (a : Access) (n : Fin 8) (o off : Nat) (r : RegD) (v : W32) : Option Hub :=
  if o = 0 then
    let h := h.writeFields (.rfx n) o off r v [0]
    some (if v.bit 0 then h.coreRun n else h.coreUnrun n)
  else if o = 0x18 then h.tcmWrite n v
  else if o = 0x24 then some (h.evPost a n (v.bits 15 0))
  else some (h.writeFields (.rfx n) o off r v)

/-- A write of an ERR register. -/
def Hub.errWrite (h : Hub) (a : Access) (o off : Nat) (r : RegD) (v : W32) : Hub :=
  if o = 0x24 then (if v.bit 0 then h.logPop else h)
  else if o = 0x28 then (if v.bit 0 then h.logClear else h)
  else if o = 0x50 then (if v.bit 0 then h.fecClear else h)
  else if o = 0x58 then h.errInject a v
  else if o = 0x88 then h.rearm (v.bits 5 0)
  else h.writeFields .err o off r v

/-- A write of a GNO register: INCR out of range is refused (R146). -/
def Hub.gnoWrite (h : Hub) (o off : Nat) (r : RegD) (v : W32) : Option Hub :=
  if o = 0x10 then
    (if v.toNat < 0x03FEF9DB ∨ 0x04010625 < v.toNat then none else some (h.writeFields .gno o off r v))
  else if o = 0x1C then some (if v.bit 0 then h.gnoGo else h)
  else if o = 0x30 then some (if v.bit 0 then h.pairGo else h)
  else if 0xC0 ≤ o ∧ o < 0x140 ∧ (o - 0xC0) % 32 = 0 then
    let h := h.writeFields .gno o off r v [0]
    let h := if o = 0xC0 then h else h.off (F.GNO_PG_CTL_PPS ((o - 0xC0) / 32))
    some (if hg : (o - 0xC0) / 32 < 4 then h.pgEnable ⟨(o - 0xC0) / 32, hg⟩ (v.bit 0) else h)
  else some (h.writeFields .gno o off r v)

/-- A write of a DRM register. -/
def Hub.drmWrite (h : Hub) (o off : Nat) (r : RegD) (v : W32) : Option Hub :=
  if o = 0 then (h.writeFields .drm o off r v [0]).dramEnable (v.bit 0)
  else if o = 8 then some (if v.bit 0 then h.dramTrain (v.bits 2 1) else h.writeFields .drm o off r v)
  else some (h.writeFields .drm o off r v)

/-- A code that its table refuses: MODE 5-7 of LNnn_PINx (Table 2.15), LEVEL 3 of IOBb_CTL (Table 2.16). -/
def badCode (b : Block) (o : Nat) (v : W32) : Bool :=
  match b with
  | .lane _ => decide (0x40 ≤ o ∧ o < 0x4C ∧ 4 < v.bits 2 0)
  | .bank _ => o == 0 && v.bits 1 0 == 3
  | _ => false

/-- A write of a listed register that the checks have let through; `none` is an error response by the register's own
rule. -/
def Hub.writeBlock (h : Hub) (a : Access) (b : Block) (o off : Nat) (r : RegD) (v : W32) : Option Hub :=
  if h.kRefused b o off r v || badCode b o v then none
  else if b.blank o then some h
  else match b with
  | .glb => some (if o = 0x10 then h.rstCtl a v else h.writeFields b o off r v)
  | .pwr =>
    if hd : o / 4 < 26 then h.powerRequest a ⟨o / 4, hd⟩ (v.bits 1 0)
    else some (if o = 0x118 then (if v.bit 0 then h.stbyStart else h) else h.writeFields b o off r v)
  | .blw =>
    let h := h.writeFields b o off r v
    some (if o = 0 ∧ v.bit 8 then h.blClear else h)
  | .err => some (h.errWrite a o off r v)
  | .sem =>
    some (if hi : o / 4 < 32 then h.semWrite a ⟨o / 4, hi⟩ v
      else if o = 0x80 then h.semForce ⟨v.bits 4 0 % 32, by omega⟩ else h.writeFields b o off r v)
  | .cfg =>
    some (if o = 0x18 then (if v.bit 31 then h.trialStop else h)
      else if o = 0x20 then h.prlockPut (v.bits 7 0) else h.writeFields b o off r v)
  | .mbx k =>
    some (if o = 8 then h.mbxPush k v else if o = 0x20 then h.wordWrite a v else h.writeFields b o off r v)
  | .gno => h.gnoWrite o off r v
  | .link l => some (h.linkWrite l o off r v)
  | .ts l =>
    some (if o = 0x20 then (if v.bit 0 then h.modTs l fun t => { t with q := t.q.drop 1 } else h)
      else h.writeFields b o off r v)
  | .rng =>
    some (if o = 0x44 then
        (if v.bit 0 then h.withStatMode .rng fun h => (h.snapshot 0x84000 0x84FFF).applySnap 0x84000 0x84FFF else h)
      else h.writeFields b o off r v)
  | .drn =>
    some (if o = 0 then (if v.bit 0 then h.droneEnable else h.droneDisable)
      else if o = 0x2C then (if v.bit 0 then h.drnGo else h) else h.writeFields b o off r v)
  | .lmp => h.lampWrite a o off r v
  | .swc => some (h.swcWrite o off r v)
  | .tile => some (if o = 0x3C then h.tileInject v else h.writeFields b o off r v)
  | .brg => some (h.brgWrite o off r v)
  | .ech => some (if o = 0x18 then h.salvClearAll (v.bits 7 0) else h.writeFields b o off r v)
  | .drm => h.drmWrite o off r v
  | .rfx n => h.rfxWrite a n o off r v
  | .lane n => h.laneWrite n o off r v
  | .bank c =>
    some (if o = 0 then (h.writeFields b o off r v).monWrite c (v.bit 9) else h.writeFields b o off r v)
  | .reed c => h.reedWrite c o off r v
  | .can k => h.canWrite k o off r v
  | .plt | .clk | .sec | .hst | .rfxc => some (h.writeFields b o off r v)

/-- A write of the local register space (R464): the new hub, or `none` where it gets an error response. -/
def Hub.writeReg (h : Hub) (a : Access) (off : Nat) (v : W32) : Option Hub :=
  match h.check a off true with
  | .refused => none
  | .lost => some (h.lostWrite a off)
  | .unlisted => some h
  | .ok b o => match b.regAt o with
    | none => some h
    | some r => h.writeBlock a b o off r v

/-- A written word with its RW fields as the register holds them. -/
def Hub.keepRw (h : Hub) (off : Nat) (r : RegD) (v : W32) : W32 :=
  r.fields.foldl (fun v f =>
    if f.acc == .rw then
      (v &&& ~~~BitVec.ofNat 32 ((2 ^ f.w - 1) * 2 ^ f.lo)) |||
        BitVec.ofNat 32 ((if f.app == .s then h.stagedOr (f.at_ off) else h.fld (f.at_ off)) * 2 ^ f.lo)
    else v) v

/-- What a write brings beside the others of its cycle: where a higher requester ID has written the register, the value of
that one remains in its fields (R468). -/
def Hub.portWord (h : Hub) (a : Access) (off : Nat) (v : W32) : W32 :=
  match h.wrote.get none off, h.check a off true with
  | some q, .ok b o => if a.req.toNat < q then (match b.regAt o with
      | some r => h.keepRw off r v
      | none => v) else v
  | _, _ => v

/-- A requester has written a register in this cycle. -/
def Hub.portMark (h : Hub) (a : Access) (off : Nat) : Hub :=
  { h with wrote := h.wrote.set none off (some (max a.req.toNat ((h.wrote.get none off).getD 0))) }

/-- A write with its error response (R11). -/
def Hub.regWrite (h : Hub) (a : Access) (off : Nat) (v : W32) : Hub :=
  match h.writeReg a off (h.portWord a off v) with
  | some h' => h'.portMark a off
  | none => h.refuse a off true

/-- A read with its error response (R11): the word, where there is one. -/
def Hub.regRead (h : Hub) (a : Access) (off : Nat) : Hub × Option W32 :=
  let (h', x) := h.readReg a off
  match x with
  | some v => (h', some (BitVec.ofNat 32 v))
  | none => (h'.refuse a off false, none)

/-! ## Commands -/

/-- An access that is not a single aligned 32-bit word (R467). -/
def Hub.badWidth (h : Hub) (a : Access) (off : Nat) : Hub :=
  if a.req = 10 ∨ a.req = 11 then h.emit (.regError a off (if a.posted then .eventFrame else .cplUR))
  else h.refuse a off true

/-- REGISTER_WRITE (R466, R467). -/
def execRegisterWrite (a : Access) (addr v : W32) (aligned32 : Bool) (s : State) : Host.Outcome State Fault Refusal :=
  s.goes (if aligned32 && addr.toNat % 4 == 0 then s.hub.regWrite a addr.toNat v else s.hub.badWidth a addr.toNat)

/-- The commit register of a block (Table 17.1). -/
def commitOff : CommitBlock → Nat
  | .lane n => laneBase n + 0x30
  | .gno => 0x6001C
  | .link l => linkBase l + 0x3C
  | .rng => 0x84044
  | .drn => 0x8502C
  | .lmp => 0x98068
  | .swc => 0xA001C
  | .brg => 0xB0028

/-- COMMIT_GO (R7). -/
def execCommitGo (a : Access) (b : CommitBlock) (s : State) : Host.Outcome State Fault Refusal :=
  s.goes (s.hub.regWrite a (commitOff b) 1)

end Sys2Proof.Machine
end

