-- ==== Sys2Proof/Machine/Bundle.lean ====
section
/-! DEFINITION. Bundles, their partitions and records (12 R364-R367, R372-R376; DRM training R384). -/

namespace Sys2Proof.Machine

/-! ## The stores -/

/-- Bytes of a bundle store; an erased byte reads 0xFF. -/
def flashAt (m : Sparse Byte) (a : Nat) : Nat → List Byte
  | 0 => []
  | n + 1 => m.get 0xFF a :: flashAt m (a + 1) n

/-- Program bytes. -/
def flashPut (m : Sparse Byte) (a : Nat) : List Byte → Sparse Byte
  | [] => m
  | b :: r => flashPut (m.set 0xFF a b) (a + 1) r

/-- Change the loader. -/
def Hub.modLdr (h : Hub) (g : Ldr → Ldr) : Hub := { h with ldr := g h.ldr }

/-- Bytes of a store's bundle. -/
def Hub.bundleAt (h : Hub) (s : Fin 3) (a n : Nat) : List Byte := flashAt (h.ldr.store[s]) a n

/-- A word of a store's bundle (R364: little-endian). -/
def Hub.bundleWord (h : Hub) (s : Fin 3) (a : Nat) : W32 := leWord (h.bundleAt s a 4)

/-- The number whose bytes, most significant first, are given: digests and key hashes. -/
def beNum (bs : List Byte) : BitVec 256 := BitVec.ofNat 256 (bs.foldl (fun a b => a * 256 + b.toNat) 0)

/-! ## Block 0 (Tables 12.1, 12.2) -/

def Hub.bLength (h : Hub) (s : Fin 3) : Nat := (h.bundleWord s 8).toNat
def Hub.bSvn (h : Hub) (s : Fin 3) : Nat := (h.bundleWord s 12).bits 7 0
def Hub.bKey (h : Hub) (s : Fin 3) : Fin 4 := ⟨(h.bundleWord s 12).bits 9 8 % 4, by omega⟩
def Hub.bImgId (h : Hub) (s : Fin 3) : Nat := (h.bundleWord s 16).toNat
def Hub.bCount (h : Hub) (s : Fin 3) : Nat := (h.bundleWord s 20).bits 7 0
def Hub.bStack (h : Hub) (s : Fin 3) : Nat := (h.bundleWord s 20).bits 9 8
def Hub.bAutoConfirm (h : Hub) (s : Fin 3) : Bool := (h.bundleWord s 20).bit 16
def Hub.bRing (h : Hub) (s : Fin 3) : Bool := (h.bundleWord s 20).bit 17
/-- The trial window in ticks: units of 10 s, 0 meaning 120 s. -/
def Hub.bTrial (h : Hub) (s : Fin 3) : Nat :=
  let t := (h.bundleWord s 20).bits 31 24
  (if t = 0 then 12 else t) * 4000000000

/-- A partition table entry (Table 12.2). -/
structure PartEnt where
  pid : W32
  offset : Nat
  tiles : Nat
  digest : BitVec 256
  deriving DecidableEq, Repr

def pidKind (p : W32) : Nat := p.bits 31 28
def pidMember (p : W32) : Nat := p.bits 27 26
def pidInst (p : W32) : Nat := p.bits 18 16

/-- The partition table in use. -/
def Hub.bParts (h : Hub) (s : Fin 3) : List PartEnt :=
  (List.range (h.bCount s)).map fun i =>
    { pid := h.bundleWord s (64 + 48 * i), offset := (h.bundleWord s (68 + 48 * i)).toNat,
      tiles := (h.bundleWord s (72 + 48 * i)).toNat, digest := beNum (h.bundleAt s (76 + 48 * i) 32) }

/-- The image tiles of a partition. -/
def Hub.bRaw (h : Hub) (s : Fin 3) (p : PartEnt) : List Byte := h.bundleAt s (p.offset * 256) (p.tiles * 256)

/-- This member's partition of a kind and instance. -/
def Hub.bPart (h : Hub) (s : Fin 3) (kind inst : Nat) : Option PartEnt :=
  (h.bParts s).find? fun p => pidKind p.pid == kind && pidMember p.pid == h.member && pidInst p.pid == inst

/-- This member's partitions in the order of Table 12.7. -/
def Hub.bOrder (h : Hub) (s : Fin 3) : List PartEnt :=
  [1, 2, 3, 4, 5, 6, 7].flatMap fun k => (List.range 8).filterMap fun i => h.bPart s k i

/-- The checks of R364; a bundle from the ring or the stack has at most 3 MiB (R370). -/
def Hub.bLegal (h : Hub) (s : Fin 3) : Bool :=
  h.bundleWord s 0 == 0x54474231#32 && h.bundleWord s 4 == 1#32 && h.bLength s % 4096 == 0 &&
    decide (h.bLength s ≤ if s = 2 then 0x300000 else 0x2000000) && decide (h.bCount s ≤ 64) &&
    (match h.ldr.stack with | some n => h.bStack s == n | none => true)

/-- Authentic: signature, key slot, and no kind and instance twice in one member (R365, R366). -/
def Hub.bAuthentic (h : Hub) (s : Fin 3) : Bool :=
  let pub := h.bundleAt s 3136 64
  Config.verifyP256 pub (Config.sha256 (h.bundleAt s 0 3136)) (h.bundleAt s 3200 64) &&
    h.fuse.keys[h.bKey s] == some (Config.sha256 pub) && !h.fuse.revoked.getLsbD (h.bKey s) &&
    decide (((h.bParts s).map fun p => (pidKind p.pid, pidMember p.pid, pidInst p.pid)).Nodup)

/-- Current: SVN is at least the anti-rollback count (R365). -/
def Hub.bCurrent (h : Hub) (s : Fin 3) : Bool := decide (h.fuse.svn ≤ h.bSvn s)

/-- May the hub apply the bundle of a store? -/
def Hub.bundleFit (h : Hub) (s : Fin 3) : Bool := h.bLegal s && h.bAuthentic s && h.bCurrent s

/-! ## DRAM training (R384) -/

/-- Training ends; a full training writes the values it found. Where a DRAM partition left a verify running that fails, a
full training follows (Table 12.10). -/
def Hub.dramDone (h : Hub) (ok : Bool) (vals : List W32) : Hub :=
  if !h.bit F.DRM_TRAIN_GO then h
  else
    let owed := h.ldr.dramOwed
    let h := (h.off F.DRM_TRAIN_GO).modLdr fun l => { l with dramOwed := false }
    if ok then
      let h := (h.on F.DRM_STAT_TRAINED).off F.DRM_STAT_TRAIN_ERR
      if h.fld F.DRM_TRAIN_MODE = 0 then
        vals.zipIdx.foldl (fun h p => if p.2 < 16 then h.put (F.DRM_TRAINVAL_V p.2) p.1.toNat else h) h
      else h
    else
      let h := (h.off F.DRM_STAT_TRAINED).on F.DRM_STAT_TRAIN_ERR
      if owed then h.dramTrain 0 else h

/-- DRAM_TRAIN (R384). -/
def execDramTrain (a : Access) (v : W32) (s : State) : Host.Outcome State Fault Refusal :=
  s.goes (s.hub.cmdWrite a 0xC0008 fun h =>
    some (if v.bit 0 then h.dramTrain (v.bits 2 1) else h.put F.DRM_TRAIN_MODE (v.bits 2 1)))

/-- DRAM_TRAIN_DONE (R384). -/
def execDramTrainDone (ok : Bool) (vals : List W32) (s : State) : Host.Outcome State Fault Refusal :=
  s.goes (s.hub.dramDone ok vals)

/-! ## Records (Table 12.4) -/

/-- A record. -/
inductive Rec where
  | nop
  | write (off : Nat) (v : W32)
  | block (off : Nat) (fixed : Bool) (ws : List W32)
  | poll (off : Nat) (mask v : W32) (timeoutUs : Nat)
  | commit (off : Nat)
  | done
  deriving DecidableEq, Repr

/-- The first record of a tile's words, and the words after it; none for a bad OP, a count outside 1-60 or a record that
the tile cuts off. -/
def parseRec (ws : List W32) : Option (Rec × List W32) :=
  match ws with
  | [] => none
  | hd :: r =>
    let off := hd.bits 20 2 * 4
    match hd.bits 31 28, r with
    | 0, _ => some (.nop, r)
    | 1, v :: r => some (.write off v, r)
    | 2, n :: r =>
      let k := n.toNat
      if 1 ≤ k ∧ k ≤ 60 ∧ k ≤ r.length then some (.block off (hd.bit 27) (r.take k), r.drop k) else none
    | 3, m :: v :: t :: r => some (.poll off m v t.toNat, r)
    | 4, _ => some (.commit off, r)
    | 15, _ => some (.done, r)
    | _, _ => none

/-- A partition as it is applied: the hub, the waits still to come, the first failure with its tile, END seen. -/
structure Run where
  h : Hub
  waits : List Wait
  fail : Option (Nat × Nat) := none
  ended : Bool := false
  deriving DecidableEq, Repr

/-- How a partition is applied: by itself, at boot (cores and drone held back, R371), live (lanes, reed engines and cores
held back, R382), the drone part of a live activation (its COMMIT waits for the cycle). -/
inductive Mode where
  | plain | boot | live | drone
  deriving DecidableEq, Repr

/-- The steward's own accesses: requester 0. -/
def stewAcc : Access := { req := 0, node := 0, mem := 0, posted := false }

/-- The start bits a mode holds back are remembered and not written. -/
def Hub.holdBack (h : Hub) (m : Mode) (off : Nat) (v : W32) : Hub × W32 :=
  let cut := v &&& 0xFFFFFFFE#32
  if !v.bit 0 then (h, v)
  else match m, locate off with
    | .boot, some (.rfx n, 0) => (h.modLdr fun l => { l with starts := l.starts ||| BitVec.twoPow 8 n }, cut)
    | .boot, some (.drn, 0) => (h.modLdr fun l => { l with after := some true }, cut)
    | .live, some (.rfx n, 0) =>
      (h.modLdr fun l => { l with live := l.live.map fun x => { x with runs := x.runs ||| BitVec.twoPow 8 n } }, cut)
    | .live, some (.lane n, 4) =>
      (h.modLdr fun l => { l with live := l.live.map fun x => { x with lanes := x.lanes ||| BitVec.twoPow 64 n } }, cut)
    | .live, some (.reed c, 0) =>
      (h.modLdr fun l => { l with live := l.live.map fun x => { x with reeds := x.reeds ||| BitVec.twoPow 8 c } }, cut)
    | _, _ => (h, v)

/-- A partition fails with a code of CFG_FAIL. -/
def Run.failAs (r : Run) (code tile : Nat) : Run := if r.fail.isSome then r else { r with fail := some (code, tile) }

/-- The keepers of the lanes as they were: whatever a partition writes, they let go at its end only (R22). -/
def Hub.keepAs (h g : Hub) : Hub :=
  { h with lanes := Vector.ofFn fun n => { h.lanes[n] with keep := (h.lanes[n]).keep || (g.lanes[n]).keep } }

/-- One register write of a record. -/
def Run.write (m : Mode) (tile off : Nat) (v : W32) (r : Run) : Run :=
  if r.fail.isSome then r
  else
    let q := r.h.holdBack m off v
    match q.1.writeReg stewAcc off q.2 with
    | some h => { r with h := h.keepAs q.1 }
    | none => { r with h := q.1.refuse stewAcc off true }.failAs 4 tile

/-- A wait whose condition does not hold now. -/
def Run.await (code tile : Nat) (r : Run) : Run :=
  match r.waits with
  | .met :: w => { r with waits := w }
  | .trained vals :: w => { r with h := r.h.dramDone true vals, waits := w }
  | .timeout :: w => { r with waits := w }.failAs code tile
  | [] => r.failAs code tile

/-- One record acts (Table 12.4). -/
def Run.act (m : Mode) (tile : Nat) (r : Run) (x : Rec) : Run :=
  match x with
  | .nop => r
  | .write off v => r.write m tile off v
  | .block off fixed ws =>
    ws.zipIdx.foldl (fun r p => r.write m tile (if fixed then off else off + 4 * p.2) p.1) r
  | .poll off mask v _ =>
    let (h, got) := r.h.readReg stewAcc off
    match got with
    | none => { r with h := h.refuse stewAcc off false }.failAs 4 tile
    | some x => if BitVec.ofNat 32 x &&& mask = v then { r with h := h } else { r with h := h }.await 5 tile
  | .commit off =>
    let r := r.write m tile off 1
    if r.fail.isSome || m == .drone then r
    else
      let (h, got) := r.h.readReg stewAcc off
      match got with
      | some x => if x % 2 = 0 then { r with h := h } else { r with h := h }.await 6 tile
      | none => r
  | .done => { r with ended := true }

/-- The records of a tile, in order, up to END or a failure. -/
def Run.recs (m : Mode) (tile : Nat) : Nat → Run → List W32 → Run
  | 0, r, _ => r
  | fuel + 1, r, ws =>
    if r.fail.isSome || r.ended || ws.isEmpty then r
    else match parseRec ws with
      | none => r.failAs 8 tile
      | some (x, rest) => Run.recs m tile fuel (r.act m tile x) rest

/-! ## Partitions (R372) -/

/-- One image tile: its CRC, its kind and number, its records; nothing follows END. -/
def Run.tile (m : Mode) (kind : Nat) (r : Run) (i : Nat) (bs : List Byte) : Run :=
  if r.fail.isSome then r
  else if r.ended then r.failAs 7 i
  else if leWord (bs.drop 252) ≠ crc32c (bs.take 252) then r.failAs 2 i
  else
    let hd := leWord bs
    if hd.bits 31 28 ≠ kind ∨ hd.bits 27 16 ≠ i then r.failAs 3 i
    else if kind = 1 then r
    else r.recs m i 62 (leWords 62 (bs.drop 4))

/-- The payload words of a partition's tiles: the firmware of a BOOT partition, from SRAM offset 0 (R367). -/
def firmwareOf (raw : List Byte) : List W32 :=
  (List.range (raw.length / 256)).flatMap fun i => leWords 62 (raw.drop (256 * i + 4))

/-- Apply a partition: digest, then tile by tile; END is required in the last. BOOT holds firmware and no records. -/
def Hub.applyPart (h : Hub) (m : Mode) (p : Partition) : Run :=
  let r : Run := { h := h, waits := p.waits }
  let kind := pidKind p.pid
  let n := p.raw.length / 256
  if Config.sha256 p.raw ≠ p.digest ∨ n = 0 ∨ 1024 < n then r.failAs 1 0
  else
    let r := (List.range n).foldl (fun r i => r.tile m kind i ((p.raw.drop (256 * i)).take 256)) r
    if kind = 1 then
      (if r.fail.isSome then r else { r with h := r.h.modLdr fun l => { l with sram := firmwareOf p.raw } })
    else if r.ended then r else r.failAs 7 (n - 1)

/-- A bit of a row in CFG_STAT. -/
def Hub.degBit (h : Hub) (f : Fld) (i : Nat) (on : Bool) : Hub := h.rstBit f i on

/-- The first failure is recorded (R372). -/
def Hub.cfgFail (h : Hub) (kind inst code tile : Nat) : Hub :=
  let h := if h.ldr.failed then h
    else (((h.put F.CFG_FAIL_KIND kind).put F.CFG_FAIL_INST inst).put F.CFG_FAIL_CODE code).put F.CFG_FAIL_TILE tile
  (h.modLdr fun l => { l with failed := true }).flag .cfg F.CFG_FLAG_APPLY_FAIL

/-- A cluster number of a PID. -/
def pidCluster (p : W32) : Fin 8 := ⟨pidInst p % 8, by omega⟩

/-- The DRAM partition ends: a verify under way is followed by a full training if it fails; with no values or a failed verify
the full training starts, and a wait of the apply may bring its end (Table 12.10). -/
def Hub.dramEnd (h : Hub) (ws : List Wait) : Hub × List Wait :=
  let n := h.fld F.DRM_CTL_SIZE
  if n = 0 ∨ 4 < n ∨ h.bit F.DRM_STAT_TRAINED then (h, ws)
  else
    let h := if h.bit F.DRM_TRAIN_GO then h.modLdr fun l => { l with dramOwed := true } else h.dramTrain 0
    match ws with
    | .trained vals :: w => (h.dramDone true vals, w)
    | _ => (h, ws)

/-- A cluster that stayed in its cluster reset after a failed apply leaves it with the apply that succeeds (R373). -/
def Hub.clusterOut (h : Hub) (c : Fin 8) : Hub :=
  if h.regionBusy (c / 4) || (h.fld F.GLB_RST_CTL_CLUSTER).testBit c then h
  else (lanesOf c).foldl (fun h (n : Fin 64) => if h.bit (F.LN_CTL_RST n) then h else h.laneResetEnd n) h

/-- What the end of an apply does: a failed CLUSTER partition leaves its cluster reset, a failed REFLEX partition its core
stopped (R373); a CLUSTER partition that succeeds lets the keepers go (R22). -/
def Hub.partEnd (h : Hub) (p : W32) (fail : Option (Nat × Nat)) : Hub :=
  let c := pidCluster p
  match fail with
  | some (code, tile) =>
    let h := h.cfgFail (pidKind p) (pidInst p) code tile
    if pidKind p = 5 then (h.clusterRst c).degBit F.CFG_STAT_CLUS_DEG c true
    else if pidKind p = 7 then
      ((h.coreUnrun c).modLdr fun l => { l with starts := l.starts &&& ~~~ (BitVec.twoPow 8 c) }).degBit F.CFG_STAT_CORE_DEG c true
    else h
  | none =>
    if pidKind p = 5 then
      (((lanesOf c).foldl (fun h n => h.modLane n fun l => { l with keep := false }) h).clusterOut c).degBit F.CFG_STAT_CLUS_DEG c false
    else if pidKind p = 7 then h.degBit F.CFG_STAT_CORE_DEG c false
    else h

/-- Apply a partition with its end; the waits left and whether it succeeded. -/
def Hub.applyWhole (h : Hub) (m : Mode) (p : Partition) : Hub × List Wait × Bool :=
  let r := h.applyPart m p
  let h := r.h.partEnd p.pid r.fail
  let q := if pidKind p.pid = 2 ∧ r.fail.isNone then h.dramEnd r.waits else (h, r.waits)
  (q.1, q.2, r.fail.isNone)

/-- PARTITION_APPLY (R372): of this member only (R366). -/
def execPartitionApply (p : Partition) (s : State) : Host.Outcome State Fault Refusal :=
  s.goes (if pidMember p.pid = s.hub.member then (s.hub.applyWhole .plain p).1 else s.hub)

/-! ## Single records -/

/-- A record acts by itself; its failure is recorded with no partition. -/
def Hub.oneRec (h : Hub) (x : Rec) (w : List Wait) : Hub :=
  let r := Run.act .plain 0 { h := h, waits := w } x
  match r.fail with
  | some (code, _) => r.h.cfgFail 0 0 code 0
  | none => r.h

/-- RECORD_NOP (R367). -/
def execRecordNop (s : State) : Host.Outcome State Fault Refusal := s.goes (s.hub.oneRec .nop [])

/-- RECORD_WRITE (R367). -/
def execRecordWrite (off v : W32) (s : State) : Host.Outcome State Fault Refusal :=
  s.goes (s.hub.oneRec (.write off.toNat v) [])

/-- RECORD_BLOCK (R367): a count outside 1-60 fails. -/
def execRecordBlock (off : W32) (fixed : Bool) (ws : List W32) (s : State) : Host.Outcome State Fault Refusal :=
  s.goes (if ws.isEmpty || decide (60 < ws.length) then s.hub.cfgFail 0 0 8 0
    else s.hub.oneRec (.block off.toNat fixed ws) [])

/-- RECORD_POLL (R367). -/
def execRecordPoll (off mask v : W32) (timeoutUs : Nat) (wait : Wait) (s : State) : Host.Outcome State Fault Refusal :=
  s.goes (s.hub.oneRec (.poll off.toNat mask v timeoutUs) [wait])

/-- RECORD_COMMIT (R367, R375). -/
def execRecordCommit (off : W32) (wait : Wait) (s : State) : Host.Outcome State Fault Refusal :=
  s.goes (s.hub.oneRec (.commit off.toNat) [wait])

/-- RECORD_END (R367). -/
def execRecordEnd (s : State) : Host.Outcome State Fault Refusal := s.goes (s.hub.oneRec .done [])

end Sys2Proof.Machine
end

