-- ==== Sys2Proof/Machine/Boot.lean ====
section
/-! DEFINITION. The boot control block, the boot, the trial and its confirmation (12 R369-R373, R379, R380). -/

namespace Sys2Proof.Machine

/-! ## The boot control block (R369) -/

/-- The place of the copy in force: good, with the higher SEQ modulo 2^32. -/
def Hub.bcbAt (h : Hub) : Option (Fin 2) :=
  match h.ldr.bcb[(0 : Fin 2)], h.ldr.bcb[(1 : Fin 2)] with
  | none, none => none
  | some _, none => some 0
  | none, some _ => some 1
  | some a, some b => some (if (b.seq - a.seq).toNat < 2 ^ 31 then 1 else 0)

/-- The boot control block in force; without a good copy ACTIVE = A, both WRITTEN, no trial. -/
def Hub.bcb (h : Hub) : Bcb :=
  match h.bcbAt with
  | none => {}
  | some i => h.ldr.bcb[i].getD {}

/-- Write it: into the other copy, with SEQ one higher. -/
def Hub.bcbWrite (h : Hub) (b : Bcb) : Hub :=
  let i : Fin 2 := if h.bcbAt = some 0 then 1 else 0
  h.modLdr fun l => { l with bcb := l.bcb.set i (some { b with seq := h.bcb.seq + 1 }) }

/-- The STATE word (Table 12.5). -/
def Bcb.word (b : Bcb) : W32 :=
  BitVec.ofNat 32 (b.active + b.trial * 4 + b.trials * 16 + b.a * 256 + b.b * 1024)

/-- Slot states. -/
def slEMPTY : Nat := 0
def slWRITTEN : Nat := 1
def slCONFIRMED : Nat := 2
def slFAILED : Nat := 3

/-- The state of a slot. -/
def Bcb.slot (b : Bcb) (s : Nat) : Nat := if s = 0 then b.a else b.b

/-- A slot takes a state. -/
def Bcb.mark (b : Bcb) (s v : Nat) : Bcb := if s = 0 then { b with a := v } else { b with b := v }

/-- The store of a slot code. -/
def slotOf (s : Nat) : Fin 3 := ⟨s % 3, by omega⟩

/-! ## Phases (CFG_STAT.PHASE) -/

def phROM : Nat := 0
def phBOOT : Nat := 1
def phAPPLY : Nat := 2
def phJOIN : Nat := 3
def phSTART : Nat := 4
def phTRIAL : Nat := 5
def phRUN : Nat := 6
def phRECOVERY : Nat := 7
def phLIVE : Nat := 8

/-- The phase. -/
def Hub.phase (h : Hub) : Nat := h.fld F.CFG_STAT_PHASE
/-- The running slot's code. -/
def Hub.slot (h : Hub) : Nat := h.fld F.CFG_STAT_SLOT

/-- Does a trial stand: a bundle runs from the slot the BCB tries (R379)? -/
def Hub.inTrial (h : Hub) : Bool := h.ldr.running && decide (h.bcb.trial < 2) && h.bcb.trial == h.slot

/-- A reset that a failed or ended trial, or an activation, asks for. -/
def Hub.warmNow (h : Hub) : Hub := h.warmRst.hwSet F.GLB_RST_CAUSE_WARM

/-- Recovery: nothing is applied to the field (R371). -/
def Hub.recover (h : Hub) : Hub := h.put F.CFG_STAT_PHASE phRECOVERY

/-! ## Applying a bundle (Table 12.7) -/

/-- The bundle of a store is named in CFG_STAT, CFG_IMGID and CFG_SVN. -/
def Hub.nameBundle (h : Hub) (s : Fin 3) : Hub :=
  ((h.put F.CFG_STAT_SLOT s).put F.CFG_IMGID_ID (h.bImgId s)).put F.CFG_SVN_BUNDLE (h.bSvn s)

/-- The failure of these partitions fails the boot (R373). -/
def fatalKind (k : Nat) : Bool := k != 5 && k != 7

/-- Apply every partition of this member in order; answers the waits left and whether the boot goes on. -/
def Hub.applyAll (h : Hub) (s : Fin 3) (waits : List Wait) : Hub × List Wait × Bool :=
  (h.bOrder s).foldl (fun (a : Hub × List Wait × Bool) p =>
    if !a.2.2 then a
    else
      let r := a.1.applyWhole .boot { pid := p.pid, raw := a.1.bRaw s p, digest := p.digest, waits := a.2.1 }
      (r.1, r.2.1, r.2.2 || !fatalKind (pidKind p.pid))) (h, waits, true)

/-- Steps 4 to 6: the bundle is applied; a trial starts its timer (R380). Answers whether the boot goes on, and the waits
left. -/
def Hub.applyBundle (h : Hub) (s : Fin 3) (trial : Bool) (waits : List Wait) : Hub × List Wait × Bool :=
  let h := ((h.nameBundle s).put F.CFG_STAT_PHASE phAPPLY).put F.CFG_STAT_TRIALS (if trial then h.bcb.trials else 0)
  let h := h.modLdr fun l => { l with
    starts := 0, after := some false, trialEnd := if trial then some (h.now + h.bTrial s) else none }
  let r := h.applyAll s waits
  let h := r.1
  if r.2.2 then
    ((h.put F.CFG_STAT_PHASE phJOIN).modLdr fun l => { l with running := true, stack := some (h.fld F.RNG_JOINCFG_MEMBERS) },
      r.2.1, true)
  else (h.modLdr fun l => { l with after := none }, r.2.1, false)

/-- Steps 7 and 8, once the ring is joined or the image runs no ring: DRN_CTL.EN, then the cores; then the phase is
TRIAL or RUN. -/
def Hub.bootFinish (h : Hub) : Hub :=
  if h.phase = phJOIN ∧ h.ldr.running ∧ (!h.bit F.RNG_CTL_EN ∨ h.node ≠ 0) then
    let h := if h.ldr.after = some true then h.droneEnable else h
    let h := h.put F.CFG_STAT_PHASE phSTART
    let h := (List.finRange 8).foldl (fun h (n : Fin 8) => if h.ldr.starts.getLsbD n then h.coreRun n else h) h
    (h.modLdr fun l => { l with after := none }).put F.CFG_STAT_PHASE (if h.inTrial then phTRIAL else phRUN)
  else h

/-- A flash boot (R371): trials first, then ACTIVE, then the other slot if CONFIRMED and current. A trial whose apply
fails resets warm, which uses it (R373). -/
def Hub.bootFlash : Nat → Hub → List Wait → Hub
  | 0, h, _ => h.recover
  | fuel + 1, h, waits =>
    let b := h.bcb
    if b.trial < 2 ∧ b.trials < 2 then
      let h := h.bcbWrite { b with trials := b.trials + 1 }
      let s := slotOf b.trial
      if !h.bundleFit s then Hub.bootFlash fuel h waits
      else
        let r := h.applyBundle s true waits
        if r.2.2 then r.1 else r.1.warmNow
    else if b.trial < 2 then
      Hub.bootFlash fuel ((h.bcbWrite { b.mark b.trial slFAILED with trial := 3 }).flag .cfg F.CFG_FLAG_FELL_BACK) waits
    else
      let s := slotOf b.active
      let other := fun (h : Hub) (waits : List Wait) =>
        let o := 1 - b.active
        if b.slot o = slCONFIRMED ∧ h.bundleFit (slotOf o) then
          let r := h.applyBundle (slotOf o) false waits
          if r.2.2 then r.1 else r.1.recover
        else h.recover
      if !h.bundleFit s then other h waits
      else
        let r := h.applyBundle s false waits
        if r.2.2 then r.1 else other r.1 r.2.1

/-- The bundle that came over the ring or the stack boots without a slot or a trial (R370). -/
def Hub.bootServed (h : Hub) (waits : List Wait) : Hub :=
  let h := h.modLdr fun l => { l with ready := false }
  if !h.bundleFit 2 then h.recover
  else
    let r := h.applyBundle 2 false waits
    if r.2.2 then r.1 else r.1.recover

/-- A ring boot waits for its bundle: the ring ports run without FEC, from 25G down, and join with REQID 0; while none is
UP, a further BOOT tries the next lower rate once 100 ms have passed (Table 12.6). -/
def Hub.ringWait (h : Hub) : Hub :=
  let one := fun (h : Hub) (l : Fin 4) =>
    if !h.bit (F.X_CTL_EN l) then ((h.off (F.X_CTL_FEC l)).put (F.X_RATE_MAX l) 0).linkEnable l
    else ((h.linkDisable l).put (F.X_RATE_MAX l) ((h.fld (F.X_RATE_MAX l) + 1) % 3)).linkEnable l
  let due := !(h.bit (F.X_CTL_EN 0) || h.bit (F.X_CTL_EN 1)) || decide (h.ldr.tryAt + 40000000 ≤ h.now)
  let h := if h.linkIsUp 0 || h.linkIsUp 1 || !due then h
    else (one (one h 0) 1).modLdr fun l => { l with tryAt := h.now }
  (h.put F.RNG_JOINCFG_REQID 0).on F.RNG_CTL_EN

/-- After a cold boot the steward copies the BLW_FLAG bits it finds set into the error log and clears them (R444). -/
def Hub.blwCopy (h : Hub) : Hub :=
  let v := (List.range 9).foldl (fun v i => v + b2n (h.bit ⟨0x18008, i, 1⟩) * 2 ^ i) 0
  if v = 0 ∨ h.bit F.GLB_RST_CAUSE_WARM ∨ h.bit F.GLB_RST_CAUSE_RING ∨ h.bit F.GLB_RST_CAUSE_FATAL then h
  else (List.range 9).foldl (fun h i => h.off ⟨0x18008, i, 1⟩) (h.raise 1 Block.blw.unit causePOWER v)

/-- What the steward does first after a reset: BOOTID is drawn (R403), the channels are open, and the flags of the
Bellows are copied. -/
def Hub.stewardUp (h : Hub) : Hub :=
  if (h.mbx[(0 : Fin 4)]).opened then h
  else
    let h := h.blwCopy
    let g := h.draw
    { g.2.put F.SEC_BOOTID_ID (g.1 % 2 ^ 32) with mbx := h.mbx.map fun m => { m with opened := true } }

/-- The boot (R370). A hub that has booted stays as it is. -/
def Hub.boot (h : Hub) (src : BootSource) : Hub :=
  if h.phase ≠ phROM ∨ h.ldr.running then h
  else
    let h := h.stewardUp
    if !h.bit F.GLB_STRAP_BOOT_SRC then (Hub.bootFlash 4 h src.waits).bootFinish
    else if h.member = 0 then
      if h.ldr.ready then (h.bootServed src.waits).bootFinish else h.ringWait
    else if src.bundle.isEmpty then h
    else ((h.modLdr fun l => { l with store := l.store.set 2 (flashPut [] 0 src.bundle) }).bootServed src.waits).bootFinish

/-- BOOT (R371). -/
def execBoot (src : BootSource) (s : State) : Host.Outcome State Fault Refusal := s.goes (s.hub.boot src)

/-! ## The trial (R379, R380) -/

/-- Do the conditions of R379 hold: no partition failed, the ring joined where the bundle asks it, the image's cores run? -/
def Hub.healthyTrial (h : Hub) : Bool :=
  !h.ldr.failed && (!h.bRing (slotOf h.slot) || h.node != 0) &&
    (List.finRange 8).all fun (n : Fin 8) => !h.ldr.starts.getLsbD n || h.coreActive n

/-- A trial is confirmed: timer, BCB, fuses. -/
def Hub.confirmTrial (h : Hub) : Hub :=
  let h := h.trialStop
  let h := h.bcbWrite { h.bcb.mark h.slot slCONFIRMED with active := h.slot, trial := 3, trials := 0 }
  let h := { h with fuse := { h.fuse with svn := max h.fuse.svn (h.bSvn (slotOf h.slot)) } }
  (h.flag .cfg F.CFG_FLAG_FUSE_ADV).put F.CFG_STAT_PHASE phRUN

/-- With AUTO_CONFIRM set, the steward confirms as soon as the conditions hold. -/
def Hub.autoConfirm (h : Hub) : Hub :=
  if h.inTrial && h.phase == phTRIAL && h.bAutoConfirm (slotOf h.slot) && h.healthyTrial then h.confirmTrial else h

/-- TRIAL_EXPIRE (R380). -/
def execTrialExpire (s : State) : Host.Outcome State Fault Refusal :=
  s.goes (if s.hub.ldr.trialEnd.any fun t => decide (t ≤ s.hub.now) then s.hub.warmNow else s.hub)

/-! ## Reapply (R376) -/

/-- Reapply the CLUSTER partition of a cluster from the running slot; answers whether it succeeded. -/
def Hub.reapply (h : Hub) (c : Fin 8) (waits : List Wait) : Hub × List Wait × Bool :=
  match h.bPart (slotOf h.slot) 5 c with
  | none => (h, waits, false)
  | some p =>
    let r := h.applyWhole .plain { pid := p.pid, raw := h.bRaw (slotOf h.slot) p, digest := p.digest, waits := waits }
    (r.1.flag .cfg F.CFG_FLAG_REAPPLY, r.2)

/-- Is a reset of a cluster under way (R24)? -/
def Hub.inReset (h : Hub) (c : Fin 8) : Bool :=
  (h.fld F.GLB_RST_CTL_CLUSTER).testBit c || h.regionBusy (c / 4)

/-- A cluster owed its reapply gets it: its domain is requested ON first; a refused request fails it. -/
def Hub.owedOne (h : Hub) (c : Fin 8) : Hub :=
  let forget := fun (h : Hub) => h.modLdr fun l => { l with owed := l.owed &&& ~~~ (BitVec.twoPow 8 c) }
  if !h.ldr.owed.getLsbD c || !h.ldr.running || h.inReset c then h
  else if !h.clusterPresent c || (h.bPart (slotOf h.slot) 5 c).isNone then forget h
  else if h.domOn (18 + c) then ((forget h).reapply c []).1
  else if h.dph (clusterDom c) ≠ 0 then h
  else match h.powerRequest stewAcc (clusterDom c) 0 with
    | some h => if h.domOn (18 + c) || h.dph (clusterDom c) != 0 then h else forget h
    | none => forget h

/-- The reapplies owed (R376). -/
def Hub.owedAll (h : Hub) : Hub := (List.finRange 8).foldl (fun h c => h.owedOne c) h

end Sys2Proof.Machine
end

