-- ==== Sys2Proof/Machine/Serve.lean ====
section
/-! DEFINITION. Serving requests as a target: the checks of a request, windows and allowlists, lane accesses, locks,
retry slots, Echo and salvage (07 R201-R233; 01 R31-R33; 02 R69-R71, R503; 04 R142; 06 R187; 11 R357). -/

namespace Sys2Proof.Machine

/-- The answer of the target; `rel` marks a relayed copy, whose errors are logged here and reported to nobody (R357). -/
def Hub.answerRq (h : Hub) (rel : Bool) (rq : Request) (st : Nat) (est : Nat := 0) (lock salv : Bool := false)
    (data : List Byte := []) : Hub :=
  if rel then (if st = stOK ∨ st = stCA then h else h.logAccess rq) else h.respond rq st est lock salv data

/-! ## Checks before the windows -/

/-- An operation outside Table 7.1, or in a frame type it does not allow. -/
def badOp (rq : Request) : Bool :=
  decide (4 < rq.op.toNat) || (rq.posted && (rq.op == opREAD || isLock rq.op)) || (isLock rq.op && rq.addr.space != 3) ||
    (rq.op == opUNLOCK && rq.addr.space != 3) || (rq.addr.node == 255 && (!rq.posted || rq.op != opWRITE))

/-- Does the length or the alignment break Table 7.3, or is write data not LEN bytes (R202)? -/
def badLen (rq : Request) : Bool :=
  if rq.op = opUNLOCK then false
  else
    let o := rq.addr.off
    (isWrite rq.op && rq.data.length != rq.len) ||
    match rq.addr.space with
    | 0 => rq.len != 4 || o % 4 != 0
    | 3 => rq.len == 0 || decide (256 < rq.len) || (rq.addr.dev / 2 ^ 28 == 0 && rq.len % 4 != 0)
    | _ => decide (rq.len < 4 ∨ 4096 < rq.len) || rq.len % 4 != 0 || o % 4 != 0 || decide (4096 < o % 4096 + rq.len)

/-- Installed DRAM in bytes (Table 12.10). -/
def Hub.dramSize (h : Hub) : Nat :=
  let s := h.fld F.DRM_CTL_SIZE
  if 1 ≤ s ∧ s ≤ 4 then 2 ^ (27 + s) else 0

/-- Does a DRAM access touch the spill region (R32, R195)? -/
def Hub.touchesSpill (h : Hub) (o len : Nat) : Bool :=
  let b := h.fld F.DRM_SPILL_BASE_MIB * 2 ^ 20
  decide (b < o + len ∧ o < b + min 1024 (h.fld F.DRM_SPILL_SIZE_MIB) * 2 ^ 20)

/-- What R187 lets a requester touch in tile memory. -/
def Hub.tileAllowed (h : Hub) (req : BitVec 4) (o len : Nat) : Bool :=
  (tilesOf o len).all fun t =>
    let p := h.partOf t
    let st := req == 0 || req == 13
    if p = 0 then st && h.tl.quarantined t else if p = 4 then st else true

/-- Are the tile banks of a range in domains that are ON (R408, R409)? -/
def Hub.banksOn (h : Hub) (o len : Nat) : Bool := (tilesOf o len).all fun t => h.domOn (4 + t / 4096)

/-- The kinds of lane access (Table 26 of chapter 02). -/
inductive LaneAcc where
  | bad | stream | bus | pd | ssi | quad | pins | canRam | canTx
  deriving DecidableEq, Repr

/-- A QUAD or PINS offset names one of some registers, whole (R69). -/
def oneReg (d len : Nat) (offs : List Nat) : Bool := len == 4 && offs.contains (d % 2 ^ 28)

/-- What a request to a lane asks (Table 2.26, R69, R142). A target-mode SPI or I2C lane runs no access of its own. -/
def Hub.laneAcc (h : Hub) (rq : Request) : LaneAcc :=
  let n := rq.lane
  let f := h.fn n
  let d := rq.dev
  let k := d / 2 ^ 28
  if f = fnCAN then
    if k ≠ 1 then .bad
    else if d / 2 ^ 25 % 8 = 0 then
      (if d % 4 = 0 ∧ rq.len % 4 = 0 ∧ d % 2 ^ 14 + rq.len ≤ 0x2800 then .canRam else .bad)
    else if d / 2 ^ 25 % 8 = 1 ∧ isWrite rq.op then .canTx else .bad
  else if f = fnPAIR then .bad
  else if k = 0 then (if d % 2 ^ 28 = 0 then .stream else .bad)
  else if k ≠ 1 then .bad
  else if f = fnSPI then (if (h.cfg n 0).getLsbD 24 || d / 2 ^ 26 % 4 = 3 then .bad else .bus)
  else if f = fnI2C then (if (h.cfg n 0).getLsbD 2 then .bad else .bus)
  else if f = fnSDCI then (if d.testBit 24 then .pd else .bus)
  else if f = fnSSI then (if d % 2 ^ 28 = 0 ∧ isRead rq.op then .ssi else .bad)
  else if f = fnQUAD then
    (if isRead rq.op then (if oneReg d rq.len [0, 4, 8] then .quad else .bad) else if oneReg d rq.len [0] then .quad else .bad)
  else if f = fnPINS then (if oneReg d rq.len [0, 4] then .pins else .bad)
  else .bad

/-- The lane check of R33 with the offset's (R32, R69): the status that ends a request, `none` when the lane can serve it. -/
def Hub.laneCheck (h : Hub) (rq : Request) : Option Nat :=
  (h.laneFirst rq).or (if rq.op ≠ opUNLOCK ∧ h.laneAcc rq = .bad then some stUR else none)

/-- The checks of R32 and R33 in every space. -/
def Hub.spaceCheck (h : Hub) (rq : Request) : Option Nat :=
  let o := rq.addr.off
  match rq.addr.space with
  | 0 => if o < 0x200000 then none else some stUR
  | 1 =>
    if 0x400000 < o + rq.len then some stUR
    else if !h.tileAllowed (h.accessOf rq).req o rq.len then some stCA
    else if !h.banksOn o rq.len then some stDOWN else none
  | 2 =>
    if h.dramSize < o + rq.len then some stUR
    else if h.touchesSpill o rq.len then some stCA
    else if !h.domOn 13 || !h.bit F.DRM_STAT_RUN then some stDOWN else none
  | _ => h.laneCheck rq

/-! ## Spaces 00, 01 and 10 -/

/-- Space 00: one register. A write that starts a warm reset leaves nobody to answer. -/
def Hub.serveReg (h : Hub) (rel : Bool) (rq : Request) : Hub :=
  let a := h.accessOf rq
  if isRead rq.op then
    let (h, x) := h.readReg a rq.addr.off
    match x with
    | some v => h.answerRq rel rq stOK 0 false false (leBytes (BitVec.ofNat 32 v))
    | none => (h.logAccess rq).answerRq rel rq stCA
  else match h.writeReg a rq.addr.off (leWord rq.data) with
    | some h' => if rq.addr.off = 0x10 ∧ (leWord rq.data).bit 0 then h' else h'.answerRq rel rq stOK
    | none => (h.logAccess rq).answerRq rel rq stCA

/-- Space 01: tile memory; a read verifies every tile it touches (consumer 5). -/
def Hub.serveTile (h : Hub) (rel : Bool) (rq : Request) : Hub :=
  let o := rq.addr.off
  if isRead rq.op then
    let r := h.verifyAll (tilesOf o rq.len) 5
    if r.2 then r.1.answerRq rel rq stOK 0 false false (bytesAt r.1.tl.mem o rq.len) else r.1.answerRq rel rq stPOISON
  else (h.imgWrite o rq.data).answerRq rel rq stOK

/-- Space 10: DRAM. -/
def Hub.serveDram (h : Hub) (rel : Bool) (rq : Request) : Hub :=
  if isRead rq.op then h.answerRq rel rq stOK 0 false false (bytesAt h.dram rq.addr.off rq.len)
  else ({ h with dram := writeBytes h.dram rq.addr.off rq.data }).answerRq rel rq stOK

/-! ## STREAM accesses (R49, R69, R70) -/

/-- Pop good words for a STREAM read. -/
def Fifo.popGood : Nat → Fifo → List W32 → Fifo × List W32
  | 0, f, ws => (f, ws)
  | k + 1, f, ws => match f.pop with
    | (_, none) => (f, ws)
    | (f', some w) => if w.good then Fifo.popGood k f' (ws ++ [w.w]) else (f, ws)

/-- RXTAG after a pop that found a word (R43). -/
def Hub.rxTag (h : Hub) (n : Fin 64) (req : BitVec 4) (bad : Bool) : Hub :=
  ((h.put (F.LN_RXTAG_REQ n) req.toNat).off (F.LN_RXTAG_EMPTY n)).putB (F.LN_RXTAG_POISON n) bad

/-- A STREAM read: the good words present, or POISON for a failed first word. -/
def Hub.streamRead (h : Hub) (rel : Bool) (rq : Request) : Hub :=
  let n := rq.lane
  let who := (h.accessOf rq).req
  let f := (h.lane n).rx
  match f.q with
  | w :: _ =>
    if w.good then
      let r := Fifo.popGood (rq.len / 4) f []
      let h := (h.modLane n fun l => { l with rx := r.1 }).rxTag n who false
      h.answerRq rel rq stOK 0 false false (r.2.flatMap leBytes)
    else
      let h := (h.modLane n fun l => { l with rx := l.rx.pop.1 }).rxTag n who true
      ((h.laneFlags n [lfRX_POISON]).raise 2 (laneUnit n) causePARITY (f.rd.toNat % 64)).answerRq rel rq stPOISON
  | [] => h.answerRq rel rq stOK

/-- A STREAM write: every word or none (R70). -/
def Hub.streamWrite (h : Hub) (rel : Bool) (rq : Request) : Hub :=
  let n := rq.lane
  let k := rq.len / 4
  if 64 < (h.lane n).tx.q.length + k then
    let h := if rq.posted then h.laneFlags n [lfTX_OVF] else h
    let e := if rq.posted then (0, h) else h.drawEst
    e.2.answerRq rel rq stBACKOFF e.1
  else ((leWords k rq.data).foldl (fun h w => h.pushTx n w) h).answerRq rel rq stOK

/-! ## Accesses answered at once (R69, R142) -/

/-- The latest SSI pair. -/
def Hub.serveSsi (h : Hub) (rel : Bool) (rq : Request) : Hub :=
  let p := ((h.lane rq.lane).lastPair).getD (0, 0)
  let r := h.fit (leBytes p.1 ++ leBytes p.2) rq.len
  r.1.answerRq rel rq stOK 0 false false r.2

/-- QUAD registers: COUNT, ZLATCH, ZTIME; a write presets COUNT. -/
def Hub.serveQuad (h : Hub) (rel : Bool) (rq : Request) : Hub :=
  let n := rq.lane
  if isRead rq.op then h.answerRq rel rq stOK 0 false false (leBytes (h.cfg n (1 + rq.dev % 16 / 4)))
  else (h.quadPreset n (leWord rq.data)).answerRq rel rq stOK

/-- LNnn_IO as a register read shows it. -/
def Hub.ioWord (h : Hub) (n : Fin 64) : Nat := h.typedBits (.lane n) 0x24 + h.fld (F.LN_IO_OUT n)

/-- PINS registers: LNnn_IO and CFG1; a write gives OUT or DUTY. -/
def Hub.servePins (h : Hub) (rel : Bool) (rq : Request) : Hub :=
  let n := rq.lane
  let v := leWord rq.data
  if isRead rq.op then
    h.answerRq rel rq stOK 0 false false (if rq.dev % 16 = 0 then leBytes (BitVec.ofNat 32 (h.ioWord n)) else leBytes (h.cfg n 1))
  else if rq.dev % 16 = 0 then (h.outWrite n (v.bits 2 0)).answerRq rel rq stOK
  else (h.setCfg n 1 ((h.cfg n 1 &&& 0xFF000000#32) ||| (v &&& 0xFFFFFF#32))).answerRq rel rq stOK

/-- Message RAM words; a write that a K rule refuses gets CA, a read of a bad word stops the controller and gets POISON
(04 R135, R142). -/
def Hub.serveCanRam (h : Hub) (rel : Bool) (rq : Request) : Hub :=
  let k := h.laneCan rq.lane
  let i := rq.dev % 2 ^ 14 / 4
  if isRead rq.op then
    match ((List.range (rq.len / 4)).map (i + ·)).find? (h.can[k]).bad.contains with
    | some w => (h.canStop k w).answerRq rel rq stPOISON
    | none =>
      h.answerRq rel rq stOK 0 false false ((List.range (rq.len / 4)).flatMap fun j => leBytes ((h.can[k]).readWord (i + j)))
  else
    let r := (List.range (rq.len / 4)).foldl (fun (r : Option Hub) j => r.bind fun h => h.ramWrite k (i + j) (leWord (rq.data.drop (4 * j)))) (some h)
    match r with
    | some h' => h'.answerRq rel rq stOK
    | none => (h.logAccess rq).answerRq rel rq stCA

/-- A TXREQ by a bridge write. -/
def Hub.serveCanTx (h : Hub) (rel : Bool) (rq : Request) : Hub :=
  (h.canTxReq (h.laneCan rq.lane) ⟨rq.dev % 128, by omega⟩).answerRq rel rq stOK

/-! ## Echo learning (R221-R224) -/

/-- The stream of a key, or the one the key takes: an empty one or the least recently used. -/
def Hub.streamSlot (h : Hub) (rq : Request) (w : Nat) : Fin 16 :=
  let is_ := fun (s : Stream) => s.node == rq.snode && s.mem == rq.smem && s.req == rq.req && s.win == w
  match (List.finRange 16).find? fun i => (h.brg.stream[i]).any is_ with
  | some i => i
  | none => match (List.finRange 16).find? fun i => (h.brg.stream[i]).isNone with
    | some i => i
    | none => (List.finRange 16).foldl (fun (b i : Fin 16) =>
        if ((h.brg.stream[i]).map fun s => s.used).getD 0 < ((h.brg.stream[b]).map fun s => s.used).getD 0 then i else b) 0

/-- STRIDE: the step of three reads, newest first. -/
def strideOf (l : List Seen) : Option Int :=
  match l with
  | [c, b, a] =>
    let s : Int := (c.off : Int) - b.off
    if c.lane = b.lane ∧ b.lane = a.lane ∧ c.len = b.len ∧ b.len = a.len ∧ (b.off : Int) - a.off = s ∧ s ≠ 0 ∧ s.natAbs ≤ 4096
    then some s else none
  | _ => none

/-- PERIOD: the later interval of three reads, in ticks. -/
def periodOf (l : List Seen) : Option Nat :=
  match l with
  | [c, b, a] =>
    let i1 := b.tick - a.tick
    let i2 := c.tick - b.tick
    if c.lane = b.lane ∧ b.lane = a.lane ∧ c.off = b.off ∧ b.off = a.off ∧ c.len = b.len ∧ b.len = a.len ∧
        (max i1 i2 - min i1 i2) * 8 ≤ i1 ∧ us 20 ≤ i2 ∧ i2 ≤ us 100000
    then some i2 else none
  | _ => none

/-- A demand read enters its stream's history; one that fits neither pattern starts the learning again. -/
def Hub.learn (h : Hub) (rq : Request) (w : Nat) : Hub :=
  if !h.bit F.ECH_CTL_EN || !h.echoWin w || rq.again then h
  else
    let i := h.streamSlot rq w
    let seen : Seen := ⟨rq.lane, rq.dev, rq.len, h.now⟩
    let old := match h.brg.stream[i] with
      | some s => if s.node == rq.snode && s.mem == rq.smem && s.req == rq.req && s.win == w then s.hist else []
      | none => []
    let hist := (seen :: old).take 3
    let hist := if hist.length = 3 ∧ (strideOf hist).isNone ∧ (periodOf hist).isNone then [seen] else hist
    h.modBrg fun b => { b with stream := b.stream.set i (some ⟨rq.snode, rq.smem, rq.req, w, hist, h.now, false⟩) }

/-! ## Retry slots (R215-R219, R226, R227) -/

/-- The slot a request's key names. -/
def Hub.slotOfKey (h : Hub) (rq : Request) : Option (Fin 128) :=
  (List.finRange 128).find? fun i =>
    let s := h.brg.slot[i]
    s.st != .free && !s.echo && !s.gone && s.rq.any fun r => r.snode == rq.snode && r.smem == rq.smem && r.tag == rq.tag

/-- The same access as a slot's, which a reissue claims (R217). -/
def reclaims (a b : Request) : Bool :=
  b.again && !b.posted && a.op == b.op && a.addr.space == b.addr.space && a.addr.off == b.addr.off && a.len == b.len

/-- A request whose key names a slot that it does not claim abandons the slot (R217). -/
def Hub.abandonOld (h : Hub) (rq : Request) : Hub :=
  match h.slotOfKey rq with
  | some i => if rq.posted || (h.brg.slot[i]).rq.any fun r => reclaims r rq then h else h.abandon i
  | none => h

/-- The Echo slot in a state for the same lane, offset and LEN. -/
def Hub.echoSlot (h : Hub) (rq : Request) (st : SlotSt) : Option (Fin 128) :=
  (List.finRange 128).find? fun i =>
    let s := h.brg.slot[i]
    s.echo && s.st == st && !s.noServe && s.rq.any fun r => r.addr.off == rq.addr.off && r.len == rq.len

/-- A free slot, or the oldest ECHOED one, whose data goes to salvage (R219). -/
def Hub.takeSlot (h : Hub) : Option (Hub × Fin 128) :=
  match (List.finRange 128).find? fun i => (h.brg.slot[i]).st == .free with
  | some i => some (h, i)
  | none =>
    let old := (List.finRange 128).foldl (fun (b : Option (Fin 128)) i =>
      let s := h.brg.slot[i]
      if s.st != .echoed then b
      else match b with
        | none => some i
        | some j => if s.ord < (h.brg.slot[j]).ord then some i else b) none
    old.map fun i => (h.slotToSalv i 0, i)

/-- Start a lane access in a slot. -/
def Hub.slotStart (h : Hub) (i : Fin 128) (rq : Request) (echo : Bool) (win : Nat) : Hub :=
  let h := h.modBrg fun b =>
    { b with slot := b.slot.set i { st := .fetching, rq := some rq, echo := echo, win := win, at_ := h.now, ord := b.ord }, ord := b.ord + 1 }
  h.devAdd rq.lane { rq := rq, slot := some i, echo := echo, at_ := h.now }

/-- A request needs a slot: its access starts, or it gets BACKOFF (R219). -/
def Hub.newAccess (h : Hub) (rq : Request) (win : Nat) : Hub :=
  match h.takeSlot with
  | some (h', i) => h'.slotStart i rq false win
  | none =>
    let h := (h.count F.BRG_BACKOFFCNT).flag .brg F.BRG_FLAG_SLOTFULL
    h.drawEst.2.respond rq stBACKOFF h.drawEst.1

/-- May a salvage entry serve a read (R227)? -/
def Hub.salvFits (h : Hub) (rq : Request) (e : Salv) : Bool :=
  e.lane == rq.lane.val % 8 && e.off == rq.dev && e.data.length == rq.len && e.serve &&
    decide (h.now ≤ e.tick + us (max 10 (h.fld F.ECH_SALVLIFE_US)))

/-- The salvage entry that serves a read: the oldest that matches; one that fails parity when read is freed, and the lookup
goes on, at most through all 16 (R227, R228). -/
def Hub.salvServe (rq : Request) : Nat → Hub → Hub × Option (Fin 16 × Salv)
  | 0, h => (h, none)
  | fuel + 1, h =>
    let c := clusterOf rq.lane
    match oldestSalv h.brg.salv[c] (h.salvFits rq) with
    | none => (h, none)
    | some i => match (h.brg.salv[c])[i] with
      | none => (h, none)
      | some e =>
        if e.good then (h, some (i, e))
        else Hub.salvServe rq fuel ((h.setSalv c i none).raise 1 Block.ech.unit causePARITY (c.val * 16 + i.val))

/-- A running Echo fetch becomes a read's own access (R225). -/
def Hub.takeOver (h : Hub) (i : Fin 128) (rq : Request) : Hub :=
  let n := rq.lane
  let h := h.modSlot i fun s => { s with rq := some rq, echo := false }
  let d := (h.lane n).dev
  match d.find? fun x => x.slot == some i with
  | none => h
  | some x =>
    let x' : DevReq := { x with rq := rq, echo := false }
    if (h.lane n).devRun && d.head? == some x then h.modLane n fun l => { l with dev := x' :: l.dev.drop 1 }
    else (h.modLane n fun l => { l with dev := l.dev.filter (· != x) }).devAdd n x'

/-- ECHOED data of the same lane, offset and LEN that is older than FRESH goes to salvage (R226). -/
def Hub.echoStale (h : Hub) (rq : Request) : Hub :=
  match h.echoSlot rq .echoed with
  | some i => if (h.brg.slot[i]).tick + us (h.fld F.ECH_TIME_FRESH) < h.now then h.slotToSalv i 0 else h
  | none => h

/-- A read of a device bus that no slot of its own answers (R226, steps 2 to 6). -/
def Hub.busReadNew (h : Hub) (rq : Request) (win : Option Nat) : Hub :=
  let h := h.echoStale rq
  let r := if win.any fun w => h.bit (F.BRG_WIN_ATTR_SALVAGE w) then h.salvServe rq 16 else (h, none)
  match r.2 with
  | some (i, e) =>
    let h := ((r.1.setSalv (clusterOf rq.lane) i none).count F.ECH_SALVSERVE).flag .ech F.ECH_FLAG_SALVSERVE
    h.respond rq stOK (min 65535 ((h.now - e.tick) / 400)) false true e.data
  | none =>
    let h := r.1
    match h.echoSlot rq .echoed with
    | some i =>
      let d := (h.brg.slot[i]).data
      ((h.modSlot i fun _ => {}).count F.ECH_HIT).respond rq stOK 0 false false d
    | none => match h.echoSlot rq .fetching with
      | some i => h.takeOver i rq
      | none => h.newAccess rq (win.getD 0)

/-- A non-posted access to a device bus that no slot answers: a reissued write is not executed again (R217). -/
def Hub.busNew (h : Hub) (rq : Request) (win : Option Nat) (again : Bool) : Hub :=
  if isRead rq.op then h.busReadNew rq win
  else if again then
    (h.raise 1 Block.brg.unit causeTIMEOUT (rq.addr.off % 2 ^ 32) (h.accessOf rq).req (h.accessOf rq).node 3).respond rq stTIMEOUT
  else (h.writeOverlap rq.lane rq.dev rq.len).newAccess rq (win.getD 0)

/-- A non-posted access to a device bus (R217): a reissue claims its slot; a request whose key named a slot of another access
(`was`) is new. -/
def Hub.busAccess (h : Hub) (rq : Request) (win : Option Nat) (was : Bool) : Hub :=
  match h.slotOfKey rq with
  | none => h.busNew rq win (rq.again && !was)
  | some i =>
    let s := h.brg.slot[i]
    if s.st = .ready then (h.modSlot i fun _ => {}).respond rq s.status 0 false false s.data
    else (h.modSlot i fun s => { s with retried := true }).respond rq stRETRY (h.estOf i)

/-! ## Locks (R230-R233) -/

/-- What the lock of a lane says to a request: it may go on, or the answer it gets. -/
inductive LockSays where
  | go | retry | backoff | drop
  deriving DecidableEq, Repr

/-- A request meets the lock of its lane (Table 7.7, R231, R233). -/
def Hub.lockMeet (h : Hub) (rq : Request) : Hub × LockSays :=
  let n := rq.lane
  let k := h.keyOf rq
  let l := h.brg.lock[n]
  if l.broken.contains k then (h.modLock n fun l => { l with broken := l.broken.filter (· != k) }, .backoff)
  else
    let holder := l.owner.or l.rsv
    if isLock rq.op then
      if holder.all (· == k) then
        let h' := h.modLock n fun l => { l with owner := some k, rsv := none }
        (if l.owner = some k then h' else (h'.lockTouch n k).echoLock n, .go)
      else if holder.any fun o => o.lt k then (h, .backoff)
      else if l.owner.isSome then
        (if l.waiter.any fun w => !(k.lt w) then h else h.modLock n fun l => { l with waiter := some k }, .retry)
      else (h.modLock n fun l => { l with rsv := some k }, .retry)
    else if holder.all (· == k) then (h, .go)
    else (h, if rq.posted then .drop else .retry)

/-! ## The pair (R357) -/

/-- A copy of a request or record frame goes to the peer: subtype RELAY of Table 11.1; without a pair link it is dropped
and counted, at a Shadow a slip (R354). A member 1-3 has no pair link (log entry 130). -/
def Hub.relay (h : Hub) (snode : BitVec 8) (smem : BitVec 2) (typ : BitVec 4) (np : Bool) (at_ : BitVec 64)
    (pay : List Byte) : Hub :=
  if h.member ≠ 0 ∨ !h.linkIsUp 2 then ((h.count F.LMP_RELAYDROP).lampFlag F.LMP_FLAG_RELAYDROP).slip
  else
    let src : BitVec 8 := if snode = 0 then BitVec.ofNat 8 h.node else snode
    let w1 : W32 := src ++ smem ++ typ ++ BitVec.ofBool np ++ 0#17
    h.lampSend 0x08 [w1, at_.extractLsb' 32 32, at_.extractLsb' 0 32] pay

/-- The relay of a posted request. -/
def Hub.relayRq (h : Hub) (rq : Request) : Hub :=
  h.relay rq.snode rq.smem tREQ_P false ((rq.addr.extractLsb' 0 38).setWidth 64) (beBytes (Request.word rq) ++ rq.data)

/-! ## Serving -/

/-- A lane access that has met the lock: by its kind. -/
def Hub.serveLane (h : Hub) (rel : Bool) (rq : Request) (win : Option Nat) (was : Bool) : Hub :=
  match h.laneAcc rq with
  | .bad => h.answerRq rel rq stUR
  | .stream => if isRead rq.op then h.streamRead rel rq else h.streamWrite rel rq
  | .ssi => h.serveSsi rel rq
  | .quad => h.serveQuad rel rq
  | .pins => h.servePins rel rq
  | .canRam => h.serveCanRam rel rq
  | .canTx => h.serveCanTx rel rq
  | .pd | .bus =>
    if rq.posted then
      (h.writeOverlap rq.lane rq.dev rq.len).devAdd rq.lane { rq := rq, slot := none, at_ := h.now }
    else
      let h := match win with
        | some w => if rq.op = opREAD then h.learn rq w else h
        | none => h
      h.busAccess rq win was

/-- Space 11: the lock, then the access. -/
def Hub.serveSpace3 (h : Hub) (rel : Bool) (rq : Request) (win : Option Nat) (was : Bool) : Hub :=
  let est := fun (h : Hub) => h.drawEst
  if rq.op = opUNLOCK then
    let r := h.unlockMeet rq.lane (h.keyOf rq)
    if r.2 then r.1.answerRq rel rq stOK else (est r.1).2.answerRq rel rq stBACKOFF (est r.1).1 true
  else
    let r := h.lockMeet rq
    match r.2 with
    | .go => r.1.serveLane rel rq win was
    | .retry => r.1.answerRq rel rq stRETRY (max 1 (h.fld F.BRG_LKCFG_POLL))
    | .backoff => (est r.1).2.answerRq rel rq stBACKOFF (est r.1).1 true
    | .drop => ((r.1.count F.BRG_LKDROP).flag .brg F.BRG_FLAG_LKDROP).answerRq rel rq stBACKOFF

/-- Space 11 at a paired unit (Table 11.3). -/
def Hub.servePair (h : Hub) (rel : Bool) (rq : Request) (win : Option Nat) (was : Bool) : Hub :=
  if !h.paired ∨ rel then h.serveSpace3 rel rq win was
  else if rq.posted && (h.laneAcc rq == .pins || h.laneAcc rq == .quad) && rq.op == opWRITE then
    (h.serveSpace3 rel rq win was).relayRq rq
  else if h.holderUnit then h.serveSpace3 rel rq win was
  else if rq.posted then (h.relayRq rq).answerRq rel rq stDOWN
  else h.answerRq rel rq stDOWN

/-- Is a request in space 11 checked for its lane here, or by the holder it is relayed to? -/
def Hub.shadowRelays (h : Hub) (rel : Bool) (rq : Request) : Bool := rq.addr.space == 3 && h.shadowUnit && !rel &&
  !(rq.posted && (h.laneAcc rq == .pins || h.laneAcc rq == .quad) && rq.op == opWRITE)

/-- Does the bridge serve a request: enabled, and while a disable waits, only requests in progress (R239)? -/
def Hub.serves (h : Hub) (rq : Request) : Bool :=
  h.brgOn || (h.bit F.BRG_CTL_EN && rq.again && (h.slotOfKey rq).isSome)

/-- A request that this hub serves as its target (R201-R233). -/
def Hub.serve (h : Hub) (rq : Request) (rel : Bool := false) : Hub :=
  let h := if rq.posted then h.count F.BRG_PCNT else h.count F.BRG_NPCNT
  let first := if h.shadowRelays rel rq then none else h.laneFirst rq
  if !h.serves rq then h.answerRq rel rq stDOWN
  else
  let old := h.abandonOld rq
  let was := (h.slotOfKey rq).isSome && (old.slotOfKey rq).isNone
  let h := if rq.addr.space = 3 then old.lockTouch rq.lane (h.keyOf rq) else old
  if first.isSome then h.answerRq rel rq (first.getD stUR)
  else if badOp rq || badLen rq then h.answerRq rel rq stUR
  else if h.shadowRelays rel rq then h.servePair rel rq none was
  else match h.spaceCheck rq with
    | some st => (if st = stCA then h.logAccess rq else h).answerRq rel rq st
    | none => match h.winCheck rq with
      | none =>
        let h := match h.slotOfKey rq with
          | some i => if rq.again && !rq.posted then h.abandon i else h
          | none => h
        (h.logAccess rq).answerRq rel rq stCA
      | some win =>
        if rq.addr.space = 0 then h.serveReg rel rq
        else if rq.addr.space = 1 then h.serveTile rel rq
        else if rq.addr.space = 2 then h.serveDram rel rq
        else h.servePair rel rq win was

/-- READ (R201, R226). -/
def execRead (rq : Request) (s : State) : Host.Outcome State Fault Refusal := s.goes (s.hub.serve { rq with op := opREAD })

/-- WRITE (R201, R228). -/
def execWrite (rq : Request) (s : State) : Host.Outcome State Fault Refusal := s.goes (s.hub.serve { rq with op := opWRITE })

/-- LOCK_READ (R230). -/
def execLockRead (rq : Request) (s : State) : Host.Outcome State Fault Refusal := s.goes (s.hub.serve { rq with op := opLREAD })

/-- LOCK_WRITE (R230). -/
def execLockWrite (rq : Request) (s : State) : Host.Outcome State Fault Refusal := s.goes (s.hub.serve { rq with op := opLWRITE })

/-- UNLOCK (R230). -/
def execUnlock (rq : Request) (s : State) : Host.Outcome State Fault Refusal := s.goes (s.hub.serve { rq with op := opUNLOCK })

/-- A request of one kind of lane access; a command that names another kind of address changes nothing. -/
def Hub.serveAs (h : Hub) (rq : Request) (ok : Hub → Bool) : Hub :=
  if rq.addr.space == 3 && ok h then h.serve rq else h

/-- STREAM_WRITE (R70). -/
def execStreamWrite (rq : Request) (s : State) : Host.Outcome State Fault Refusal :=
  s.goes (s.hub.serveAs rq fun h => h.laneAcc rq == .stream && isWrite rq.op)

/-- STREAM_READ (R49, R69). -/
def execStreamRead (rq : Request) (s : State) : Host.Outcome State Fault Refusal :=
  s.goes (s.hub.serveAs rq fun h => h.laneAcc rq == .stream && isRead rq.op)

/-- SPI_DEVICE_ACCESS (R503). -/
def execSpiDeviceAccess (rq : Request) (s : State) : Host.Outcome State Fault Refusal :=
  s.goes (s.hub.serveAs rq fun h => h.fn rq.lane == fnSPI && h.laneAcc rq != .stream)

/-- I2C_DEVICE_ACCESS (R503). -/
def execI2cDeviceAccess (rq : Request) (s : State) : Host.Outcome State Fault Refusal :=
  s.goes (s.hub.serveAs rq fun h => h.fn rq.lane == fnI2C && h.laneAcc rq != .stream)

/-- SDCI_PD_ACCESS (R69). -/
def execSdciPdAccess (rq : Request) (s : State) : Host.Outcome State Fault Refusal :=
  s.goes (s.hub.serveAs rq fun h => h.laneAcc rq == .pd)

/-- SDCI_ISDU_ACCESS (R71). -/
def execSdciIsduAccess (rq : Request) (s : State) : Host.Outcome State Fault Refusal :=
  s.goes (s.hub.serveAs rq fun h => h.fn rq.lane == fnSDCI && h.laneAcc rq == .bus)

/-- SSI_DEVICE_READ (R69). -/
def execSsiDeviceRead (rq : Request) (s : State) : Host.Outcome State Fault Refusal :=
  s.goes (s.hub.serveAs rq fun h => h.fn rq.lane == fnSSI && h.laneAcc rq != .stream)

/-- QUAD_DEVICE_ACCESS (R69). -/
def execQuadDeviceAccess (rq : Request) (s : State) : Host.Outcome State Fault Refusal :=
  s.goes (s.hub.serveAs rq fun h => h.fn rq.lane == fnQUAD && h.laneAcc rq != .stream)

/-- PINS_DEVICE_ACCESS (R69). -/
def execPinsDeviceAccess (rq : Request) (s : State) : Host.Outcome State Fault Refusal :=
  s.goes (s.hub.serveAs rq fun h => h.fn rq.lane == fnPINS && h.laneAcc rq != .stream)

/-- CAN_RAM_ACCESS (R142). -/
def execCanRamAccess (rq : Request) (s : State) : Host.Outcome State Fault Refusal :=
  s.goes (s.hub.serveAs rq fun h => h.fn rq.lane == fnCAN && rq.dev / 2 ^ 25 % 8 == 0)

/-- CAN_TXREQ_ACCESS (R142). -/
def execCanTxreqAccess (rq : Request) (s : State) : Host.Outcome State Fault Refusal :=
  s.goes (s.hub.serveAs rq fun h => h.fn rq.lane == fnCAN && rq.dev / 2 ^ 25 % 8 == 1)

end Sys2Proof.Machine
end

