-- ==== Sys2Proof/Machine/Bridge.lean ====
section
/-! DEFINITION. TIMED writes at their target (05 R156-R161), issue through the bridge with its completions and timers
(07 R204-R209, R216; 01 R28-R31), Echo, salvage and lock timers (R218-R233), EVENT frames (R235, R455), and a reed's FRD
and FWR (03 R102). -/

namespace Sys2Proof.Machine

/-! ## TIMED writes (05 R156-R161, R213) -/

/-- The address of a lane in this member's bridge space. -/
def Hub.laneAddr (h : Hub) (n : Nat) : FabAddr := BitVec.ofNat 48 (h.member * 2 ^ 38 + 3 * 2 ^ 36 + n * 2 ^ 30)

/-- The window check of a TIMED record (R213): LATE of its window, `none` when it is refused. -/
def Hub.timedWin (h : Hub) (rq : Request) : Option Bool :=
  if h.winExempt rq then some false
  else match h.winOf rq with
    | none => none
    | some w =>
      if h.listAdmits (h.fld (F.BRG_WIN_ATTR_ALLOW w)) (h.srcOfRq rq) && h.bit (F.BRG_WIN_ATTR_TIMED w)
      then some (h.bit (F.BRG_WIN_ATTR_LATE w)) else none

/-- The time of a record: T plus DELTA, in 2^-24 ns (R157). -/
def Hub.recTime (h : Hub) (t : BitVec 64) (delta : W32) : Int := pickTime h.gno.t t + signed 32 delta.toNat * 2 ^ 22

/-- The status with which a record is refused (R158), in the table's order; `none` when it passes. -/
def Hub.timedRefuse (h : Hub) (rq : Request) (w0 : W32) (at_ : Int) : Option Nat :=
  let n := rq.lane
  let pin := w0.bits 25 24
  if !h.lanePresent n ∨ h.fn n = fnNONE ∨ pin = 3 then some stUR
  else if ((h.gno.t.units + max 1 (h.fld F.GNO_TWCFG_HORIZON) * 1000000000 * 2 ^ 24 : Nat) : Int) < at_ then some stUR
  else if (h.timedWin rq).isNone then some stCA
  else
    let m := h.fld (F.LN_PIN_MODE n pin)
    if m ≠ pmOUT ∧ m ≠ pmPWM then some stCA
    else if m = pmPWM ∧ 2 ≤ w0.bits 23 22 then some stCA
    else if !h.up n || h.pinsHeld (clusterOf n) then some stDOWN
    else if !(h.fld F.GNO_CVALID_VALID).testBit (clusterOf n) then some stDOWN
    else if 256 ≤ ((h.aqYield (clusterOf n)).reed[clusterOf n]).q.length then some stBACKOFF
    else none

/-- What became of a record: its status (LATE also where it was executed late, as the example after Table 5.6 says),
whether it was not queued, whether it was queued late. -/
structure RecDone where
  st : Nat := 0
  lost : Bool := false
  late : Bool := false
  deriving DecidableEq, Repr

/-- A refused or late record of a posted TIMED write is told to the originator; errors of a relayed copy are logged here
(R161, R357). -/
def Hub.timedTell (h : Hub) (rel : Bool) (rq : Request) (st k : Nat) : Hub :=
  if rel then h.logAccess rq
  else if rq.posted then h.event rq st (h.unit (laneUnit rq.lane)) 0xF k
  else h

/-- One record (R158, R159). -/
def Hub.timedRec (h : Hub) (rel : Bool) (rq : Request) (t : BitVec 64) (k : Nat) (w0 w1 : W32) : Hub × RecDone :=
  let rq := { rq with addr := h.laneAddr (w0.bits 31 26) }
  let n := rq.lane
  let c := clusterOf n
  let at_ := h.recTime t w1
  let pin := n.val % 8 * 3 + w0.bits 25 24
  let v := w0.bits 23 22
  match h.timedRefuse rq w0 at_ with
  | some st =>
    let h := (h.countSat F.GNO_TW_REFUSED).flag .gno F.GNO_FLAG_TW_REFUSED
    let h := if st = stDOWN ∧ !h.up n then h.actDrop n else h
    let h := if rel then h else h.logAccess rq
    let h := if st = stBACKOFF then (h.aqBridge c pin v 0 0).1 else h
    (h.timedTell rel rq st k, { st := st, lost := true })
  | none =>
    let due := (h.reed[c]).anc.toTick at_
    let lim := (h.reed[c]).ctr + h.fld F.GNO_TWCFG_GUARD
    if signed 64 (due.1 + 2 ^ 64 - lim % 2 ^ 64) < 0 then
      let h := h.flag .gno F.GNO_FLAG_TW_LATE
      if (h.timedWin rq).getD false then
        (((h.countSat F.GNO_TW_LATEEXEC).aqBridge c pin v (h.reed[c]).ctr 0).1.timedTell rel rq stLATE k, { st := stLATE, late := true })
      else ((h.countSat F.GNO_TW_LATEDROP).timedTell rel rq stLATE k, { st := stLATE, lost := true })
    else (((h.countSat F.GNO_TW_OK).aqBridge c pin v due.1 due.2).1, {})

/-- The data word of a TIMED completion (R161). -/
def timedWord (l : List RecDone) : W32 :=
  BitVec.ofNat 32 ((l.zip (List.range l.length)).foldl (fun a x =>
    a + (if x.1.lost then 2 ^ x.2 else 0) + if x.1.late then 2 ^ (16 + x.2) else 0) 0)

/-- The data word of a frame none of whose records was queued. -/
def allLost (rq : Request) : List Byte := beBytes (timedWord (List.replicate (min 16 (rq.data.length / 8)) { lost := true }))

/-- A TIMED frame that is refused whole (R161). -/
def Hub.timedWhole (h : Hub) (rel : Bool) (rq : Request) (st : Nat) : Hub :=
  if rel then h.logAccess rq 0
  else if rq.posted then h.event { rq with addr := 0 } st (h.unit Block.brg.unit) 0xF 31
  else h.respond rq st 0 false false (allLost rq)

/-- A TIMED write at its target: the frame, then its records in payload order; a paired unit relays it (R157-R161, R357). -/
def Hub.serveTimed (h : Hub) (rq : Request) (t : BitVec 64) (rel : Bool := false) : Hub :=
  let rq := { rq with posted := rq.posted || rq.addr.node == 255 }
  let h := if rq.posted then h.count F.BRG_PCNT else h.count F.BRG_NPCNT
  let h := h.abandonOld { rq with again := false }
  let n := rq.data.length / 8
  if !h.brgOn then h.timedWhole rel rq stDOWN
  else if rq.op ≠ opWRITE ∨ rq.data.length % 8 ≠ 0 ∨ n = 0 ∨ 16 < n ∨ rq.data.length ≠ rq.len ∨ 1000000000 ≤ timeNs t then
    h.timedWhole rel rq stUR
  else
    let h := if h.paired && !rel then h.relay rq.snode rq.smem tTIMED (!rq.posted) t (beBytes (Request.word rq) ++ rq.data) else h
    let r := (List.range n).foldl (fun (p : Hub × List RecDone) k =>
      let q := p.1.timedRec rel rq t k (beWord (rq.data.drop (8 * k))) (beWord (rq.data.drop (8 * k + 4)))
      (q.1, p.2 ++ [q.2])) (h, [])
    if rq.posted || rel then r.1
    else
      let st := ((r.2.find? fun d => d.st != stOK).map fun d => d.st).getD stOK
      r.1.respond rq st 0 false false (beBytes (timedWord r.2))

/-- The request a REQ_NP, REQ_P or TIMED frame carries (Tables 7.2, 9.2); a payload without a request word is no
operation. -/
def requestOf (f : Frame) : Request :=
  let w := f.word 0
  { op := if f.pay.length < 4 then 0xF else w.extractLsb' 0 4
    addr := f.hdr.dnode ++ f.hdr.dmem ++ f.hdr.adr.extractLsb' 0 38
    len := w.bits 31 20 + 1, req := w.extractLsb' 16 4, snode := f.hdr.snode, smem := f.hdr.smem, tag := f.hdr.tag,
    again := w.bit 4, posted := f.hdr.typ == tREQ_P || (f.hdr.typ == tTIMED && !f.hdr.np), tc := f.hdr.tc,
    seq := f.hdr.seq, data := f.pay.drop 4 }

/-- TIMED (R157). -/
def execTimed (f : Frame) (s : State) : Host.Outcome State Fault Refusal :=
  s.goes (if f.hdr.typ = tTIMED then s.hub.serveTimed (requestOf f) f.hdr.adr else s.hub)

/-- A relayed request or TIMED record frame from the peer (R357, Table 11.1). -/
def Hub.onRelay (h : Hub) (f : Frame) : Hub :=
  h.lampRx f 0x08 fun h =>
    let w := f.word 1
    let at_ : BitVec 64 := f.word 2 ++ f.word 3
    let typ : BitVec 4 := w.extractLsb' 18 4
    let hdr := { h.mkHdr typ 4 0 (BitVec.ofNat 2 h.member) (f.pay.length - 16) (adr := at_) (np := w.bit 17) with
                 snode := w.extractLsb' 24 8, smem := w.extractLsb' 22 2 }
    let rq := requestOf { hdr := hdr, pay := f.pay.drop 16 }
    if typ = tTIMED then h.serveTimed { rq with posted := true } at_ true else h.serve { rq with posted := true } true

/-- LAMP_RELAY (R357). -/
def execLampRelay (f : Frame) (s : State) : Host.Outcome State Fault Refusal := s.goes (s.hub.onRelay f)

/-! ## Issue (01 R28-R31; 07 R206, R207, R232) -/

/-- Does a request name this node: 0, its own ID, or 254 at the master (R28)? -/
def Hub.ownNode (h : Hub) (rq : Request) : Bool :=
  rq.addr.node == 0 || (h.node != 0 && rq.addr.node.toNat == h.node) || (rq.addr.node == 254 && h.isMaster)

/-- The status a member of this node gives a request at once: beyond the stack size UR, its stack link down DOWN (R31). -/
def Hub.memberErr (h : Hub) (m : Nat) : Option Nat :=
  if m = h.member then none
  else if h.fld F.RNG_JOINCFG_MEMBERS < m then some stUR
  else if h.linkIsUp (if m < h.member then 2 else 3) then none else some stDOWN

/-- The status with which the issuing hub ends a request itself (R28, R29, R31, R239). -/
def Hub.issueErr (h : Hub) (rq : Request) : Option Nat :=
  if !h.brgOn then some stDOWN
  else if h.ownNode rq then h.memberErr rq.addr.mem.toNat
  else if rq.addr.node = 255 ∧ (!rq.posted ∨ rq.op ≠ opWRITE) then some stUR
  else if h.node = 0 ∨ (rq.addr.node = 254 ∧ h.master = 0) then some stDOWN
  else none

/-- The lock table entry that a request's success makes (R232). -/
def lockEntry (rq : Request) : HeldLock := { req := rq.req, node := rq.addr.node, mem := rq.addr.mem, lane := rq.lane }

/-- The entries of the lock table and those that acquires on their way will need. -/
def Hub.lockNeeds (h : Hub) : List HeldLock :=
  let out := (h.brg.tag.toList.filterMap fun t => match t with
    | .use t => if isLock t.rq.op then some (lockEntry t.rq) else none
    | _ => none) ++ h.brg.wait.filterMap fun w => if isLock w.rq.op then some (lockEntry w.rq) else none
  out.foldl (fun l e => if l.contains e then l else l ++ [e]) h.brg.held

/-- Would an acquire need a 65th entry of the lock table, with the acquires on their way (R232)? -/
def Hub.locksFull (h : Hub) (rq : Request) : Bool :=
  isLock rq.op && decide (64 ≤ h.lockNeeds.length) && !h.lockNeeds.contains (lockEntry rq)

/-- A non-posted request ends here without having taken a tag. -/
def Hub.localEnd (h : Hub) (w : Waiting) (st est : Nat) (lock : Bool) : Hub :=
  if w.rq.posted then h
  else (h.lockTable w.rq st lock).deliver { rq := w.rq, who := w.who, timed := w.timed, first := h.now, cplm := w.cplm }
    st est lock false []

/-- The bridge has taken a posted request of a core: its slot is free (R322). -/
def Hub.postedTaken (h : Hub) (w : Waiting) : Hub :=
  match w.who with
  | .core n d => h.modCore n fun c => { c with slot := c.slot.set d {} }
  | _ => h

/-- A request goes to its target: this hub itself, or a frame. -/
def Hub.depart (h : Hub) (rq : Request) (timed : Option (BitVec 64)) : Hub :=
  if h.staysHere rq then
    match timed with
    | some t => h.serveTimed rq t
    | none => h.serve rq
  else h.send (h.reqFrame rq timed)

/-- A request leaves, with its tag if it takes one. -/
def Hub.leaves (h : Hub) (w : Waiting) (tag : Option (Fin 256)) : Hub :=
  match tag with
  | none => (h.postedTaken w).depart w.rq w.timed
  | some t => (h.takeTag t w).depart { w.rq with tag := BitVec.ofNat 8 t } w.timed

/-- A requester issues a request (R206, R207). Its source is this hub. -/
def Hub.issue (h : Hub) (w : Waiting) : Hub :=
  let w := { w with rq := { w.rq with snode := 0, smem := BitVec.ofNat 2 h.member, again := false } }
  match h.issueErr w.rq with
  | some st =>
    if w.rq.posted then (if h.staysHere w.rq then (h.postedTaken w).depart w.rq w.timed else h.postedTaken w)
    else h.localEnd w st 0 false
  | none =>
    if h.locksFull w.rq then (h.draw.2).localEnd w stBACKOFF (1 + h.draw.1 % 8) true
    else if w.rq.posted then
      (if h.brg.wait.any fun v => v.rq.req == w.rq.req then h.modBrg fun b => { b with wait := b.wait ++ [w] }
       else h.leaves w none)
    else match h.tagNow w.rq.req with
      | none => h.waitTag w
      | some t => h.leaves w (some t)

/-- BRIDGE_ISSUE (R206). -/
def execBridgeIssue (rq : Request) (s : State) : Host.Outcome State Fault Refusal :=
  s.goes (s.hub.issue { rq := rq, who := .plain, timed := none })

/-- The waiting request that may leave: the first of its requester, posted or with a tag available. -/
def Hub.mayLeave (h : Hub) : Option (Waiting × Option (Fin 256)) :=
  h.brg.wait.findSome? fun w =>
    if (h.brg.wait.find? fun v => v.rq.req == w.rq.req) ≠ some w then none
    else if w.rq.posted then some (w, none)
    else (h.tagFor w.rq.req).map fun t => (w, some t)

/-- TAG_AVAILABLE (R207). -/
def execTagAvailable (s : State) : Host.Outcome State Fault Refusal :=
  s.goes (match s.hub.mayLeave with
    | none => s.hub
    | some (w, t) => (s.hub.modBrg fun b => { b with wait := b.wait.erase w }).leaves w t)

/-! ## Completions and their timers (R204, R208, R209, R216) -/

/-- A CPL frame. -/
def Hub.onCpl (h : Hub) (f : Frame) : Hub :=
  let w := f.word 0
  h.cplIn f.hdr.tag f.hdr.snode.toNat f.hdr.smem.toNat (w.bits 3 0) (w.bits 31 16) (w.bit 9) (w.bit 8) (f.pay.drop 4)

/-- CPL (R209). -/
def execCpl (f : Frame) (s : State) : Host.Outcome State Fault Refusal :=
  s.goes (if f.hdr.typ = tCPL then s.hub.onCpl f else s.hub)

/-- BRG_LIFE in ticks. -/
def Hub.brgLife (h : Hub) : Nat := us (max 1 (h.fld F.BRG_LIFE_T) * 100)

/-- A reissue once EST has passed since the receipt, unless the lifetime has (R208, R216). -/
def Hub.reissue (h : Hub) (tag : Fin 256) : Hub :=
  match h.brg.tag[tag] with
  | .use t =>
    if t.flying ∨ h.now < t.at_ then h
    else if t.first + h.brgLife < h.now then
      (if t.last = stRETRY then h.finish tag t .free stTIMEOUT 0 false false []
       else (h.draw.2).finish tag t .free stBACKOFF (1 + h.draw.1 % 8) false false [])
    else
      let rq := { t.rq with again := true }
      (h.setTag tag (.use { t with rq := rq, flying := true, at_ := h.now, cto := h.cto })).depart rq t.timed
  | _ => h

/-- REISSUE (R216). -/
def execReissue (tag : Fin 256) (s : State) : Host.Outcome State Fault Refusal := s.goes (s.hub.reissue tag)

/-- An attempt receives no completion within the BRG_CTO it began with; its tag is held (R208, R209). -/
def Hub.cplTimeout (h : Hub) (tag : Fin 256) : Hub :=
  match h.brg.tag[tag] with
  | .use t =>
    if !t.flying ∨ h.now < t.at_ + t.cto then h
    else
      let h := (h.count F.BRG_CTOCNT).flag .brg F.BRG_FLAG_CTO
      let h := h.raise 1 Block.brg.unit causeTIMEOUT (t.rq.addr.off % 2 ^ 32) t.rq.req (h.resolve t.rq.addr.node) t.rq.addr.space
      h.finish tag t (.held h.now) stTIMEOUT 0 false false []
  | _ => h

/-- Does a completion for a tag come in the present cycle: a CPL frame, or one at the head of the Local port's queue (R209)? -/
def State.cplComes (s : State) (tag : Fin 256) : Bool :=
  s.pending.any fun i => match i with
    | .cpl f => f.hdr.typ == tCPL && f.hdr.tag.toNat == tag.val
    | .frameEgress p => p == 5 && (headReady s.hub.sw.q[qOf 5 3]).any fun f => f.hdr.typ == tCPL && f.hdr.tag.toNat == tag.val
    | _ => false

/-- COMPLETION_TIMEOUT (R208); a completion of the same cycle is accepted (R209). -/
def execCompletionTimeout (tag : Fin 256) (s : State) : Host.Outcome State Fault Refusal :=
  s.goes (if s.cplComes tag then s.hub else s.hub.cplTimeout tag)

/-- A tag's HOLD has passed (R209). -/
def Hub.tagRelease (h : Hub) (tag : Fin 256) : Hub :=
  match h.brg.tag[tag] with
  | .held t => if h.now < t + us (h.fld F.BRG_TAGCFG_HOLD * 10) then h else h.setTag tag .free
  | _ => h

/-- TAG_HOLD_EXPIRE (R209). -/
def execTagHoldExpire (tag : Fin 256) (s : State) : Host.Outcome State Fault Refusal := s.goes (s.hub.tagRelease tag)

/-! ## Retry slots (R216-R218) -/

/-- WAIT has passed: RETRY with an estimate (R216). -/
def Hub.retryWait (h : Hub) (i : Fin 128) : Hub :=
  let s := h.brg.slot[i]
  match s.rq with
  | some rq =>
    if s.st = .fetching ∧ !s.echo ∧ !s.retried ∧ !s.gone ∧ s.at_ + us (h.fld F.BRG_RTCFG_WAIT) ≤ h.now then
      (h.modSlot i fun s => { s with retried := true }).respond rq stRETRY (h.estOf i)
    else h
  | none => h

/-- RETRY_WAIT_EXPIRE (R216). -/
def execRetryWaitExpire (slot : Fin 128) (s : State) : Host.Outcome State Fault Refusal := s.goes (s.hub.retryWait slot)

/-- A slot's access is the one that runs at its lane. -/
def Hub.slotRuns (h : Hub) (i : Fin 128) : Option (Fin 64) :=
  match (h.brg.slot[i]).rq with
  | some rq => if (h.lane rq.lane).devRun && ((h.lane rq.lane).dev.head?.any fun d => d.slot == some i) then some rq.lane else none
  | none => none

/-- SLOT_ACCESS_END (R216, R71). -/
def execSlotAccessEnd (slot : Fin 128) (ans : DeviceAnswer) (s : State) : Host.Outcome State Fault Refusal :=
  s.goes (match s.hub.slotRuns slot with
    | some n => s.hub.deviceDone n ans
    | none => s.hub)

/-- A READY slot is not claimed within HOLD (R218). -/
def Hub.slotExpire (h : Hub) (i : Fin 128) : Hub :=
  let s := h.brg.slot[i]
  if s.st = .ready ∧ s.tick + us (max 10 (h.fld F.BRG_RTCFG_HOLD)) ≤ h.now then (h.slotToSalv i 1).count F.BRG_SLOTEXP else h

/-- Does a request that meets a test come in the present cycle: one at the target, one that this hub issues to itself, or one at
the head of a queue of the Local port? -/
def State.rqComes (s : State) (ok : Request → Bool) : Bool :=
  let h := s.hub
  s.pending.any fun i => match i with
    | .read rq | .write rq | .lockRead rq | .lockWrite rq | .unlock rq | .streamWrite rq | .streamRead rq | .spiDeviceAccess rq
    | .i2cDeviceAccess rq | .sdciPdAccess rq | .sdciIsduAccess rq | .ssiDeviceRead rq | .quadDeviceAccess rq
    | .pinsDeviceAccess rq | .canRamAccess rq | .canTxreqAccess rq => ok rq
    | .bridgeIssue rq => h.staysHere rq && ok { rq with snode := 0, smem := BitVec.ofNat 2 h.member }
    | .reissue t => match h.brg.tag[t] with
      | .use t => h.staysHere t.rq && ok { t.rq with again := true }
      | _ => false
    | .frameEgress p => p == 5 && (List.range 8).any fun c => (headReady h.sw.q[qOf 5 c]).any fun f =>
        (f.hdr.typ == tREQ_NP || f.hdr.typ == tREQ_P) && ok (requestOf (h.frameOf f))
    | _ => false

/-- SLOT_EXPIRE (R218): a reissue of the same cycle claims the slot. -/
def execSlotExpire (slot : Fin 128) (s : State) : Host.Outcome State Fault Refusal :=
  let claims := fun rq => s.hub.slotOfKey rq == some slot && (s.hub.brg.slot[slot]).rq.any fun r => reclaims r rq
  s.goes (if s.rqComes claims then s.hub else s.hub.slotExpire slot)

/-! ## Echo (R221-R225) -/

/-- Echo slots in use, of at most SLOTS. -/
def Hub.echoRoom (h : Hub) : Bool :=
  decide ((h.brg.slot.toList.filter fun s => s.echo && s.st != .free).length < min 96 (h.fld F.ECH_CFG_SLOTS))

/-- May Echo fetch a device offset of a stream: a bus access of an UP and unlocked lane inside the stream's window, not
held or being fetched (R221, R223)? -/
def Hub.echoMay (h : Hub) (w : Nat) (rq : Request) : Bool :=
  let last := rq.addr.off + rq.len - 1
  h.echoWin w && h.laneAcc rq == .bus && (h.laneCheck rq).isNone && (h.brg.lock[rq.lane]).owner.isNone &&
    h.fld (F.BRG_WIN_BASE_SPACE w) == 3 &&
    decide (h.fld (F.BRG_WIN_BASE_BLK w) ≤ rq.addr.off / 256 ∧ last / 256 ≤ h.fld (F.BRG_WIN_LIMIT_BLK w)) &&
    !h.brg.slot.toList.any fun s => s.st != .free && s.rq.any fun r => isRead r.op && r.addr.off == rq.addr.off && r.len == rq.len

/-- The read of an Echo fetch. -/
def Hub.echoRq (h : Hub) (s : Stream) (lane off len : Nat) : Request :=
  { op := opREAD, addr := h.laneAddr lane + BitVec.ofNat 48 off, len := len, req := s.req, snode := s.node, smem := s.mem,
    tag := 0, again := false, posted := false, tc := 4, seq := 0, data := [] }

/-- Start one fetch, in a free slot or one taken by R219. -/
def Hub.echoStart (h : Hub) (s : Stream) (lane off len : Nat) : Hub :=
  let rq := h.echoRq s lane off len
  if !h.echoRoom || !h.echoMay s.win rq then h
  else match h.takeSlot with
    | some (h', i) => (h'.slotStart i rq true s.win).count F.ECH_FETCH
    | none => h

/-- DEPTH in force. -/
def Hub.echoDepth (h : Hub) : Nat := max 1 (min 4 (h.fld F.ECH_CFG_DEPTH))

/-- Echo starts the fetches of a stream's pattern (R223); a fetch that finds no room waits (R225). -/
def Hub.echoFetch (h : Hub) (i : Fin 16) : Hub :=
  match h.brg.stream[i] with
  | none => h
  | some s =>
    match s.hist with
    | [] => h
    | c :: _ =>
      if !h.bit F.ECH_CTL_EN || !h.brgOn then h
      else match strideOf s.hist with
        | some d =>
          (List.range h.echoDepth).foldl (fun h k =>
            let o : Int := (c.off : Int) + ((k : Nat) + 1 : Int) * d
            if 0 ≤ o ∧ o + (c.len : Int) ≤ 2 ^ 30 then h.echoStart s c.lane o.toNat c.len else h) h
        | none => match periodOf s.hist with
          | none => h
          | some p =>
            let rq := h.echoRq s c.lane c.off c.len
            let early := us (estUs (h.estTicks rq.lane (h.lane rq.lane).dev rq) + h.fld F.ECH_TIME_LEAD)
            if s.fetched ∨ p < early ∨ h.now < c.tick + p - early ∨ !h.echoRoom ∨ h.takeSlot.isNone then h
            else
              let h := h.modBrg fun b => { b with stream := b.stream.set i (some { s with fetched := true }) }
              h.echoStart s c.lane c.off c.len

/-- ECHO_FETCH (R223). -/
def execEchoFetch (i : Fin 16) (s : State) : Host.Outcome State Fault Refusal := s.goes (s.hub.echoFetch i)

/-- FRESH runs out (R225). -/
def Hub.echoFresh (h : Hub) (i : Fin 128) : Hub :=
  let s := h.brg.slot[i]
  if s.st = .echoed ∧ s.tick + us (h.fld F.ECH_TIME_FRESH) ≤ h.now then h.slotToSalv i 0 else h

/-- ECHO_FRESH_EXPIRE (R225). -/
def execEchoFreshExpire (slot : Fin 128) (s : State) : Host.Outcome State Fault Refusal := s.goes (s.hub.echoFresh slot)

/-- A PERIOD stream without a demand by the predicted arrival + I2 / 2 is cleared (R224). -/
def Hub.streamClear (h : Hub) (i : Fin 16) : Hub :=
  match h.brg.stream[i] with
  | some s => match s.hist, periodOf s.hist with
    | c :: _, some p => if c.tick + p + p / 2 ≤ h.now then
        h.modBrg fun b => { b with stream := b.stream.set i none } else h
    | _, _ => h
  | none => h

/-- ECHO_STREAM_CLEAR (R224). -/
def execEchoStreamClear (i : Fin 16) (s : State) : Host.Outcome State Fault Refusal := s.goes (s.hub.streamClear i)

/-- A salvage entry outlives ECH_SALVLIFE (R228). -/
def Hub.salvExpire (h : Hub) (c : Fin 8) (i : Fin 16) : Hub :=
  match (h.brg.salv[c])[i] with
  | some e => if e.tick + us (max 10 (h.fld F.ECH_SALVLIFE_US)) < h.now then (h.setSalv c i none).count F.ECH_SALVEXP else h
  | none => h

/-- SALVAGE_EXPIRE (R228). -/
def execSalvageExpire (c : Fin 8) (e : Fin 16) (s : State) : Host.Outcome State Fault Refusal := s.goes (s.hub.salvExpire c e)

/-! ## Lock timers (R231, R233) -/

/-- The reservation of a lane has run for RSV µs (R231). -/
def Hub.rsvEnd (h : Hub) (n : Fin 64) : Hub :=
  if (h.brg.lock[n]).rsvAt + us (h.fld F.BRG_LKCFG_RSV) ≤ h.now then h.modLock n fun l => { l with rsv := none } else h

/-- LOCK_RESERVE_EXPIRE (R231). -/
def execLockReserveExpire (n : Fin 64) (s : State) : Host.Outcome State Fault Refusal := s.goes (s.hub.rsvEnd n)

/-- A request by the key that holds a lane's lock, to that lane. -/
def Hub.byOwner (h : Hub) (n : Fin 64) (rq : Request) : Bool :=
  rq.addr.space == 3 && rq.lane == n && (h.brg.lock[n]).owner == some (h.keyOf rq)

/-- The IDLE time of a lane's lock has run out (R233). -/
def Hub.lockIdle (h : Hub) (n : Fin 64) : Bool := decide ((h.brg.lock[n]).at_ + us (h.fld F.BRG_LKCFG_IDLE * 10) ≤ h.now)

/-- LOCK_IDLE_BREAK (R233): the owner has sent nothing for IDLE, and a request of its own in the same cycle keeps the lock. -/
def execLockIdleBreak (n : Fin 64) (s : State) : Host.Outcome State Fault Refusal :=
  s.goes (if s.hub.lockIdle n && !s.rqComes (s.hub.byOwner n) then s.hub.lockBreak n else s.hub)

/-! ## EVENT frames (R235, R455) -/

/-- EVENT (R455). -/
def execEvent (f : Frame) (s : State) : Host.Outcome State Fault Refusal :=
  s.goes (if f.hdr.typ = tEVENT then s.hub.eventLog f.hdr.snode f else s.hub)

/-- EVENT_GAP_EXPIRE (R235). -/
def execEventGapExpire (node : BitVec 8) (s : State) : Host.Outcome State Fault Refusal :=
  let ended := fun (g : EvGap) => g.node == node && decide (g.at_ + us (s.hub.fld F.BRG_EVCFG_GAP) ≤ s.hub.now)
  s.goes (s.hub.modBrg fun b => { b with gap := b.gap.map fun g => if ended g then { g with run := false } else g })

/-! ## Tunnels (R236, R237) -/

/-- The characters of a UART tunnel frame as STREAM words. -/
def tunChars (bs : List Byte) : List W32 :=
  (List.range (bs.length / 2)).map fun i => ((bs.getD (2 * i + 1) 0) ++ (bs.getD (2 * i) 0)).setWidth 32

/-- A TUNNEL frame (R236): accepted and delivered by KIND, or dropped. What the request fields of its EVENT hold is
stated nowhere: free values. -/
def Hub.onTunnel (h : Hub) (f : Frame) : Hub :=
  let w := f.word 0
  let d := w.bits 23 16
  let k := w.bits 31 28
  let lane : Fin 64 := ⟨d % 64, by omega⟩
  let valid := (k = 1 ∧ d < 8) ∨ (k = 2 ∧ d < 16) ∨ (k = 3 ∧ d < 64 ∧ h.lanePresent lane ∧ h.fn lane = fnUART)
  if !h.bit F.BRG_TUNCFG_IN_EN || !h.listAdmits (h.fld F.BRG_TUNCFG_ALLOW) (h.srcNode f.hdr.snode) || !decide valid then
    h.count F.BRG_TUNDROP
  else
    let g := h.draw.1
    let h := h.draw.2
    let rq : Request :=
      { op := BitVec.ofNat 4 g, addr := BitVec.ofNat 48 (g / 16), len := 0, req := BitVec.ofNat 4 (g / 256), snode := f.hdr.snode,
        smem := f.hdr.smem, tag := 0, again := false, posted := true, tc := 2, seq := f.hdr.seq, data := [] }
    if k = 1 then
      let r := h.enqueue 4 5 f
      if r.2 then r.1 else r.1.event rq stBACKOFF (r.1.unit Block.hst.unit) rq.op
    else if k = 2 then
      let c : Fin 16 := ⟨d % 16, by omega⟩
      (splitRecords 640 ((List.range ((f.pay.length - 4) / 4)).map fun i => f.word (1 + i))).foldl (fun h ws =>
        let r := h.canInbound c ws
        if r.2 then r.1 else r.1.event rq stBACKOFF (r.1.unit (canUnit c)) rq.op) h
    else
      let cs := tunChars (f.pay.drop 4)
      if !h.up lane || h.pinsHeld (clusterOf lane) then h.event rq stBACKOFF (h.unit (laneUnit lane)) rq.op
      else if 64 < (h.lane lane).tx.q.length + cs.length then
        (h.laneFlags lane [lfTX_OVF]).event rq stBACKOFF (h.unit (laneUnit lane)) rq.op
      else cs.foldl (fun h w => h.pushTx lane w) h

/-- TUNNEL (R236). -/
def execTunnel (f : Frame) (s : State) : Host.Outcome State Fault Refusal :=
  s.goes (if f.hdr.typ = tTUNNEL then s.hub.onTunnel f else s.hub)

/-! ## FRD and FWR (03 R102) -/

/-- The 48-bit address in GB and G(B + 1). -/
def CtxRegs.fabric (r : CtxRegs) (b : BitVec 3) : FabAddr := (r.ga (b + 1)).extractLsb' 0 16 ++ r.ga b

/-- A reed's 32-bit request. -/
def reedRq (r : CtxRegs) (b : BitVec 3) (op : BitVec 4) (posted : Bool) (data : List Byte) : Request :=
  { op := op, addr := r.fabric b, len := 4, req := 12, snode := 0, smem := 0, tag := 0, again := false, posted := posted, tc := 4,
    seq := 0, data := data }

/-- FRD (R102). -/
def Hub.frd (h : Hub) (c : Fin 8) (x : Fin 16) (a b : BitVec 3) : Hub :=
  let t := h.cx c x
  if b.getLsbD 0 then h.faultOr c x 4
  else if !t.ckpt.isEmpty then h.stall c x 3
  else if t.frdCome then (h.done c x id).modCtx c x fun t => { t with frd := none, frdCome := false }
  else if t.frd.isSome then h.stall c x 2
  else
    let h := (h.stall c x 2).modCtx c x fun t => { t with frd := some ⟨a.toNat, a.isLt⟩ }
    h.issue { rq := reedRq t.r b opREAD false [], who := .reed c x, timed := none }

/-- FRD (R102). -/
def execFrd (c : Fin 8) (x : Fin 16) (s : State) : Host.Outcome State Fault Refusal :=
  s.goes (s.hub.reedSlot c x fun i => match i with
    | .frd a b => some fun h => h.frd c x a b
    | _ => none)

/-- FWR (R102). -/
def Hub.fwr (h : Hub) (c : Fin 8) (x : Fin 16) (a b : BitVec 3) : Hub :=
  let t := h.cx c x
  if b.getLsbD 0 then h.faultOr c x 4
  else if !t.ckpt.isEmpty then h.stall c x 3
  else if h.brg.wait.any fun w => w.rq.req == 12 then h.stall c x 2
  else
    let rq := reedRq t.r b opWRITE true (leBytes (t.r.ga a))
    let st := (h.issueErr rq).getD stOK
    (h.done c x fun r => { r with cst := (r.cst &&& ~~~ 0x1F#32) ||| BitVec.ofNat 32 st }).issue
      { rq := rq, who := .plain, timed := none }

/-- FWR (R102). -/
def execFwr (c : Fin 8) (x : Fin 16) (s : State) : Host.Outcome State Fault Refusal :=
  s.goes (s.hub.reedSlot c x fun i => match i with
    | .fwr a b => some fun h => h.fwr c x a b
    | _ => none)

end Sys2Proof.Machine
end

