-- ==== Sys2Proof/Machine/Cpu.lean ====
section
/-! DEFINITION. The instructions of a reflex core: memory of Table 10.1, CSRs, traps, and issue through the bridge
(10 R308-R312, R319-R322; 11 R355, R356). What the spec leaves to the RISC-V architecture is log entry 34. -/

namespace Sys2Proof.Machine

/-! ## Issue (R320-R322, R355) -/

/-- KIND of LOC_ISS_CTL. -/
def IssReg.kind (r : IssReg) : Nat := r.ctl.bits 31 28
/-- LEN + 1. -/
def IssReg.len (r : IssReg) : Nat := r.ctl.bits 11 0 + 1
/-- Bytes copied from DTCM at ISS_DPTR: write data or records. -/
def IssReg.dataLen (r : IssReg) : Nat :=
  if r.kind = 8 then r.ctl.bits 20 16 * 8 else if r.kind = 1 ∨ r.kind = 3 then r.len else 0
/-- Bytes a completion may bring to ISS_RPTR. -/
def IssReg.backLen (r : IssReg) : Nat :=
  if r.kind = 8 then (if r.ctl.bit 27 then 0 else 4) else if r.kind = 0 ∨ r.kind = 2 then r.len else 0
/-- Is the request posted: a WRITE or a TIMED write with POSTED = 1? -/
def IssReg.posted (r : IssReg) : Bool := r.ctl.bit 27 && (r.kind == 1 || r.kind == 8)

/-- Does a range lie in DTCM? -/
def inDtcm (a len : Nat) : Bool := len == 0 || decide (0x10000000 ≤ a ∧ a + len ≤ 0x10010000)

/-- The request the staging registers describe, with its data. -/
def IssReg.request (r : IssReg) (n : Fin 8) (data : List Byte) : Request :=
  let tc := r.ctl.bits 26 24
  { op := if r.kind = 8 then opWRITE else BitVec.ofNat 4 r.kind, addr := r.addrh.extractLsb' 0 16 ++ r.addrl
    len := if r.kind = 8 then data.length else r.len, req := coreReq n, snode := 0, smem := 0, tag := 0, again := false
    posted := r.posted, tc := if tc = 1 ∨ tc = 0 then BitVec.ofNat 3 tc else 4, seq := 0, data := data }

/-- A slot takes a request. -/
def Hub.issSlot (h : Hub) (n : Fin 8) (d : Fin 4) (s : IssSlot) : Hub :=
  h.modCore n fun c => { c with slot := c.slot.set d s, iss := { c.iss with last := d.val } }

/-- A request of a core to another node in a pair: the CRC takes it, a Shadow does not send it (R355, R356). -/
def Hub.issueOther (h : Hub) (n : Fin 8) (d : Fin 4) (rq : Request) (timed : Option (BitVec 64)) : Hub :=
  let h := h.issueCrc n rq
  let k := (h.lamp.issued[n] + 1) % 65536
  let h := if rq.posted then h else h.modLamp fun l => { l with issued := l.issued.set n (l.issued[n] + 1) }
  if !h.shadowUnit then h.issue { rq := rq, who := .core n d, timed := timed, cplm := if rq.posted then none else some k }
  else if rq.posted then h.modCore n fun c => { c with slot := c.slot.set d {} }
  else if h.bit F.LMP_STAT_STALE then h.coreSlotDone n d stDOWN false []
  else h.modLamp fun l => { l with parked := l.parked ++ [{ core := n, slot := d, k := k, rq := rq, timed := timed }] }

/-- Does every byte of a range pass the PMP check of user mode (R320)? -/
def Core.pmpAll (c : Core) (a len k : Nat) : Bool := (List.range len).all fun i => c.pmpOk true (a + i) 1 k

/-- A write of 1 to LOC_ISS_GO; `none` is a store access fault (R320). -/
def Hub.issueGo (h : Hub) (n : Fin 8) : Option Hub :=
  let c := h.core[n]
  let r := c.iss
  if c.user && (!c.pmpAll r.dptr.toNat r.dataLen 0 ||
      ((r.kind == 0 || r.kind == 2) && !c.pmpAll r.rptr.toNat r.backLen 1)) then none
  else match (List.finRange 4).find? fun (d : Fin 4) => (c.slot[d]).free with
  | none =>
    let h := h.modCore n fun c => { c with iss := { c.iss with last := 7 } }
    some ((h.flag (.rfx n) (F.RFX_FLAG_ISSREJ n)).count (F.RFX_ISSREJ n))
  | some d =>
    let h := h.issSlot n d { busy := true, rptr := r.rptr }
    if (4 < r.kind ∧ r.kind ≠ 8) ∨ !inDtcm r.dptr.toNat r.dataLen ∨ !inDtcm r.rptr.toNat r.backLen then
      some (h.coreSlotDone n d stUR false [])
    else
      let rq := r.request n (bytesAt c.dtcm (r.dptr.toNat - 0x10000000) r.dataLen)
      let timed := if r.kind = 8 then some (r.timeh ++ r.timel) else none
      if h.paired && !h.ownNode rq then some (h.issueOther n d rq timed)
      else some (h.issue { rq := rq, who := .core n d, timed := timed })

/-- ISSUE_GO (R320). -/
def execIssueGo (n : Fin 8) (s : State) : Host.Outcome State Fault Refusal :=
  s.goes (if s.hub.coreRuns n then (s.hub.issueGo n).getD (s.hub.trap n 7 0x3000011C#32) else s.hub)

/-! ## Memory (Table 10.1, R309-R312) -/

/-- How an access of a core ends: its bytes, an access fault, or a stop by an uncorrectable word. -/
inductive MemAns where
  | ok (bs : List Byte)
  | fault
  | stop
  deriving DecidableEq, Repr

/-- ECC of the word a TCM access reads: a correctable word is corrected in place, an uncorrectable one stops the core
(R310). -/
def Hub.tcmEcc (h : Hub) (n : Fin 8) (dtcm : Bool) (a : Nat) : Hub × Bool :=
  let c := h.core[n]
  let i := a % 0x10000 / 4
  match (if dtcm then c.decc else c.iecc).get 0 i with
  | 0 => (h, true)
  | 1 => ((h.modCore n fun c => if dtcm then { c with decc := c.decc.set 0 i 0 } else { c with iecc := c.iecc.set 0 i 0 }).eccFix n a, true)
  | _ => (h.eccStop n a, false)

/-- The accesses of core n at the register router. -/
def Hub.coreAccess (h : Hub) (n : Fin 8) : Access :=
  { req := coreReq n, node := 0, mem := BitVec.ofNat 2 h.member, posted := false }

/-- A load or, with `x`, a fetch of aligned bytes. Only ITCM and tile memory are fetched from. -/
def Hub.coreLoad (h : Hub) (n : Fin 8) (x : Bool) (a len : Nat) : Hub × MemAns :=
  if a + len ≤ 0x10000 then
    let r := h.tcmEcc n false a
    (r.1, if r.2 then .ok (bytesAt (r.1.core[n]).itcm a len) else .stop)
  else if 0x10000000 ≤ a ∧ a + len ≤ 0x10010000 ∧ !x then
    let r := h.tcmEcc n true a
    (r.1, if r.2 then .ok (bytesAt (r.1.core[n]).dtcm (a - 0x10000000) len) else .stop)
  else match tileOfAddr a with
  | some t =>
    if !h.coreTile t then (h, .fault)
    else
      let r := h.fill n t
      if !r.2 then (r.1, .fault)
      else (r.1, .ok (((((r.1.core[n]).line t).map fun l => l.data).getD []).drop (a % 256) |>.take len))
  | none =>
    if x then (h, .fault)
    else if 0x30000000 ≤ a ∧ a < 0x30001000 then
      (if len = 4 then let r := h.locRead n (a % 0x1000); (r.1, .ok (leBytes r.2)) else (h, .fault))
    else if 0x40000000 ≤ a ∧ a < 0x40200000 then
      if len = 4 then
        match h.regRead (h.coreAccess n) (a - 0x40000000) with
        | (h', some v) => (h', .ok (leBytes v))
        | (h', none) => (h', .fault)
      else (h.refuse (h.coreAccess n) (a - 0x40000000) false, .fault)
    else (h, .fault)

/-- A store into a line. -/
def TLine.store (l : TLine) (o : Nat) (bs : List Byte) : TLine :=
  { l with
    data := (List.range 256).map fun i => if o ≤ i ∧ i < o + bs.length then bs.getD (i - o) 0 else l.data.getD i 0
    dirty := l.dirty ||| (BitVec.allOnes bs.length).setWidth 256 <<< o }

/-- A store of aligned bytes; `false` is an access fault. -/
def Hub.coreStore (h : Hub) (n : Fin 8) (a : Nat) (bs : List Byte) : Hub × Bool :=
  if 0x10000000 ≤ a ∧ a + bs.length ≤ 0x10010000 then
    let i := a % 0x10000 / 4
    let e := (h.core[n]).decc.get 0 i
    let h := if bs.length < 4 ∧ e = 1 then (h.tcmEcc n true a).1 else h
    (h.modCore n fun c => { c with dtcm := writeBytes c.dtcm (a - 0x10000000) bs,
                                   decc := if bs.length = 4 then c.decc.set 0 i 0 else c.decc }, true)
  else match tileOfAddr a with
  | some t =>
    if !h.coreTile t then (h, false)
    else
      let r := h.fill n t
      if !r.2 then (r.1, false)
      else (r.1.modCore n fun c => match c.line t with
        | some l => c.front (l.store (a % 256) bs)
        | none => c, true)
  | none =>
    if 0x30000000 ≤ a ∧ a < 0x30001000 then
      if bs.length ≠ 4 then (h, false)
      else if a % 0x1000 = 0x11C then
        (if (leWord bs).bit 0 then match h.issueGo n with
          | some h' => (h', true)
          | none => (h, false)
        else (h, true))
      else (h.locWrite n (a % 0x1000) (leWord bs), true)
    else if 0x40000000 ≤ a ∧ a < 0x40200000 then
      if bs.length = 4 then
        match h.writeReg (h.coreAccess n) (a - 0x40000000) (leWord bs) with
        | some h' => (h', true)
        | none => (h.refuse (h.coreAccess n) (a - 0x40000000) true, false)
      else (h.refuse (h.coreAccess n) (a - 0x40000000) true, false)
    else (h, false)

/-- Does a load or store act as user: in user mode, or by MPRV with MPP user? -/
def Core.dataUser (c : Core) : Bool := c.user || (c.csr.mstatus.bit 17 && c.csr.mstatus.bits 12 11 == 0)

/-! ## CSRs -/

/-- A half of a 64-bit counter replaced. -/
def setHalf (c : BitVec 64) (hi : Bool) (v : W32) : BitVec 64 :=
  if hi then v ++ c.extractLsb' 0 32 else c.extractLsb' 32 32 ++ v

/-- Four PMP configuration bytes as a word. -/
def Core.pmpWord (c : Core) (k : Fin 2) : W32 :=
  (c.csr.pmpcfg[4 * k.val + 3]'(by omega)) ++ (c.csr.pmpcfg[4 * k.val + 2]'(by omega)) ++
    (c.csr.pmpcfg[4 * k.val + 1]'(by omega)) ++ (c.csr.pmpcfg[4 * k.val]'(by omega))

/-- May a core in its mode touch a CSR at all, and write it if `wr`? -/
def Core.csrOk (c : Core) (num : Nat) (wr : Bool) : Bool :=
  !(c.user && num / 256 % 4 != 0) && !(wr && num / 1024 == 3) &&
    !(c.user && ((0xC00 ≤ num && num < 0xC20) || (0xC80 ≤ num && num < 0xCA0)) && !c.csr.mcounteren.bit (num % 32))

/-- The CSRs that read 0 and ignore writes: machine information but mhartid, mstatush, menvcfg, the event counters, and
the PMP entries past the eighth. -/
def csrZero (num : Nat) : Bool :=
  num == 0x310 || num == 0x30A || num == 0x31A || (0x323 ≤ num && num < 0x340) || (0x3A2 ≤ num && num < 0x3A4) ||
    (0x3B8 ≤ num && num < 0x3C0) || (0xB03 ≤ num && num < 0xB20) || (0xB83 ≤ num && num < 0xBA0) ||
    (0xC03 ≤ num && num < 0xC20) || (0xC83 ≤ num && num < 0xCA0) || (0xF11 ≤ num && num < 0xF14) || num == 0xF15

/-- A CSR as it reads; `none` is no CSR of the core. TBOP reads a free value. -/
def Hub.csrRead (h : Hub) (n : Fin 8) (num : Nat) : Option W32 :=
  let c := h.core[n]
  let r := c.csr
  match num with
  | 0x300 => some r.mstatus
  | 0x301 => some 0x40101104#32
  | 0x304 => some r.mie
  | 0x305 => some r.mtvec
  | 0x306 => some r.mcounteren
  | 0x320 => some (BitVec.ofNat 32 (b2n r.mcycleOff + 4 * b2n r.minstretOff))
  | 0x340 => some r.mscratch
  | 0x341 => some r.mepc
  | 0x342 => some r.mcause
  | 0x343 => some r.mtval
  | 0x344 => some (if c.evq.isEmpty then 0 else 0x800#32)
  | 0x3A0 => some (c.pmpWord 0)
  | 0x3A1 => some (c.pmpWord 1)
  | 0x800 => some (BitVec.ofNat 32 h.draw.1)
  | 0xB00 | 0xC00 => some (r.mcycle.extractLsb' 0 32)
  | 0xB80 | 0xC80 => some (r.mcycle.extractLsb' 32 32)
  | 0xC01 => some (h.mtime.extractLsb' 0 32)
  | 0xC81 => some (h.mtime.extractLsb' 32 32)
  | 0xB02 | 0xC02 => some (r.minstret.extractLsb' 0 32)
  | 0xB82 | 0xC82 => some (r.minstret.extractLsb' 32 32)
  | 0xF14 => some (BitVec.ofNat 32 n)
  | _ =>
    if hk : 0x3B0 ≤ num ∧ num < 0x3B8 then some (r.pmpaddr[num - 0x3B0]'(by omega))
    else if csrZero num then some 0 else none

/-- mstatus as written: MIE, MPIE, MPP (3 or 0), MPRV, TW. -/
def mstatusPut (v : W32) : W32 := (v &&& 0x220088#32) ||| (if v.bits 12 11 = 3 then 0x1800#32 else 0)

/-- A PMP configuration byte as written: a locked one stays; W without R is not taken; bits 6 and 5 read 0. -/
def pmpByte (old : Byte) (v : Byte) : Byte :=
  if old.getLsbD 7 then old else if v.getLsbD 1 && !v.getLsbD 0 then v &&& 0x9D#8 else v &&& 0x9F#8

/-- Is pmpaddr i locked: by its own entry, or by a locked TOR entry above it? -/
def Core.pmpAddrLocked (c : Core) (i : Nat) : Bool :=
  (c.csr.pmpcfg.toList.getD i 0).getLsbD 7 ||
    ((c.csr.pmpcfg.toList.getD (i + 1) 0).getLsbD 7 && ((c.csr.pmpcfg.toList.getD (i + 1) 0).extractLsb' 3 2) == 1)

/-- A CSR after a write; those not listed ignore it. -/
def Core.csrWrite (c : Core) (num : Nat) (v : W32) : Core :=
  let r := c.csr
  let put := fun (r : Csrs) => { c with csr := r }
  match num with
  | 0x300 => put { r with mstatus := mstatusPut v }
  | 0x304 => put { r with mie := v &&& 0x880#32 }
  | 0x305 => put { r with mtvec := v &&& ~~~ 2#32 }
  | 0x306 => put { r with mcounteren := v }
  | 0x320 => put { r with mcycleOff := v.bit 0, minstretOff := v.bit 2 }
  | 0x340 => put { r with mscratch := v }
  | 0x341 => put { r with mepc := v &&& ~~~ 1#32 }
  | 0x342 => put { r with mcause := v }
  | 0x343 => put { r with mtval := v }
  | 0x3A0 => put { r with pmpcfg := Vector.ofFn fun (i : Fin 8) =>
      if i.val < 4 then pmpByte r.pmpcfg[i] (v.extractLsb' (8 * i.val) 8) else r.pmpcfg[i] }
  | 0x3A1 => put { r with pmpcfg := Vector.ofFn fun (i : Fin 8) =>
      if 4 ≤ i.val then pmpByte r.pmpcfg[i] (v.extractLsb' (8 * (i.val - 4)) 8) else r.pmpcfg[i] }
  | 0xB00 => put { r with mcycle := setHalf r.mcycle false v }
  | 0xB80 => put { r with mcycle := setHalf r.mcycle true v }
  | 0xB02 => put { r with minstret := setHalf r.minstret false v }
  | 0xB82 => put { r with minstret := setHalf r.minstret true v }
  | _ =>
    if hk : 0x3B0 ≤ num ∧ num < 0x3B8 then
      (if c.pmpAddrLocked (num - 0x3B0) then c else put { r with pmpaddr := r.pmpaddr.set (num - 0x3B0) v (by omega) })
    else c

/-! ## Instructions -/

/-- Illegal instruction. -/
def Hub.illegal (h : Hub) (n : Fin 8) (w : W32) : Hub := h.trap n 2 w

/-- The instruction completes: registers change and the pc moves. -/
def Hub.rvTo (h : Hub) (n : Fin 8) (pc : W32) (g : Core → Core := id) : Hub := h.modCore n fun c => { g c with pc := pc }

/-- A load. -/
def Hub.rvLoad (h : Hub) (n : Fin 8) (sz : Nat) (sx : Bool) (rd : Fin 32) (a next : W32) : Hub × Bool :=
  if a.toNat % sz ≠ 0 then (h.trap n 4 a, false)
  else if !(h.core[n]).pmpOk (h.core[n]).dataUser a.toNat sz 0 then (h.trap n 5 a, false)
  else match h.coreLoad n false a.toNat sz with
  | (h, .ok bs) =>
    let v := leWord bs
    let v := if sx then (if sz = 1 then (v.extractLsb' 0 8).signExtend 32 else (v.extractLsb' 0 16).signExtend 32) else v
    (h.rvTo n next fun c => c.wx rd v, true)
  | (h, .fault) => (h.trap n 5 a, false)
  | (h, .stop) => (h, false)

/-- A store. -/
def Hub.rvStore (h : Hub) (n : Fin 8) (sz : Nat) (v a next : W32) : Hub × Bool :=
  if a.toNat % sz ≠ 0 then (h.trap n 6 a, false)
  else if !(h.core[n]).pmpOk (h.core[n]).dataUser a.toNat sz 1 then (h.trap n 7 a, false)
  else match h.coreStore n a.toNat ((leBytes v).take sz) with
  | (h, true) => (h.rvTo n next, true)
  | (h, false) => (h.trap n 7 a, false)

/-- A CSR instruction; TBOP runs a buffer operation (R315). -/
def Hub.rvCsr (h : Hub) (n : Fin 8) (o : RvCsr) (imm : Bool) (rd rs : Fin 32) (num : Nat) (w next : W32) : Hub × Bool :=
  let c := h.core[n]
  let wr := o == .rw || rs != 0
  match h.csrRead n num with
  | none => (h.illegal n w, false)
  | some old =>
    if !c.csrOk num wr then (h.illegal n w, false)
    else
      let s : W32 := if imm then BitVec.ofNat 32 rs else c.rx rs
      let v := match o with
        | .rw => s
        | .rs => old ||| s
        | .rc => old &&& ~~~ s
      let h := if num = 0x800 then h.draw.2 else h
      if num = 0x800 then
        if !wr then (h.rvTo n next fun c => c.wx rd old, true)
        else match h.tbop n (v.bits 1 0) v with
          | some h' => (h'.rvTo n next fun c => c.wx rd old, true)
          | none => (h.trap n 7 v, false)
      else (h.rvTo n next fun c => (if wr then c.csrWrite num v else c).wx rd old, true)

/-- A decoded instruction of `len` bytes with bits `w`; the Bool says that it retired. -/
def Hub.rvExec (h : Hub) (n : Fin 8) (i : Rv) (w : W32) (len : Nat) : Hub × Bool :=
  let c := h.core[n]
  let next := c.pc + BitVec.ofNat 32 len
  match i with
  | .lui rd imm => (h.rvTo n next fun c => c.wx rd imm, true)
  | .auipc rd imm => (h.rvTo n next fun k => k.wx rd (c.pc + imm), true)
  | .jal rd imm => (h.rvTo n (c.pc + imm) fun c => c.wx rd next, true)
  | .jalr rd rs imm => (h.rvTo n ((c.rx rs + imm) &&& ~~~ 1#32) fun c => c.wx rd next, true)
  | .branch k a b imm => (h.rvTo n (if k.eval (c.rx a) (c.rx b) then c.pc + imm else next), true)
  | .load sz sx rd rs imm => h.rvLoad n sz sx rd (c.rx rs + imm) next
  | .store sz a b imm => h.rvStore n sz (c.rx b) (c.rx a + imm) next
  | .opImm o rd rs imm => (h.rvTo n next fun k => k.wx rd (o.eval (c.rx rs) imm), true)
  | .op o rd a b => (h.rvTo n next fun k => k.wx rd (o.eval (c.rx a) (c.rx b)), true)
  | .mul o rd a b => (h.rvTo n next fun k => k.wx rd (o.eval (c.rx a) (c.rx b)), true)
  | .fence => (h.rvTo n next, true)
  | .ecall => (h.trap n (if c.user then 8 else 11) 0, false)
  | .ebreak => (h.trap n 3 0, false)
  | .mret => if c.user then (h.illegal n w, false) else (h.modCore n Core.mret, true)
  | .wfi =>
    if c.user && c.csr.mstatus.bit 21 then (h.illegal n w, false)
    else (h.rvTo n next fun c => { c with wfi := true }, true)
  | .csr o imm rd rs num => h.rvCsr n o imm rd rs num w next

/-- minstret counts an instruction that retired; a write of it takes the place of the count. -/
def Hub.retired (h : Hub) (n : Fin 8) (i : Rv) : Hub :=
  let own := match i with
    | .csr o _ _ rs num => (num == 0xB02 || num == 0xB82) && (o == .rw || rs != 0)
    | _ => false
  h.modCore n fun c => if own || c.csr.minstretOff then c else { c with csr := { c.csr with minstret := c.csr.minstret + 1 } }

/-- One halfword at an instruction address. -/
def Hub.fetchHalf (h : Hub) (n : Fin 8) (a : W32) : Hub × MemAns :=
  if !(h.core[n]).pmpOk (h.core[n]).user a.toNat 2 2 then (h, .fault) else h.coreLoad n true a.toNat 2

/-- A fetched word runs. -/
def Hub.rvRun (h : Hub) (n : Fin 8) (i : Option Rv) (w : W32) (len : Nat) : Hub :=
  match i with
  | none => h.illegal n w
  | some i =>
    let r := h.rvExec n i w len
    if r.2 then r.1.retired n i else r.1

/-- Fetch, decode and execute one instruction at the pc. -/
def Hub.rvStep (h : Hub) (n : Fin 8) : Hub :=
  let pc := (h.core[n]).pc
  match h.fetchHalf n pc with
  | (h, .fault) => h.trap n 1 pc
  | (h, .stop) => h
  | (h, .ok lo) =>
    let w := leWord lo
    if w.bits 1 0 ≠ 3 then h.rvRun n (rvDecode16 w) w 2
    else match h.fetchHalf n (pc + 2) with
      | (h, .fault) => h.trap n 1 (pc + 2)
      | (h, .stop) => h
      | (h, .ok hi) => let w := leWord (lo ++ hi); h.rvRun n (rvDecode32 w) w 4

/-- One instruction of a core, or the external interrupt in its place; WFI waits for MEIP (R319). -/
def Hub.coreStep (h : Hub) (n : Fin 8) : Hub :=
  let c := h.core[n]
  let meip := !c.evq.isEmpty
  if !h.coreRuns n || (c.wfi && !meip) then h
  else if meip && c.csr.mie.bit 11 && (c.user || c.mie) then h.trap n 0x8000000B 0
  else (h.modCore n fun c => { c with wfi := false }).rvStep n

/-- CORE_INSTRUCTION (R308). -/
def execCoreInstruction (n : Fin 8) (s : State) : Host.Outcome State Fault Refusal := s.goes (s.hub.coreStep n)

end Sys2Proof.Machine
end

