-- ==== Sys2Proof/Machine/Dma.lean ====
section
/-! DEFINITION. The host's DMA rings and BARs (13 R386, R389-R394). -/

namespace Sys2Proof.Machine

/-! ## Transmit rings (R389, R390) -/

/-- Entries of a ring: LOG2N kept within 4-12. -/
def ringSize (log2n : Nat) : Nat := 2 ^ min 12 (max 4 log2n)

/-- Does the endpoint run: answering, its domain ON? -/
def Hub.hostRuns (h : Hub) : Bool := h.hst.answers && h.domOn 14

/-- Has transmit ring i a descriptor to read, and no request that waits for a tag in front of it? A cleared EN stops it at a
frame boundary (Table 13.7). -/
def Hub.txReady (h : Hub) (i : Fin 8) : Bool :=
  h.hostRuns && (h.bit (F.HST_TXR_CTL_EN i) || h.hst.open_[i]) && h.fld (F.HST_TXR_HEAD_PTR i) != h.fld (F.HST_TXR_TAIL_PTR i) &&
    !h.brg.wait.any fun w => w.ring == some i

/-- The transmit HEAD advances. -/
def Hub.txNext (h : Hub) (i : Fin 8) : Hub :=
  h.put (F.HST_TXR_HEAD_PTR i) ((h.fld (F.HST_TXR_HEAD_PTR i) + 1) % (2 * ringSize (h.fld (F.HST_TXR_CTL_LOG2N i))))

/-- Change the host port. -/
def Hub.modHst (h : Hub) (g : HostPort → HostPort) : Hub := { h with hst := g h.hst }

/-- W7 of a frame's last descriptor is written, and its vector sent (R388, R390). -/
def Hub.txClose (h : Hub) (i : Fin 8) (st : Nat) : Hub :=
  ((h.modHst fun p => { p with part := p.part.set i [], open_ := p.open_.set i false }).emit (.txDone i st [])).emit (.msix i)

/-- Word `k` of a descriptor. -/
def TxDesc.w (d : TxDesc) (k : Nat) : W32 := d.words.getD k 0

/-- KIND, LEN, DEST of a descriptor. -/
def txKind (d : TxDesc) : Nat := (TxDesc.w d 3).bits 31 28
def txLen (d : TxDesc) : Nat := (TxDesc.w d 2).bits 13 0
def txDest (d : TxDesc) : Nat := (TxDesc.w d 3).bits 7 0

/-- One descriptor of a kind at HEAD: its buffer joins the frame; at EOP `send` takes the whole, `none` for a malformed
one. A descriptor of another known kind is another command's; one of an unknown kind, of a wrong length or without SOP is
malformed (R390). -/
def Hub.txStep (h : Hub) (i : Fin 8) (kind : Nat) (d : TxDesc) (send : Hub → List Byte → Option Hub) : Hub :=
  let w := TxDesc.w d 3
  if !h.txReady i || (txKind d < 4 && txKind d != kind) || d.buf.length < txLen d then h
  else
    let h := h.txNext i
    if txKind d ≠ kind ∨ txLen d = 0 ∨ 9216 < txLen d ∨ (!w.bit 27 ∧ !h.hst.open_[i]) then h.txClose i stUR
    else
      let bytes := (if w.bit 27 then [] else h.hst.part[i]) ++ d.buf.take (txLen d)
      if w.bit 26 then
        match send h bytes with
        | some h' => h'.txClose i stOK
        | none => h.txClose i stUR
      else h.modHst fun p => { p with part := p.part.set i bytes, open_ := p.open_.set i true }

/-- Destination node and member of a descriptor. -/
def txNode (d : TxDesc) : BitVec 8 := (TxDesc.w d 3).extractLsb' 16 8
def txMem (d : TxDesc) : BitVec 2 := (TxDesc.w d 3).extractLsb' 14 2

/-- ETH: a TUNNEL frame with the ring's TSEQ. -/
def Hub.sendEth (h : Hub) (i : Fin 8) (d : TxDesc) (bytes : List Byte) : Option Hub :=
  if bytes.length < 14 ∨ 9212 < bytes.length ∨ 7 < txDest d then none
  else
    let w : W32 := 1#4 ++ 0#4 ++ BitVec.ofNat 8 (txDest d) ++ BitVec.ofNat 16 h.hst.tseq[i]
    let h := h.modHst fun p => { p with tseq := p.tseq.set i ((p.tseq[i] + 1) % 65536) }
    let pay := beBytes w ++ bytes
    some (h.send { hdr := h.mkHdr tTUNNEL 2 (h.resolve (txNode d)) (txMem d) pay.length, pay := pay } 4)

/-- TX_ETH (R390). -/
def execTxEth (ring : Fin 8) (d : TxDesc) (s : State) : Host.Outcome State Fault Refusal :=
  s.goes (s.hub.txStep ring 0 d fun h b => h.sendEth ring d b)

/-- A peer-delay message (R272). -/
def ptpPeer (pay : List Byte) : Bool := ptpType pay == 2 || ptpType pay == 3 || ptpType pay == 10

/-- A frame the host sends out of a link keeps its wish for a transmit stamp. -/
def Hub.wantStamp (h : Hub) (p : Fin 7) : Hub :=
  let q := qOf p 5
  h.setQ q (match (h.sw.q[q]).getLast? with
    | some f => (h.sw.q[q]).dropLast ++ [{ f with cap := true }]
    | none => [])

/-- PTP: out of port DEST; a peer-delay message goes in link scope. -/
def Hub.sendPtp (h : Hub) (d : TxDesc) (bytes : List Byte) : Option Hub :=
  if 3 < txDest d ∨ 9216 < bytes.length then none
  else
    let p : Fin 7 := ⟨txDest d % 4, by omega⟩
    let peer := ptpPeer bytes
    let r := h.takeSeq (256 + tPTP.toNat)
    let hdr := r.2.mkHdr tPTP 5 (if peer then 0 else r.2.resolve (txNode d)) (if peer then 0 else txMem d) bytes.length (seq := r.1)
    let hdr := { hdr with d := p == 1, hops := if peer then 0 else BitVec.ofNat 9 r.2.hopsOut }
    let q := r.2.route p 4 { hdr := hdr, pay := bytes }
    some (if q.2 && (TxDesc.w d 3).bit 25 then q.1.wantStamp p else q.1)

/-- TX_PTP (R390). -/
def execTxPtp (ring : Fin 8) (d : TxDesc) (s : State) : Host.Outcome State Fault Refusal :=
  s.goes (s.hub.txStep ring 1 d fun h b => h.sendPtp d b)

/-- The TC a posted request of the host travels in. -/
def txTc (d : TxDesc) : BitVec 3 := let t := (TxDesc.w d 3).bits 10 8; if t = 1 ∨ t = 0 then BitVec.ofNat 3 t else 4

/-- A request the bridge issues for the host: requester 9, its completion for receive ring DEST. -/
def Hub.hostIssue (h : Hub) (i : Fin 8) (d : TxDesc) (rq : Request) (timed : Option (BitVec 64)) : Hub :=
  h.issue { rq := rq, who := .host ⟨txDest d % 8, by omega⟩ ((TxDesc.w d 2).bits 31 16), timed := timed, ring := some i }

/-- REQUEST (R390). -/
def Hub.sendRequest (h : Hub) (i : Fin 8) (d : TxDesc) (bytes : List Byte) : Option Hub :=
  let w := TxDesc.w d 4
  let op := w.extractLsb' 0 4
  let len := w.bits 31 20 + 1
  let wr := isWrite op
  if 7 < txDest d ∨ (wr && bytes.length != len) then none
  else
    some (h.hostIssue i d
      { op := op, addr := (TxDesc.w d 6).extractLsb' 0 16 ++ TxDesc.w d 5, len := len, req := 9, snode := 0, smem := 0, tag := 0,
        again := false, posted := (TxDesc.w d 3).bit 24 && op == opWRITE, tc := txTc d, seq := 0,
        data := if wr then bytes else [] } none)

/-- TX_REQUEST (R390). -/
def execTxRequest (ring : Fin 8) (d : TxDesc) (s : State) : Host.Outcome State Fault Refusal :=
  s.goes (s.hub.txStep ring 2 d fun h b => h.sendRequest ring d b)

/-- TIMED (R390): 1 to 16 records to the node and member of the descriptor. -/
def Hub.sendTimed (h : Hub) (i : Fin 8) (d : TxDesc) (bytes : List Byte) : Option Hub :=
  if 7 < txDest d ∨ bytes.length % 8 ≠ 0 ∨ bytes.length < 8 ∨ 128 < bytes.length then none
  else
    some (h.hostIssue i d
      { op := opWRITE, addr := txNode d ++ txMem d ++ 0#38, len := bytes.length, req := 9, snode := 0, smem := 0, tag := 0,
        again := false, posted := (TxDesc.w d 3).bit 24, tc := 4, seq := 0, data := bytes } (some (TxDesc.w d 4 ++ TxDesc.w d 5)))

/-- TX_TIMED (R390). -/
def execTxTimed (ring : Fin 8) (d : TxDesc) (s : State) : Host.Outcome State Fault Refusal :=
  s.goes (s.hub.txStep ring 3 d fun h b => h.sendTimed ring d b)

/-! ## Receive rings (R391-R394) -/

/-- Descriptors the host has given to receive ring i. -/
def Hub.rxFree (h : Hub) (i : Fin 8) : Nat :=
  let n := 2 * ringSize (h.fld (F.HST_RXR_CTL_LOG2N i))
  (h.fld (F.HST_RXR_TAIL_PTR i) + n - h.fld (F.HST_RXR_HEAD_PTR i) % n) % n

/-- The receive HEAD advances by k. -/
def Hub.rxNext (h : Hub) (i : Fin 8) (k : Nat) : Hub :=
  h.put (F.HST_RXR_HEAD_PTR i) ((h.fld (F.HST_RXR_HEAD_PTR i) + k) % (2 * ringSize (h.fld (F.HST_RXR_CTL_LOG2N i))))

/-- A frame cut into the buffers it fills; a frame without bytes takes one buffer. -/
def cutBufs : List Nat → List Byte → List (List Byte)
  | [], _ => []
  | n :: r, bs => if bs.length ≤ n then [bs] else bs.take n :: cutBufs r (bs.drop n)

/-- W3 of a receive descriptor (Table 13.3). -/
def rxW3 (sop eop ovr bad : Bool) (kind : Nat) (node : BitVec 8) (mem : BitVec 2) (bytes : Nat) : W32 :=
  1#1 ++ BitVec.ofBool sop ++ BitVec.ofBool eop ++ BitVec.ofBool ovr ++ BitVec.ofBool bad ++ BitVec.ofNat 3 kind ++ node ++ mem ++
    BitVec.ofNat 14 bytes

/-- What a frame brings to its receive descriptors: KIND, source, W4-W6, bytes, whether a tile failed. -/
structure RxIn where
  kind : Nat
  node : BitVec 8
  mem : BitVec 2
  ws : List W32
  data : List Byte
  bad : Bool := false
  deriving DecidableEq, Repr

/-- A frame goes to receive ring i with the buffer sizes of its free descriptors (R391, R393, R394). -/
def Hub.rxPut (h : Hub) (i : Fin 8) (x : RxIn) (bufs : List Nat) : Hub :=
  let keep := h.bit (F.HST_RXR_CTL_DELIVER_BAD i)
  let parts := cutBufs bufs x.data
  let ovr := decide (bufs.foldl (· + ·) 0 < x.data.length)
  if ovr && !keep then h.count F.HST_RXDROP
  else if x.bad && !keep then h.count F.HST_RXBAD
  else
    let n := parts.length
    let h := (parts.zip (List.range n)).foldl (fun h p =>
      let last := p.2 + 1 == n
      h.emit (.rxDesc i (rxW3 (p.2 == 0) last (last && ovr) (last && x.bad) x.kind x.node x.mem p.1.length :: x.ws) p.1)) h
    let h := (h.rxNext i n).emit (.msix (8 + i.val))
    if ovr then h.count F.HST_RXTRUNC else h

/-- The receive ring of a frame: DEST of a tunnel. A PTP frame takes the ring of the command (log entry 39). -/
def ringOf (f : Frame) (i : Fin 8) : Nat := if f.hdr.typ = tPTP then i.val else (f.word 0).bits 23 16

/-- The frame the Host port sends next, by the choice every port makes (R193), among the classes whose head has a free
descriptor in its ring (R392); a PTP frame takes ring i. -/
def Hub.hostNext (h : Hub) (i : Fin 8) : Option QFrame × Hub :=
  h.nextFrame 4 fun c => (headReady h.sw.q[qOf 4 c]).any fun q =>
    if hr : ringOf (h.frameOf q) i < 8 then
      let r : Fin 8 := ⟨ringOf (h.frameOf q) i, hr⟩
      h.bit (F.HST_RXR_CTL_EN r) && decide (0 < h.rxFree r)
    else false

/-- The frames at the heads of the Host port's queues, highest class first. -/
def Hub.hostHeads (h : Hub) : List (Fin 56 × QFrame) :=
  ([7, 6, 5, 4, 3, 2, 1, 0] : List Nat).filterMap fun c => (headReady h.sw.q[qOf 4 c]).map fun f => (qOf 4 c, f)

/-- The tiles of a frame are read by the DMA; those that fail read 0 (R394). -/
def Hub.hostRead (h : Hub) (f : QFrame) : Hub × Frame × Bool :=
  let r := f.tiles.foldl (fun (p : Hub × List Byte × Bool) t =>
    let v := p.1.verify t 2
    (v.1, p.2.1 ++ (if v.2 then v.1.tl.bytes t else List.replicate 256 0), p.2.2 && v.2)) (h, [], true)
  (r.1, { hdr := f.hdr, pay := r.2.1.take f.len }, r.2.2)

/-- A frame for the host as its descriptors show it (Table 13.3). -/
def rxOf (p : Nat) (rx : Option GTime) (f : Frame) (bad : Bool) : RxIn :=
  let t := rx.getD {}
  if f.hdr.typ = tPTP then
    { kind := 1, node := f.hdr.snode, mem := f.hdr.smem, data := f.pay, bad := bad
      ws := [BitVec.ofNat 32 t.ns, BitVec.ofNat 32 t.sec, BitVec.ofNat 32 (t.sec / 2 ^ 32 % 65536 + p % 4 * 65536)] }
  else { kind := 0, node := f.hdr.snode, mem := f.hdr.smem, ws := [f.word 0, 0, 0], data := f.pay.drop 4, bad := bad }

/-- A frame or a completion for ring i reaches its descriptors: the head of a Host port queue, a completion that waits, or
the frame the command brings. -/
def Hub.rxDeliver (h : Hub) (i : Fin 8) (f : Frame) (good : Bool) (bufs : List Nat) : Hub :=
  let bufs := bufs.take (h.rxFree i)
  if !h.hostRuns || !h.bit (F.HST_RXR_CTL_EN i) || bufs.isEmpty then h
  else if f.hdr.typ = tCPL then
    match h.hst.cpl[i] with
    | [] => h
    | c :: r =>
      (h.modHst fun p => { p with cpl := p.cpl.set i r }).rxPut i
        { kind := 2, node := c.node, mem := c.mem, ws := [c.word, BitVec.ofNat 32 (c.cookie % 65536), 0], data := c.data } bufs
  else match h.hostNext i with
  | (some x, k) =>
    if x.hdr == f.hdr && ringOf (h.frameOf x) i == i.val then
      let r := k.hostRead x
      let rx := rxOf x.ing.val x.rx r.2.1 (!(r.2.2 && good))
      (r.1.dequeue (qOf 4 x.hdr.tc.toNat) x).rxPut i rx bufs
    else h
  | (none, _) =>
    if f.hdr.typ ≠ tTUNNEL ∧ f.hdr.typ ≠ tPTP then h
    else if ringOf f i ≠ i.val then h
    else h.rxPut i (rxOf 0 none (if good then f else { f with pay := f.pay.map fun _ => 0 }) (!good)) bufs

/-- RX_DELIVER (R391). -/
def execRxDeliver (ring : Fin 8) (f : Frame) (good : Bool) (bufs : List Nat) (s : State) : Host.Outcome State Fault Refusal :=
  s.goes (s.hub.rxDeliver ring f good bufs)

/-- Does the next frame or completion for receive ring i wait for a descriptor? -/
def Hub.rxBlocked (h : Hub) (i : Fin 8) : Bool :=
  !(h.bit (F.HST_RXR_CTL_EN i) && decide (0 < h.rxFree i)) &&
    ((h.hostHeads.any fun x => ringOf (h.frameOf x.2) i == i.val) || !(h.hst.cpl[i]).isEmpty)

/-- Since when each receive ring has kept a frame waiting, as a tick sees it. -/
def Hub.tickHost (h : Hub) : Hub :=
  let w := fun (i : Fin 8) => if h.rxBlocked i then some ((h.hst.waitAt[i]).getD h.now) else none
  h.modHst fun p => { p with waitAt := Vector.ofFn w }

/-- WAIT has passed for the frame at the head of a Host port queue whose ring holds no free descriptor; a completion that
waits is dropped the same way (R392). -/
def Hub.rxWait (h : Hub) (i : Fin 8) : Hub :=
  if !h.rxBlocked i || !((h.hst.waitAt[i]).any fun t => decide (t + us (h.fld F.HST_RXCFG_WAIT) ≤ h.now)) then h
  else
    let h := h.modHst fun p => { p with waitAt := p.waitAt.set i none }
    match h.hostHeads.find? fun x => ringOf (h.frameOf x.2) i == i.val with
    | some x => (h.dequeue x.1 x.2).count F.HST_RXNODESC
    | none => match h.hst.cpl[i] with
      | [] => h
      | _ :: r => (h.modHst fun p => { p with cpl := p.cpl.set i r }).count F.HST_RXNODESC

/-- RX_WAIT_EXPIRE (R392). -/
def execRxWaitExpire (ring : Fin 8) (s : State) : Host.Outcome State Fault Refusal := s.goes (s.hub.rxWait ring)

/-! ## BARs (R386) -/

/-- The host as a requester. -/
def Hub.hostAccess (h : Hub) (posted : Bool) : Access := { req := 9, node := 0, mem := BitVec.ofNat 2 h.member, posted := posted }

/-- BAR0: one register word, or the error response of Table 0.5. -/
def Hub.bar0 (h : Hub) (off len : Nat) (wr : Option W32) : Hub :=
  let a := h.hostAccess wr.isSome
  if !h.hostRuns then h
  else if len ≠ 4 ∨ off % 4 ≠ 0 ∨ 0x200000 ≤ off then
    (let h := h.refuse a off wr.isSome; if wr.isSome then h else h.emit (.barAbort off))
  else match wr with
    | some v => h.regWrite a off v
    | none => match h.regRead a off with
      | (h, some v) => h.emit (.barRead off (leBytes v))
      | (h, none) => h.emit (.barAbort off)

/-- BAR0_ACCESS (R386). -/
def execBar0Access (off : W32) (len : Nat) (wr : Option W32) (s : State) : Host.Outcome State Fault Refusal :=
  s.goes (s.hub.bar0 off.toNat len wr)

/-- BAR2: bytes of the host window. -/
def Hub.bar2 (h : Hub) (off len : Nat) (wr : Option (List Byte)) : Hub :=
  let len := match wr with
    | some d => d.length
    | none => len
  let at_ := h.fld (F.TILE_PART_BASE 2) * 256 + off
  if !h.hostRuns then h
  else if len = 0 ∨ 4096 < len ∨ 4096 < off % 4096 + len ∨ h.fld (F.TILE_PART_SIZE 2) * 256 < off + len ∨ !h.banksOn at_ len then
    (let h := h.raise 1 Block.hst.unit causeACCESS off 9; if wr.isSome then h else h.emit (.barAbort off))
  else match wr with
    | some d => h.imgWrite at_ d
    | none =>
      let r := h.verifyAll (tilesOf at_ len) 5
      if r.2 then r.1.emit (.barRead off (bytesAt r.1.tl.mem at_ len)) else r.1.emit (.barPoison off)

/-- BAR2_ACCESS (R386). -/
def execBar2Access (off : W32) (len : Nat) (wr : Option (List Byte)) (s : State) : Host.Outcome State Fault Refusal :=
  s.goes (s.hub.bar2 off.toNat len wr)

end Sys2Proof.Machine
end

