-- ==== Sys2Proof/Machine/Frames.lean ====
section
/-! DEFINITION. Frames as they come and go at the switch's ports: header checks, delivery, forwarding and stripping
(09 R268-R279), arrival at a port (06 R190) and egress (06 R178, R193). -/

namespace Sys2Proof

/-- A frame as it is sent: header, payload, pad to 8 bytes, frame check (R268, R270). -/
def Frame.wire (f : Frame) : List Byte :=
  let body := wordsPay f.hdr.encode ++ f.pay ++ List.replicate (8 - f.pay.length) 0
  body ++ leBytes (crc32 body)

/-- The header of received bytes. -/
def headerOf (bs : List Byte) : Header :=
  let w := fun (i : Nat) => beWord (bs.drop (4 * i))
  Header.decode (w 0) (w 1) (w 2) (w 3) (w 4)

/-- The frame of received bytes. -/
def frameOfWire (bs : List Byte) : Frame :=
  { hdr := headerOf bs, pay := ((bs.take (bs.length - 4)).drop 20).take (headerOf bs).len.toNat }

/-- Does HCRC hold (R269)? -/
def hcrcGood (bs : List Byte) : Bool :=
  crc16 (bs.take 18) == (bs.getD 18 0) ++ (bs.getD 19 0)

/-- Do the length and the frame check hold (R270)? -/
def fcsGood (bs : List Byte) : Bool :=
  bs.length == 20 + max (headerOf bs).len.toNat 8 + 4 &&
    leWord (bs.drop (bs.length - 4)) == crc32 (bs.take (bs.length - 4))

end Sys2Proof

namespace Sys2Proof.Machine

/-! ## Header checks (R269, R271, R273) -/

/-- The TC and X Table 9.2 allows for a type; link-scope RINGCTL goes express. -/
def tcAllowed (f : Header) : Bool :=
  let t := f.tc.toNat
  match f.typ.toNat with
  | 1 => t == 6 && !f.x
  | 2 => t == 4 && !f.x
  | 3 => (t == 4 || t == 1 || t == 0) && !f.x
  | 4 => t == 3 && !f.x
  | 5 => t == 7 && f.x
  | 6 => t == 2 && !f.x
  | 7 => t == 5 && !f.x
  | 8 => t == 5 && f.x
  | 9 => t == 5 && f.x == (f.dnode == 0)
  | 10 => t == 4 && !f.x
  | 11 => t == 5 && !f.x
  | 12 => t == 4 && !f.x
  | _ => false

/-- A header error of R269. -/
def headerBad (f : Header) : Bool :=
  !tcAllowed f || decide (9216 < f.len.toNat) || f.dnode == 254 || (f.dnode == 0 && !linkType f.typ)

/-- The subtypes of Table 9.3 that have ring scope. -/
def ringSub (s : Nat) : Bool := decide (0x10 ≤ s ∧ s ≤ 0x1D)

/-- A RINGCTL frame of a subtype outside Table 9.3: discarded and counted wherever it comes (R273). -/
def subBad (f : Frame) : Bool :=
  let s := (f.word 0).bits 31 24
  f.hdr.typ == tRINGCTL && !(decide (1 ≤ s ∧ s ≤ 6) || ringSub s)

/-- Is a frame of link scope by its type or subtype, whatever its DNODE says? No node forwards one (R248, R272). -/
def linkOnly (f : Frame) : Bool :=
  f.hdr.typ == tBEACON || f.hdr.typ == tLAMP || (f.hdr.typ == tRINGCTL && decide ((f.word 0).bits 31 24 < 0x10))

/-- A frame is discarded for its header. -/
def Hub.hdrErr (h : Hub) : Hub := h.count F.RNG_HDRERR

/-! ## Delivery -/

/-- A RINGCTL frame of ring scope is consumed. -/
def Hub.ringIn (h : Hub) (f : Frame) : Hub :=
  match (f.word 0).bits 31 24 with
  | 0x10 => h.onJoinReq f
  | 0x11 => h.onJoinAck f
  | 0x12 => h.onJoinNak f
  | 0x13 => h.onElect f
  | 0x14 => h.onMasterHb f
  | 0x16 => h.onTopoMap f
  | 0x17 => if h.isMaster then h.masterWrap f.hdr.snode.toNat ((f.word 1).bit 0) else h
  | 0x18 => if h.isMaster then h.masterLinkUp f.hdr.snode.toNat ((f.word 1).bit 0) else h
  | 0x19 => h.planTake false f
  | 0x1A => h.planTake true f
  | 0x1B => h.onShiftReq f
  | 0x1C => h.onShiftAns f
  | 0x1D => h.onRingReset f
  | _ => h

/-- A frame for this member goes to its port: bridge traffic to the Local port, management to the Steward port behind
its replay window, ring control at once. -/
def Hub.deliverHere (h : Hub) (ing : Fin 7) (f : Frame) : Hub :=
  let t := f.hdr.typ
  if t = tRINGCTL then (if ringSub ((f.word 0).bits 31 24) then h.ringIn f else h.hdrErr)
  else if t = tMGMT then
    let r := h.seeMgmt f
    if r.1 then (r.2.enqueue 6 ing f).1 else r.2
  else if t = tREQ_NP ∨ t = tREQ_P ∨ t = tCPL ∨ t = tTIMED ∨ t = tTUNNEL ∨ t = tEVENT then (h.enqueue 5 ing f).1
  else h

/-- A broadcast's copy: its replay window (R281), then the member it names; a node without that member discards it (R30). -/
def Hub.deliverCopy (h : Hub) (ing : Fin 7) (f : Frame) : Hub :=
  let m := f.hdr.dmem.toNat
  let t := f.hdr.typ
  let here := fun (h : Hub) =>
    if h.fld F.RNG_JOINCFG_MEMBERS < m then h.count F.BRG_BCDISC
    else if m = h.member then h.deliverHere ing f
    else h.transit ing 3 f true
  if t = tRINGCTL ∨ t = tMGMT then here h
  else
    let r := h.seeBroadcast f
    if r.1 then here r.2 else r.2

/-- A request for a member that this node does not have, or whose stack link is down (R31): a completion in that
member's name, or an EVENT for a posted request. Other frames are lost. -/
def Hub.memberRefuse (h : Hub) (f : Frame) (st : Nat) : Hub :=
  let rq := requestOf f
  if f.hdr.typ ≠ tREQ_NP ∧ f.hdr.typ ≠ tREQ_P ∧ f.hdr.typ ≠ tTIMED then h
  else if rq.posted then
    if f.hdr.typ = tTIMED then h.event { rq with addr := 0 } st (h.unit Block.brg.unit) 0xF 31
    else h.event rq st (h.targetUnit rq) rq.op
  else
    let c := h.cplFrame rq st 0 false false (if f.hdr.typ = tTIMED then allLost rq else [])
    h.send { c with hdr := { c.hdr with smem := f.hdr.dmem } }

/-- A frame for this node: consumed by the member DMEM names, which member 0 reaches down the stack (R275). -/
def Hub.ownFrame (h : Hub) (ing : Fin 7) (f : Frame) (good : Bool) : Hub :=
  if f.hdr.dmem.toNat = h.member then (if good then h.deliverHere ing f else h)
  else match h.memberErr f.hdr.dmem.toNat with
    | some st => if good then h.memberRefuse f st else h
    | none => h.transit ing 3 f good

/-- An own frame comes back round the ring and is stripped (R275). -/
def Hub.strip (h : Hub) (f : Frame) (good : Bool) : Hub :=
  let h := if f.hdr.dnode = 255 then h else h.count F.RNG_NODEST
  if !good || !(f.hdr.typ == tREQ_NP || (f.hdr.typ == tTIMED && f.hdr.np)) then h
  else if f.hdr.smem.toNat = h.member then
    h.cplIn f.hdr.tag f.hdr.dnode.toNat f.hdr.dmem.toNat stDOWN 0 false false []
  else
    let c := h.cplFrame (requestOf f) stDOWN 0 false false []
    h.send { c with hdr := { c.hdr with snode := f.hdr.dnode, smem := f.hdr.dmem } }

/-! ## Link scope (R272, R346) -/

/-- A LAMP frame on the pair link. -/
def Hub.lampIn (h : Hub) (f : Frame) : Hub :=
  match (f.word 0).bits 31 24 with
  | 0x01 => h.onLease f
  | 0x02 => h.onAck f
  | 0x03 => h.onRelease f
  | 0x04 => h.onInput f
  | 0x05 => h.onMark f
  | 0x06 => h.onCplm f
  | 0x07 => h.onSig f
  | 0x08 => h.onRelay f
  | 0x09 => h.onClaim f
  | 0x0A => h.onGrant f
  | 0x0B => h.onRefuse f
  | s => h.lampRx f s id

/-- A RINGCTL frame of link scope. -/
def Hub.linkCtl (h : Hub) (p : Fin 4) (f : Frame) : Hub :=
  let s := (f.word 0).bits 31 24
  if s = 1 then h.onPfc p f
  else if p.val < 2 ∧ s = 2 then h.onShiftPropose p f
  else if p.val < 2 ∧ s = 3 then h.onShiftAgree p f
  else if p.val < 2 ∧ s = 4 then h.onShiftReject p f
  else if p.val < 2 ∧ s = 5 then h.onDrnLate f
  else if p = 2 ∧ h.member ≠ 0 ∧ s = 6 then h.onIdPush f
  else h.hdrErr

/-- A link-scope frame is consumed; LAMP frames belong to the pair link only. -/
def Hub.linkScope (h : Hub) (p : Fin 4) (f : Frame) : Hub :=
  if f.hdr.typ = tBEACON then h.onBeacon p f
  else if f.hdr.typ = tRINGCTL then h.linkCtl p f
  else if f.hdr.typ = tPTP then h.onPtp p f true
  else h.hdrErr

/-- A frame on the pair link: beacons, PFC and LAMP, nothing else (R346). -/
def Hub.pairScope (h : Hub) (f : Frame) (good : Bool) : Hub :=
  if f.hdr.typ = tBEACON ∧ f.hdr.dnode = 0 then (if good then h.onBeacon 2 f else h)
  else if f.isRing 0x01 ∧ f.hdr.dnode = 0 then (if good then h.onPfc 2 f else h)
  else if f.hdr.typ = tLAMP ∧ f.hdr.dnode = 0 then (if good then h.lampIn f else h)
  else h.hdrErr

/-! ## Ring and stack ports (R275, R288, R19) -/

/-- A frame of ring scope at a ring port. -/
def Hub.ringScope (h : Hub) (p : Fin 4) (f : Frame) (fin : FrameEnd) : Hub :=
  let good := fin == .good
  let own := h.node != 0 && f.hdr.snode.toNat == h.node
  if f.hdr.typ = tDRONE then h.onDrone p f fin
  else if f.hdr.typ = tPTP then h.onPtp p f good
  else if f.isRing 0x15 then (if good then h.onTopo p f else if own then h else h.forward p f false)
  else if h.node ≠ 0 ∧ f.hdr.dnode.toNat = h.node then h.ownFrame ⟨p.val, by omega⟩ f good
  else if own ∧ f.hdr.w = false then h.strip f good
  else if f.hdr.dnode = 255 then
    (if good && !own then h.deliverCopy ⟨p.val, by omega⟩ f else h).forward p f good
  else h.forward p f good

/-- A frame from the member above: for this member, or further down, which the stack link may not reach (R31). -/
def Hub.fromUp (h : Hub) (f : Frame) (good : Bool) : Hub :=
  if h.member < f.hdr.dmem.toNat then match h.memberErr f.hdr.dmem.toNat with
    | some st => if good then h.memberRefuse f st else h
    | none => if f.hdr.typ = tPTP then let r := h.rxStamp 2; r.1.ptpTransit 2 3 f r.2 good else h.transit 2 3 f good
  else if f.hdr.dmem.toNat = h.member then
    (if good then (if f.hdr.typ = tPTP then h.onPtp 2 f true else h.deliverHere 2 f) else h)
  else h.hdrErr.raise 1 Block.rng.unit causePROTO f.hdr.dmem.toNat

/-- A frame from the member below: for this member, or on towards the ring (R288). Stored whole, so a bad one ends here. A
broadcast is delivered at this node too (R30). -/
def Hub.fromDown (h : Hub) (f : Frame) (good : Bool) : Hub :=
  if !good then h
  else if h.node ≠ 0 ∧ f.hdr.dnode.toNat = h.node ∧ f.hdr.dmem.toNat = h.member then
    (if f.hdr.typ = tPTP then h.onPtp 3 f true else h.deliverHere 3 f)
  else match h.portTo f.hdr.dnode f.hdr.dmem with
    | some q =>
      let g := { f with hdr := { f.hdr with d := q == 1 } }
      let h := if f.hdr.typ = tPTP then let r := h.rxStamp 3; ((r.1.route q 3 g).1).ptpQueued r.2 else (h.route q 3 g).1
      h.ownCopy 3 f
    | none => h

/-- Count a frame received whole at a link: its size bin, and frame and bytes where it is good (R266, Table 8.4). -/
def Hub.rxCount (h : Hub) (l : Fin 4) (n : Nat) (good : Bool) : Hub :=
  (if good then (h.count (F.X_RXFRM l)).count (F.X_RXBYTE l) n else h).count (F.X_RXBIN_COUNT l (sizeBin n))

/-- A frame whose header check held ends at a link: the counters of R279, the header errors of R269, then where it goes.
While the link is not UP only its control frames pass (R248). -/
def Hub.rxFrame (h : Hub) (p : Fin 4) (f : Frame) (fin : FrameEnd) : Hub :=
  let good := fin == .good
  let h := match fin with
    | .good => h
    | .bad => h.count (F.X_RXCRC p)
    | .eclipsed => h.count (F.X_RXECL p)
  if p.val < 2 ∧ h.member ≠ 0 then h
  else if headerBad f.hdr || (good && subBad f) then h.hdrErr
  else if f.hdr.dnode ≠ 0 ∧ linkOnly f then h
  else if !h.linkIsUp p && !(f.hdr.typ == tBEACON || f.isRing 0x01) then h
  else if p = 2 ∧ h.member = 0 then h.pairScope f good
  else if f.hdr.dnode = 0 then (if good then h.linkScope p f else h)
  else if p.val < 2 then h.ringScope p f fin
  else if p = 2 then h.fromUp f good
  else h.fromDown f good

/-- What the checks at byte 19 find wrong with a header (R269). -/
def Hub.rxHeader (h : Hub) (p : Fin 4) (bs : List Byte) : Hub :=
  if !hcrcGood bs then h.count (F.X_RXHCRC p) else if headerBad (headerOf bs) then h.hdrErr else h

/-- A frame arrives at a link as bytes: the FEC's codewords, a reassembly error, undersize, oversize, header check, then the
frame check (R241, R249, R266, R269, R270, R278, R279). A frame that comes ends the neighbour's LPI (R261). -/
def Hub.rxWire (h : Hub) (p : Fin 4) (bs : List Byte) (rx : RxEnd) (ecl : Bool) : Hub :=
  let h := (h.count (F.X_FECCORR p) rx.corr).count (F.X_FECUNC p) rx.unc
  let h := if (headerOf bs).typ == tBEACON then h else h.putLpi p (h.link[p]).lpiTx false
  if rx.mm then h.count (F.X_MMERR p)
  else if bs.length < 32 then h.count (F.X_RXUNDSZ p)
  else if 9240 < bs.length then (h.rxHeader p bs).count (F.X_RXOVSZ p)
  else if !hcrcGood bs then (h.rxCount p bs.length false).rxHeader p bs
  else
    let good := fcsGood bs && !rx.cut && rx.unc == 0 && !ecl
    (h.rxCount p bs.length good).rxFrame p (frameOfWire bs) (if ecl then .eclipsed else if good then .good else .bad)

/-- RING_FRAME_RECEIVED (R275). -/
def execRingFrameReceived (port : Fin 4) (bytes : List Byte) (rx : RxEnd) (ecl : Bool) (s : State) : Host.Outcome State Fault Refusal :=
  s.goes (s.hub.rxWire port bytes rx ecl)

/-- FRAME_RECEIVED (R190): at a link as above; from the Host, Local or Steward port the frame goes by its header, and a
bad one is never queued. -/
def execFrameReceived (port : Fin 7) (f : Frame) (fin : FrameEnd) (s : State) : Host.Outcome State Fault Refusal :=
  s.goes (
    let h := s.hub
    if hp : port.val < 4 then
      let fin := if fin = .good ∧ f.hdr.len.toNat ≠ f.pay.length then .bad else fin
      (h.rxCount ⟨port.val, hp⟩ (frameBytes f.pay.length) (fin == .good)).rxFrame ⟨port.val, hp⟩ f fin
    else if fin = .good ∧ f.hdr.len.toNat = f.pay.length then
      (h.route ((h.portTo f.hdr.dnode f.hdr.dmem).getD 5) port f).1
    else h)

/-! ## Egress (R193, Table 6.1) -/

/-- Verify a frame's tiles in order up to the first that fails; its place in the frame. -/
def Hub.verifyRun (h : Hub) (ts : List Nat) (cons : Nat) : Hub × Option Nat :=
  ts.zipIdx.foldl (fun (a : Hub × Option Nat) (t : Nat × Nat) => match a.2 with
    | some _ => a
    | none => let r := a.1.verify t.1 cons; (r.1, if r.2 then none else some t.2)) (h, none)

/-- Heads too long for any open interval of their class are dropped (R251). -/
def Hub.dropLong (h : Hub) (l : Fin 4) : Hub :=
  (List.range 8).foldl (fun h c =>
    let q := qOf ⟨l.val, by omega⟩ c
    match headReady h.sw.q[q] with
    | some f => if h.tooLong l (h.frameOf f) then (h.dequeue q f).count (F.X_GATEDROP l) else h
    | none => h) h

/-- The bytes a queued frame leaves with: a stored PTP message takes its residence and may leave a stamp (R168, R169). -/
def Hub.ptpOut (h : Hub) (l : Fin 4) (q : QFrame) (f : Frame) : Hub × Frame :=
  if f.hdr.typ ≠ tPTP then (h, f)
  else
    let h := if q.cap then h.txStamp l (ptpSeq f.pay) (ptpDom f.pay) (BitVec.ofNat 4 (ptpType f.pay)) else h
    match q.rx with
    | some t =>
      let r := h.stamp
      let c := r.1.ptpCorrect l ⟨q.ing.val % 4, by omega⟩ ((r.2.units : Nat) - (t.units : Nat)) f.pay
      (c.1, { f with pay := c.2 })
    | none => (h, f)

/-- A link sends its next frame; a failed first tile drops it, a later one eclipses it (Table 6.1, code 1). -/
def Hub.egressLink (h : Hub) (l : Fin 4) : Hub :=
  let p : Fin 7 := ⟨l.val, by omega⟩
  let h := h.dropLong l
  let ok := fun (c : Nat) => (headReady h.sw.q[qOf p c]).any fun f => h.mayStart l c f.len
  match h.nextFrame p ok with
  | (none, h) => h
  | (some q, h) =>
    let v := h.verifyRun q.tiles 1
    let f := v.1.frameOf q
    let h := v.1.dequeue (qOf p q.hdr.tc.toNat) q
    match v.2 with
    | some 0 => h
    | some i => h.emitOn l { f with pay := f.pay.take (256 * i) } false
    | none => let r := h.ptpOut l q f; r.1.emitOn l r.2 true

/-- Tiles of the completion a request gets. -/
def cplTiles (rq : Request) : Nat := tilesFor (4 + if isRead rq.op then rq.len else if rq.data.length % 8 = 0 then 4 else 0)

/-- Is there room for the completion of a non-posted request, beside those of the accesses not yet answered (R229)? -/
def Hub.cplRoom (h : Hub) (rq : Request) : Bool :=
  let port := fun (r : Request) => if r.posted || h.isLocal r then none else h.portTo r.snode r.smem
  match port rq with
  | none => true
  | some p =>
    let owed := h.brg.slot.toList.filterMap fun s => match s.rq with
      | some r => if s.st == .fetching && !s.echo && !s.retried && !s.gone && port r == some p then some (cplTiles r) else none
      | none => none
    !(decide (p.val < 4) && !h.linkTakes p.val) || (h.admitRule (qOf p 3) 3 (cplTiles rq + owed.foldl (· + ·) 0)).isSome

/-- May the frame at the head of a class of the Local port be taken (R229)? -/
def Hub.localTakes (h : Hub) (c : Nat) : Bool :=
  (headReady h.sw.q[qOf 5 c]).any fun f => !(f.hdr.typ == tREQ_NP || (f.hdr.typ == tTIMED && f.hdr.np)) ||
    h.cplRoom (requestOf (h.frameOf f))

/-- The Local port hands its next frame to the bridge; one with a failed tile is dropped, and a non-posted request in it
answered POISON from the header held in the descriptor (Table 6.1, code 3). -/
def Hub.egressLocal (h : Hub) : Hub :=
  match h.nextFrame 5 h.localTakes with
  | (none, h) => h
  | (some q, h) =>
    let v := h.verifyAll q.tiles 3
    let f := v.1.frameOf q
    let h := v.1.dequeue (qOf 5 q.hdr.tc.toNat) q
    let t := f.hdr.typ
    let rq := requestOf f
    if !v.2 then (if t = tREQ_NP ∨ (t = tTIMED ∧ f.hdr.np) then h.respond rq stPOISON else h)
    else if t = tREQ_NP ∨ t = tREQ_P then h.serve rq
    else if t = tTIMED then h.serveTimed rq f.hdr.adr
    else if t = tCPL then h.onCpl f
    else if t = tEVENT then h.eventLog f.hdr.snode f
    else if t = tTUNNEL then h.onTunnel f
    else h

/-- The Steward port hands its next frame on; one with a failed tile is answered CHECK_FAIL (Table 6.1, code 7). -/
def Hub.egressSteward (h : Hub) : Hub :=
  match h.nextFrame 6 fun _ => true with
  | (none, h) => h
  | (some q, h) =>
    let v := h.verifyAll q.tiles 7
    let f := v.1.frameOf q
    let h := v.1.dequeue (qOf 6 q.hdr.tc.toNat) q
    if v.2 then h.onMgmt f else h.mgmtBad f

/-- FRAME_EGRESS (R193). The Host port sends when a receive descriptor is there: RX_DELIVER. -/
def execFrameEgress (port : Fin 7) (s : State) : Host.Outcome State Fault Refusal :=
  s.goes (
    let h := s.hub
    if hp : port.val < 4 then h.egressLink ⟨port.val, hp⟩
    else if port = 5 then h.egressLocal
    else if port = 6 then h.egressSteward
    else h)

end Sys2Proof.Machine
end

