-- ==== Sys2Proof/Machine/Update.lean ====
section
/-! DEFINITION. Update sessions, activation, live activation and reapply (12 R376-R383, Table 12.8). -/

namespace Sys2Proof.Machine

/-! ## Sessions (R378) -/

/-- Who a command comes from: the channel, and for ring channels the source. -/
def partyOf (ch : Fin 4) (src : Option MSrc) : Party :=
  match src with
  | some s => { ch := ch, node := s.node, mem := s.mem }
  | none => { ch := ch }

/-- Does a ring boot wait for its bundle (Table 12.6)? -/
def Hub.ringBoot (h : Hub) : Bool :=
  h.bit F.GLB_STRAP_BOOT_SRC && h.member == 0 && h.phase == phROM && !h.ldr.running

/-- The slot an update writes: the one that does not run; in recovery the one that is not ACTIVE; for a ring boot the
store in tile memory. -/
def Hub.inactive (h : Hub) : Nat :=
  if h.ringBoot then 2
  else if h.ldr.running ∧ h.slot < 2 then 1 - h.slot
  else 1 - h.bcb.active

/-- Mark a flash slot in the BCB. -/
def Hub.markSlot (h : Hub) (s v : Nat) : Hub := if s < 2 then h.bcbWrite (h.bcb.mark s v) else h

/-- A command of the session restarts its idle time. -/
def Hub.touch (h : Hub) : Hub := h.modLdr fun l => { l with sess := l.sess.map fun s => { s with last := h.now } }

/-- IMG_BEGIN: refused while another's session is open, or a trial or an activation stands; else the slot is EMPTY and
its sectors erased. -/
def Hub.imgBegin (h : Hub) (who : Party) (len : Nat) : Hub × Nat × List W32 :=
  if h.ldr.sess.any fun s => s.who != who then (h, rcBUSY, [])
  else if h.bcb.trial ≠ 3 then (h, rcBAD_STATE, [])
  else
    let s := h.inactive
    let h := h.markSlot s slEMPTY
    let end_ := (len + 65535) / 65536 * 65536
    (h.modLdr fun l => { l with
      store := l.store.set (slotOf s) ((l.store[slotOf s]).filter fun p => decide (end_ ≤ p.1))
      sess := some { who := who, slot := s, len := len, last := h.now }, ready := false }, rcOK, [])

/-- The bulk data of a command: behind the message on the ring channels, in the host window on the others (R396), or (left)
the code it is answered with: CHECK_FAIL where a tile fails. -/
def Hub.bulkData (h : Hub) (ch : Fin 4) (b : Bulk) (len : Nat) : Hub × (Nat ⊕ List Byte) :=
  match b with
  | .inline d => (h, if ch.val % 2 = 1 then .inr d else .inl rcBAD_ARG)
  | .window t =>
    if ch.val % 2 = 1 ∨ h.fld (F.TILE_PART_SIZE 2) * 256 < t * 256 + len then (h, .inl rcBAD_ARG)
    else
      let a := (h.fld (F.TILE_PART_BASE 2) + t) * 256
      let v := h.verifyAll (tilesOf a len) 5
      (v.1, if v.2 then .inr (bytesAt v.1.tl.mem a len) else .inl rcCHECK_FAIL)

/-- IMG_BLOCK: programmed once; sent again with the same data it is OK. -/
def Hub.imgBlock (h : Hub) (ch : Fin 4) (who : Party) (off : Nat) (b : Bulk) : Hub × Nat × List W32 :=
  match h.ldr.sess with
  | none => (h, rcBAD_STATE, [])
  | some s =>
    if s.who ≠ who then (h, rcBAD_STATE, [])
    else
      let h := h.touch
      if off % 4096 ≠ 0 ∨ s.len ≤ off then (h, rcBAD_ARG, [])
      else match h.bulkData ch b 4096 with
        | (h, .inl e) => (h, e, [])
        | (h, .inr d) =>
          if d.length ≠ 4096 then (h, rcBAD_ARG, [])
          else if s.got.contains off then
            (h, if h.bundleAt (slotOf s.slot) off 4096 = d then rcOK else rcBAD_STATE, [])
          else
            (h.modLdr fun l => { l with
              store := l.store.set (slotOf s.slot) (flashPut (l.store[slotOf s.slot]) off d)
              sess := some { s with got := off :: s.got, last := h.now } }, rcOK, [])

/-- Does every DIGEST of a bundle hold? -/
def Hub.digestsHold (h : Hub) (s : Fin 3) : Bool := (h.bParts s).all fun p => Config.sha256 (h.bRaw s p) == p.digest

/-- IMG_END: the slot is read back; on success it is WRITTEN and the session closes. -/
def Hub.imgEnd (h : Hub) (who : Party) : Hub × Nat × List W32 :=
  match h.ldr.sess with
  | none => (h, rcBAD_STATE, [])
  | some s =>
    if s.who ≠ who then (h, rcBAD_STATE, [])
    else
      let h := h.touch
      let i := slotOf s.slot
      let whole := (List.range ((s.len + 4095) / 4096)).all fun k => s.got.contains (4096 * k)
      if !whole || !(h.bLength i == s.len) || !h.bLegal i || !h.digestsHold i then (h, rcCHECK_FAIL, [])
      else if !h.bAuthentic i || !h.bCurrent i then (h, rcAUTH_FAIL, [])
      else ((h.markSlot s.slot slWRITTEN).modLdr fun l => { l with sess := none, ready := s.slot == 2 }, rcOK, [])

/-- SESSION_TIMEOUT (R378). -/
def execSessionTimeout (s : State) : Host.Outcome State Fault Refusal :=
  s.goes (match s.hub.ldr.sess with
    | some x =>
      if x.last + 24000000000 ≤ s.hub.now then
        (s.hub.modLdr fun l => { l with sess := none }).flag .cfg F.CFG_FLAG_SESSION_ABORT
      else s.hub
    | none => s.hub)

/-! ## Activation by reset (R380) -/

/-- Is the inactive slot ready to be activated? -/
def Hub.mayActivate (h : Hub) : Bool :=
  h.ldr.sess.isNone && (if h.inactive < 2 then h.bcb.slot h.inactive == slWRITTEN else h.ldr.ready)

/-- IMG_ACTIVATE with MODE = RESET: the inactive slot is the trial; the reset comes at T. A ring boot goes on by itself. -/
def Hub.activateReset (h : Hub) (t : BitVec 64) : Hub × Nat × List W32 :=
  if !h.mayActivate then (h, rcBAD_STATE, [])
  else if h.ringBoot then (h, rcOK, [])
  else ((h.bcbWrite { h.bcb with trial := h.inactive, trials := 0 }).modLdr fun l => { l with act := some t }, rcOK, [])

/-- CANCEL before T clears the trial. -/
def Hub.activateCancel (h : Hub) : Hub × Nat × List W32 :=
  if h.ldr.act.isNone then (h, rcBAD_STATE, [])
  else ((h.bcbWrite { h.bcb with trial := 3, trials := 0 }).modLdr fun l => { l with act := none }, rcOK, [])

/-- ACTIVATE_RESET_TIME (R380): T = 0 is at once. -/
def execActivateResetTime (s : State) : Host.Outcome State Fault Refusal :=
  s.goes (match s.hub.ldr.act with
    | some t => if t = 0 ∨ s.hub.timeCome t then s.hub.warmNow else s.hub
    | none => s.hub)

/-! ## Live activation (R381, R382) -/

/-- This member's partitions of a store whose digest differs from the running bundle's. -/
def Hub.changed (h : Hub) (new old : Fin 3) : List PartEnt :=
  (h.bOrder new).filter fun p => (h.bPart old (pidKind p.pid) (pidInst p.pid)).all fun q => q.digest != p.digest

/-- May the differences of the two bundles be applied live: only CLUSTER, REFLEX and DRONE digests differ, in any member,
and no partition is left out? -/
def Hub.onlyLive (h : Hub) (new old : Fin 3) : Bool :=
  let key := fun (p : PartEnt) => (pidKind p.pid, pidMember p.pid, pidInst p.pid)
  ((h.bParts new).all fun p => 5 ≤ pidKind p.pid || (h.bParts old).any fun q => key q == key p && q.digest == p.digest) &&
    (h.bParts old).all fun p => (h.bParts new).any fun q => key q == key p

/-- Milliseconds of CFG_CTL.LEAD. -/
def Hub.leadMs (h : Hub) : Nat := max 1 (h.fld F.CFG_CTL_LEAD)

/-- A mask of the instances of a kind. -/
def instMask (l : List PartEnt) (kind : Nat) : BitVec 8 :=
  l.foldl (fun m p => if pidKind p.pid = kind then m ||| BitVec.twoPow 8 (pidInst p.pid) else m) 0

/-- IMG_ACTIVATE with MODE = LIVE (R381). -/
def Hub.activateLive (h : Hub) (k : Nat) : Hub × Nat × List W32 :=
  let s := h.inactive
  let new := slotOf s
  let old := slotOf h.slot
  if !h.mayActivate then (h, rcBAD_STATE, [])
  else if !h.ldr.running || decide (2 ≤ h.slot) || h.bcb.slot h.slot != slCONFIRMED || h.bcb.trial != 3 then (h, rcBAD_STATE, [])
  else
    let l := h.changed new old
    if !h.onlyLive new old then (h, rcUNSUPPORTED, [])
    else if 1024 < (l.map fun p => p.tiles).foldl (· + ·) 0 then (h, rcUNSUPPORTED, [])
    else if h.drnBase + k * h.drnPer < h.gno.t.nanos + (h.leadMs + 50) * 1000000 then (h, rcBAD_ARG, [])
    else if !h.bit F.DRN_CTL_EN then (h, rcBAD_STATE, [])
    else
      let h := h.bcbWrite { h.bcb with trial := s, trials := 2 }
      ((h.put F.CFG_STAT_PHASE phLIVE).modLdr fun x => { x with
        live := some { k := k, slot := s, clus := instMask l 5, cores := instMask l 7, drone := l.any fun p => pidKind p.pid == 6 } },
        rcOK, [])

/-- A live activation fails: PR_FAIL, a log entry, and the previous slot by warm reset. -/
def Hub.liveFail (h : Hub) : Hub :=
  ((h.flag .cfg F.CFG_FLAG_PR_FAIL).raise 2 Block.cfg.unit causePROTO 0).warmNow

/-- Every lane, controller, engine of a cluster stops, to the end. -/
def Hub.clusterHalt (h : Hub) (c : Fin 8) : Hub :=
  let h := h.reedStop c
  let h := if h.bit (F.REED_STAT_ACTIVE c) then h.reedEnd c else h
  let can := fun (h : Hub) (k : Fin 16) =>
    let h := h.canDisable k
    if (h.can[k]).closing then h.canOff k else h
  let h := can (can h ⟨2 * c.val, by omega⟩) ⟨2 * c.val + 1, by omega⟩
  (lanesOf c).foldl (fun h n => h.laneDisable n) h

/-- Apply the changed partitions of some kinds; answers whether all succeeded. -/
def Hub.applyChanged (h : Hub) (m : Mode) (new old : Fin 3) (kinds : List Nat) (waits : List Wait) : Hub × Bool :=
  let r := ((h.changed new old).filter fun p => kinds.contains (pidKind p.pid)).foldl (fun (a : Hub × List Wait × Bool) p =>
    if !a.2.2 then a
    else a.1.applyWhole m { pid := p.pid, raw := a.1.bRaw new p, digest := p.digest, waits := a.2.1 }) (h, waits, true)
  (r.1, r.2.2)

/-- The start of the cycle of a live activation, in ns. -/
def Hub.liveAt (h : Hub) (l : Live) : Nat := h.drnBase + l.k * h.drnPer

/-- From start(K) − LEAD on: lock, stop, apply with everything held back. -/
def Hub.liveLock (h : Hub) (waits : List Wait) : Hub :=
  match h.ldr.live with
  | none => h
  | some l =>
    if l.locked || decide (h.gno.t.nanos + h.leadMs * 1000000 < h.liveAt l) then h
    else
      let h := h.prlockPut (h.fld F.CFG_PRLOCK_LOCK ||| l.clus.toNat)
      let h := (List.finRange 8).foldl (fun h (c : Fin 8) => if l.clus.getLsbD c then h.clusterHalt c else h) h
      let h := (List.finRange 8).foldl (fun h (n : Fin 8) => if l.cores.getLsbD n then (h.coreUnrun n).coreStopped n else h) h
      let r := h.applyChanged .live (slotOf l.slot) (slotOf h.slot) [5, 7] waits
      if r.2 then r.1.modLdr fun x => { x with live := x.live.map fun l => { l with locked := true } } else r.1.liveFail

/-- LIVE_LOCK (R382). -/
def execLiveLock (waits : List Wait) (s : State) : Host.Outcome State Fault Refusal := s.goes (s.hub.liveLock waits)

/-- During cycle K − 1: the changed DRONE partition; its COMMIT applies at start(K). Once cycle K runs it can no longer be
written, which fails the activation. -/
def Hub.liveDrone (h : Hub) (waits : List Wait) : Hub :=
  match h.ldr.live with
  | none => h
  | some l =>
    if !l.locked || l.drnDone || decide (h.gno.t.nanos + h.drnPer < h.liveAt l) then h
    else if h.liveAt l ≤ h.gno.t.nanos then h.liveFail
    else
      let r := h.applyChanged .drone (slotOf l.slot) (slotOf h.slot) [6] waits
      if r.2 then r.1.modLdr fun x => { x with live := x.live.map fun l => { l with drnDone := true } } else r.1.liveFail

/-- LIVE_DRONE_WRITE (R382). -/
def execLiveDroneWrite (waits : List Wait) (s : State) : Host.Outcome State Fault Refusal := s.goes (s.hub.liveDrone waits)

/-- Arm a reed engine by R115 for a Gnomon time in ns, with RUN set. -/
def Hub.armAt (h : Hub) (c : Fin 8) (t : Nat) : Hub :=
  let trig : Trig := { gno := true, doStart := true, doLoad := false, time := t, load := 0, at_ := h.now }
  (((((h.on (F.REED_SYNC_SRC c)).on (F.REED_SYNC_DO_START c)).off (F.REED_SYNC_DO_LOAD c)).on (F.REED_SYNC_ARM c)).on
    (F.REED_CTL_RUN c)).modReed c fun r => { r with trig := some trig }

/-- At start(K): the lanes, then the locks, then the reed engines at start(K) + 100 µs, the cores, the trial. A Shadow is
out of step until the next sync point (R383). -/
def Hub.liveGo (h : Hub) (l : Live) : Hub :=
  let s := slotOf l.slot
  let h := (List.finRange 64).foldl (fun h (n : Fin 64) => if l.lanes.getLsbD n then h.laneEnable n else h) h
  let h := h.prlockPut (h.fld F.CFG_PRLOCK_LOCK &&& (255 - l.clus.toNat))
  let h := (lanesOf 0 ++ lanesOf 1 ++ lanesOf 2 ++ lanesOf 3 ++ lanesOf 4 ++ lanesOf 5 ++ lanesOf 6 ++ lanesOf 7).foldl
    (fun h n => if l.clus.getLsbD (n.val / 8) then h.laneEval n else h) h
  let t := h.liveAt l + 100000
  let h := (List.finRange 8).foldl (fun h (c : Fin 8) => if l.reeds.getLsbD c then h.armAt c t else h) h
  let h := (List.finRange 8).foldl (fun h (n : Fin 8) => if l.runs.getLsbD n then h.coreRun n else h) h
  let h := ((h.nameBundle s).put F.CFG_STAT_TRIALS 2).put F.CFG_STAT_PHASE phTRIAL
  let h := h.modLdr fun x => { x with
    live := none, starts := (x.starts &&& ~~~ l.cores) ||| l.runs, trialEnd := some (h.now + h.bTrial s) }
  let h := h.flag .cfg F.CFG_FLAG_PR_DONE
  if h.shadowUnit then (h.off F.LMP_STAT_IN_STEP).modLamp fun p => { p with stepAt := none, clean := false, wantAt := none } else h

/-- The switch at start(K), or the failure of whatever has not been done. -/
def Hub.liveSwitch (h : Hub) : Hub :=
  match h.ldr.live with
  | none => h
  | some l =>
    if h.gno.t.nanos < h.liveAt l then h
    else if l.bad || !l.locked || (l.drone && !l.drnDone) then h.liveFail else h.liveGo l

/-- LIVE_SWITCH (R382). -/
def execLiveSwitch (s : State) : Host.Outcome State Fault Refusal := s.goes s.hub.liveSwitch

/-- A step that has failed falls back at once (R382, R24). -/
def Hub.liveCheck (h : Hub) : Hub := if h.ldr.live.any fun l => l.bad then h.liveFail else h

/-! ## The commands (Table 12.8): secure channels, IMG_STATUS on all -/

/-- IMG_BEGIN (R378). -/
def execImgBegin (ch : Fin 4) (mid : Byte) (len : Nat) (s : State) : Host.Outcome State Fault Refusal :=
  s.goes (s.hub.steward ch 0x0201 mid (secureCh ch) fun h src => h.imgBegin (partyOf ch src) len)

/-- IMG_BLOCK (R378). -/
def execImgBlock (ch : Fin 4) (mid : Byte) (off : Nat) (bulk : Bulk) (s : State) : Host.Outcome State Fault Refusal :=
  s.goes (s.hub.steward ch 0x0202 mid (secureCh ch) fun h src => h.imgBlock ch (partyOf ch src) off bulk)

/-- IMG_END (R378). -/
def execImgEnd (ch : Fin 4) (mid : Byte) (s : State) : Host.Outcome State Fault Refusal :=
  s.goes (s.hub.steward ch 0x0203 mid (secureCh ch) fun h src => h.imgEnd (partyOf ch src))

/-- IMG_ACTIVATE, MODE = RESET (R380). -/
def execImgActivateReset (ch : Fin 4) (mid : Byte) (t : BitVec 64) (s : State) : Host.Outcome State Fault Refusal :=
  s.goes (s.hub.steward ch 0x0204 mid (secureCh ch) fun h _ => h.activateReset t)

/-- IMG_ACTIVATE, MODE = LIVE (R381). -/
def execImgActivateLive (ch : Fin 4) (mid : Byte) (k : Nat) (s : State) : Host.Outcome State Fault Refusal :=
  s.goes (s.hub.steward ch 0x0204 mid (secureCh ch) fun h _ => h.activateLive k)

/-- IMG_ACTIVATE, MODE = CANCEL (R380). -/
def execImgActivateCancel (ch : Fin 4) (mid : Byte) (s : State) : Host.Outcome State Fault Refusal :=
  s.goes (s.hub.steward ch 0x0204 mid (secureCh ch) fun h _ => h.activateCancel)

/-- IMG_CONFIRM (R379): outside a trial it does nothing. -/
def execImgConfirm (ch : Fin 4) (mid : Byte) (s : State) : Host.Outcome State Fault Refusal :=
  s.goes (s.hub.steward ch 0x0205 mid (secureCh ch) fun h _ =>
    if !h.inTrial then (h, rcOK, [])
    else if h.healthyTrial then (h.confirmTrial, rcOK, []) else (h, rcBAD_STATE, []))

/-- IMG_REAPPLY (R376): clusters whose domain is ON at once, the others once it is; a refused power request or a failed
partition is answered. -/
def Hub.imgReapply (h : Hub) (mask : BitVec 8) (waits : List Wait) : Hub × Nat × List W32 :=
  if !h.ldr.running then (h, rcBAD_STATE, [])
  else
    let r := (List.finRange 8).foldl (fun (a : Hub × List Wait × Nat) (c : Fin 8) =>
      if !mask.getLsbD c then a
      else if !a.1.clusterPresent c || (a.1.bPart (slotOf a.1.slot) 5 c).isNone then (a.1, a.2.1, rcBAD_ARG)
      else if a.1.domOn (18 + c) && !a.1.inReset c then
        let q := a.1.reapply c a.2.1
        (q.1, q.2.1, if q.2.2 then a.2.2 else rcCHECK_FAIL)
      else
        let h := a.1.modLdr fun l => { l with owed := l.owed ||| BitVec.twoPow 8 c }
        let h := h.owedOne c
        (h, a.2.1, if h.ldr.owed.getLsbD c then a.2.2 else rcBAD_STATE)) (h, waits, rcOK)
    (r.1, r.2.2, [])

/-- IMG_REAPPLY (R376). -/
def execImgReapply (ch : Fin 4) (mid : Byte) (mask : BitVec 8) (waits : List Wait) (s : State) :
    Host.Outcome State Fault Refusal :=
  s.goes (s.hub.steward ch 0x0206 mid (secureCh ch) fun h _ => h.imgReapply mask waits)

/-- A register's word as the steward reads it. -/
def Hub.shown (h : Hub) (off : Nat) : W32 :=
  match (h.readReg stewAcc off).2 with
  | some v => BitVec.ofNat 32 v
  | none => 0

/-- IMG_STATUS (R377). -/
def execImgStatus (ch : Fin 4) (mid : Byte) (s : State) : Host.Outcome State Fault Refusal :=
  s.goes (s.hub.steward ch 0x0207 mid true fun h _ =>
    (h, rcOK, [h.shown 0x40004, h.shown 0x40014, h.shown 0x40010, h.bcb.word]))

end Sys2Proof.Machine
end

