-- ==== Sys2Proof/Machine/Steward.lean ====
section
/-! DEFINITION. The steward's other commands (13 R404, R405; 12 R370). -/

namespace Sys2Proof.Machine

/-- PING (R404). -/
def execPing (ch : Fin 4) (mid : Byte) (s : State) : Host.Outcome State Fault Refusal :=
  s.goes (s.hub.steward ch 0x0001 mid true fun h _ => (h, rcOK, [h.shown 0, h.shown 0x40010, h.shown 0x54008]))

/-- LOG_READ (R404): one entry of four words, oldest first. -/
def execLogRead (ch : Fin 4) (mid : Byte) (first count : Nat) (s : State) : Host.Outcome State Fault Refusal :=
  s.goes (s.hub.steward ch 0x0002 mid true fun h _ =>
    if 1 < count then (h, rcBAD_ARG, [])
    else if count = 0 then (h, rcOK, [])
    else match h.err.log[first]? with
      | some e => (h, rcOK, (List.range 4).map fun i => BitVec.ofNat 32 (e.word i))
      | none => (h, rcBAD_ARG, []))

/-- LOG_CLEAR (R404). -/
def execLogClear (ch : Fin 4) (mid : Byte) (s : State) : Host.Outcome State Fault Refusal :=
  s.goes (s.hub.steward ch 0x0003 mid (secureCh ch) fun h _ => (h.logClear, rcOK, []))

/-- Is an address a register of this node and member? -/
def Hub.ownReg (h : Hub) (a : FabAddr) : Bool :=
  (a.node == 0 || (h.node != 0 && a.node.toNat == h.node)) && a.mem.toNat == h.member && a.space == 0 && decide (a.off % 4 = 0)

/-- REG_READ (R404). -/
def execRegRead (ch : Fin 4) (mid : Byte) (addr : FabAddr) (s : State) : Host.Outcome State Fault Refusal :=
  s.goes (s.hub.steward ch 0x0101 mid (secureCh ch) fun h _ =>
    if !h.ownReg addr then (h, rcBAD_ARG, [])
    else match h.regRead stewAcc addr.off with
      | (h, some v) => (h, rcOK, [v])
      | (h, none) => (h, rcBAD_ARG, []))

/-- REG_WRITE (R404): as requester 0. -/
def execRegWrite (ch : Fin 4) (mid : Byte) (addr : FabAddr) (v : W32) (s : State) : Host.Outcome State Fault Refusal :=
  s.goes (s.hub.steward ch 0x0102 mid (secureCh ch) fun h _ =>
    if !h.ownReg addr then (h, rcBAD_ARG, [])
    else match h.writeReg stewAcc addr.off v with
      | some h => (h, rcOK, [])
      | none => (h.refuse stewAcc addr.off true, rcBAD_ARG, []))

/-- RING_RESET (R404, R298): the master broadcasts RESET and resets with the ring. -/
def execRingReset (ch : Fin 4) (mid : Byte) (t : BitVec 64) (s : State) : Host.Outcome State Fault Refusal :=
  s.goes (s.hub.steward ch 0x0301 mid (secureCh ch) fun h _ =>
    if !h.isMaster then (h, rcBAD_STATE, [])
    else if pickTime h.gno.t t < ((h.gno.t.units + 1000000 * 2 ^ 24 : Nat) : Int) then (h, rcBAD_ARG, [])
    else ((h.ringCtl 255 0x1D 0 [] t).modRing fun r => { r with ringReset := some t }, rcOK, []))

/-- One fuse item: blown if blank; is the value in it the one given? -/
def blow {α : Type} [DecidableEq α] (old : Option α) (v : α) : Option α × Bool :=
  match old with
  | none => (some v, true)
  | some o => (some o, decide (o = v))

/-- Blow the items a flags word names (R405): the fuses, and whether each named item holds the value given. -/
def Fuse.provision (f : Fuse) (flags : W32) (b1 b2 : List Byte) : Fuse × Bool :=
  let keys := (List.finRange 4).foldl (fun (a : Fuse × Bool) (i : Fin 4) =>
    if flags.bit i then
      let r := blow (a.1.keys[i]) (beNum ((b1.drop (32 * i.val)).take 32))
      ({ a.1 with keys := a.1.keys.set i r.1 }, a.2 && r.2)
    else a) (f, true)
  let key := if flags.bit 4 then
      let r := blow keys.1.mkey ((beNum (b2.take 16)).setWidth 128)
      ({ keys.1 with mkey := r.1 }, keys.2 && r.2)
    else keys
  if flags.bit 5 then ({ key.1 with hostTrust := true }, key.2) else key

/-- PROVISION (R405): channel 0 only; the two blocks of 128 bytes lie in the host window. -/
def Hub.provision (h : Hub) (tile : Nat) : Hub × Nat × List W32 :=
  match h.bulkData 0 (.window tile) 256 with
  | (h, .inl e) => (h, e, [])
  | (h, .inr d) =>
    let b2 := d.drop 128
    let flags := leWord (b2.drop 16)
    if flags.bits 31 6 ≠ 0 then (h, rcBAD_ARG, [])
    else
      let r := h.fuse.provision flags (d.take 128) b2
      ({ h with fuse := r.1 }, if r.2 then rcOK else rcBAD_STATE, [])

/-- PROVISION (R405). -/
def execProvision (ch : Fin 4) (mid : Byte) (tile : Nat) (s : State) : Host.Outcome State Fault Refusal :=
  s.goes (s.hub.steward ch 0x0401 mid (decide (ch = 0)) fun h _ => h.provision tile)

/-- REVOKE (R404): not the slot in use, not the last. -/
def Hub.revoke (h : Hub) (k : BitVec 2) : Hub × Nat × List W32 :=
  let next := h.fuse.revoked ||| BitVec.twoPow 4 k.toNat
  if (h.ldr.running && (h.bKey (slotOf h.slot)).val == k.toNat) || next == 0xF#4 then (h, rcBAD_STATE, [])
  else ({ h with fuse := { h.fuse with revoked := next } }, rcOK, [])

/-- REVOKE (R404). -/
def execRevoke (ch : Fin 4) (mid : Byte) (slot : BitVec 2) (s : State) : Host.Outcome State Fault Refusal :=
  s.goes (s.hub.steward ch 0x0402 mid (secureCh ch) fun h _ => h.revoke slot)

/-- The codes of Tables 12.8 and 13.5. -/
def knownCode (c : Nat) : Bool :=
  [1, 2, 3, 0x101, 0x102, 0x201, 0x202, 0x203, 0x204, 0x205, 0x206, 0x207, 0x301, 0x401, 0x402].contains c

/-- A message at the front of a channel whose CODE is unknown is answered UNSUPPORTED (R404). -/
def Hub.unknownOne (h : Hub) (k : Fin 4) : Hub :=
  match splitMsgs 8 (h.mbx[k]).inq with
  | (msg :: _, _) =>
    let hd := msg.headD 0
    if !(h.mbx[k]).opened || knownCode (hd.bits 31 16) then h
    else
      let t := h.mbxTake k (hd.bits 31 16) (hd.extractLsb' 8 8)
      t.1.answer k t.2 (hd.bits 31 16) (hd.extractLsb' 8 8) rcUNSUPPORTED []
  | _ => h

/-- Unknown commands of every channel. -/
def Hub.unknownAll (h : Hub) : Hub := (List.finRange 4).foldl (fun h k => h.unknownOne k) h

/-- A ring boot that has joined broadcasts its notice on channel 1, every 1 s (R370, R402). -/
def Hub.bootWait (h : Hub) : Hub :=
  if h.ringBoot && h.node != 0 && !(h.ldr.waitAt.any fun t => decide (h.now < t + 400000000)) then
    let pay := wordsPay [BitVec.ofNat 32 (3 * 2 ^ 28 + 1 * 2 ^ 16), msgHead 0x8001 0 0]
    (h.modLdr fun l => { l with waitAt := some h.now }).send { hdr := h.mkHdr tMGMT 4 255 0 pay.length, pay := pay } 6
  else h

/-- BOOT_WAIT (R370). -/
def execBootWait (s : State) : Host.Outcome State Fault Refusal := s.goes s.hub.bootWait

end Sys2Proof.Machine
end

