-- ==== Sys2Proof/Machine/Dispatch.lean ====
section
/-! DEFINITION. One arm per command: the command's effect on everything but the queue. -/

namespace Sys2Proof.Machine

/-- The effect of one command (log entry 1). -/
def exec (i : Instr) (s : State) : Host.Outcome State Fault Refusal :=
  match i with
  | .registerWrite a addr v aligned32 => Sys2Proof.Machine.execRegisterWrite a addr v aligned32 s
  | .commitGo a b => Sys2Proof.Machine.execCommitGo a b s
  | .counterReadClear a addr => Sys2Proof.Machine.execCounterReadClear a addr s
  | .dieLinkFlitFail r => Sys2Proof.Machine.execDieLinkFlitFail r s
  | .coldReset strap => Sys2Proof.Machine.execColdReset strap s
  | .warmReset why => Sys2Proof.Machine.execWarmReset why s
  | .pdieReset a => Sys2Proof.Machine.execPdieReset a s
  | .regionReset a r => Sys2Proof.Machine.execRegionReset a r s
  | .clusterReset a c => Sys2Proof.Machine.execClusterReset a c s
  | .resetComplete u => Sys2Proof.Machine.execResetComplete u s
  | .laneReset a n => Sys2Proof.Machine.execLaneReset a n s
  | .laneResetEnd n => Sys2Proof.Machine.execLaneResetEnd n s
  | .laneFuncWrite a n v => Sys2Proof.Machine.execLaneFuncWrite a n v s
  | .laneEnable a n => Sys2Proof.Machine.execLaneEnable a n s
  | .laneDisable a n => Sys2Proof.Machine.execLaneDisable a n s
  | .flushRx a n => Sys2Proof.Machine.execFlushRx a n s
  | .flushTx a n => Sys2Proof.Machine.execFlushTx a n s
  | .txdataPush a n v => Sys2Proof.Machine.execTxdataPush a n v s
  | .rxdataPop a n => Sys2Proof.Machine.execRxdataPop a n s
  | .outLatchWrite a n v => Sys2Proof.Machine.execOutLatchWrite a n v s
  | .bankVoltageFault c => Sys2Proof.Machine.execBankVoltageFault c s
  | .bankVoltageOk c => Sys2Proof.Machine.execBankVoltageOk c s
  | .laneCauseClear n => Sys2Proof.Machine.execLaneCauseClear n s
  | .laneHoldExpire n => Sys2Proof.Machine.execLaneHoldExpire n s
  | .pinRawChange n p level => Sys2Proof.Machine.execPinRawChange n p level s
  | .debounceAccept n p => Sys2Proof.Machine.execDebounceAccept n p s
  | .pwmPeriodEnd n => Sys2Proof.Machine.execPwmPeriodEnd n s
  | .uartCharSent n => Sys2Proof.Machine.execUartCharSent n s
  | .uartCharReceived n ch => Sys2Proof.Machine.execUartCharReceived n ch s
  | .spiStreamWord n rx => Sys2Proof.Machine.execSpiStreamWord n rx s
  | .spiTargetWord n rx => Sys2Proof.Machine.execSpiTargetWord n rx s
  | .i2cCommandWord n bus => Sys2Proof.Machine.execI2cCommandWord n bus s
  | .i2cStretchTimeout n => Sys2Proof.Machine.execI2cStretchTimeout n s
  | .i2cBusClear n released => Sys2Proof.Machine.execI2cBusClear n released s
  | .i2cBusStuck n => Sys2Proof.Machine.execI2cBusStuck n s
  | .i2cAlert n => Sys2Proof.Machine.execI2cAlert n s
  | .i2cTargetByte n ev => Sys2Proof.Machine.execI2cTargetByte n ev s
  | .ssiSample n trig => Sys2Proof.Machine.execSsiSample n trig s
  | .ssiSampleDone n raw dataHigh good => Sys2Proof.Machine.execSsiSampleDone n raw dataHigh good s
  | .sdciWakeup n => Sys2Proof.Machine.execSdciWakeup n s
  | .sdciConnect n com => Sys2Proof.Machine.execSdciConnect n com s
  | .sdciDeviceLost n => Sys2Proof.Machine.execSdciDeviceLost n s
  | .sdciDeviceEvent n code => Sys2Proof.Machine.execSdciDeviceEvent n code s
  | .sdciMSequence n pdi good => Sys2Proof.Machine.execSdciMSequence n pdi good s
  | .quadCount n qa qb => Sys2Proof.Machine.execQuadCount n qa qb s
  | .quadZEdge n => Sys2Proof.Machine.execQuadZEdge n s
  | .quadPreset a n v => Sys2Proof.Machine.execQuadPreset a n v s
  | .streamWrite rq => Sys2Proof.Machine.execStreamWrite rq s
  | .streamRead rq => Sys2Proof.Machine.execStreamRead rq s
  | .spiDeviceAccess rq => Sys2Proof.Machine.execSpiDeviceAccess rq s
  | .i2cDeviceAccess rq => Sys2Proof.Machine.execI2cDeviceAccess rq s
  | .sdciPdAccess rq => Sys2Proof.Machine.execSdciPdAccess rq s
  | .sdciIsduAccess rq => Sys2Proof.Machine.execSdciIsduAccess rq s
  | .ssiDeviceRead rq => Sys2Proof.Machine.execSsiDeviceRead rq s
  | .quadDeviceAccess rq => Sys2Proof.Machine.execQuadDeviceAccess rq s
  | .pinsDeviceAccess rq => Sys2Proof.Machine.execPinsDeviceAccess rq s
  | .deviceAccessDone n ans => Sys2Proof.Machine.execDeviceAccessDone n ans s
  | .nop c x => Sys2Proof.Machine.execNop c x s
  | .halt c x => Sys2Proof.Machine.execHalt c x s
  | .li c x => Sys2Proof.Machine.execLi c x s
  | .lih c x => Sys2Proof.Machine.execLih c x s
  | .alu c x => Sys2Proof.Machine.execAlu c x s
  | .alui c x => Sys2Proof.Machine.execAlui c x s
  | .br c x => Sys2Proof.Machine.execBr c x s
  | .djnz c x => Sys2Proof.Machine.execDjnz c x s
  | .jmp c x => Sys2Proof.Machine.execJmp c x s
  | .call c x => Sys2Proof.Machine.execCall c x s
  | .ret c x => Sys2Proof.Machine.execRet c x s
  | .tset c x => Sys2Proof.Machine.execTset c x s
  | .tadd c x => Sys2Proof.Machine.execTadd c x s
  | .taddb c x => Sys2Proof.Machine.execTaddb c x s
  | .waitt c x => Sys2Proof.Machine.execWaitt c x s
  | .wedge c x => Sys2Proof.Machine.execWedge c x s
  | .wedgeEdgeFound c x rising => Sys2Proof.Machine.execWedgeEdgeFound c x rising s
  | .wedgeTimeout c x => Sys2Proof.Machine.execWedgeTimeout c x s
  | .act c x => Sys2Proof.Machine.execAct c x s
  | .actg c x => Sys2Proof.Machine.execActg c x s
  | .sho c x => Sys2Proof.Machine.execSho c x s
  | .shi c x => Sys2Proof.Machine.execShi c x s
  | .bpin c x => Sys2Proof.Machine.execBpin c x s
  | .pull c x => Sys2Proof.Machine.execPull c x s
  | .push c x => Sys2Proof.Machine.execPush c x s
  | .sig c x => Sys2Proof.Machine.execSig c x s
  | .frd c x => Sys2Proof.Machine.execFrd c x s
  | .frdCompletion c x st salvaged data => Sys2Proof.Machine.execFrdCompletion c x st salvaged data s
  | .fwr c x => Sys2Proof.Machine.execFwr c x s
  | .movs c x => Sys2Proof.Machine.execMovs c x s
  | .movt c x => Sys2Proof.Machine.execMovt c x s
  | .actionRetire c => Sys2Proof.Machine.execActionRetire c s
  | .sampleResolve c x tick => Sys2Proof.Machine.execSampleResolve c x tick s
  | .reedRun a c => Sys2Proof.Machine.execReedRun a c s
  | .reedStop a c => Sys2Proof.Machine.execReedStop a c s
  | .reedStopped c => Sys2Proof.Machine.execReedStopped c s
  | .reedFlush a c => Sys2Proof.Machine.execReedFlush a c s
  | .contextEnable a c x => Sys2Proof.Machine.execContextEnable a c x s
  | .contextDisable a c x => Sys2Proof.Machine.execContextDisable a c x s
  | .syncArm a c v => Sys2Proof.Machine.execSyncArm a c v s
  | .syncDisarm a c => Sys2Proof.Machine.execSyncDisarm a c s
  | .syncTrigger c => Sys2Proof.Machine.execSyncTrigger c s
  | .syncTriggerGnomon => Sys2Proof.Machine.execSyncTriggerGnomon s
  | .canEnable a k => Sys2Proof.Machine.execCanEnable a k s
  | .canDisable a k => Sys2Proof.Machine.execCanDisable a k s
  | .canIntegrated k => Sys2Proof.Machine.execCanIntegrated k s
  | .canRaminit a k => Sys2Proof.Machine.execCanRaminit a k s
  | .canRaminitDone k => Sys2Proof.Machine.execCanRaminitDone k s
  | .canFrameReceived k f => Sys2Proof.Machine.execCanFrameReceived k f s
  | .canTxreq a k j => Sys2Proof.Machine.execCanTxreq a k j s
  | .canTxcancel a k j => Sys2Proof.Machine.execCanTxcancel a k j s
  | .canSof k => Sys2Proof.Machine.execCanSof k s
  | .canArbLost k => Sys2Proof.Machine.execCanArbLost k s
  | .canFrameSent k => Sys2Proof.Machine.execCanFrameSent k s
  | .canBusError k e => Sys2Proof.Machine.execCanBusError k e s
  | .canBusoffRecover k => Sys2Proof.Machine.execCanBusoffRecover k s
  | .canSleepRequest a k on => Sys2Proof.Machine.execCanSleepRequest a k on s
  | .canSleepEnter k => Sys2Proof.Machine.execCanSleepEnter k s
  | .canWake k why => Sys2Proof.Machine.execCanWake k why s
  | .canTunnelSend k => Sys2Proof.Machine.execCanTunnelSend k s
  | .canRamAccess rq => Sys2Proof.Machine.execCanRamAccess rq s
  | .canTxreqAccess rq => Sys2Proof.Machine.execCanTxreqAccess rq s
  | .gnoCommit a => Sys2Proof.Machine.execGnoCommit a s
  | .gnoApply => Sys2Proof.Machine.execGnoApply s
  | .gnoNowRead a => Sys2Proof.Machine.execGnoNowRead a s
  | .gnoShadowRead a hi => Sys2Proof.Machine.execGnoShadowRead a hi s
  | .gnoPair a => Sys2Proof.Machine.execGnoPair a s
  | .gnoPairLatch => Sys2Proof.Machine.execGnoPairLatch s
  | .anchorShadowWrite a c which v => Sys2Proof.Machine.execAnchorShadowWrite a c which v s
  | .anchorApply a c v => Sys2Proof.Machine.execAnchorApply a c v s
  | .acntlRead a c => Sys2Proof.Machine.execAcntlRead a c s
  | .timed f => Sys2Proof.Machine.execTimed f s
  | .pulseEdge g rising => Sys2Proof.Machine.execPulseEdge g rising s
  | .pulseRouteInsert g rising => Sys2Proof.Machine.execPulseRouteInsert g rising s
  | .ppsInEdge => Sys2Proof.Machine.execPpsInEdge s
  | .ptp port f => Sys2Proof.Machine.execPtp port f s
  | .ptpTxStamp port seq dom typ => Sys2Proof.Machine.execPtpTxStamp port seq dom typ s
  | .twoStepExpire port dom seq => Sys2Proof.Machine.execTwoStepExpire port dom seq s
  | .tsqPop a port => Sys2Proof.Machine.execTsqPop a port s
  | .quarantineRetest e fail => Sys2Proof.Machine.execQuarantineRetest e fail s
  | .scrubStep busy => Sys2Proof.Machine.execScrubStep busy s
  | .switchEnable a => Sys2Proof.Machine.execSwitchEnable a s
  | .frameReceived port f fin => Sys2Proof.Machine.execFrameReceived port f fin s
  | .frameEgress port => Sys2Proof.Machine.execFrameEgress port s
  | .spillWriteDone q => Sys2Proof.Machine.execSpillWriteDone q s
  | .refill q bad => Sys2Proof.Machine.execRefill q bad s
  | .tileInject a v => Sys2Proof.Machine.execTileInject a v s
  | .bridgeIssue rq => Sys2Proof.Machine.execBridgeIssue rq s
  | .tagAvailable => Sys2Proof.Machine.execTagAvailable s
  | .read rq => Sys2Proof.Machine.execRead rq s
  | .write rq => Sys2Proof.Machine.execWrite rq s
  | .lockRead rq => Sys2Proof.Machine.execLockRead rq s
  | .lockWrite rq => Sys2Proof.Machine.execLockWrite rq s
  | .unlock rq => Sys2Proof.Machine.execUnlock rq s
  | .cpl f => Sys2Proof.Machine.execCpl f s
  | .reissue tag => Sys2Proof.Machine.execReissue tag s
  | .completionTimeout tag => Sys2Proof.Machine.execCompletionTimeout tag s
  | .tagHoldExpire tag => Sys2Proof.Machine.execTagHoldExpire tag s
  | .retryWaitExpire slot => Sys2Proof.Machine.execRetryWaitExpire slot s
  | .slotAccessEnd slot ans => Sys2Proof.Machine.execSlotAccessEnd slot ans s
  | .slotExpire slot => Sys2Proof.Machine.execSlotExpire slot s
  | .echoFetch n => Sys2Proof.Machine.execEchoFetch n s
  | .echoFreshExpire slot => Sys2Proof.Machine.execEchoFreshExpire slot s
  | .echoStreamClear n => Sys2Proof.Machine.execEchoStreamClear n s
  | .salvageExpire c e => Sys2Proof.Machine.execSalvageExpire c e s
  | .salvageClear a v => Sys2Proof.Machine.execSalvageClear a v s
  | .lockReserveExpire n => Sys2Proof.Machine.execLockReserveExpire n s
  | .lockIdleBreak n => Sys2Proof.Machine.execLockIdleBreak n s
  | .event f => Sys2Proof.Machine.execEvent f s
  | .eventGapExpire node => Sys2Proof.Machine.execEventGapExpire node s
  | .tunnel f => Sys2Proof.Machine.execTunnel f s
  | .uartTunnelSend k => Sys2Proof.Machine.execUartTunnelSend k s
  | .bridgeDisable a => Sys2Proof.Machine.execBridgeDisable a s
  | .linkEnable a l => Sys2Proof.Machine.execLinkEnable a l s
  | .linkDisable a l => Sys2Proof.Machine.execLinkDisable a l s
  | .moduleInserted l => Sys2Proof.Machine.execModuleInserted l s
  | .moduleInitDone l => Sys2Proof.Machine.execModuleInitDone l s
  | .moduleRemoved l => Sys2Proof.Machine.execModuleRemoved l s
  | .losAssert l => Sys2Proof.Machine.execLosAssert l s
  | .blockLockLoss l hiBer => Sys2Proof.Machine.execBlockLockLoss l hiBer s
  | .beaconMiss l => Sys2Proof.Machine.execBeaconMiss l s
  | .beaconSend l => Sys2Proof.Machine.execBeaconSend l s
  | .beaconReceived l f => Sys2Proof.Machine.execBeaconReceived l f s
  | .linkHoldExpire l => Sys2Proof.Machine.execLinkHoldExpire l s
  | .sfpI2cGo a l v => Sys2Proof.Machine.execSfpI2cGo a l v s
  | .sfpI2cDone l data nack => Sys2Proof.Machine.execSfpI2cDone l data nack s
  | .gclSwap l => Sys2Proof.Machine.execGclSwap l s
  | .gateIntervalEnd l => Sys2Proof.Machine.execGateIntervalEnd l s
  | .pfc l f => Sys2Proof.Machine.execPfc l f s
  | .pfcRepeat l cls => Sys2Proof.Machine.execPfcRepeat l cls s
  | .pauseExpire l cls => Sys2Proof.Machine.execPauseExpire l cls s
  | .shiftWindowEnd l start => Sys2Proof.Machine.execShiftWindowEnd l start s
  | .shiftPropose l f => Sys2Proof.Machine.execShiftPropose l f s
  | .shiftAgree l f => Sys2Proof.Machine.execShiftAgree l f s
  | .shiftReject l f => Sys2Proof.Machine.execShiftReject l f s
  | .shiftReq f => Sys2Proof.Machine.execShiftReq f s
  | .shiftAns f => Sys2Proof.Machine.execShiftAns f s
  | .shiftDrainEnd l => Sys2Proof.Machine.execShiftDrainEnd l s
  | .shiftRetrainTimeout l => Sys2Proof.Machine.execShiftRetrainTimeout l s
  | .lpiEnter d => Sys2Proof.Machine.execLpiEnter d s
  | .flareSend a l => Sys2Proof.Machine.execFlareSend a l s
  | .flareDone l => Sys2Proof.Machine.execFlareDone l s
  | .statsPeriodBoundary b => Sys2Proof.Machine.execStatsPeriodBoundary b s
  | .ringFrameReceived port bytes rx ecl => Sys2Proof.Machine.execRingFrameReceived port bytes rx ecl s
  | .joinReqSend => Sys2Proof.Machine.execJoinReqSend s
  | .joinReq f => Sys2Proof.Machine.execJoinReq f s
  | .joinAck f => Sys2Proof.Machine.execJoinAck f s
  | .joinNak f => Sys2Proof.Machine.execJoinNak f s
  | .electStart => Sys2Proof.Machine.execElectStart s
  | .elect f => Sys2Proof.Machine.execElect f s
  | .electWin => Sys2Proof.Machine.execElectWin s
  | .masterHbSend => Sys2Proof.Machine.execMasterHbSend s
  | .masterHb f => Sys2Proof.Machine.execMasterHb f s
  | .masterLost => Sys2Proof.Machine.execMasterLost s
  | .idPush f => Sys2Proof.Machine.execIdPush f s
  | .topoSweep => Sys2Proof.Machine.execTopoSweep s
  | .topo port f => Sys2Proof.Machine.execTopo port f s
  | .topoMap f => Sys2Proof.Machine.execTopoMap f s
  | .wrap f => Sys2Proof.Machine.execWrap f s
  | .linkup f => Sys2Proof.Machine.execLinkup f s
  | .unwrapHoldExpire a b => Sys2Proof.Machine.execUnwrapHoldExpire a b s
  | .unwrap f => Sys2Proof.Machine.execUnwrap f s
  | .unwrapTime => Sys2Proof.Machine.execUnwrapTime s
  | .wrapPlan f => Sys2Proof.Machine.execWrapPlan f s
  | .wrapPlanTime => Sys2Proof.Machine.execWrapPlanTime s
  | .ringResetFrame f => Sys2Proof.Machine.execRingResetFrame f s
  | .ringResetTime => Sys2Proof.Machine.execRingResetTime s
  | .droneEnable a => Sys2Proof.Machine.execDroneEnable a s
  | .cycleStart => Sys2Proof.Machine.execCycleStart s
  | .freezeDone => Sys2Proof.Machine.execFreezeDone s
  | .droneSend => Sys2Proof.Machine.execDroneSend s
  | .drone port f fin => Sys2Proof.Machine.execDrone port f fin s
  | .droneRegen dir frm => Sys2Proof.Machine.execDroneRegen dir frm s
  | .drnLateSend dir frm => Sys2Proof.Machine.execDrnLateSend dir frm s
  | .drnLate f => Sys2Proof.Machine.execDrnLate f s
  | .droneClose => Sys2Proof.Machine.execDroneClose s
  | .droneApply => Sys2Proof.Machine.execDroneApply s
  | .coreInstruction n => Sys2Proof.Machine.execCoreInstruction n s
  | .tileBufferFill n tile => Sys2Proof.Machine.execTileBufferFill n tile s
  | .tbopWriteBack n addr => Sys2Proof.Machine.execTbopWriteBack n addr s
  | .tbopWriteBackInvalidate n addr => Sys2Proof.Machine.execTbopWriteBackInvalidate n addr s
  | .tbopInvalidate n addr => Sys2Proof.Machine.execTbopInvalidate n addr s
  | .tbopAllocateZero n addr => Sys2Proof.Machine.execTbopAllocateZero n addr s
  | .eventPop n => Sys2Proof.Machine.execEventPop n s
  | .eventPost a n code => Sys2Proof.Machine.execEventPost a n code s
  | .issueGo n => Sys2Proof.Machine.execIssueGo n s
  | .issueCompletion n d st salvaged data => Sys2Proof.Machine.execIssueCompletion n d st salvaged data s
  | .issueSlotFree n d => Sys2Proof.Machine.execIssueSlotFree n d s
  | .semLockRead a n => Sys2Proof.Machine.execSemLockRead a n s
  | .semLockRelease a n v => Sys2Proof.Machine.execSemLockRelease a n v s
  | .semForce a n => Sys2Proof.Machine.execSemForce a n s
  | .coreStart a n => Sys2Proof.Machine.execCoreStart a n s
  | .coreStop a n => Sys2Proof.Machine.execCoreStop a n s
  | .coreStopped n => Sys2Proof.Machine.execCoreStopped n s
  | .watchdogKick n => Sys2Proof.Machine.execWatchdogKick n s
  | .watchdogExpire n => Sys2Proof.Machine.execWatchdogExpire n s
  | .tcmDataAccess a n wr => Sys2Proof.Machine.execTcmDataAccess a n wr s
  | .relayCopyComplete => Sys2Proof.Machine.execRelayCopyComplete s
  | .lampEnable a => Sys2Proof.Machine.execLampEnable a s
  | .lampStartWait => Sys2Proof.Machine.execLampStartWait s
  | .leaseRenew => Sys2Proof.Machine.execLeaseRenew s
  | .lease f => Sys2Proof.Machine.execLease f s
  | .rleaseWrite a v => Sys2Proof.Machine.execRleaseWrite a v s
  | .leaseLapse => Sys2Proof.Machine.execLeaseLapse s
  | .leaseDeadline => Sys2Proof.Machine.execLeaseDeadline s
  | .lampAck f => Sys2Proof.Machine.execLampAck f s
  | .ackMissing => Sys2Proof.Machine.execAckMissing s
  | .healthLoss => Sys2Proof.Machine.execHealthLoss s
  | .forceRel a => Sys2Proof.Machine.execForceRel a s
  | .forceTake a => Sys2Proof.Machine.execForceTake a s
  | .lampRelease f => Sys2Proof.Machine.execLampRelease f s
  | .releaseGuardExpire => Sys2Proof.Machine.execReleaseGuardExpire s
  | .memberDriveExpire => Sys2Proof.Machine.execMemberDriveExpire s
  | .memberBeat a m => Sys2Proof.Machine.execMemberBeat a m s
  | .stewardHeartbeat a => Sys2Proof.Machine.execStewardHeartbeat a s
  | .lampInput f => Sys2Proof.Machine.execLampInput f s
  | .stackItem a v => Sys2Proof.Machine.execStackItem a v s
  | .lampMark f => Sys2Proof.Machine.execLampMark f s
  | .markWaitExpire => Sys2Proof.Machine.execMarkWaitExpire s
  | .cplm f => Sys2Proof.Machine.execCplm f s
  | .lampSig f => Sys2Proof.Machine.execLampSig f s
  | .lampRelay f => Sys2Proof.Machine.execLampRelay f s
  | .reclaimStart => Sys2Proof.Machine.execReclaimStart s
  | .claim f => Sys2Proof.Machine.execClaim f s
  | .grant f => Sys2Proof.Machine.execGrant f s
  | .refuse f => Sys2Proof.Machine.execRefuse f s
  | .handoverRelease => Sys2Proof.Machine.execHandoverRelease s
  | .claimTake => Sys2Proof.Machine.execClaimTake s
  | .claimTimeout => Sys2Proof.Machine.execClaimTimeout s
  | .boot src => Sys2Proof.Machine.execBoot src s
  | .partitionApply p => Sys2Proof.Machine.execPartitionApply p s
  | .recordNop => Sys2Proof.Machine.execRecordNop s
  | .recordWrite off v => Sys2Proof.Machine.execRecordWrite off v s
  | .recordBlock off fixed ws => Sys2Proof.Machine.execRecordBlock off fixed ws s
  | .recordPoll off mask v timeoutUs wait => Sys2Proof.Machine.execRecordPoll off mask v timeoutUs wait s
  | .recordCommit off wait => Sys2Proof.Machine.execRecordCommit off wait s
  | .recordEnd => Sys2Proof.Machine.execRecordEnd s
  | .imgBegin ch mid len => Sys2Proof.Machine.execImgBegin ch mid len s
  | .imgBlock ch mid off bulk => Sys2Proof.Machine.execImgBlock ch mid off bulk s
  | .imgEnd ch mid => Sys2Proof.Machine.execImgEnd ch mid s
  | .imgActivateReset ch mid t => Sys2Proof.Machine.execImgActivateReset ch mid t s
  | .imgActivateLive ch mid k => Sys2Proof.Machine.execImgActivateLive ch mid k s
  | .imgActivateCancel ch mid => Sys2Proof.Machine.execImgActivateCancel ch mid s
  | .activateResetTime => Sys2Proof.Machine.execActivateResetTime s
  | .liveLock waits => Sys2Proof.Machine.execLiveLock waits s
  | .liveDroneWrite waits => Sys2Proof.Machine.execLiveDroneWrite waits s
  | .liveSwitch => Sys2Proof.Machine.execLiveSwitch s
  | .imgConfirm ch mid => Sys2Proof.Machine.execImgConfirm ch mid s
  | .imgReapply ch mid mask waits => Sys2Proof.Machine.execImgReapply ch mid mask waits s
  | .imgStatus ch mid => Sys2Proof.Machine.execImgStatus ch mid s
  | .sessionTimeout => Sys2Proof.Machine.execSessionTimeout s
  | .trialStop a => Sys2Proof.Machine.execTrialStop a s
  | .trialExpire => Sys2Proof.Machine.execTrialExpire s
  | .prlockWrite a v => Sys2Proof.Machine.execPrlockWrite a v s
  | .dramTrain a v => Sys2Proof.Machine.execDramTrain a v s
  | .dramTrainDone ok vals => Sys2Proof.Machine.execDramTrainDone ok vals s
  | .hostReset => Sys2Proof.Machine.execHostReset s
  | .endpointReady => Sys2Proof.Machine.execEndpointReady s
  | .bar0Access off len wr => Sys2Proof.Machine.execBar0Access off len wr s
  | .bar2Access off len wr => Sys2Proof.Machine.execBar2Access off len wr s
  | .txEth ring d => Sys2Proof.Machine.execTxEth ring d s
  | .txPtp ring d => Sys2Proof.Machine.execTxPtp ring d s
  | .txRequest ring d => Sys2Proof.Machine.execTxRequest ring d s
  | .txTimed ring d => Sys2Proof.Machine.execTxTimed ring d s
  | .rxDeliver ring f good bufs => Sys2Proof.Machine.execRxDeliver ring f good bufs s
  | .rxWaitExpire ring => Sys2Proof.Machine.execRxWaitExpire ring s
  | .mbxInPush a k v => Sys2Proof.Machine.execMbxInPush a k v s
  | .mbxOutPop a k => Sys2Proof.Machine.execMbxOutPop a k s
  | .mbx2WordAccess a wr => Sys2Proof.Machine.execMbx2WordAccess a wr s
  | .mgmt f => Sys2Proof.Machine.execMgmt f s
  | .ping ch mid => Sys2Proof.Machine.execPing ch mid s
  | .logRead ch mid first count => Sys2Proof.Machine.execLogRead ch mid first count s
  | .logClear ch mid => Sys2Proof.Machine.execLogClear ch mid s
  | .regRead ch mid addr => Sys2Proof.Machine.execRegRead ch mid addr s
  | .regWrite ch mid addr v => Sys2Proof.Machine.execRegWrite ch mid addr v s
  | .ringReset ch mid t => Sys2Proof.Machine.execRingReset ch mid t s
  | .provision ch mid tile => Sys2Proof.Machine.execProvision ch mid tile s
  | .revoke ch mid slot => Sys2Proof.Machine.execRevoke ch mid slot s
  | .bootWait => Sys2Proof.Machine.execBootWait s
  | .powerRequest a d target => Sys2Proof.Machine.execPowerRequest a d target s
  | .quiesceTimeout d => Sys2Proof.Machine.execQuiesceTimeout d s
  | .powerStepDone d => Sys2Proof.Machine.execPowerStepDone d s
  | .powerStateReached d => Sys2Proof.Machine.execPowerStateReached d s
  | .powerWake d => Sys2Proof.Machine.execPowerWake d s
  | .standby a => Sys2Proof.Machine.execStandby a s
  | .standbyMinoffEnd => Sys2Proof.Machine.execStandbyMinoffEnd s
  | .wakeLatch src => Sys2Proof.Machine.execWakeLatch src s
  | .flareLook port activity => Sys2Proof.Machine.execFlareLook port activity s
  | .pilotTimerExpire => Sys2Proof.Machine.execPilotTimerExpire s
  | .vaonPowerUp => Sys2Proof.Machine.execVaonPowerUp s
  | .pllLoss p => Sys2Proof.Machine.execPllLoss p s
  | .thermalWarn pdie temp => Sys2Proof.Machine.execThermalWarn pdie temp s
  | .thermalShutdown pdie temp => Sys2Proof.Machine.execThermalShutdown pdie temp s
  | .thermalHoldEnd => Sys2Proof.Machine.execThermalHoldEnd s
  | .dimmerTrip det => Sys2Proof.Machine.execDimmerTrip det s
  | .dimmerClear => Sys2Proof.Machine.execDimmerClear s
  | .dimmerLong => Sys2Proof.Machine.execDimmerLong s
  | .pdieDroop det => Sys2Proof.Machine.execPdieDroop det s
  | .bellowsStart => Sys2Proof.Machine.execBellowsStart s
  | .rampDone => Sys2Proof.Machine.execRampDone s
  | .rampTimeout => Sys2Proof.Machine.execRampTimeout s
  | .blEnFall => Sys2Proof.Machine.execBlEnFall s
  | .blEnRise => Sys2Proof.Machine.execBlEnRise s
  | .undervoltage => Sys2Proof.Machine.execUndervoltage s
  | .overvoltage => Sys2Proof.Machine.execOvervoltage s
  | .breakerLimit => Sys2Proof.Machine.execBreakerLimit s
  | .breakerClear => Sys2Proof.Machine.execBreakerClear s
  | .slowTrip => Sys2Proof.Machine.execSlowTrip s
  | .fastTrip => Sys2Proof.Machine.execFastTrip s
  | .powerGood => Sys2Proof.Machine.execPowerGood s
  | .consecClear => Sys2Proof.Machine.execConsecClear s
  | .offtimeEnd => Sys2Proof.Machine.execOfftimeEnd s
  | .bellowsClear a => Sys2Proof.Machine.execBellowsClear a s
  | .escalation => Sys2Proof.Machine.execEscalation s
  | .logPop a => Sys2Proof.Machine.execLogPop a s
  | .errLogClear a => Sys2Proof.Machine.execErrLogClear a s
  | .fecClear a => Sys2Proof.Machine.execFecClear a s
  | .errorInject a v => Sys2Proof.Machine.execErrorInject a v s
  | .interruptRearm a v => Sys2Proof.Machine.execInterruptRearm a v s
  | .preemptionVerify l ev => Sys2Proof.Machine.execPreemptionVerify l ev s
  | .canProtocolException k => Sys2Proof.Machine.execCanProtocolException k s
  | .pllRelock p => Sys2Proof.Machine.execPllRelock p s
  | .vaonLoss => Sys2Proof.Machine.execVaonLoss s

end Sys2Proof.Machine
end

