-- ==== Sys2Proof/Machine/Tick.lean ====
section
/-! DEFINITION. The passing of time: what one CK_LANE tick of 2.5 ns does by itself (log entry 1). -/

namespace Sys2Proof.Machine

/-- CK_CORE edges in CK_LANE tick number `t`: 5 in 2 ticks, of which a droop keeps some in 16 (R427). -/
def coreEdges (keep t : Nat) : Nat := (t + 1) * 5 * keep / 32 - t * 5 * keep / 32

/-- The action counters (R143, R149) and the die-link retries, which start over after a flit that passes (R17). -/
def Hub.tickCounters (h : Hub) : Hub :=
  { h with
    reed := h.reed.map fun (r : Reed) => { r with ctr := (r.ctr + 1) % 2 ^ 64 }
    dl := h.dl.map fun (d : DieLink) => if d.down then d else { d with fails := 0 } }

/-- The Gnomon, while its domain is ON, and mtime (R143, R308). -/
def Hub.tickTime (h : Hub) : Hub :=
  let k := timeEdges h.now
  let h := if h.domOn 2 then h.modGno fun g => { g with t := g.t.steps h.incr k } else h
  { h with mtime := h.mtime + BitVec.ofNat 64 k }

/-- mcycle of the cores that run (R308). -/
def Hub.tickCores (h : Hub) : Hub :=
  let k := coreEdges (h.fld F.CLK_DIMSTAT_KEEP) h.now
  { h with core := Vector.ofFn fun (n : Fin 8) =>
      let c := h.core[n]
      if h.coreActive n && !c.csr.mcycleOff then { c with csr := { c.csr with mcycle := c.csr.mcycle + BitVec.ofNat 64 k } } else c }

/-- CLK_DIMTIME: microseconds below full rate, saturating; the divider's recovery (R427, Table 14.10). -/
def Hub.tickDim (h : Hub) : Hub :=
  if !h.bit F.CLK_DIMSTAT_SLOW then h
  else
    let h := if h.pwr.slow + 1 < 400 then h.modPwr fun p => { p with slow := p.slow + 1 }
      else (h.modPwr fun p => { p with slow := 0 }).put F.CLK_DIMTIME_COUNT (min (2 ^ 32 - 1) (h.fld F.CLK_DIMTIME_COUNT + 1))
    h.dimRecover

/-- Quadrature counts that waited for the image's update interval (Table 10.4). -/
def Hub.tickQuad (h : Hub) : Hub :=
  (List.finRange 64).foldl (fun h (n : Fin 64) =>
    let l := h.lane n
    if l.pimDue && !(l.pimLast.any fun t => decide (h.now < t + 103)) then
      (h.modLane n fun l => { l with pimLast := some h.now, pimDue := false }).pimInput n (leBytes (h.cfg n 1))
    else h) h

/-- What the steward and the bridge finish by themselves: a bridge that closes, a live activation that failed, the rest of
a boot, a confirmation, reapplies owed, messages of an unknown code. -/
def Hub.tickSteward (h : Hub) : Hub := h.brgClose.liveCheck.bootFinish.autoConfirm.owedAll.unknownAll

/-- A member 1-3 of a pair writes its heartbeat to member 0 every PER / 4 (R350). -/
def Hub.tickBeat (h : Hub) : Hub :=
  if h.member = 0 ∨ !h.paired ∨ h.now < h.lamp.renAt + h.lampPer / 4 then h
  else (h.modLamp fun l => { l with renAt := h.now }).postReg 0 0x98058 (BitVec.ofNat 32 h.member)

/-- The anchors, rewritten while the firmware runs, from a pair of one apply tick (R155). -/
def Hub.tickAnchors (h : Hub) : Hub := if (h.mbx[(0 : Fin 4)]).opened then h.anchorRefresh else h

/-- The reed engines at the end of a cycle. -/
def Hub.reedsLeave (h : Hub) : Hub := (List.finRange 8).foldl (fun h (c : Fin 8) => h.reedLeave c) h

/-- The Gnomon's triggers: edges come while its domain is ON (03 R115). -/
def Hub.tickTriggers (h : Hub) : Hub :=
  if h.domOn 2 then (List.finRange 8).foldl (fun h (c : Fin 8) => h.trigGnomon (timeEdges h.now) c) h else h

/-- The reed engines at the start of a cycle. -/
def Hub.reedsEnter (h : Hub) : Hub := (List.finRange 8).foldl (fun h (c : Fin 8) => h.reedEnter c) h

/-- One tick. In standby only time itself goes on (R418). -/
def Hub.tick (h : Hub) : Hub :=
  if h.pwr.asleep.isSome then { h with now := h.now + 1, hw := [], wrote := [] }
  else
    let h := h.reedsLeave.tickCounters.tickTime.tickTriggers.tickCores.tickDim.tickQuad.tickBeat.tickHost.monTick.tickSteward
    ({ h with now := h.now + 1, hw := [], wrote := [] } : Hub).tickAnchors.reedsEnter

end Sys2Proof.Machine
end

