-- ==== Sys2Proof/Safety.lean ====
section
/-! DEFINITION. The terms claims are stated in: what a safe run is, that a command runs to a next state, that an access
is let through, that registers are left as they were, and the canonical form of every store. -/

namespace Sys2Proof.Machine

/-- The command answers a next state; the queue is as it was, and the hub it leaves satisfies `P`. -/
def Runs (i : Instr) (s : State) (P : Hub → Prop) : Prop := ∃ t, exec i s = .next t ∧ t.pending = s.pending ∧ P t.hub

/-- A run of `k` steps that meets no fault and no refusal. Every run of this block is one: an access it does not admit
is an error response, not a stop. -/
def SafeRun (k : Nat) (s : State) : Prop := ∃ t, Host.Core.run Sys2Proof.core k s = .next t

/-- Do the checks of R464 let a register access through to a listed register? -/
def Hub.lets (h : Hub) (a : Access) (off : Nat) (wr : Bool := true) : Bool :=
  match h.check a off wr with
  | .ok _ _ => true
  | _ => false

/-- Every register field but the listed ones reads as before. -/
def SameRegs (h h' : Hub) (but : List Fld) : Prop := ∀ f : Fld, (∀ g ∈ but, f.key ≠ g.key) → h'.fld f = h.fld f

/-- Is a register one whose write only stores its fields: no start of an operation, no state behind it (R5, 17 R466)? -/
def Block.plain (b : Block) (o : Nat) : Bool :=
  !(match b with
    | .glb => [0x10]
    | .blw | .bank _ => [0]
    | .cfg => [0x18, 0x20]
    | .mbx _ => [8, 0x20]
    | .gno => [0x10, 0x1C, 0x30, 0xC0, 0xE0, 0x100, 0x120]
    | .link _ => [0, 0x30, 0x34, 0x38, 0x3C]
    | .ts _ => [0x20]
    | .rng => [0x44]
    | .drn => [0, 0x2C]
    | .lmp => [0, 0x18, 0x1C, 0x2C, 0x30, 0x34, 0x38, 0x58, 0x60, 0x68]
    | .swc => [0, 0x1C]
    | .tile => [0x3C]
    | .brg => [0, 0x28] ++ (List.range 16).map fun i => 0x3008 + 16 * i
    | .ech => [0x18]
    | .drm => [0, 8]
    | .rfx _ => [0, 0x18, 0x24]
    | .err => [0x24, 0x28, 0x50, 0x58, 0x88]
    | .lane _ => [0, 4, 0x18, 0x24, 0x30]
    | .reed _ => [0, 0x10, 0x30]
    | .can _ => [0]
    | .pwr => 0x118 :: (List.range 26).map (4 * ·)
    | .sem => 0x80 :: (List.range 32).map (4 * ·)
    | .plt | .clk | .sec | .hst | .rfxc => []).contains o &&
  match b with
  | .lane _ => decide (o < 0x40)
  | .reed _ => decide (o < 0x108)
  | .can _ => decide (o < 0x40) || (decide (0x90 ≤ o) && decide (o < 0x1000))
  | _ => true

/-- Outputs are only added. -/
def OutGrows (h h' : Hub) : Prop := ∃ l, h'.out = l ++ h.out

/-- Does this hub, as the target of a request, let it through to the unit it names: the bridge serves, the operation and
the length are sound, and the checks of its space and of its window pass (R32, R33, R210-R212); no pair is configured. -/
def Hub.admitsRq (h : Hub) (rq : Request) : Bool :=
  let g := if rq.posted then h.count F.BRG_PCNT else h.count F.BRG_NPCNT
  g.serves rq && !badOp rq && !badLen rq && !g.shadowRelays false rq && !g.paired && (g.spaceCheck rq).isNone &&
    (g.winCheck rq).isSome

/-- Does a plain issuer of this hub wait for the completion of a non-posted request: its tag is in use for it and an
attempt is on its way (R206)? -/
def Hub.awaits (h : Hub) (rq : Request) : Bool :=
  !rq.posted && h.isLocal rq && match h.brg.tag[rq.tag.toNat] with
    | .use t => t.rq == rq && t.who == .plain && t.cplm.isNone && t.timed.isNone && t.flying
    | _ => false

/-- No core takes the lane's flag and edge events and no image area is mapped from the lane (Tables 10.3, 10.4). -/
def Hub.quietLane (h : Hub) (n : Fin 64) : Bool :=
  h.fld (F.RFXC_LSUB_FLAG n) == 0 && h.fld (F.RFXC_LSUB_EDGE n) == 0 && !h.bit (F.RFXC_LMAP_I_EN n)

/-- The instruction of context x of engine c in this slot: the context owns the slot of a running engine, the word at its
PC is sound and spells it (R76, R77, R83, R111). -/
def Hub.reedIs (h : Hub) (c : Fin 8) (x : Fin 16) (i : ReedIns) : Bool :=
  h.reedTurn c x && !(h.reed[c]).pmBad.contains (h.cx c x).r.pc && decodeReed (h.reedWord c x) == some i

/-- Nothing but context x of engine c has changed, and that its engine has run an instruction in this tick. -/
def OnlyCtx (c : Fin 8) (x : Fin 16) (h h' : Hub) : Prop :=
  h' = { h with reed := h'.reed } ∧ (∀ d : Fin 8, d ≠ c → h'.reed[d] = h.reed[d]) ∧
    h'.reed[c] = { h.reed[c] with ran := some h.now, ctx := (h'.reed[c]).ctx } ∧ ∀ y : Fin 16, y ≠ x → h'.cx c y = h.cx c y

/-- Core n executes the 32-bit word w next: it runs, no event waits, it does not wait in WFI, and the word stands whole and
sound at its pc in ITCM, where it may execute (R308-R310, R319). -/
def Hub.coreIs (h : Hub) (n : Fin 8) (w : W32) : Bool :=
  let c := h.core[n]
  h.coreRuns n && c.evq.isEmpty && !c.wfi && c.pmpOk c.user c.pc.toNat 2 2 && c.pmpOk c.user (c.pc + 2).toNat 2 2 &&
    decide (c.pc.toNat + 4 ≤ 0x10000) && c.iecc.get 0 (c.pc.toNat / 4) == 0 && c.iecc.get 0 ((c.pc.toNat + 2) / 4) == 0 &&
    leWord (bytesAt c.itcm c.pc.toNat 4) == w && w.bits 1 0 == 3

/-- Nothing but core n has changed. -/
def OnlyCore (n : Fin 8) (h h' : Hub) : Prop := h' = { h with core := h'.core } ∧ ∀ i : Fin 8, i ≠ n → h'.core[i] = h.core[i]

/-- Core n after a trap with a cause and a value: mepc, mcause, mtval, mode and pc (log entry 34). -/
def Core.trapped (c c' : Core) (cause : Nat) (tval : W32) : Bool :=
  c'.csr.mepc == c.pc && c'.csr.mcause.toNat == cause && c'.csr.mtval == tval && !c'.user && !c'.mie && c'.x == c.x &&
    c'.pc == (c.csr.mtvec &&& ~~~ 3#32) +
      (if c.csr.mtvec.bit 0 && decide (2 ^ 31 ≤ cause) then BitVec.ofNat 32 (4 * (cause % 2 ^ 31)) else 0)

/-- Member 0 of a pair hears a LAMP frame of a subtype in order, from a peer whose PREFERRED strap is the other (R345,
R347). -/
def Hub.hearsLamp (h : Hub) (f : Frame) (sub : Nat) : Bool :=
  f.hdr.typ == tLAMP && (f.word 0).bits 31 24 == sub && h.member == 0 && h.paired &&
    (f.word 0).bits 19 19 != h.fld F.GLB_STRAP_PREFERRED && h.lamp.rseq.all fun r => (f.word 0).bits 15 0 == (r + 1) % 65536

/-- What every LAMP frame in order leaves: the peer's state and the number it came with (R347). -/
def Hub.heard (h : Hub) (f : Frame) : Hub :=
  (h.put F.LMP_STAT_PEER_STATE ((f.word 0).bits 23 20)).modLamp fun l => { l with rseq := some ((f.word 0).bits 15 0) }

/-- The request a RELAY frame carries (Table 11.1). -/
def Hub.relayedRq (h : Hub) (f : Frame) : Request :=
  let w := f.word 1
  let hdr := { h.mkHdr (w.extractLsb' 18 4) 4 0 (BitVec.ofNat 2 h.member) (f.pay.length - 16) (adr := f.word 2 ++ f.word 3)
                 (np := w.bit 17) with snode := w.extractLsb' 24 8, smem := w.extractLsb' 22 2 }
  { requestOf { hdr := hdr, pay := f.pay.drop 16 } with posted := true }

/-- How often the steward has given this answer on a channel (R396): code, MID, return code, further words. -/
def Hub.replies (h : Hub) (ch : Fin 4) (code : Nat) (mid : Byte) (ret : Nat) (ws : List W32) : Nat :=
  (h.out.filter fun o => o == .mbxAnswer ch code mid ret ws).length

/-- The party that sends the command at the front of a channel (R378). -/
def Hub.party (h : Hub) (ch : Fin 4) (code : Nat) (mid : Byte) : Party := partyOf ch (h.mbxTake ch code mid).2

/-- The registers of a context whose instruction is done: PC is the next word. -/
def CtxRegs.next (r : CtxRegs) : CtxRegs := { r with pc := (r.pc + 1) % 2048 }

/-- Is the newest output a frame of this type that left whole on the port of link l? -/
def Hub.sentOn (h : Hub) (l : Fin 4) (typ : BitVec 4) : Bool :=
  match h.out.head? with
  | some (.frame p f err) => p == portOf l && f.hdr.typ == typ && !err
  | _ => false

/-- Is the newest output a RINGCTL frame of this subtype that left whole on the port of link l? -/
def Hub.sentCtl (h : Hub) (l : Fin 4) (sub : Nat) : Bool :=
  match h.out.head? with
  | some (.frame p f err) => p == portOf l && f.isRing sub && !err
  | _ => false

/-- The lane of a TIMED record (R157): LANE, [31:26] of its first word. -/
def recLane (w0 : W32) : Fin 64 := ⟨w0.bits 31 26 % 64, Nat.mod_lt _ (by decide)⟩

/-- Every store the hub keeps by address is in canonical form: addresses strictly rising, no entry equal to what an
unlisted address reads as. Registers, their staged values and what came in the cycle; sequence counters; tile memory and its checks; DRAM; bundle stores, whose
erased bytes read 0xFF; CAN message RAMs; reed programs; the cores' TCMs and their ECC marks. -/
def Hub.canonical (h : Hub) : Bool :=
  Sparse.wf resetOf h.fields && Sparse.wf (fun _ => none) h.staged && Sparse.wf (fun _ => none) h.snap &&
    Sparse.wf (fun _ => 0) h.bank && Sparse.wf (fun _ => 0) h.hw && Sparse.wf (fun _ => none) h.wrote &&
    Sparse.wf (fun _ => 0) h.ring.seq && Memory.wf h.tl.mem && Sparse.wf (fun _ => zeroCheck) h.tl.chk && Memory.wf h.dram &&
    (h.ldr.store.toList.all fun m => Sparse.wf (fun _ => 0xFF) m) &&
    (h.can.toList.all fun c => Sparse.wf (fun _ => 0) c.ram) &&
    (h.reed.toList.all fun r => Sparse.wf (fun _ => 0) r.pmem) &&
    h.core.toList.all fun c =>
      Memory.wf c.itcm && Memory.wf c.dtcm && Sparse.wf (fun _ => 0) c.iecc && Sparse.wf (fun _ => 0) c.decc

/-- What a fuse keeps once it is blown: a key hash, the management key, HOST_TRUST, a revoke bit; the rollback count never
falls, and the part's own fuses stay as they are (12 R379, 13 R404, R405). -/
def Fuse.keeps (f g : Fuse) : Bool :=
  ((List.finRange 4).all fun (i : Fin 4) => f.keys[i] == none || g.keys[i] == f.keys[i]) &&
    (f.mkey == none || g.mkey == f.mkey) && (!f.hostTrust || g.hostTrust) && (f.revoked &&& g.revoked == f.revoked) &&
    decide (f.svn ≤ g.svn) && g.lanes64 == f.lanes64 && g.uid == f.uid && g.vendor == f.vendor

end Sys2Proof.Machine
end

