-- ==== Sys2Proof/Certificates/Slice0/Obligations.lean ====
section
/-! DEFINITION. The statements for the provers. `Runs i s P`: the command answers a next state, with the queue as it was,
whose hub satisfies `P`. In each clause `s.hub` is the hub before the command and `h` the hub after it. -/

open Sys2Proof Sys2Proof.Machine

/-- For every command c, queue rest and hub h: step on the state whose queue is c followed by rest is exec of c on
  the state whose queue is rest. With no command waiting a step is one CK_LANE tick of 2.5 ns (the model's choices,
  log entry 1): the queue stays empty, and while the package is in standby model time alone advances (the marks of
  what the past cycle wrote go). -/
def Obligations.StepTakesTheFrontCommand : Prop :=
  (∀ (c : Instr) (rest : List Instr) (h : Hub), step ⟨c :: rest, h⟩ = exec c ⟨rest, h⟩) ∧
    (∀ h : Hub, step ⟨[], h⟩ = .next ⟨[], h.tick⟩) ∧
    ∀ h : Hub, h.pwr.asleep.isSome = true → h.tick = { h with now := h.now + 1, hw := [], wrote := [] }

/-- For every command and every state, exec answers a next state, never a fault and never a refusal, and the queue
  of waiting commands is as it was. What a command is refused is an error response and a log entry (R11), and the
  hub goes on; so every run of any length from any state reaches a next state. -/
def Obligations.NoCommandStopsTheHub : Prop :=
  (∀ (i : Instr) (s : State), ∃ t, exec i s = .next t ∧ t.pending = s.pending) ∧ ∀ (k : Nat) (s : State), SafeRun k s

/-- A single aligned 32-bit write that the checks of R464 refuse answers with the error response of its requester
  (Table 0.5) as newest output and changes only the error log and outputs; one of an unlisted offset changes no
  register (R464 case 6). One that the checks and the K locks let through, of a register whose write only stores its
  fields, completes: RW fields of classes L and K take the bits written, S fields are staged and stay in force as
  they were, W1C fields lose the bits written as 1 that hardware did not set in the same cycle, every other field of
  the hub is unchanged (R3-R6, R466); a PINx field TRIM above 9 reads 9. Where a higher requester ID has written the
  register in the cycle, the RW fields keep its value (R468). A write that is no aligned 32-bit word changes no
  register outside the error log's and is answered (R467). COMMIT_GO puts every staged field of its page into force
  in the lane, ring, Lamp, switch, bridge, link and idle drone pages, and starts the commit of the Gnomon and of the
  running drone (R7). COUNTER_READ_CLEAR answers the register's bits; its RC fields then hold what hardware counted
  in the same cycle where the mode clears on read, and are unchanged otherwise (R4, R264). -/
def Obligations.RegisterAccessChecks : Prop :=
  (∀ (a : Access) (addr : W32) (v : W32) (s : State), addr.toNat % 4 = 0 → s.hub.check a addr.toNat true = .refused
    → Runs (.registerWrite a addr v true) s fun h => h.out.head? = some (.regError a addr.toNat (errForm a true)) ∧
    h.fld F.GLB_RST_CTL_CLUSTER = s.hub.fld F.GLB_RST_CTL_CLUSTER ∧ h =
    { s.hub with fields := h.fields, hw := h.hw, err := h.err, out := h.out }) ∧
  (∀ (a : Access) (addr : W32) (v : W32) (s : State), addr.toNat % 4 = 0 → s.hub.check a addr.toNat true = .unlisted
    → Runs (.registerWrite a addr v true) s fun h => h = { s.hub with wrote := h.wrote }) ∧
  (∀ (a : Access) (addr : W32) (v : W32) (b : Block) (o : Nat) (r : RegD) (f : FieldD) (s : State), addr.toNat % 4 =
    0 → s.hub.check a addr.toNat true = .ok b o → b.regAt o = some r → s.hub.kRefused b o addr.toNat r v = false →
    badCode b o v = false → b.blank o = false → f ∈ r.fields → b.plain o → ((s.hub.wrote.get none addr.toNat).all
    (fun q => decide (q ≤ a.req.toNat))) → f.acc = .rw → f.app ≠ .s → Runs (.registerWrite a addr v true) s fun h =>
    h.fld (f.at_ addr.toNat) = f.of_ v ∧ (h.staged = s.hub.staged ∨ r.fields.any (fun g => g.app == .s)) ∧ h =
    { s.hub with fields := h.fields, staged := h.staged, out := h.out, wrote := h.wrote } ∧ OutGrows s.hub h ∧
    (SameRegs s.hub h (r.fields.map fun f => f.at_ addr.toNat))) ∧
  (∀ (a : Access) (addr : W32) (v : W32) (b : Block) (o : Nat) (r : RegD) (f : FieldD) (s : State), addr.toNat % 4 =
    0 → s.hub.check a addr.toNat true = .ok b o → b.regAt o = some r → s.hub.kRefused b o addr.toNat r v = false →
    badCode b o v = false → b.blank o = false → f ∈ r.fields → b.plain o → ((s.hub.wrote.get none addr.toNat).all
    (fun q => decide (q ≤ a.req.toNat))) → f.acc = .rw → f.app = .s → Runs (.registerWrite a addr v true) s fun h =>
    h.staged.get none (f.at_ addr.toNat).key = some (f.of_ v) ∧ h.fld (f.at_ addr.toNat) = s.hub.fld (f.at_
    addr.toNat) ∧ h = { s.hub with fields := h.fields, staged := h.staged, out := h.out, wrote := h.wrote } ∧
    OutGrows s.hub h ∧ (SameRegs s.hub h (r.fields.map fun f => f.at_ addr.toNat))) ∧
  (∀ (a : Access) (addr : W32) (v : W32) (b : Block) (o : Nat) (r : RegD) (f : FieldD) (s : State), addr.toNat % 4 =
    0 → s.hub.check a addr.toNat true = .ok b o → b.regAt o = some r → s.hub.kRefused b o addr.toNat r v = false →
    badCode b o v = false → b.blank o = false → f ∈ r.fields → b.plain o → ((s.hub.wrote.get none addr.toNat).all
    (fun q => decide (q ≤ a.req.toNat))) → f.acc = .w1c → Runs (.registerWrite a addr v true) s fun h => h.fld
    (f.at_ addr.toNat) = s.hub.fld (f.at_ addr.toNat) &&& ((2 ^ f.w - 1 - f.of_ v) ||| s.hub.hwOn (f.at_
    addr.toNat).key) ∧ h = { s.hub with fields := h.fields, staged := h.staged, out := h.out, wrote := h.wrote } ∧
    OutGrows s.hub h ∧ (SameRegs s.hub h (r.fields.map fun f => f.at_ addr.toNat))) ∧
  (∀ (a : Access) (addr : W32) (v : W32) (b : Block) (o : Nat) (r : RegD) (f : FieldD) (s : State), addr.toNat % 4 =
    0 → s.hub.check a addr.toNat true = .ok b o → b.regAt o = some r → s.hub.kRefused b o addr.toNat r v = false →
    badCode b o v = false → b.blank o = false → f ∈ r.fields → b.plain o → ((s.hub.wrote.get none addr.toNat).all
    (fun q => decide (q ≤ a.req.toNat))) → (f.acc = .ro ∨ f.acc = .rc) → Runs (.registerWrite a addr v true) s fun h
    => h.fld (f.at_ addr.toNat) = s.hub.fld (f.at_ addr.toNat) ∧ h =
    { s.hub with fields := h.fields, staged := h.staged, out := h.out, wrote := h.wrote } ∧ OutGrows s.hub h ∧
    (SameRegs s.hub h (r.fields.map fun f => f.at_ addr.toNat))) ∧
  (∀ (a : Access) (addr : W32) (v : W32) (n : Fin 64) (o : Nat) (r : RegD) (f : FieldD) (s : State), addr.toNat % 4
    = 0 → s.hub.check a addr.toNat true = .ok (.lane n) o → (Block.lane n).regAt o = some r → s.hub.kRefused (.lane
    n) o addr.toNat r v = false → 0x40 ≤ o → o < 0x4C → v.bits 2 0 ≤ 4 → f ∈ r.fields → ((s.hub.wrote.get none
    addr.toNat).all (fun q => decide (q ≤ a.req.toNat))) → Runs (.registerWrite a addr v true) s fun h => (f.acc =
    .rw → f.app ≠ .s → h.fld (f.at_ addr.toNat) = f.of_ v) ∧ (f.acc = .rw → f.app = .s → h.staged.get none (f.at_
    addr.toNat).key = some (if f.lo = 12 then min 9 (f.of_ v) else f.of_ v)) ∧ h =
    { s.hub with fields := h.fields, staged := h.staged, out := h.out, wrote := h.wrote } ∧ OutGrows s.hub h ∧
    (SameRegs s.hub h (r.fields.map fun f => f.at_ addr.toNat))) ∧
  (∀ (a : Access) (addr : W32) (v : W32) (b : Block) (o : Nat) (r : RegD) (f : FieldD) (q : Nat) (s : State),
    addr.toNat % 4 = 0 → s.hub.check a addr.toNat true = .ok b o → b.regAt o = some r → s.hub.kRefused b o
    addr.toNat r v = false → badCode b o v = false → b.blank o = false → b.plain o → f ∈ r.fields → f.acc = .rw →
    s.hub.wrote.get none addr.toNat = some q → a.req.toNat < q → s.hub.fld (f.at_ addr.toNat) < 2 ^ f.w →
    s.hub.kRefused b o addr.toNat r (s.hub.keepRw addr.toNat r v) = false → badCode b o (s.hub.keepRw addr.toNat r
    v) = false → f.app ≠ .s → Runs (.registerWrite a addr v true) s fun h => h.fld (f.at_ addr.toNat) = s.hub.fld
    (f.at_ addr.toNat) ∧ h = { s.hub with fields := h.fields, staged := h.staged, out := h.out, wrote := h.wrote } ∧
    OutGrows s.hub h ∧ (SameRegs s.hub h (r.fields.map fun f => f.at_ addr.toNat))) ∧
  (∀ (a : Access) (addr : W32) (v : W32) (w : Bool) (s : State), (w && addr.toNat % 4 == 0) = false → Runs
    (.registerWrite a addr v w) s fun h => h.out.length = s.hub.out.length + 1 ∧ OutGrows s.hub h ∧ h =
    { s.hub with fields := h.fields, hw := h.hw, err := h.err, out := h.out }) ∧
  (∀ (a : Access) (n : Fin 64) (f : Fld) (s : State), s.hub.lets a (laneBase n + 0x30) → s.hub.snap = [] →
    (Sparse.wf (fun _ => none) s.hub.staged = true) → s.hub.wrote.get none (laneBase n + 0x30) = none → keyIn
    (laneBase n) (laneBase n + 0xFFF) f.key → f.lo < 32 → Runs (.commitGo a (.lane n)) s fun h => h.fld f =
    s.hub.stagedOr f ∧ h.staged.get none f.key = none ∧ h.snap = [] ∧ h =
    { s.hub with fields := h.fields, hw := h.hw, staged := h.staged, snap := h.snap, wrote := h.wrote }) ∧
  (∀ (a : Access) (f : Fld) (s : State), s.hub.lets a 0x84044 → s.hub.snap = [] → (Sparse.wf (fun _ => none)
    s.hub.staged = true) → s.hub.wrote.get none 0x84044 = none → s.hub.staged.get none (F.RNG_STATMODE_MODE).key =
    none → keyIn 0x84000 0x84FFF f.key → f.lo < 32 → Runs (.commitGo a .rng) s fun h => h.fld f = s.hub.stagedOr f ∧
    h.staged.get none f.key = none ∧ h.snap = [] ∧ h =
    { s.hub with fields := h.fields, hw := h.hw, staged := h.staged, snap := h.snap, wrote := h.wrote }) ∧
  (∀ (a : Access) (f : Fld) (s : State), s.hub.lets a 0x98068 → s.hub.snap = [] → (Sparse.wf (fun _ => none)
    s.hub.staged = true) → s.hub.wrote.get none 0x98068 = none → s.hub.staged.get none (F.LMP_STATMODE_MODE).key =
    none → keyIn 0x98000 0x9FFFF f.key → f.lo < 32 → Runs (.commitGo a .lmp) s fun h => h.fld f = s.hub.stagedOr f ∧
    h.staged.get none f.key = none ∧ h.snap = [] ∧ h =
    { s.hub with fields := h.fields, hw := h.hw, staged := h.staged, snap := h.snap, wrote := h.wrote }) ∧
  (∀ (a : Access) (f : Fld) (s : State), s.hub.lets a 0xA001C → s.hub.snap = [] → (Sparse.wf (fun _ => none)
    s.hub.staged = true) → s.hub.wrote.get none 0xA001C = none → s.hub.staged.get none (F.SWC_STATMODE_MODE).key =
    none → keyIn 0xA0000 0xA7FFF f.key → f.lo < 32 → Runs (.commitGo a .swc) s fun h => h.fld f = s.hub.stagedOr f ∧
    h.staged.get none f.key = none ∧ h.snap = [] ∧ h =
    { s.hub with fields := h.fields, hw := h.hw, staged := h.staged, snap := h.snap, wrote := h.wrote }) ∧
  (∀ (a : Access) (f : Fld) (s : State), s.hub.lets a 0xB0028 → s.hub.snap = [] → (Sparse.wf (fun _ => none)
    s.hub.staged = true) → s.hub.wrote.get none 0xB0028 = none → ((List.range 64).all fun w => !s.hub.echoWin w) →
    s.hub.staged.get none (F.BRG_STATMODE_MODE).key = none → keyIn 0xB0000 0xB7FFF f.key → f.lo < 32 → Runs
    (.commitGo a .brg) s fun h => h.fld f = s.hub.stagedOr f ∧ h.staged.get none f.key = none ∧ h.snap = [] ∧ h =
    { s.hub with fields := h.fields, hw := h.hw, staged := h.staged, snap := h.snap, wrote := h.wrote }) ∧
  (∀ (a : Access) (l : Fin 4) (f : Fld) (s : State), s.hub.lets a (linkBase l + 0x3C) → s.hub.snap = [] → (Sparse.wf
    (fun _ => none) s.hub.staged = true) → s.hub.wrote.get none (linkBase l + 0x3C) = none → s.hub.bit
    (F.X_COMMIT_GO l) = false → (s.hub.staged.all fun p => !keyIn (linkBase l + 0x400) (linkBase l + 0xBFF) p.1) →
    s.hub.staged.get none (F.X_STATMODE_MODE l).key = none → keyIn (linkBase l) (linkBase l + 0x3FF) f.key → f.lo <
    32 → Runs (.commitGo a (.link l)) s fun h => h.fld f = s.hub.stagedOr f ∧ h.staged.get none f.key = none ∧
    h.snap = [] ∧ h =
    { s.hub with fields := h.fields, hw := h.hw, staged := h.staged, snap := h.snap, wrote := h.wrote }) ∧
  (∀ (a : Access) (f : Fld) (s : State), s.hub.lets a 0x8502C → s.hub.snap = [] → (Sparse.wf (fun _ => none)
    s.hub.staged = true) → s.hub.wrote.get none 0x8502C = none → s.hub.bit F.DRN_COMMIT_GO = false → s.hub.drnOn =
    false → ((List.range 512).all fun i => (slotEnt s.hub.stagedOr i).isNone) → s.hub.staged.get none
    (F.DRN_STATMODE_MODE).key = none → keyIn 0x85000 0x86FFF f.key → f.lo < 32 → Runs (.commitGo a .drn) s fun h =>
    h.fld f = s.hub.stagedOr f ∧ h.staged.get none f.key = none ∧ h.snap = [] ∧ h =
    { s.hub with fields := h.fields, hw := h.hw, staged := h.staged, snap := h.snap, wrote := h.wrote }) ∧
  (∀ (a : Access)  (s : State), s.hub.lets a 0x8502C → s.hub.wrote.get none 0x8502C = none → s.hub.bit
    F.DRN_COMMIT_GO = false → s.hub.bit F.DRN_CTL_EN → ((List.range 512).all fun i => (slotEnt s.hub.stagedOr
    i).isNone) → Runs (.commitGo a .drn) s fun h => h.bit F.DRN_COMMIT_GO = true ∧ h.staged = ((s.hub.snapshot
    0x85000 0x86FFF).snapshot 0xE8400 0xE87FF).staged ∧ h.snap = ((s.hub.snapshot 0x85000 0x86FFF).snapshot 0xE8400
    0xE87FF).snap ∧ h = { s.hub with fields := h.fields, staged := h.staged, snap := h.snap, wrote := h.wrote } ∧
    SameRegs s.hub h [F.DRN_COMMIT_GO]) ∧
  (∀ (a : Access)  (s : State), s.hub.lets a 0x6001C → s.hub.wrote.get none 0x6001C = none → s.hub.bit
    F.GNO_COMMIT_GO = false → Runs (.commitGo a .gno) s fun h => h.bit F.GNO_COMMIT_GO = true ∧ h.gno.goTick =
    s.hub.now ∧ h.staged = (s.hub.snapshot 0x60010 0x60018).staged ∧ h.snap = (s.hub.snapshot 0x60010 0x60018).snap
    ∧ h = { s.hub with fields := h.fields, gno := h.gno, staged := h.staged, snap := h.snap, wrote := h.wrote } ∧
    SameRegs s.hub h [F.GNO_COMMIT_GO]) ∧
  (∀ (a : Access) (addr : W32) (b : Block) (o : Nat) (r : RegD) (f : FieldD) (s : State), s.hub.check a addr.toNat
    false = .ok b o → b.regAt o = some r → (s.hub.readFx a b o).isNone → b.blank o = false → (r.fields.all fun f =>
    f.acc != .ext) → s.readFirst a addr = false → f ∈ r.fields → f.acc = .rc → Runs (.counterReadClear a addr) s fun
    h => (h.out = .regRead a addr.toNat (BitVec.ofNat 32 (r.fields.foldl (fun v f => v + s.hub.fieldBits b o
    addr.toNat f) 0)) :: s.hub.out) ∧ (h.fld (f.at_ addr.toNat) = if s.hub.rcClears addr.toNat then s.hub.hwOn
    (f.at_ addr.toNat).key else s.hub.fld (f.at_ addr.toNat)) ∧ h = { s.hub with fields := h.fields, out := h.out }
    ∧ (SameRegs s.hub h ((r.fields.filter fun f => f.acc == .rc).map fun f => f.at_ addr.toNat))) ∧
  (∀ (a : Access)  (s : State), s.hub.lets a 0xB0054 false → s.hub.fld F.BRG_STATMODE_MODE = 1 → s.hub.hw = [] →
    s.readFirst a 0xB0054#32 = false → Runs (.counterReadClear a 0xB0054#32) s fun h => h.out = .regRead a 0xB0054
    (BitVec.ofNat 32 (s.hub.fld F.BRG_STALECPL)) :: s.hub.out ∧ h.fld F.BRG_STALECPL = 0 ∧ SameRegs s.hub h
    [F.BRG_STALECPL] ∧ h = { s.hub with fields := h.fields, out := h.out }) ∧
  (∀ (a : Access)  (s : State), s.hub.lets a 0xB0054 false → s.hub.fld F.BRG_STATMODE_MODE = 0 → s.readFirst a
    0xB0054#32 = false → Runs (.counterReadClear a 0xB0054#32) s fun h => h = s.hub.emit (.regRead a 0xB0054
    (BitVec.ofNat 32 (s.hub.fld F.BRG_STALECPL))))

/-- COLD_RESET latches the straps, empties tile memory, CAN controllers, the error log and its capture, and gives
  every lane register its reset value; fuses and the Bellows stay. WARM_RESET, asked for by an admitted write, a
  fatal error or a ring-wide reset, sets the cause of its asker, keeps the error log, the first-error capture, the
  strap latch and the fuses, and holds every lane's pins on the keepers. DIE_LINK_FLIT_FAIL counts failures in a row
  up to three and changes nothing else; the fourth takes the channel down (R17). -/
def Obligations.PackageResets : Prop :=
  (∀ (strap : BitVec 4) (s : State), Runs (.coldReset strap) s fun h => h.fld F.GLB_STRAP_MEMBER =
    (strap.extractLsb' 0 2).toNat ∧ h.bit F.GLB_STRAP_BOOT_SRC = strap.getLsbD 2 ∧ h.bit F.GLB_STRAP_PREFERRED =
    strap.getLsbD 3 ∧ h.tl = ({} : Tiles) ∧ h.can = Vector.replicate 16 {} ∧ h.err = ({} : Err) ∧ h.fuse =
    s.hub.fuse ∧ h.bel = s.hub.bel ∧ (∀ n : Fin 64, h.ln n = 0 ∧ h.fn n = 15 ∧ h.fld (F.LN_HOLD_TIME n) = 500)) ∧
  (∀ (a : Access) (s : State), s.hub.lets a 0x10 → Runs (.warmReset (.software a)) s fun h => h.bit
    F.GLB_RST_CAUSE_WARM = true ∧ h.err.log = s.hub.err.log ∧ h.err.fec = s.hub.err.fec ∧ h.fuse = s.hub.fuse ∧
    h.fld F.GLB_STRAP_MEMBER = s.hub.fld F.GLB_STRAP_MEMBER ∧ (∀ n : Fin 64, (h.lanes[n]).keep = true ∧ h.ln n = 0)
    ∧ (∀ c : Fin 8, (h.reed[c]).ctr = 0 ∧ (h.reed[c]).q = []) ∧ h.tl = ({} : Tiles)) ∧
  (∀ (s : State), Runs (.warmReset (.fatal)) s fun h => h.bit F.GLB_RST_CAUSE_FATAL = true ∧ h.err.log =
    s.hub.err.log ∧ h.err.fec = s.hub.err.fec ∧ h.fuse = s.hub.fuse ∧ h.fld F.GLB_STRAP_MEMBER = s.hub.fld
    F.GLB_STRAP_MEMBER ∧ (∀ n : Fin 64, (h.lanes[n]).keep = true ∧ h.ln n = 0) ∧ (∀ c : Fin 8, (h.reed[c]).ctr = 0 ∧
    (h.reed[c]).q = []) ∧ h.tl = ({} : Tiles)) ∧
  (∀ (s : State), Runs (.warmReset (.ring)) s fun h => h.bit F.GLB_RST_CAUSE_RING = true ∧ h.err.log = s.hub.err.log
    ∧ h.err.fec = s.hub.err.fec ∧ h.fuse = s.hub.fuse ∧ h.fld F.GLB_STRAP_MEMBER = s.hub.fld F.GLB_STRAP_MEMBER ∧ (∀
    n : Fin 64, (h.lanes[n]).keep = true ∧ h.ln n = 0) ∧ (∀ c : Fin 8, (h.reed[c]).ctr = 0 ∧ (h.reed[c]).q = []) ∧
    h.tl = ({} : Tiles)) ∧
  (∀ (r : Fin 2) (s : State), (s.hub.dl[r]).down = false → (s.hub.dl[r]).fails < 3 → Runs (.dieLinkFlitFail r) s fun
    h => (h.dl[r]).fails = (s.hub.dl[r]).fails + 1 ∧ (h.dl[r]).down = false ∧ h = { s.hub with dl := h.dl }) ∧
  (∀ (r : Fin 2) (s : State), (s.hub.dl[r]).down = false → (s.hub.dl[r]).fails = 3 → Runs (.dieLinkFlitFail r) s fun
    h => (h.dl[r]).down = true)

/-- With the write admitted and no covering reset running: PDIE_RESET restarts every action counter, brings both
  die-link channels up and clears every CAN controller; REGION_RESET of a present region brings its channel up and
  clears the controllers of its clusters; CLUSTER_RESET of a present cluster clears its CAN controllers and reed
  programs, puts its lanes into RESET with cause 2 and their pins on the keepers, and leaves its action counter
  (R113); RESET_COMPLETE takes the unit's bit back; LANE_RESET puts the lane into RESET and empties its FIFOs;
  LANE_RESET_END takes a lane without a function to NONE, and one with a function that is not enabled to IDLE. -/
def Obligations.PdieResets : Prop :=
  (∀ (a : Access)  (s : State), s.hub.lets a 0x10 → s.hub.bit F.GLB_RST_CTL_PDIE = false → Runs (.pdieReset a) s fun
    h => h.bit F.GLB_RST_CAUSE_PDIE = true ∧ h.fld F.GNO_CVALID_VALID = 0 ∧ (∀ c : Fin 8, (h.reed[c]).ctr = 0) ∧ (∀
    r : Fin 2, h.dl[r] = {}) ∧ (∀ k : Fin 16, h.can[k] = {})) ∧
  (∀ (a : Access) (r : Fin 2) (s : State), s.hub.lets a 0x10 → s.hub.fuse.lanes64 = true → s.hub.regionBusy r =
    false → Runs (.regionReset a r) s fun h => h.dl[r] = {} ∧ (∀ k : Fin 16, k.val / 8 = r.val → h.can[k] = {}) ∧ (∀
    k : Fin 16, k.val / 8 ≠ r.val → h.can[k] = s.hub.can[k])) ∧
  (∀ (a : Access) (c : Fin 8) (s : State), s.hub.lets a 0x10 → s.hub.clusterPresent c = true → s.hub.regionBusy
    (c.val / 4) = false → (s.hub.fld F.GLB_RST_CTL_CLUSTER).testBit c = false → Runs (.clusterReset a c) s fun h =>
    (∀ k : Fin 16, h.can[k] = if k.val / 2 = c.val then {} else s.hub.can[k]) ∧ (∀ n : Fin 64, n.val / 8 = c.val →
    h.ln n = lnRESET ∧ h.fld (F.LN_STAT_CAUSE n) = 2 ∧ (h.lanes[n]).keep = true) ∧ (h.reed[c]).ctr =
    (s.hub.reed[c]).ctr ∧ (h.reed[c]).pmem = []) ∧
  (∀ (c : Fin 8) (s : State), (s.hub.fld F.GLB_RST_CTL_CLUSTER).testBit c = true → Runs (.resetComplete (.cluster
    c)) s fun h => (h.fld F.GLB_RST_CTL_CLUSTER).testBit c = false) ∧
  (∀ (s : State), s.hub.bit F.GLB_RST_CTL_PDIE = true → Runs (.resetComplete .pdie) s fun h => (∀ c : Fin 8,
    (h.reed[c]).ctr = 0)) ∧
  (∀ (a : Access) (n : Fin 64) (s : State), s.hub.lets a (laneBase n + 4) → s.hub.ln n ≠ lnRESET → s.hub.up n =
    false → s.hub.fn n ≠ 5 → s.hub.fn n ≠ 6 → (s.hub.brg.lock[n]) = {} → Runs (.laneReset a n) s fun h => h.ln n =
    lnRESET ∧ (h.lane n).rx.q = [] ∧ (h.lane n).tx.q = [] ∧ h.fn n = s.hub.fn n) ∧
  (∀ (n : Fin 64) (s : State), s.hub.bit (F.LN_CTL_RST n) = true → s.hub.ln n = lnRESET → s.hub.bit (F.LN_CTL_EN n)
    = false → Runs (.laneResetEnd n) s fun h => h.bit (F.LN_CTL_RST n) = false ∧ (h.ln n = if s.hub.fn n = 15 then
    lnNONE else lnIDLE))

/-- With the write admitted: a function the rules allow, written to an unlocked lane, takes effect and puts the lane
  into IDLE, or NONE for code 15 (R37, R44); a code that is reserved, SPI on an odd lane, SPI_PAIR on an even one,
  or a controller already attached is refused and the function stays (R37, R40, R42). Enabling an IDLE lane in which
  no down cause stands takes it to UP; disabling takes it to IDLE with cause 1, flushes its transmit FIFO into
  DROP.FLUSH and keeps its receive FIFO (R45). Each flush empties its own FIFO alone. Every register not named keeps
  its value. -/
def Obligations.LaneFunctionAndEnable : Prop :=
  (∀ (a : Access) (n : Fin 64) (v : W32) (s : State), s.hub.lets a (laneBase n) → s.hub.laneLocked n = false →
    s.hub.fnAllowed n (v.bits 3 0) (v.bits 4 4) = true → v.bits 3 0 ≠ s.hub.fn n → s.hub.ln n ≠ lnRESET → (v.bits 3
    0 = 2 → s.hub.bit (F.LN_CTL_EN (partner n)) = false) → Runs (.laneFuncWrite a n v) s fun h => h.fn n = v.bits 3
    0 ∧ h.fld (F.LN_FUNC_CANSEL n) = v.bits 4 4 ∧ (h.ln n = if v.bits 3 0 = 15 then lnNONE else lnIDLE) ∧ h =
    { s.hub with fields := h.fields, hw := h.hw } ∧ SameRegs s.hub h [F.LN_FUNC_FUNC n, F.LN_FUNC_CANSEL n,
    F.LN_STAT_STATE n, F.LN_STAT_CAUSE n, F.LN_STAT_STATE (partner n), F.LN_STAT_CAUSE (partner n)]) ∧
  (∀ (a : Access) (n : Fin 64) (v : W32) (s : State), s.hub.lets a (laneBase n) → s.hub.laneLocked n = false →
    s.hub.fnAllowed n (v.bits 3 0) (v.bits 4 4) = false → v.bits 3 0 ≠ s.hub.fn n → Runs (.laneFuncWrite a n v) s
    fun h => h.out.head? = some (.regError a (laneBase n) (errForm a true)) ∧ h.fn n = s.hub.fn n ∧ h.ln n =
    s.hub.ln n ∧ h = { s.hub with fields := h.fields, hw := h.hw, err := h.err, out := h.out }) ∧
  (∀ (a : Access) (n : Fin 64) (s : State), s.hub.lets a (laneBase n + 4) → s.hub.pairOwned n = false → s.hub.bit
    (F.LN_CTL_EN n) = false → s.hub.ln n = lnIDLE → s.hub.fn n ≠ 2 → s.hub.fn n ≠ 8 → s.hub.needsDevice n = false →
    (s.hub.dl[regionOf (clusterOf n)]).down = false → s.hub.bank3.getLsbD (n / 8) = false → (s.hub.lane n).dev = []
    → (s.hub.fn n ≠ 1 ∨ (s.hub.lane n).tx.q = []) → s.hub.quietLane n → Runs (.laneEnable a n) s fun h => h.ln n =
    lnUP ∧ h.bit (F.LN_CTL_EN n) = true ∧ h.bit ⟨laneBase n + 0xC, lfUP, 1⟩ = true ∧ h =
    { s.hub with fields := h.fields, hw := h.hw, lanes := h.lanes, out := h.out } ∧ SameRegs s.hub h [F.LN_CTL_EN n,
    F.LN_STAT_CONFIG_ERR n, F.LN_STAT_STATE n, F.LN_STAT_CAUSE n, ⟨laneBase n + 0xC, lfUP, 1⟩]) ∧
  (∀ (a : Access) (n : Fin 64) (s : State), s.hub.lets a (laneBase n + 4) → s.hub.pairOwned n = false → s.hub.bit
    (F.LN_CTL_EN n) = true → s.hub.ln n = lnUP → s.hub.fn n ≠ 8 → s.hub.fn n ≠ 5 → s.hub.fn n ≠ 2 → (s.hub.lane
    n).dev = [] → (s.hub.brg.lock[n]).owner = none → s.hub.quietLane n → Runs (.laneDisable a n) s fun h => h.ln n =
    lnIDLE ∧ h.fld (F.LN_STAT_CAUSE n) = 1 ∧ h.bit (F.LN_CTL_EN n) = false ∧ (h.lane n).tx.q = [] ∧ (h.lane n).rx =
    (s.hub.lane n).rx ∧ h.fld (F.LN_DROP_FLUSH n) = min (s.hub.fld (F.LN_DROP_FLUSH n) + (s.hub.lane n).tx.q.length)
    65535 ∧ h = { s.hub with fields := h.fields, hw := h.hw, lanes := h.lanes, out := h.out }) ∧
  (∀ (a : Access) (n : Fin 64) (s : State), s.hub.lets a (laneBase n + 4) → Runs (.flushRx a n) s fun h => (h.lane
    n).rx.q = [] ∧ (h.lane n).tx = (s.hub.lane n).tx ∧ h = { s.hub with lanes := h.lanes } ∧ (∀ m : Fin 64, m ≠ n →
    h.lanes[m] = s.hub.lanes[m])) ∧
  (∀ (a : Access) (n : Fin 64) (s : State), s.hub.lets a (laneBase n + 4) → s.hub.quietLane n → Runs (.flushTx a n)
    s fun h => (h.lane n).tx.q = [] ∧ (h.lane n).rx = (s.hub.lane n).rx ∧ h.fld (F.LN_DROP_FLUSH n) = min (s.hub.fld
    (F.LN_DROP_FLUSH n) + (s.hub.lane n).tx.q.length) 65535 ∧ h =
    { s.hub with fields := h.fields, hw := h.hw, lanes := h.lanes, out := h.out } ∧ SameRegs s.hub h
    [F.LN_DROP_FLUSH n, ⟨laneBase n + 0xC, lfTX_LVL, 1⟩])

/-- TXDATA_PUSH to a lane that is not DOWN appends the word when fewer than 64 are held, and a full FIFO loses it
  with TX_OVF (R48). RXDATA_POP answers the oldest word, removes it and describes the pop in RXTAG; on an empty FIFO
  it answers 0 and sets RXTAG.EMPTY and RX_UDF (R43, R48). A posted STREAM_WRITE that fits pushes every word, one
  that does not fit pushes none (R70). A STREAM_READ answers OK with the good words at the head and pops exactly
  those; where the first word fails its parity it pops that word alone and answers POISON (R49). No other lane's
  FIFO changes. -/
def Obligations.LaneFifos : Prop :=
  (∀ (a : Access) (n : Fin 64) (v : W32) (s : State), s.hub.lets a (laneBase n + 0x18) → s.hub.ln n ≠ lnDOWN →
    (s.hub.lane n).tx.q.length < 64 → s.hub.fn n ≠ 1 → (s.hub.lane n).stretch = false → Runs (.txdataPush a n v) s
    fun h => (h.lane n).tx.q = (s.hub.lane n).tx.q ++ [{ w := v, time := s.hub.now }] ∧ (h.lane n).rx = (s.hub.lane
    n).rx ∧ h = { s.hub with lanes := h.lanes } ∧ (∀ m : Fin 64, m ≠ n → h.lanes[m] = s.hub.lanes[m])) ∧
  (∀ (a : Access) (n : Fin 64) (v : W32) (s : State), s.hub.lets a (laneBase n + 0x18) → 64 ≤ (s.hub.lane
    n).tx.q.length → s.hub.quietLane n → Runs (.txdataPush a n v) s fun h => h.lanes = s.hub.lanes ∧ h.bit ⟨laneBase
    n + 0xC, lfTX_OVF, 1⟩ = true ∧ SameRegs s.hub h [⟨laneBase n + 0xC, lfTX_OVF, 1⟩]) ∧
  (∀ (a : Access) (n : Fin 64) (w : FifoWord) (q : List FifoWord) (s : State), s.hub.lets a (laneBase n + 0x1C)
    false → (s.hub.lane n).rx.q = w :: q → w.good = true → Runs (.rxdataPop a n) s fun h => h.out = .regRead a
    (laneBase n + 0x1C) w.w :: s.hub.out ∧ (h.lane n).rx.q = q ∧ h.fld (F.LN_RXTAG_REQ n) = a.req.toNat ∧ h.bit
    (F.LN_RXTAG_EMPTY n) = false ∧ h.bit (F.LN_RXTAG_POISON n) = false ∧ h =
    { s.hub with fields := h.fields, hw := h.hw, lanes := h.lanes, out := h.out } ∧ SameRegs s.hub h [F.LN_RXTAG_REQ
    n, F.LN_RXTAG_EMPTY n, F.LN_RXTAG_POISON n] ∧ (∀ m : Fin 64, m ≠ n → h.lanes[m] = s.hub.lanes[m])) ∧
  (∀ (a : Access) (n : Fin 64) (s : State), s.hub.lets a (laneBase n + 0x1C) false → (s.hub.lane n).rx.q = [] →
    s.hub.quietLane n → Runs (.rxdataPop a n) s fun h => h.out.head? = some (.regRead a (laneBase n + 0x1C) 0) ∧
    h.lanes = s.hub.lanes ∧ h.bit (F.LN_RXTAG_EMPTY n) = true ∧ h.fld (F.LN_RXTAG_REQ n) = a.req.toNat ∧ h.bit
    ⟨laneBase n + 0xC, lfRX_UDF, 1⟩ = true) ∧
  (∀ (rq : Request) (s : State), s.hub.admitsRq rq → rq.addr.space = 3 → s.hub.laneAcc rq = .stream → rq.op =
    opWRITE → rq.posted = true → (s.hub.brg.lock[rq.lane]) = {} → s.hub.fn rq.lane ≠ 1 → (s.hub.lane
    rq.lane).stretch = false → (s.hub.lane rq.lane).tx.q.length + rq.len / 4 ≤ 64 → Runs (.streamWrite rq) s fun h
    => ((h.lane rq.lane).tx.q = (s.hub.lane rq.lane).tx.q ++ (leWords (rq.len / 4) rq.data).map fun w =>
    { w := w, time := s.hub.now }) ∧ (∀ m : Fin 64, m ≠ rq.lane → h.lanes[m] = s.hub.lanes[m])) ∧
  (∀ (rq : Request) (s : State), s.hub.admitsRq rq → rq.addr.space = 3 → s.hub.laneAcc rq = .stream → rq.op =
    opWRITE → rq.posted = true → (s.hub.brg.lock[rq.lane]) = {} → 64 < (s.hub.lane rq.lane).tx.q.length + rq.len / 4
    → Runs (.streamWrite rq) s fun h => h.lanes = s.hub.lanes) ∧
  (∀ (rq : Request) (w : FifoWord) (q : List FifoWord) (s : State), s.hub.admitsRq rq → s.hub.awaits rq →
    rq.addr.space = 3 → s.hub.laneAcc rq = .stream → rq.op = opREAD → (s.hub.brg.lock[rq.lane]) = {} → (s.hub.lane
    rq.lane).rx.q = w :: q → w.good = true → Runs (.streamRead rq) s fun h => h.out.head? = some (.completion rq.req
    rq.tag 0 0 false false ((Fifo.popGood (rq.len / 4) (s.hub.lane rq.lane).rx []).2.flatMap leBytes)) ∧ (h.lane
    rq.lane).rx = (Fifo.popGood (rq.len / 4) (s.hub.lane rq.lane).rx []).1 ∧ h.fld (F.LN_RXTAG_REQ rq.lane) =
    rq.req.toNat ∧ (∀ m : Fin 64, m ≠ rq.lane → h.lanes[m] = s.hub.lanes[m])) ∧
  (∀ (rq : Request) (w : FifoWord) (q : List FifoWord) (s : State), s.hub.admitsRq rq → s.hub.awaits rq →
    rq.addr.space = 3 → s.hub.laneAcc rq = .stream → rq.op = opREAD → (s.hub.brg.lock[rq.lane]) = {} → (s.hub.lane
    rq.lane).rx.q = w :: q → w.good = false → s.hub.quietLane rq.lane → Runs (.streamRead rq) s fun h => h.out.head?
    = some (.completion rq.req rq.tag 6 0 false false []) ∧ (h.lane rq.lane).rx.q = q)

/-- BANK_VOLTAGE_FAULT of a monitored, reachable cluster records the standing cause and clears BANK_OK;
  BANK_VOLTAGE_OK takes the cause back (R55). LANE_CAUSE_CLEAR in HOLD with no other cause standing returns the lane
  to UP (R73). LANE_HOLD_EXPIRE, once TIME has passed and no return waits in the same cycle, takes a lane in HOLD to
  DOWN with the cause kept and flushes its transmit FIFO, and does nothing otherwise (R73, R74). -/
def Obligations.LaneCausesAndHold : Prop :=
  (∀ (c : Fin 8) (s : State), s.hub.clusterUp c → s.hub.bit (F.IOB_CTL_MON_EN c) → (∀ n : Fin 64, n.val / 8 = c.val
    → s.hub.up n = false) → Runs (.bankVoltageFault c) s fun h => h.bank3 = s.hub.bank3 ||| BitVec.twoPow 8 c ∧
    h.bit (F.IOB_CTL_BANK_OK c) = false ∧ h = { s.hub with fields := h.fields, hw := h.hw, bank3 := h.bank3 } ∧
    SameRegs s.hub h [F.IOB_CTL_BANK_OK c]) ∧
  (∀ (c : Fin 8) (s : State), s.hub.clusterUp c → s.hub.bit (F.IOB_CTL_MON_EN c) → (∀ n : Fin 64, n.val / 8 = c.val
    → s.hub.ln n ≠ lnHOLD ∧ s.hub.ln n ≠ lnDOWN) → Runs (.bankVoltageOk c) s fun h => h.bank3 = s.hub.bank3 &&& ~~~
    BitVec.twoPow 8 c ∧ h.monOff = s.hub.monOff.set c none ∧ h.bit (F.IOB_CTL_BANK_OK c) = true ∧ h =
    { s.hub with fields := h.fields, hw := h.hw, bank3 := h.bank3, monOff := h.monOff } ∧ SameRegs s.hub h
    [F.IOB_CTL_BANK_OK c]) ∧
  (∀ (n : Fin 64) (s : State), s.hub.ln n = lnHOLD → (s.hub.dl[regionOf (clusterOf n)]).down = false →
    s.hub.bank3.getLsbD (n / 8) = false → s.hub.fn n ≠ 2 → s.hub.fn n ≠ 8 → s.hub.fld (F.LN_HOLD_MAXRES n) = 0 →
    (s.hub.lane n).dev = [] → s.hub.quietLane n → s.hub.fn n ≠ 1 → s.hub.now ≤ s.hub.holdEnd n → Runs
    (.laneCauseClear n) s fun h => h.ln n = lnUP ∧ (h.lane n).devBad = false ∧ (h.lane n).tx = (s.hub.lane n).tx ∧ h
    = { s.hub with fields := h.fields, hw := h.hw, lanes := h.lanes, out := h.out } ∧ (∀ m : Fin 64, m ≠ n →
    h.lanes[m] = s.hub.lanes[m])) ∧
  (∀ (n : Fin 64) (s : State), s.hub.ln n = lnHOLD → s.hub.holdEnd n ≤ s.hub.now → s.returns n = false →
    s.hub.quietLane n → Runs (.laneHoldExpire n) s fun h => h.ln n = lnDOWN ∧ h.fld (F.LN_STAT_CAUSE n) = s.hub.fld
    (F.LN_STAT_CAUSE n) % 2 ^ (F.LN_STAT_CAUSE n).w ∧ (h.lane n).tx.q = [] ∧ (h.lane n).rx = (s.hub.lane n).rx ∧ h =
    { s.hub with fields := h.fields, hw := h.hw, lanes := h.lanes, out := h.out } ∧ (∀ m : Fin 64, m ≠ n →
    h.lanes[m] = s.hub.lanes[m])) ∧
  (∀ (n : Fin 64) (s : State), (s.hub.now < s.hub.holdEnd n ∨ s.returns n = true) → Runs (.laneHoldExpire n) s fun h
    => h = s.hub)

/-- OUT_LATCH_WRITE puts the three bits into the latch where no timed action and no drone output fell on the pins in
  this tick (R58). PIN_RAW_CHANGE records the level and, when it differs from the debounced one, the counter at the
  change (R59). DEBOUNCE_ACCEPT, once the level has been stable for DEB, makes it the debounced one, and does
  nothing before; on an UP pin lane that captures both edges it pushes the two-word pair, the low word the counter
  of the change (R60). PWM_PERIOD_END takes PER and DUTY as written for the period that begins now (R160). -/
def Obligations.LanePins : Prop :=
  (∀ (a : Access) (n : Fin 64) (v : BitVec 3) (s : State), s.hub.lets a (laneBase n + 0x24) → (∀ p : Fin 3,
    ((s.hub.lane n).pin[p]).actAt ≠ some s.hub.now ∧ ((s.hub.lane n).pin[p]).drnAt ≠ some s.hub.now) → s.hub.fld
    (F.LN_IO_OUT n) < 8 → Runs (.outLatchWrite a n v) s fun h => h.fld (F.LN_IO_OUT n) = v.toNat ∧ h =
    { s.hub with fields := h.fields, hw := h.hw, lanes := h.lanes } ∧ SameRegs s.hub h [F.LN_IO_OUT n]) ∧
  (∀ (n : Fin 64) (p : Fin 3) (level : Bool) (s : State), s.hub.clusterUp (clusterOf n) → ((s.hub.lane
    n).pin[p]).raw ≠ level → Runs (.pinRawChange n p level) s fun h => ((h.lane n).pin[p]).raw = level ∧ (((h.lane
    n).pin[p]).chg = if level = ((s.hub.lane n).pin[p]).deb then none else some ((s.hub.ctrOf n + 2 ^ 64 - 2) % 2 ^
    64)) ∧ ((h.lane n).pin[p]).deb = ((s.hub.lane n).pin[p]).deb ∧ h = { s.hub with lanes := h.lanes } ∧ (∀ m : Fin
    64, m ≠ n → h.lanes[m] = s.hub.lanes[m])) ∧
  (∀ (n : Fin 64) (p : Fin 3) (t : Nat) (s : State), ((s.hub.lane n).pin[p]).chg = some t → ((s.hub.lane
    n).pin[p]).chgAt + s.hub.debTicks n p ≤ s.hub.now → s.hub.fn n ≠ 0 → Runs (.debounceAccept n p) s fun h =>
    ((h.lane n).pin[p]).deb = ((s.hub.lane n).pin[p]).raw ∧ ((h.lane n).pin[p]).chg = none ∧ h =
    { s.hub with lanes := h.lanes } ∧ (∀ m : Fin 64, m ≠ n → h.lanes[m] = s.hub.lanes[m])) ∧
  (∀ (n : Fin 64) (p : Fin 3) (s : State), (((s.hub.lane n).pin[p]).chg = none ∨ s.hub.now < ((s.hub.lane
    n).pin[p]).chgAt + s.hub.debTicks n p) → Runs (.debounceAccept n p) s fun h => h = s.hub) ∧
  (∀ (n : Fin 64) (p : Fin 3) (t : Nat) (s : State), ((s.hub.lane n).pin[p]).chg = some t → ((s.hub.lane
    n).pin[p]).chgAt + s.hub.debTicks n p ≤ s.hub.now → s.hub.fn n = 0 → s.hub.up n → s.hub.fld (F.LN_PIN_CAP n p) =
    3 → s.hub.lent n = false → (s.hub.lane n).rx.q.length ≤ 62 → s.hub.quietLane n → Runs (.debounceAccept n p) s
    fun h => ((h.lane n).pin[p]).deb = ((s.hub.lane n).pin[p]).raw ∧ (h.lane n).rx.q.length = (s.hub.lane
    n).rx.q.length + 2 ∧ (((h.lane n).rx.q.map fun w => w.w)[(s.hub.lane n).rx.q.length]? = some (BitVec.ofNat 32
    t)) ∧ (∀ m : Fin 64, m ≠ n → h.lanes[m] = s.hub.lanes[m])) ∧
  (∀ (n : Fin 64) (s : State), s.hub.fn n = 0 → s.hub.up n → (s.hub.lane n).pwmOn → Runs (.pwmPeriodEnd n) s fun h
    => (h.lane n).pwmPer = (s.hub.cfg n 0).bits 23 0 ∧ (h.lane n).pwmDuty = (s.hub.cfg n 1).bits 23 0 ∧ (h.lane
    n).pwmStart = s.hub.ctrOf n ∧ (h.lane n).pwmOn = decide ((s.hub.cfg n 0).bits 23 0 ≠ 0) ∧ h =
    { s.hub with lanes := h.lanes } ∧ (∀ m : Fin 64, m ≠ n → h.lanes[m] = s.hub.lanes[m]))

/-- An UP UART whose character ends and whose FIFO is empty hands the character out and releases DE; a character
  received while DE is low enters the receive FIFO with its marks (R61). An UP SPI controller sends the oldest word
  and receives one in the same clocks; an SPI target with a word ready does the same (R63). UART_TUNNEL_SEND, once
  GATHER has passed since the first character, empties the channel's gathered characters and advances its sequence
  number (R237). -/
def Obligations.UartAndSpiWords : Prop :=
  (∀ (n : Fin 64) (w : W32) (s : State), s.hub.fn n = 1 → s.hub.up n → s.hub.taken n 0 = false → (s.hub.lane n).cur
    = some w → (s.hub.lane n).tx.q = [] → Runs (.uartCharSent n) s fun h => h.out = .device n [w.extractLsb' 0 8,
    w.extractLsb' 8 8] :: s.hub.out ∧ (h.lane n).cur = none ∧ (h.lane n).de = false ∧ h =
    { s.hub with lanes := h.lanes, out := h.out } ∧ (∀ m : Fin 64, m ≠ n → h.lanes[m] = s.hub.lanes[m])) ∧
  (∀ (n : Fin 64) (ch : UartChar) (s : State), s.hub.fn n = 1 → s.hub.up n → (s.hub.lane n).de = false → s.hub.taken
    n 1 = false → s.hub.tunOf n = none → (s.hub.lane n).rx.q.length < 64 → Runs (.uartCharReceived n ch) s fun h =>
    (h.lane n).rx.q = (s.hub.lane n).rx.q ++
    [{ w := BitVec.ofNat 32 (b2n ch.idle * 2 ^ 12 + b2n ch.brk * 2 ^ 11 + b2n ch.framing * 2 ^ 10 + b2n ch.parity * 2 ^ 9 + ch.data.toNat % 2 ^ (min 4 ((s.hub.cfg n 0).bits 22 20) + 5)), time := s.hub.now }]
    ∧ (∀ m : Fin 64, m ≠ n → h.lanes[m] = s.hub.lanes[m])) ∧
  (∀ (n : Fin 64) (rx : W32) (w : FifoWord) (q : List FifoWord) (s : State), s.hub.fn n = 2 → s.hub.up n →
    s.hub.drives → s.hub.taken n 0 = false → s.hub.taken n 1 = false → s.hub.taken n 2 = false → (s.hub.cfg n
    0).getLsbD 24 = false → (s.hub.lane n).devRun = false → (s.hub.lane n).tx.q = w :: q → w.good = true →
    (s.hub.lane n).rx.q.length < 64 → s.hub.quietLane n → Runs (.spiStreamWord n rx) s fun h => (h.lane n).tx.q = q
    ∧ (h.lane n).rx.q = (s.hub.lane n).rx.q ++
    [{ w := BitVec.ofNat 32 (rx.toNat % 2 ^ s.hub.spiBits n), time := s.hub.now }] ∧ h =
    { s.hub with fields := h.fields, hw := h.hw, lanes := h.lanes, out := h.out } ∧ (∀ m : Fin 64, m ≠ n →
    h.lanes[m] = s.hub.lanes[m])) ∧
  (∀ (n : Fin 64) (rx : W32) (w : FifoWord) (q : List FifoWord) (s : State), s.hub.fn n = 2 → s.hub.up n →
    s.hub.taken n 0 = false → s.hub.taken n 1 = false → s.hub.taken (partner n) 0 = false → (s.hub.cfg n 0).getLsbD
    24 = true → (s.hub.lane n).tx.q = w :: q → w.good = true → (s.hub.lane n).rx.q.length < 64 → s.hub.quietLane n →
    Runs (.spiTargetWord n rx) s fun h => (h.lane n).tx.q = q ∧ (h.lane n).rx.q = (s.hub.lane n).rx.q ++
    [{ w := BitVec.ofNat 32 (rx.toNat % 2 ^ s.hub.spiBits n), time := s.hub.now }] ∧ h =
    { s.hub with fields := h.fields, hw := h.hw, lanes := h.lanes, out := h.out } ∧ (∀ m : Fin 64, m ≠ n →
    h.lanes[m] = s.hub.lanes[m])) ∧
  (∀ (k : Fin 16) (s : State), s.hub.brg.tun[k] ≠ [] → s.hub.bit F.BRG_CTL_EN → (s.hub.brg.tunAt[k]) + us (s.hub.fld
    (F.BRG_TUN_CFG_GATHER k)) ≤ s.hub.now → Runs (.uartTunnelSend k) s fun h => h.brg.tun[k] = [] ∧ h.brg.tseq[k] =
    (s.hub.brg.tseq[k] + 1) % 65536 ∧ h.lanes = s.hub.lanes) ∧
  (∀ (k : Fin 16) (s : State), s.hub.now < (s.hub.brg.tunAt[k]) + us (s.hub.fld (F.BRG_TUN_CFG_GATHER k)) → Runs
    (.uartTunnelSend k) s fun h => h = s.hub)

/-- An UP I2C controller answers a good command word without STOP, on an undisturbed bus, with exactly one receive
  word: the byte read, or the acknowledge of the byte sent (Table 2.22); a command that a non-zero STRETCH times out
  is answered with bit 10 and the rest of its sequence is discarded (R65). A bus clear that releases the bus brings
  a held lane with no other cause to UP, one that fails takes an UP lane to HOLD, or to DOWN without a hold time,
  with cause 5 (R65, R72). I2C_BUS_STUCK starts a bus clear where none runs and the 100 ms after a failed one have
  passed; I2C_ALERT sets ALERT; a byte written to a target is pushed with its marks (R64). -/
def Obligations.I2cWords : Prop :=
  (∀ (n : Fin 64) (bus : I2cBus) (w : FifoWord) (q : List FifoWord) (s : State), s.hub.i2cCtl n → s.hub.up n →
    s.hub.drives → s.hub.taken n 0 = false → s.hub.taken n 1 = false → (s.hub.lane n).clearing = false → (s.hub.lane
    n).devRun = false → (s.hub.lane n).discard = 0 → (s.hub.lane n).tx.q = w :: q → w.good = true → w.w.getLsbD 9 =
    false → bus.arbLost = false → (s.hub.lane n).rx.q.length < 64 → s.hub.quietLane n → Runs (.i2cCommandWord n bus)
    s fun h => (h.lane n).tx.q = q ∧ (h.lane n).rx.q = (s.hub.lane n).rx.q ++
    [{ w := BitVec.ofNat 32 ((if bus.nack && !w.w.getLsbD 10 then 2 ^ 8 else 0) + (if w.w.getLsbD 10 then bus.rd.toNat else 0)), time := s.hub.now }]
    ∧ h = { s.hub with fields := h.fields, hw := h.hw, lanes := h.lanes, out := h.out } ∧ (∀ m : Fin 64, m ≠ n →
    h.lanes[m] = s.hub.lanes[m])) ∧
  (∀ (n : Fin 64) (w : FifoWord) (q : List FifoWord) (s : State), s.hub.i2cCtl n → s.hub.up n → s.hub.taken n 0 =
    false → (s.hub.cfg n 0).bits 15 8 ≠ 0 → (s.hub.lane n).devRun = false → (s.hub.lane n).tx.q = w :: q → w.good =
    true → (s.hub.lane n).dev = [] → (s.hub.lane n).rx.q.length < 64 → s.hub.quietLane n → Runs (.i2cStretchTimeout
    n) s fun h => (h.lane n).tx.q = q ∧ (h.lane n).rx.q = (s.hub.lane n).rx.q ++ [{ w := 1024, time := s.hub.now }]
    ∧ ((h.lane n).discard = if w.w.getLsbD 9 then 0 else 10) ∧ h =
    { s.hub with fields := h.fields, hw := h.hw, lanes := h.lanes, out := h.out } ∧ (∀ m : Fin 64, m ≠ n →
    h.lanes[m] = s.hub.lanes[m])) ∧
  (∀ (n : Fin 64) (s : State), s.hub.i2cCtl n → s.hub.bit (F.LN_CTL_EN n) → (s.hub.lane n).clearing → s.hub.ln n =
    lnDOWN → (s.hub.dl[regionOf (clusterOf n)]).down = false → s.hub.bank3.getLsbD (n / 8) = false → s.hub.fn n ≠ 2
    → s.hub.fn n ≠ 8 → s.hub.fld (F.LN_HOLD_MAXRES n) = 0 → (s.hub.lane n).dev = [] → s.hub.quietLane n → Runs
    (.i2cBusClear n true) s fun h => h.ln n = lnUP ∧ (h.lane n).clearing = false ∧ (h.lane n).devBad = false ∧ h =
    { s.hub with fields := h.fields, hw := h.hw, lanes := h.lanes, out := h.out } ∧ (∀ m : Fin 64, m ≠ n →
    h.lanes[m] = s.hub.lanes[m])) ∧
  (∀ (n : Fin 64) (s : State), s.hub.i2cCtl n → s.hub.up n → (s.hub.lane n).clearing → (s.hub.taken n 0 &&
    s.hub.taken n 1) = false → s.hub.bit (F.LN_CTL_EN n) → (s.hub.lane n).dev = [] → (s.hub.brg.lock[n]).owner =
    none → s.hub.quietLane n → Runs (.i2cBusClear n false) s fun h => (h.ln n = if s.hub.bit (F.LN_HOLD_TIME n) then
    lnHOLD else lnDOWN) ∧ h.fld (F.LN_STAT_CAUSE n) = 5 ∧ (h.lane n).devBad = true ∧ (h.lane n).clearing = false ∧
    (h.lane n).clearAt = s.hub.now + us 100000 ∧ h =
    { s.hub with fields := h.fields, hw := h.hw, lanes := h.lanes, out := h.out } ∧ (∀ m : Fin 64, m ≠ n →
    h.lanes[m] = s.hub.lanes[m])) ∧
  (∀ (n : Fin 64) (r : Bool) (s : State), (s.hub.lane n).clearing = false → Runs (.i2cBusClear n r) s fun h => h =
    s.hub) ∧
  (∀ (n : Fin 64) (s : State), s.hub.i2cCtl n → s.hub.bit (F.LN_CTL_EN n) → s.hub.drives → (s.hub.lane n).clearing =
    false → (s.hub.taken n 0 && s.hub.taken n 1) = false → ((s.hub.lane n).devBad = true → (s.hub.lane n).clearAt ≤
    s.hub.now) → Runs (.i2cBusStuck n) s fun h => (h.lane n).clearing = true ∧ h.out = .busClear n :: s.hub.out ∧ h
    = { s.hub with lanes := h.lanes, out := h.out } ∧ (∀ m : Fin 64, m ≠ n → h.lanes[m] = s.hub.lanes[m])) ∧
  (∀ (n : Fin 64) (s : State), s.hub.fn n = 4 → s.hub.up n → s.hub.taken n 2 = false → s.hub.quietLane n → Runs
    (.i2cAlert n) s fun h => h.bit ⟨laneBase n + 0xC, lfALERT, 1⟩ = true ∧ h =
    { s.hub with fields := h.fields, hw := h.hw, out := h.out } ∧ SameRegs s.hub h [⟨laneBase n + 0xC, lfALERT, 1⟩])
    ∧
  (∀ (n : Fin 64) (b : Byte) (first stop : Bool) (s : State), s.hub.fn n = 4 → s.hub.i2cCtl n = false → s.hub.up n →
    s.hub.taken n 0 = false → s.hub.taken n 1 = false → (s.hub.lane n).rx.q.length < 64 → Runs (.i2cTargetByte n
    (.write b first stop)) s fun h => (h.lane n).rx.q = (s.hub.lane n).rx.q ++
    [{ w := BitVec.ofNat 32 (b2n stop * 2 ^ 9 + b2n first * 2 ^ 8 + b.toNat), time := s.hub.now }] ∧ (∀ m : Fin 64,
    m ≠ n → h.lanes[m] = s.hub.lanes[m]))

/-- An SSI trigger starts a sample stamped with the action counter, and a good sample is pushed with its stamp and
  kept as the latest pair (R66). SDCI_WAKEUP asserts EN; SDCI_CONNECT at an allowed rate clears cause 5 and, no
  other cause standing, brings the port UP; SDCI_DEVICE_LOST raises cause 5 and takes an UP port out of UP; an event
  is pushed with bit 31 set; an M-sequence latches the input data and sends the staged output (R67). QUAD_COUNT adds
  the step of the transition to COUNT; a Z edge in ZMODE 1 latches COUNT and the counter; QUAD_PRESET replaces COUNT
  (R68). -/
def Obligations.SsiSdciQuadEvents : Prop :=
  (∀ (n : Fin 64) (s : State), s.hub.fn n = 5 → s.hub.drives → s.hub.bit (F.LN_CTL_EN n) → s.hub.up n → (s.hub.lane
    n).sample = none → (s.hub.lane n).mono ≤ s.hub.now → (s.hub.cfg n 0).bits 23 22 = 1 → Runs (.ssiSample n
    .period) s fun h => (h.lane n).sample = some (BitVec.ofNat 32 (s.hub.ctrOf n)) ∧ h =
    { s.hub with lanes := h.lanes } ∧ (∀ m : Fin 64, m ≠ n → h.lanes[m] = s.hub.lanes[m])) ∧
  (∀ (n : Fin 64) (s : State), s.hub.fn n = 5 → s.hub.drives → s.hub.bit (F.LN_CTL_EN n) → s.hub.up n → (s.hub.lane
    n).sample = none → (s.hub.lane n).mono ≤ s.hub.now → (s.hub.cfg n 0).bits 23 22 = 2 → Runs (.ssiSample n .cycle)
    s fun h => (h.lane n).sample = some (BitVec.ofNat 32 (s.hub.ctrOf n)) ∧ h = { s.hub with lanes := h.lanes } ∧ (∀
    m : Fin 64, m ≠ n → h.lanes[m] = s.hub.lanes[m])) ∧
  (∀ (a : Access) (n : Fin 64) (s : State), s.hub.lets a (laneBase n + 0x58) → s.hub.fn n = 5 → s.hub.drives →
    s.hub.bit (F.LN_CTL_EN n) → s.hub.up n → (s.hub.lane n).sample = none → (s.hub.lane n).mono ≤ s.hub.now → Runs
    (.ssiSample n (.software a)) s fun h => (h.lane n).sample = some (BitVec.ofNat 32 (s.hub.ctrOf n)) ∧ (h.cfg n
    2).getLsbD 0 = true ∧ h = { s.hub with fields := h.fields, hw := h.hw, lanes := h.lanes } ∧ (∀ m : Fin 64, m ≠ n
    → h.lanes[m] = s.hub.lanes[m])) ∧
  (∀ (n : Fin 64) (raw : W32) (good : Bool) (stamp : W32) (s : State), (s.hub.lane n).sample = some stamp → s.hub.up
    n → s.hub.taken n 1 = false → (s.hub.cfg n 0).getLsbD 21 = false → (s.hub.lane n).rx.q.length ≤ 62 →
    s.hub.quietLane n → Runs (.ssiSampleDone n raw true good) s fun h => (h.lane n).sample = none ∧ (h.lane
    n).lastPair = some (BitVec.ofNat 32 (raw.toNat % 2 ^ (max 7 ((s.hub.cfg n 0).bits 20 16) + 1)), stamp) ∧ (h.lane
    n).rx.q.length = (s.hub.lane n).rx.q.length + 2 ∧ (h.lane n).discards = 0 ∧ h =
    { s.hub with fields := h.fields, hw := h.hw, lanes := h.lanes, out := h.out } ∧ (∀ m : Fin 64, m ≠ n →
    h.lanes[m] = s.hub.lanes[m])) ∧
  (∀ (n : Fin 64) (raw : W32) (good : Bool) (stamp : W32) (s : State), (s.hub.lane n).sample = some stamp →
    (s.hub.lane n).discards < 7 → s.hub.taken n 1 = false → s.hub.quietLane n → Runs (.ssiSampleDone n raw false
    good) s fun h => (h.lane n).sample = none ∧ (h.lane n).discards = (s.hub.lane n).discards + 1 ∧ (h.lane n).rx =
    (s.hub.lane n).rx ∧ h.bit ⟨laneBase n + 0xC, lfPROTO, 1⟩ = true ∧ h =
    { s.hub with fields := h.fields, hw := h.hw, lanes := h.lanes, out := h.out } ∧ (∀ m : Fin 64, m ≠ n →
    h.lanes[m] = s.hub.lanes[m])) ∧
  (∀ (n : Fin 64) (s : State), s.hub.sdci n → s.hub.taken n 0 = false → (s.hub.lane n).devBad → Runs (.sdciWakeup n)
    s fun h => (h.lane n).enPin = true ∧ h.out = .device n [] :: s.hub.out ∧ h =
    { s.hub with lanes := h.lanes, out := h.out } ∧ (∀ m : Fin 64, m ≠ n → h.lanes[m] = s.hub.lanes[m])) ∧
  (∀ (n : Fin 64) (com : BitVec 2) (s : State), s.hub.sdci n → s.hub.taken n 1 = false → (s.hub.lane n).enPin →
    (s.hub.lane n).devBad → com ≠ 0 → ((s.hub.cfg n 0).bits 1 0 = 0 ∨ (s.hub.cfg n 0).bits 1 0 = com.toNat) →
    s.hub.ln n = lnDOWN → (s.hub.dl[regionOf (clusterOf n)]).down = false → s.hub.bank3.getLsbD (n / 8) = false →
    s.hub.fn n ≠ 2 → s.hub.fn n ≠ 8 → s.hub.fld (F.LN_HOLD_MAXRES n) = 0 → (s.hub.lane n).dev = [] → s.hub.quietLane
    n → Runs (.sdciConnect n com) s fun h => h.ln n = lnUP ∧ (h.lane n).devBad = false ∧ (h.cfg n 2).bits 18 16 = 4
    + com.toNat ∧ h = { s.hub with fields := h.fields, hw := h.hw, lanes := h.lanes, out := h.out } ∧ (∀ m : Fin 64,
    m ≠ n → h.lanes[m] = s.hub.lanes[m])) ∧
  (∀ (n : Fin 64) (s : State), s.hub.sdci n → (s.hub.lane n).devBad = false → s.hub.up n → (s.hub.lane n).dev = [] →
    (s.hub.brg.lock[n]).owner = none → s.hub.quietLane n → Runs (.sdciDeviceLost n) s fun h => (h.lane n).devBad =
    true ∧ (h.ln n = if s.hub.bit (F.LN_HOLD_TIME n) then lnHOLD else lnDOWN) ∧ h.fld (F.LN_STAT_CAUSE n) = 5 ∧ h =
    { s.hub with fields := h.fields, hw := h.hw, lanes := h.lanes, out := h.out } ∧ (∀ m : Fin 64, m ≠ n →
    h.lanes[m] = s.hub.lanes[m])) ∧
  (∀ (n : Fin 64) (code : BitVec 16) (s : State), s.hub.sdci n → s.hub.up n → s.hub.taken n 1 = false → (s.hub.lane
    n).rx.q.length < 64 → Runs (.sdciDeviceEvent n code) s fun h => (h.lane n).rx.q = (s.hub.lane n).rx.q ++
    [{ w := 0x80000000#32 ||| code.setWidth 32, time := s.hub.now }] ∧ (∀ m : Fin 64, m ≠ n → h.lanes[m] =
    s.hub.lanes[m])) ∧
  (∀ (n : Fin 64) (pdi : List Byte) (good : Bool) (s : State), s.hub.sdci n → s.hub.up n → s.hub.taken n 0 = false →
    s.hub.taken n 1 = false → s.hub.quietLane n → (s.hub.cfg n 0).bits 13 8 = pdi.length → pdi.length ≤ 32 → Runs
    (.sdciMSequence n pdi good) s fun h => (h.lane n).pdIn = pdi ∧ (h.lane n).pdOut.length = min 32 ((s.hub.cfg n
    0).bits 21 16) ∧ h.out = .device n (h.lane n).pdOut :: s.hub.out ∧ h =
    { s.hub with lanes := h.lanes, out := h.out } ∧ (∀ m : Fin 64, m ≠ n → h.lanes[m] = s.hub.lanes[m])) ∧
  (∀ (n : Fin 64) (qa qb : Bool) (s : State), s.hub.fn n = 7 → s.hub.up n → s.hub.quietLane n → s.hub.taken n 0 =
    false → s.hub.taken n 1 = false → s.hub.taken n 2 = false → (s.hub.lane n).qa ≠ qa → (s.hub.lane n).qb = qb →
    (s.hub.lane n).preset ≠ some s.hub.now → Runs (.quadCount n qa qb) s fun h => (h.lane n).qa = qa ∧ (h.lane n).qb
    = qb ∧ h.cfg n 1 = s.hub.cfg n 1 + BitVec.ofInt 32 (quadStep ((s.hub.cfg n 0).bits 1 0) ((s.hub.cfg n 0).getLsbD
    14) (s.hub.lane n).qa (s.hub.lane n).qb qa qb) ∧ SameRegs s.hub h [F.LN_CFG n 1] ∧ (∀ m : Fin 64, m ≠ n →
    h.lanes[m] = s.hub.lanes[m])) ∧
  (∀ (n : Fin 64) (s : State), s.hub.fn n = 7 → s.hub.up n → s.hub.quietLane n → s.hub.taken n 0 = false →
    s.hub.taken n 1 = false → s.hub.taken n 2 = false → (s.hub.cfg n 0).bits 13 12 = 1 → Runs (.quadZEdge n) s fun h
    => h.cfg n 1 = s.hub.cfg n 1 ∧ h.cfg n 2 = s.hub.cfg n 1 ∧ h.cfg n 3 = BitVec.ofNat 32 (s.hub.ctrOf n) ∧ h =
    { s.hub with fields := h.fields, hw := h.hw, lanes := h.lanes } ∧ (∀ m : Fin 64, m ≠ n → h.lanes[m] =
    s.hub.lanes[m]) ∧ SameRegs s.hub h [F.LN_CFG n 2, F.LN_CFG n 3]) ∧
  (∀ (a : Access) (n : Fin 64) (v : W32) (s : State), s.hub.lets a (laneBase n + 0x54) → s.hub.fn n = 7 →
    s.hub.quietLane n → Runs (.quadPreset a n v) s fun h => h.cfg n 1 = v ∧ (h.lane n).preset = some s.hub.now ∧
    SameRegs s.hub h [F.LN_CFG n 1] ∧ (∀ m : Fin 64, m ≠ n → h.lanes[m] = s.hub.lanes[m]))

/-- An admitted posted write to an SPI, I2C, ISDU or process-data device with nothing queued takes the lane's bus at
  once (R503, R205). When the bus comes to an access to SDCI process data, a posted write is staged for the next
  cycle and a read ends its slot with the latched data (R69). A read of an SSI lane answers the latest pair, of a
  quadrature lane the register named, of a pin lane the DUTY word or LNnn_IO; a posted write of a pin lane's DUTY
  takes effect (R69). When the device has answered a posted access, the bus is free again (R71). -/
def Obligations.DeviceAccesses : Prop :=
  (∀ (rq : Request) (s : State), s.hub.admitsRq rq → rq.addr.space = 3 → (s.hub.brg.lock[rq.lane]) = {} → s.hub.fn
    rq.lane = 2 → s.hub.laneAcc rq = .bus → rq.op = opWRITE → rq.posted = true → s.hub.drives → (s.hub.lane
    rq.lane).dev = [] → (s.hub.lane rq.lane).devRun = false → (s.hub.lane rq.lane).open_ = false → (s.hub.lane
    rq.lane).tx.q = [] → Runs (.spiDeviceAccess rq) s fun h => (h.lane rq.lane).dev =
    [{ rq := rq, slot := none, at_ := s.hub.now }] ∧ (h.lane rq.lane).devRun = true ∧ (h.lane rq.lane).devTick =
    s.hub.now ∧ (∀ m : Fin 64, m ≠ rq.lane → h.lanes[m] = s.hub.lanes[m])) ∧
  (∀ (rq : Request) (s : State), s.hub.admitsRq rq → rq.addr.space = 3 → (s.hub.brg.lock[rq.lane]) = {} → s.hub.fn
    rq.lane = 4 → s.hub.laneAcc rq = .bus → rq.op = opWRITE → rq.posted = true → s.hub.drives → (s.hub.lane
    rq.lane).dev = [] → (s.hub.lane rq.lane).devRun = false → (s.hub.lane rq.lane).open_ = false → (s.hub.lane
    rq.lane).tx.q = [] → Runs (.i2cDeviceAccess rq) s fun h => (h.lane rq.lane).dev =
    [{ rq := rq, slot := none, at_ := s.hub.now }] ∧ (h.lane rq.lane).devRun = true ∧ (h.lane rq.lane).devTick =
    s.hub.now ∧ (∀ m : Fin 64, m ≠ rq.lane → h.lanes[m] = s.hub.lanes[m])) ∧
  (∀ (rq : Request) (s : State), s.hub.admitsRq rq → rq.addr.space = 3 → (s.hub.brg.lock[rq.lane]) = {} → s.hub.fn
    rq.lane = 6 → s.hub.laneAcc rq = .bus → rq.op = opWRITE → rq.posted = true → s.hub.drives → (s.hub.lane
    rq.lane).dev = [] → (s.hub.lane rq.lane).devRun = false → (s.hub.lane rq.lane).open_ = false → (s.hub.lane
    rq.lane).tx.q = [] → Runs (.sdciIsduAccess rq) s fun h => (h.lane rq.lane).dev =
    [{ rq := rq, slot := none, at_ := s.hub.now }] ∧ (h.lane rq.lane).devRun = true ∧ (h.lane rq.lane).devTick =
    s.hub.now ∧ (∀ m : Fin 64, m ≠ rq.lane → h.lanes[m] = s.hub.lanes[m])) ∧
  (∀ (rq : Request) (s : State), s.hub.admitsRq rq → rq.addr.space = 3 → (s.hub.brg.lock[rq.lane]) = {} → s.hub.fn
    rq.lane = 6 → s.hub.laneAcc rq = .pd → rq.op = opWRITE → rq.posted = true → s.hub.drives → (s.hub.lane
    rq.lane).dev = [] → (s.hub.lane rq.lane).devRun = false → (s.hub.lane rq.lane).open_ = false → (s.hub.lane
    rq.lane).tx.q = [] → Runs (.sdciPdAccess rq) s fun h => (h.lane rq.lane).dev =
    [{ rq := rq, slot := none, at_ := s.hub.now }] ∧ (h.lane rq.lane).devRun = true ∧ (h.lane rq.lane).devTick =
    s.hub.now ∧ (∀ m : Fin 64, m ≠ rq.lane → h.lanes[m] = s.hub.lanes[m])) ∧
  (∀ (rq : Request) (v w : W32) (s : State), s.hub.admitsRq rq → rq.addr.space = 3 → (s.hub.brg.lock[rq.lane]) = {}
    → s.hub.fn rq.lane = 5 → s.hub.laneAcc rq = .ssi → (s.hub.lane rq.lane).lastPair = some (v, w) → rq.len = 8 →
    rq.op = opREAD → s.hub.awaits rq → Runs (.ssiDeviceRead rq) s fun h => h.out.head? = some (.completion rq.req
    rq.tag 0 0 false false (leBytes v ++ leBytes w)) ∧ h.lanes = s.hub.lanes) ∧
  (∀ (rq : Request) (s : State), s.hub.admitsRq rq → rq.addr.space = 3 → (s.hub.brg.lock[rq.lane]) = {} → s.hub.fn
    rq.lane = 7 → s.hub.laneAcc rq = .quad → rq.op = opREAD → s.hub.awaits rq → Runs (.quadDeviceAccess rq) s fun h
    => h.out.head? = some (.completion rq.req rq.tag 0 0 false false (leBytes (s.hub.cfg rq.lane (1 + rq.dev % 16 /
    4)))) ∧ h.lanes = s.hub.lanes) ∧
  (∀ (rq : Request) (s : State), s.hub.admitsRq rq → rq.addr.space = 3 → (s.hub.brg.lock[rq.lane]) = {} → s.hub.fn
    rq.lane = 0 → s.hub.laneAcc rq = .pins → rq.op = opREAD → s.hub.awaits rq → Runs (.pinsDeviceAccess rq) s fun h
    => h.out.head? = some (.completion rq.req rq.tag 0 0 false false (if rq.dev % 16 = 0 then leBytes (BitVec.ofNat
    32 ((s.hub.count F.BRG_NPCNT).ioWord rq.lane)) else leBytes (s.hub.cfg rq.lane 1))) ∧ h.lanes = s.hub.lanes) ∧
  (∀ (rq : Request) (s : State), s.hub.admitsRq rq → rq.addr.space = 3 → (s.hub.brg.lock[rq.lane]) = {} → s.hub.fn
    rq.lane = 0 → s.hub.laneAcc rq = .pins → rq.op = opWRITE → rq.posted = true → rq.dev % 16 = 4 → Runs
    (.pinsDeviceAccess rq) s fun h => h.cfg rq.lane 1 = (s.hub.cfg rq.lane 1 &&& 0xFF000000#32) ||| (leWord rq.data
    &&& 0xFFFFFF#32) ∧ (∀ m : Fin 64, m ≠ rq.lane → h.lanes[m] = s.hub.lanes[m])) ∧
  (∀ (n : Fin 64) (data : List Byte) (d : DevReq) (s : State), (s.hub.lane n).devRun → (s.hub.lane n).dev = [d] →
    d.slot = none → d.rq.posted = true → s.hub.isPd n d.rq = false → Runs (.deviceAccessDone n (.ok data)) s fun h
    => (h.lane n).dev = [] ∧ (h.lane n).devRun = false ∧ h = { s.hub with lanes := h.lanes } ∧ (∀ m : Fin 64, m ≠ n
    → h.lanes[m] = s.hub.lanes[m])) ∧
  (∀ (n : Fin 64) (data : List Byte) (d : DevReq) (s : State), (s.hub.lane n).devRun → (s.hub.lane n).dev = [d] →
    d.slot = none → d.rq.posted = true → s.hub.isPd n d.rq → d.rq.op = opWRITE → Runs (.deviceAccessDone n (.ok
    data)) s fun h => (h.lane n).dev = [] ∧ (h.lane n).devRun = false ∧ (h.lane n).pdNext = d.rq.data ++ (s.hub.lane
    n).pdNext.drop d.rq.data.length ∧ h = { s.hub with lanes := h.lanes } ∧ (∀ m : Fin 64, m ≠ n → h.lanes[m] =
    s.hub.lanes[m])) ∧
  (∀ (n : Fin 64) (data : List Byte) (d : DevReq) (i : Fin 128) (s : State), (s.hub.lane n).devRun → (s.hub.lane
    n).dev = [d] → d.slot = some i → s.hub.isPd n d.rq → d.rq.op = opREAD → d.rq.len ≤ (s.hub.lane n).pdIn.length →
    Runs (.deviceAccessDone n (.ok data)) s fun h => (h = (s.hub.modLane n fun l =>
    { l with dev := [], devRun := false }).slotEnd i stOK ((s.hub.lane n).pdIn.take d.rq.len)))

/-- In its own slot the instruction at the context's PC completes: the named register takes the value of Table 3.3
  and Table 3.4 (wrapping arithmetic, shift amounts modulo 32), MOVS reads and MOVT writes the special register of
  Table 3.1, MOVS of CNT latches CNTH, and PC goes to the next word; nothing else of the context, of another
  context, of another engine or of the hub changes. MOVT of a code the table does not give faults the context with
  cause 1 (R104). -/
def Obligations.ReedDataInstructions : Prop :=
  (∀ (c : Fin 8) (x : Fin 16)  (s : State), s.hub.reedIs c x (.nop) → Runs (.nop c x) s fun h => h.cx c x =
    { s.hub.cx c x with wait := 0, r := CtxRegs.next (s.hub.cx c x).r } ∧ OnlyCtx c x s.hub h) ∧
  (∀ (c : Fin 8) (x : Fin 16) (a : BitVec 3) (k : BitVec 16) (s : State), s.hub.reedIs c x (.li a k) → Runs (.li c
    x) s fun h => h.cx c x = { s.hub.cx c x with wait := 0, r := ((s.hub.cx c x).r.setG a (k.setWidth 32)).next } ∧
    OnlyCtx c x s.hub h) ∧
  (∀ (c : Fin 8) (x : Fin 16) (a : BitVec 3) (k : BitVec 16) (s : State), s.hub.reedIs c x (.lih a k) → Runs (.lih c
    x) s fun h => h.cx c x =
    { s.hub.cx c x with wait := 0, r := ((s.hub.cx c x).r.setG a (k ++ ((s.hub.cx c x).r.ga a).extractLsb' 0 16)).next }
    ∧ OnlyCtx c x s.hub h) ∧
  (∀ (c : Fin 8) (x : Fin 16) (a b : BitVec 3) (f : BitVec 4) (v : W32) (s : State), s.hub.reedIs c x (.alu a b f) →
    reedAlu f.toNat ((s.hub.cx c x).r.ga a) ((s.hub.cx c x).r.ga b) = some v → Runs (.alu c x) s fun h => h.cx c x =
    { s.hub.cx c x with wait := 0, r := ((s.hub.cx c x).r.setG a v).next } ∧ OnlyCtx c x s.hub h) ∧
  (∀ (c : Fin 8) (x : Fin 16) (a : BitVec 3) (f : BitVec 4) (k : BitVec 16) (v : W32) (s : State), s.hub.reedIs c x
    (.alui a f k) → reedAlu f.toNat ((s.hub.cx c x).r.ga a) (k.setWidth 32) = some v → Runs (.alui c x) s fun h =>
    h.cx c x = { s.hub.cx c x with wait := 0, r := ((s.hub.cx c x).r.setG a v).next } ∧ OnlyCtx c x s.hub h) ∧
  (∀ (c : Fin 8) (x : Fin 16) (a : BitVec 3) (sel : BitVec 4) (v : W32) (s : State), s.hub.reedIs c x (.movs a sel)
    → s.hub.special c x sel.toNat = some v → (sel = 0 → (s.hub.cx c x).r.sc = 0) → Runs (.movs c x) s fun h => (h.cx
    c x).wait = 0 ∧ ((h.cx c x).r =
    { ((s.hub.cx c x).r.setG a v).next with cntHi := if sel = 6 then BitVec.ofNat 32 (s.hub.ctr c / 2 ^ 32) else (s.hub.cx c x).r.cntHi })
    ∧ OnlyCtx c x s.hub h) ∧
  (∀ (c : Fin 8) (x : Fin 16) (a : BitVec 3) (sel : BitVec 4) (s : State), s.hub.reedIs c x (.movt a sel) →
    sel.toNat ≤ 10 → (sel = 0 → (s.hub.cx c x).r.sc = 0) → Runs (.movt c x) s fun h => h.cx c x =
    { s.hub.cx c x with wait := 0, r := ((s.hub.cx c x).r.putSpecial sel.toNat ((s.hub.cx c x).r.ga a)).next } ∧
    OnlyCtx c x s.hub h) ∧
  (∀ (c : Fin 8) (x : Fin 16) (a : BitVec 3) (sel : BitVec 4) (s : State), s.hub.reedIs c x (.movt a sel) → 11 ≤
    sel.toNat → (s.hub.cx c x).ckpt = [] → Runs (.movt c x) s fun h => (h.cx c x).st = 3 ∧ (h.cx c x).cause = 1 ∧
    (h.cx c x).samples = [])

/-- BR goes to its target when its condition holds and to the next word when not; DJNZ decrements its register and
  branches while it is not 0; JMP, CALL and RET go to their target, CALL saving the next word's address in LNK; HALT
  outside speculation ends the context in state HALT with PC at the next word and sets FLAG.HALT (Tables 3.3, 3.4).
  A speculating context stalls at HALT with WAIT = 3. Nothing else changes. -/
def Obligations.ReedFlowInstructions : Prop :=
  (∀ (c : Fin 8) (x : Fin 16) (a b : BitVec 3) (k : BitVec 4) (t : BitVec 11) (s : State), s.hub.reedIs c x (.br a b
    k t) → reedCond k.toNat ((s.hub.cx c x).r.ga a) ((s.hub.cx c x).r.ga b) = some true → Runs (.br c x) s fun h =>
    h.cx c x = { s.hub.cx c x with wait := 0, r := { (s.hub.cx c x).r with pc := t.toNat } } ∧ OnlyCtx c x s.hub h)
    ∧
  (∀ (c : Fin 8) (x : Fin 16) (a b : BitVec 3) (k : BitVec 4) (t : BitVec 11) (s : State), s.hub.reedIs c x (.br a b
    k t) → reedCond k.toNat ((s.hub.cx c x).r.ga a) ((s.hub.cx c x).r.ga b) = some false → Runs (.br c x) s fun h =>
    h.cx c x =
    { s.hub.cx c x with wait := 0, r := { (s.hub.cx c x).r with pc := ((s.hub.cx c x).r.pc + 1) % 2048 } } ∧ OnlyCtx
    c x s.hub h) ∧
  (∀ (c : Fin 8) (x : Fin 16) (a : BitVec 3) (t : BitVec 11) (s : State), s.hub.reedIs c x (.djnz a t) → Runs (.djnz
    c x) s fun h => (h.cx c x =
    { s.hub.cx c x with wait := 0, r := { (s.hub.cx c x).r.setG a ((s.hub.cx c x).r.ga a - 1) with pc := if (s.hub.cx c x).r.ga a = 1 then ((s.hub.cx c x).r.pc + 1) % 2048 else t.toNat } })
    ∧ OnlyCtx c x s.hub h) ∧
  (∀ (c : Fin 8) (x : Fin 16) (t : BitVec 11) (s : State), s.hub.reedIs c x (.jmp t) → Runs (.jmp c x) s fun h =>
    h.cx c x = { s.hub.cx c x with wait := 0, r := { (s.hub.cx c x).r with pc := t.toNat } } ∧ OnlyCtx c x s.hub h)
    ∧
  (∀ (c : Fin 8) (x : Fin 16) (t : BitVec 11) (s : State), s.hub.reedIs c x (.call t) → Runs (.call c x) s fun h =>
    h.cx c x =
    { s.hub.cx c x with wait := 0, r := { (s.hub.cx c x).r with pc := t.toNat, lnk := ((s.hub.cx c x).r.pc + 1) % 2048 } }
    ∧ OnlyCtx c x s.hub h) ∧
  (∀ (c : Fin 8) (x : Fin 16)  (s : State), s.hub.reedIs c x (.ret) → Runs (.ret c x) s fun h => h.cx c x =
    { s.hub.cx c x with wait := 0, r := { (s.hub.cx c x).r with pc := (s.hub.cx c x).r.lnk } } ∧ OnlyCtx c x s.hub
    h) ∧
  (∀ (c : Fin 8) (x : Fin 16)  (s : State), s.hub.reedIs c x (.halt) → (s.hub.cx c x).ckpt = [] → Runs (.halt c x) s
    fun h => h.cx c x = { s.hub.cx c x with st := 2, wait := 0, r := CtxRegs.next (s.hub.cx c x).r } ∧ h.bit
    (F.REED_FLAG_HALT c) = true ∧ h = { s.hub with fields := h.fields, hw := h.hw, reed := h.reed, out := h.out } ∧
    SameRegs s.hub h [F.REED_FLAG_HALT c]) ∧
  (∀ (c : Fin 8) (x : Fin 16)  (s : State), s.hub.reedIs c x (.halt) → (s.hub.cx c x).ckpt ≠ [] → Runs (.halt c x) s
    fun h => h.cx c x = { s.hub.cx c x with wait := 3 } ∧ OnlyCtx c x s.hub h)

/-- TSET puts TC at the action counter plus IMM16 and TAP to 0; TADD adds IMM16 ticks or taps, TADDB adds BT, to the
  cursor counted in taps of a tenth of a tick (R85); WAITT completes once the counter has reached TC and stalls with
  WAIT = 1 before. WEDGE first stalls with WAIT = 1; the edge it selects, seen not before its issue and TC, puts TC
  to the edge's tick, two ticks back, and clears CST.TIMEOUT; its timeout puts TC to issue + TO microseconds (400 x
  TO ticks) and sets CST.TIMEOUT; after either it completes in its next slot (R103). -/
def Obligations.ReedTimeInstructions : Prop :=
  (∀ (c : Fin 8) (x : Fin 16) (k : BitVec 16) (s : State), s.hub.reedIs c x (.tset k) → Runs (.tset c x) s fun h =>
    h.cx c x =
    { s.hub.cx c x with wait := 0, r := { CtxRegs.next (s.hub.cx c x).r with tc := add64 (s.hub.ctr c) k.toNat, tap := 0 } }
    ∧ OnlyCtx c x s.hub h) ∧
  (∀ (c : Fin 8) (x : Fin 16) (k : BitVec 16) (s : State), s.hub.reedIs c x (.tadd false k) → 10 * (s.hub.cx c
    x).r.tc < 10 * 2 ^ 64 → 0 ≤ ((s.hub.cx c x).r.tc : Int) + k.toInt → ((s.hub.cx c x).r.tc : Int) + k.toInt < 2 ^
    64 → (s.hub.cx c x).r.tap < 10 → Runs (.tadd c x) s fun h => h.cx c x =
    { s.hub.cx c x with wait := 0, r := { CtxRegs.next (s.hub.cx c x).r with tc := (((s.hub.cx c x).r.tc : Int) + k.toInt).toNat } }
    ∧ OnlyCtx c x s.hub h) ∧
  (∀ (c : Fin 8) (x : Fin 16) (k : BitVec 16) (s : State), s.hub.reedIs c x (.tadd true k) → Runs (.tadd c x) s fun
    h => h.cx c x = { s.hub.cx c x with wait := 0, r := ((s.hub.cx c x).r.addTaps k.toInt).next } ∧ OnlyCtx c x
    s.hub h) ∧
  (∀ (c : Fin 8) (x : Fin 16)  (s : State), s.hub.reedIs c x (.taddb) → Runs (.taddb c x) s fun h => h.cx c x =
    { s.hub.cx c x with wait := 0, r := ((s.hub.cx c x).r.addTaps (s.hub.cx c x).r.bt).next } ∧ OnlyCtx c x s.hub h)
    ∧
  (∀ (c : Fin 8) (x : Fin 16)  (s : State), s.hub.reedIs c x (.waitt) → reached (s.hub.ctr c) (s.hub.cx c x).r.tc →
    Runs (.waitt c x) s fun h => h.cx c x = { s.hub.cx c x with wait := 0, r := CtxRegs.next (s.hub.cx c x).r } ∧
    OnlyCtx c x s.hub h) ∧
  (∀ (c : Fin 8) (x : Fin 16)  (s : State), s.hub.reedIs c x (.waitt) → reached (s.hub.ctr c) (s.hub.cx c x).r.tc =
    false → Runs (.waitt c x) s fun h => h.cx c x = { s.hub.cx c x with wait := 1 } ∧ OnlyCtx c x s.hub h) ∧
  (∀ (c : Fin 8) (x : Fin 16) (p : BitVec 5) (e : BitVec 2) (tmo : BitVec 16) (s : State), s.hub.reedIs c x (.wedge
    p e tmo) → p.toNat < 24 → e ≠ 0 → (s.hub.cx c x).wedge = none → Runs (.wedge c x) s fun h => h.cx c x =
    { s.hub.cx c x with wait := 1, wedge := some (s.hub.ctr c, false) } ∧ OnlyCtx c x s.hub h) ∧
  (∀ (c : Fin 8) (x : Fin 16) (p : BitVec 5) (e : BitVec 2) (tmo : BitVec 16) (i : Nat) (s : State), s.hub.reedIs c
    x (.wedge p e tmo) → p.toNat < 24 → e ≠ 0 → (s.hub.cx c x).wedge = some (i, true) → Runs (.wedge c x) s fun h =>
    h.cx c x = { s.hub.cx c x with wait := 0, wedge := none, r := CtxRegs.next (s.hub.cx c x).r } ∧ OnlyCtx c x
    s.hub h) ∧
  (∀ (c : Fin 8) (x : Fin 16) (rising : Bool) (iss e tmo : Nat) (s : State), s.hub.wedgeOf c x = some (iss, e, tmo)
    → e.testBit (if rising then 0 else 1) → 2 ≤ s.hub.ctr c → s.hub.ctr c < 2 ^ 64 → reached (s.hub.ctr c - 2) iss →
    reached (s.hub.ctr c - 2) (s.hub.cx c x).r.tc → Runs (.wedgeEdgeFound c x rising) s fun h => (h.cx c x).wedge =
    some (iss, true) ∧ (h.cx c x).r =
    { (s.hub.cx c x).r with tc := s.hub.ctr c - 2, tap := 0, cst := (s.hub.cx c x).r.cst &&& ~~~ 0x100#32 } ∧ h =
    { s.hub with reed := h.reed } ∧ (∀ d : Fin 8, d ≠ c → h.reed[d] = s.hub.reed[d])) ∧
  (∀ (c : Fin 8) (x : Fin 16) (iss e tmo : Nat) (s : State), s.hub.wedgeOf c x = some (iss, e, tmo) → tmo ≠ 0 →
    reached (s.hub.ctr c) (iss + 400 * tmo) → Runs (.wedgeTimeout c x) s fun h => (h.cx c x).wedge = some (iss,
    true) ∧ (h.cx c x).r =
    { (s.hub.cx c x).r with tc := add64 iss (400 * tmo), tap := 0, cst := (s.hub.cx c x).r.cst ||| 0x100#32 } ∧ h =
    { s.hub with reed := h.reed } ∧ (∀ d : Fin 8, d ≠ c → h.reed[d] = s.hub.reed[d]))

/-- An action on an owned pin inside the run-ahead window with room in the queue appends one entry, due at TC and
  TAP, latched 4 ticks after the slot, and the instruction advances TC by BT where it asks for it (R86-R88). SHO
  queues one bit of SH a slot, SHI asks for one sample a slot and counts it in SC (R93). A predicted BPIN stores a
  checkpoint with the path not taken and goes on along the predicted one (R95); its sample, 3 ticks after its own,
  confirms it, or restores the checkpoint, counts MISPCNT and discards what was queued beyond (R97, R98). A pin the
  context does not own faults it with cause 2 (R79, R104). ACTION_RETIRE removes a due entry alone in the queue and
  drives its pin (R89, R91). SHI's sample shifts into SH (R93). -/
def Obligations.ReedActions : Prop :=
  (∀ (c : Fin 8) (x : Fin 16) (p : BitVec 5) (v : BitVec 2) (adv : Bool) (s : State), s.hub.reedIs c x (.act p v
    adv) → p.toNat < 24 → s.hub.ownsPin c x p.toNat → s.hub.beyond c (s.hub.cx c x).r.tc = false → s.hub.aqRoom c →
    Runs (.act c x) s fun h => (h.reed[c]).q = (s.hub.reed[c]).q ++
    [{ due := (s.hub.cx c x).r.tc, tap := (s.hub.cx c x).r.tap, pin := p.toNat, v := v.toNat, src := .ctx x, depth := (s.hub.cx c x).ckpt.length, ready := s.hub.now + 4, idx := (s.hub.reed[c]).seq }]
    ∧ h.cx c x =
    { s.hub.cx c x with wait := 0, r := (if adv then (s.hub.cx c x).r.addBt else (s.hub.cx c x).r).next } ∧ h =
    { s.hub with fields := h.fields, reed := h.reed } ∧ SameRegs s.hub h [F.REED_AQSTAT_PEAK c] ∧ (∀ d : Fin 8, d ≠
    c → h.reed[d] = s.hub.reed[d])) ∧
  (∀ (c : Fin 8) (x : Fin 16) (p : BitVec 5) (v : BitVec 2) (adv : Bool) (s : State), s.hub.reedIs c x (.act p v
    adv) → s.hub.ownsPin c x p.toNat = false → (s.hub.cx c x).ckpt = [] → Runs (.act c x) s fun h => (h.cx c x).st =
    3 ∧ (h.cx c x).cause = 2) ∧
  (∀ (c : Fin 8) (x : Fin 16) (p : BitVec 5) (adv : Bool) (gr : BitVec 3) (s : State), s.hub.reedIs c x (.actg p adv
    gr) → p.toNat < 24 → s.hub.ownsPin c x p.toNat → s.hub.beyond c (s.hub.cx c x).r.tc = false → s.hub.aqRoom c →
    Runs (.actg c x) s fun h => (h.reed[c]).q = (s.hub.reed[c]).q ++
    [{ due := (s.hub.cx c x).r.tc, tap := (s.hub.cx c x).r.tap, pin := p.toNat, v := (b2n (((s.hub.cx c x).r.ga gr).getLsbD 0)), src := .ctx x, depth := (s.hub.cx c x).ckpt.length, ready := s.hub.now + 4, idx := (s.hub.reed[c]).seq }]
    ∧ h.cx c x =
    { s.hub.cx c x with wait := 0, r := (if adv then (s.hub.cx c x).r.addBt else (s.hub.cx c x).r).next } ∧ h =
    { s.hub with fields := h.fields, reed := h.reed } ∧ SameRegs s.hub h [F.REED_AQSTAT_PEAK c] ∧ (∀ d : Fin 8, d ≠
    c → h.reed[d] = s.hub.reed[d])) ∧
  (∀ (c : Fin 8) (x : Fin 16) (p n : BitVec 5) (lsb : Bool) (s : State), s.hub.reedIs c x (.sho p lsb n) → p.toNat <
    24 → s.hub.ownsPin c x p.toNat → s.hub.beyond c (s.hub.cx c x).r.tc = false → s.hub.aqRoom c → (s.hub.cx c
    x).bits < n.toNat → Runs (.sho c x) s fun h => (h.reed[c]).q = (s.hub.reed[c]).q ++
    [{ due := (s.hub.cx c x).r.tc, tap := (s.hub.cx c x).r.tap, pin := p.toNat, v := (b2n (if lsb then (s.hub.cx c x).r.sh.getLsbD 0 else (s.hub.cx c x).r.sh.getLsbD 31)), src := .ctx x, depth := (s.hub.cx c x).ckpt.length, ready := s.hub.now + 4, idx := (s.hub.reed[c]).seq }]
    ∧ (h.cx c x).bits = (s.hub.cx c x).bits + 1 ∧ (h.cx c x).mid = true ∧ ((h.cx c x).r =
    { (s.hub.cx c x).r.addBt with sh := if lsb then (s.hub.cx c x).r.sh >>> 1 else (s.hub.cx c x).r.sh <<< 1 }) ∧ h
    = { s.hub with fields := h.fields, reed := h.reed } ∧ SameRegs s.hub h [F.REED_AQSTAT_PEAK c] ∧ (∀ d : Fin 8, d
    ≠ c → h.reed[d] = s.hub.reed[d])) ∧
  (∀ (c : Fin 8) (x : Fin 16) (p n : BitVec 5) (lsb : Bool) (s : State), s.hub.reedIs c x (.sho p lsb n) → p.toNat <
    24 → s.hub.ownsPin c x p.toNat → s.hub.beyond c (s.hub.cx c x).r.tc = false → s.hub.aqRoom c → n.toNat ≤
    (s.hub.cx c x).bits → Runs (.sho c x) s fun h => (h.reed[c]).q = (s.hub.reed[c]).q ++
    [{ due := (s.hub.cx c x).r.tc, tap := (s.hub.cx c x).r.tap, pin := p.toNat, v := (b2n (if lsb then (s.hub.cx c x).r.sh.getLsbD 0 else (s.hub.cx c x).r.sh.getLsbD 31)), src := .ctx x, depth := (s.hub.cx c x).ckpt.length, ready := s.hub.now + 4, idx := (s.hub.reed[c]).seq }]
    ∧ (h.cx c x).bits = 0 ∧ (h.cx c x).mid = false ∧ (h.cx c x).r.pc = ((s.hub.cx c x).r.pc + 1) % 2048 ∧ (h.cx c
    x).r.sh = (if lsb then (s.hub.cx c x).r.sh >>> 1 else (s.hub.cx c x).r.sh <<< 1) ∧ h =
    { s.hub with fields := h.fields, reed := h.reed } ∧ SameRegs s.hub h [F.REED_AQSTAT_PEAK c] ∧ (∀ d : Fin 8, d ≠
    c → h.reed[d] = s.hub.reed[d])) ∧
  (∀ (c : Fin 8) (x : Fin 16) (p n : BitVec 5) (lsb : Bool) (s : State), s.hub.reedIs c x (.shi p lsb n) → p.toNat <
    24 → s.hub.beyond c (s.hub.cx c x).r.tc = false → (s.hub.cx c x).r.sc < 32 → (s.hub.ctr c = (s.hub.cx c x).r.tc
    ∨ reached (s.hub.ctr c) (s.hub.cx c x).r.tc = false) → (s.hub.cx c x).bits < n.toNat → (s.hub.cx c x).samples =
    [] → Runs (.shi c x) s fun h => (h.cx c x).samples = [⟨(s.hub.cx c x).r.tc, p.toNat, .shi (s.hub.cx c
    x).ckpt.length lsb, none⟩] ∧ (h.cx c x).bits = (s.hub.cx c x).bits + 1 ∧ (h.cx c x).r =
    { (s.hub.cx c x).r.addBt with sc := (s.hub.cx c x).r.sc + 1 } ∧ OnlyCtx c x s.hub h) ∧
  (∀ (c : Fin 8) (x : Fin 16) (p : BitVec 5) (l : Bool) (k : BitVec 2) (t : BitVec 11) (s : State), s.hub.reedIs c x
    (.bpin p l k t) → p.toNat < 24 → k.toNat < 2 → (s.hub.cx c x).held = none → (s.hub.cx c x).samples = [] →
    s.hub.beyond c (s.hub.cx c x).r.tc = false → (s.hub.ctr c = (s.hub.cx c x).r.tc ∨ reached (s.hub.ctr c)
    (s.hub.cx c x).r.tc = false) → (s.hub.cx c x).ckpt.length < 2 → Runs (.bpin c x) s fun h => (h.cx c x =
    { s.hub.cx c x with wait := 0, samples := [⟨(s.hub.cx c x).r.tc, p.toNat, .br (s.hub.cx c x).ckpt.length l (k == 1), none⟩], ckpt := (s.hub.cx c x).ckpt ++ [((s.hub.cx c x).r, if k = 1 then ((s.hub.cx c x).r.pc + 1) % 2048 else t.toNat)], r := { (s.hub.cx c x).r with pc := if k = 1 then t.toNat else ((s.hub.cx c x).r.pc + 1) % 2048 } })
    ∧ OnlyCtx c x s.hub h) ∧
  (∀ (c : Fin 8) (x : Fin 16) (level lsb : Bool) (t p : Nat) (s : State), (s.hub.cx c x).samples = [⟨t, p, .shi 0
    lsb, some level⟩] → reached (s.hub.ctr c) (t + 3) → (s.hub.cx c x).ckpt = [] → Runs (.sampleResolve c x t) s fun
    h => (h.cx c x).samples = [] ∧ ((h.cx c x).r =
    { (s.hub.cx c x).r with sc := (s.hub.cx c x).r.sc - 1, sh := if lsb then ((s.hub.cx c x).r.sh >>> 1) ||| (BitVec.ofNat 32 (b2n level) <<< 31) else ((s.hub.cx c x).r.sh <<< 1) ||| BitVec.ofNat 32 (b2n level) })
    ∧ h = { s.hub with reed := h.reed } ∧ (∀ d : Fin 8, d ≠ c → h.reed[d] = s.hub.reed[d])) ∧
  (∀ (c : Fin 8) (x : Fin 16) (level l taken : Bool) (t p a : Nat) (r : CtxRegs) (s : State), (s.hub.cx c x).samples
    = [⟨t, p, .br 0 l taken, some level⟩] → reached (s.hub.ctr c) (t + 3) → (s.hub.cx c x).ckpt = [(r, a)] → (level
    == l) ≠ taken → Runs (.sampleResolve c x t) s fun h => h.cx c x =
    { s.hub.cx c x with samples := [], ckpt := [], r := { r with pc := a, cntHi := (s.hub.cx c x).r.cntHi }, bits := 0, mid := false, wedge := none, held := none, wait := 0 }
    ∧ h.fld (F.REED_MISPCNT_COUNT c) = min (s.hub.fld (F.REED_MISPCNT_COUNT c) + 1) (2 ^ 32 - 1) ∧ ((h.reed[c]).q =
    (s.hub.reed[c]).q.filter fun e => !(e.of_ x && decide (0 < e.depth)))) ∧
  (∀ (c : Fin 8) (x : Fin 16) (level l taken : Bool) (t p a : Nat) (r : CtxRegs) (s : State), (s.hub.cx c x).samples
    = [⟨t, p, .br 0 l taken, some level⟩] → reached (s.hub.ctr c) (t + 3) → (s.hub.cx c x).ckpt = [(r, a)] → (level
    == l) = taken → Runs (.sampleResolve c x t) s fun h => h.cx c x =
    { s.hub.cx c x with samples := [], ckpt := [] } ∧ h = { s.hub with reed := h.reed } ∧ (∀ d : Fin 8, d ≠ c →
    h.reed[d] = s.hub.reed[d])) ∧
  (∀ (c : Fin 8) (x : Fin 16) (e : Action) (s : State), s.hub.domOn (18 + c) → (s.hub.reed[c]).q = [e] → e.src =
    .ctx x → e.good → e.depth = 0 → e.due = s.hub.ctr c → e.ready ≤ s.hub.now → e.v < 3 → e.pin < 24 → s.hub.ownsPin
    c x e.pin → s.hub.up (reedPin c e.pin).1 → s.hub.prlocked c = false → ((s.hub.lane (reedPin c
    e.pin).1).pin[(reedPin c e.pin).2]).actAt ≠ some s.hub.now → (s.hub.reed[c]).retAt ≠ s.hub.now → Runs
    (.actionRetire c) s fun h => (h.reed[c]).q = [] ∧ ((h.lane (reedPin c e.pin).1).pin[(reedPin c e.pin).2]).drv =
    e.v ∧ ((h.lane (reedPin c e.pin).1).pin[(reedPin c e.pin).2]).actAt = some s.hub.now ∧ (h.reed[c]).retN = 1 ∧ h
    = { s.hub with lanes := h.lanes, reed := h.reed } ∧ (∀ m : Fin 64, m ≠ (reedPin c e.pin).1 → h.lanes[m] =
    s.hub.lanes[m]))

/-- On a lent lane, PULL takes the oldest transmit word into GA and clears the status bits of CST, PUSH appends GA
  to the receive FIFO (R100). SIG puts one event of type 3 with the engine's unit, context and code into the queue
  of each subscribed running core (R101). FRD to another node takes a tag for the context, sends the request and
  stalls with WAIT = 2; its final completion writes GA and CST, 0 with a status other than OK, and the next slot
  completes the instruction (R102). FWR to another node sends the write, clears CST.SALVAGED and stores status OK;
  before the join it stores DOWN and sends nothing (R29, R102). An odd B faults the context with cause 4. -/
def Obligations.ReedFifosEventsAndFabric : Prop :=
  (∀ (c : Fin 8) (x : Fin 16) (ga l : BitVec 3) (w : Bool) (v : FifoWord) (q : List FifoWord) (s : State),
    s.hub.reedIs c x (.pull ga l w) → (s.hub.cx c x).ckpt = [] → s.hub.lentPins (laneIn c l) → (s.hub.lane (laneIn c
    l)).tx.q = v :: q → v.good → s.hub.quietLane (laneIn c l) → Runs (.pull c x) s fun h => (h.lane (laneIn c
    l)).tx.q = q ∧ (h.lane (laneIn c l)).rx = (s.hub.lane (laneIn c l)).rx ∧ h.cx c x =
    { s.hub.cx c x with wait := 0, r := { ((s.hub.cx c x).r.setG ga v.w).next with cst := (s.hub.cx c x).r.cst &&& ~~~ (if w then 0x400#32 else 0x600#32) } }
    ∧ (∀ m : Fin 64, m ≠ laneIn c l → h.lanes[m] = s.hub.lanes[m])) ∧
  (∀ (c : Fin 8) (x : Fin 16) (ga l : BitVec 3) (s : State), s.hub.reedIs c x (.pull ga l true) → (s.hub.cx c
    x).ckpt = [] → s.hub.lentPins (laneIn c l) → (s.hub.lane (laneIn c l)).tx.q = [] → Runs (.pull c x) s fun h =>
    h.cx c x = { s.hub.cx c x with wait := 2 } ∧ OnlyCtx c x s.hub h) ∧
  (∀ (c : Fin 8) (x : Fin 16) (ga l : BitVec 3) (s : State), s.hub.reedIs c x (.push ga l) → (s.hub.cx c x).ckpt =
    [] → s.hub.lentPins (laneIn c l) → (s.hub.lane (laneIn c l)).rx.q.length < 64 → s.hub.quietLane (laneIn c l) →
    Runs (.push c x) s fun h => (h.lane (laneIn c l)).rx.q = (s.hub.lane (laneIn c l)).rx.q ++
    [{ w := (s.hub.cx c x).r.ga ga, time := s.hub.now }] ∧ (h.lane (laneIn c l)).tx = (s.hub.lane (laneIn c l)).tx ∧
    h.cx c x = { s.hub.cx c x with wait := 0, r := CtxRegs.next (s.hub.cx c x).r } ∧ (∀ m : Fin 64, m ≠ laneIn c l →
    h.lanes[m] = s.hub.lanes[m])) ∧
  (∀ (c : Fin 8) (x : Fin 16) (k : BitVec 8) (n : Fin 8) (s : State), s.hub.reedIs c x (.sig k) → (s.hub.cx c
    x).ckpt = [] → s.hub.paired = false → s.hub.fld (F.RFXC_RSUB_CORES c) = 2 ^ n.val → s.hub.bit (F.RFX_CTL_RUN n)
    → (s.hub.core[n]).evq.length < 64 → Runs (.sig c x) s fun h => (h.core[n]).evq = (s.hub.core[n]).evq ++ [mkEvent
    3 (s.hub.unit (reedUnit c)) (BitVec.ofNat 32 (x.val * 256 + k.toNat)) ((s.hub.reed[c]).anc.toG (s.hub.ctr c))] ∧
    h.cx c x = { s.hub.cx c x with wait := 0, r := CtxRegs.next (s.hub.cx c x).r } ∧ (∀ m : Fin 8, m ≠ n → h.core[m]
    = s.hub.core[m]) ∧ h = { s.hub with core := h.core, reed := h.reed }) ∧
  (∀ (c : Fin 8) (x : Fin 16) (ga b : BitVec 3) (tg : Fin 256) (s : State), s.hub.reedIs c x (.frd ga b) → b.getLsbD
    0 = false → (s.hub.cx c x).ckpt = [] → (s.hub.cx c x).frd = none → (s.hub.cx c x).frdCome = false →
    s.hub.issueErr { reedRq (s.hub.cx c x).r b opREAD false [] with smem := BitVec.ofNat 2 s.hub.member } = none →
    s.hub.staysHere { reedRq (s.hub.cx c x).r b opREAD false [] with smem := BitVec.ofNat 2 s.hub.member } = false →
    s.hub.tagNow 12 = some tg → Runs (.frd c x) s fun h => (h.cx c x).wait = 2 ∧ (h.cx c x).r = (s.hub.cx c x).r ∧
    (h.cx c x).frd = some (Fin.mk ga.toNat ga.isLt) ∧ ((∃ u, h.brg.tag[tg] = .use u ∧ u.who = .reed c x ∧ u.rq.addr
    = (s.hub.cx c x).r.fabric b ∧ u.flying = true))) ∧
  (∀ (c : Fin 8) (x : Fin 16) (ga b : BitVec 3) (s : State), s.hub.reedIs c x (.frd ga b) → b.getLsbD 0 = false →
    (s.hub.cx c x).ckpt = [] → (s.hub.cx c x).frdCome → Runs (.frd c x) s fun h => h.cx c x =
    { s.hub.cx c x with wait := 0, frd := none, frdCome := false, r := CtxRegs.next (s.hub.cx c x).r } ∧ OnlyCtx c x
    s.hub h) ∧
  (∀ (c : Fin 8) (x : Fin 16) (ga b : BitVec 3) (s : State), s.hub.reedIs c x (.frd ga b) → b.getLsbD 0 → (s.hub.cx
    c x).ckpt = [] → Runs (.frd c x) s fun h => (h.cx c x).st = 3 ∧ (h.cx c x).cause = 4) ∧
  (∀ (c : Fin 8) (x : Fin 16) (st : BitVec 4) (sv : Bool) (data : W32) (d : Fin 8) (s : State), (s.hub.cx c x).frd =
    some d → (s.hub.cx c x).frdCome = false → st.toNat ≤ 8 → Runs (.frdCompletion c x st sv data) s fun h => (h.cx c
    x).frdCome = true ∧ (h.cx c x).r =
    { (s.hub.cx c x).r with g := (s.hub.cx c x).r.g.set d (if st = 0 then data else 0), cst := ((s.hub.cx c x).r.cst &&& ~~~ 0x1F#32) ||| BitVec.ofNat 32 (b2n sv * 16 + st.toNat) }
    ∧ h = { s.hub with reed := h.reed } ∧ (∀ d : Fin 8, d ≠ c → h.reed[d] = s.hub.reed[d])) ∧
  (∀ (c : Fin 8) (x : Fin 16) (ga b : BitVec 3) (s : State), s.hub.reedIs c x (.fwr ga b) → b.getLsbD 0 = false →
    (s.hub.cx c x).ckpt = [] → s.hub.brg.wait = [] → s.hub.issueErr
    { reedRq (s.hub.cx c x).r b opWRITE true (leBytes ((s.hub.cx c x).r.ga ga)) with smem := BitVec.ofNat 2 s.hub.member }
    = none → s.hub.staysHere
    { reedRq (s.hub.cx c x).r b opWRITE true (leBytes ((s.hub.cx c x).r.ga ga)) with smem := BitVec.ofNat 2 s.hub.member }
    = false → Runs (.fwr c x) s fun h => h.cx c x =
    { s.hub.cx c x with wait := 0, r := { CtxRegs.next (s.hub.cx c x).r with cst := (s.hub.cx c x).r.cst &&& ~~~ 0x1F#32 } }
    ∧ h = Hub.send { s.hub with reed := h.reed } (s.hub.reqFrame
    { reedRq (s.hub.cx c x).r b opWRITE true (leBytes ((s.hub.cx c x).r.ga ga)) with smem := BitVec.ofNat 2 s.hub.member }
    none)) ∧
  (∀ (c : Fin 8) (x : Fin 16) (ga b : BitVec 3) (s : State), s.hub.reedIs c x (.fwr ga b) → b.getLsbD 0 = false →
    (s.hub.cx c x).ckpt = [] → s.hub.brg.wait = [] → s.hub.brgOn → s.hub.ownNode
    { reedRq (s.hub.cx c x).r b opWRITE true (leBytes ((s.hub.cx c x).r.ga ga)) with smem := BitVec.ofNat 2 s.hub.member }
    = false → s.hub.node = 0 → Runs (.fwr c x) s fun h => h.cx c x =
    { s.hub.cx c x with wait := 0, r := { CtxRegs.next (s.hub.cx c x).r with cst := ((s.hub.cx c x).r.cst &&& ~~~ 0x1F#32) ||| 8#32 } }
    ∧ OnlyCtx c x s.hub h)

/-- Hub.reedEnter is what a tick does at the start of a cycle, Hub.reedLeave at its end. REED_RUN of an idle engine
  sets RUN, and at the start of the next cycle the engine is ACTIVE with every enabled context at its ENTRY,
  registers cleared and TC at the counter (R105). REED_STOP clears RUN, and an active engine begins to stop with the
  next cycle; REED_STOPPED, once every context with a slot has stopped, clears ACTIVE, sets FLAG.STOPPED and leaves
  no context running (R106). FLUSH is pending till the next tick, which removes from the queue what contexts put
  there and counts it (R108). CONTEXT_ENABLE and CONTEXT_DISABLE change their CTXEN bit; in a running engine an OFF
  context starts at its ENTRY at the start of its slot, and a disabled one is OFF at the end of its slot (R109).
  SYNC_ARM samples the trigger, SYNC_DISARM cancels it (R114, R117); a trigger that is due loads the counter, or
  starts the engine, clears ARM and sets FLAG.SYNC_DONE, and one due in the cycle of a write of RUN 0 is only
  cancelled (R114-R117). -/
def Obligations.ReedControl : Prop :=
  (∀ (a : Access) (c : Fin 8) (x : Fin 16) (s : State), s.hub.lets a (reedBase c) → (s.hub.reed[c]).pmNeed = 0 →
    (s.hub.reed[c]).trig = none → s.hub.drives → (s.hub.reed[c]).stopping = false → s.hub.bit (F.REED_STAT_ACTIVE c)
    = false → s.hub.bit (F.REED_CTL_RESUME c) = false → (s.hub.fld (F.REED_CTXEN_EN c)).testBit x → Runs (.reedRun a
    c) s fun h => h.bit (F.REED_CTL_RUN c) = true ∧ (h.reed[c]).startWait = true ∧ (Hub.reedEnter h c).bit
    (F.REED_STAT_ACTIVE c) = true ∧ ((Hub.reedEnter h c).cx c x).st = 1 ∧ ((Hub.reedEnter h c).cx c x).r =
    { pc := s.hub.fld (F.REED_CTX_W c (16 * x.val + 1)) % 2048, bt := (s.hub.cx c x).r.bt, tc := s.hub.ctr c, tap := 0, cntHi := (s.hub.cx c x).r.cntHi }
    ∧ h = { s.hub with fields := h.fields, hw := h.hw, reed := h.reed } ∧ SameRegs s.hub h [F.REED_CTL_RUN c] ∧ (∀ d
    : Fin 8, d ≠ c → h.reed[d] = s.hub.reed[d])) ∧
  (∀ (a : Access) (c : Fin 8) (s : State), s.hub.lets a (reedBase c) → (s.hub.reed[c]).trig = none →
    (s.hub.reed[c]).stopping = false → Runs (.reedStop a c) s fun h => h.bit (F.REED_CTL_RUN c) = false ∧
    (h.reed[c]).startWait = false ∧ ((Hub.reedEnter h c).reed[c]).stopping = s.hub.bit (F.REED_STAT_ACTIVE c) ∧ h =
    { s.hub with fields := h.fields, hw := h.hw, reed := h.reed } ∧ SameRegs s.hub h [F.REED_CTL_RUN c] ∧ (∀ d : Fin
    8, d ≠ c → h.reed[d] = s.hub.reed[d])) ∧
  (∀ (c : Fin 8) (s : State), (s.hub.reed[c]).stopping → s.hub.allStopped c → Runs (.reedStopped c) s fun h =>
    (h.reed[c]).stopping = false ∧ h.bit (F.REED_STAT_ACTIVE c) = false ∧ h.bit (F.REED_FLAG_STOPPED c) = true ∧ (∀
    x : Fin 16, (h.cx c x).st ≠ 1) ∧ (∀ d : Fin 8, d ≠ c → h.reed[d] = s.hub.reed[d])) ∧
  (∀ (a : Access) (c : Fin 8) (s : State), s.hub.lets a (reedBase c) → (s.hub.reed[c]).stopping = false → Runs
    (.reedFlush a c) s fun h => h.bit (F.REED_CTL_FLUSH c) = true ∧ (h.reed[c]).q = (s.hub.reed[c]).q ∧
    (Hub.reedEnter h c).bit (F.REED_CTL_FLUSH c) = false ∧ (((Hub.reedEnter h c).reed[c]).q =
    (s.hub.reed[c]).q.filter fun e => e.src == .bridge) ∧ ((Hub.reedEnter h c).fld (F.REED_SQUASHCNT_COUNT c) = min
    (s.hub.fld (F.REED_SQUASHCNT_COUNT c) + ((s.hub.reed[c]).q.filter fun e => e.src != .bridge).length) (2 ^ 32 -
    1)) ∧ h = { s.hub with fields := h.fields, hw := h.hw } ∧ SameRegs s.hub h [F.REED_CTL_FLUSH c]) ∧
  (∀ (a : Access) (c : Fin 8) (x : Fin 16) (s : State), s.hub.lets a (reedBase c + 0x10) → (s.hub.fld
    (F.REED_CTXEN_EN c)).testBit x = false → s.hub.fld (F.REED_CTXEN_EN c) < 65536 → s.hub.bit (F.REED_STAT_ACTIVE
    c) → s.hub.bit (F.REED_CTL_RUN c) → (s.hub.reed[c]).stopping = false → s.hub.slotNow c = x → (s.hub.cx c x).st =
    0 → Runs (.contextEnable a c x) s fun h => h.fld (F.REED_CTXEN_EN c) = s.hub.fld (F.REED_CTXEN_EN c) + 2 ^ x.val
    ∧ ((Hub.reedEnter h c).cx c x).st = 1 ∧ ((Hub.reedEnter h c).cx c x).r.pc = s.hub.fld (F.REED_CTX_W c (16 *
    x.val + 1)) % 2048 ∧ h = { s.hub with fields := h.fields, hw := h.hw } ∧ SameRegs s.hub h [F.REED_CTXEN_EN c]) ∧
  (∀ (a : Access) (c : Fin 8) (x : Fin 16) (s : State), s.hub.lets a (reedBase c + 0x10) → (s.hub.fld
    (F.REED_CTXEN_EN c)).testBit x → s.hub.fld (F.REED_CTXEN_EN c) < 65536 → s.hub.bit (F.REED_STAT_ACTIVE c) →
    s.hub.bit (F.REED_CTL_RUN c) → (s.hub.reed[c]).stopping = false → s.hub.slotNow c = x → Runs (.contextDisable a
    c x) s fun h => h.fld (F.REED_CTXEN_EN c) = s.hub.fld (F.REED_CTXEN_EN c) - 2 ^ x.val ∧ (h.cx c x).st =
    (s.hub.cx c x).st ∧ ((Hub.reedEnter h c).reedLeave c |>.cx c x).st = 0 ∧ h =
    { s.hub with fields := h.fields, hw := h.hw } ∧ SameRegs s.hub h [F.REED_CTXEN_EN c]) ∧
  (∀ (a : Access) (c : Fin 8) (v : W32) (s : State), s.hub.lets a (reedBase c + 0x30) → v.bit 1 = false → v.bit 2 =
    false → (v.bit 3 → (s.hub.reed[c]).pmNeed = 0) → s.hub.trigDue c = false → Runs (.syncArm a c v) s fun h =>
    (h.reed[c]).trig = some ⟨false, v.bit 3, v.bit 4, s.hub.fld (F.REED_SYNCT_VALUE c 1) * 2 ^ 32 + s.hub.fld
    (F.REED_SYNCT_VALUE c 0), s.hub.fld (F.REED_LOAD_VALUE c 1) * 2 ^ 32 + s.hub.fld (F.REED_LOAD_VALUE c 0),
    s.hub.now, none⟩ ∧ h.bit (F.REED_SYNC_ARM c) = true ∧ h =
    { s.hub with fields := h.fields, hw := h.hw, reed := h.reed } ∧ SameRegs s.hub h [F.REED_SYNC_ARM c,
    F.REED_SYNC_SRC c, F.REED_SYNC_DO_START c, F.REED_SYNC_DO_LOAD c] ∧ (∀ d : Fin 8, d ≠ c → h.reed[d] =
    s.hub.reed[d])) ∧
  (∀ (a : Access) (c : Fin 8) (s : State), s.hub.lets a (reedBase c + 0x30) → Runs (.syncDisarm a c) s fun h =>
    (h.reed[c]).trig = none ∧ h.bit (F.REED_SYNC_ARM c) = false ∧ h =
    { s.hub with fields := h.fields, hw := h.hw, reed := h.reed } ∧ SameRegs s.hub h [F.REED_SYNC_ARM c] ∧ (∀ d :
    Fin 8, d ≠ c → h.reed[d] = s.hub.reed[d])) ∧
  (∀ (c : Fin 8) (tr : Trig) (s : State), (s.hub.reed[c]).trig = some tr → tr.gno = false → s.hub.trigDue c →
    s.stops c = false → tr.doStart = false → tr.doLoad → Runs (.syncTrigger c) s fun h => (h.reed[c]).ctr = tr.load
    ∧ (h.reed[c]).trig = none ∧ h.bit (F.REED_SYNC_ARM c) = false ∧ h.bit (F.REED_FLAG_SYNC_DONE c) = true ∧
    (h.reed[c]).anc.n = add64 (s.hub.reed[c]).anc.n ((tr.load + 2 ^ 64 - s.hub.ctr c) % 2 ^ 64) ∧
    (h.reed[c]).q.length = (s.hub.reed[c]).q.length ∧ (∀ d : Fin 8, d ≠ c → h.reed[d] = s.hub.reed[d])) ∧
  (∀ (c : Fin 8) (tr : Trig) (s : State), (s.hub.reed[c]).trig = some tr → tr.gno = false → s.hub.trigDue c →
    s.stops c → Runs (.syncTrigger c) s fun h => (h.reed[c]).trig = none ∧ h.bit (F.REED_SYNC_ARM c) = false ∧
    (h.reed[c]).ctr = (s.hub.reed[c]).ctr ∧ h = { s.hub with fields := h.fields, hw := h.hw, reed := h.reed } ∧
    SameRegs s.hub h [F.REED_SYNC_ARM c] ∧ (∀ d : Fin 8, d ≠ c → h.reed[d] = s.hub.reed[d])) ∧
  (∀ (c : Fin 8) (tr : Trig) (s : State), (s.hub.reed[c]).trig = some tr → tr.gno → s.hub.trigDue c → s.stops c =
    false → tr.doStart → tr.doLoad = false → (s.hub.reed[c]).pmNeed = 0 → (s.hub.reed[c]).stopping = false →
    s.hub.bit (F.REED_STAT_ACTIVE c) = false → (∀ d : Fin 8, d ≠ c → (s.hub.reed[d]).trig = none) → Runs
    (.syncTriggerGnomon) s fun h => (h.reed[c]).trig = none ∧ h.bit (F.REED_SYNC_ARM c) = false ∧ h.bit
    (F.REED_FLAG_SYNC_DONE c) = true ∧ h.bit (F.REED_CTL_RUN c) = true ∧ h.bit (F.REED_STAT_ACTIVE c) = true ∧
    (h.reed[c]).start = s.hub.now ∧ (∀ d : Fin 8, d ≠ c → h.reed[d] = s.hub.reed[d]))

/-- CAN_ENABLE with legal bit timing clears both error counts and the error state and goes to INTEGRATE on an UP
  lane, or WAIT_LANE without one; illegal timing sets CFG_ERR and stays OFF (R122, R123). While a disable waits,
  CAN_ENABLE takes it back (R6); after a parity stop it is refused until RAMINIT (R135). CAN_DISABLE outside a frame
  goes OFF and ends every request CANCELLED; inside a frame it waits for the boundary (R122). 11 recessive bits end
  INTEGRATE, are counted in BOREC in BUSOFF and elsewhere change nothing. RAMINIT clears the message RAM and its
  parity, and its bit falls when it is done. The 128th in bus-off clears the counts, sets BUSON and goes to IDLE
  (R134). Sleep is entered in IDLE with nothing pending and left as R138 says, clearing SLEEP and setting WAKE; a
  protocol exception sets PXE and integrates again, or goes OFF where a disable waits. -/
def Obligations.CanControl : Prop :=
  (∀ (a : Access) (k : Fin 16) (s : State), s.hub.lets a (canBase k) → s.hub.bit (F.CAN_CTL_EN k) = false →
    (s.hub.can[k]).needInit = false → (s.hub.can[k]).closing = false → (¬ (s.hub.canNominal k < 400 ∨ s.hub.canData
    k < 50 ∨ s.hub.canNominal k < s.hub.canData k)) → Runs (.canEnable a k) s fun h => (h.canSt k = if
    (s.hub.canLane k).any fun n => s.hub.fld (F.LN_STAT_STATE n) == 2 then canINTEGRATE else canWAIT) ∧
    (h.can[k]).tec = 0 ∧ (h.can[k]).rec_ = 0 ∧ h.fld (F.CAN_STAT_ERRST k) = 0 ∧ h.bit (F.CAN_CTL_EN k) = true ∧
    SameRegs s.hub h [F.CAN_CTL_EN k, F.CAN_STAT_CFG_ERR k, F.CAN_STAT_BOREC k, F.CAN_STAT_ERRST k, F.CAN_STAT_STATE
    k] ∧ (∀ i : Fin 16, i ≠ k → h.can[i] = s.hub.can[i]) ∧ h =
    { s.hub with fields := h.fields, hw := h.hw, can := h.can }) ∧
  (∀ (a : Access) (k : Fin 16) (s : State), s.hub.lets a (canBase k) → s.hub.bit (F.CAN_CTL_EN k) = false →
    (s.hub.can[k]).needInit = false → (s.hub.can[k]).closing = false → (s.hub.canNominal k < 400 ∨ s.hub.canData k <
    50 ∨ s.hub.canNominal k < s.hub.canData k) → Runs (.canEnable a k) s fun h => h.canSt k = canOFF ∧ h.bit
    (F.CAN_STAT_CFG_ERR k) = true ∧ h.bit (F.CAN_CTL_EN k) = true ∧ SameRegs s.hub h [F.CAN_CTL_EN k,
    F.CAN_STAT_CFG_ERR k, F.CAN_STAT_STATE k] ∧ h = { s.hub with fields := h.fields, hw := h.hw }) ∧
  (∀ (a : Access) (k : Fin 16) (s : State), s.hub.lets a (canBase k) → s.hub.bit (F.CAN_CTL_EN k) = false →
    (s.hub.can[k]).needInit = false → (s.hub.can[k]).closing → Runs (.canEnable a k) s fun h => h.bit (F.CAN_CTL_EN
    k) = true ∧ (h.can[k]).closing = false ∧ h.canSt k = s.hub.canSt k ∧ SameRegs s.hub h [F.CAN_CTL_EN k] ∧ (∀ i :
    Fin 16, i ≠ k → h.can[i] = s.hub.can[i]) ∧ h = { s.hub with fields := h.fields, hw := h.hw, can := h.can }) ∧
  (∀ (a : Access) (k : Fin 16) (s : State), s.hub.lets a (canBase k) → s.hub.bit (F.CAN_CTL_EN k) → Runs (.canEnable
    a k) s fun h => h = s.hub) ∧
  (∀ (a : Access) (k : Fin 16) (s : State), s.hub.lets a (canBase k) → s.hub.bit (F.CAN_CTL_EN k) = false →
    (s.hub.can[k]).needInit → Runs (.canEnable a k) s fun h => h.out.head? = some (.regError a (canBase k) (errForm
    a true)) ∧ h.canSt k = s.hub.canSt k ∧ h =
    { s.hub with fields := h.fields, hw := h.hw, err := h.err, out := h.out }) ∧
  (∀ (a : Access) (k : Fin 16) (s : State), s.hub.lets a (canBase k) → s.hub.bit (F.CAN_CTL_EN k) → s.hub.canSt k ≠
    canRECEIVE → s.hub.canSt k ≠ canTRANSMIT → Runs (.canDisable a k) s fun h => h.canSt k = canOFF ∧ h.bit
    (F.CAN_CTL_EN k) = false ∧ (h.can[k]).att = none ∧ (h.can[k]).txreq = 0 ∧ (h.can[k]).closing = false ∧ (∀ j :
    Fin 128, (s.hub.can[k]).txreq.getLsbD j = true → ((h.can[k]).word j 3).bits 29 27 = 2 ∧
    (h.can[k]).txdone.getLsbD j = true) ∧ SameRegs s.hub h [F.CAN_CTL_EN k, F.CAN_STAT_CFG_ERR k, F.CAN_STAT_STATE
    k, F.CAN_FLAG_TX k] ∧ (∀ i : Fin 16, i ≠ k → h.can[i] = s.hub.can[i]) ∧ h =
    { s.hub with fields := h.fields, hw := h.hw, can := h.can, out := h.out }) ∧
  (∀ (a : Access) (k : Fin 16) (s : State), s.hub.lets a (canBase k) → s.hub.bit (F.CAN_CTL_EN k) = false → Runs
    (.canDisable a k) s fun h => h = s.hub) ∧
  (∀ (a : Access) (k : Fin 16) (s : State), s.hub.lets a (canBase k) → s.hub.bit (F.CAN_CTL_EN k) → (s.hub.canSt k =
    canRECEIVE ∨ s.hub.canSt k = canTRANSMIT) → Runs (.canDisable a k) s fun h => h.canSt k = s.hub.canSt k ∧ h.bit
    (F.CAN_CTL_EN k) = false ∧ (h.can[k]).closing = true ∧ (∀ i : Fin 16, i ≠ k → h.can[i] = s.hub.can[i]) ∧ h =
    { s.hub with fields := h.fields, hw := h.hw, can := h.can } ∧ SameRegs s.hub h [F.CAN_CTL_EN k,
    F.CAN_STAT_CFG_ERR k]) ∧
  (∀ (k : Fin 16) (s : State), s.hub.canSt k = canINTEGRATE → Runs (.canIntegrated k) s fun h => h.canSt k = canIDLE
    ∧ h = { s.hub with fields := h.fields, hw := h.hw } ∧ SameRegs s.hub h [F.CAN_STAT_STATE k]) ∧
  (∀ (k : Fin 16) (s : State), s.hub.canSt k = canBUSOFF → s.hub.fld (F.CAN_STAT_BOREC k) < 127 → Runs
    (.canIntegrated k) s fun h => h.fld (F.CAN_STAT_BOREC k) = s.hub.fld (F.CAN_STAT_BOREC k) + 1 ∧ h.canSt k =
    canBUSOFF ∧ h = { s.hub with fields := h.fields, hw := h.hw } ∧ SameRegs s.hub h [F.CAN_STAT_BOREC k]) ∧
  (∀ (k : Fin 16) (s : State), s.hub.canSt k = canBUSOFF → 127 ≤ s.hub.fld (F.CAN_STAT_BOREC k) → Runs
    (.canIntegrated k) s fun h => h.canSt k = canIDLE ∧ (h.can[k]).tec = 0 ∧ (h.can[k]).rec_ = 0 ∧ h.fld
    (F.CAN_STAT_ERRST k) = 0 ∧ h.fld (F.CAN_STAT_BOREC k) = 128 ∧ h.bit (F.CAN_FLAG_BUSON k) = true ∧ (∀ i : Fin 16,
    i ≠ k → h.can[i] = s.hub.can[i]) ∧ h = { s.hub with fields := h.fields, hw := h.hw, can := h.can, out := h.out }
    ∧ SameRegs s.hub h [F.CAN_STAT_STATE k, F.CAN_STAT_ERRST k, F.CAN_STAT_BOREC k, F.CAN_FLAG_BUSON k]) ∧
  (∀ (k : Fin 16) (s : State), s.hub.canSt k ≠ canINTEGRATE → s.hub.canSt k ≠ canBUSOFF → Runs (.canIntegrated k) s
    fun h => h = s.hub) ∧
  (∀ (a : Access) (k : Fin 16) (s : State), s.hub.lets a (canBase k) → s.hub.bit (F.CAN_CTL_EN k) = false → Runs
    (.canRaminit a k) s fun h => (h.can[k]).ram = [] ∧ (h.can[k]).bad = [] ∧ (h.can[k]).needInit = false ∧ h.bit
    (F.CAN_CTL_RAMINIT k) = true ∧ (∀ i : Fin 16, i ≠ k → h.can[i] = s.hub.can[i]) ∧ h =
    { s.hub with fields := h.fields, hw := h.hw, can := h.can } ∧ SameRegs s.hub h [F.CAN_CTL_RAMINIT k]) ∧
  (∀ (k : Fin 16) (s : State), Runs (.canRaminitDone k) s fun h => h.bit (F.CAN_CTL_RAMINIT k) = false ∧ h =
    { s.hub with fields := h.fields, hw := h.hw } ∧ SameRegs s.hub h [F.CAN_CTL_RAMINIT k]) ∧
  (∀ (k : Fin 16) (s : State), s.hub.canSt k = canBUSOFF → 127 ≤ s.hub.fld (F.CAN_STAT_BOREC k) → Runs
    (.canBusoffRecover k) s fun h => h.canSt k = canIDLE ∧ (h.can[k]).tec = 0 ∧ (h.can[k]).rec_ = 0 ∧ h.fld
    (F.CAN_STAT_ERRST k) = 0 ∧ h.fld (F.CAN_STAT_BOREC k) = 128 ∧ h.bit (F.CAN_FLAG_BUSON k) = true ∧ (∀ i : Fin 16,
    i ≠ k → h.can[i] = s.hub.can[i]) ∧ h = { s.hub with fields := h.fields, hw := h.hw, can := h.can, out := h.out }
    ∧ SameRegs s.hub h [F.CAN_STAT_STATE k, F.CAN_STAT_ERRST k, F.CAN_STAT_BOREC k, F.CAN_FLAG_BUSON k]) ∧
  (∀ (k : Fin 16) (s : State), (s.hub.canSt k ≠ canBUSOFF ∨ s.hub.fld (F.CAN_STAT_BOREC k) < 127) → Runs
    (.canBusoffRecover k) s fun h => h = s.hub) ∧
  (∀ (a : Access) (k : Fin 16) (s : State), s.hub.lets a (canBase k) → Runs (.canSleepRequest a k true) s fun h =>
    h.bit (F.CAN_CTL_SLEEP k) = true ∧ h = { s.hub with fields := h.fields, hw := h.hw } ∧ SameRegs s.hub h
    [F.CAN_CTL_SLEEP k]) ∧
  (∀ (a : Access) (k : Fin 16) (s : State), s.hub.lets a (canBase k) → s.hub.canAsleep k = false → Runs
    (.canSleepRequest a k false) s fun h => h.bit (F.CAN_CTL_SLEEP k) = false ∧ h =
    { s.hub with fields := h.fields, hw := h.hw } ∧ SameRegs s.hub h [F.CAN_CTL_SLEEP k]) ∧
  (∀ (k : Fin 16) (s : State), s.hub.bit (F.CAN_CTL_SLEEP k) → s.hub.canSt k = canIDLE → (s.hub.can[k]).txreq = 0 →
    Runs (.canSleepEnter k) s fun h => (h.canSt k = if s.hub.fld (F.CAN_WAKE_MODE k) = 1 then canSLEEPF else
    canSLEEPE) ∧ h = { s.hub with fields := h.fields, hw := h.hw } ∧ SameRegs s.hub h [F.CAN_STAT_STATE k]) ∧
  (∀ (a : Access) (k : Fin 16) (s : State), s.hub.lets a (canBase k) → s.hub.canAsleep k → ((s.hub.canLane k).any
    fun n => s.hub.fld (F.LN_STAT_STATE n) == 2) → s.hub.fld (F.CAN_STAT_ERRST k) ≠ 2 → Runs (.canSleepRequest a k
    false) s fun h => h.bit (F.CAN_CTL_SLEEP k) = false ∧ h.bit (F.CAN_FLAG_WAKE k) = true ∧ h.canSt k =
    canINTEGRATE ∧ h.can = s.hub.can) ∧
  (∀ (k : Fin 16) (s : State), s.hub.canSt k = canSLEEPE → s.hub.canTaken k 1 = false → ((s.hub.canLane k).any fun n
    => s.hub.fld (F.LN_STAT_STATE n) == 2) → s.hub.fld (F.CAN_STAT_ERRST k) ≠ 2 → Runs (.canWake k .dominant) s fun
    h => h.bit (F.CAN_CTL_SLEEP k) = false ∧ h.bit (F.CAN_FLAG_WAKE k) = true ∧ h.canSt k = canINTEGRATE ∧ h.can =
    s.hub.can) ∧
  (∀ (k : Fin 16) (s : State), s.hub.canAsleep k → ((s.hub.canLane k).any fun n => s.hub.fld (F.LN_STAT_STATE n) ==
    2) → s.hub.fld (F.CAN_STAT_ERRST k) ≠ 2 → Runs (.canWake k .request) s fun h => h.bit (F.CAN_CTL_SLEEP k) =
    false ∧ h.bit (F.CAN_FLAG_WAKE k) = true ∧ h.canSt k = canINTEGRATE ∧ h.can = s.hub.can) ∧
  (∀ (k : Fin 16) (f : CanFrame) (s : State), s.hub.canSt k = canSLEEPF → s.hub.canDeaf k = false → (f.fdf = true →
    s.hub.bit (F.CAN_CTL_FDOE k) = true) → (s.hub.can[k]).bad = [] → s.hub.canWakes k f → (s.hub.can[k]).objen = 0 →
    ((s.hub.canLane k).any fun n => s.hub.fld (F.LN_STAT_STATE n) == 2) → s.hub.fld (F.CAN_STAT_ERRST k) ≠ 2 → Runs
    (.canWake k (.frame f)) s fun h => h.bit (F.CAN_CTL_SLEEP k) = false ∧ h.bit (F.CAN_FLAG_WAKE k) = true ∧
    h.canSt k = canINTEGRATE ∧ h.can = s.hub.can) ∧
  (∀ (k : Fin 16) (s : State), s.hub.canSt k = canRECEIVE → s.hub.bit (F.CAN_CTL_PXHD k) = false →
    (s.hub.can[k]).closing = false → Runs (.canProtocolException k) s fun h => h.canSt k = canINTEGRATE ∧ h.bit
    (F.CAN_FLAG_PXE k) = true ∧ h = { s.hub with fields := h.fields, hw := h.hw, out := h.out } ∧ SameRegs s.hub h
    [F.CAN_STAT_STATE k, F.CAN_FLAG_PXE k]) ∧
  (∀ (k : Fin 16) (s : State), s.hub.canSt k = canRECEIVE → s.hub.bit (F.CAN_CTL_PXHD k) = false →
    (s.hub.can[k]).closing → Runs (.canProtocolException k) s fun h => h.canSt k = canOFF ∧ h.bit (F.CAN_FLAG_PXE k)
    = true ∧ (h.can[k]).closing = false ∧ (h.can[k]).txreq = 0 ∧ (∀ i : Fin 16, i ≠ k → h.can[i] = s.hub.can[i]) ∧ h
    = { s.hub with fields := h.fields, hw := h.hw, can := h.can, out := h.out })

/-- TXREQ of an enabled object makes it pending (R130); TXCANCEL of a pending object that is not being sent ends it
  CANCELLED (TXRES 2, R133). At SOF the pending object with the dominant arbitration bits is sent, and with none the
  controller receives; lost arbitration ends a one-shot object with code 4 and leaves another pending (R131). A
  frame sent ends its request with TXRES 1 (R130). A received frame is stored in the lowest enabled object that
  accepts it, with NEWDAT (R127, R128). An error while receiving counts ECNT, records LEC and adds 1 to REC; one
  while sending adds 8 to TEC (R134); the controller returns to IDLE. -/
def Obligations.CanFrames : Prop :=
  (∀ (a : Access) (k : Fin 16) (j : Fin 128) (s : State), s.hub.lets a (canBase k + (0x50 + j / 32 * 4)) →
    (s.hub.can[k]).txreq.getLsbD j = false → (s.hub.can[k]).objen.getLsbD j → s.hub.canAsleep k = false → Runs
    (.canTxreq a k j) s fun h => (h.can[k]).txreq = (s.hub.can[k]).txreq ||| BitVec.twoPow 128 j ∧ (h.can[k]).word j
    3 = (s.hub.can[k]).word j 3 &&& ~~~ 0x38000000#32 ∧ (∀ i : Fin 16, i ≠ k → h.can[i] = s.hub.can[i]) ∧ h =
    { s.hub with can := h.can }) ∧
  (∀ (a : Access) (k : Fin 16) (j : Fin 128) (s : State), s.hub.lets a (canBase k + (0x60 + j / 32 * 4)) →
    (s.hub.can[k]).txreq.getLsbD j → (s.hub.can[k]).att = none → Runs (.canTxcancel a k j) s fun h =>
    (h.can[k]).txreq = (s.hub.can[k]).txreq &&& ~~~ BitVec.twoPow 128 j ∧ (h.can[k]).txdone = (s.hub.can[k]).txdone
    ||| BitVec.twoPow 128 j ∧ ((h.can[k]).word j 3).bits 29 27 = 2 ∧ h.bit (F.CAN_FLAG_TX k) = true ∧ (∀ i : Fin 16,
    i ≠ k → h.can[i] = s.hub.can[i]) ∧ h = { s.hub with fields := h.fields, hw := h.hw, can := h.can, out := h.out }
    ∧ SameRegs s.hub h [F.CAN_FLAG_TX k]) ∧
  (∀ (k : Fin 16) (j : Fin 128) (s : State), s.hub.canSt k = canIDLE → (s.hub.can[k]).bad = [] →
    (s.hub.can[k]).objenNext = none → s.hub.bit (F.CAN_CTL_LISTEN k) = false → s.hub.bit (F.CAN_CTL_LOOP k) = false
    → s.hub.canTaken k 0 = false → s.hub.drives → s.hub.canPick k = some j → Runs (.canSof k) s fun h => h.canSt k =
    canTRANSMIT ∧ (h.can[k]).att = some { obj := j, cancelled := false } ∧ h.out = .canFrame k (s.hub.canFrameOf k
    j) :: s.hub.out ∧ (∀ i : Fin 16, i ≠ k → h.can[i] = s.hub.can[i]) ∧ h =
    { s.hub with fields := h.fields, hw := h.hw, can := h.can, out := h.out } ∧ SameRegs s.hub h [F.CAN_STAT_STATE
    k]) ∧
  (∀ (k : Fin 16) (s : State), s.hub.canSt k = canIDLE → (s.hub.can[k]).bad = [] → (s.hub.can[k]).objenNext = none →
    (s.hub.can[k]).txreq = 0 → s.hub.canDeaf k = false → Runs (.canSof k) s fun h => h.canSt k = canRECEIVE ∧
    (h.can[k]).sof = ((s.hub.reed[canCluster k]).ctr + s.hub.canSample k) % 2 ^ 64 ∧ (∀ i : Fin 16, i ≠ k → h.can[i]
    = s.hub.can[i]) ∧ h = { s.hub with fields := h.fields, hw := h.hw, can := h.can } ∧ SameRegs s.hub h
    [F.CAN_STAT_STATE k]) ∧
  (∀ (k : Fin 16) (at_ : Attempt) (s : State), s.hub.canSt k = canTRANSMIT → (s.hub.can[k]).att = some at_ →
    at_.cancelled = false → ((s.hub.can[k]).word at_.obj 0).getLsbD 26 = false → Runs (.canArbLost k) s fun h =>
    h.canSt k = canRECEIVE ∧ (h.can[k]).att = none ∧ (h.can[k]).txreq = (s.hub.can[k]).txreq ∧ (∀ i : Fin 16, i ≠ k
    → h.can[i] = s.hub.can[i]) ∧ h = { s.hub with fields := h.fields, hw := h.hw, can := h.can } ∧ SameRegs s.hub h
    [F.CAN_STAT_STATE k]) ∧
  (∀ (k : Fin 16) (at_ : Attempt) (s : State), s.hub.canSt k = canTRANSMIT → (s.hub.can[k]).att = some at_ →
    at_.cancelled = false → ((s.hub.can[k]).word at_.obj 0).getLsbD 26 → Runs (.canArbLost k) s fun h => h.canSt k =
    canRECEIVE ∧ (h.can[k]).att = none ∧ (h.can[k]).txreq = (s.hub.can[k]).txreq &&& ~~~ BitVec.twoPow 128 at_.obj ∧
    ((h.can[k]).word at_.obj 3).bits 29 27 = 4 ∧ (∀ i : Fin 16, i ≠ k → h.can[i] = s.hub.can[i])) ∧
  (∀ (k : Fin 16) (at_ : Attempt) (s : State), s.hub.canSt k = canTRANSMIT → (s.hub.can[k]).att = some at_ →
    at_.cancelled = false → s.hub.bit (F.CAN_TDC_TDCE k) = false → (s.hub.can[k]).tec < 96 → (s.hub.can[k]).rec_ <
    96 → s.hub.bit (F.CAN_CTL_LOOP k) = false → (s.hub.can[k]).closing = false → Runs (.canFrameSent k) s fun h =>
    h.canSt k = canIDLE ∧ (h.can[k]).att = none ∧ (h.can[k]).tec = (s.hub.can[k]).tec - 1 ∧ (h.can[k]).txreq =
    (s.hub.can[k]).txreq &&& ~~~ BitVec.twoPow 128 at_.obj ∧ ((h.can[k]).word at_.obj 3).bits 29 27 = 1 ∧ h.bit
    (F.CAN_FLAG_TX k) = true ∧ (∀ i : Fin 16, i ≠ k → h.can[i] = s.hub.can[i])) ∧
  (∀ (k : Fin 16) (j : Fin 128) (f : CanFrame) (s : State), s.hub.canSt k = canRECEIVE → s.hub.canDeaf k = false →
    (f.fdf = true → s.hub.bit (F.CAN_CTL_FDOE k) = true) → (s.hub.can[k]).rec_ < 96 → (s.hub.can[k]).tec < 96 →
    (s.hub.can[k]).closing = false → (s.hub.can[k]).bad = [] → (s.hub.can[k]).accepts j f → (∀ i : Fin 128, i.val <
    j.val → (s.hub.can[k]).accepts i f = false) → ((s.hub.can[k]).word j 0).getLsbD 25 = false →
    (s.hub.can[k]).newdat.getLsbD j = false → f.data.length ≤ 64 → Runs (.canFrameReceived k f) s fun h => h.canSt k
    = canIDLE ∧ (h.can[k]).newdat = (s.hub.can[k]).newdat ||| BitVec.twoPow 128 j ∧ (h.can[k]).word j 1 =
    f.ident.setWidth 32 ∧ (h.can[k]).word j 3 = 1#1 ++ 0#1 ++ 0#3 ++ BitVec.ofBool f.esi ++ BitVec.ofBool f.fdf ++
    BitVec.ofBool f.brs ++ f.dlc ++ 0#4 ++ BitVec.ofNat 16 ((s.hub.can[k]).sof / 16) ∧ h.bit (F.CAN_FLAG_RX k) =
    true ∧ (h.can[k]).rec_ = (s.hub.can[k]).rec_ - 1 ∧ (∀ i : Fin 16, i ≠ k → h.can[i] = s.hub.can[i])) ∧
  (∀ (k : Fin 16) (e : CanError) (s : State), s.hub.canSt k = canRECEIVE → (s.hub.can[k]).att = none →
    (s.hub.can[k]).tec < 96 → (s.hub.can[k]).rec_ < 80 → e.dominantAfterFlag = false → (s.hub.can[k]).closing =
    false → e.passiveNoDominant = false → e.stuffInArb = false → e.dataPhase = false → Runs (.canBusError k e) s fun
    h => h.canSt k = canIDLE ∧ (h.can[k]).rec_ = (s.hub.can[k]).rec_ + 1 ∧ (h.can[k]).tec = (s.hub.can[k]).tec ∧
    h.fld (F.CAN_STAT_LEC k) = e.code.toNat ∧ (∀ i : Fin 16, i ≠ k → h.can[i] = s.hub.can[i])) ∧
  (∀ (k : Fin 16) (e : CanError) (at_ : Attempt) (s : State), s.hub.canSt k = canTRANSMIT → (s.hub.can[k]).att =
    some at_ → at_.cancelled = false → ((s.hub.can[k]).word at_.obj 0).getLsbD 26 = false → (s.hub.can[k]).tec < 80
    → (s.hub.can[k]).rec_ < 96 → e.ctrlOrData = false → (s.hub.can[k]).closing = false → e.passiveNoDominant = false
    → e.stuffInArb = false → e.dataPhase = false → Runs (.canBusError k e) s fun h => h.canSt k = canIDLE ∧
    (h.can[k]).tec = (s.hub.can[k]).tec + 8 ∧ (h.can[k]).att = none ∧ (h.can[k]).txreq = (s.hub.can[k]).txreq ∧
    h.fld (F.CAN_STAT_LEC k) = e.code.toNat ∧ (∀ i : Fin 16, i ≠ k → h.can[i] = s.hub.can[i]))

/-- CAN_TUNNEL_SEND sends the gathered records, as many as 2,560 bytes hold, in one TUNNEL frame and keeps the
  others; with the bridge off it sends nothing (R140). An admitted read of message RAM by the bridge answers its
  words, an admitted write of a TXREQ address sets that TXREQ bit (R142). -/
def Obligations.CanOverTheFabric : Prop :=
  (∀ (k : Fin 16) (s : State), (s.hub.can[k]).out ≠ [] → s.hub.bit F.BRG_CTL_EN → Runs (.canTunnelSend k) s fun h =>
    (h.can[k]).out = (fitRecords 2556 (s.hub.can[k]).out).2 ∧ (h.can[k]).tseq = ((s.hub.can[k]).tseq + 1) % 65536 ∧
    (∀ i : Fin 16, i ≠ k → h.can[i] = s.hub.can[i])) ∧
  (∀ (k : Fin 16) (s : State), s.hub.bit F.BRG_CTL_EN = false → Runs (.canTunnelSend k) s fun h => h = s.hub) ∧
  (∀ (rq : Request) (s : State), s.hub.admitsRq rq → rq.addr.space = 3 → (s.hub.brg.lock[rq.lane]) = {} → s.hub.fn
    rq.lane = 8 → s.hub.laneAcc rq = .canRam → (s.hub.can[s.hub.laneCan rq.lane]).bad = [] → rq.op = opREAD →
    s.hub.awaits rq → Runs (.canRamAccess rq) s fun h => (h.out.head? = some (.completion rq.req rq.tag 0 0 false
    false ((List.range (rq.len / 4)).flatMap fun i => leBytes ((s.hub.can[s.hub.laneCan rq.lane]).readWord (rq.dev %
    2 ^ 14 / 4 + i))))) ∧ h.can = s.hub.can ∧ h.lanes = s.hub.lanes) ∧
  (∀ (rq : Request) (s : State), s.hub.admitsRq rq → rq.addr.space = 3 → (s.hub.brg.lock[rq.lane]) = {} → s.hub.fn
    rq.lane = 8 → s.hub.laneAcc rq = .canTx → rq.op = opWRITE → rq.posted → (s.hub.can[s.hub.laneCan
    rq.lane]).txreq.getLsbD (rq.dev % 128) = false → (s.hub.can[s.hub.laneCan rq.lane]).objen.getLsbD (rq.dev % 128)
    → s.hub.canAsleep (s.hub.laneCan rq.lane) = false → Runs (.canTxreqAccess rq) s fun h => (h.can[s.hub.laneCan
    rq.lane]).txreq = (s.hub.can[s.hub.laneCan rq.lane]).txreq ||| BitVec.twoPow 128 (rq.dev % 128) ∧ h.lanes =
    s.hub.lanes)

/-- GNO_COMMIT sets GO; a second write while GO reads 1 changes nothing (R8, R145). At an apply tick, every 8
  CK_LANE ticks, GO falls, the step is added to the time and its registers return to 0, FLAG.STEP sets when it was
  not 0, and every present cluster is anchored at its counter and the new time with rate 40 times the increment
  (R145, R153). GNO_NOW_NS answers the nanoseconds and latches the reader's shadow; GNO_NOW_SL and SH answer that
  shadow (R148). GNO_PAIR sets GO; at the next apply tick the strobe latches the Gnomon and every counter and clears
  GO, and it does nothing elsewhere (R145, R171). -/
def Obligations.GnomonCommitPairAndReads : Prop :=
  (∀ (a : Access)  (s : State), s.hub.lets a 0x6001C → s.hub.bit F.GNO_COMMIT_GO = false → Runs (.gnoCommit a) s fun
    h => h.bit F.GNO_COMMIT_GO = true ∧ h.gno = { s.hub.gno with goTick := s.hub.now } ∧ h =
    { s.hub with fields := h.fields, hw := h.hw, staged := h.staged, snap := h.snap, gno := h.gno } ∧ SameRegs s.hub
    h [F.GNO_COMMIT_GO]) ∧
  (∀ (a : Access)  (s : State), s.hub.lets a 0x6001C → s.hub.bit F.GNO_COMMIT_GO → Runs (.gnoCommit a) s fun h => h
    = s.hub) ∧
  (∀ (c : Fin 8) (s : State), s.hub.bit F.GNO_COMMIT_GO → s.hub.gno.goTick ≠ s.hub.now → s.hub.now % 8 = 0 →
    s.hub.snap = [] → s.hub.clusterPresent c → Runs (.gnoApply) s fun h => h.bit F.GNO_COMMIT_GO = false ∧ h.gno.t =
    GTime.ofInt ((s.hub.gno.t.units : Int) + s.hub.gnoStep * 2 ^ 24) ∧ h.fld F.GNO_STEPN_NS = 0 ∧ h.fld
    F.GNO_STEPS_SEC = 0 ∧ (h.reed[c]).anc = { n := s.hub.ctr c, g := h.gno.t, rate := 40 * s.hub.incr } ∧ (h.fld
    F.GNO_CVALID_VALID).testBit c = true ∧ (s.hub.gnoStep ≠ 0 → h.bit F.GNO_FLAG_STEP = true) ∧ h.lanes =
    s.hub.lanes) ∧
  (∀ (s : State), (s.hub.bit F.GNO_COMMIT_GO = false ∨ s.hub.gno.goTick = s.hub.now ∨ s.hub.now % 8 ≠ 0) → Runs
    (.gnoApply) s fun h => h = s.hub) ∧
  (∀ (a : Access)  (s : State), s.hub.lets a 0x60000 false → isRemote a = false → Runs (.gnoNowRead a) s fun h =>
    h.gno = { s.hub.gno with shadow := s.hub.gno.shadow.set a.req.toNat s.hub.gno.t a.req.isLt } ∧ h.out = .regRead
    a 0x60000 (BitVec.ofNat 32 s.hub.gno.t.ns) :: s.hub.out ∧ h = { s.hub with gno := h.gno, out := h.out }) ∧
  (∀ (a : Access)  (s : State), s.hub.lets a 0x60000 false → isRemote a → Runs (.gnoNowRead a) s fun h => h.gno.t =
    s.hub.gno.t ∧ h.gno.remote.head? = some (a.node, a.mem, s.hub.gno.t) ∧ h.gno.remote.length ≤ 16 ∧ h.out =
    .regRead a 0x60000 (BitVec.ofNat 32 s.hub.gno.t.ns) :: s.hub.out ∧ h =
    { s.hub with gno := h.gno, out := h.out }) ∧
  (∀ (a : Access) (g : GTime) (s : State), s.hub.lets a 0x60004 false → s.hub.shadowOf a = some g → Runs
    (.gnoShadowRead a false) s fun h => h = s.hub.emit (.regRead a 0x60004 (BitVec.ofNat 32 (g.sec % 2 ^ 32)))) ∧
  (∀ (a : Access) (g : GTime) (s : State), s.hub.lets a 0x60008 false → s.hub.shadowOf a = some g → Runs
    (.gnoShadowRead a true) s fun h => h = s.hub.emit (.regRead a 0x60008 (BitVec.ofNat 32 (g.frac / 256 * 2 ^ 16 +
    g.sec / 2 ^ 32)))) ∧
  (∀ (a : Access)  (s : State), s.hub.lets a 0x60030 → s.hub.bit F.GNO_PAIR_GO → Runs (.gnoPair a) s fun h => h =
    s.hub) ∧
  (∀ (a : Access)  (s : State), s.hub.lets a 0x60030 → s.hub.bit F.GNO_PAIR_GO = false → Runs (.gnoPair a) s fun h
    => h.bit F.GNO_PAIR_GO = true ∧ h.gno = { s.hub.gno with pairAt := s.hub.now } ∧ h =
    { s.hub with fields := h.fields, hw := h.hw, gno := h.gno } ∧ SameRegs s.hub h [F.GNO_PAIR_GO]) ∧
  (∀ (c : Fin 8) (s : State), s.hub.bit F.GNO_PAIR_GO → s.hub.gno.pairAt ≠ s.hub.now → s.hub.now % 8 = 0 →
    s.hub.clusterPresent c → Runs (.gnoPairLatch) s fun h => h.bit F.GNO_PAIR_GO = false ∧ h.fld F.GNO_PAIR_NS_NS =
    s.hub.gno.t.ns % 2 ^ 30 ∧ h.fld (F.GNO_PCNT_L_CNT c) = s.hub.ctr c % 2 ^ 32 ∧ h.fld (F.GNO_PCNT_H_CNT c) =
    s.hub.ctr c / 2 ^ 32 % 2 ^ 32 ∧ h = { s.hub with fields := h.fields, hw := h.hw }) ∧
  (∀ (s : State), (s.hub.bit F.GNO_PAIR_GO = false ∨ s.hub.gno.pairAt = s.hub.now ∨ s.hub.now % 8 ≠ 0) → Runs
    (.gnoPairLatch) s fun h => h = s.hub)

/-- A write of a conversion register but RATE goes into the cluster's write shadow alone; a write of RATE puts the
  shadow with that rate in force and marks the cluster valid (R154, R155). Reading ACNTL answers the low half and
  latches the high (R171). A pulse generator whose edge has come drives its output, on a rising edge with EVENT set
  telling the subscribed cores (R163); routed, it inserts the edge into the action queue of its lane's cluster 10 us
  ahead (R163). A PPS edge is stamped with the Gnomon two ticks back, and a second one before FLAG.PPSIN is cleared
  sets PPSIN_OVF (R165). -/
def Obligations.AnchorsPulsesAndPps : Prop :=
  (∀ (a : Access) (c : Fin 8) (which : Fin 5) (v : W32) (s : State), s.hub.lets a (reedBase c + 0x108 + 4 * which) →
    Runs (.anchorShadowWrite a c which v) s fun h => (h.reed[c]).shadow = (s.hub.reed[c]).shadow.replace which v ∧
    (h.reed[c]).anc = (s.hub.reed[c]).anc ∧ (h.reed[c]).ctr = (s.hub.reed[c]).ctr ∧ (∀ d : Fin 8, d ≠ c → h.reed[d]
    = s.hub.reed[d]) ∧ h = { s.hub with reed := h.reed }) ∧
  (∀ (a : Access) (c : Fin 8) (v : W32) (s : State), s.hub.lets a (reedBase c + 0x11C) → Runs (.anchorApply a c v) s
    fun h => (h.reed[c]).anc = { (s.hub.reed[c]).shadow with rate := v.toNat } ∧ (h.fld F.GNO_CVALID_VALID).testBit
    c = true ∧ (∀ d : Fin 8, d ≠ c → h.reed[d] = s.hub.reed[d]) ∧ h =
    { s.hub with fields := h.fields, hw := h.hw, reed := h.reed } ∧ SameRegs s.hub h [F.GNO_CVALID_VALID]) ∧
  (∀ (a : Access) (c : Fin 8) (s : State), s.hub.lets a (reedBase c + 0x100) false → Runs (.acntlRead a c) s fun h
    => (h.reed[c]).hi = BitVec.ofNat 32 ((s.hub.reed[c]).ctr / 2 ^ 32) ∧ h.out = .regRead a (reedBase c + 0x100)
    (BitVec.ofNat 32 ((s.hub.reed[c]).ctr % 2 ^ 32)) :: s.hub.out ∧ (∀ d : Fin 8, d ≠ c → h.reed[d] = s.hub.reed[d])
    ∧ h = { s.hub with reed := h.reed, out := h.out }) ∧
  (∀ (g : Fin 4) (rising : Bool) (t : Nat) (s : State), s.hub.bit (F.GNO_PG_CTL_EN g) → (s.hub.gno.pg[g]).next =
    some t → t ≤ s.hub.gno.t.nanos → (s.hub.gno.pg[g]).high ≠ rising → s.hub.bit (F.GNO_PG_CTL_EVENT g) = false →
    Runs (.pulseEdge g rising) s fun h => (h.gno.pg[g]).high = rising ∧ (h.gno.pg[g]).next = s.hub.pgAfter g rising
    t s.hub.gno.t.nanos ∧ h.gno.t = s.hub.gno.t ∧ (∀ k : Fin 4, k ≠ g → h.gno.pg[k] = s.hub.gno.pg[k]) ∧ h =
    { s.hub with fields := h.fields, hw := h.hw, gno := h.gno, out := h.out } ∧ SameRegs s.hub h
    [F.GNO_FLAG_PULSE_LATE]) ∧
  (∀ (g : Fin 4) (rising : Bool) (t : Nat) (n : Fin 64) (s : State), s.hub.bit (F.GNO_PG_CTL_EN g) → s.hub.bit
    (F.GNO_PG_CTL_ROUTE g) → (s.hub.gno.pg[g]).rNext = some t → t ≤ s.hub.gno.t.nanos + 10000 →
    (s.hub.gno.pg[g]).rHigh ≠ rising → s.hub.fld (F.GNO_PG_CTL_LANE g) = n.val → s.hub.clusterUp (clusterOf n) →
    (s.hub.reed[clusterOf n]).q = [] → Runs (.pulseRouteInsert g rising) s fun h => (h.reed[clusterOf n]).q.length =
    1 ∧ (((h.reed[clusterOf n]).q.all fun e => e.v == b2n rising && e.src == .bridge && e.pin == n.val % 8 * 3 +
    s.hub.fld (F.GNO_PG_CTL_PIN g) % 3) = true) ∧ (h.gno.pg[g]).rHigh = rising ∧ (∀ d : Fin 8, d ≠ clusterOf n →
    h.reed[d] = s.hub.reed[d]) ∧ h = { s.hub with fields := h.fields, hw := h.hw, gno := h.gno, reed := h.reed }) ∧
  (∀ (s : State), s.hub.bit F.GNO_FLAG_PPSIN = false → Runs (.ppsInEdge) s fun h => h.bit F.GNO_FLAG_PPSIN = true ∧
    h.fld F.GNO_PPSIN_NS_NS = (GTime.ofInt ((s.hub.gno.t.units : Int) - (2 * s.hub.incr : Nat))).ns % 2 ^ 30 ∧ h.fld
    F.GNO_PPSIN_SL_SEC = (GTime.ofInt ((s.hub.gno.t.units : Int) - (2 * s.hub.incr : Nat))).sec % 2 ^ 32 ∧ h =
    { s.hub with fields := h.fields, hw := h.hw, out := h.out } ∧ SameRegs s.hub h [F.GNO_FLAG_PPSIN,
    F.GNO_PPSIN_NS_NS, F.GNO_PPSIN_SL_SEC, F.GNO_PPSIN_SH_FRAC, F.GNO_PPSIN_SH_SEC]) ∧
  (∀ (s : State), s.hub.bit F.GNO_FLAG_PPSIN → Runs (.ppsInEdge) s fun h => h.bit F.GNO_FLAG_PPSIN_OVF = true ∧
    h.fld F.GNO_PPSIN_NS_NS = (GTime.ofInt ((s.hub.gno.t.units : Int) - (2 * s.hub.incr : Nat))).ns % 2 ^ 30 ∧ h =
    { s.hub with fields := h.fields, hw := h.hw, out := h.out })

/-- A posted TIMED write of one record that passes R158 and whose time is not past the guard puts one bridge entry
  for its pin into the cluster's action queue, due at its time on the counter (R157, R159). A record whose time is
  past is dropped and counted in LATEDROP, or, where its window says so, queued at once and counted in LATEEXEC,
  each with FLAG.TW_LATE (R159). A refused record is counted and flagged and queues nothing (R158). A frame that
  breaks R161 queues nothing. In the queue only bridge entries are added (R157). -/
def Obligations.TimedWrites : Prop :=
  (∀ (f : Frame) (w0 w1 : W32) (s : State), f.hdr.typ = tTIMED → f.hdr.np = false → s.hub.brgOn → s.hub.paired =
    false → (requestOf f).op = opWRITE → (requestOf f).len = 8 → f.pay.length = 12 → f.word 1 = w0 → f.word 2 = w1 →
    timeNs f.hdr.adr < 1000000000 → s.hub.timedRefuse ({ requestOf f with addr := s.hub.laneAddr (w0.bits 31 26) })
    w0 (s.hub.recTime f.hdr.adr w1) = none → ¬ (signed 64 (((s.hub.reed[clusterOf (recLane w0)]).anc.toTick
    (s.hub.recTime f.hdr.adr w1)).1 + 2 ^ 64 - ((s.hub.reed[clusterOf (recLane w0)]).ctr + s.hub.fld
    F.GNO_TWCFG_GUARD) % 2 ^ 64) < 0) → Runs (.timed f) s fun h => (h.reed[clusterOf (recLane w0)]).q =
    (s.hub.reed[clusterOf (recLane w0)]).q ++
    [{ due := ((s.hub.reed[clusterOf (recLane w0)]).anc.toTick (s.hub.recTime f.hdr.adr w1)).1, tap := ((s.hub.reed[clusterOf (recLane w0)]).anc.toTick (s.hub.recTime f.hdr.adr w1)).2, pin := (recLane w0).val % 8 * 3 + w0.bits 25 24, v := w0.bits 23 22, src := .bridge, ready := s.hub.now + 1, idx := (s.hub.reed[clusterOf (recLane w0)]).seq }]
    ∧ h.fld F.GNO_TW_OK = min (s.hub.fld F.GNO_TW_OK + 1) (2 ^ F.GNO_TW_OK.w - 1) ∧ h.lanes = s.hub.lanes ∧ (∀ d :
    Fin 8, d ≠ clusterOf (recLane w0) → h.reed[d] = s.hub.reed[d])) ∧
  (∀ (f : Frame) (w0 w1 : W32) (s : State), f.hdr.typ = tTIMED → f.hdr.np = false → s.hub.brgOn → s.hub.paired =
    false → (requestOf f).op = opWRITE → (requestOf f).len = 8 → f.pay.length = 12 → f.word 1 = w0 → f.word 2 = w1 →
    timeNs f.hdr.adr < 1000000000 → s.hub.timedRefuse ({ requestOf f with addr := s.hub.laneAddr (w0.bits 31 26) })
    w0 (s.hub.recTime f.hdr.adr w1) = none → signed 64 (((s.hub.reed[clusterOf (recLane w0)]).anc.toTick
    (s.hub.recTime f.hdr.adr w1)).1 + 2 ^ 64 - ((s.hub.reed[clusterOf (recLane w0)]).ctr + s.hub.fld
    F.GNO_TWCFG_GUARD) % 2 ^ 64) < 0 → s.hub.timedWin ({ requestOf f with addr := s.hub.laneAddr (w0.bits 31 26) })
    = some true → Runs (.timed f) s fun h => (h.reed[clusterOf (recLane w0)]).q = (s.hub.reed[clusterOf (recLane
    w0)]).q ++
    [{ due := (s.hub.reed[clusterOf (recLane w0)]).ctr, tap := 0, pin := (recLane w0).val % 8 * 3 + w0.bits 25 24, v := w0.bits 23 22, src := .bridge, ready := s.hub.now + 1, idx := (s.hub.reed[clusterOf (recLane w0)]).seq }]
    ∧ h.bit F.GNO_FLAG_TW_LATE = true ∧ h.fld F.GNO_TW_LATEEXEC = min (s.hub.fld F.GNO_TW_LATEEXEC + 1) (2 ^
    F.GNO_TW_LATEEXEC.w - 1) ∧ h.lanes = s.hub.lanes ∧ (∀ d : Fin 8, d ≠ clusterOf (recLane w0) → h.reed[d] =
    s.hub.reed[d])) ∧
  (∀ (f : Frame) (w0 w1 : W32) (s : State), f.hdr.typ = tTIMED → f.hdr.np = false → s.hub.brgOn → s.hub.paired =
    false → (requestOf f).op = opWRITE → (requestOf f).len = 8 → f.pay.length = 12 → f.word 1 = w0 → f.word 2 = w1 →
    timeNs f.hdr.adr < 1000000000 → s.hub.timedRefuse ({ requestOf f with addr := s.hub.laneAddr (w0.bits 31 26) })
    w0 (s.hub.recTime f.hdr.adr w1) = none → signed 64 (((s.hub.reed[clusterOf (recLane w0)]).anc.toTick
    (s.hub.recTime f.hdr.adr w1)).1 + 2 ^ 64 - ((s.hub.reed[clusterOf (recLane w0)]).ctr + s.hub.fld
    F.GNO_TWCFG_GUARD) % 2 ^ 64) < 0 → s.hub.timedWin ({ requestOf f with addr := s.hub.laneAddr (w0.bits 31 26) })
    = some false → Runs (.timed f) s fun h => h.bit F.GNO_FLAG_TW_LATE = true ∧ h.fld F.GNO_TW_LATEDROP = min
    (s.hub.fld F.GNO_TW_LATEDROP + 1) (2 ^ F.GNO_TW_LATEDROP.w - 1) ∧ h.reed = s.hub.reed ∧ h.lanes = s.hub.lanes) ∧
  (∀ (f : Frame) (w0 w1 : W32) (st : Nat) (s : State), f.hdr.typ = tTIMED → f.hdr.np = false → s.hub.brgOn →
    s.hub.paired = false → (requestOf f).op = opWRITE → (requestOf f).len = 8 → f.pay.length = 12 → f.word 1 = w0 →
    f.word 2 = w1 → timeNs f.hdr.adr < 1000000000 → s.hub.timedRefuse
    ({ requestOf f with addr := s.hub.laneAddr (w0.bits 31 26) }) w0 (s.hub.recTime f.hdr.adr w1) = some st → st ≠
    stBACKOFF → Runs (.timed f) s fun h => h.reed = s.hub.reed ∧ h.bit F.GNO_FLAG_TW_REFUSED = true ∧ (∀ m : Fin 64,
    (h.lanes[m]).tx = (s.hub.lanes[m]).tx)) ∧
  (∀ (f : Frame) (s : State), f.hdr.typ = tTIMED → 1000000000 ≤ timeNs f.hdr.adr → Runs (.timed f) s fun h => h.reed
    = s.hub.reed ∧ h.lanes = s.hub.lanes)

/-- A delay request-response message on a ring port is dropped and counted; another PTP frame for this hub is queued
  for the Host port with its receive stamp (R166, R275); one of another destination goes on to the other ring port
  with HOPS less 1, and is counted in HOPDROP where HOPS is 0. A transmit stamp of an enabled port enters its queue
  of 16, the time within 4 ns of the Gnomon; a full queue sets OVF and counts (R167, R169). TSQ_POP removes the
  oldest entry (R171). A pending two-step correction that expires is forgotten (R168). -/
def Obligations.PtpFramesAndStamps : Prop :=
  (∀ (port : Fin 4) (f : Frame) (s : State), port.val < 2 → (ptpType f.pay = 1 ∨ ptpType f.pay = 9) → Runs (.ptp
    port f) s fun h => (h.ts[port]).drop = (s.hub.ts[port]).drop + 1 ∧ (h.ts[port]).q = (s.hub.ts[port]).q ∧ h =
    { s.hub with ts := h.ts } ∧ (∀ k : Fin 4, k ≠ port → h.ts[k] = s.hub.ts[k])) ∧
  (∀ (port : Fin 4) (f : Frame) (s : State), f.hdr.dnode = 0 → (port.val < 2 → ptpType f.pay ≠ 1 ∧ ptpType f.pay ≠
    9) → Runs (.ptp port f) s fun h => h = ((s.hub.rxStamp port).1.enqueue 4 ⟨port, by omega⟩ f).1.ptpQueued
    (s.hub.rxStamp port).2) ∧
  (∀ (port : Fin 4) (f : Frame) (s : State), port.val < 2 → ptpType f.pay ≠ 1 → ptpType f.pay ≠ 9 → f.hdr.dnode ≠ 0
    → f.hdr.dnode.toNat ≠ s.hub.node → f.hdr.dnode ≠ 255 → (s.hub.node ≠ 0 → f.hdr.snode.toNat ≠ s.hub.node) →
    f.hdr.hops ≠ 0 → Runs (.ptp port f) s fun h => h = (s.hub.rxStamp port).1.ptpTransit port (if port = 0 then 1
    else 0) { f with hdr := { f.hdr with hops := f.hdr.hops - 1 } } (s.hub.rxStamp port).2 true) ∧
  (∀ (port : Fin 4) (f : Frame) (s : State), port.val < 2 → ptpType f.pay ≠ 1 → ptpType f.pay ≠ 9 → f.hdr.dnode ≠ 0
    → f.hdr.dnode.toNat ≠ s.hub.node → f.hdr.dnode ≠ 255 → (s.hub.node ≠ 0 → f.hdr.snode.toNat ≠ s.hub.node) →
    f.hdr.hops = 0 → Runs (.ptp port f) s fun h => h.sw = s.hub.sw ∧ h.bit F.RNG_FLAG_HOPDROP = true ∧ h.ring =
    s.hub.ring) ∧
  (∀ (port : Fin 4) (seq : BitVec 16) (dom : Byte) (typ : BitVec 4) (s : State), s.hub.bit (F.TS_CTL_EN port) →
    (s.hub.ts[port]).q.length < 16 → Runs (.ptpTxStamp port seq dom typ) s fun h => (h.ts[port]).q.length =
    (s.hub.ts[port]).q.length + 1 ∧ ((∃ e, (h.ts[port]).q = (s.hub.ts[port]).q ++ [e] ∧ e.seq = seq ∧ e.dom = dom ∧
    e.typ = typ ∧ ∃ d : Nat, d ≤ 8 * 2 ^ 24 ∧ e.t = GTime.ofInt ((s.hub.gno.t.units : Int) + (d : Nat) - (4 * 2 ^ 24
    : Nat)))) ∧ (∀ k : Fin 4, k ≠ port → h.ts[k] = s.hub.ts[k]) ∧ h =
    { s.hub with ts := h.ts, freeCtr := h.freeCtr }) ∧
  (∀ (port : Fin 4) (seq : BitVec 16) (dom : Byte) (typ : BitVec 4) (s : State), s.hub.bit (F.TS_CTL_EN port) → 16 ≤
    (s.hub.ts[port]).q.length → Runs (.ptpTxStamp port seq dom typ) s fun h => h.ts = s.hub.ts ∧ h.bit
    (F.TS_TSQ_STAT_OVF port) = true ∧ h = { s.hub with fields := h.fields, hw := h.hw } ∧ SameRegs s.hub h
    [F.TS_TSQ_STAT_OVF port, F.TS_TSQ_OVFCNT port]) ∧
  (∀ (a : Access) (port : Fin 4) (s : State), s.hub.lets a (tsBase port + 0x20) → Runs (.tsqPop a port) s fun h =>
    (h.ts[port]).q = (s.hub.ts[port]).q.drop 1 ∧ (∀ k : Fin 4, k ≠ port → h.ts[k] = s.hub.ts[k]) ∧ h =
    { s.hub with ts := h.ts }) ∧
  (∀ (port : Fin 4) (dom : Byte) (seq : BitVec 16) (s : State), Runs (.twoStepExpire port dom seq) s fun h =>
    ((h.ts[port]).fup = (s.hub.ts[port]).fup.filter fun e => !(e.1 == dom && e.2.1 == seq)) ∧ (h.ts[port]).q =
    (s.hub.ts[port]).q ∧ (∀ k : Fin 4, k ≠ port → h.ts[k] = s.hub.ts[k]) ∧ h = { s.hub with ts := h.ts })

/-- Ten seconds after the entry or its last retest, a retest that holds both patterns frees the entry of a
  frame-pool tile and leaves the second pattern, 0xAA, in all its bytes with a good check; one that fails sets FAIL,
  counts a try, and the third makes the entry permanent (R182). A scrub step verifies its tile and goes on to the
  next; a good tile changes nothing else; a bad one goes into quarantine, FAIL sets and FAILCNT counts (R178-R185);
  a step that yields changes nothing (R184). TILE_INJECT inverts bit 0 of the stored check of one tile alone (R200).
  -/
def Obligations.TileMemoryCommands : Prop :=
  (∀ (i : Fin 64) (e : QEnt) (s : State), s.hub.tl.quar[i] = some e → e.part = 0 → e.perm = false → e.at_ +
    4000000000 ≤ s.hub.now → Runs (.quarantineRetest i none) s fun h => h.tl.quar[i] = none ∧ h.tl.bytes e.tile =
    List.replicate 256 0xAA ∧ h.tl.good e.tile = true ∧ h.tl.used = s.hub.tl.used ∧ h = { s.hub with tl := h.tl } ∧
    (∀ k : Fin 64, k ≠ i → h.tl.quar[k] = s.hub.tl.quar[k])) ∧
  (∀ (i : Fin 64) (b : Bool) (e : QEnt) (s : State), s.hub.tl.quar[i] = some e → e.part = 0 → e.perm = false → e.at_
    + 4000000000 ≤ s.hub.now → Runs (.quarantineRetest i (some b)) s fun h => h.tl.quar[i] = some
    { e with tries := e.tries + 1, perm := decide (3 ≤ e.tries + 1), at_ := s.hub.now } ∧ h.bit F.TILE_FLAG_FAIL =
    true ∧ h.tl.used = s.hub.tl.used ∧ h.lanes = s.hub.lanes ∧ (∀ k : Fin 64, k ≠ i → h.tl.quar[k] =
    s.hub.tl.quar[k])) ∧
  (∀ (s : State), s.hub.bit F.TILE_CTL_SCRUB_EN → s.hub.tl.good s.hub.tl.scrub → s.hub.tl.scrub + 1 < 16384 → Runs
    (.scrubStep false) s fun h => h = { s.hub with tl := { s.hub.tl with scrub := s.hub.tl.scrub + 1 } }) ∧
  (∀ (k : Fin 64) (s : State), s.hub.bit F.TILE_CTL_SCRUB_EN → s.hub.tl.good s.hub.tl.scrub = false →
    s.hub.tl.quarantined s.hub.tl.scrub = false → s.hub.tl.scrub + 1 < 16384 → s.hub.tl.quar[k] = none → (∀ j : Fin
    64, j.val < k.val → (s.hub.tl.quar[j]).isSome) → Runs (.scrubStep false) s fun h => h.tl.scrub = s.hub.tl.scrub
    + 1 ∧ h.tl.mem = s.hub.tl.mem ∧ h.tl.quarantined s.hub.tl.scrub = true ∧ h.bit F.TILE_FLAG_FAIL = true) ∧
  (∀ (s : State), Runs (.scrubStep true) s fun h => h = s.hub) ∧
  (∀ (a : Access) (v : W32) (s : State), s.hub.lets a 0xA803C → Runs (.tileInject a v) s fun h => h.tl.check (v.bits
    13 0) = s.hub.tl.check (v.bits 13 0) ^^^ 1#32 ∧ h.tl.mem = s.hub.tl.mem ∧ h.fld F.TILE_INJECT_TILE = v.bits 13 0
    ∧ h = { s.hub with fields := h.fields, hw := h.hw, tl := h.tl } ∧ SameRegs s.hub h [F.TILE_INJECT_TILE] ∧ (∀ i :
    Nat, i ≠ v.bits 13 0 → h.tl.check i = s.hub.tl.check i))

/-- SWITCH_ENABLE with legal partitions and powered banks runs the switch and clears CFG_ERR, otherwise it sets
  CFG_ERR alone (R186, R409). A good frame of the Host, Local or Steward port that its queue admits is stored in
  free tiles and appended to the queue of its egress port and class; a bad one is never queued (R190, R191).
  FRAME_EGRESS of a link sends a ready TC7 head whose tiles are good, removes it and frees its tiles (R193). A
  spilled frame's write puts its tiles and checks into the lowest free slots of the spill region (the model's choice
  of slots, log entry 125) and frees the tiles; a refill puts the slots' contents and checks back into free tiles
  (R194-R197). With the switch off a frame is dropped and counted (log entry 13). -/
def Obligations.SwitchQueues : Prop :=
  (∀ (a : Access)  (s : State), s.hub.lets a 0xA0000 → s.hub.bit F.SWC_CTL_EN = false → s.hub.swcLegal → s.hub.domOn
    4 → s.hub.domOn 5 → s.hub.domOn 6 → s.hub.domOn 7 → Runs (.switchEnable a) s fun h => h.bit F.SWC_CTL_EN = true
    ∧ h.bit F.SWC_STAT_RUN = true ∧ h.bit F.SWC_STAT_CFG_ERR = false ∧ h =
    { s.hub with fields := h.fields, hw := h.hw } ∧ SameRegs s.hub h [F.SWC_CTL_EN, F.SWC_STAT_RUN,
    F.SWC_STAT_CFG_ERR]) ∧
  (∀ (a : Access)  (s : State), s.hub.lets a 0xA0000 → s.hub.bit F.SWC_CTL_EN = false → s.hub.swcLegal = false →
    Runs (.switchEnable a) s fun h => h.bit F.SWC_CTL_EN = false ∧ h.bit F.SWC_STAT_CFG_ERR = true ∧ h =
    { s.hub with fields := h.fields, hw := h.hw } ∧ SameRegs s.hub h [F.SWC_STAT_CFG_ERR]) ∧
  (∀ (port : Fin 7) (f : Frame) (src : Nat) (s : State), 4 ≤ port.val → f.hdr.len.toNat = f.pay.length →
    s.hub.portTo f.hdr.dnode f.hdr.dmem = none → s.hub.bit F.SWC_CTL_EN → s.hub.sw.spill.getLsbD (qOf 5
    f.hdr.tc.toNat) = false → s.hub.maySpill f.hdr.tc.toNat = false → s.hub.admitRule (qOf 5 f.hdr.tc.toNat)
    f.hdr.tc.toNat (tilesFor f.pay.length) = some src → tilesFor f.pay.length ≤ s.hub.poolFree → Runs
    (.frameReceived port f .good) s fun h => ((∃ e, h.sw.q[qOf 5 f.hdr.tc.toNat] = s.hub.sw.q[qOf 5 f.hdr.tc.toNat]
    ++ [e] ∧ e.hdr = f.hdr ∧ e.len = f.pay.length ∧ e.ing = port ∧ e.from_ = src)) ∧ (∀ k : Fin 56, k ≠ qOf 5
    f.hdr.tc.toNat → h.sw.q[k] = s.hub.sw.q[k])) ∧
  (∀ (port : Fin 7) (f : Frame) (s : State), 4 ≤ port.val → Runs (.frameReceived port f .bad) s fun h => h = s.hub)
    ∧
  (∀ (l : Fin 4) (f : QFrame) (r : List QFrame) (s : State), s.hub.linkIsUp l → s.hub.fld (F.X_STAT_PAUSED_RX l) = 0
    → s.hub.bit (F.X_GCL_CTL_EN l) = false → s.hub.sw.q[qOf (portOf l) 7] = f :: r → f.spill = none → f.copying =
    false → f.hdr.tc = 7 → f.hdr.typ ≠ tPTP → s.hub.lossless 7 = false → (f.tiles.all fun i => s.hub.tl.good i &&
    !s.hub.tl.quarantined i) → Runs (.frameEgress (portOf l)) s fun h => h.sw.q[qOf (portOf l) 7] = r ∧ h.out =
    .frame (portOf l) (s.hub.frameOf f) false :: s.hub.out ∧ (h.tl.used = s.hub.tl.used.filter fun i =>
    !f.tiles.contains i) ∧ (∀ k : Fin 56, k ≠ qOf (portOf l) 7 → h.sw.q[k] = s.hub.sw.q[k])) ∧
  (∀ (q : Fin 56) (f : QFrame) (s : State), s.hub.sw.q[q] = [f] → f.copying → s.hub.lossless f.hdr.tc.toNat = false
    → Runs (.spillWriteDone q) s fun h => h.sw.q[q] =
    [{ f with tiles := [], copying := false, spill := some (s.hub.freeSlots f.tiles.length) }] ∧ (h.dram =
    ((f.tiles.zip (s.hub.freeSlots f.tiles.length)).foldl (fun g p => g.slotWrite p.2 (s.hub.tl.bytes p.1,
    s.hub.tl.check p.1)) s.hub).dram) ∧ (h.tl.used = s.hub.tl.used.filter fun i => !f.tiles.contains i) ∧ (∀ k : Fin
    56, k ≠ q → h.sw.q[k] = s.hub.sw.q[k])) ∧
  (∀ (q : Fin 56) (f : QFrame) (sl i : Nat) (s : State), s.hub.sw.q[q] = [f] → f.spill = some [sl] → f.copying =
    false → f.tiles = [] → s.hub.fld F.DRM_REFILL_LO_TILES ≠ 0 → 1 ≤ s.hub.sharedFree → 1 ≤ s.hub.poolFree →
    Hub.findTiles s.hub 16384 1 0 = [i] → Runs (.refill q []) s fun h => h.sw.q[q] =
    [{ f with tiles := [i], spill := none, from_ := 1 }] ∧ h.tl.bytes i = (s.hub.slotRead sl).1 ∧ h.tl.check i =
    (s.hub.slotRead sl).2 ∧ h.sw.spill.getLsbD q = false ∧ h.bit F.DRM_SPILLSTAT_FULL = false ∧ (∀ k : Fin 56, k ≠ q
    → h.sw.q[k] = s.hub.sw.q[k]))

/-- A non-posted request to another node takes the lowest tag free for its requester and leaves in a frame; a posted
  one leaves at once without a tag (R206). Before the join it ends DOWN and takes no tag (R29). With no tag it waits
  in the issue queue, counted, with FLAG.TAGSTALL (R207); TAG_AVAILABLE sends the one that waits. A completion with
  a final status frees its tag and is delivered; RETRY keeps the tag until the reissue, which asks again with AGAIN
  set (R204, R216); a completion nobody waits for sets STALE and changes no tag (R209). COMPLETION_TIMEOUT, BRG_CTO
  after the attempt left and with no completion of the same cycle, ends the request TIMEOUT and holds its tag, which
  TAG_HOLD_EXPIRE frees once HOLD has passed (R208, R209). -/
def Obligations.BridgeIssueAndTags : Prop :=
  (∀ (rq : Request) (tg : Fin 256) (s : State), rq.posted = false → s.hub.issueErr
    { rq with snode := 0, smem := BitVec.ofNat 2 s.hub.member, again := false } = none → s.hub.locksFull
    { rq with snode := 0, smem := BitVec.ofNat 2 s.hub.member, again := false } = false → s.hub.staysHere
    { rq with snode := 0, smem := BitVec.ofNat 2 s.hub.member, again := false } = false → s.hub.tagNow rq.req = some
    tg → Runs (.bridgeIssue rq) s fun h => h.brg.tag[tg] = .use
    { rq := { rq with snode := 0, smem := BitVec.ofNat 2 s.hub.member, again := false, tag := BitVec.ofNat 8 tg }, first := s.hub.now, at_ := s.hub.now, cto := us (max 1 (min 10000 (s.hub.fld F.BRG_CTO_US))) }
    ∧ h = Hub.send { s.hub with brg := h.brg } (s.hub.reqFrame
    { rq with snode := 0, smem := BitVec.ofNat 2 s.hub.member, again := false, tag := BitVec.ofNat 8 tg } none) ∧ (∀
    k : Fin 256, k ≠ tg → h.brg.tag[k] = s.hub.brg.tag[k])) ∧
  (∀ (rq : Request) (s : State), rq.posted → s.hub.issueErr
    { rq with snode := 0, smem := BitVec.ofNat 2 s.hub.member, again := false } = none → s.hub.locksFull
    { rq with snode := 0, smem := BitVec.ofNat 2 s.hub.member, again := false } = false → s.hub.staysHere
    { rq with snode := 0, smem := BitVec.ofNat 2 s.hub.member, again := false } = false → s.hub.brg.wait = [] → Runs
    (.bridgeIssue rq) s fun h => h = s.hub.send (s.hub.reqFrame
    { rq with snode := 0, smem := BitVec.ofNat 2 s.hub.member, again := false } none) ∧ h.brg.tag = s.hub.brg.tag) ∧
  (∀ (rq : Request) (s : State), rq.posted = false → s.hub.brgOn → s.hub.ownNode rq = false → s.hub.node = 0 →
    rq.addr.node ≠ 255 → Runs (.bridgeIssue rq) s fun h => h.out = .completion rq.req rq.tag 8 0 false false [] ::
    s.hub.out ∧ h.brg.tag = s.hub.brg.tag ∧ h.lanes = s.hub.lanes ∧ h.sw = s.hub.sw) ∧
  (∀ (rq : Request) (s : State), rq.posted = false → s.hub.issueErr
    { rq with snode := 0, smem := BitVec.ofNat 2 s.hub.member, again := false } = none → s.hub.locksFull
    { rq with snode := 0, smem := BitVec.ofNat 2 s.hub.member, again := false } = false → s.hub.tagNow rq.req = none
    → Runs (.bridgeIssue rq) s fun h => h.brg.wait = s.hub.brg.wait ++
    [{ rq := { rq with snode := 0, smem := BitVec.ofNat 2 s.hub.member, again := false }, who := .plain, timed := none }]
    ∧ h.bit F.BRG_FLAG_TAGSTALL = true ∧ h.brg.tag = s.hub.brg.tag ∧ h.sw = s.hub.sw) ∧
  (∀ (tg : Fin 256) (w : Waiting) (s : State), s.hub.brg.wait = [w] → w.rq.posted = false → s.hub.tagFor w.rq.req =
    some tg → s.hub.staysHere { w.rq with tag := BitVec.ofNat 8 tg } = false → Runs (.tagAvailable) s fun h =>
    h.brg.wait = [] ∧ h.brg.tag[tg] = .use
    { rq := { w.rq with tag := BitVec.ofNat 8 tg, snode := 0, smem := BitVec.ofNat 2 s.hub.member }, who := w.who, timed := w.timed, first := s.hub.now, at_ := s.hub.now, cto := us (max 1 (min 10000 (s.hub.fld F.BRG_CTO_US))), cplm := w.cplm }
    ∧ (∀ k : Fin 256, k ≠ tg → h.brg.tag[k] = s.hub.brg.tag[k])) ∧
  (∀ (f : Frame) (u : Tx) (s : State), f.hdr.typ = tCPL → s.hub.brg.tag[f.hdr.tag.toNat] = .use u → u.flying →
    u.rq.addr.mem = f.hdr.smem → u.rq.addr.node = f.hdr.snode → (u.who = .plain) → u.cplm = none → isLock u.rq.op =
    false → u.rq.op ≠ opUNLOCK → (f.word 0).bits 3 0 = 0 → Runs (.cpl f) s fun h => h.brg.tag[f.hdr.tag.toNat] =
    .free ∧ h.out = .completion u.rq.req u.rq.tag 0 ((f.word 0).bits 31 16) ((f.word 0).bit 9) ((f.word 0).bit 8)
    (f.pay.drop 4) :: s.hub.out ∧ (∀ k : Fin 256, k.val ≠ f.hdr.tag.toNat → h.brg.tag[k] = s.hub.brg.tag[k]) ∧ h =
    { s.hub with brg := h.brg, out := h.out }) ∧
  (∀ (f : Frame) (u : Tx) (s : State), f.hdr.typ = tCPL → s.hub.brg.tag[f.hdr.tag.toNat] = .use u → u.flying →
    u.rq.addr.mem = f.hdr.smem → u.rq.addr.node = f.hdr.snode → (u.who = .plain) → u.cplm = none → (f.word 0).bits 3
    0 = 1 → Runs (.cpl f) s fun h => h.brg.tag[f.hdr.tag.toNat] = .use
    { u with flying := false, at_ := s.hub.now + us ((f.word 0).bits 31 16), last := 1 } ∧ (∀ k : Fin 256, k.val ≠
    f.hdr.tag.toNat → h.brg.tag[k] = s.hub.brg.tag[k]) ∧ h = { s.hub with brg := h.brg }) ∧
  (∀ (f : Frame) (s : State), f.hdr.typ = tCPL → s.hub.brg.tag[f.hdr.tag.toNat] = .free → Runs (.cpl f) s fun h =>
    h.brg = s.hub.brg ∧ h.bit F.BRG_FLAG_STALE = true ∧ SameRegs s.hub h [F.BRG_STALECPL, F.BRG_FLAG_STALE]) ∧
  (∀ (tg : Fin 256) (u : Tx) (s : State), s.hub.brg.tag[tg] = .use u → u.flying = false → u.at_ ≤ s.hub.now →
    s.hub.now ≤ u.first + s.hub.brgLife → s.hub.staysHere { u.rq with again := true } = false → u.timed = none →
    Runs (.reissue tg) s fun h => h.brg.tag[tg] = .use
    { u with rq := { u.rq with again := true }, flying := true, at_ := s.hub.now, cto := us (max 1 (min 10000 (s.hub.fld F.BRG_CTO_US))) }
    ∧ h = Hub.send { s.hub with brg := h.brg } (s.hub.reqFrame { u.rq with again := true } none) ∧ (∀ k : Fin 256, k
    ≠ tg → h.brg.tag[k] = s.hub.brg.tag[k])) ∧
  (∀ (tg : Fin 256) (u : Tx) (s : State), s.hub.brg.tag[tg] = .use u → u.flying = false → u.at_ ≤ s.hub.now →
    u.first + s.hub.brgLife < s.hub.now → u.last = 1 → (u.who = .plain) → u.cplm = none → isLock u.rq.op = false →
    u.rq.op ≠ opUNLOCK → Runs (.reissue tg) s fun h => h.brg.tag[tg] = .free ∧ h.out = .completion u.rq.req u.rq.tag
    5 0 false false [] :: s.hub.out ∧ (∀ k : Fin 256, k ≠ tg → h.brg.tag[k] = s.hub.brg.tag[k]) ∧ h =
    { s.hub with brg := h.brg, out := h.out }) ∧
  (∀ (tg : Fin 256) (u : Tx) (s : State), s.hub.brg.tag[tg] = .use u → u.flying → u.at_ + u.cto ≤ s.hub.now →
    s.cplComes tg = false → (u.who = .plain) → u.cplm = none → isLock u.rq.op = false → u.rq.op ≠ opUNLOCK → Runs
    (.completionTimeout tg) s fun h => h.brg.tag[tg] = .held s.hub.now ∧ h.out.head? = some (.completion u.rq.req
    u.rq.tag 5 0 false false []) ∧ h.bit F.BRG_FLAG_CTO = true ∧ (∀ k : Fin 256, k ≠ tg → h.brg.tag[k] =
    s.hub.brg.tag[k]) ∧ h.lanes = s.hub.lanes) ∧
  (∀ (tg : Fin 256) (t : Nat) (s : State), s.hub.brg.tag[tg] = .held t → t + us (s.hub.fld F.BRG_TAGCFG_HOLD * 10) ≤
    s.hub.now → Runs (.tagHoldExpire tg) s fun h => h.brg.tag[tg] = .free ∧ (∀ k : Fin 256, k ≠ tg → h.brg.tag[k] =
    s.hub.brg.tag[k]) ∧ h = { s.hub with brg := h.brg })

/-- An admitted READ of a register answers its value, of tile memory whose tiles are good, or of DRAM, the bytes at
  its offset, and changes none of them (R32, R201). An admitted posted WRITE stores its bytes and answers nothing
  (R201, R234). A request no window admits is answered CA and serves nothing (R211). With the bridge disabled every
  request is answered DOWN (R239). A non-posted access to a device bus takes the lowest free retry slot and joins
  the lane's queue (R205, R215, R216). -/
def Obligations.ReadsAndWritesAtTheTarget : Prop :=
  (∀ (rq : Request) (v : Nat) (s : State), s.hub.admitsRq rq → s.hub.awaits rq → rq.op = opREAD → rq.addr.space = 0
    → ((s.hub.count F.BRG_NPCNT).readReg (s.hub.accessOf rq) rq.addr.off).2 = some v → Runs (.read rq) s fun h =>
    h.out.head? = some (.completion rq.req rq.tag 0 0 false false (leBytes (BitVec.ofNat 32 v)))) ∧
  (∀ (rq : Request) (s : State), s.hub.admitsRq rq → s.hub.awaits rq → rq.op = opREAD → rq.addr.space = 1 →
    ((tilesOf rq.addr.off rq.len).all fun i => s.hub.tl.good i && !s.hub.tl.quarantined i) → Runs (.read rq) s fun h
    => h.out.head? = some (.completion rq.req rq.tag 0 0 false false (bytesAt s.hub.tl.mem rq.addr.off rq.len)) ∧
    h.tl = s.hub.tl ∧ h.lanes = s.hub.lanes) ∧
  (∀ (rq : Request) (s : State), s.hub.admitsRq rq → s.hub.awaits rq → rq.op = opREAD → rq.addr.space = 2 → Runs
    (.read rq) s fun h => h.out.head? = some (.completion rq.req rq.tag 0 0 false false (bytesAt s.hub.dram
    rq.addr.off rq.len)) ∧ h.dram = s.hub.dram ∧ h.lanes = s.hub.lanes) ∧
  (∀ (rq : Request) (i : Fin 128) (s : State), s.hub.admitsRq rq → s.hub.awaits rq → rq.op = opREAD → rq.addr.space
    = 3 → (s.hub.brg.lock[rq.lane]) = {} → s.hub.laneAcc rq = .bus → s.hub.winExempt rq → s.hub.slotOfKey rq = none
    → s.hub.echoSlot rq .echoed = none → s.hub.echoSlot rq .fetching = none → (s.hub.brg.slot[i]).st = .free → (∀ k
    : Fin 128, k.val < i.val → (s.hub.brg.slot[k]).st ≠ .free) → (s.hub.lane rq.lane).dev = [] → Runs (.read rq) s
    fun h => (h.brg.slot[i]).st = .fetching ∧ (h.brg.slot[i]).rq = some rq ∧ (h.lane rq.lane).dev =
    [{ rq := rq, slot := some i, at_ := s.hub.now }] ∧ h.out = s.hub.out ∧ (∀ k : Fin 128, k ≠ i → h.brg.slot[k] =
    s.hub.brg.slot[k]) ∧ (∀ m : Fin 64, m ≠ rq.lane → h.lanes[m] = s.hub.lanes[m])) ∧
  (∀ (rq : Request) (s : State), rq.op = opREAD → s.hub.awaits rq → s.hub.brgOn → s.hub.paired = false → badLen rq =
    false → s.hub.winCheck rq = none → (s.hub.spaceCheck rq).isNone → rq.again = false → Runs (.read rq) s fun h =>
    h.out.head? = some (.completion rq.req rq.tag 4 0 false false []) ∧ h.tl = s.hub.tl ∧ h.lanes = s.hub.lanes) ∧
  (∀ (rq : Request) (s : State), rq.op = opREAD → s.hub.awaits rq → s.hub.bit F.BRG_CTL_EN = false → Runs (.read rq)
    s fun h => h.out.head? = some (.completion rq.req rq.tag 8 0 false false []) ∧ h.lanes = s.hub.lanes) ∧
  (∀ (rq : Request) (s : State), s.hub.admitsRq rq → rq.op = opWRITE → rq.posted → rq.addr.space = 2 → Runs (.write
    rq) s fun h => h.dram = writeBytes s.hub.dram rq.addr.off rq.data ∧ h.out = s.hub.out ∧ h.lanes = s.hub.lanes ∧
    h.tl = s.hub.tl) ∧
  (∀ (rq : Request) (s : State), s.hub.admitsRq rq → rq.op = opWRITE → rq.posted → rq.addr.space = 1 → rq.addr.off %
    256 + rq.len < 256 → s.hub.pim.freezing = false → s.hub.partOf (rq.addr.off / 256) ≠ 1 → s.hub.member = 0 → Runs
    (.write rq) s fun h => bytesAt h.tl.mem rq.addr.off rq.len = rq.data ∧ h.tl.check (rq.addr.off / 256) =
    partialCheck (s.hub.tl.check (rq.addr.off / 256)) (s.hub.tl.bytes (rq.addr.off / 256)) rq.data (rq.addr.off %
    256) ∧ h.tl.quar = s.hub.tl.quar ∧ h.lanes = s.hub.lanes ∧ (∀ i : Nat, i < rq.addr.off ∨ rq.addr.off + rq.len ≤
    i → h.tl.mem.get 0 i = s.hub.tl.mem.get 0 i))

/-- An admitted LOCK_READ or LOCK_WRITE of an unlocked lane makes the requester its owner and performs the access
  (R230). A requester whose key is above the owner's gets BACKOFF with LOCK and changes no lock; one below it
  becomes the waiter and gets RETRY (R231). UNLOCK by the owner frees the lane, by another changes nothing (Table
  7.7). A reservation is dropped once RSV has passed (R231); an owner idle for IDLE, with no request of its own in
  the same cycle, is broken with FLAG.LOCKBRK and its key remembered (R233). -/
def Obligations.LaneLocks : Prop :=
  (∀ (rq : Request) (s : State), s.hub.admitsRq rq → s.hub.awaits rq → rq.addr.space = 3 → s.hub.laneAcc rq =
    .stream → rq.op = opLREAD → (s.hub.brg.lock[rq.lane]) = {} → (s.hub.lane rq.lane).rx.q = [] → (∀ i : Fin 128,
    (s.hub.brg.slot[i]).st = .free ∧ (s.hub.brg.slot[i]).rq = none) → Runs (.lockRead rq) s fun h =>
    (h.brg.lock[rq.lane]).owner = some (s.hub.keyOf rq) ∧ h.out.head? = some (.completion rq.req rq.tag 0 0 false
    false []) ∧ (∀ m : Fin 64, m ≠ rq.lane → h.brg.lock[m] = s.hub.brg.lock[m]) ∧ h.lanes = s.hub.lanes) ∧
  (∀ (rq : Request) (s : State), s.hub.admitsRq rq → s.hub.awaits rq → rq.addr.space = 3 → s.hub.laneAcc rq =
    .stream → rq.op = opLWRITE → (s.hub.brg.lock[rq.lane]).owner = some (s.hub.keyOf rq) →
    (s.hub.brg.lock[rq.lane]).broken = [] → s.hub.fn rq.lane ≠ 1 → (s.hub.lane rq.lane).stretch = false →
    (s.hub.lane rq.lane).tx.q.length + rq.len / 4 ≤ 64 → Runs (.lockWrite rq) s fun h => (h.brg.lock[rq.lane]).owner
    = some (s.hub.keyOf rq) ∧ ((h.lane rq.lane).tx.q = (s.hub.lane rq.lane).tx.q ++ (leWords (rq.len / 4)
    rq.data).map fun w => { w := w, time := s.hub.now }) ∧ h.out.head? = some (.completion rq.req rq.tag 0 0 false
    false []) ∧ (∀ m : Fin 64, m ≠ rq.lane → h.brg.lock[m] = s.hub.brg.lock[m])) ∧
  (∀ (rq : Request) (k : Key) (s : State), s.hub.admitsRq rq → s.hub.awaits rq → rq.addr.space = 3 → s.hub.laneAcc
    rq = .stream → rq.op = opLREAD → (s.hub.brg.lock[rq.lane]).owner = some k → k.lt (s.hub.keyOf rq) →
    s.hub.brg.held = [] → (s.hub.brg.lock[rq.lane]).broken = [] → Runs (.lockRead rq) s fun h => h.brg.lock =
    s.hub.brg.lock ∧ ((∃ e, h.out.head? = some (.completion rq.req rq.tag 2 e true false []))) ∧ h.lanes =
    s.hub.lanes) ∧
  (∀ (rq : Request) (k : Key) (s : State), s.hub.admitsRq rq → s.hub.awaits rq → rq.addr.space = 3 → s.hub.laneAcc
    rq = .stream → rq.op = opLREAD → (s.hub.brg.lock[rq.lane]).owner = some k → (s.hub.keyOf rq).lt k → k ≠
    s.hub.keyOf rq → k.lt (s.hub.keyOf rq) = false → (s.hub.brg.lock[rq.lane]).waiter = none →
    (s.hub.brg.lock[rq.lane]).broken = [] → Runs (.lockRead rq) s fun h => (h.brg.lock[rq.lane]).owner = some k ∧
    (h.brg.lock[rq.lane]).waiter = some (s.hub.keyOf rq) ∧ h.out = s.hub.out ∧ (∀ m : Fin 64, m ≠ rq.lane →
    h.brg.lock[m] = s.hub.brg.lock[m]) ∧ h.lanes = s.hub.lanes) ∧
  (∀ (rq : Request) (s : State), s.hub.admitsRq rq → rq.posted → rq.addr.space = 3 → rq.op = opUNLOCK →
    (s.hub.brg.lock[rq.lane]).broken = [] → (s.hub.brg.lock[rq.lane]).owner = some (s.hub.keyOf rq) → Runs (.unlock
    rq) s fun h => (h.brg.lock[rq.lane]).owner = none ∧ (h.brg.lock[rq.lane]).waiter = none ∧
    ((s.hub.brg.lock[rq.lane]).waiter.isSome → (h.brg.lock[rq.lane]).rsv = (s.hub.brg.lock[rq.lane]).waiter) ∧ (∀ m
    : Fin 64, m ≠ rq.lane → h.brg.lock[m] = s.hub.brg.lock[m]) ∧ h.lanes = s.hub.lanes) ∧
  (∀ (rq : Request) (s : State), s.hub.admitsRq rq → rq.posted → rq.addr.space = 3 → rq.op = opUNLOCK →
    (s.hub.brg.lock[rq.lane]).broken = [] → (s.hub.brg.lock[rq.lane]).owner ≠ some (s.hub.keyOf rq) → Runs (.unlock
    rq) s fun h => h.brg.lock = s.hub.brg.lock ∧ h.lanes = s.hub.lanes) ∧
  (∀ (n : Fin 64) (s : State), (s.hub.brg.lock[n]).rsvAt + us (s.hub.fld F.BRG_LKCFG_RSV) ≤ s.hub.now → Runs
    (.lockReserveExpire n) s fun h => (h.brg.lock[n]) = { (s.hub.brg.lock[n]) with rsv := none } ∧ (∀ m : Fin 64, m
    ≠ n → h.brg.lock[m] = s.hub.brg.lock[m]) ∧ h = { s.hub with brg := h.brg }) ∧
  (∀ (n : Fin 64) (k : Key) (s : State), (s.hub.brg.lock[n]).owner = some k → s.hub.lockIdle n → s.rqComes
    (s.hub.byOwner n) = false → Runs (.lockIdleBreak n) s fun h => (h.brg.lock[n]).owner = none ∧ k ∈
    (h.brg.lock[n]).broken ∧ h.bit F.BRG_FLAG_LOCKBRK = true ∧ (∀ m : Fin 64, m ≠ n → h.brg.lock[m] =
    s.hub.brg.lock[m]))

/-- When WAIT has passed, a fetching slot answers RETRY once and its request's tag waits for the reissue (R216).
  When the access of a slot that has answered RETRY ends, the slot is READY with status and data (R217). A READY
  slot not claimed within HOLD, nor by a request of the same cycle, is freed, its read data going to salvage with
  ORIGIN 1 (R218, R227). Echo starts the fetch the stride of a stream predicts in a free slot (R223); ECHOED data
  older than FRESH leaves its slot for salvage (R225); a stream whose predicted demand does not come is cleared
  (R224). A salvage entry older than SALVLIFE is freed and counted, and SALVAGE_CLEAR frees every entry of the
  clusters named (R228). -/
def Obligations.RetrySlotsEchoAndSalvage : Prop :=
  (∀ (slot : Fin 128) (rq : Request) (s : State), (s.hub.brg.slot[slot]).st = .fetching → (s.hub.brg.slot[slot]).rq
    = some rq → (s.hub.brg.slot[slot]).echo = false → (s.hub.brg.slot[slot]).retried = false →
    (s.hub.brg.slot[slot]).gone = false → (s.hub.brg.slot[slot]).at_ + us (s.hub.fld F.BRG_RTCFG_WAIT) ≤ s.hub.now →
    s.hub.awaits rq → Runs (.retryWaitExpire slot) s fun h => (h.brg.slot[slot]).retried = true ∧
    (h.brg.slot[slot]).st = .fetching ∧ ((∃ u, h.brg.tag[rq.tag.toNat] = .use u ∧ u.rq = rq ∧ u.flying = false ∧
    u.last = 1)) ∧ (∀ k : Fin 128, k ≠ slot → h.brg.slot[k] = s.hub.brg.slot[k]) ∧ h.lanes = s.hub.lanes) ∧
  (∀ (slot : Fin 128) (rq : Request) (data : List Byte) (n : Fin 64) (t : Nat) (s : State), s.hub.slotRuns slot =
    some n → (s.hub.brg.slot[slot]).st = .fetching → (s.hub.brg.slot[slot]).rq = some rq →
    (s.hub.brg.slot[slot]).echo = false → (s.hub.brg.slot[slot]).retried → (s.hub.brg.slot[slot]).gone = false →
    (s.hub.lane n).dev = [{ rq := rq, slot := some slot, at_ := t }] → rq.op = opREAD → Runs (.slotAccessEnd slot
    (.ok data)) s fun h => (h.brg.slot[slot]).st = .ready ∧ (h.brg.slot[slot]).data = data.take rq.len ∧
    (h.brg.slot[slot]).status = 0 ∧ (h.lane n).dev = [] ∧ h.out = s.hub.out ∧ (∀ k : Fin 128, k ≠ slot →
    h.brg.slot[k] = s.hub.brg.slot[k]) ∧ (∀ m : Fin 64, m ≠ n → h.lanes[m] = s.hub.lanes[m])) ∧
  (∀ (slot : Fin 128) (rq : Request) (s : State), (s.hub.brg.slot[slot]).st = .ready → (s.hub.brg.slot[slot]).rq =
    some rq → isRead rq.op → (s.hub.brg.slot[slot]).status = 0 → (s.hub.brg.slot[slot]).tick + us (max 10 (s.hub.fld
    F.BRG_RTCFG_HOLD)) ≤ s.hub.now → (s.hub.brg.slot[slot]).noServe = false → (s.rqComes (fun q => s.hub.slotOfKey q
    == some slot && (s.hub.brg.slot[slot]).rq.any fun r => reclaims r q) = false) → (s.hub.brg.salv[clusterOf
    rq.lane])[0] = none → Runs (.slotExpire slot) s fun h => h.brg.slot[slot] = {} ∧ ((∃ e, (h.brg.salv[clusterOf
    rq.lane])[0] = some e ∧ e.data = (s.hub.brg.slot[slot]).data ∧ e.off = rq.dev ∧ e.lane = rq.lane.val % 8 ∧
    e.origin = 1 ∧ e.serve = true)) ∧ (∀ k : Fin 128, k ≠ slot → h.brg.slot[k] = s.hub.brg.slot[k]) ∧ h.lanes =
    s.hub.lanes) ∧
  (∀ (slot : Fin 128) (rq : Request) (s : State), (s.hub.brg.slot[slot]).st = .echoed → (s.hub.brg.slot[slot]).rq =
    some rq → isRead rq.op → (s.hub.brg.slot[slot]).status = 0 → (s.hub.brg.slot[slot]).tick + us (s.hub.fld
    F.ECH_TIME_FRESH) ≤ s.hub.now → (s.hub.brg.slot[slot]).noServe = false → (s.hub.brg.salv[clusterOf rq.lane])[0]
    = none → Runs (.echoFreshExpire slot) s fun h => h.brg.slot[slot] = {} ∧ ((∃ e, (h.brg.salv[clusterOf
    rq.lane])[0] = some e ∧ e.data = (s.hub.brg.slot[slot]).data ∧ e.off = rq.dev ∧ e.lane = rq.lane.val % 8 ∧
    e.origin = 0 ∧ e.serve = true)) ∧ (∀ k : Fin 128, k ≠ slot → h.brg.slot[k] = s.hub.brg.slot[k]) ∧ h.lanes =
    s.hub.lanes) ∧
  (∀ (i : Fin 16) (st : Stream) (c : Seen) (r : List Seen) (d : Nat) (rq : Request) (s : State), s.hub.brg.stream[i]
    = some st → st.hist = c :: r → strideOf st.hist = some (d : Int) → s.hub.bit F.ECH_CTL_EN → s.hub.brgOn →
    s.hub.echoDepth = 1 → s.hub.echoRoom → c.off + d + c.len ≤ 2 ^ 30 → rq =
    { op := opREAD, addr := s.hub.laneAddr c.lane + BitVec.ofNat 48 (c.off + d), len := c.len, req := st.req, snode := st.node, smem := st.mem, tag := 0, again := false, posted := false, tc := 4, seq := 0, data := [] }
    → s.hub.echoMay st.win rq → (s.hub.brg.slot[0]).st = .free → Runs (.echoFetch i) s fun h => (h.brg.slot[0]).st =
    .fetching ∧ (h.brg.slot[0]).echo = true ∧ (h.brg.slot[0]).rq = some rq ∧ (h.lane rq.lane).dev = (s.hub.lane
    rq.lane).dev ++ [{ rq := rq, slot := some 0, echo := true, at_ := s.hub.now }] ∧ (∀ k : Fin 128, k.val ≠ 0 →
    h.brg.slot[k] = s.hub.brg.slot[k])) ∧
  (∀ (i : Fin 16) (st : Stream) (c : Seen) (r : List Seen) (p : Nat) (s : State), s.hub.brg.stream[i] = some st →
    st.hist = c :: r → periodOf st.hist = some p → c.tick + p + p / 2 ≤ s.hub.now → Runs (.echoStreamClear i) s fun
    h => h.brg.stream[i] = none ∧ (∀ k : Fin 16, k ≠ i → h.brg.stream[k] = s.hub.brg.stream[k]) ∧ h =
    { s.hub with brg := h.brg }) ∧
  (∀ (c : Fin 8) (e : Fin 16) (x : Salv) (s : State), (s.hub.brg.salv[c])[e] = some x → x.tick + us (max 10
    (s.hub.fld F.ECH_SALVLIFE_US)) < s.hub.now → Runs (.salvageExpire c e) s fun h => (h.brg.salv[c])[e] = none ∧ (∀
    k : Fin 16, k ≠ e → (h.brg.salv[c])[k] = (s.hub.brg.salv[c])[k]) ∧ SameRegs s.hub h [F.ECH_SALVEXP] ∧ h =
    { s.hub with fields := h.fields, hw := h.hw, brg := h.brg }) ∧
  (∀ (a : Access) (v : W32) (s : State), s.hub.lets a 0xB8018 → Runs (.salvageClear a v) s fun h => (∀ (c : Fin 8)
    (i : Fin 16), (h.brg.salv[c])[i] = if (v.bits 7 0).testBit c then none else (s.hub.brg.salv[c])[i]) ∧ h =
    { s.hub with brg := h.brg })

/-- An EVENT frame becomes one class-2 entry of the error log with the unit, offset and time it carries (R455). When
  the gap of a node has lasted GAP, the next event to it may leave (R235). A TUNNEL frame of KIND 1 that BRG_TUNCFG
  admits is queued for the Host port; one that is not admitted is dropped and counted (R236). BRIDGE_DISABLE with
  nothing in progress takes effect at once: EN reads 0, slots are free, Echo streams empty and locks broken;
  otherwise it waits and changes nothing else (R239). -/
def Obligations.EventsTunnelsAndBridgeDisable : Prop :=
  (∀ (f : Frame) (s : State), f.hdr.typ = tEVENT → s.hub.err.log = [] → s.hub.fld F.ERR_ESC_UCMAX = 0 → Runs (.event
    f) s fun h => h.err.log =
    [{ sec := s.hub.gno.t.sec / 2 ^ 32 * 2 ^ 32 + (f.word 1).toNat, us := (f.word 0).bits 29 0 / 1000, rep := 0, tick := s.hub.now, unit := (f.word 2).extractLsb' 0 24, cls := 2, req := 10, rnode := f.hdr.snode, space := 0, code := BitVec.ofNat 16 (0x1210 + (f.word 4).bits 3 0), addr := f.word 3 }]
    ∧ h = { s.hub with fields := h.fields, hw := h.hw, err := h.err, out := h.out }) ∧
  (∀ (node : BitVec 8) (s : State), Runs (.eventGapExpire node) s fun h => (h.brg.gap = s.hub.brg.gap.map fun x =>
    if x.node == node && decide (x.at_ + us (s.hub.fld F.BRG_EVCFG_GAP) ≤ s.hub.now) then { x with run := false }
    else x) ∧ h = { s.hub with brg := h.brg }) ∧
  (∀ (f : Frame) (src : Nat) (s : State), f.hdr.typ = tTUNNEL → s.hub.bit F.BRG_TUNCFG_IN_EN → s.hub.listAdmits
    (s.hub.fld F.BRG_TUNCFG_ALLOW) (s.hub.srcNode f.hdr.snode) → (f.word 0).bits 31 28 = 1 → (f.word 0).bits 23 16 <
    8 → s.hub.bit F.SWC_CTL_EN → s.hub.sw.spill.getLsbD (qOf 4 f.hdr.tc.toNat) = false → s.hub.maySpill
    f.hdr.tc.toNat = false → s.hub.admitRule (qOf 4 f.hdr.tc.toNat) f.hdr.tc.toNat (tilesFor f.pay.length) = some
    src → tilesFor f.pay.length ≤ s.hub.poolFree → Runs (.tunnel f) s fun h => ((∃ e, h.sw.q[qOf 4 f.hdr.tc.toNat] =
    s.hub.sw.q[qOf 4 f.hdr.tc.toNat] ++ [e] ∧ e.hdr = f.hdr ∧ e.len = f.pay.length)) ∧ (∀ k : Fin 56, k ≠ qOf 4
    f.hdr.tc.toNat → h.sw.q[k] = s.hub.sw.q[k]) ∧ h.lanes = s.hub.lanes ∧ h.can = s.hub.can) ∧
  (∀ (f : Frame) (s : State), f.hdr.typ = tTUNNEL → s.hub.bit F.BRG_TUNCFG_IN_EN = false → Runs (.tunnel f) s fun h
    => h.lanes = s.hub.lanes ∧ h.can = s.hub.can ∧ h.sw = s.hub.sw ∧ SameRegs s.hub h [F.BRG_TUNDROP] ∧ h =
    { s.hub with fields := h.fields, hw := h.hw }) ∧
  (∀ (a : Access)  (s : State), s.hub.lets a 0xB0000 → s.hub.bit F.BRG_CTL_EN → s.hub.brgBusy = false → Runs
    (.bridgeDisable a) s fun h => h.bit F.BRG_CTL_EN = false ∧ h.brg.closing = false ∧ h.brg.slot = Vector.replicate
    128 {} ∧ h.brg.stream = Vector.replicate 16 none ∧ (∀ n : Fin 64, (h.brg.lock[n]).owner = none)) ∧
  (∀ (a : Access)  (s : State), s.hub.lets a 0xB0000 → s.hub.bit F.BRG_CTL_EN → s.hub.brgBusy → Runs (.bridgeDisable
    a) s fun h => h = { s.hub with brg := { s.hub.brg with closing := true } })

/-- LINK_ENABLE of an OFF link with its module in place trains it at RATE.MAX (R245). In TRAIN, HOLD or DOWN, with
  EN, block lock and verify, the third good beacon brings it UP (R247, R248). A link in UP loses it on block lock,
  hi_ber, missed beacons, an RF beacon or LOS, into HOLD with a hold time and DOWN without, with the cause of Table
  8.3 and FLAG.LOST (R246, R256); cleared EN or a removed module takes it to OFF (R243, R256). HOLD that expires
  becomes DOWN with FLAG.HOLD_EXP (R256). An inserted module waits 300 ms and then trains (R243). A beacon leaves in
  TRAIN, UP, HOLD and DOWN (R248). The third verify failure in a row is flagged (R247). -/
def Obligations.LinkStates : Prop :=
  (∀ (a : Access) (l : Fin 4) (s : State), s.hub.lets a (linkBase l) → s.hub.lk l = lkOFF → s.hub.linkAllowed l →
    Runs (.linkEnable a l) s fun h => h.bit (F.X_CTL_EN l) = true ∧ h.lk l = lkTRAIN ∧ h.fld (F.X_STAT_RATE_ACT l) =
    min 2 (s.hub.fld (F.X_RATE_MAX l)) ∧ (h.link[l]).good = 0 ∧ (h.link[l]).verified = false ∧ (∀ k : Fin 4, k ≠ l →
    h.link[k] = s.hub.link[k]) ∧ h = { s.hub with fields := h.fields, hw := h.hw, link := h.link } ∧ SameRegs s.hub
    h [F.X_CTL_EN l, F.X_STAT_STATE l, F.X_STAT_RATE_ACT l]) ∧
  (∀ (a : Access) (l : Fin 4) (s : State), s.hub.lets a (linkBase l) → s.hub.linkIsUp l → Runs (.linkDisable a l) s
    fun h => h.lk l = lkOFF ∧ h.bit (F.X_CTL_EN l) = false ∧ h.fld (F.X_STAT_CAUSE l) = 6 ∧ h.bit (F.X_FLAG_LOST l)
    = true ∧ h.lanes = s.hub.lanes) ∧
  (∀ (l : Fin 2) (s : State), s.hub.bit (F.X_SFPCTL_ABS (ringLink l)) → Runs (.moduleInserted l) s fun h => h.bit
    (F.X_SFPCTL_ABS (ringLink l)) = false ∧ (h.link[ringLink l]).init = true ∧ (h.link[ringLink l]).initEnd =
    s.hub.now + 120000000 ∧ h.bit (F.X_FLAG_MOD_ABS (ringLink l)) = true ∧ (∀ k : Fin 4, k ≠ ringLink l → h.link[k]
    = s.hub.link[k]) ∧ h = { s.hub with fields := h.fields, hw := h.hw, link := h.link, out := h.out } ∧ SameRegs
    s.hub h [F.X_SFPCTL_ABS (ringLink l), F.X_FLAG_MOD_ABS (ringLink l)]) ∧
  (∀ (l : Fin 2) (s : State), (s.hub.link[ringLink l]).init → (s.hub.link[ringLink l]).initEnd ≤ s.hub.now →
    s.hub.bit (F.X_SFPCTL_ABS (ringLink l)) = false → s.hub.member = 0 → s.hub.bit (F.X_CTL_EN (ringLink l)) →
    s.hub.lk (ringLink l) = lkOFF → Runs (.moduleInitDone l) s fun h => (h.link[ringLink l]).init = false ∧ h.lk
    (ringLink l) = lkTRAIN ∧ (∀ k : Fin 4, k ≠ ringLink l → h.link[k] = s.hub.link[k]) ∧ h =
    { s.hub with fields := h.fields, hw := h.hw, link := h.link }) ∧
  (∀ (l : Fin 2) (s : State), s.hub.bit (F.X_SFPCTL_ABS (ringLink l)) = false → s.hub.linkIsUp (ringLink l) → Runs
    (.moduleRemoved l) s fun h => h.bit (F.X_SFPCTL_ABS (ringLink l)) = true ∧ h.lk (ringLink l) = lkOFF ∧ h.fld
    (F.X_STAT_CAUSE (ringLink l)) = 5 ∧ h.bit (F.X_FLAG_MOD_ABS (ringLink l)) = true ∧ h.lanes = s.hub.lanes) ∧
  (∀ (l : Fin 2) (s : State), s.hub.bit (F.X_SFPCTL_LOS_EN (ringLink l)) → s.hub.linkIsUp (ringLink l) → Runs
    (.losAssert l) s fun h => (h.lk (ringLink l) = if s.hub.bit (F.X_HOLD_TIME (ringLink l)) then lkHOLD else
    lkDOWN) ∧ h.fld (F.X_STAT_CAUSE (ringLink l)) = 4 ∧ h.bit (F.X_FLAG_LOS (ringLink l)) = true ∧ h.lanes =
    s.hub.lanes) ∧
  (∀ (l : Fin 2) (s : State), s.hub.bit (F.X_SFPCTL_LOS_EN (ringLink l)) = false → Runs (.losAssert l) s fun h =>
    h.bit (F.X_SFPCTL_LOS (ringLink l)) = true ∧ h.lk (ringLink l) = s.hub.lk (ringLink l) ∧ h.bit (F.X_FLAG_LOS
    (ringLink l)) = true ∧ h = { s.hub with fields := h.fields, hw := h.hw, out := h.out } ∧ SameRegs s.hub h
    [F.X_SFPCTL_LOS (ringLink l), F.X_FLAG_LOS (ringLink l)]) ∧
  (∀ (l : Fin 4) (hiBer : Bool) (s : State), s.hub.linkIsUp l → Runs (.blockLockLoss l hiBer) s fun h => (h.lk l =
    if s.hub.bit (F.X_HOLD_TIME l) then lkHOLD else lkDOWN) ∧ (h.fld (F.X_STAT_CAUSE l) = if hiBer then 2 else 1) ∧
    h.bit (F.X_FLAG_LOST l) = true ∧ (h.link[l]).verified = false ∧ h.lanes = s.hub.lanes) ∧
  (∀ (l : Fin 4) (s : State), s.hub.linkIsUp l → 2 * max 1 (s.hub.fld (F.X_BCN_MISS l)) * s.hub.bcnNs l ≤ (s.hub.now
    - (s.hub.link[l]).bAt) * 5 → Runs (.beaconMiss l) s fun h => (h.lk l = if s.hub.bit (F.X_HOLD_TIME l) then
    lkHOLD else lkDOWN) ∧ h.fld (F.X_STAT_CAUSE l) = 3 ∧ h.bit (F.X_FLAG_LOST l) = true ∧ h.lanes = s.hub.lanes) ∧
  (∀ (l : Fin 4) (s : State), s.hub.beacons l → 2 * s.hub.bcnNs l ≤ (s.hub.now - (s.hub.link[l]).bcnAt) * 5 → Runs
    (.beaconSend l) s fun h => (h.link[l]).bseq = ((s.hub.link[l]).bseq + 1) % 65536 ∧ (h.link[l]).bcnAt = s.hub.now
    ∧ h.sentOn l tBEACON = true ∧ (∀ k : Fin 4, k ≠ l → h.link[k] = s.hub.link[k])) ∧
  (∀ (l : Fin 4) (s : State), (s.hub.beacons l && decide (2 * s.hub.bcnNs l ≤ (s.hub.now - (s.hub.link[l]).bcnAt) *
    5)) = false → Runs (.beaconSend l) s fun h => h = s.hub) ∧
  (∀ (l : Fin 4) (f : Frame) (s : State), f.hdr.typ = tBEACON → (s.hub.lk l = lkTRAIN ∨ s.hub.lk l = lkDOWN) →
    s.hub.bit (F.X_CTL_EN l) → (s.hub.link[l]).verified → 2 ≤ (s.hub.link[l]).good → s.hub.bcnGap l = 1 → Runs
    (.beaconReceived l f) s fun h => h.lk l = linkUP ∧ h.bit (F.X_FLAG_UP l) = true ∧ h.lanes = s.hub.lanes) ∧
  (∀ (l : Fin 4) (f : Frame) (s : State), f.hdr.typ = tBEACON → s.hub.lk l = lkTRAIN → (s.hub.link[l]).good < 2 →
    ((s.hub.link[l]).good = 0 ∨ s.hub.bcnGap l = 1) → (2 ≤ l.val ∨ s.hub.takesPart = false) → Runs (.beaconReceived
    l f) s fun h => (h.ring =
    { s.hub.ring with part := if l.val < 2 then s.hub.bit F.RNG_CTL_EN else s.hub.ring.part }) ∧ (h.link[l]).good =
    (s.hub.link[l]).good + 1 ∧ (h.link[l]).bAt = s.hub.now ∧ h.lk l = lkTRAIN ∧ h.bit (F.X_STAT_LOCK l) = true ∧ (∀
    k : Fin 4, k ≠ l → h.link[k] = s.hub.link[k]) ∧ h =
    { s.hub with fields := h.fields, hw := h.hw, link := h.link, ring := h.ring } ∧ SameRegs s.hub h [F.X_STAT_LOCK
    l, F.X_SFPCTL_LOS l]) ∧
  (∀ (l : Fin 4) (f : Frame) (s : State), f.hdr.typ = tBEACON → s.hub.linkIsUp l → (f.word 0).bit 7 → Runs
    (.beaconReceived l f) s fun h => (h.lk l = if s.hub.bit (F.X_HOLD_TIME l) then lkHOLD else lkDOWN) ∧ h.fld
    (F.X_STAT_CAUSE l) = 3 ∧ h.bit (F.X_FLAG_LOST l) = true ∧ h.lanes = s.hub.lanes) ∧
  (∀ (l : Fin 4) (f : Frame) (s : State), f.hdr.typ = tBEACON → s.hub.lk l = lkTRAIN → (s.hub.link[l]).good ≠ 0 → 2
    ≤ s.hub.bcnGap l → (2 ≤ l.val ∨ s.hub.takesPart = false) → Runs (.beaconReceived l f) s fun h => (h.ring =
    { s.hub.ring with part := if l.val < 2 then s.hub.bit F.RNG_CTL_EN else s.hub.ring.part }) ∧ (h.link[l]).good =
    1 ∧ h.lk l = lkTRAIN ∧ (∀ k : Fin 4, k ≠ l → h.link[k] = s.hub.link[k]) ∧ h =
    { s.hub with fields := h.fields, hw := h.hw, link := h.link, ring := h.ring } ∧ SameRegs s.hub h [F.X_STAT_LOCK
    l, F.X_SFPCTL_LOS l]) ∧
  (∀ (l : Fin 4) (s : State), s.hub.lk l = lkHOLD → (s.hub.link[l]).holdEnd ≤ s.hub.now → s.hub.returnsNow l
    s.pending = false → Runs (.linkHoldExpire l) s fun h => h.lk l = lkDOWN ∧ h.bit (F.X_FLAG_HOLD_EXP l) = true ∧
    h.lanes = s.hub.lanes) ∧
  (∀ (l : Fin 4) (s : State), (s.hub.link[l]).good < 3 → Runs (.preemptionVerify l .responseReceived) s fun h =>
    (h.link[l]).verified = true ∧ (h.link[l]).vfails = 0 ∧ (∀ k : Fin 4, k ≠ l → h.link[k] = s.hub.link[k]) ∧ h =
    { s.hub with link := h.link }) ∧
  (∀ (l : Fin 4) (s : State), (s.hub.link[l]).vfails < 2 → Runs (.preemptionVerify l .timerExpired) s fun h =>
    (h.link[l]).vfails = (s.hub.link[l]).vfails + 1 ∧ (h.link[l]).verified = false ∧ (∀ k : Fin 4, k ≠ l → h.link[k]
    = s.hub.link[k]) ∧ h = { s.hub with link := h.link }) ∧
  (∀ (l : Fin 4) (s : State), (s.hub.link[l]).vfails = 2 → Runs (.preemptionVerify l .timerExpired) s fun h =>
    (h.link[l]).vfails = 0 ∧ (h.link[l]).verified = false ∧ h.bit (F.X_FLAG_MM_VERIFY_FAIL l) = true ∧ (∀ k : Fin 4,
    k ≠ l → h.link[k] = s.hub.link[k]))

/-- A byte transfer of module memory starts with GO and ends with GO 0, ERR its NACK and the byte read in DATA
  (R244). A swap at or after its cycle start puts the committed gate list in force; the operating entry is the one
  the Gnomon stands in (R250, R252). A PFC frame pauses the enabled classes below 6 while the link is UP,
  PAUSE_EXPIRE resumes one when its time has run out, a pause sent is repeated after half its time while it stands
  (R254, R255). LPI is entered by the transmitter of an UP link at 10 Gbit/s whose queues have been empty for IDLE,
  or shown for the receive direction (R261); the pair link never enters it. FLARE_SEND sends COUNT Flares, at least
  3, in TRAIN and DOWN and is refused elsewhere, FLARE_DONE after 2 ms for each trains again (R263). A period
  boundary moves the counters of a block in PERIOD mode to their snapshots and restarts them (R264, R265). -/
def Obligations.LinkServices : Prop :=
  (∀ (a : Access) (l : Fin 2) (v : W32) (s : State), s.hub.lets a (linkBase l + 0x34) → s.hub.bit (F.X_SFPI2C_GO
    (ringLink l)) = false → Runs (.sfpI2cGo a l v) s fun h => h.bit (F.X_SFPI2C_GO (ringLink l)) = true ∧ h.out =
    .sfp l (v.bit 30) (v.bit 24) (v.bits 23 16) (v.bits 7 0) :: s.hub.out ∧ h.fld (F.X_SFPI2C_ADDR (ringLink l)) =
    v.bits 23 16 ∧ h = { s.hub with fields := h.fields, hw := h.hw, out := h.out } ∧ SameRegs s.hub h [F.X_SFPI2C_GO
    (ringLink l), F.X_SFPI2C_ERR (ringLink l), F.X_SFPI2C_WR (ringLink l), F.X_SFPI2C_DEV (ringLink l),
    F.X_SFPI2C_ADDR (ringLink l), F.X_SFPI2C_DATA (ringLink l)]) ∧
  (∀ (l : Fin 2) (data : Byte) (nack : Bool) (s : State), s.hub.bit (F.X_SFPI2C_GO (ringLink l)) → Runs (.sfpI2cDone
    l data nack) s fun h => h.bit (F.X_SFPI2C_GO (ringLink l)) = false ∧ h.bit (F.X_SFPI2C_ERR (ringLink l)) = nack
    ∧ h.bit (F.X_FLAG_SFPI2C_DONE (ringLink l)) = true ∧ (h.fld (F.X_SFPI2C_DATA (ringLink l)) = if !s.hub.bit
    (F.X_SFPI2C_WR (ringLink l)) && !nack then data.toNat else s.hub.fld (F.X_SFPI2C_DATA (ringLink l))) ∧ h =
    { s.hub with fields := h.fields, hw := h.hw, out := h.out } ∧ SameRegs s.hub h [F.X_SFPI2C_GO (ringLink l),
    F.X_SFPI2C_ERR (ringLink l), F.X_SFPI2C_DATA (ringLink l), F.X_FLAG_SFPI2C_DONE (ringLink l)]) ∧
  (∀ (l : Fin 4) (v : Nat) (s : State), s.hub.bit (F.X_COMMIT_GO l) → (s.hub.link[l]).gclAt ≤ s.hub.gno.t.nanos →
    s.hub.snap = [((F.X_GCL_LEN_LEN l).key, some v)] → Runs (.gclSwap l) s fun h => h.bit (F.X_COMMIT_GO l) = false
    ∧ h.fld (F.X_GCL_OPER_IDX l) = h.gateIdx l ∧ h.fld (F.X_GCL_LEN_LEN l) = v % 256 ∧ h.snap = [] ∧ h =
    { s.hub with fields := h.fields, hw := h.hw, snap := h.snap } ∧ SameRegs s.hub h [F.X_COMMIT_GO l,
    F.X_GCL_OPER_IDX l, F.X_GCL_LEN_LEN l]) ∧
  (∀ (l : Fin 4) (s : State), s.hub.bit (F.X_GCL_CTL_EN l) → Runs (.gateIntervalEnd l) s fun h => h.fld
    (F.X_GCL_OPER_IDX l) = s.hub.gateIdx l ∧ h = { s.hub with fields := h.fields, hw := h.hw } ∧ SameRegs s.hub h
    [F.X_GCL_OPER_IDX l]) ∧
  (∀ (l : Fin 4) (f : Frame) (s : State), f.isRing 0x01 → (f.word 1).bits 7 0 = 8 → (s.hub.fld (F.X_PFC_RX_EN
    l)).testBit 3 → s.hub.linkIsUp l → (f.word 3).bits 31 16 ≠ 0 → Runs (.pfc l f) s fun h => h.fld
    (F.X_STAT_PAUSED_RX l) = s.hub.fld (F.X_STAT_PAUSED_RX l) ||| 8 ∧ (h.link[l]).pauseEnd[3] = s.hub.now +
    s.hub.pauseTicks l ((f.word 3).bits 31 16) ∧ (∀ k : Fin 4, k ≠ l → h.link[k] = s.hub.link[k]) ∧ h =
    { s.hub with fields := h.fields, hw := h.hw, link := h.link, out := h.out } ∧ (∀ k : Fin 4, k ≠ l → h.fld
    (F.X_STAT_PAUSED_RX k) = s.hub.fld (F.X_STAT_PAUSED_RX k))) ∧
  (∀ (l : Fin 4) (cls : Fin 8) (s : State), (s.hub.fld (F.X_STAT_PAUSED_TX l)).testBit cls → cls.val < 6 →
    s.hub.linkSends l → (s.hub.link[l]).xoffAt[cls] + s.hub.pauseTicks l (s.hub.fld (F.X_PFC_QUANTA l)) / 2 ≤
    s.hub.now → Runs (.pfcRepeat l cls) s fun h => h.sentCtl l 1 = true ∧ (h.link[l]).xoffAt[cls] = s.hub.now ∧
    h.fld (F.X_STAT_PAUSED_TX l) = s.hub.fld (F.X_STAT_PAUSED_TX l) ||| 2 ^ cls.val) ∧
  (∀ (l : Fin 4) (cls : Fin 8) (s : State), (s.hub.link[l]).pauseEnd[cls] ≤ s.hub.now → Runs (.pauseExpire l cls) s
    fun h => (h.fld (F.X_STAT_PAUSED_RX l)).testBit cls = false ∧ h = { s.hub with fields := h.fields, hw := h.hw }
    ∧ SameRegs s.hub h [F.X_STAT_PAUSED_RX l]) ∧
  (∀ (l : Fin 4) (s : State), s.hub.fld (F.X_STAT_RATE_ACT l) = 1 → s.hub.linkIsUp l → (s.hub.member ≠ 0 ∨ l ≠ 2) →
    s.hub.bit (F.X_CTL_LPI_EN l) → s.hub.lpiIdle l → (s.hub.link[l]).lpiTx = false → Runs (.lpiEnter ⟨l, false⟩) s
    fun h => h.bit (F.X_STAT_LPI l) = true ∧ (h.link[l]).lpiTx = true ∧ (h.link[l]).lpiRx = (s.hub.link[l]).lpiRx ∧
    (∀ k : Fin 4, k ≠ l → h.link[k] = s.hub.link[k]) ∧ h =
    { s.hub with fields := h.fields, hw := h.hw, link := h.link, out := h.out } ∧ h.lk l = s.hub.lk l) ∧
  (∀ (l : Fin 4) (s : State), s.hub.fld (F.X_STAT_RATE_ACT l) = 1 → s.hub.linkIsUp l → (s.hub.member ≠ 0 ∨ l ≠ 2) →
    Runs (.lpiEnter ⟨l, true⟩) s fun h => h.bit (F.X_STAT_LPI l) = true ∧ (h.link[l]).lpiRx = true ∧
    (h.link[l]).lpiTx = (s.hub.link[l]).lpiTx ∧ (∀ k : Fin 4, k ≠ l → h.link[k] = s.hub.link[k]) ∧ h =
    { s.hub with fields := h.fields, hw := h.hw, link := h.link } ∧ SameRegs s.hub h [F.X_STAT_LPI l]) ∧
  (∀ (a : Access) (l : Fin 4) (s : State), s.hub.lets a (linkBase l + 0x38) → (s.hub.lk l = lkTRAIN ∨ s.hub.lk l =
    lkDOWN) → Runs (.flareSend a l) s fun h => h.lk l = lkFLARE ∧ h.bit (F.X_FLARE_SEND l) = true ∧
    (h.link[l]).flareEnd = s.hub.now + max 3 (s.hub.fld (F.X_FLARE_COUNT l)) * 800000 ∧ h.out = .flare l (max 3
    (s.hub.fld (F.X_FLARE_COUNT l))) :: s.hub.out ∧ (∀ k : Fin 4, k ≠ l → h.link[k] = s.hub.link[k]) ∧ h =
    { s.hub with fields := h.fields, hw := h.hw, link := h.link, out := h.out } ∧ SameRegs s.hub h [F.X_STAT_STATE
    l, F.X_FLARE_SEND l]) ∧
  (∀ (a : Access) (l : Fin 4) (s : State), s.hub.lets a (linkBase l + 0x38) → s.hub.linkIsUp l → Runs (.flareSend a
    l) s fun h => h.lk l = linkUP ∧ h.bit (F.X_FLAG_FLARE_REFUSED l) = true ∧ h =
    { s.hub with fields := h.fields, hw := h.hw, out := h.out } ∧ SameRegs s.hub h [F.X_FLAG_FLARE_REFUSED l]) ∧
  (∀ (l : Fin 4) (s : State), s.hub.lk l = lkFLARE → (s.hub.link[l]).flareEnd ≤ s.hub.now → Runs (.flareDone l) s
    fun h => h.lk l = lkTRAIN ∧ h.bit (F.X_FLARE_SEND l) = false ∧ h.bit (F.X_FLAG_FLARE_DONE l) = true ∧ (∀ k : Fin
    4, k ≠ l → h.link[k] = s.hub.link[k]) ∧ h =
    { s.hub with fields := h.fields, hw := h.hw, link := h.link, out := h.out }) ∧
  (∀ (l : Fin 4) (v : Nat) (s : State), s.hub.statAt[statIdx (.link l)] < s.hub.statNum (.link l) → s.hub.fld
    (F.X_STATMODE_MODE l) = 2 → s.hub.fld (F.X_TXFRM l) = v → Sparse.wf resetOf s.hub.fields → Runs
    (.statsPeriodBoundary (.link l)) s fun h => h.fld (F.X_TXFRM l) = 0 ∧ h.bank.get 0 (F.X_TXFRM l).key = v ∧ h.bit
    (F.X_FLAG_SNAP l) = true ∧ h =
    { s.hub with fields := h.fields, hw := h.hw, bank := h.bank, statAt := h.statAt, out := h.out })

/-- At a window's end, WIN ms after the last, a utilisation above UP on a link that may go faster proposes the next
  faster rate (R257). A proposal for more speed is agreed to where shifting is enabled and no upshift of the own,
  lower ID stands; with shifting disabled a proposal for less is rejected (R257). An AGREE makes a hub that is not
  the master ask the master (R297). Its answer agrees to the rate, or ends the proposal, a refused downshift
  starting the holdoff (R258, R259). The drain ends in SHIFT at the new rate with empty queues, else the shift is
  abandoned (R258); a retrain that times out goes back to the old rate (R260). The master approves or refuses a
  SHIFT_REQ (R297). -/
def Obligations.RateShifts : Prop :=
  (∀ (l : Fin 2) (s : State), (s.hub.link[ringLink l]).winAt + s.hub.winTicks (ringLink l) ≤ s.hub.now → s.hub.bit
    (F.X_CTL_SHIFT_EN (ringLink l)) → s.hub.linkIsUp (ringLink l) → (s.hub.link[ringLink l]).agreed = none →
    s.hub.wantsUp (ringLink l) (s.hub.utilNow (ringLink l)) → Runs (.shiftWindowEnd l (s.hub.link[ringLink
    l]).winAt) s fun h => (h.link[ringLink l]).proposed = some (s.hub.fld (F.X_STAT_RATE_ACT (ringLink l)) - 1) ∧
    (h.link[ringLink l]).util = (s.hub.utilNow (ringLink l)) ∧ h.sentCtl (ringLink l) 2 = true ∧ (∀ k : Fin 4, k ≠
    ringLink l → h.link[k] = s.hub.link[k])) ∧
  (∀ (l : Fin 2) (s : State), (s.hub.link[ringLink l]).winAt + s.hub.winTicks (ringLink l) ≤ s.hub.now → s.hub.bit
    (F.X_CTL_SHIFT_EN (ringLink l)) = false → Runs (.shiftWindowEnd l (s.hub.link[ringLink l]).winAt) s fun h =>
    (h.link[ringLink l]).util = (s.hub.utilNow (ringLink l)) ∧ (h.link[ringLink l]).winLen = max 1 (s.hub.fld
    (F.X_SHIFT_WIN (ringLink l))) ∧ (h.link[ringLink l]).sent = 0 ∧ (h.link[ringLink l]).proposed =
    (s.hub.link[ringLink l]).proposed ∧ (∀ k : Fin 4, k ≠ ringLink l → h.link[k] = s.hub.link[k]) ∧ h =
    { s.hub with link := h.link }) ∧
  (∀ (l : Fin 2) (f : Frame) (s : State), f.isRing 0x02 → s.hub.bit (F.X_CTL_SHIFT_EN (ringLink l)) → (f.word
    1).bits 1 0 < s.hub.fld (F.X_STAT_RATE_ACT (ringLink l)) → s.hub.ownUpshift (ringLink l) = false → Runs
    (.shiftPropose l f) s fun h => (h.link[ringLink l]).agreed = some ((f.word 1).bits 1 0) ∧ h.sentCtl (ringLink l)
    3 = true ∧ (∀ k : Fin 4, k ≠ ringLink l → h.link[k] = s.hub.link[k])) ∧
  (∀ (l : Fin 2) (f : Frame) (s : State), f.isRing 0x02 → s.hub.bit (F.X_CTL_SHIFT_EN (ringLink l)) = false →
    s.hub.fld (F.X_STAT_RATE_ACT (ringLink l)) ≤ (f.word 1).bits 1 0 → Runs (.shiftPropose l f) s fun h => h.sentCtl
    (ringLink l) 4 = true ∧ (h.link[ringLink l]).proposed = (s.hub.link[ringLink l]).proposed ∧ (h.link[ringLink
    l]).agreed = (s.hub.link[ringLink l]).agreed ∧ (∀ k : Fin 4, k ≠ ringLink l → h.link[k] = s.hub.link[k])) ∧
  (∀ (l : Fin 2) (f : Frame) (r far : Nat) (s : State), f.isRing 0x03 → (s.hub.link[ringLink l]).proposed = some r →
    s.hub.neighbour s.hub.node ((ringLink l) == 1) = some far → s.hub.isMaster = false → Runs (.shiftAgree l f) s
    fun h => h = s.hub.ringCtl s.hub.master 0x1B 0 [BitVec.ofNat 32 (far * 2 ^ 24 + r), BitVec.ofNat 32
    ((s.hub.link[ringLink l]).util % 1024)] ∧ h.link = s.hub.link) ∧
  (∀ (l : Fin 2) (f : Frame) (s : State), f.isRing 0x04 → Runs (.shiftReject l f) s fun h => (h.link[ringLink
    l]).proposed = none ∧ (∀ k : Fin 4, k ≠ ringLink l → h.link[k] = s.hub.link[k]) ∧ h =
    { s.hub with link := h.link }) ∧
  (∀ (f : Frame) (r : Nat) (s : State), f.isRing 0x1C → ((s.hub.link[0]).proposed = some r) →
    (s.hub.link[1]).proposed = none → (f.word 1).bit 0 → Runs (.shiftAns f) s fun h => (h.link[0]).agreed = some r ∧
    (h.link[0]).proposed = some r ∧ (∀ k : Fin 4, k.val ≠ 0 → h.link[k] = s.hub.link[k]) ∧ h =
    { s.hub with link := h.link }) ∧
  (∀ (f : Frame) (r : Nat) (s : State), f.isRing 0x1C → ((s.hub.link[0]).proposed = some r) →
    (s.hub.link[1]).proposed = none → (f.word 1).bit 0 = false → s.hub.fld (F.X_STAT_RATE_ACT 0) < r → Runs
    (.shiftAns f) s fun h => (h.link[0]).proposed = none ∧ (h.link[0]).holdoff = s.hub.now + s.hub.fld
    (F.X_SHIFTT_HOLDOFF 0) * 400000 ∧ h.bit (F.X_FLAG_SHIFT_REF 0) = true ∧ (∀ k : Fin 4, k.val ≠ 0 → h.link[k] =
    s.hub.link[k])) ∧
  (∀ (l : Fin 2) (r : Nat) (s : State), (s.hub.link[ringLink l]).agreed = some r → r < 4 → s.hub.linkIsUp (ringLink
    l) → s.hub.bit (wrapFld (ringLink l)) → s.hub.portEmpty (portOf (ringLink l)) → Runs (.shiftDrainEnd l) s fun h
    => h.lk (ringLink l) = lkSHIFT ∧ h.fld (F.X_STAT_RATE_ACT (ringLink l)) = r ∧ (h.link[ringLink l]).from_ = some
    (s.hub.fld (F.X_STAT_RATE_ACT (ringLink l))) ∧ (h.link[ringLink l]).verified = false ∧ (∀ k : Fin 4, k ≠
    ringLink l → h.link[k] = s.hub.link[k]) ∧ h = { s.hub with fields := h.fields, hw := h.hw, link := h.link }) ∧
  (∀ (l : Fin 2) (r : Nat) (s : State), (s.hub.link[ringLink l]).agreed = some r → s.hub.linkIsUp (ringLink l) →
    s.hub.bit (wrapFld (ringLink l)) → s.hub.portEmpty (portOf (ringLink l)) = false → (s.hub.link[ringLink
    l]).drainEnd ≤ s.hub.now → Runs (.shiftDrainEnd l) s fun h => (h.link[ringLink l]).agreed = none ∧
    (h.link[ringLink l]).proposed = none ∧ h.bit (F.X_FLAG_SHIFT_ABORT (ringLink l)) = true ∧ h.lk (ringLink l) =
    linkUP ∧ (∀ k : Fin 4, k ≠ ringLink l → h.link[k] = s.hub.link[k])) ∧
  (∀ (l : Fin 2) (r : Nat) (s : State), s.hub.lk (ringLink l) = lkSHIFT → (s.hub.link[ringLink l]).from_ = some r →
    r < 4 → (s.hub.link[ringLink l]).trainEnd ≤ s.hub.now → Runs (.shiftRetrainTimeout l) s fun h => h.fld
    (F.X_STAT_RATE_ACT (ringLink l)) = r ∧ (h.link[ringLink l]).failed = true ∧ h.lk (ringLink l) = lkSHIFT ∧ (∀ k :
    Fin 4, k ≠ ringLink l → h.link[k] = s.hub.link[k]) ∧ h =
    { s.hub with fields := h.fields, hw := h.hw, link := h.link } ∧ SameRegs s.hub h [F.X_STAT_RATE_ACT (ringLink
    l)]) ∧
  (∀ (f : Frame) (s : State), f.isRing 0x1B → s.hub.isMaster → (s.hub.shiftDecide f.hdr.snode.toNat (f.word 1)
    (f.word 2)).2 = none → Runs (.shiftReq f) s fun h => h.ring.shiftAt = s.hub.ring.shiftAt ∧ h.ring.plans =
    s.hub.ring.plans ∧ h.link = s.hub.link) ∧
  (∀ (f : Frame) (z : BitVec 64) (s : State), f.isRing 0x1B → s.hub.isMaster → (s.hub.shiftDecide f.hdr.snode.toNat
    (f.word 1) (f.word 2)).2 = some z → Runs (.shiftReq f) s fun h => h.ring.shiftAt = some s.hub.now ∧
    h.ring.shiftFar.isSome = true ∧ h.ring.plans.length = s.hub.ring.plans.length + 1 ∧ h.link = s.hub.link)

/-- A member 0 that takes part and knows a master asks it for an ID with its UID, its wish and its stack size (R282,
  R288). The master grants the ID its rule gives, raises the epoch, keeps the UID of the ID, clears the windows of
  that ID and answers JOIN_ACK; with no ID to give it answers JOIN_NAK with the reason (R281, R283, R284). The hub
  whose UID a JOIN_ACK names takes ID and epoch and is JOINED with RNG_FLAG.JOINED; a JOIN_NAK records the reason,
  counts it, sets REFUSED and is logged (R282). ID_PUSH gives a member 1-3 the node ID (R288). -/
def Obligations.RingJoining : Prop :=
  (∀ (s : State), s.hub.takesPart → s.hub.master ≠ 0 → s.hub.fld F.RNG_STAT_JOIN ≠ jnJOINED → s.hub.fld
    F.RNG_STAT_JOIN ≠ jnMASTER → s.hub.fld F.RNG_STAT_JOIN ≠ jnREFUSED → (s.hub.ring.joinAt.all (fun t => decide (t
    + us 1000 ≤ s.hub.now))) → Runs (.joinReqSend) s fun h => (h = ((s.hub.join jnJOINING).modRing fun r =>
    { r with joinAt := some s.hub.now }).ringCtl s.hub.master 0x10 0 (s.hub.uidWords ++ [BitVec.ofNat 32 ((if
    s.hub.ring.oldId = 0 then s.hub.fld F.RNG_JOINCFG_REQID else s.hub.ring.oldId) * 2 ^ 24 + s.hub.fld
    F.RNG_JOINCFG_STRICT * 2 ^ 23 + s.hub.fld F.RNG_JOINCFG_MEMBERS * 2 ^ 16)])) ∧ h.fld F.RNG_STAT_JOIN = jnJOINING
    ∧ h.link = s.hub.link) ∧
  (∀ (s : State), (s.hub.takesPart = false ∨ s.hub.master = 0 ∨ s.hub.ring.joinAt.any (fun t => decide (s.hub.now <
    t + us 1000))) → Runs (.joinReqSend) s fun h => h = s.hub) ∧
  (∀ (f : Frame) (id : Nat) (s : State), f.isRing 0x10 → s.hub.isMaster → s.hub.joinGrant f.uid (f.word 3) = .inr id
    → Runs (.joinReq f) s fun h => (h.ring.ids = (id, f.uid) :: s.hub.ring.ids.filter (fun p => p.1 != id)) ∧ h.fld
    F.RNG_EPOCH_EPOCH = (s.hub.fld F.RNG_EPOCH_EPOCH + 1) % 65536 ∧ (h.ring.bc = s.hub.ring.bc.filter (fun v =>
    v.node.toNat != id)) ∧ h.ring.topoE = none ∧ (∀ l : Fin 4, l ≠ 3 → h.link[l] = s.hub.link[l])) ∧
  (∀ (f : Frame) (why : Nat) (s : State), f.isRing 0x10 → s.hub.isMaster → s.hub.joinGrant f.uid (f.word 3) = .inl
    why → Runs (.joinReq f) s fun h => h = s.hub.ringCtl 255 0x12 0 [f.word 1, f.word 2, BitVec.ofNat 32 why] ∧
    h.ring.ids = s.hub.ring.ids ∧ h.link = s.hub.link) ∧
  (∀ (f : Frame) (s : State), s.hub.isMaster = false → Runs (.joinReq f) s fun h => h = s.hub) ∧
  (∀ (f : Frame) (s : State), f.isRing 0x11 → f.uid = s.hub.fuse.uid → s.hub.isMaster = false → Runs (.joinAck f) s
    fun h => h.fld F.GLB_SELF_NODE = (f.word 3).bits 31 24 ∧ h.fld F.RNG_STAT_JOIN = jnJOINED ∧ h.fld
    F.RNG_EPOCH_EPOCH = (f.word 3).bits 15 0 ∧ h.bit F.RNG_FLAG_JOINED = true ∧ h.ring.oldId = 0 ∧ (∀ l : Fin 4, l ≠
    3 → h.link[l] = s.hub.link[l]) ∧ SameRegs s.hub h [F.GLB_SELF_NODE, F.GLB_SELF_MEMBER, F.RNG_STAT_JOIN,
    F.RNG_EPOCH_EPOCH, F.RNG_FLAG_JOINED, F.X_TXFRM 3, F.X_TXBYTE 3, F.X_TXBIN_COUNT 3 0, F.X_FLAG_CNT_HALF 3]) ∧
  (∀ (f : Frame) (s : State), f.isRing 0x11 → f.uid ≠ s.hub.fuse.uid → Runs (.joinAck f) s fun h => (h.ring.bc =
    s.hub.ring.bc.filter (fun v => v.node.toNat != (f.word 3).bits 31 24)) ∧ (h.ring.mg = s.hub.ring.mg.filter (fun
    v => v.node.toNat != (f.word 3).bits 31 24)) ∧ h = { s.hub with ring := h.ring }) ∧
  (∀ (f : Frame) (s : State), f.isRing 0x12 → f.uid = s.hub.fuse.uid → Runs (.joinNak f) s fun h => h.fld
    F.RNG_STAT_JOIN = jnREFUSED ∧ h.fld F.RNG_NAK_REASON = (f.word 3).bits 7 0 ∧ h.bit F.RNG_FLAG_REFUSED = true ∧
    (h.fld F.GLB_SELF_NODE = if (f.word 3).bits 7 0 = 2 ∧ s.hub.ring.oldId ≠ 0 then 0 else s.hub.node) ∧ h.link =
    s.hub.link) ∧
  (∀ (f : Frame) (s : State), f.isRing 0x06 → s.hub.member ≠ 0 → Runs (.idPush f) s fun h => h.fld F.GLB_SELF_NODE =
    (f.word 1).bits 31 24 ∧ h.fld F.RNG_EPOCH_EPOCH = (f.word 1).bits 15 0 ∧ (∀ l : Fin 4, l ≠ 3 → h.link[l] =
    s.hub.link[l]) ∧ SameRegs s.hub h [F.GLB_SELF_NODE, F.GLB_SELF_MEMBER, F.RNG_EPOCH_EPOCH, F.X_TXFRM 3,
    F.X_TXBYTE 3, F.X_TXBIN_COUNT 3 0, F.X_FLAG_CNT_HALF 3]) ∧
  (∀ (f : Frame) (s : State), s.hub.member = 0 → Runs (.idPush f) s fun h => h = s.hub)

/-- A candidate with a priority, no master and no better claim heard broadcasts its claim (R285). A better claim
  makes it withdraw, and makes a master resign and clear its master (R285, R287). A candidate whose time is over
  becomes the master with its ID, itself as the master known, no longer electing (R285). The master's heartbeat
  carries its UID, epoch and priority; a heartbeat renews the known master, gives a hub without one its master, and
  makes a worse master join the better one (R286, R287). With no heartbeat the master is cleared and node IDs stay
  (R286). -/
def Obligations.RingElection : Prop :=
  (∀ (s : State), s.hub.takesPart → s.hub.fld F.RNG_ELECT_PRIO ≠ 0 → s.hub.master = 0 → s.hub.ring.electing = false
    → s.hub.ring.quietAt + us (max 1 (s.hub.fld F.RNG_ELECT_WAIT) * 1000) ≤ s.hub.now → Runs (.electStart) s fun h
    => h.ring.electing = true ∧ h.fld F.RNG_STAT_JOIN = jnELECTING ∧ (h = ((s.hub.modRing fun r =>
    { r with electing := true, electAt := s.hub.now, claimAt := s.hub.now }).join jnELECTING).ringCtl 255 0x13 0
    (s.hub.uidWords ++ [BitVec.ofNat 32 (s.hub.fld F.RNG_ELECT_PRIO)])) ∧ h.link = s.hub.link) ∧
  (∀ (s : State), (s.hub.fld F.RNG_ELECT_PRIO = 0 ∨ s.hub.master ≠ 0 ∨ (s.hub.ring.electing ∧ s.hub.now <
    s.hub.ring.electAt + us 1000)) → Runs (.electStart) s fun h => h = s.hub) ∧
  (∀ (s : State), s.hub.takesPart → s.hub.fld F.RNG_ELECT_PRIO ≠ 0 → s.hub.master = 0 → s.hub.ring.electing →
    s.hub.ring.electAt + us 1000 ≤ s.hub.now → Runs (.electStart) s fun h => (h = ((s.hub.modRing fun r =>
    { r with electAt := s.hub.now }).join jnELECTING).ringCtl 255 0x13 0 (s.hub.uidWords ++ [BitVec.ofNat 32
    (s.hub.fld F.RNG_ELECT_PRIO)])) ∧ h.link = s.hub.link) ∧
  (∀ (f : Frame) (s : State), f.isRing 0x13 → better ((f.word 3).bits 7 0) f.uid (s.hub.fld F.RNG_ELECT_PRIO)
    s.hub.fuse.uid → s.hub.isMaster = false → s.hub.ring.electing → Runs (.elect f) s fun h => h.ring =
    { s.hub.ring with electing := false, quietAt := s.hub.now } ∧ h.fld F.RNG_STAT_JOIN = jnWAIT ∧ h =
    { s.hub with ring := h.ring, fields := h.fields, hw := h.hw } ∧ SameRegs s.hub h [F.RNG_STAT_JOIN]) ∧
  (∀ (f : Frame) (s : State), f.isRing 0x13 → better ((f.word 3).bits 7 0) f.uid (s.hub.fld F.RNG_ELECT_PRIO)
    s.hub.fuse.uid → s.hub.isMaster → s.hub.master ≠ 0 → Runs (.elect f) s fun h => h.master = 0 ∧ h.fld
    F.RNG_STAT_JOIN = jnWAIT ∧ h.ring.oldId = s.hub.node ∧ h.bit F.RNG_FLAG_MASTER = true ∧ SameRegs s.hub h
    [F.RNG_STAT_JOIN, F.RNG_STAT_MASTER, F.RNG_FLAG_MASTER] ∧ h.node = s.hub.node) ∧
  (∀ (f : Frame) (s : State), f.isRing 0x13 → (better ((f.word 3).bits 7 0) f.uid (s.hub.fld F.RNG_ELECT_PRIO)
    s.hub.fuse.uid) = false → Runs (.elect f) s fun h => h = s.hub) ∧
  (∀ (s : State), s.hub.ring.electing → s.hub.ring.claimAt + us 3000 ≤ s.hub.now → Runs (.electWin) s fun h =>
    h.isMaster = true ∧ h.ring.electing = false ∧ h.ring.masterUid = s.hub.fuse.uid ∧ h.ring.prio = s.hub.fld
    F.RNG_ELECT_PRIO ∧ h.master = h.node ∧ (s.hub.node ≠ 0 → h.node = s.hub.node % 2 ^ F.GLB_SELF_NODE.w) ∧ (∀ l :
    Fin 4, l ≠ 3 → h.link[l] = s.hub.link[l])) ∧
  (∀ (s : State), (s.hub.ring.electing = false ∨ s.hub.now < s.hub.ring.claimAt + us 3000) → Runs (.electWin) s fun
    h => h = s.hub) ∧
  (∀ (s : State), s.hub.isMaster → s.hub.ring.hbAt + us 1000 ≤ s.hub.now → Runs (.masterHbSend) s fun h => (h =
    (s.hub.modRing fun r => { r with hbAt := s.hub.now }).ringCtl 255 0x14 0 (s.hub.uidWords ++ [BitVec.ofNat 32
    (s.hub.fld F.RNG_EPOCH_EPOCH * 2 ^ 16 + s.hub.fld F.RNG_ELECT_PRIO)])) ∧ h.link = s.hub.link) ∧
  (∀ (s : State), (s.hub.isMaster = false ∨ s.hub.now < s.hub.ring.hbAt + us 1000) → Runs (.masterHbSend) s fun h =>
    h = s.hub) ∧
  (∀ (f : Frame) (s : State), f.isRing 0x14 → s.hub.isMaster = false → s.hub.master = 0 → Runs (.masterHb f) s fun h
    => h.master = f.hdr.snode.toNat ∧ h.ring.masterUid = f.uid ∧ h.ring.prio = (f.word 3).bits 7 0 ∧ h.ring.hbAt =
    s.hub.now ∧ (h.fld F.RNG_STAT_JOIN = if s.hub.fld F.RNG_STAT_JOIN = jnJOINED ∨ (s.hub.node ≠ 0 ∧
    s.hub.ring.oldId = 0) then jnJOINED else jnJOINING) ∧ SameRegs s.hub h [F.RNG_STAT_JOIN, F.RNG_STAT_MASTER,
    F.RNG_FLAG_MASTER] ∧ h.link = s.hub.link) ∧
  (∀ (f : Frame) (s : State), f.isRing 0x14 → s.hub.isMaster → better ((f.word 3).bits 7 0) f.uid (s.hub.fld
    F.RNG_ELECT_PRIO) s.hub.fuse.uid → Runs (.masterHb f) s fun h => h.master = f.hdr.snode.toNat ∧ h.fld
    F.RNG_STAT_JOIN = jnJOINING ∧ h.ring.oldId = s.hub.node ∧ h.ring.masterUid = f.uid ∧ SameRegs s.hub h
    [F.RNG_STAT_JOIN, F.RNG_STAT_MASTER, F.RNG_FLAG_MASTER]) ∧
  (∀ (s : State), s.hub.isMaster = false → s.hub.master ≠ 0 → s.hub.ring.hbAt + us 3000 ≤ s.hub.now → Runs
    (.masterLost) s fun h => h.master = 0 ∧ h.bit F.RNG_FLAG_MASTER = true ∧ h.ring.electing = false ∧
    h.ring.quietAt = s.hub.now ∧ h.node = s.hub.node ∧ SameRegs s.hub h [F.RNG_STAT_JOIN, F.RNG_STAT_MASTER,
    F.RNG_FLAG_MASTER] ∧ h.link = s.hub.link) ∧
  (∀ (s : State), (s.hub.isMaster = true ∨ s.hub.master = 0 ∨ s.hub.now < s.hub.ring.hbAt + us 3000) → Runs
    (.masterLost) s fun h => h = s.hub)

/-- The master's sweep starts with no TOPO frame back; a TOPO that passes a node with W 0 takes its entry and goes
  on; one of the present epoch that returns is kept until both are back (R289). A TOPO_MAP gives a node the map, its
  count and the epoch, and sets RNG_FLAG.TOPO (R289). WRAP at the master drops the link from those reported up and
  sweeps; LINKUP of a shifted link is unwrapped at once, another waits until its hold expires (R289, R295, R296).
  UNWRAP and WRAP_PLAN are kept with their time; at it they are done at their end of the link and the map is steered
  (R295, R296). RESET of the current master is scheduled, a foreign one is not (R298). A broadcast already seen is
  only counted (R281). -/
def Obligations.RingTopologyAndWraps : Prop :=
  (∀ (s : State), s.hub.isMaster → s.hub.ring.sweepAt + us (max 1 (s.hub.fld F.RNG_TIMING_TOPO) * 1000) ≤ s.hub.now
    → Runs (.topoSweep) s fun h => h = s.hub.topoSweep ∧ h.ring.topoE = none ∧ h.ring.topoW = none ∧ h.link =
    s.hub.link) ∧
  (∀ (s : State), (s.hub.isMaster = false ∨ s.hub.now < s.hub.ring.sweepAt + us (max 1 (s.hub.fld F.RNG_TIMING_TOPO)
    * 1000)) → Runs (.topoSweep) s fun h => h = s.hub) ∧
  (∀ (p : Fin 2) (f : Frame) (s : State), f.isRing 0x15 → f.hdr.snode.toNat ≠ s.hub.node → f.hdr.w = false → Runs
    (.topo p f) s fun h => h = s.hub.forward ⟨p, by omega⟩ (s.hub.topoWrite f) ∧ h.ring.map = s.hub.ring.map ∧
    h.lanes = s.hub.lanes) ∧
  (∀ (p : Fin 2) (f : Frame) (s : State), f.isRing 0x15 → f.hdr.snode.toNat = s.hub.node → s.hub.node ≠ 0 →
    s.hub.isMaster → (f.word 0).bits 15 0 = s.hub.fld F.RNG_EPOCH_EPOCH → f.hdr.d = false → s.hub.ring.topoW = none
    → Runs (.topo p f) s fun h => h.ring.topoE = some (topoEntries f) ∧ h = { s.hub with ring := h.ring } ∧
    h.ring.map = s.hub.ring.map) ∧
  (∀ (f : Frame) (s : State), f.isRing 0x16 → s.hub.isMaster = false → Runs (.topoMap f) s fun h => (h.ring.map =
    some ((List.range ((f.word 1).bits 7 0)).map fun i =>
    { id := (f.pay.getD (8 + i) 0).toNat, up := (f.pay.getD (8 + (f.word 1).bits 7 0 + i) 0).getLsbD 1, wrapped := (f.pay.getD (8 + (f.word 1).bits 7 0 + i) 0).getLsbD 0 : TopoPos }))
    ∧ h.fld F.RNG_STAT_COUNT = (f.word 1).bits 7 0 ∧ h.fld F.RNG_EPOCH_EPOCH = (f.word 0).bits 15 0 ∧ h.bit
    F.RNG_FLAG_TOPO = true ∧ (∀ l : Fin 4, l ≠ 3 → h.link[l] = s.hub.link[l])) ∧
  (∀ (f : Frame) (a b : BitVec 8) (s : State), f.isRing 0x17 → s.hub.isMaster → s.hub.linkOf f.hdr.snode.toNat
    ((f.word 1).bit 0) = some (a, b) → Runs (.wrap f) s fun h => (h.ring.linkUp = s.hub.ring.linkUp.filter (fun l =>
    (l.1, l.2.1) != (a, b))) ∧ h.ring.topoE = none ∧ h.ring.topoW = none ∧ h.link = s.hub.link) ∧
  (∀ (f : Frame) (a b : BitVec 8) (s : State), f.isRing 0x18 → s.hub.isMaster → s.hub.linkOf f.hdr.snode.toNat
    ((f.word 1).bit 0) = some (a, b) → s.hub.ring.shiftFar ≠ some (a, b) → (s.hub.ring.linkUp.all (fun x => (x.1,
    x.2.1) != (a, b))) → Runs (.linkup f) s fun h => h.ring.linkUp = (a, b, s.hub.now) :: s.hub.ring.linkUp ∧ h =
    { s.hub with ring := h.ring }) ∧
  (∀ (f : Frame) (a b : BitVec 8) (s : State), f.isRing 0x18 → s.hub.isMaster → s.hub.linkOf f.hdr.snode.toNat
    ((f.word 1).bit 0) = some (a, b) → s.hub.ring.shiftFar = some (a, b) → Runs (.linkup f) s fun h =>
    h.ring.shiftFar = none ∧ h.ring.plans = s.hub.ring.plans ++ [⟨false, a, b, s.hub.timeIn (s.hub.fld
    F.RNG_PLAN_LEAD)⟩] ∧ h.link = s.hub.link) ∧
  (∀ (a b : BitVec 8) (s : State), s.hub.isMaster → s.hub.heldUp a b → Runs (.unwrapHoldExpire a b) s fun h =>
    h.ring.plans = s.hub.ring.plans ++ [⟨false, a, b, s.hub.timeIn (s.hub.fld F.RNG_PLAN_LEAD)⟩] ∧ (h.ring.linkUp =
    s.hub.ring.linkUp.filter (fun l => (l.1, l.2.1) != (a, b))) ∧ h.link = s.hub.link) ∧
  (∀ (a b : BitVec 8) (s : State), s.hub.heldUp a b = false → Runs (.unwrapHoldExpire a b) s fun h => h = s.hub) ∧
  (∀ (f : Frame) (s : State), f.isRing 0x19 → s.hub.ring.plans.contains ⟨false, (f.word 1).extractLsb' 24 8, (f.word
    1).extractLsb' 16 8, f.hdr.adr⟩ = false → Runs (.unwrap f) s fun h => h.ring.plans = s.hub.ring.plans ++
    [⟨false, (f.word 1).extractLsb' 24 8, (f.word 1).extractLsb' 16 8, f.hdr.adr⟩] ∧ h =
    { s.hub with ring := h.ring }) ∧
  (∀ (f : Frame) (s : State), f.isRing 0x1A → s.hub.ring.plans.contains ⟨true, (f.word 1).extractLsb' 24 8, (f.word
    1).extractLsb' 16 8, f.hdr.adr⟩ = false → Runs (.wrapPlan f) s fun h => h.ring.plans = s.hub.ring.plans ++
    [⟨true, (f.word 1).extractLsb' 24 8, (f.word 1).extractLsb' 16 8, f.hdr.adr⟩] ∧ h =
    { s.hub with ring := h.ring }) ∧
  (∀ (q : Plan) (s : State), s.hub.ring.plans = [q] → q.wrap = false → s.hub.timeCome q.at_ → s.hub.portOn q.a q.b =
    some 0 → s.hub.linkIsUp 0 → s.hub.isMaster = false → Runs (.unwrapTime) s fun h => h.ring.plans = [] ∧ h.bit
    F.RNG_STAT_WRAPE = false ∧ h.bit F.RNG_FLAG_UNWRAP = true ∧ h.ring.map = (s.hub.steer q).ring.map ∧ SameRegs
    s.hub h [F.RNG_STAT_WRAPE, F.RNG_FLAG_UNWRAP] ∧ h.link = s.hub.link) ∧
  (∀ (s : State), (s.hub.ring.plans.all fun q => !s.hub.timeCome q.at_) → Runs (.unwrapTime) s fun h => h = s.hub) ∧
  (∀ (q : Plan) (s : State), s.hub.ring.plans = [q] → q.wrap → s.hub.timeCome q.at_ → s.hub.portOn q.a q.b = some 1
    → s.hub.bit F.RNG_STAT_WRAPW = false → (s.hub.link[1]).agreed = none → Runs (.wrapPlanTime) s fun h => h =
    (({ s.hub with ring := { s.hub.ring with plans := [] } }).steer q).wrapOn 1 7 ∧ h.bit F.RNG_STAT_WRAPW = true ∧
    h.bit F.RNG_FLAG_WRAP = true ∧ h.ring.plans = [] ∧ h.link = s.hub.link) ∧
  (∀ (q : Plan) (s : State), s.hub.ring.plans = [q] → q.wrap → s.hub.timeCome q.at_ → s.hub.portOn q.a q.b = some 1
    → s.hub.bit F.RNG_STAT_WRAPW = false → (s.hub.link[1]).agreed.isSome → Runs (.wrapPlanTime) s fun h => (h =
    ((({ s.hub with ring := { s.hub.ring with plans := [] } }).modLink 1 fun k =>
    { k with drainEnd := s.hub.now + us (s.hub.fld (F.X_SHIFTT_DRAIN 1)) }).steer q).wrapOn 1 7) ∧
    (h.link[1]).drainEnd = s.hub.now + us (s.hub.fld (F.X_SHIFTT_DRAIN 1)) ∧ h.bit F.RNG_STAT_WRAPW = true ∧ h.bit
    F.RNG_FLAG_WRAP = true ∧ h.ring.plans = [] ∧ (∀ k : Fin 4, k ≠ 1 → h.link[k] = s.hub.link[k])) ∧
  (∀ (f : Frame) (s : State), f.isRing 0x1D → f.hdr.snode.toNat = s.hub.master → s.hub.master ≠ 0 → Runs
    (.ringResetFrame f) s fun h => h.ring.ringReset = some f.hdr.adr ∧ h = { s.hub with ring := h.ring }) ∧
  (∀ (f : Frame) (s : State), f.isRing 0x1D → f.hdr.snode.toNat ≠ s.hub.master → Runs (.ringResetFrame f) s fun h =>
    h = s.hub.raise 1 (fUnit 0x18) causePROTO f.hdr.snode.toNat ∧ h.ring = s.hub.ring ∧ h.link = s.hub.link) ∧
  (∀ (z : BitVec 64) (s : State), s.hub.ring.ringReset = some z → s.hub.timeCome z → Runs (.ringResetTime) s fun h
    => h = s.hub.warmRst.hwSet F.GLB_RST_CAUSE_RING ∧ h.bit F.GLB_RST_CAUSE_RING = true ∧ h.ring.ringReset = none) ∧
  (∀ (s : State), s.hub.ring.ringReset = none → Runs (.ringResetTime) s fun h => h = s.hub) ∧
  (∀ (p : Fin 4) (bs : List Byte) (rx : RxEnd) (ecl : Bool) (s : State), bs.length < 32 → (headerOf bs).typ ≠
    tBEACON → rx.mm = false → Runs (.ringFrameReceived p bs rx ecl) s fun h => h = (((s.hub.count (F.X_FECCORR p)
    rx.corr).count (F.X_FECUNC p) rx.unc).putLpi p (s.hub.link[p]).lpiTx false).count (F.X_RXUNDSZ p) ∧ h.lanes =
    s.hub.lanes) ∧
  (∀ (p : Fin 4) (bs : List Byte) (rx : RxEnd) (ecl : Bool) (s : State), 32 ≤ bs.length → bs.length ≤ 9240 →
    hcrcGood bs = false → (headerOf bs).typ ≠ tBEACON → rx.mm = false → Runs (.ringFrameReceived p bs rx ecl) s fun
    h => h = ((((s.hub.count (F.X_FECCORR p) rx.corr).count (F.X_FECUNC p) rx.unc).putLpi p (s.hub.link[p]).lpiTx
    false).rxCount p bs.length false).count (F.X_RXHCRC p) ∧ h.lanes = s.hub.lanes) ∧
  (∀ (p : Fin 4) (bs : List Byte) (s : State), 32 ≤ bs.length → bs.length ≤ 9240 → hcrcGood bs → fcsGood bs →
    headerBad (frameOfWire bs).hdr = false → p.val < 2 → s.hub.member = 0 → ((((s.hub.count (F.X_FECCORR p) 0).count
    (F.X_FECUNC p) 0).putLpi p (s.hub.link[p]).lpiTx false).rxCount p bs.length true).linkIsUp p → (frameOfWire
    bs).hdr.typ = tEVENT → (frameOfWire bs).hdr.dnode ≠ 0 → (frameOfWire bs).hdr.dnode ≠ 255 → (frameOfWire
    bs).hdr.dnode.toNat ≠ ((((s.hub.count (F.X_FECCORR p) 0).count (F.X_FECUNC p) 0).putLpi p (s.hub.link[p]).lpiTx
    false).rxCount p bs.length true).node → (frameOfWire bs).hdr.snode.toNat ≠ ((((s.hub.count (F.X_FECCORR p)
    0).count (F.X_FECUNC p) 0).putLpi p (s.hub.link[p]).lpiTx false).rxCount p bs.length true).node → Runs
    (.ringFrameReceived p bs {} false) s fun h => h = ((((s.hub.count (F.X_FECCORR p) 0).count (F.X_FECUNC p)
    0).putLpi p (s.hub.link[p]).lpiTx false).rxCount p bs.length true).forward p (frameOfWire bs) true ∧ h.lanes =
    s.hub.lanes)

/-- DRN_CTL.EN is set for a fit schedule and refused with CFG_ERR otherwise (R307, R325). A cycle starts with the
  number the Gnomon gives, the commit in force and the freeze of the live area into its bank (R299, R324); waiting
  writes go on when the time of the copy is over (R324). From LEAD on the master sends each frame both ways, once a
  cycle (R299). A good copy at a node records HOPS and EXP, and a copy of an unknown cycle is stale (R299,
  R302-R304). A frame with no head in time is regenerated and flagged, after one DRN_LATE downstream; a DRN_LATE
  from upstream is kept (R304). From their times on CLOSE ends the master's inputs and APPLY takes the cycle's
  entries, marking unfilled ones STALE (R299, R303, R328). -/
def Obligations.DroneCycle : Prop :=
  (∀ (a : Access) (s : State), s.hub.lets a 0x85000 → s.hub.bit F.DRN_CTL_EN = false → s.hub.drnFit → Runs
    (.droneEnable a) s fun h => h.bit F.DRN_CTL_EN = true ∧ h = { s.hub with fields := h.fields, hw := h.hw } ∧
    SameRegs s.hub h [F.DRN_CTL_EN]) ∧
  (∀ (a : Access) (s : State), s.hub.lets a 0x85000 → s.hub.bit F.DRN_CTL_EN = false → s.hub.drnFit = false → Runs
    (.droneEnable a) s fun h => h.bit F.DRN_CTL_EN = false ∧ h.bit F.DRN_FLAG_CFG_ERR = true ∧ h =
    { s.hub with fields := h.fields, hw := h.hw, out := h.out } ∧ SameRegs s.hub h [F.DRN_FLAG_CFG_ERR]) ∧
  (∀ (k : Nat) (s : State), s.hub.bit F.DRN_CTL_EN → s.hub.cycleNow = some k → (s.hub.drn.cyc.all fun c => c.no !=
    k) → s.hub.member = 0 → s.hub.shadowUnit = false → Runs (.cycleStart) s fun h => (h.drn.cyc.map (fun c => c.no)
    = k :: (s.hub.drn.cyc.take 1).map (fun c => c.no)) ∧ h.pim.freezing = true ∧ h.pim.no = k ∧ h.drn.part = true ∧
    h.bit F.DRN_COMMIT_GO = false ∧ h.link = s.hub.link) ∧
  (∀ (s : State), s.hub.bit F.DRN_CTL_EN = false → s.hub.bit F.DRN_COMMIT_GO = false → Runs (.cycleStart) s fun h =>
    h.drn.cyc = [] ∧ h.drn.part = false ∧ h = { s.hub with drn := h.drn }) ∧
  (∀ (s : State), s.hub.pim.freezing → s.hub.pim.endAt ≤ s.hub.now → Runs (.freezeDone) s fun h => h.pim.freezing =
    false ∧ h.pim.wait = [] ∧ h.pim.stale = s.hub.pim.stale ∧ h.drn = s.hub.drn) ∧
  (∀ (s : State), (s.hub.pim.freezing = false ∨ s.hub.now < s.hub.pim.endAt) → Runs (.freezeDone) s fun h => h =
    s.hub) ∧
  (∀ (c : Cycle) (n : Nat) (s : State), s.hub.drn.cyc = [c] → c.sent = false → s.hub.bit F.DRN_CTL_EN →
    s.hub.isMaster → (∀ i : Fin 64, s.hub.bit (F.DRN_FRM_V i) = decide (i.val = n)) → n < 64 → s.hub.bit
    (F.DRN_FRM_INSV n) = false → s.hub.fld F.DRN_TIMES_LEAD ≤ s.hub.since c → Runs (.droneSend) s fun h => (h =
    (((s.hub.modCyc c.no fun c => { c with sent := true }).route 0 5
    { hdr := (s.hub.modCyc c.no fun c => { c with sent := true }).droneHdr c 0 n (min 9216 (max 16 (s.hub.fld (F.DRN_FRM_LEN n)))) (BitVec.ofNat 9 s.hub.hopsOut) false, pay := List.replicate (min 9216 (max 16 (s.hub.fld (F.DRN_FRM_LEN n)))) 0 }).1.route
    1 5
    { hdr := (s.hub.modCyc c.no fun c => { c with sent := true }).droneHdr c 1 n (min 9216 (max 16 (s.hub.fld (F.DRN_FRM_LEN n)))) (BitVec.ofNat 9 s.hub.hopsOut) false, pay := List.replicate (min 9216 (max 16 (s.hub.fld (F.DRN_FRM_LEN n)))) 0 }).1)
    ∧ h.drn.cyc = [{ c with sent := true }] ∧ h.lanes = s.hub.lanes) ∧
  (∀ (c : Cycle) (s : State), s.hub.drn.cyc.head? = some c → (c.sent = true ∨ s.hub.since c < s.hub.fld
    F.DRN_TIMES_LEAD) → Runs (.droneSend) s fun h => h = s.hub) ∧
  (∀ (s : State), s.hub.isMaster = false → Runs (.droneSend) s fun h => h = s.hub) ∧
  (∀ (p : Fin 2) (f : Frame) (c : Cycle) (s : State), f.hdr.typ = tDRONE → ((s.hub.drn.cyc.find? fun x => x.at_ ==
    f.hdr.adr) = some c) → s.hub.isMaster → c.closed = false → Runs (.drone p f .good) s fun h => h = s.hub.extract
    c (f.hdr.tag.extractLsb' 0 6).toNat f.pay ∧ h = { s.hub with drn := h.drn } ∧ h.drn.hops = s.hub.drn.hops) ∧
  (∀ (p : Fin 2) (f : Frame) (s : State), f.hdr.typ = tDRONE → ((s.hub.drn.cyc.find? fun x => x.at_ ==
    f.hdr.adr).isNone) → s.hub.isMaster → s.hub.bit F.DRN_CTL_EN → Runs (.drone p f .good) s fun h => h.bit
    F.DRN_FLAG_STALE = true ∧ h.drn = s.hub.drn ∧ h = { s.hub with fields := h.fields, hw := h.hw, out := h.out }) ∧
  (∀ (p : Fin 2) (f : Frame) (c : Cycle) (s : State), f.hdr.typ = tDRONE → ((s.hub.drn.cyc.find? fun x => x.at_ ==
    f.hdr.adr) = some c) → s.hub.isMaster = false → c.regen.getLsbD (64 * b2n f.hdr.d + (f.hdr.tag.extractLsb' 0
    6).toNat) = false → s.hub.bit (F.DRN_FRM_INSV (f.hdr.tag.extractLsb' 0 6).toNat) = false → s.hub.since c < 2 ^
    24 → Runs (.drone p f .good) s fun h => h.fld (expFld (b2n f.hdr.d) (f.hdr.tag.extractLsb' 0 6).toNat) = max 1
    (s.hub.since c) ∧ h.drn.hops.toList.getD (64 * b2n f.hdr.d + (f.hdr.tag.extractLsb' 0 6).toNat) 0 = f.hdr.hops ∧
    (h.drn.cyc.all fun x => x.no != c.no || x.head.getLsbD (64 * b2n f.hdr.d + (f.hdr.tag.extractLsb' 0 6).toNat)) ∧
    h.lanes = s.hub.lanes) ∧
  (∀ (d : Fin 2) (n : Fin 64) (c : Cycle) (s : State), (s.hub.missing d n (fun c => s.hub.regenDue c d n) = some c)
    → Runs (.droneRegen d n) s fun h => h.bit F.DRN_FLAG_REGEN = true ∧ (h.drn.cyc.all fun x => x.no != c.no ||
    (x.head.getLsbD (64 * d.val + n.val) && x.regen.getLsbD (64 * d.val + n.val))) ∧ h.lanes = s.hub.lanes ∧
    h.drn.hops = s.hub.drn.hops) ∧
  (∀ (d : Fin 2) (n : Fin 64) (s : State), s.hub.fld (expFld d n) = 0 → Runs (.droneRegen d n) s fun h => h = s.hub)
    ∧
  (∀ (d : Fin 2) (n : Fin 64) (c : Cycle) (s : State), (s.hub.missing d n (fun _ => s.hub.fld (expFld d n) +
    s.hub.margin / 2) = some c) → c.lateOut.getLsbD (64 * d.val + n.val) = false → Runs (.drnLateSend d n) s fun h
    => h.sentCtl (downPort d) 5 = true ∧ (h = (s.hub.modCyc c.no fun x =>
    { x with lateOut := x.lateOut ||| dirBit d n }).sendLink (downPort d) tRINGCTL (wordsPay [0x05000000#32,
    BitVec.ofNat 32 (c.no % 65536 * 65536 + d.val % 2 * 32768 + n.val)])) ∧ (h.drn.cyc.all fun x => x.no != c.no ||
    x.lateOut.getLsbD (64 * d.val + n.val))) ∧
  (∀ (f : Frame) (s : State), f.isRing 0x05 → Runs (.drnLate f) s fun h => (h.drn.cyc.all fun x => x.no % 65536 !=
    (f.word 1).bits 31 16 || x.late.getLsbD (64 * (f.word 1).bits 15 15 + (f.word 1).bits 5 0)) ∧ h =
    { s.hub with drn := h.drn } ∧ h.drn.hops = s.hub.drn.hops) ∧
  (∀ (c : Cycle) (s : State), s.hub.isMaster → (s.hub.oldestCyc (fun c => !c.closed && decide (s.hub.fld
    F.DRN_CLOSE_CLOSE ≤ s.hub.since c)) = some c) → Runs (.droneClose) s fun h => (h.drn.cyc.all fun x => x.no !=
    c.no || x.closed) ∧ ((s.hub.slots.all fun e => e.2.ins || c.got.any fun v => v.1 == e.1) = false → h.bit
    F.DRN_FLAG_MISS = true) ∧ h = { s.hub with drn := h.drn, fields := h.fields, hw := h.hw, out := h.out }) ∧
  (∀ (s : State), (s.hub.isMaster = false ∨ s.hub.oldestCyc (fun c => !c.closed && decide (s.hub.fld
    F.DRN_CLOSE_CLOSE ≤ s.hub.since c)) = none) → Runs (.droneClose) s fun h => h = s.hub) ∧
  (∀ (c : Cycle) (s : State), s.hub.member = 0 → (s.hub.oldestCyc (fun c => !c.applied && decide (s.hub.fld
    F.DRN_APPLY_APPLY ≤ s.hub.since c)) = some c) → Runs (.droneApply) s fun h => (h.drn.cyc.all fun x => x.no !=
    c.no || x.applied) ∧ (∀ e ∈ s.hub.slots, e.2.ins = false → (c.got.all fun v => v.1 != e.1) = true →
    h.pim.stale.getLsbD e.1 = true) ∧ h.drn.hops = s.hub.drn.hops) ∧
  (∀ (s : State), (s.hub.member ≠ 0 ∨ s.hub.oldestCyc (fun c => !c.applied && decide (s.hub.fld F.DRN_APPLY_APPLY ≤
    s.hub.since c)) = none) → Runs (.droneApply) s fun h => h = s.hub) ∧
  (∀ (c : Cycle) (s : State), s.hub.member ≠ 0 → (s.hub.oldestCyc (fun c => !c.applied) = some c) → Runs
    (.relayCopyComplete) s fun h => (h.drn.cyc.all fun x => x.no != c.no || x.applied) ∧ h.tl = s.hub.tl ∧
    h.drn.hops = s.hub.drn.hops)

/-- CORE_INSTRUCTION executes one RV32IMC instruction of a core that runs (R308). For a 32-bit word in ITCM: an
  arithmetic instruction writes its destination alone and the pc goes on by 4, x0 staying 0; lui and auipc build
  their word; jal and jalr link and jump; a branch chooses the pc; a load from DTCM and a store to it move the four
  bytes; fence only goes on; mret in machine mode returns to mepc. ECALL and the external interrupt of a waiting
  event trap (R319; trap entry of the RISC-V architecture, log entry 34). A core that does not run executes nothing
  (R333). minstret counts what retires. -/
def Obligations.CoreInstructions : Prop :=
  (∀ (n : Fin 8) (w : W32) (o : RvAlu) (rd rs1 : Fin 32) (imm : W32) (s : State), s.hub.coreIs n w → rvDecode32 w =
    some (.opImm o rd rs1 imm) → Runs (.coreInstruction n) s fun h => ((h.core[n]).rx rd = if rd = 0 then 0 else
    o.eval ((s.hub.core[n]).rx rs1) imm) ∧ (h.core[n]).pc = (s.hub.core[n]).pc + 4 ∧ (∀ i : Fin 32, i ≠ rd →
    (h.core[n]).rx i = (s.hub.core[n]).rx i) ∧ (h.core[n]).csr.minstret = (s.hub.core[n]).csr.minstret + (if
    (s.hub.core[n]).csr.minstretOff then 0 else 1) ∧ OnlyCore n s.hub h ∧ (h.core[n]).dtcm = (s.hub.core[n]).dtcm) ∧
  (∀ (n : Fin 8) (w : W32) (o : RvAlu) (rd ra rb : Fin 32) (s : State), s.hub.coreIs n w → rvDecode32 w = some (.op
    o rd ra rb) → Runs (.coreInstruction n) s fun h => ((h.core[n]).rx rd = if rd = 0 then 0 else o.eval
    ((s.hub.core[n]).rx ra) ((s.hub.core[n]).rx rb)) ∧ (h.core[n]).pc = (s.hub.core[n]).pc + 4 ∧ (∀ i : Fin 32, i ≠
    rd → (h.core[n]).rx i = (s.hub.core[n]).rx i) ∧ OnlyCore n s.hub h) ∧
  (∀ (n : Fin 8) (w : W32) (o : RvMul) (rd ra rb : Fin 32) (s : State), s.hub.coreIs n w → rvDecode32 w = some (.mul
    o rd ra rb) → Runs (.coreInstruction n) s fun h => ((h.core[n]).rx rd = if rd = 0 then 0 else o.eval
    ((s.hub.core[n]).rx ra) ((s.hub.core[n]).rx rb)) ∧ (h.core[n]).pc = (s.hub.core[n]).pc + 4 ∧ (∀ i : Fin 32, i ≠
    rd → (h.core[n]).rx i = (s.hub.core[n]).rx i) ∧ OnlyCore n s.hub h) ∧
  (∀ (n : Fin 8) (w : W32) (k : RvCond) (ra rb : Fin 32) (imm : W32) (s : State), s.hub.coreIs n w → rvDecode32 w =
    some (.branch k ra rb imm) → Runs (.coreInstruction n) s fun h => (h.core[n]).pc = (s.hub.core[n]).pc + (if
    k.eval ((s.hub.core[n]).rx ra) ((s.hub.core[n]).rx rb) then imm else 4) ∧ (h.core[n]).x = (s.hub.core[n]).x ∧
    OnlyCore n s.hub h) ∧
  (∀ (n : Fin 8) (w : W32) (rd : Fin 32) (imm : W32) (s : State), s.hub.coreIs n w → rvDecode32 w = some (.lui rd
    imm) → Runs (.coreInstruction n) s fun h => ((h.core[n]).rx rd = if rd = 0 then 0 else imm) ∧ (h.core[n]).pc =
    (s.hub.core[n]).pc + 4 ∧ (∀ i : Fin 32, i ≠ rd → (h.core[n]).rx i = (s.hub.core[n]).rx i) ∧ OnlyCore n s.hub h)
    ∧
  (∀ (n : Fin 8) (w : W32) (rd : Fin 32) (imm : W32) (s : State), s.hub.coreIs n w → rvDecode32 w = some (.auipc rd
    imm) → Runs (.coreInstruction n) s fun h => ((h.core[n]).rx rd = if rd = 0 then 0 else (s.hub.core[n]).pc + imm)
    ∧ (h.core[n]).pc = (s.hub.core[n]).pc + 4 ∧ (∀ i : Fin 32, i ≠ rd → (h.core[n]).rx i = (s.hub.core[n]).rx i) ∧
    OnlyCore n s.hub h) ∧
  (∀ (n : Fin 8) (w : W32) (rd : Fin 32) (imm : W32) (s : State), s.hub.coreIs n w → rvDecode32 w = some (.jal rd
    imm) → Runs (.coreInstruction n) s fun h => ((h.core[n]).rx rd = if rd = 0 then 0 else (s.hub.core[n]).pc + 4) ∧
    (h.core[n]).pc = (s.hub.core[n]).pc + imm ∧ (∀ i : Fin 32, i ≠ rd → (h.core[n]).rx i = (s.hub.core[n]).rx i) ∧
    OnlyCore n s.hub h) ∧
  (∀ (n : Fin 8) (w : W32) (rd ra : Fin 32) (imm : W32) (s : State), s.hub.coreIs n w → rvDecode32 w = some (.jalr
    rd ra imm) → Runs (.coreInstruction n) s fun h => ((h.core[n]).rx rd = if rd = 0 then 0 else (s.hub.core[n]).pc
    + 4) ∧ (h.core[n]).pc = ((s.hub.core[n]).rx ra + imm) &&& ~~~ 1#32 ∧ (∀ i : Fin 32, i ≠ rd → (h.core[n]).rx i =
    (s.hub.core[n]).rx i) ∧ OnlyCore n s.hub h) ∧
  (∀ (n : Fin 8) (w : W32) (s : State), s.hub.coreIs n w → rvDecode32 w = some .fence → Runs (.coreInstruction n) s
    fun h => (h.core[n]).pc = (s.hub.core[n]).pc + 4 ∧ (h.core[n]).x = (s.hub.core[n]).x ∧ OnlyCore n s.hub h) ∧
  (∀ (n : Fin 8) (w : W32) (s : State), s.hub.coreIs n w → rvDecode32 w = some .mret → (s.hub.core[n]).user = false
    → Runs (.coreInstruction n) s fun h => (h.core[n]).pc = (s.hub.core[n]).csr.mepc ∧ (h.core[n]).user = decide
    ((s.hub.core[n]).csr.mstatus.bits 12 11 = 0) ∧ (h.core[n]).mie = (s.hub.core[n]).csr.mstatus.bit 7 ∧
    (h.core[n]).x = (s.hub.core[n]).x ∧ OnlyCore n s.hub h) ∧
  (∀ (n : Fin 8) (w : W32) (rd ra : Fin 32) (imm : W32) (s : State), s.hub.coreIs n w → rvDecode32 w = some (.load 4
    false rd ra imm) → ((s.hub.core[n]).rx ra + imm).toNat % 4 = 0 → (s.hub.core[n]).pmpOk (s.hub.core[n]).dataUser
    ((s.hub.core[n]).rx ra + imm).toNat 4 0 → 0x10000000 ≤ ((s.hub.core[n]).rx ra + imm).toNat → ((s.hub.core[n]).rx
    ra + imm).toNat < 0x10010000 → (s.hub.core[n]).decc.get 0 (((s.hub.core[n]).rx ra + imm).toNat % 0x10000 / 4) =
    0 → Runs (.coreInstruction n) s fun h => ((h.core[n]).rx rd = if rd = 0 then 0 else leWord (bytesAt
    (s.hub.core[n]).dtcm (((s.hub.core[n]).rx ra + imm).toNat - 0x10000000) 4)) ∧ (h.core[n]).pc =
    (s.hub.core[n]).pc + 4 ∧ (∀ i : Fin 32, i ≠ rd → (h.core[n]).rx i = (s.hub.core[n]).rx i) ∧ OnlyCore n s.hub h ∧
    (h.core[n]).dtcm = (s.hub.core[n]).dtcm) ∧
  (∀ (n : Fin 8) (w : W32) (ra rb : Fin 32) (imm : W32) (s : State), s.hub.coreIs n w → rvDecode32 w = some (.store
    4 ra rb imm) → ((s.hub.core[n]).rx ra + imm).toNat % 4 = 0 → (s.hub.core[n]).pmpOk (s.hub.core[n]).dataUser
    ((s.hub.core[n]).rx ra + imm).toNat 4 1 → 0x10000000 ≤ ((s.hub.core[n]).rx ra + imm).toNat → ((s.hub.core[n]).rx
    ra + imm).toNat < 0x10010000 → Runs (.coreInstruction n) s fun h => (h.core[n]).dtcm = writeBytes
    (s.hub.core[n]).dtcm (((s.hub.core[n]).rx ra + imm).toNat - 0x10000000) (leBytes ((s.hub.core[n]).rx rb)) ∧
    (h.core[n]).pc = (s.hub.core[n]).pc + 4 ∧ (h.core[n]).x = (s.hub.core[n]).x ∧ (h.core[n]).itcm =
    (s.hub.core[n]).itcm ∧ OnlyCore n s.hub h) ∧
  (∀ (n : Fin 8) (w : W32) (s : State), s.hub.coreIs n w → rvDecode32 w = some .ecall → Runs (.coreInstruction n) s
    fun h => (s.hub.core[n]).trapped (h.core[n]) (if (s.hub.core[n]).user then 8 else 11) 0 ∧ OnlyCore n s.hub h ∧
    (h.core[n]).csr.minstret = (s.hub.core[n]).csr.minstret) ∧
  (∀ (n : Fin 8) (s : State), s.hub.coreRuns n → (s.hub.core[n]).evq ≠ [] → (s.hub.core[n]).csr.mie.bit 11 →
    ((s.hub.core[n]).user ∨ (s.hub.core[n]).mie) → Runs (.coreInstruction n) s fun h => (s.hub.core[n]).trapped
    (h.core[n]) 0x8000000B 0 ∧ (h.core[n]).evq = (s.hub.core[n]).evq ∧ OnlyCore n s.hub h) ∧
  (∀ (n : Fin 8) (s : State), s.hub.coreRuns n = false → Runs (.coreInstruction n) s fun h => h = s.hub)

/-- RUN starts a core at ENTRY with cleared registers, empty tile buffer and event queue; RUN 0 begins a stop, whose
  end sets STOPPED and its cause, clears ACTIVE and breaks its locks; a watchdog stop may start it again
  (R331-R334). A fill brings a verified line, TBOP writes back, drops or zeroes a line (R311, R312, R315). TCMDATA
  reads and writes the word TCMADDR names (R335). Events queue at a running core, the pop latches W1-W3 (R317-R319).
  GO takes the lowest free slot or counts a reject, a completion makes the slot DONE, DONE frees it (R320, R322). A
  read of a free lock acquires it, the owner's 0 releases it, FORCE breaks it; of several reads in one cycle the
  lowest requester acquires, and a release of the cycle takes effect first (R329-R331). -/
def Obligations.CoresAndLocks : Prop :=
  (∀ (a : Access) (n : Fin 8) (s : State), s.hub.lets a (rfxBase n) → s.hub.bit (F.RFX_CTL_RUN n) = false →
    s.hub.coreActive n = false → Runs (.coreStart a n) s fun h => h.bit (F.RFX_STAT_ACTIVE n) = true ∧ h.bit
    (F.RFX_CTL_RUN n) = true ∧ (h.core[n]).pc = BitVec.ofNat 32 (s.hub.fld (F.RFX_ENTRY_ADDR n) * 2) ∧ (h.core[n]).x
    = Vector.replicate 32 0 ∧ (h.core[n]).user = false ∧ (h.core[n]).buf = [] ∧ (h.core[n]).evq = [] ∧ (∀ i : Fin 8,
    i ≠ n → h.core[i] = s.hub.core[i]) ∧ h = { s.hub with fields := h.fields, hw := h.hw, core := h.core } ∧
    SameRegs s.hub h [F.RFX_CTL_RUN n, F.RFX_STAT_ACTIVE n] ∧ (h.core[n]).itcm = (s.hub.core[n]).itcm) ∧
  (∀ (a : Access) (n : Fin 8) (s : State), s.hub.lets a (rfxBase n) → s.hub.bit (F.RFX_CTL_RUN n) = false →
    s.hub.coreActive n → Runs (.coreStart a n) s fun h => h.bit (F.RFX_CTL_RUN n) = true ∧ h =
    { s.hub with fields := h.fields, hw := h.hw } ∧ SameRegs s.hub h [F.RFX_CTL_RUN n]) ∧
  (∀ (a : Access) (n : Fin 8) (s : State), s.hub.lets a (rfxBase n) → s.hub.bit (F.RFX_CTL_RUN n) → s.hub.coreRuns n
    → Runs (.coreStop a n) s fun h => h.bit (F.RFX_CTL_RUN n) = false ∧ (h.core[n]).stopping = some 1 ∧ h.coreActive
    n = true ∧ h.coreRuns n = false ∧ (∀ i : Fin 8, i ≠ n → h.core[i] = s.hub.core[i]) ∧ h =
    { s.hub with fields := h.fields, hw := h.hw, core := h.core } ∧ SameRegs s.hub h [F.RFX_CTL_RUN n]) ∧
  (∀ (n : Fin 8) (k : Nat) (s : State), (s.hub.core[n]).stopping = some k → k < 8 → s.hub.coreActive n → s.hub.bit
    (F.RFX_CTL_RUN n) = false → k ≠ 2 → Runs (.coreStopped n) s fun h => h.coreActive n = false ∧ h.fld
    (F.RFX_STAT_CAUSE n) = k ∧ h.bit (F.RFX_FLAG_STOPPED n) = true ∧ (h.core[n]).stopping = none ∧ (∀ i : Fin 32,
    h.sem[i] ≠ some (n + 1)) ∧ (∀ i : Fin 8, i ≠ n → h.core[i] = s.hub.core[i])) ∧
  (∀ (n : Fin 8) (s : State), (s.hub.core[n]).stopping = some 2 → s.hub.coreActive n → s.hub.bit (F.RFX_CTL_RUN n) =
    false → s.hub.bit (F.RFX_CTL_WDT_AUTO n) → Runs (.coreStopped n) s fun h => h.bit (F.RFX_STAT_ACTIVE n) = true ∧
    h.bit (F.RFX_CTL_RUN n) = true ∧ (h.core[n]).pc = BitVec.ofNat 32 (s.hub.fld (F.RFX_ENTRY_ADDR n) * 2) ∧
    (h.core[n]).x = Vector.replicate 32 0 ∧ (h.core[n]).user = false ∧ (h.core[n]).buf = [] ∧ (h.core[n]).evq = [] ∧
    (∀ i : Fin 8, i ≠ n → h.core[i] = s.hub.core[i])) ∧
  (∀ (n : Fin 8) (s : State), s.hub.coreRuns n → Runs (.watchdogKick n) s fun h => (h.core[n]).kick = s.hub.now ∧
    (h.core[n]).wdt = s.hub.fld (F.RFX_WDT_PERIOD n) ∧ OnlyCore n s.hub h) ∧
  (∀ (n : Fin 8) (s : State), s.hub.coreRuns n → (s.hub.core[n]).wdt ≠ 0 → (s.hub.core[n]).kick + us
    (s.hub.core[n]).wdt ≤ s.hub.now → Runs (.watchdogExpire n) s fun h => h.bit (F.RFX_FLAG_WDT n) = true ∧ h.bit
    (F.RFX_CTL_RUN n) = false ∧ (h.core[n]).stopping = some 2 ∧ (∀ i : Fin 8, i ≠ n → h.core[i] = s.hub.core[i])) ∧
  (∀ (n : Fin 8) (s : State), (s.hub.now < (s.hub.core[n]).kick + us (s.hub.core[n]).wdt ∨ (s.hub.core[n]).wdt = 0)
    → Runs (.watchdogExpire n) s fun h => h = s.hub) ∧
  (∀ (n : Fin 8) (tile : Fin 16384) (s : State), s.hub.coreRuns n → s.hub.coreTile tile → ((s.hub.core[n]).line
    tile).isNone → ((s.hub.evict n).verify tile 4).2 → Runs (.tileBufferFill n tile) s fun h =>
    (h.core[n]).buf.head? = some { tile := tile, data := ((s.hub.evict n).verify tile 4).1.tl.bytes tile } ∧ (∀ i :
    Fin 8, i ≠ n → h.core[i] = s.hub.core[i])) ∧
  (∀ (n : Fin 8) (tile : Fin 16384) (l : TLine) (s : State), s.hub.coreRuns n → s.hub.coreTile tile →
    (s.hub.core[n]).line tile = some l → Runs (.tileBufferFill n tile) s fun h => (h.core[n]).buf.head? = some l ∧
    OnlyCore n s.hub h) ∧
  (∀ (n : Fin 8) (tile : Fin 16384) (s : State), s.hub.coreRuns n → s.hub.coreTile tile = false → Runs
    (.tileBufferFill n tile) s fun h => (s.hub.core[n]).trapped (h.core[n]) 5 (BitVec.ofNat 32 (0x20000000 + tile *
    256)) ∧ OnlyCore n s.hub h) ∧
  (∀ (n : Fin 8) (v : W32) (t : Nat) (l : TLine) (s : State), s.hub.coreRuns n → v.bit 2 = false →
    (s.hub.core[n]).user = false → tileOfAddr (v.toNat / 8 * 8) = some t → (s.hub.core[n]).line t = some l → Runs
    (.tbopWriteBack n v) s fun h => h = s.hub.writeBack n t ∧ (h.core[n]).line t = some { l with dirty := 0 } ∧ (∀ i
    : Fin 8, i ≠ n → h.core[i] = s.hub.core[i])) ∧
  (∀ (n : Fin 8) (v : W32) (t : Nat) (l : TLine) (s : State), s.hub.coreRuns n → v.bit 2 = false →
    (s.hub.core[n]).user = false → tileOfAddr (v.toNat / 8 * 8) = some t → (s.hub.core[n]).line t = some l → Runs
    (.tbopWriteBackInvalidate n v) s fun h => (h.core[n]).line t = none ∧ (h = (s.hub.writeBack n t).modCore n fun c
    => c.drop t) ∧ (∀ i : Fin 8, i ≠ n → h.core[i] = s.hub.core[i])) ∧
  (∀ (n : Fin 8) (v : W32) (t : Nat) (l : TLine) (s : State), s.hub.coreRuns n → v.bit 2 = false →
    (s.hub.core[n]).user = false → tileOfAddr (v.toNat / 8 * 8) = some t → (s.hub.core[n]).line t = some l → Runs
    (.tbopInvalidate n v) s fun h => (h.core[n]).line t = none ∧ OnlyCore n s.hub h) ∧
  (∀ (n : Fin 8) (v : W32) (t : Nat) (s : State), s.hub.coreRuns n → v.bit 2 = false → (s.hub.core[n]).user = false
    → tileOfAddr (v.toNat / 8 * 8) = some t → s.hub.coreTile t → Runs (.tbopAllocateZero n v) s fun h =>
    (h.core[n]).line t = some { tile := t, data := List.replicate 256 0, dirty := BitVec.allOnes 256 } ∧ (∀ i : Fin
    8, i ≠ n → h.core[i] = s.hub.core[i])) ∧
  (∀ (a : Access) (n : Fin 8) (v : W32) (s : State), s.hub.lets a (rfxBase n + 0x18) → s.hub.bit (F.RFX_TCMADDR_DTCM
    n) → Runs (.tcmDataAccess a n (some v)) s fun h => (h.core[n]).dtcm = writeBytes (s.hub.core[n]).dtcm
    (s.hub.tcmAt n) (leBytes v) ∧ h.fld (F.RFX_TCMADDR_WORD n) = (s.hub.fld (F.RFX_TCMADDR_WORD n) + 1) % 16384 ∧
    (h.core[n]).itcm = (s.hub.core[n]).itcm ∧ (∀ i : Fin 8, i ≠ n → h.core[i] = s.hub.core[i]) ∧ h =
    { s.hub with fields := h.fields, hw := h.hw, core := h.core } ∧ SameRegs s.hub h [F.RFX_TCMADDR_WORD n]) ∧
  (∀ (a : Access) (n : Fin 8) (v : W32) (s : State), s.hub.lets a (rfxBase n + 0x18) → s.hub.bit (F.RFX_TCMADDR_DTCM
    n) = false → s.hub.coreActive n = false → Runs (.tcmDataAccess a n (some v)) s fun h => (h.core[n]).itcm =
    writeBytes (s.hub.core[n]).itcm (s.hub.tcmAt n) (leBytes v) ∧ (h.core[n]).dtcm = (s.hub.core[n]).dtcm ∧ (∀ i :
    Fin 8, i ≠ n → h.core[i] = s.hub.core[i]) ∧ h = { s.hub with fields := h.fields, hw := h.hw, core := h.core } ∧
    SameRegs s.hub h [F.RFX_TCMADDR_WORD n]) ∧
  (∀ (a : Access) (n : Fin 8) (s : State), s.hub.lets a (rfxBase n + 0x18) false → Runs (.tcmDataAccess a n none) s
    fun h => h.out = .regRead a (rfxBase n + 0x18) (leWord (bytesAt (if s.hub.bit (F.RFX_TCMADDR_DTCM n) then
    (s.hub.core[n]).dtcm else (s.hub.core[n]).itcm) (s.hub.tcmAt n) 4)) :: s.hub.out ∧ h.core = s.hub.core ∧ h =
    { s.hub with fields := h.fields, hw := h.hw, out := h.out } ∧ SameRegs s.hub h [F.RFX_TCMADDR_WORD n]) ∧
  (∀ (n : Fin 8) (e : EvEntry) (r : List EvEntry) (s : State), s.hub.coreRuns n → (s.hub.core[n]).evq = e :: r →
    Runs (.eventPop n) s fun h => (h.core[n]).evq = r ∧ (h.core[n]).evw1 = e.w1 ∧ (h.core[n]).evw2 = e.w2 ∧
    (h.core[n]).evw3 = e.w3 ∧ OnlyCore n s.hub h) ∧
  (∀ (a : Access) (n : Fin 8) (code : BitVec 16) (s : State), s.hub.lets a (rfxBase n + 0x24) → s.hub.bit
    (F.RFX_EVEN_SOFT n) → s.hub.bit (F.RFX_CTL_RUN n) → (s.hub.core[n]).evq.length < 64 → Runs (.eventPost a n code)
    s fun h => (h.core[n]).evq = evInsert (s.hub.core[n]).evq
    { mkEvent 8 (s.hub.unit (rfxUnit n)) (BitVec.ofNat 32 (a.req.toNat * 65536 + code.toNat)) s.hub.gno.t with at_ := s.hub.now }
    ∧ OnlyCore n s.hub h) ∧
  (∀ (a : Access) (n : Fin 8) (code : BitVec 16) (s : State), s.hub.lets a (rfxBase n + 0x24) → s.hub.bit
    (F.RFX_EVEN_SOFT n) = false → Runs (.eventPost a n code) s fun h => h = s.hub) ∧
  (∀ (n : Fin 8) (s : State), s.hub.coreRuns n → (s.hub.core[n]).user = false → (∀ d : Fin 4,
    ((s.hub.core[n]).slot[d]).free = false) → Runs (.issueGo n) s fun h => (h.core[n]).iss.last = 7 ∧ h.bit
    (F.RFX_FLAG_ISSREJ n) = true ∧ (h.core[n]).slot = (s.hub.core[n]).slot ∧ (∀ i : Fin 8, i ≠ n → h.core[i] =
    s.hub.core[i]) ∧ h = { s.hub with core := h.core, fields := h.fields, hw := h.hw, out := h.out }) ∧
  (∀ (n : Fin 8) (d : Fin 4) (s : State), s.hub.coreRuns n → (s.hub.core[n]).user = false →
    ((s.hub.core[n]).slot[d]).free → (∀ i : Fin 4, i < d → ((s.hub.core[n]).slot[i]).free = false) →
    (s.hub.core[n]).iss.kind = 0 → inDtcm (s.hub.core[n]).iss.rptr.toNat (s.hub.core[n]).iss.backLen → s.hub.paired
    = false → Runs (.issueGo n) s fun h => h = (s.hub.issSlot n d
    { busy := true, rptr := (s.hub.core[n]).iss.rptr }).issue
    { rq := ((s.hub.core[n]).iss.request n (bytesAt (s.hub.core[n]).dtcm ((s.hub.core[n]).iss.dptr.toNat - 0x10000000) (s.hub.core[n]).iss.dataLen)), who := .core n d, timed := none })
    ∧
  (∀ (n : Fin 8) (d : Fin 4) (s : State), s.hub.coreRuns n → (s.hub.core[n]).user = false →
    ((s.hub.core[n]).slot[d]).free → (∀ i : Fin 4, i < d → ((s.hub.core[n]).slot[i]).free = false) → 4 <
    (s.hub.core[n]).iss.kind → (s.hub.core[n]).iss.kind ≠ 8 → Runs (.issueGo n) s fun h =>
    ((h.core[n]).slot[d]).done = true ∧ ((h.core[n]).slot[d]).busy = false ∧ ((h.core[n]).slot[d]).status = stUR ∧
    (h.core[n]).iss.last = d.val ∧ (∀ i : Fin 8, i ≠ n → h.core[i] = s.hub.core[i])) ∧
  (∀ (n : Fin 8) (d : Fin 4) (st : BitVec 4) (salv : Bool) (data : List Byte) (s : State),
    ((s.hub.core[n]).slot[d]).busy → ((s.hub.core[n]).slot[d]).discard = false → st.toNat ≤ 8 → Runs
    (.issueCompletion n d st salv data) s fun h => (h.core[n]).slot[d] =
    { (s.hub.core[n]).slot[d] with busy := false, done := true, salv := salv, bytes := data.length, status := st.toNat }
    ∧ (h.core[n]).dtcm = writeBytes (s.hub.core[n]).dtcm (((s.hub.core[n]).slot[d]).rptr.toNat - 0x10000000) data ∧
    (∀ i : Fin 8, i ≠ n → h.core[i] = s.hub.core[i])) ∧
  (∀ (n : Fin 8) (d : Fin 4) (s : State), s.hub.coreRuns n → ((s.hub.core[n]).slot[d]).done → Runs (.issueSlotFree n
    d) s fun h => (h.core[n]).slot = (s.hub.core[n]).slot.set d {} ∧ OnlyCore n s.hub h) ∧
  (∀ (a : Access) (i : Fin 32) (s : State), s.hub.lets a (0x38000 + 4 * i) false → s.hub.sem[i] = none → a.req ≠ 13
    → (∀ r ∈ s.semReaders i, a.req.toNat ≤ r) → Runs (.semLockRead a i) s fun h => h.sem = s.hub.sem.set i (some
    a.req.toNat) ∧ h.out = .regRead a (0x38000 + 4 * i) (BitVec.ofNat 32 a.req.toNat) :: s.hub.out ∧ h =
    { s.hub with sem := h.sem, out := h.out }) ∧
  (∀ (a : Access) (i : Fin 32) (r : Nat) (s : State), s.hub.lets a (0x38000 + 4 * i) false → s.hub.sem[i] = some r →
    r ≠ a.req.toNat → s.semFreed i r = false → Runs (.semLockRead a i) s fun h => h.out = .regRead a (0x38000 + 4 *
    i) (BitVec.ofNat 32 (2 ^ 31 + r)) :: s.hub.out ∧ h = { s.hub with out := h.out }) ∧
  (∀ (a : Access) (i : Fin 32) (r : Nat) (s : State), s.hub.lets a (0x38000 + 4 * i) false → s.hub.sem[i] = none →
    a.req ≠ 13 → r ∈ s.semReaders i → (∀ q ∈ s.semReaders i, r ≤ q) → r < a.req.toNat → Runs (.semLockRead a i) s
    fun h => h.sem = s.hub.sem.set i (some r) ∧ h.out = .regRead a (0x38000 + 4 * i) (BitVec.ofNat 32 (2 ^ 31 + r))
    :: s.hub.out ∧ h = { s.hub with sem := h.sem, out := h.out }) ∧
  (∀ (a : Access) (i : Fin 32) (r : Nat) (s : State), s.hub.lets a (0x38000 + 4 * i) false → s.hub.sem[i] = some r →
    r ≠ a.req.toNat → s.semFreed i r → a.req ≠ 13 → (∀ q ∈ s.semReaders i, a.req.toNat ≤ q) → Runs (.semLockRead a
    i) s fun h => h.sem = s.hub.sem.set i (some a.req.toNat) ∧ h.out = .regRead a (0x38000 + 4 * i) (BitVec.ofNat 32
    a.req.toNat) :: s.hub.out ∧ h = { s.hub with sem := h.sem, semRel := h.semRel, out := h.out }) ∧
  (∀ (a : Access) (i : Fin 32) (v : W32) (s : State), s.hub.lets a (0x38000 + 4 * i) → s.hub.sem[i] = some
    a.req.toNat → v.bits 3 0 = 0 → s.hub.semRel[i] ≠ some (a.req.toNat, s.hub.now) → Runs (.semLockRelease a i v) s
    fun h => h.sem = s.hub.sem.set i none ∧ h = { s.hub with sem := h.sem }) ∧
  (∀ (a : Access) (i : Fin 32) (v : W32) (s : State), s.hub.lets a (0x38000 + 4 * i) → s.hub.sem[i] ≠ some
    a.req.toNat → s.hub.semRel[i] ≠ some (a.req.toNat, s.hub.now) → Runs (.semLockRelease a i v) s fun h => h.sem =
    s.hub.sem ∧ h.lanes = s.hub.lanes) ∧
  (∀ (a : Access) (i : Fin 32) (s : State), s.hub.lets a 0x38080 → (s.hub.sem[i]).isSome → Runs (.semForce a i) s
    fun h => h.sem = s.hub.sem.set i none ∧ h.lanes = s.hub.lanes)

/-- Pair operation is enabled only before any lane and starts in START (R359). A holder neither isolated nor
  unhealthy renews with the next number and expiry (R350). A lease makes a starting unit the Shadow and moves a
  Shadow's deadline (R351, R359); a write of LMP_RLEASE by another than the peer is ignored and flagged. A holder
  without renewal at E, or that loses health or is forced, releases; a Shadow takes at D, after RELEASE and GUARD,
  or when forced, and a lapse is flagged (R350-R353). Members beyond their expiry stop driving (R349). Heartbeats
  are kept with their time (R350). -/
def Obligations.LampLease : Prop :=
  (∀ (a : Access) (s : State), s.hub.lets a 0x98000 → s.hub.paired = false → s.hub.anyLane = false → s.hub.member =
    0 → Runs (.lampEnable a) s fun h => h.paired = true ∧ h.lampSt = lpSTART ∧ h.lamp =
    { startAt := s.hub.now, renAt := s.hub.now } ∧ h.can = s.hub.can) ∧
  (∀ (a : Access) (s : State), s.hub.lets a 0x98000 → s.hub.paired = false → s.hub.anyLane → Runs (.lampEnable a) s
    fun h => h = s.hub.refuse a 0x98000 true ∧ h.paired = false ∧ h.lamp = s.hub.lamp) ∧
  (∀ (s : State), s.hub.member = 0 → s.hub.lampSt = lpSTART → s.hub.isolated = false → s.hub.startOver → Runs
    (.lampStartWait) s fun h => h.lampSt = lpHOLDER ∧ h.bit F.LMP_FLAG_TAKE = true ∧ h.bit F.LMP_STAT_IN_STEP =
    false ∧ h.bit F.LMP_STAT_STALE = false ∧ h.lamp.dead = none ∧ h.lamp.parked = [] ∧ h.can = s.hub.can) ∧
  (∀ (s : State), (s.hub.isolated ∨ s.hub.startOver = false) → Runs (.lampStartWait) s fun h => h = s.hub) ∧
  (∀ (s : State), s.hub.member = 0 → s.hub.paired → s.hub.lampSt = lpHOLDER → s.hub.isolated = false →
    ((s.hub.modLamp fun l => { l with mask := none }).healthy) → s.hub.lamp.renAt + s.hub.lampPer / 4 ≤ s.hub.now →
    Runs (.leaseRenew) s fun h => h.lamp.n = (s.hub.lamp.n + 1) % 2 ^ 32 ∧ h.lamp.exp = s.hub.now + s.hub.lampPer ∧
    h.lampSt = lpHOLDER ∧ h.lamp.renAt = s.hub.now ∧ h.can = s.hub.can ∧ h.lanes = s.hub.lanes ∧ h.reed =
    s.hub.reed) ∧
  (∀ (s : State), s.hub.now < s.hub.lamp.renAt + s.hub.lampPer / 4 → Runs (.leaseRenew) s fun h => h = s.hub) ∧
  (∀ (s : State), (s.hub.isolated ∨ (s.hub.modLamp fun l => { l with mask := none }).healthy = false) → Runs
    (.leaseRenew) s fun h => h.lamp.n = s.hub.lamp.n ∧ h.lamp.exp = s.hub.lamp.exp ∧ h =
    { s.hub with lamp := h.lamp }) ∧
  (∀ (f : Frame) (s : State), s.hub.hearsLamp f 1 → s.hub.lampSt = lpSTART → Runs (.lease f) s fun h => h.lampSt =
    lpSHADOW ∧ h.lamp.n = (f.word 1).toNat ∧ h.lamp.dead = some (s.hub.now + s.hub.lampPer + s.hub.lampGuard) ∧
    h.lanes = s.hub.lanes ∧ h.can = s.hub.can) ∧
  (∀ (f : Frame) (s : State), s.hub.hearsLamp f 1 → s.hub.isShadow → newerLease (f.word 1).toNat s.hub.lamp.n → Runs
    (.lease f) s fun h => h.lampSt = s.hub.lampSt ∧ h.lamp.n = (f.word 1).toNat ∧ h.lamp.dead = some (s.hub.now +
    s.hub.lampPer + s.hub.lampGuard) ∧ h.lamp.relAt = none ∧ h.lanes = s.hub.lanes ∧ h.can = s.hub.can) ∧
  (∀ (a : Access) (v : W32) (s : State), s.hub.lets a 0x9802C → s.hub.member = 0 → s.hub.paired → a.req = 10 →
    a.node.toNat = s.hub.fld F.LMP_PEER_NODE → s.hub.isShadow → newerLease v.toNat s.hub.lamp.n → Runs (.rleaseWrite
    a v) s fun h => h.lamp.n = v.toNat ∧ h.lamp.dead = some (s.hub.now + s.hub.lampPer + s.hub.lampGuard) ∧
    h.lamp.relAt = none ∧ h = { s.hub with lamp := h.lamp }) ∧
  (∀ (a : Access) (v : W32) (s : State), s.hub.lets a 0x9802C → a.req ≠ 10 → Runs (.rleaseWrite a v) s fun h =>
    h.bit F.LMP_FLAG_RLEASE_BAD = true ∧ h.lamp = s.hub.lamp ∧ h.lanes = s.hub.lanes ∧ h.can = s.hub.can) ∧
  (∀ (s : State), s.hub.isHolder → s.hub.lamp.exp ≤ s.hub.now → Runs (.leaseLapse) s fun h => h.lampSt = lpSHADOW ∧
    h.lamp.dead = some (s.hub.now + s.hub.lampPer + s.hub.lampGuard) ∧ h.bit F.LMP_FLAG_RELEASE = true ∧
    h.lamp.claim = none ∧ h.can = s.hub.can ∧ h.core = s.hub.core) ∧
  (∀ (s : State), s.hub.now < s.hub.lamp.exp → Runs (.leaseLapse) s fun h => h = s.hub) ∧
  (∀ (d : Nat) (s : State), s.hub.isShadow → s.hub.lamp.dead = some d → d ≤ s.hub.now → s.hub.mayTake → s.leaseComes
    = false → Runs (.leaseDeadline) s fun h => h.lampSt = lpHOLDER ∧ h.bit F.LMP_FLAG_TAKE = true ∧ h.bit
    F.LMP_STAT_IN_STEP = false ∧ h.bit F.LMP_STAT_STALE = false ∧ h.lamp.dead = none ∧ h.lamp.parked = [] ∧ h.bit
    F.LMP_FLAG_LAPSE = true ∧ h.can = s.hub.can) ∧
  (∀ (s : State), s.hub.mayTake = false → Runs (.leaseDeadline) s fun h => h = s.hub) ∧
  (∀ (s : State), s.leaseComes → Runs (.leaseDeadline) s fun h => h = s.hub) ∧
  (∀ (f : Frame) (s : State), s.hub.hearsLamp f 2 → s.hub.isHolder → Runs (.lampAck f) s fun h => h.lamp.ackAt =
    s.hub.now ∧ h.lamp.peerStep = (f.word 2).bit 0 ∧ h.lamp.wantSync = (s.hub.lamp.wantSync || (f.word 2).bit 3) ∧
    h.fld F.LMP_STAT_PEER_STATE = (f.word 0).bits 23 20 ∧ h =
    { s.hub with lamp := h.lamp, fields := h.fields, hw := h.hw } ∧ SameRegs s.hub h [F.LMP_STAT_PEER_STATE]) ∧
  (∀ (s : State), s.hub.now < s.hub.lamp.ackAt + s.hub.lampPer → Runs (.ackMissing) s fun h => h = s.hub) ∧
  (∀ (s : State), s.hub.isHolder → s.hub.lamp.ackAt + s.hub.lampPer ≤ s.hub.now → Runs (.ackMissing) s fun h =>
    h.bit F.LMP_FLAG_PEER_LOST = true ∧ h = { s.hub with fields := h.fields, hw := h.hw, out := h.out } ∧ SameRegs
    s.hub h [F.LMP_FLAG_PEER_LOST]) ∧
  (∀ (s : State), s.hub.healthy = false → s.hub.isHolder → Runs (.healthLoss) s fun h => h.lampSt = lpSHADOW ∧
    h.lamp.dead = some (s.hub.now + s.hub.lampPer + s.hub.lampGuard) ∧ h.bit F.LMP_FLAG_RELEASE = true ∧
    h.lamp.claim = none ∧ h.can = s.hub.can ∧ h.core = s.hub.core) ∧
  (∀ (s : State), s.hub.healthy → Runs (.healthLoss) s fun h => h = s.hub) ∧
  (∀ (a : Access) (s : State), s.hub.lets a 0x98000 → s.hub.isHolder → Runs (.forceRel a) s fun h => h.lampSt =
    lpSHADOW ∧ h.lamp.dead = some (s.hub.now + s.hub.lampPer + s.hub.lampGuard) ∧ h.bit F.LMP_FLAG_RELEASE = true ∧
    h.lamp.claim = none ∧ h.can = s.hub.can ∧ h.core = s.hub.core) ∧
  (∀ (a : Access) (s : State), s.hub.lets a 0x98000 → s.hub.isShadow → Runs (.forceTake a) s fun h => h.lampSt =
    lpHOLDER ∧ h.bit F.LMP_FLAG_TAKE = true ∧ h.bit F.LMP_STAT_IN_STEP = false ∧ h.bit F.LMP_STAT_STALE = false ∧
    h.lamp.dead = none ∧ h.lamp.parked = [] ∧ h.can = s.hub.can) ∧
  (∀ (f : Frame) (s : State), s.hub.hearsLamp f 3 → s.hub.isShadow → Runs (.lampRelease f) s fun h => h.lamp.relAt =
    some (s.hub.now + s.hub.lampGuard) ∧ h.lampSt = s.hub.lampSt ∧ h =
    { s.hub with lamp := h.lamp, fields := h.fields, hw := h.hw } ∧ SameRegs s.hub h [F.LMP_STAT_PEER_STATE]) ∧
  (∀ (d : Nat) (s : State), s.hub.isShadow → s.hub.lamp.relAt = some d → d ≤ s.hub.now → s.hub.mayTake → Runs
    (.releaseGuardExpire) s fun h => h.lampSt = lpHOLDER ∧ h.bit F.LMP_FLAG_TAKE = true ∧ h.bit F.LMP_STAT_IN_STEP =
    false ∧ h.bit F.LMP_STAT_STALE = false ∧ h.lamp.dead = none ∧ h.lamp.parked = [] ∧ h.can = s.hub.can) ∧
  (∀ (s : State), s.hub.member ≠ 0 → s.hub.shadowUnit → Runs (.memberDriveExpire) s fun h => (∀ c : Fin 8,
    (h.reed[c]).stopping = ((s.hub.reed[c]).stopping || s.hub.bit (F.REED_STAT_ACTIVE c))) ∧ (∀ c : Fin 8, h.bit
    (F.REED_CTL_RUN c) = s.hub.bit (F.REED_CTL_RUN c)) ∧ h.can = s.hub.can) ∧
  (∀ (a : Access) (s : State), s.hub.lets a 0x98058 → Runs (.memberBeat a 2) s fun h => h.lamp.beat =
    s.hub.lamp.beat.set 1 (some s.hub.now) ∧ h = { s.hub with lamp := h.lamp }) ∧
  (∀ (a : Access) (s : State), s.hub.lets a 0x9801C → Runs (.stewardHeartbeat a) s fun h => h.lamp.stew = some
    s.hub.now ∧ h = { s.hub with lamp := h.lamp })

/-- A relayed request is served as a posted one (R357). A Shadow applies the items of an INPUT frame, an EVENT item
  to its cores (R354); items gather by words at LMP_STKIN and a whole one leaves the holder's member 0 (R354). MARK
  freezes the Shadow, its sync point clears numbers and CRCs; a MARK that does not come is a slip (R354, R356). CPLM
  completes a parked request of a core (R355). Unequal CRCs at one count are a divergence, equal ones are dropped
  (R356). A preferred Shadow in step claims, a healthy holder whose peer is in step grants and is HANDING, another
  refuses; at C the holder releases and GUARD later the claimant takes; no GRANT, or REFUSE, ends the claim (R360,
  R361). -/
def Obligations.LampLockstepAndReclaim : Prop :=
  (∀ (f : Frame) (s : State), s.hub.hearsLamp f 4 → s.hub.shadowUnit → (f.word 1).bits 15 0 = 1 → f.pay.length = 28
    → (f.word 2).bits 31 28 = 2 → (f.word 2).bits 27 26 = 0 → Runs (.lampInput f) s fun h => h.core = (s.hub.evRoute
    ((f.word 2).bits 7 0)
    { typ := (f.word 3).extractLsb' 28 4, unit := (f.word 3).extractLsb' 0 24, w1 := f.word 4, w2 := f.word 5, w3 := f.word 6 }).core
    ∧ h.tl = s.hub.tl) ∧
  (∀ (a : Access) (v : W32) (s : State), s.hub.lets a 0x98060 → ((s.hub.lamp.item[(⟨a.mem.toNat, a.mem.isLt⟩ : Fin
    4)]) ++ [v]).length < itemLen (((s.hub.lamp.item[(⟨a.mem.toNat, a.mem.isLt⟩ : Fin 4)]) ++ [v]).getD 0 0) → Runs
    (.stackItem a v) s fun h => h.lamp.item = s.hub.lamp.item.set a.mem.toNat ((s.hub.lamp.item[(⟨a.mem.toNat,
    a.mem.isLt⟩ : Fin 4)]) ++ [v]) ∧ h = { s.hub with lamp := h.lamp }) ∧
  (∀ (a : Access) (v : W32) (s : State), s.hub.lets a 0x98060 → itemLen (((s.hub.lamp.item[(⟨a.mem.toNat,
    a.mem.isLt⟩ : Fin 4)]) ++ [v]).getD 0 0) ≤ ((s.hub.lamp.item[(⟨a.mem.toNat, a.mem.isLt⟩ : Fin 4)]) ++
    [v]).length → s.hub.member = 0 → s.hub.holderUnit → s.hub.linkIsUp 2 → Runs (.stackItem a v) s fun h =>
    h.lamp.item = s.hub.lamp.item.set a.mem.toNat [] ∧ h.sentOn 2 tLAMP = true ∧ h.tl = s.hub.tl ∧ h.core =
    s.hub.core) ∧
  (∀ (f : Frame) (s : State), s.hub.hearsLamp f 5 → s.hub.isShadow → (f.word 1).bit 31 → Runs (.lampMark f) s fun h
    => h.pim.freezing = true ∧ h.pim.no = (f.word 1).bits 15 0 ∧ h.lamp.marked = some ((f.word 1).bits 15 0) ∧
    h.lamp.settled = some 0 ∧ h.lamp.clean = true ∧ h.lamp.issued = Vector.replicate 8 0 ∧ h.can = s.hub.can) ∧
  (∀ (k : Nat) (s : State), s.hub.isShadow → s.hub.lamp.markOwed = some k → (s.hub.drn.cyc.any fun c => c.no == k &&
    decide (s.hub.fld F.LMP_SYNC_MARKWAIT * 100 ≤ s.hub.since c)) → s.markComes = false → Runs (.markWaitExpire) s
    fun h => h.pim.freezing = true ∧ h.pim.no = k ∧ h.lamp.markOwed = none ∧ h.bit F.LMP_FLAG_SLIP = true ∧ h.bit
    F.LMP_STAT_STALE = true ∧ h.bit F.LMP_STAT_IN_STEP = false ∧ h.can = s.hub.can) ∧
  (∀ (s : State), s.markComes → Runs (.markWaitExpire) s fun h => h = s.hub) ∧
  (∀ (f : Frame) (p : Parked) (s : State), s.hub.hearsLamp f 6 → s.hub.lamp.parked = [p] → (f.word 1).bits 31 30 = 0
    → (f.word 1).bits 29 27 = p.core.val → (f.word 1).bits 15 0 = p.k % 65536 → (f.word 2).bits 3 0 ≤ 8 → Runs
    (.cplm f) s fun h => h.lamp.parked = [] ∧ h.core = (s.hub.coreSlotDone p.core p.slot ((f.word 2).bits 3 0)
    ((f.word 2).bit 8) (f.pay.drop 12)).core ∧ h.tl = s.hub.tl) ∧
  (∀ (f : Frame) (z : W32) (s : State), s.hub.hearsLamp f 7 → s.hub.isShadow → (f.word 1).bits 31 30 = 0 →
    s.hub.lamp.theirs = [] → s.hub.lamp.mine = [((f.word 1).bits 29 27, (f.word 1).bits 15 0, z)] → f.word 2 = z →
    Runs (.lampSig f) s fun h => h.lamp.mine = [] ∧ h.lamp.theirs = [] ∧ h.core = s.hub.core ∧ h =
    { s.hub with lamp := h.lamp, fields := h.fields, hw := h.hw } ∧ SameRegs s.hub h [F.LMP_STAT_PEER_STATE]) ∧
  (∀ (f : Frame) (z : W32) (s : State), s.hub.hearsLamp f 7 → s.hub.isShadow → (f.word 1).bits 31 30 = 0 →
    s.hub.lamp.theirs = [] → s.hub.lamp.mine = [((f.word 1).bits 29 27, (f.word 1).bits 15 0, z)] → f.word 2 ≠ z →
    Runs (.lampSig f) s fun h => h.bit F.LMP_FLAG_DIVERGE = true ∧ h.bit F.LMP_STAT_STALE = true ∧ h.bit
    F.LMP_STAT_IN_STEP = false ∧ h.tl = s.hub.tl) ∧
  (∀ (z : Nat) (s : State), s.hub.isShadow → s.hub.lampSt = lpSHADOW → s.hub.bit F.GLB_STRAP_PREFERRED → s.hub.bit
    F.LMP_CTL_RECLAIM_EN → s.hub.bit F.LMP_STAT_CFG_ERR = false → s.hub.bit F.LMP_STAT_IN_STEP → s.hub.linkIsUp 2 →
    s.hub.lamp.stepAt = some z → z + s.hub.fld F.LMP_RECLAIM_HOLDOFF * 400000000 ≤ s.hub.now → Runs (.reclaimStart)
    s fun h => h.lampSt = lpCLAIMING ∧ h.lamp.claim = some s.hub.claimAt ∧ h.lamp.granted = false ∧ h.bit
    F.LMP_FLAG_RECLAIM = true ∧ h.sentOn 2 tLAMP = true ∧ h.tl = s.hub.tl) ∧
  (∀ (f : Frame) (s : State), s.hub.hearsLamp f 9 → s.hub.lampSt = lpHOLDER → s.hub.healthy → s.hub.lamp.peerStep →
    Runs (.claim f) s fun h => h.lampSt = lpHANDING ∧ h.lamp.claim = some (claimTime f) ∧ h.core = s.hub.core ∧
    h.can = s.hub.can) ∧
  (∀ (f : Frame) (s : State), s.hub.hearsLamp f 9 → (s.hub.lampSt ≠ lpHOLDER ∨ s.hub.lamp.peerStep = false) →
    s.hub.linkIsUp 2 → Runs (.claim f) s fun h => h.lampSt = s.hub.lampSt ∧ h.sentOn 2 tLAMP = true ∧ h.lamp.claim =
    s.hub.lamp.claim ∧ h.core = s.hub.core ∧ h.can = s.hub.can ∧ h.tl = s.hub.tl) ∧
  (∀ (f : Frame) (s : State), s.hub.hearsLamp f 10 → s.hub.lampSt = lpCLAIMING → s.hub.lamp.claim = some (claimTime
    f) → Runs (.grant f) s fun h => h.lamp.granted = true ∧ h.lampSt = lpCLAIMING ∧ h =
    { s.hub with lamp := h.lamp, fields := h.fields, hw := h.hw } ∧ SameRegs s.hub h [F.LMP_STAT_PEER_STATE]) ∧
  (∀ (f : Frame) (s : State), s.hub.hearsLamp f 11 → s.hub.lampSt = lpCLAIMING → Runs (.refuse f) s fun h =>
    h.lampSt = lpSHADOW ∧ h.lamp.claim = none ∧ h.bit F.LMP_FLAG_CLAIM_ABORT = true ∧ h.core = s.hub.core ∧ h =
    { s.hub with lamp := h.lamp, fields := h.fields, hw := h.hw, out := h.out }) ∧
  (∀ (f : Frame) (s : State), s.hub.hearsLamp f 11 → s.hub.lampSt = lpHANDING → Runs (.refuse f) s fun h => h.lampSt
    = lpHOLDER ∧ h.lamp.claim = none ∧ SameRegs s.hub h [F.LMP_STAT_PEER_STATE, F.LMP_STAT_STATE] ∧ h =
    { s.hub with lamp := h.lamp, fields := h.fields, hw := h.hw }) ∧
  (∀ (s : State), s.hub.isHolder → s.hub.lampSt = lpHANDING → s.hub.claimCome → Runs (.handoverRelease) s fun h =>
    h.lampSt = lpSHADOW ∧ h.lamp.dead = some (s.hub.now + s.hub.lampPer + s.hub.lampGuard) ∧ h.bit
    F.LMP_FLAG_RELEASE = true ∧ h.lamp.claim = none ∧ h.can = s.hub.can ∧ h.core = s.hub.core) ∧
  (∀ (s : State), s.hub.claimCome = false → Runs (.handoverRelease) s fun h => h = s.hub) ∧
  (∀ (s : State), s.hub.isShadow → s.hub.lampSt = lpCLAIMING → s.hub.lamp.granted → s.hub.claimPast (max 1000
    (s.hub.fld F.LMP_LEASE_GUARD)) → Runs (.claimTake) s fun h => h.lampSt = lpHOLDER ∧ h.bit F.LMP_FLAG_TAKE = true
    ∧ h.bit F.LMP_STAT_IN_STEP = false ∧ h.bit F.LMP_STAT_STALE = false ∧ h.lamp.dead = none ∧ h.lamp.parked = [] ∧
    h.can = s.hub.can) ∧
  (∀ (s : State), s.grantComes = false → s.hub.lampSt = lpCLAIMING → s.hub.lamp.granted = false → s.hub.claimPast
    (-(max 100 (s.hub.fld F.LMP_RECLAIM_LEAD) * 500 : Nat)) → Runs (.claimTimeout) s fun h => h.lampSt = lpSHADOW ∧
    h.lamp.claim = none ∧ h.bit F.LMP_FLAG_CLAIM_ABORT = true ∧ h =
    { s.hub with lamp := h.lamp, fields := h.fields, hw := h.hw, out := h.out }) ∧
  (∀ (f : Frame) (s : State), s.hub.hearsLamp f 8 → (f.word 1).extractLsb' 18 4 ≠ tTIMED → Runs (.lampRelay f) s fun
    h => h = (s.hub.heard f).serve ((s.hub.heard f).relayedRq f) true) ∧
  (∀ (f : Frame) (s : State), s.hub.hearsLamp f 8 → (f.word 1).extractLsb' 18 4 = tTIMED → Runs (.lampRelay f) s fun
    h => h = (s.hub.heard f).serveTimed ((s.hub.heard f).relayedRq f) (f.word 2 ++ f.word 3) true)

/-- NOP and END change nothing (R367). WRITE and BLOCK write registers as requester 0; a refused write is logged and
  recorded as failure code 4, a BLOCK count outside 1-60 as code 8 (R367, R372). POLL passes when the masked word
  matches and fails with code 5 at its time-out; COMMIT writes 1 and passes once the bit reads 0 (R367, R375). A
  partition of one good tile whose digest holds applies its records, and one with no tile fails with code 1 (R372).
  DRAM_TRAIN sets GO and its mode, the end of training sets TRAINED or TRAIN_ERR (R384). PRLOCK takes the mask
  written (R382). -/
def Obligations.RecordsAndPartitions : Prop :=
  (∀ (s : State), Runs (.recordNop) s fun h => h = s.hub) ∧
  (∀ (s : State), Runs (.recordEnd) s fun h => h = s.hub) ∧
  (∀ (off v : W32) (s : State), (s.hub.writeReg stewAcc off.toNat v).isSome → Runs (.recordWrite off v) s fun h =>
    (∀ k, s.hub.writeReg stewAcc off.toNat v = some k → h = k)) ∧
  (∀ (off v : W32) (s : State), (s.hub.writeReg stewAcc off.toNat v).isNone → Runs (.recordWrite off v) s fun h => h
    = ((s.hub.refuse stewAcc off.toNat true).cfgFail 0 0 4 0) ∧ h.bit F.CFG_FLAG_APPLY_FAIL = true ∧ h.tl =
    s.hub.tl) ∧
  (∀ (off : W32) (fixed : Bool) (v : W32) (s : State), (s.hub.writeReg stewAcc off.toNat v).isSome → Runs
    (.recordBlock off fixed [v]) s fun h => (∀ k, s.hub.writeReg stewAcc off.toNat v = some k → h = k)) ∧
  (∀ (off : W32) (fixed : Bool) (ws : List W32) (s : State), (ws = [] ∨ 60 < ws.length) → Runs (.recordBlock off
    fixed ws) s fun h => h = s.hub.cfgFail 0 0 8 0 ∧ h.bit F.CFG_FLAG_APPLY_FAIL = true ∧ h =
    { s.hub with fields := h.fields, hw := h.hw, out := h.out, ldr := h.ldr }) ∧
  (∀ (off mask v : W32) (t : Nat) (wait : Wait) (s : State), ((s.hub.readReg stewAcc off.toNat).2.any fun r =>
    decide (BitVec.ofNat 32 r &&& mask = v)) → Runs (.recordPoll off mask v t wait) s fun h => h = (s.hub.readReg
    stewAcc off.toNat).1) ∧
  (∀ (off mask v : W32) (t : Nat) (wait : Wait) (s : State), ((s.hub.readReg stewAcc off.toNat).2.any fun r =>
    decide (BitVec.ofNat 32 r &&& mask ≠ v)) → wait = .met → Runs (.recordPoll off mask v t wait) s fun h => h =
    (s.hub.readReg stewAcc off.toNat).1) ∧
  (∀ (off mask v : W32) (t : Nat) (wait : Wait) (s : State), ((s.hub.readReg stewAcc off.toNat).2.any fun r =>
    decide (BitVec.ofNat 32 r &&& mask ≠ v)) → wait = .timeout → Runs (.recordPoll off mask v t wait) s fun h => h =
    (s.hub.readReg stewAcc off.toNat).1.cfgFail 0 0 5 0 ∧ h.bit F.CFG_FLAG_APPLY_FAIL = true) ∧
  (∀ (off mask v : W32) (t : Nat) (wait : Wait) (vals : List W32) (s : State), ((s.hub.readReg stewAcc
    off.toNat).2.any fun r => decide (BitVec.ofNat 32 r &&& mask ≠ v)) → wait = .trained vals → Runs (.recordPoll
    off mask v t wait) s fun h => h = (s.hub.readReg stewAcc off.toNat).1.dramDone true vals) ∧
  (∀ (off : W32) (wait : Wait) (s : State), ((s.hub.writeReg stewAcc off.toNat 1).any fun k => (k.readReg stewAcc
    off.toNat).2.any fun r => r % 2 == 0) → Runs (.recordCommit off wait) s fun h => (∀ k, (s.hub.writeReg stewAcc
    off.toNat 1) = some k → h = (k.readReg stewAcc off.toNat).1)) ∧
  (∀ (off : W32) (wait : Wait) (s : State), ((s.hub.writeReg stewAcc off.toNat 1).any fun k => (k.readReg stewAcc
    off.toNat).2.any fun r => r % 2 == 1) → wait = .timeout → Runs (.recordCommit off wait) s fun h => (∀ k,
    (s.hub.writeReg stewAcc off.toNat 1) = some k → h = (k.readReg stewAcc off.toNat).1.cfgFail 0 0 6 0)) ∧
  (∀ (p : Partition) (s : State), pidMember p.pid = s.hub.member → p.raw.length = 256 → leWord (p.raw.drop 252) =
    crc32c (p.raw.take 252) → (leWord p.raw).bits 31 28 = pidKind p.pid → (leWord p.raw).bits 27 16 = 0 → pidKind
    p.pid ≠ 1 → Runs (.partitionApply p) s fun h => (Config.sha256 p.raw = p.digest → h = if pidKind p.pid = 2 ∧ (if
    (Run.recs .plain 0 62 { h := s.hub, waits := p.waits } (leWords 62 (p.raw.drop 4))).ended then (Run.recs .plain
    0 62 { h := s.hub, waits := p.waits } (leWords 62 (p.raw.drop 4))) else Run.failAs (Run.recs .plain 0 62
    { h := s.hub, waits := p.waits } (leWords 62 (p.raw.drop 4))) 7 0).fail.isNone then ((Hub.partEnd (if (Run.recs
    .plain 0 62 { h := s.hub, waits := p.waits } (leWords 62 (p.raw.drop 4))).ended then (Run.recs .plain 0 62
    { h := s.hub, waits := p.waits } (leWords 62 (p.raw.drop 4))) else Run.failAs (Run.recs .plain 0 62
    { h := s.hub, waits := p.waits } (leWords 62 (p.raw.drop 4))) 7 0).h p.pid (if (Run.recs .plain 0 62
    { h := s.hub, waits := p.waits } (leWords 62 (p.raw.drop 4))).ended then (Run.recs .plain 0 62
    { h := s.hub, waits := p.waits } (leWords 62 (p.raw.drop 4))) else Run.failAs (Run.recs .plain 0 62
    { h := s.hub, waits := p.waits } (leWords 62 (p.raw.drop 4))) 7 0).fail).dramEnd (if (Run.recs .plain 0 62
    { h := s.hub, waits := p.waits } (leWords 62 (p.raw.drop 4))).ended then (Run.recs .plain 0 62
    { h := s.hub, waits := p.waits } (leWords 62 (p.raw.drop 4))) else Run.failAs (Run.recs .plain 0 62
    { h := s.hub, waits := p.waits } (leWords 62 (p.raw.drop 4))) 7 0).waits).1 else Hub.partEnd (if (Run.recs
    .plain 0 62 { h := s.hub, waits := p.waits } (leWords 62 (p.raw.drop 4))).ended then (Run.recs .plain 0 62
    { h := s.hub, waits := p.waits } (leWords 62 (p.raw.drop 4))) else Run.failAs (Run.recs .plain 0 62
    { h := s.hub, waits := p.waits } (leWords 62 (p.raw.drop 4))) 7 0).h p.pid (if (Run.recs .plain 0 62
    { h := s.hub, waits := p.waits } (leWords 62 (p.raw.drop 4))).ended then (Run.recs .plain 0 62
    { h := s.hub, waits := p.waits } (leWords 62 (p.raw.drop 4))) else Run.failAs (Run.recs .plain 0 62
    { h := s.hub, waits := p.waits } (leWords 62 (p.raw.drop 4))) 7 0).fail) ∧ (Config.sha256 p.raw ≠ p.digest → h =
    s.hub.partEnd p.pid (some (1, 0)))) ∧
  (∀ (p : Partition) (s : State), pidMember p.pid = s.hub.member → p.raw = [] → pidKind p.pid ≠ 5 → pidKind p.pid ≠
    7 → Runs (.partitionApply p) s fun h => h = s.hub.cfgFail (pidKind p.pid) (pidInst p.pid) 1 0 ∧ h.bit
    F.CFG_FLAG_APPLY_FAIL = true ∧ h.tl = s.hub.tl) ∧
  (∀ (p : Partition) (s : State), pidMember p.pid ≠ s.hub.member → Runs (.partitionApply p) s fun h => h = s.hub) ∧
  (∀ (a : Access) (v : W32) (s : State), s.hub.lets a 0xC0008 → v.bit 0 → Runs (.dramTrain a v) s fun h => h.bit
    F.DRM_TRAIN_GO = true ∧ h.fld F.DRM_TRAIN_MODE = v.bits 2 1 ∧ h = { s.hub with fields := h.fields, hw := h.hw }
    ∧ SameRegs s.hub h [F.DRM_TRAIN_GO, F.DRM_TRAIN_MODE]) ∧
  (∀ (ok : Bool) (vals : List W32) (s : State), s.hub.bit F.DRM_TRAIN_GO → (s.hub.ldr.dramOwed = false ∨ ok) → Runs
    (.dramTrainDone ok vals) s fun h => h.bit F.DRM_TRAIN_GO = false ∧ (ok = true → h.bit F.DRM_STAT_TRAINED = true)
    ∧ (ok = false → h.bit F.DRM_STAT_TRAINED = false ∧ h.bit F.DRM_STAT_TRAIN_ERR = true) ∧ h.ldr =
    { s.hub.ldr with dramOwed := false } ∧ h = { s.hub with fields := h.fields, hw := h.hw, ldr := h.ldr }) ∧
  (∀ (vals : List W32) (s : State), s.hub.bit F.DRM_TRAIN_GO → s.hub.ldr.dramOwed → Runs (.dramTrainDone false vals)
    s fun h => h.bit F.DRM_TRAIN_GO = true ∧ h.fld F.DRM_TRAIN_MODE = 0 ∧ h.ldr.dramOwed = false ∧ h =
    { s.hub with fields := h.fields, hw := h.hw, ldr := h.ldr }) ∧
  (∀ (ok : Bool) (vals : List W32) (s : State), s.hub.bit F.DRM_TRAIN_GO = false → Runs (.dramTrainDone ok vals) s
    fun h => h = s.hub) ∧
  (∀ (a : Access) (v : W32) (s : State), s.hub.lets a 0x40020 → Runs (.prlockWrite a v) s fun h => h.fld
    F.CFG_PRLOCK_LOCK = v.bits 7 0 ∧ h.link = s.hub.link ∧ h.ldr = s.hub.ldr)

/-- A boot leaves a hub that has booted as it is (R371). A flash boot with no trial applies the active bundle when
  it is fit and goes on to its last steps when the apply succeeds; with an active bundle that is no legal bundle and
  no confirmed other slot it goes to recovery (R364, R365, R371, R373). A trial whose timer has run out, and an
  activation whose time has come, reset warm (R380). TRIAL_STOP ends the timer (R380). IMG_CONFIRM of a healthy
  trial marks the slot CONFIRMED and active and raises the anti-rollback count (R379). -/
def Obligations.BootAndTrial : Prop :=
  (∀ (src : BootSource) (s : State), (s.hub.phase ≠ phROM ∨ s.hub.ldr.running) → Runs (.boot src) s fun h => h =
    s.hub) ∧
  (∀ (src : BootSource) (s : State), s.hub.phase = phROM → s.hub.ldr.running = false → s.hub.bit
    F.GLB_STRAP_BOOT_SRC = false → s.hub.bcb.trial = 3 → Runs (.boot src) s fun h => (s.hub.stewardUp.bundleFit
    (slotOf s.hub.bcb.active) = true → (s.hub.stewardUp.applyBundle (slotOf s.hub.bcb.active) false src.waits).2.2 =
    true → h = (s.hub.stewardUp.applyBundle (slotOf s.hub.bcb.active) false src.waits).1.bootFinish)) ∧
  (∀ (src : BootSource) (s : State), s.hub.phase = phROM → s.hub.ldr.running = false → s.hub.bit
    F.GLB_STRAP_BOOT_SRC = false → s.hub.bcb.trial = 3 → s.hub.bLegal (slotOf s.hub.bcb.active) = false →
    s.hub.bcb.slot (1 - s.hub.bcb.active) ≠ slCONFIRMED → Runs (.boot src) s fun h => h.phase = phRECOVERY ∧ (∀ k :
    Fin 4, (h.mbx[k]).opened = true ∨ (s.hub.mbx[(0 : Fin 4)]).opened = true) ∧ h.lanes = s.hub.lanes ∧ h.ldr =
    s.hub.ldr) ∧
  (∀ (a : Access) (s : State), s.hub.lets a 0x40018 → Runs (.trialStop a) s fun h => h.ldr.trialEnd = none ∧ h =
    { s.hub with ldr := h.ldr } ∧ h.ldr.store = s.hub.ldr.store) ∧
  (∀ (t : Nat) (s : State), s.hub.ldr.trialEnd = some t → t ≤ s.hub.now → Runs (.trialExpire) s fun h => h =
    s.hub.warmNow ∧ h.bit F.GLB_RST_CAUSE_WARM = true) ∧
  (∀ (t : Nat) (s : State), s.hub.ldr.trialEnd = some t → s.hub.now < t → Runs (.trialExpire) s fun h => h = s.hub)
    ∧
  (∀ (t : BitVec 64) (s : State), s.hub.ldr.act = some t → (t = 0 ∨ s.hub.timeCome t) → Runs (.activateResetTime) s
    fun h => h = s.hub.warmNow ∧ h.bit F.GLB_RST_CAUSE_WARM = true) ∧
  (∀ (t : BitVec 64) (s : State), s.hub.ldr.act = none → Runs (.activateResetTime) s fun h => h = s.hub) ∧
  (∀ (ch : Fin 4) (mid : Byte) (s : State), secureCh ch → s.hub.inTrial → s.hub.healthyTrial → Runs (.imgConfirm ch
    mid) s fun h => h.phase = phRUN ∧ h.bcb.slot s.hub.slot = slCONFIRMED ∧ h.bcb.active = s.hub.slot ∧ h.bcb.trial
    = 3 ∧ h.ldr.trialEnd = none ∧ h.fuse.svn = max s.hub.fuse.svn (s.hub.bSvn (slotOf s.hub.slot)) ∧ h.bit
    F.CFG_FLAG_FUSE_ADV = true ∧ h.replies ch 0x0205 mid rcOK [] = s.hub.replies ch 0x0205 mid rcOK [] + 1 ∧
    h.fuse.keys = s.hub.fuse.keys ∧ h.ldr.store = s.hub.ldr.store) ∧
  (∀ (ch : Fin 4) (mid : Byte) (s : State), secureCh ch → s.hub.inTrial = false → Runs (.imgConfirm ch mid) s fun h
    => h.ldr = s.hub.ldr ∧ h.fuse = s.hub.fuse ∧ h.replies ch 0x0205 mid rcOK [] = s.hub.replies ch 0x0205 mid rcOK
    [] + 1 ∧ h.lanes = s.hub.lanes)

/-- IMG_BEGIN on a secure channel opens the one session for the slot that does not run and marks it EMPTY; another
  party's session, or a trial, refuses it (R378). IMG_BLOCK programs a page once; IMG_END of a whole legal bundle
  closes the session as WRITTEN when digests and signature hold, CHECK_FAIL or AUTH_FAIL otherwise (R378).
  IMG_ACTIVATE makes the slot the trial with its time, or accepts a live change; CANCEL takes it back (R380, R381).
  The live steps lock clusters and apply, write the drone part and switch at start(K) into a trial; a step not done
  in time falls back by warm reset (R382). An idle session ends after a minute (R378). A channel that is not secure
  gets AUTH_FAIL (R404). -/
def Obligations.UpdateSessions : Prop :=
  (∀ (ch : Fin 4) (mid : Byte) (len : Nat) (s : State), secureCh ch → s.hub.ldr.sess = none → s.hub.bcb.trial = 3 →
    Runs (.imgBegin ch mid len) s fun h => h.ldr.sess = some
    { who := s.hub.party ch 0x0201 mid, slot := s.hub.inactive, len := len, last := s.hub.now } ∧ (s.hub.inactive <
    2 → h.bcb.slot s.hub.inactive = slEMPTY) ∧ h.replies ch 0x0201 mid rcOK [] = s.hub.replies ch 0x0201 mid rcOK []
    + 1 ∧ h.lanes = s.hub.lanes) ∧
  (∀ (ch : Fin 4) (mid : Byte) (len : Nat) (x : Sess) (s : State), secureCh ch → s.hub.ldr.sess = some x → x.who ≠
    s.hub.party ch 0x0201 mid → Runs (.imgBegin ch mid len) s fun h => h.ldr = s.hub.ldr ∧ h.replies ch 0x0201 mid
    rcBUSY [] = s.hub.replies ch 0x0201 mid rcBUSY [] + 1 ∧ h.lanes = s.hub.lanes) ∧
  (∀ (ch : Fin 4) (mid : Byte) (len : Nat) (s : State), secureCh ch = false → Runs (.imgBegin ch mid len) s fun h =>
    h.ldr = s.hub.ldr ∧ h.replies ch 0x0201 mid rcAUTH_FAIL [] = s.hub.replies ch 0x0201 mid rcAUTH_FAIL [] + 1 ∧
    h.lanes = s.hub.lanes) ∧
  (∀ (ch : Fin 4) (mid : Byte) (off : Nat) (d : List Byte) (x : Sess) (s : State), ch.val % 2 = 1 → secureCh ch →
    s.hub.ldr.sess = some x → x.who = s.hub.party ch 0x0202 mid → off % 4096 = 0 → off < x.len → d.length = 4096 →
    x.got.contains off = false → Runs (.imgBlock ch mid off (.inline d)) s fun h => h.ldr.store =
    s.hub.ldr.store.set (slotOf x.slot) (flashPut (s.hub.ldr.store[slotOf x.slot]) off d) ∧ h.ldr.sess = some
    { x with got := off :: x.got, last := s.hub.now } ∧ h.replies ch 0x0202 mid rcOK [] = s.hub.replies ch 0x0202
    mid rcOK [] + 1 ∧ h.lanes = s.hub.lanes) ∧
  (∀ (ch : Fin 4) (mid : Byte) (off : Nat) (b : Bulk) (s : State), secureCh ch → s.hub.ldr.sess = none → Runs
    (.imgBlock ch mid off b) s fun h => h.ldr = s.hub.ldr ∧ h.replies ch 0x0202 mid rcBAD_STATE [] = s.hub.replies
    ch 0x0202 mid rcBAD_STATE [] + 1 ∧ h.lanes = s.hub.lanes) ∧
  (∀ (ch : Fin 4) (mid : Byte) (x : Sess) (s : State), secureCh ch → s.hub.ldr.sess = some x → x.who = s.hub.party
    ch 0x0203 mid → ((List.range ((x.len + 4095) / 4096)).all fun k => x.got.contains (4096 * k)) → s.hub.bLength
    (slotOf x.slot) = x.len → s.hub.bLegal (slotOf x.slot) → Runs (.imgEnd ch mid) s fun h => ((s.hub.digestsHold
    (slotOf x.slot) && s.hub.bAuthentic (slotOf x.slot) && s.hub.bCurrent (slotOf x.slot)) = true → h.ldr.sess =
    none ∧ (x.slot < 2 → h.bcb.slot x.slot = slWRITTEN) ∧ h.replies ch 0x0203 mid rcOK [] = s.hub.replies ch 0x0203
    mid rcOK [] + 1) ∧ (s.hub.digestsHold (slotOf x.slot) = false → h.ldr.sess.isSome = true ∧ h.replies ch 0x0203
    mid rcCHECK_FAIL [] = s.hub.replies ch 0x0203 mid rcCHECK_FAIL [] + 1) ∧ (s.hub.digestsHold (slotOf x.slot) =
    true → (s.hub.bAuthentic (slotOf x.slot) && s.hub.bCurrent (slotOf x.slot)) = false → h.ldr.sess.isSome = true ∧
    h.replies ch 0x0203 mid rcAUTH_FAIL [] = s.hub.replies ch 0x0203 mid rcAUTH_FAIL [] + 1) ∧ h.ldr.store =
    s.hub.ldr.store) ∧
  (∀ (ch : Fin 4) (mid : Byte) (s : State), secureCh ch → s.hub.ldr.sess = none → Runs (.imgEnd ch mid) s fun h =>
    h.ldr = s.hub.ldr ∧ h.replies ch 0x0203 mid rcBAD_STATE [] = s.hub.replies ch 0x0203 mid rcBAD_STATE [] + 1 ∧
    h.lanes = s.hub.lanes) ∧
  (∀ (ch : Fin 4) (mid : Byte) (t : BitVec 64) (s : State), secureCh ch → s.hub.mayActivate → s.hub.ringBoot = false
    → Runs (.imgActivateReset ch mid t) s fun h => h.ldr.act = some t ∧ h.bcb.trial = s.hub.inactive ∧ h.bcb.trials
    = 0 ∧ h.replies ch 0x0204 mid rcOK [] = s.hub.replies ch 0x0204 mid rcOK [] + 1 ∧ h.ldr.store = s.hub.ldr.store)
    ∧
  (∀ (ch : Fin 4) (mid : Byte) (t : BitVec 64) (s : State), secureCh ch → s.hub.mayActivate = false → Runs
    (.imgActivateReset ch mid t) s fun h => h.ldr = s.hub.ldr ∧ h.replies ch 0x0204 mid rcBAD_STATE [] =
    s.hub.replies ch 0x0204 mid rcBAD_STATE [] + 1 ∧ h.lanes = s.hub.lanes) ∧
  (∀ (ch : Fin 4) (mid : Byte) (t : BitVec 64) (s : State), secureCh ch → s.hub.ldr.act = some t → Runs
    (.imgActivateCancel ch mid) s fun h => h.ldr.act = none ∧ h.bcb.trial = 3 ∧ h.bcb.trials = 0 ∧ h.replies ch
    0x0204 mid rcOK [] = s.hub.replies ch 0x0204 mid rcOK [] + 1 ∧ h.ldr.store = s.hub.ldr.store) ∧
  (∀ (ch : Fin 4) (mid : Byte) (k : Nat) (s : State), secureCh ch → s.hub.mayActivate → s.hub.ldr.running →
    s.hub.slot < 2 → s.hub.bcb.slot s.hub.slot = slCONFIRMED → s.hub.bcb.trial = 3 → s.hub.onlyLive (slotOf
    s.hub.inactive) (slotOf s.hub.slot) → (((s.hub.changed (slotOf s.hub.inactive) (slotOf s.hub.slot)).map fun p =>
    p.tiles).foldl (· + ·) 0 ≤ 1024) → s.hub.gno.t.nanos + (s.hub.leadMs + 50) * 1000000 ≤ s.hub.drnBase + k *
    s.hub.drnPer → s.hub.bit F.DRN_CTL_EN → Runs (.imgActivateLive ch mid k) s fun h => h.phase = phLIVE ∧
    h.bcb.trial = s.hub.inactive ∧ h.bcb.trials = 2 ∧ (h.ldr.live = some
    { k := k, slot := s.hub.inactive, clus := instMask (s.hub.changed (slotOf s.hub.inactive) (slotOf s.hub.slot)) 5, cores := instMask (s.hub.changed (slotOf s.hub.inactive) (slotOf s.hub.slot)) 7, drone := (s.hub.changed (slotOf s.hub.inactive) (slotOf s.hub.slot)).any fun p => pidKind p.pid == 6 })
    ∧ h.replies ch 0x0204 mid rcOK [] = s.hub.replies ch 0x0204 mid rcOK [] + 1 ∧ h.ldr.store = s.hub.ldr.store) ∧
  (∀ (w : List Wait) (l : Live) (s : State), s.hub.ldr.live = some l → l.locked = false → s.hub.liveAt l ≤
    s.hub.gno.t.nanos + s.hub.leadMs * 1000000 → s.hub.changed (slotOf l.slot) (slotOf s.hub.slot) = [] → Runs
    (.liveLock w) s fun h => h.ldr.live = some { l with locked := true } ∧ h.fld F.CFG_PRLOCK_LOCK = s.hub.fld
    F.CFG_PRLOCK_LOCK ||| l.clus.toNat ∧ h.fuse = s.hub.fuse ∧ h.ldr.store = s.hub.ldr.store) ∧
  (∀ (w : List Wait) (l : Live) (s : State), s.hub.ldr.live = some l → (l.locked ∨ s.hub.gno.t.nanos + s.hub.leadMs
    * 1000000 < s.hub.liveAt l) → Runs (.liveLock w) s fun h => h = s.hub) ∧
  (∀ (w : List Wait) (s : State), s.hub.ldr.live = none → Runs (.liveLock w) s fun h => h = s.hub) ∧
  (∀ (w : List Wait) (l : Live) (s : State), s.hub.ldr.live = some l → l.locked → l.drnDone = false → s.hub.liveAt l
    ≤ s.hub.gno.t.nanos + s.hub.drnPer → s.hub.gno.t.nanos < s.hub.liveAt l → s.hub.changed (slotOf l.slot) (slotOf
    s.hub.slot) = [] → Runs (.liveDroneWrite w) s fun h => h.ldr.live = some { l with drnDone := true } ∧ h =
    { s.hub with ldr := h.ldr }) ∧
  (∀ (w : List Wait) (l : Live) (s : State), s.hub.ldr.live = some l → l.locked → l.drnDone = false → s.hub.liveAt l
    ≤ s.hub.gno.t.nanos → Runs (.liveDroneWrite w) s fun h => h = s.hub.liveFail ∧ h.bit F.GLB_RST_CAUSE_WARM =
    true) ∧
  (∀ (l : Live) (s : State), s.hub.ldr.live = some l → l.bad = false → l.locked → (l.drone = false ∨ l.drnDone) →
    l.slot < 3 → s.hub.liveAt l ≤ s.hub.gno.t.nanos → Runs (.liveSwitch) s fun h => h.ldr.live = none ∧ h.phase =
    phTRIAL ∧ h.fld F.CFG_STAT_TRIALS = 2 ∧ h.slot = l.slot ∧ h.bit F.CFG_FLAG_PR_DONE = true ∧ h.ldr.trialEnd =
    some (s.hub.now + s.hub.bTrial (slotOf l.slot)) ∧ h.ldr.store = s.hub.ldr.store) ∧
  (∀ (l : Live) (s : State), s.hub.ldr.live = some l → (l.bad ∨ l.locked = false ∨ (l.drone ∧ l.drnDone = false)) →
    s.hub.liveAt l ≤ s.hub.gno.t.nanos → Runs (.liveSwitch) s fun h => h = s.hub.liveFail ∧ h.bit
    F.GLB_RST_CAUSE_WARM = true) ∧
  (∀ (l : Live) (s : State), s.hub.ldr.live = some l → s.hub.gno.t.nanos < s.hub.liveAt l → Runs (.liveSwitch) s fun
    h => h = s.hub) ∧
  (∀ (ch : Fin 4) (mid : Byte) (mask : BitVec 8) (w : List Wait) (s : State), secureCh ch → s.hub.ldr.running =
    false → Runs (.imgReapply ch mid mask w) s fun h => h.ldr = s.hub.ldr ∧ h.replies ch 0x0206 mid rcBAD_STATE [] =
    s.hub.replies ch 0x0206 mid rcBAD_STATE [] + 1 ∧ h.lanes = s.hub.lanes) ∧
  (∀ (ch : Fin 4) (mid : Byte) (c : Fin 8) (w : List Wait) (s : State), secureCh ch → s.hub.ldr.running →
    s.hub.clusterPresent c → (s.hub.bPart (slotOf s.hub.slot) 5 c).isSome → s.hub.domOn (18 + c) → s.hub.inReset c =
    false → Runs (.imgReapply ch mid (BitVec.twoPow 8 c) w) s fun h => h.bit F.CFG_FLAG_REAPPLY = true) ∧
  (∀ (ch : Fin 4) (mid : Byte) (s : State), Runs (.imgStatus ch mid) s fun h => h.replies ch 0x0207 mid rcOK
    [(s.hub.mbxTake ch 0x0207 mid).1.shown 0x40004, (s.hub.mbxTake ch 0x0207 mid).1.shown 0x40014, (s.hub.mbxTake ch
    0x0207 mid).1.shown 0x40010, s.hub.bcb.word] = s.hub.replies ch 0x0207 mid rcOK [(s.hub.mbxTake ch 0x0207
    mid).1.shown 0x40004, (s.hub.mbxTake ch 0x0207 mid).1.shown 0x40014, (s.hub.mbxTake ch 0x0207 mid).1.shown
    0x40010, s.hub.bcb.word] + 1 ∧ h.ldr = s.hub.ldr ∧ h.lanes = s.hub.lanes) ∧
  (∀ (x : Sess) (s : State), s.hub.ldr.sess = some x → x.last + 24000000000 ≤ s.hub.now → Runs (.sessionTimeout) s
    fun h => h.ldr.sess = none ∧ h.bit F.CFG_FLAG_SESSION_ABORT = true ∧ h =
    { s.hub with ldr := h.ldr, fields := h.fields, hw := h.hw, out := h.out } ∧ SameRegs s.hub h
    [F.CFG_FLAG_SESSION_ABORT]) ∧
  (∀ (x : Sess) (s : State), s.hub.ldr.sess = some x → s.hub.now < x.last + 24000000000 → Runs (.sessionTimeout) s
    fun h => h = s.hub)

/-- A word pushed joins the inbound queue; one pushed to a full queue sets IN_OVF and its message is answered
  BAD_ARG; a pop gives the head, or 0 from an empty queue (R397). In COMPAT mode MBX2_WORD sets and clears FULL and
  RFULL, and a write that finds its flag set is discarded (R401). A MGMT frame of a node the allowlist does not
  admit is discarded and counted, one on channel 1 with AUTH and no tag is answered AUTH_FAIL with BOOTID, any other
  admitted command joins its channel once that is open (R400, R402, R403). PING, LOG_READ, LOG_CLEAR, REG_READ,
  REG_WRITE, RING_RESET, PROVISION and REVOKE answer as Table 13.5 says, AUTH_FAIL on a channel it does not allow
  (R404, R405). BOOT_WAIT broadcasts the notice of a ring boot that has joined, once a second, and changes nothing
  elsewhere (R370). -/
def Obligations.StewardCommands : Prop :=
  (∀ (a : Access) (k : Fin 4) (v : W32) (s : State), s.hub.lets a (mbxBase k + 8) → s.hub.compat k = false →
    (s.hub.mbx[k]).inq.length < 8 → Runs (.mbxInPush a k v) s fun h => (h.mbx[k]).inq = (s.hub.mbx[k]).inq ++ [v] ∧
    (h.mbx[k]).outq = (s.hub.mbx[k]).outq ∧ (h.mbx[k]).wait = (s.hub.mbx[k]).wait ∧ (∀ i : Fin 4, i ≠ k → h.mbx[i] =
    s.hub.mbx[i]) ∧ h = { s.hub with mbx := h.mbx }) ∧
  (∀ (a : Access) (k : Fin 4) (v : W32) (s : State), s.hub.lets a (mbxBase k + 8) → s.hub.compat k = false → 8 ≤
    (s.hub.mbx[k]).inq.length → Runs (.mbxInPush a k v) s fun h => h.bit (F.MBX_STAT_IN_OVF k) = true ∧
    (h.mbx[k]).inq = (splitMsgs 8 (s.hub.mbx[k]).inq).1.flatten ∧ h.replies k ((((splitMsgs 8 (s.hub.mbx[k]).inq).2
    ++ [v]).headD 0).bits 31 16) ((((splitMsgs 8 (s.hub.mbx[k]).inq).2 ++ [v]).headD 0).extractLsb' 8 8) rcBAD_ARG
    [] = s.hub.replies k ((((splitMsgs 8 (s.hub.mbx[k]).inq).2 ++ [v]).headD 0).bits 31 16) ((((splitMsgs 8
    (s.hub.mbx[k]).inq).2 ++ [v]).headD 0).extractLsb' 8 8) rcBAD_ARG [] + 1 ∧ h =
    { s.hub with mbx := h.mbx, fields := h.fields, hw := h.hw, out := h.out } ∧ SameRegs s.hub h [F.MBX_STAT_IN_OVF
    k]) ∧
  (∀ (a : Access) (k : Fin 4) (v : W32) (s : State), s.hub.lets a (mbxBase k + 8) → s.hub.compat k → Runs
    (.mbxInPush a k v) s fun h => h = s.hub) ∧
  (∀ (a : Access) (k : Fin 4) (w : W32) (r : List W32) (s : State), s.hub.lets a (mbxBase k + 0xC) false →
    s.hub.compat k = false → (s.hub.mbx[k]).outq = w :: r → Runs (.mbxOutPop a k) s fun h => h.out = .regRead a
    (mbxBase k + 0xC) w :: s.hub.out ∧ ((s.hub.mbx[k]).wait = [] → (h.mbx[k]).outq = r) ∧ (h.mbx[k]).inq =
    (s.hub.mbx[k]).inq ∧ h = { s.hub with mbx := h.mbx, out := h.out }) ∧
  (∀ (a : Access) (k : Fin 4) (s : State), s.hub.lets a (mbxBase k + 0xC) false → (s.hub.mbx[k]).outq = [] → Runs
    (.mbxOutPop a k) s fun h => h = s.hub.emit (.regRead a (mbxBase k + 0xC) 0)) ∧
  (∀ (a : Access) (v : W32) (s : State), s.hub.lets a 0x58020 → s.hub.compat 2 → a.req ≠ 0 → s.hub.bit
    (F.MBX_WSTAT_FULL 2) = false → Runs (.mbx2WordAccess a (some v)) s fun h => h.bit (F.MBX_WSTAT_FULL 2) = true ∧
    (h.mbx[(2 : Fin 4)]).wordIn = v ∧ (h.mbx[(2 : Fin 4)]).wordOut = (s.hub.mbx[(2 : Fin 4)]).wordOut ∧ h =
    { s.hub with fields := h.fields, hw := h.hw, mbx := h.mbx } ∧ SameRegs s.hub h [F.MBX_WSTAT_FULL 2]) ∧
  (∀ (a : Access) (v : W32) (s : State), s.hub.lets a 0x58020 → s.hub.compat 2 → a.req = 0 → s.hub.bit
    (F.MBX_WSTAT_RFULL 2) = false → Runs (.mbx2WordAccess a (some v)) s fun h => h.bit (F.MBX_WSTAT_RFULL 2) = true
    ∧ (h.mbx[(2 : Fin 4)]).wordOut = v ∧ (h.mbx[(2 : Fin 4)]).wordIn = (s.hub.mbx[(2 : Fin 4)]).wordIn ∧ h =
    { s.hub with fields := h.fields, hw := h.hw, mbx := h.mbx } ∧ SameRegs s.hub h [F.MBX_WSTAT_RFULL 2]) ∧
  (∀ (a : Access) (v : W32) (s : State), s.hub.lets a 0x58020 → s.hub.compat 2 → a.req ≠ 0 → s.hub.bit
    (F.MBX_WSTAT_FULL 2) → Runs (.mbx2WordAccess a (some v)) s fun h => h.bit (F.MBX_STAT_IN_OVF 2) = true ∧ h =
    { s.hub with fields := h.fields, hw := h.hw } ∧ SameRegs s.hub h [F.MBX_STAT_IN_OVF 2]) ∧
  (∀ (a : Access) (v : W32) (s : State), s.hub.lets a 0x58020 → s.hub.compat 2 → a.req = 0 → s.hub.bit
    (F.MBX_WSTAT_RFULL 2) → Runs (.mbx2WordAccess a (some v)) s fun h => h.bit (F.MBX_STAT_IN_OVF 2) = true ∧ h =
    { s.hub with fields := h.fields, hw := h.hw } ∧ SameRegs s.hub h [F.MBX_STAT_IN_OVF 2]) ∧
  (∀ (a : Access) (s : State), s.hub.lets a 0x58020 false → s.hub.compat 2 → a.req = 0 → Runs (.mbx2WordAccess a
    none) s fun h => h.bit (F.MBX_WSTAT_FULL 2) = false ∧ h.out = .regRead a 0x58020 (s.hub.mbx[(2 : Fin 4)]).wordIn
    :: s.hub.out ∧ h = { s.hub with fields := h.fields, hw := h.hw, out := h.out } ∧ SameRegs s.hub h
    [F.MBX_WSTAT_FULL 2]) ∧
  (∀ (a : Access) (s : State), s.hub.lets a 0x58020 false → s.hub.compat 2 → a.req ≠ 0 → Runs (.mbx2WordAccess a
    none) s fun h => h.bit (F.MBX_WSTAT_RFULL 2) = false ∧ h.out = .regRead a 0x58020 (s.hub.mbx[(2 : Fin
    4)]).wordOut :: s.hub.out ∧ h = { s.hub with fields := h.fields, hw := h.hw, out := h.out } ∧ SameRegs s.hub h
    [F.MBX_WSTAT_RFULL 2]) ∧
  (∀ (f : Frame) (s : State), (f.word 0).bits 17 16 = 3 → s.hub.listAdmits (s.hub.fld F.SEC_CTL_ALLOW3)
    (s.hub.srcNode f.hdr.snode) = false → Runs (.mgmt f) s fun h => h = s.hub.count F.SEC_DENYCNT_COUNT) ∧
  (∀ (f : Frame) (s : State), (f.word 0).bits 17 16 = 1 → s.hub.listAdmits (s.hub.fld F.SEC_CTL_ALLOW1)
    (s.hub.srcNode f.hdr.snode) = false → Runs (.mgmt f) s fun h => h = s.hub.count F.SEC_DENYCNT_COUNT) ∧
  (∀ (f : Frame) (s : State), (f.word 0).bits 31 28 ≠ 1 → ((f.word 0).bits 17 16 = 1 → s.hub.listAdmits (s.hub.fld
    F.SEC_CTL_ALLOW1) (s.hub.srcNode f.hdr.snode)) → ((f.word 0).bits 17 16 = 3 → s.hub.listAdmits (s.hub.fld
    F.SEC_CTL_ALLOW3) (s.hub.srcNode f.hdr.snode)) → Runs (.mgmt f) s fun h => h = s.hub) ∧
  (∀ (f : Frame) (s : State), (f.word 0).bits 31 28 = 1 → (f.word 0).bits 17 16 = 3 → (f.word 0).bit 27 = false →
    f.pay.length = 8 → (f.word 1).bits 3 0 = 0 → s.hub.listAdmits (s.hub.fld F.SEC_CTL_ALLOW3) (s.hub.srcNode
    f.hdr.snode) → (s.hub.mbx[(3 : Fin 4)]).opened → (s.hub.mbx[(3 : Fin 4)]).inq.length < 8 → Runs (.mgmt f) s fun
    h => (h.mbx[(3 : Fin 4)]).inq = (s.hub.mbx[(3 : Fin 4)]).inq ++ [f.word 1] ∧ (h.mbx[(3 : Fin 4)]).src =
    (s.hub.mbx[(3 : Fin 4)]).src ++ [{ node := f.hdr.snode, mem := f.hdr.smem, auth := false, bulk := [] }] ∧
    (h.mbx[(3 : Fin 4)]).last = (f.word 1).extractLsb' 8 8 ∧ h = { s.hub with mbx := h.mbx }) ∧
  (∀ (f : Frame) (s : State), (f.word 0).bits 31 28 = 1 → (f.word 0).bits 17 16 = 3 → (f.word 0).bit 27 = false →
    f.pay.length = 8 → (f.word 1).bits 3 0 = 0 → s.hub.listAdmits (s.hub.fld F.SEC_CTL_ALLOW3) (s.hub.srcNode
    f.hdr.snode) → (s.hub.mbx[(3 : Fin 4)]).opened = false → Runs (.mgmt f) s fun h => h.replies 3 ((f.word 1).bits
    31 16) ((f.word 1).extractLsb' 8 8) rcABORTED [] = s.hub.replies 3 ((f.word 1).bits 31 16) ((f.word
    1).extractLsb' 8 8) rcABORTED [] + 1 ∧ h.lanes = s.hub.lanes) ∧
  (∀ (f : Frame) (s : State), (f.word 0).bits 31 28 = 1 → (f.word 0).bits 17 16 = 1 → (f.word 0).bit 27 = false →
    f.pay.length = 8 → (f.word 1).bits 3 0 = 0 → s.hub.listAdmits (s.hub.fld F.SEC_CTL_ALLOW1) (s.hub.srcNode
    f.hdr.snode) → s.hub.bit F.SEC_CTL_AUTH → Runs (.mgmt f) s fun h => h.replies 1 ((f.word 1).bits 31 16) ((f.word
    1).extractLsb' 8 8) rcAUTH_FAIL [BitVec.ofNat 32 (s.hub.fld F.SEC_BOOTID_ID)] = s.hub.replies 1 ((f.word 1).bits
    31 16) ((f.word 1).extractLsb' 8 8) rcAUTH_FAIL [BitVec.ofNat 32 (s.hub.fld F.SEC_BOOTID_ID)] + 1 ∧ (h.mbx[(1 :
    Fin 4)]).inq = (s.hub.mbx[(1 : Fin 4)]).inq ∧ h.lanes = s.hub.lanes) ∧
  (∀ (ch : Fin 4) (mid : Byte) (s : State), Runs (.ping ch mid) s fun h => h.replies ch 0x0001 mid rcOK
    [(s.hub.mbxTake ch 0x0001 mid).1.shown 0, (s.hub.mbxTake ch 0x0001 mid).1.shown 0x40010, (s.hub.mbxTake ch
    0x0001 mid).1.shown 0x54008] = s.hub.replies ch 0x0001 mid rcOK [(s.hub.mbxTake ch 0x0001 mid).1.shown 0,
    (s.hub.mbxTake ch 0x0001 mid).1.shown 0x40010, (s.hub.mbxTake ch 0x0001 mid).1.shown 0x54008] + 1 ∧ h.lanes =
    s.hub.lanes ∧ h.fuse = s.hub.fuse) ∧
  (∀ (ch : Fin 4) (mid : Byte) (first count : Nat) (e : LogEntry) (s : State), count = 1 → s.hub.err.log[first]? =
    some e → Runs (.logRead ch mid first count) s fun h => (h.replies ch 0x0002 mid rcOK ((List.range 4).map fun i
    => BitVec.ofNat 32 (e.word i)) = s.hub.replies ch 0x0002 mid rcOK ((List.range 4).map fun i => BitVec.ofNat 32
    (e.word i)) + 1) ∧ h.lanes = s.hub.lanes ∧ h.fuse = s.hub.fuse) ∧
  (∀ (ch : Fin 4) (mid : Byte) (first count : Nat) (s : State), count = 1 → s.hub.err.log[first]? = none → Runs
    (.logRead ch mid first count) s fun h => h.replies ch 0x0002 mid rcBAD_ARG [] = s.hub.replies ch 0x0002 mid
    rcBAD_ARG [] + 1 ∧ h.lanes = s.hub.lanes ∧ h.fuse = s.hub.fuse) ∧
  (∀ (ch : Fin 4) (mid : Byte) (first count : Nat) (s : State), 1 < count → Runs (.logRead ch mid first count) s fun
    h => h.replies ch 0x0002 mid rcBAD_ARG [] = s.hub.replies ch 0x0002 mid rcBAD_ARG [] + 1 ∧ h.lanes = s.hub.lanes
    ∧ h.fuse = s.hub.fuse) ∧
  (∀ (ch : Fin 4) (mid : Byte) (s : State), secureCh ch → Runs (.logClear ch mid) s fun h => (ch = 0 → h.err.log =
    s.hub.err.log.filter (fun e => e.tick == s.hub.now) ∧ h.err.fec = s.hub.err.fecNow.filter fun e => e.tick ==
    s.hub.now) ∧ h.replies ch 0x0003 mid rcOK [] = s.hub.replies ch 0x0003 mid rcOK [] + 1 ∧ h.lanes = s.hub.lanes ∧
    h.fuse = s.hub.fuse) ∧
  (∀ (ch : Fin 4) (mid : Byte) (s : State), secureCh ch = false → Runs (.logClear ch mid) s fun h => (ch = 2 → h.err
    = s.hub.err) ∧ h.replies ch 0x0003 mid rcAUTH_FAIL [] = s.hub.replies ch 0x0003 mid rcAUTH_FAIL [] + 1 ∧ h.lanes
    = s.hub.lanes ∧ h.fuse = s.hub.fuse) ∧
  (∀ (ch : Fin 4) (mid : Byte) (addr : FabAddr) (s : State), secureCh ch → (s.hub.mbxTake ch 0x0101 mid).1.ownReg
    addr → Runs (.regRead ch mid addr) s fun h => (((s.hub.mbxTake ch 0x0101 mid).1.regRead stewAcc
    addr.off).2.isSome = true → h = ((s.hub.mbxTake ch 0x0101 mid).1.regRead stewAcc addr.off).1.answer ch
    (s.hub.mbxTake ch 0x0101 mid).2 0x0101 mid rcOK [((s.hub.mbxTake ch 0x0101 mid).1.regRead stewAcc
    addr.off).2.getD 0]) ∧ (((s.hub.mbxTake ch 0x0101 mid).1.regRead stewAcc addr.off).2 = none → h =
    ((s.hub.mbxTake ch 0x0101 mid).1.regRead stewAcc addr.off).1.answer ch (s.hub.mbxTake ch 0x0101 mid).2 0x0101
    mid rcBAD_ARG [])) ∧
  (∀ (ch : Fin 4) (mid : Byte) (addr : FabAddr) (s : State), secureCh ch → (s.hub.mbxTake ch 0x0101 mid).1.ownReg
    addr = false → Runs (.regRead ch mid addr) s fun h => h.replies ch 0x0101 mid rcBAD_ARG [] = s.hub.replies ch
    0x0101 mid rcBAD_ARG [] + 1 ∧ h.lanes = s.hub.lanes ∧ h.fuse = s.hub.fuse) ∧
  (∀ (ch : Fin 4) (mid : Byte) (addr : FabAddr) (s : State), secureCh ch = false → Runs (.regRead ch mid addr) s fun
    h => h.replies ch 0x0101 mid rcAUTH_FAIL [] = s.hub.replies ch 0x0101 mid rcAUTH_FAIL [] + 1 ∧ h.lanes =
    s.hub.lanes ∧ h.fuse = s.hub.fuse) ∧
  (∀ (ch : Fin 4) (mid : Byte) (addr : FabAddr) (v : W32) (s : State), secureCh ch → (s.hub.mbxTake ch 0x0102
    mid).1.ownReg addr → Runs (.regWrite ch mid addr v) s fun h => (∀ g, (s.hub.mbxTake ch 0x0102 mid).1.writeReg
    stewAcc addr.off v = some g → h = g.answer ch (s.hub.mbxTake ch 0x0102 mid).2 0x0102 mid rcOK []) ∧
    ((s.hub.mbxTake ch 0x0102 mid).1.writeReg stewAcc addr.off v = none → h = ((s.hub.mbxTake ch 0x0102
    mid).1.refuse stewAcc addr.off true).answer ch (s.hub.mbxTake ch 0x0102 mid).2 0x0102 mid rcBAD_ARG [])) ∧
  (∀ (ch : Fin 4) (mid : Byte) (addr : FabAddr) (v : W32) (s : State), secureCh ch → (s.hub.mbxTake ch 0x0102
    mid).1.ownReg addr = false → Runs (.regWrite ch mid addr v) s fun h => h.replies ch 0x0102 mid rcBAD_ARG [] =
    s.hub.replies ch 0x0102 mid rcBAD_ARG [] + 1 ∧ h.lanes = s.hub.lanes ∧ h.fuse = s.hub.fuse) ∧
  (∀ (ch : Fin 4) (mid : Byte) (addr : FabAddr) (v : W32) (s : State), secureCh ch = false → Runs (.regWrite ch mid
    addr v) s fun h => h.replies ch 0x0102 mid rcAUTH_FAIL [] = s.hub.replies ch 0x0102 mid rcAUTH_FAIL [] + 1 ∧
    h.lanes = s.hub.lanes ∧ h.fuse = s.hub.fuse) ∧
  (∀ (ch : Fin 4) (mid : Byte) (t : BitVec 64) (s : State), secureCh ch → s.hub.isMaster → ((s.hub.gno.t.units +
    1000000 * 2 ^ 24 : Nat) : Int) ≤ pickTime s.hub.gno.t t → Runs (.ringReset ch mid t) s fun h => h.ring.ringReset
    = some t ∧ h.replies ch 0x0301 mid rcOK [] = s.hub.replies ch 0x0301 mid rcOK [] + 1 ∧ h.lanes = s.hub.lanes) ∧
  (∀ (ch : Fin 4) (mid : Byte) (t : BitVec 64) (s : State), secureCh ch → s.hub.isMaster → pickTime s.hub.gno.t t <
    ((s.hub.gno.t.units + 1000000 * 2 ^ 24 : Nat) : Int) → Runs (.ringReset ch mid t) s fun h => h.ring.ringReset =
    s.hub.ring.ringReset ∧ h.replies ch 0x0301 mid rcBAD_ARG [] = s.hub.replies ch 0x0301 mid rcBAD_ARG [] + 1 ∧
    h.lanes = s.hub.lanes) ∧
  (∀ (ch : Fin 4) (mid : Byte) (t : BitVec 64) (s : State), secureCh ch → s.hub.isMaster = false → Runs (.ringReset
    ch mid t) s fun h => h.ring.ringReset = s.hub.ring.ringReset ∧ h.replies ch 0x0301 mid rcBAD_STATE [] =
    s.hub.replies ch 0x0301 mid rcBAD_STATE [] + 1 ∧ h.lanes = s.hub.lanes) ∧
  (∀ (ch : Fin 4) (mid : Byte) (tile : Nat) (d : List Byte) (s : State), ch = 0 → ((s.hub.mbxTake ch 0x0401
    mid).1.bulkData 0 (.window tile) 256).2 = .inr d → (leWord ((d.drop 128).drop 16)).bits 31 6 = 0 → Runs
    (.provision ch mid tile) s fun h => h.fuse = (s.hub.fuse.provision (leWord ((d.drop 128).drop 16)) (d.take 128)
    (d.drop 128)).1 ∧ h.replies ch 0x0401 mid (if (s.hub.fuse.provision (leWord ((d.drop 128).drop 16)) (d.take 128)
    (d.drop 128)).2 then rcOK else rcBAD_STATE) [] = s.hub.replies ch 0x0401 mid (if (s.hub.fuse.provision (leWord
    ((d.drop 128).drop 16)) (d.take 128) (d.drop 128)).2 then rcOK else rcBAD_STATE) [] + 1 ∧ (∀ i : Fin 4, (leWord
    ((d.drop 128).drop 16)).bit i.val → s.hub.fuse.keys[i] = none → h.fuse.keys[i] = some (beNum ((d.drop (32 *
    i.val)).take 32))) ∧ (∀ i : Fin 4, (leWord ((d.drop 128).drop 16)).bit i.val = false ∨ s.hub.fuse.keys[i] ≠ none
    → h.fuse.keys[i] = s.hub.fuse.keys[i]) ∧ ((leWord ((d.drop 128).drop 16)).bit 5 → h.fuse.hostTrust = true) ∧
    h.lanes = s.hub.lanes) ∧
  (∀ (ch : Fin 4) (mid : Byte) (tile : Nat) (d : List Byte) (s : State), ch = 0 → ((s.hub.mbxTake ch 0x0401
    mid).1.bulkData 0 (.window tile) 256).2 = .inr d → (leWord ((d.drop 128).drop 16)).bits 31 6 ≠ 0 → Runs
    (.provision ch mid tile) s fun h => h.replies ch 0x0401 mid rcBAD_ARG [] = s.hub.replies ch 0x0401 mid rcBAD_ARG
    [] + 1 ∧ h.lanes = s.hub.lanes ∧ h.fuse = s.hub.fuse) ∧
  (∀ (ch : Fin 4) (mid : Byte) (tile : Nat) (s : State), ch ≠ 0 → Runs (.provision ch mid tile) s fun h => h.replies
    ch 0x0401 mid rcAUTH_FAIL [] = s.hub.replies ch 0x0401 mid rcAUTH_FAIL [] + 1 ∧ h.lanes = s.hub.lanes ∧ h.fuse =
    s.hub.fuse) ∧
  (∀ (ch : Fin 4) (mid : Byte) (k : BitVec 2) (s : State), secureCh ch → (s.hub.ldr.running && (s.hub.bKey (slotOf
    s.hub.slot)).val == k.toNat) = false → (s.hub.fuse.revoked ||| BitVec.twoPow 4 k.toNat) ≠ 0xF#4 → Runs (.revoke
    ch mid k) s fun h => h.fuse = { s.hub.fuse with revoked := (s.hub.fuse.revoked ||| BitVec.twoPow 4 k.toNat) } ∧
    h.replies ch 0x0402 mid rcOK [] = s.hub.replies ch 0x0402 mid rcOK [] + 1 ∧ h.lanes = s.hub.lanes) ∧
  (∀ (ch : Fin 4) (mid : Byte) (k : BitVec 2) (s : State), secureCh ch → ((s.hub.ldr.running && (s.hub.bKey (slotOf
    s.hub.slot)).val == k.toNat) ∨ (s.hub.fuse.revoked ||| BitVec.twoPow 4 k.toNat) = 0xF#4) → Runs (.revoke ch mid
    k) s fun h => h.replies ch 0x0402 mid rcBAD_STATE [] = s.hub.replies ch 0x0402 mid rcBAD_STATE [] + 1 ∧ h.lanes
    = s.hub.lanes ∧ h.fuse = s.hub.fuse) ∧
  (∀ (ch : Fin 4) (mid : Byte) (k : BitVec 2) (s : State), secureCh ch = false → Runs (.revoke ch mid k) s fun h =>
    h.replies ch 0x0402 mid rcAUTH_FAIL [] = s.hub.replies ch 0x0402 mid rcAUTH_FAIL [] + 1 ∧ h.lanes = s.hub.lanes
    ∧ h.fuse = s.hub.fuse) ∧
  (∀ (s : State), s.hub.ringBoot → s.hub.node ≠ 0 → (∀ t, s.hub.ldr.waitAt = some t → t + 400000000 ≤ s.hub.now) →
    Runs (.bootWait) s fun h => (h = (s.hub.modLdr fun l => { l with waitAt := some s.hub.now }).send
    { hdr := s.hub.mkHdr tMGMT 4 255 0 8, pay := wordsPay [0x30010000#32, 0x80010000#32] } 6)) ∧
  (∀ (s : State), (s.hub.ringBoot = false ∨ s.hub.node = 0 ∨ (s.hub.ldr.waitAt.any fun t => decide (s.hub.now < t +
    400000000))) → Runs (.bootWait) s fun h => h = s.hub)

/-- The endpoint answers 20 ms after a host reset, which stops every ring, flushes the Host port queues, clears the
  outbound queues of channels 0 and 2 and forgets completions (R387). BAR0 takes one aligned word as requester 9,
  BAR2 bytes of the host window; anything else gets an error response (R386). A whole descriptor sends its TUNNEL or
  PTP frame or hands its request to the bridge with requester 9, and its W7 is written OK; a malformed one sends
  nothing and gets UR; one without EOP waits for the rest; a ring that is not ready does nothing (R389, R390). A
  tunnel frame, or a completion, fills its descriptor and moves HEAD by one; a frame too long or bad is counted and
  dropped, or delivered truncated where DELIVER_BAD says so (R391, R393, R394). WAIT over, the frame or completion
  is dropped and counted (R392). -/
def Obligations.HostPortCommands : Prop :=
  (∀ (s : State), Runs (.hostReset) s fun h => (∀ i : Fin 8, h.bit (F.HST_TXR_CTL_EN i) = false ∧ h.bit
    (F.HST_RXR_CTL_EN i) = false) ∧ (∀ c : Fin 8, h.sw.q[qOf 4 c] = []) ∧ (∀ i : Fin 8, h.hst.cpl[i] = []) ∧
    h.hst.answers = false ∧ (h.mbx[(0 : Fin 4)]).outq = [] ∧ (h.mbx[(0 : Fin 4)]).inq = (s.hub.mbx[(0 : Fin 4)]).inq
    ∧ (h.mbx[(2 : Fin 4)]).outq = [] ∧ (h.mbx[(2 : Fin 4)]).inq = (s.hub.mbx[(2 : Fin 4)]).inq ∧ h.mbx[(1 : Fin 4)]
    = s.hub.mbx[(1 : Fin 4)] ∧ h.mbx[(3 : Fin 4)] = s.hub.mbx[(3 : Fin 4)] ∧ h.core = s.hub.core) ∧
  (∀ (s : State), s.hub.now < s.hub.hst.rstAt + 8000000 → Runs (.endpointReady) s fun h => h = s.hub) ∧
  (∀ (s : State), s.hub.hst.rstAt + 8000000 ≤ s.hub.now → Runs (.endpointReady) s fun h => h.hst.answers = true ∧
    h.pwr.peWake = false ∧ h =
    { s.hub with hst := { s.hub.hst with answers := true }, pwr := { s.hub.pwr with peWake := false } }) ∧
  (∀ (off : W32) (v : W32) (s : State), s.hub.hostRuns → off.toNat % 4 = 0 → off.toNat < 0x200000 → Runs
    (.bar0Access off 4 (some v)) s fun h => h = s.hub.regWrite (s.hub.hostAccess true) off.toNat v) ∧
  (∀ (off : W32) (s : State), s.hub.hostRuns → off.toNat % 4 = 0 → off.toNat < 0x200000 → Runs (.bar0Access off 4
    none) s fun h => ((s.hub.regRead (s.hub.hostAccess false) off.toNat).2.isSome = true → h = (s.hub.regRead
    (s.hub.hostAccess false) off.toNat).1.emit (.barRead off.toNat (leBytes ((s.hub.regRead (s.hub.hostAccess false)
    off.toNat).2.getD 0)))) ∧ ((s.hub.regRead (s.hub.hostAccess false) off.toNat).2 = none → h = (s.hub.regRead
    (s.hub.hostAccess false) off.toNat).1.emit (.barAbort off.toNat))) ∧
  (∀ (off : W32) (len : Nat) (s : State), s.hub.hostRuns → (len ≠ 4 ∨ off.toNat % 4 ≠ 0 ∨ 0x200000 ≤ off.toNat) →
    Runs (.bar0Access off len none) s fun h => h = (s.hub.refuse (s.hub.hostAccess false) off.toNat false).emit
    (.barAbort off.toNat)) ∧
  (∀ (off : W32) (len : Nat) (v : W32) (s : State), s.hub.hostRuns → (len ≠ 4 ∨ off.toNat % 4 ≠ 0 ∨ 0x200000 ≤
    off.toNat) → Runs (.bar0Access off len (some v)) s fun h => h = s.hub.refuse (s.hub.hostAccess true) off.toNat
    true) ∧
  (∀ (off : W32) (len : Nat) (wr : Option W32) (s : State), s.hub.hostRuns = false → Runs (.bar0Access off len wr) s
    fun h => h = s.hub) ∧
  (∀ (off : W32) (len : Nat) (d : List Byte) (s : State), s.hub.hostRuns → (0 < d.length ∧ d.length ≤ 4096) →
    off.toNat % 4096 + d.length ≤ 4096 → off.toNat + d.length ≤ s.hub.fld (F.TILE_PART_SIZE 2) * 256 → s.hub.banksOn
    (s.hub.fld (F.TILE_PART_BASE 2) * 256 + off.toNat) d.length → Runs (.bar2Access off len (some d)) s fun h => h =
    s.hub.imgWrite (s.hub.fld (F.TILE_PART_BASE 2) * 256 + off.toNat) d) ∧
  (∀ (off : W32) (len : Nat) (s : State), s.hub.hostRuns → (0 < len ∧ len ≤ 4096) → off.toNat % 4096 + len ≤ 4096 →
    off.toNat + len ≤ s.hub.fld (F.TILE_PART_SIZE 2) * 256 → s.hub.banksOn (s.hub.fld (F.TILE_PART_BASE 2) * 256 +
    off.toNat) len → Runs (.bar2Access off len none) s fun h => ((s.hub.verifyAll (tilesOf (s.hub.fld
    (F.TILE_PART_BASE 2) * 256 + off.toNat) len) 5).2 = true → h = (s.hub.verifyAll (tilesOf (s.hub.fld
    (F.TILE_PART_BASE 2) * 256 + off.toNat) len) 5).1.emit (.barRead off.toNat (bytesAt (s.hub.verifyAll (tilesOf
    (s.hub.fld (F.TILE_PART_BASE 2) * 256 + off.toNat) len) 5).1.tl.mem (s.hub.fld (F.TILE_PART_BASE 2) * 256 +
    off.toNat) len))) ∧ ((s.hub.verifyAll (tilesOf (s.hub.fld (F.TILE_PART_BASE 2) * 256 + off.toNat) len) 5).2 =
    false → h = (s.hub.verifyAll (tilesOf (s.hub.fld (F.TILE_PART_BASE 2) * 256 + off.toNat) len) 5).1.emit
    (.barPoison off.toNat))) ∧
  (∀ (off : W32) (len : Nat) (s : State), s.hub.hostRuns → s.hub.fld (F.TILE_PART_SIZE 2) * 256 < off.toNat + len →
    Runs (.bar2Access off len none) s fun h => h = (s.hub.raise 1 Block.hst.unit causeACCESS off.toNat 9).emit
    (.barAbort off.toNat)) ∧
  (∀ (i : Fin 8) (d : TxDesc) (s : State), s.hub.txReady i → txKind d = 0 → txLen d ≤ d.buf.length → (TxDesc.w d
    3).bit 27 → (TxDesc.w d 3).bit 26 → (14 ≤ txLen d ∧ txLen d ≤ 9212) → txDest d ≤ 7 → Runs (.txEth i d) s fun h
    => (h = (Hub.send ((s.hub.txNext i).modHst fun p => { p with tseq := p.tseq.set i ((p.tseq[i] + 1) % 65536) })
    { hdr := ((s.hub.txNext i).modHst fun p => { p with tseq := p.tseq.set i ((p.tseq[i] + 1) % 65536) }).mkHdr tTUNNEL 2 (((s.hub.txNext i).modHst fun p => { p with tseq := p.tseq.set i ((p.tseq[i] + 1) % 65536) }).resolve (txNode d)) (txMem d) (4 + txLen d), pay := beBytes (1#4 ++ 0#4 ++ BitVec.ofNat 8 (txDest d) ++ BitVec.ofNat 16 s.hub.hst.tseq[i]) ++ (d.buf.take (txLen d)) }
    4).txClose i stOK) ∧ h.out.take 2 = [.msix i.val, .txDone i stOK []]) ∧
  (∀ (i : Fin 8) (d : TxDesc) (s : State), s.hub.txReady i → txKind d = 0 → txLen d ≤ d.buf.length → (TxDesc.w d
    3).bit 27 → (TxDesc.w d 3).bit 26 → (0 < txLen d ∧ txLen d ≤ 9216) → (txLen d < 14 ∨ 9212 < txLen d ∨ 7 < txDest
    d) → Runs (.txEth i d) s fun h => h = (s.hub.txNext i).txClose i stUR ∧ h.fld (F.HST_TXR_HEAD_PTR i) =
    (s.hub.fld (F.HST_TXR_HEAD_PTR i) + 1) % (2 * ringSize (s.hub.fld (F.HST_TXR_CTL_LOG2N i))) ∧ h =
    { s.hub with fields := h.fields, hw := h.hw, hst := h.hst, out := h.out }) ∧
  (∀ (i : Fin 8) (d : TxDesc) (s : State), s.hub.txReady i → txKind d = 1 → txLen d ≤ d.buf.length → (TxDesc.w d
    3).bit 27 → (TxDesc.w d 3).bit 26 → (0 < txLen d ∧ txLen d ≤ 9216) → txDest d ≤ 3 → Runs (.txPtp i d) s fun h =>
    ((s.hub.txNext i).sendPtp d (d.buf.take (txLen d))).isSome ∧ (∀ k, (s.hub.txNext i).sendPtp d (d.buf.take (txLen
    d)) = some k → h = k.txClose i stOK) ∧ h.out.take 2 = [.msix i.val, .txDone i stOK []]) ∧
  (∀ (i : Fin 8) (d : TxDesc) (s : State), s.hub.txReady i → txKind d = 2 → txLen d ≤ d.buf.length → (TxDesc.w d
    3).bit 27 → (TxDesc.w d 3).bit 26 → (0 < txLen d ∧ txLen d ≤ 9216) → txDest d ≤ 7 → isWrite ((TxDesc.w d
    4).extractLsb' 0 4) = false → Runs (.txRequest i d) s fun h => h = ((s.hub.txNext i).hostIssue i d
    { op := ((TxDesc.w d 4).extractLsb' 0 4), addr := (TxDesc.w d 6).extractLsb' 0 16 ++ TxDesc.w d 5, len := (TxDesc.w d 4).bits 31 20 + 1, req := 9, snode := 0, smem := 0, tag := 0, again := false, posted := ((TxDesc.w d 3).bit 24 && ((TxDesc.w d 4).extractLsb' 0 4) == opWRITE), tc := txTc d, seq := 0, data := [] }
    none).txClose i stOK ∧ h.out.take 2 = [.msix i.val, .txDone i stOK []]) ∧
  (∀ (i : Fin 8) (d : TxDesc) (s : State), s.hub.txReady i → txKind d = 2 → txLen d ≤ d.buf.length → (TxDesc.w d
    3).bit 27 → (TxDesc.w d 3).bit 26 → (0 < txLen d ∧ txLen d ≤ 9216) → txDest d ≤ 7 → isWrite ((TxDesc.w d
    4).extractLsb' 0 4) → txLen d = (TxDesc.w d 4).bits 31 20 + 1 → Runs (.txRequest i d) s fun h => h =
    ((s.hub.txNext i).hostIssue i d
    { op := ((TxDesc.w d 4).extractLsb' 0 4), addr := (TxDesc.w d 6).extractLsb' 0 16 ++ TxDesc.w d 5, len := (TxDesc.w d 4).bits 31 20 + 1, req := 9, snode := 0, smem := 0, tag := 0, again := false, posted := ((TxDesc.w d 3).bit 24 && ((TxDesc.w d 4).extractLsb' 0 4) == opWRITE), tc := txTc d, seq := 0, data := (d.buf.take (txLen d)) }
    none).txClose i stOK ∧ h.out.take 2 = [.msix i.val, .txDone i stOK []]) ∧
  (∀ (i : Fin 8) (d : TxDesc) (s : State), s.hub.txReady i → txKind d = 3 → txLen d ≤ d.buf.length → (TxDesc.w d
    3).bit 27 → (TxDesc.w d 3).bit 26 → (8 ≤ txLen d ∧ txLen d ≤ 128) → txLen d % 8 = 0 → txDest d ≤ 7 → Runs
    (.txTimed i d) s fun h => h = ((s.hub.txNext i).hostIssue i d
    { op := opWRITE, addr := txNode d ++ txMem d ++ 0#38, len := txLen d, req := 9, snode := 0, smem := 0, tag := 0, again := false, posted := (TxDesc.w d 3).bit 24, tc := 4, seq := 0, data := (d.buf.take (txLen d)) }
    (some (TxDesc.w d 4 ++ TxDesc.w d 5))).txClose i stOK ∧ h.out.take 2 = [.msix i.val, .txDone i stOK []]) ∧
  (∀ (i : Fin 8) (d : TxDesc) (s : State), s.hub.txReady i → txKind d = 0 → txLen d ≤ d.buf.length → (txLen d = 0 ∨
    9216 < txLen d ∨ ((TxDesc.w d 3).bit 27 = false ∧ s.hub.hst.open_[i] = false)) → Runs (.txEth i d) s fun h => h
    = (s.hub.txNext i).txClose i stUR ∧ h.out = .msix i.val :: .txDone i stUR [] :: s.hub.out ∧ h =
    { s.hub with fields := h.fields, hw := h.hw, hst := h.hst, out := h.out }) ∧
  (∀ (i : Fin 8) (d : TxDesc) (s : State), s.hub.txReady i = false → Runs (.txEth i d) s fun h => h = s.hub) ∧
  (∀ (i : Fin 8) (d : TxDesc) (s : State), s.hub.txReady i → txKind d = 0 → txLen d ≤ d.buf.length → (0 < txLen d ∧
    txLen d ≤ 9216) → (TxDesc.w d 3).bit 27 → (TxDesc.w d 3).bit 26 = false → Runs (.txEth i d) s fun h =>
    h.hst.part[i] = (d.buf.take (txLen d)) ∧ h.hst.open_[i] = true ∧ h.out = s.hub.out ∧ h =
    { s.hub with fields := h.fields, hw := h.hw, hst := h.hst } ∧ SameRegs s.hub h [F.HST_TXR_HEAD_PTR i]) ∧
  (∀ (i : Fin 8) (d : TxDesc) (s : State), s.hub.txReady i → txKind d = 1 → txLen d ≤ d.buf.length → (txLen d = 0 ∨
    9216 < txLen d ∨ ((TxDesc.w d 3).bit 27 = false ∧ s.hub.hst.open_[i] = false)) → Runs (.txPtp i d) s fun h => h
    = (s.hub.txNext i).txClose i stUR ∧ h.out = .msix i.val :: .txDone i stUR [] :: s.hub.out ∧ h =
    { s.hub with fields := h.fields, hw := h.hw, hst := h.hst, out := h.out }) ∧
  (∀ (i : Fin 8) (d : TxDesc) (s : State), s.hub.txReady i = false → Runs (.txPtp i d) s fun h => h = s.hub) ∧
  (∀ (i : Fin 8) (d : TxDesc) (s : State), s.hub.txReady i → txKind d = 1 → txLen d ≤ d.buf.length → (0 < txLen d ∧
    txLen d ≤ 9216) → (TxDesc.w d 3).bit 27 → (TxDesc.w d 3).bit 26 = false → Runs (.txPtp i d) s fun h =>
    h.hst.part[i] = (d.buf.take (txLen d)) ∧ h.hst.open_[i] = true ∧ h.out = s.hub.out ∧ h =
    { s.hub with fields := h.fields, hw := h.hw, hst := h.hst } ∧ SameRegs s.hub h [F.HST_TXR_HEAD_PTR i]) ∧
  (∀ (i : Fin 8) (d : TxDesc) (s : State), s.hub.txReady i → txKind d = 2 → txLen d ≤ d.buf.length → (txLen d = 0 ∨
    9216 < txLen d ∨ ((TxDesc.w d 3).bit 27 = false ∧ s.hub.hst.open_[i] = false)) → Runs (.txRequest i d) s fun h
    => h = (s.hub.txNext i).txClose i stUR ∧ h.out = .msix i.val :: .txDone i stUR [] :: s.hub.out ∧ h =
    { s.hub with fields := h.fields, hw := h.hw, hst := h.hst, out := h.out }) ∧
  (∀ (i : Fin 8) (d : TxDesc) (s : State), s.hub.txReady i = false → Runs (.txRequest i d) s fun h => h = s.hub) ∧
  (∀ (i : Fin 8) (d : TxDesc) (s : State), s.hub.txReady i → txKind d = 2 → txLen d ≤ d.buf.length → (0 < txLen d ∧
    txLen d ≤ 9216) → (TxDesc.w d 3).bit 27 → (TxDesc.w d 3).bit 26 = false → Runs (.txRequest i d) s fun h =>
    h.hst.part[i] = (d.buf.take (txLen d)) ∧ h.hst.open_[i] = true ∧ h.out = s.hub.out ∧ h =
    { s.hub with fields := h.fields, hw := h.hw, hst := h.hst } ∧ SameRegs s.hub h [F.HST_TXR_HEAD_PTR i]) ∧
  (∀ (i : Fin 8) (d : TxDesc) (s : State), s.hub.txReady i → txKind d = 3 → txLen d ≤ d.buf.length → (txLen d = 0 ∨
    9216 < txLen d ∨ ((TxDesc.w d 3).bit 27 = false ∧ s.hub.hst.open_[i] = false)) → Runs (.txTimed i d) s fun h =>
    h = (s.hub.txNext i).txClose i stUR ∧ h.out = .msix i.val :: .txDone i stUR [] :: s.hub.out ∧ h =
    { s.hub with fields := h.fields, hw := h.hw, hst := h.hst, out := h.out }) ∧
  (∀ (i : Fin 8) (d : TxDesc) (s : State), s.hub.txReady i = false → Runs (.txTimed i d) s fun h => h = s.hub) ∧
  (∀ (i : Fin 8) (d : TxDesc) (s : State), s.hub.txReady i → txKind d = 3 → txLen d ≤ d.buf.length → (0 < txLen d ∧
    txLen d ≤ 9216) → (TxDesc.w d 3).bit 27 → (TxDesc.w d 3).bit 26 = false → Runs (.txTimed i d) s fun h =>
    h.hst.part[i] = (d.buf.take (txLen d)) ∧ h.hst.open_[i] = true ∧ h.out = s.hub.out ∧ h =
    { s.hub with fields := h.fields, hw := h.hw, hst := h.hst } ∧ SameRegs s.hub h [F.HST_TXR_HEAD_PTR i]) ∧
  (∀ (i : Fin 8) (d : TxDesc) (s : State), s.hub.txReady i → txKind d = 1 → txLen d ≤ d.buf.length → (TxDesc.w d
    3).bit 27 → (TxDesc.w d 3).bit 26 → 3 < txDest d → Runs (.txPtp i d) s fun h => h = (s.hub.txNext i).txClose i
    stUR) ∧
  (∀ (i : Fin 8) (d : TxDesc) (s : State), s.hub.txReady i → txKind d = 2 → txLen d ≤ d.buf.length → (TxDesc.w d
    3).bit 27 → (TxDesc.w d 3).bit 26 → 7 < txDest d → Runs (.txRequest i d) s fun h => h = (s.hub.txNext i).txClose
    i stUR) ∧
  (∀ (i : Fin 8) (d : TxDesc) (s : State), s.hub.txReady i → txKind d = 3 → txLen d ≤ d.buf.length → (TxDesc.w d
    3).bit 27 → (TxDesc.w d 3).bit 26 → 7 < txDest d → Runs (.txTimed i d) s fun h => h = (s.hub.txNext i).txClose i
    stUR) ∧
  (∀ (i : Fin 8) (f : Frame) (n : Nat) (r : List Nat) (s : State), s.hub.hostRuns → s.hub.bit (F.HST_RXR_CTL_EN i) →
    0 < s.hub.rxFree i → s.hub.hostHeads = [] → f.hdr.typ = tTUNNEL → (f.word 0).bits 23 16 = i.val → (f.pay.drop
    4).length ≤ n → Runs (.rxDeliver i f true (n :: r)) s fun h => h.out = .msix (8 + i.val) :: .rxDesc i [rxW3 true
    true false false 0 f.hdr.snode f.hdr.smem (f.pay.drop 4).length, f.word 0, 0, 0] (f.pay.drop 4) :: s.hub.out ∧
    h.fld (F.HST_RXR_HEAD_PTR i) = (s.hub.fld (F.HST_RXR_HEAD_PTR i) + 1) % (2 * ringSize (s.hub.fld
    (F.HST_RXR_CTL_LOG2N i))) ∧ h = { s.hub with fields := h.fields, hw := h.hw, out := h.out } ∧ SameRegs s.hub h
    [F.HST_RXR_HEAD_PTR i]) ∧
  (∀ (i : Fin 8) (f : Frame) (n : Nat) (r : List Nat) (s : State), s.hub.hostRuns → s.hub.bit (F.HST_RXR_CTL_EN i) →
    0 < s.hub.rxFree i → s.hub.hostHeads = [] → f.hdr.typ = tTUNNEL → (f.word 0).bits 23 16 = i.val → (f.pay.drop
    4).length ≤ n → s.hub.bit (F.HST_RXR_CTL_DELIVER_BAD i) = false → Runs (.rxDeliver i f false (n :: r)) s fun h
    => h = s.hub.count F.HST_RXBAD) ∧
  (∀ (i : Fin 8) (f : Frame) (n : Nat) (r : List Nat) (s : State), s.hub.hostRuns → s.hub.bit (F.HST_RXR_CTL_EN i) →
    0 < s.hub.rxFree i → s.hub.hostHeads = [] → f.hdr.typ = tTUNNEL → (f.word 0).bits 23 16 = i.val → r = [] → n <
    (f.pay.drop 4).length → s.hub.bit (F.HST_RXR_CTL_DELIVER_BAD i) = false → Runs (.rxDeliver i f true [n]) s fun h
    => h = s.hub.count F.HST_RXDROP) ∧
  (∀ (i : Fin 8) (f : Frame) (n : Nat) (r : List Nat) (s : State), s.hub.hostRuns → s.hub.bit (F.HST_RXR_CTL_EN i) →
    0 < s.hub.rxFree i → s.hub.hostHeads = [] → f.hdr.typ = tTUNNEL → (f.word 0).bits 23 16 = i.val → r = [] → n <
    (f.pay.drop 4).length → s.hub.bit (F.HST_RXR_CTL_DELIVER_BAD i) → Runs (.rxDeliver i f true [n]) s fun h => h =
    (((s.hub.emit (.rxDesc i [rxW3 true true true false 0 f.hdr.snode f.hdr.smem n, f.word 0, 0, 0] ((f.pay.drop
    4).take n))).rxNext i 1).emit (.msix (8 + i.val))).count F.HST_RXTRUNC) ∧
  (∀ (i : Fin 8) (f : Frame) (n : Nat) (r : List Nat) (c : HostCpl) (q : List HostCpl) (s : State), s.hub.hostRuns →
    s.hub.bit (F.HST_RXR_CTL_EN i) → 0 < s.hub.rxFree i → f.hdr.typ = tCPL → s.hub.hst.cpl[i] = c :: q →
    c.data.length ≤ n → Runs (.rxDeliver i f true (n :: r)) s fun h => h.out = .msix (8 + i.val) :: .rxDesc i [rxW3
    true true false false 2 c.node c.mem c.data.length, c.word, BitVec.ofNat 32 (c.cookie % 65536), 0] c.data ::
    s.hub.out ∧ h.fld (F.HST_RXR_HEAD_PTR i) = (s.hub.fld (F.HST_RXR_HEAD_PTR i) + 1) % (2 * ringSize (s.hub.fld
    (F.HST_RXR_CTL_LOG2N i))) ∧ h.hst.cpl[i] = q ∧ h =
    { s.hub with fields := h.fields, hw := h.hw, hst := h.hst, out := h.out } ∧ SameRegs s.hub h [F.HST_RXR_HEAD_PTR
    i]) ∧
  (∀ (i : Fin 8) (f : Frame) (n : Nat) (r : List Nat) (s : State), (s.hub.hostRuns = false ∨ s.hub.bit
    (F.HST_RXR_CTL_EN i) = false ∨ s.hub.rxFree i = 0) → Runs (.rxDeliver i f true (n :: r)) s fun h => h = s.hub) ∧
  (∀ (i : Fin 8) (t : Nat) (x : Fin 56 × QFrame) (s : State), (s.hub.rxFree i = 0 ∨ s.hub.bit (F.HST_RXR_CTL_EN i) =
    false) → s.hub.hst.waitAt[i] = some t → t + us (s.hub.fld F.HST_RXCFG_WAIT) ≤ s.hub.now →
    ((s.hub.hostHeads.find? fun x => ringOf (s.hub.frameOf x.2) i == i.val) = some x) → Runs (.rxWaitExpire i) s fun
    h => (h = ((s.hub.modHst fun p => { p with waitAt := p.waitAt.set i none }).dequeue x.1 x.2).count
    F.HST_RXNODESC) ∧ h.hst.cpl = s.hub.hst.cpl) ∧
  (∀ (i : Fin 8) (t : Nat) (c : HostCpl) (q : List HostCpl) (s : State), (s.hub.rxFree i = 0 ∨ s.hub.bit
    (F.HST_RXR_CTL_EN i) = false) → s.hub.hst.waitAt[i] = some t → t + us (s.hub.fld F.HST_RXCFG_WAIT) ≤ s.hub.now →
    s.hub.hostHeads = [] → s.hub.hst.cpl[i] = c :: q → Runs (.rxWaitExpire i) s fun h => h.hst.cpl[i] = q ∧ (h =
    (s.hub.modHst fun p => { p with waitAt := p.waitAt.set i none, cpl := p.cpl.set i q }).count F.HST_RXNODESC)) ∧
  (∀ (i : Fin 8) (s : State), ((s.hub.hst.waitAt[i].any fun t => decide (t + us (s.hub.fld F.HST_RXCFG_WAIT) ≤
    s.hub.now)) = false) → Runs (.rxWaitExpire i) s fun h => h = s.hub) ∧
  (∀ (i : Fin 8) (s : State), s.hub.bit (F.HST_RXR_CTL_EN i) → 0 < s.hub.rxFree i → Runs (.rxWaitExpire i) s fun h
    => h = s.hub)

/-- A request for the state a domain has completes DONE; one for RET or OFF starts phase 1 unless a child stands in
  the way (CHILD), one for ON starts the exit unless the parent is not ON (PARENT); a target that is not allowed is
  refused (R409-R412). Before the commit point a new target replaces the old one, and ON unwinds with SUPERSEDED;
  later it is held pending (R414, R415). Each step, once its time has passed, moves through the blocks and phases, a
  refusal or time-out ends REFUSED with its reason, and the last step reaches the state (R411-R413). A CAN wake
  raises an ON request (R416). Standby ends at once with a wake latched, else requests domain 25 OFF first (R418).
  An enabled source latches in PLT_WSRC, the first in PLT_WFIRST (R419); Flare needs activity at two looks (R262);
  the timer latches source 14 (R419, R420). VAON's rise clears the Pilot and sets VAON_POR, its loss clears them
  (R421, R441). -/
def Obligations.PowerDomains : Prop :=
  (∀ (a : Access) (d : Fin 26) (t : BitVec 2) (s : State), s.hub.lets a (0x10000 + 4 * d.val) → s.hub.pwr.stby =
    none → t ≠ 3 → (t = 1 → domRet d = true) → (t ≠ 0 → d.val ≠ 0 ∧ d.val ≠ 17) → (d.val = 1 → a.isIn [0, 13]) →
    s.hub.dph d = 0 → t.toNat = s.hub.dst d → Runs (.powerRequest a d t) s fun h => h.fld (F.PWR_STATE_RESULT d) = 1
    ∧ h.fld (F.PWR_REQ_TARGET d) = t.toNat ∧ h.fld (F.PWR_STATE_STATE d) = s.hub.fld (F.PWR_STATE_STATE d) ∧ h.fld
    (F.PWR_STATE_PHASE d) = 0 ∧ h.bit F.PWR_FLAG_DONE = true ∧ h =
    { s.hub with fields := h.fields, hw := h.hw, pwr := h.pwr, out := h.out }) ∧
  (∀ (a : Access) (d : Fin 26) (t : BitVec 2) (s : State), s.hub.lets a (0x10000 + 4 * d.val) → s.hub.pwr.stby =
    none → t ≠ 3 → (t = 1 → domRet d = true) → (t ≠ 0 → d.val ≠ 0 ∧ d.val ≠ 17) → (d.val = 1 → a.isIn [0, 13]) →
    s.hub.dph d = 0 → s.hub.dst d = 0 → t ≠ 0 → s.hub.domChild d t.toNat = none → Runs (.powerRequest a d t) s fun h
    => h.fld (F.PWR_STATE_PHASE d) = 1 ∧ h.fld (F.PWR_STATE_TARGET d) = t.toNat ∧ h.fld (F.PWR_REQ_TARGET d) =
    t.toNat ∧ h = { s.hub with fields := h.fields, hw := h.hw, pwr := h.pwr } ∧ SameRegs s.hub h [F.PWR_STATE_PHASE
    d, F.PWR_STATE_TARGET d, F.PWR_REQ_TARGET d]) ∧
  (∀ (a : Access) (d : Fin 26) (t : BitVec 2) (e : Fin 26) (s : State), s.hub.lets a (0x10000 + 4 * d.val) →
    s.hub.pwr.stby = none → t ≠ 3 → (t = 1 → domRet d = true) → (t ≠ 0 → d.val ≠ 0 ∧ d.val ≠ 17) → (d.val = 1 →
    a.isIn [0, 13]) → s.hub.dph d = 0 → s.hub.dst d = 0 → t ≠ 0 → s.hub.domChild d t.toNat = some e → Runs
    (.powerRequest a d t) s fun h => h.fld (F.PWR_STATE_RESULT d) = 2 ∧ h.fld (F.PWR_STATE_PHASE d) = 0 ∧ h.fld
    (F.PWR_STATE_STATE d) = 0 ∧ h.fld F.PWR_REFUSE_REASON = rsCHILD ∧ h.fld F.PWR_REFUSE_UNIT = (s.hub.unit (domUnit
    e 0)).toNat ∧ h.bit F.PWR_FLAG_REFUSED = true ∧ h =
    { s.hub with fields := h.fields, hw := h.hw, pwr := h.pwr, out := h.out }) ∧
  (∀ (a : Access) (d : Fin 26) (t : BitVec 2) (s : State), s.hub.lets a (0x10000 + 4 * d.val) → s.hub.pwr.stby =
    none → t ≠ 3 → (t = 1 → domRet d = true) → (t ≠ 0 → d.val ≠ 0 ∧ d.val ≠ 17) → (d.val = 1 → a.isIn [0, 13]) →
    s.hub.dph d = 0 → s.hub.dst d ≠ 0 → t = 0 → ((domParent d).all fun p => s.hub.dst p == 0) → Runs (.powerRequest
    a d t) s fun h => h.fld (F.PWR_STATE_PHASE d) = 5 ∧ h.fld (F.PWR_STATE_TARGET d) = 0 ∧ (h.pwr.dom[d]).exit = 1 ∧
    h = { s.hub with fields := h.fields, hw := h.hw, pwr := h.pwr } ∧ SameRegs s.hub h [F.PWR_STATE_PHASE d,
    F.PWR_STATE_TARGET d, F.PWR_REQ_TARGET d]) ∧
  (∀ (a : Access) (d : Fin 26) (t : BitVec 2) (p : Fin 26) (s : State), s.hub.lets a (0x10000 + 4 * d.val) →
    s.hub.pwr.stby = none → t ≠ 3 → (t = 1 → domRet d = true) → (t ≠ 0 → d.val ≠ 0 ∧ d.val ≠ 17) → (d.val = 1 →
    a.isIn [0, 13]) → s.hub.dph d = 0 → s.hub.dst d ≠ 0 → t = 0 → domParent d = some p → s.hub.dst p ≠ 0 → Runs
    (.powerRequest a d t) s fun h => h.fld (F.PWR_STATE_RESULT d) = 2 ∧ h.fld F.PWR_REFUSE_REASON = rsPARENT ∧ h.fld
    F.PWR_REFUSE_UNIT = (s.hub.unit (domUnit p 0)).toNat ∧ h.bit F.PWR_FLAG_REFUSED = true ∧ h =
    { s.hub with fields := h.fields, hw := h.hw, pwr := h.pwr, out := h.out }) ∧
  (∀ (a : Access) (d : Fin 26) (t : BitVec 2) (s : State), s.hub.lets a (0x10000 + 4 * d.val) → s.hub.pwr.stby =
    none → t ≠ 3 → (t = 1 → domRet d = true) → (t ≠ 0 → d.val ≠ 0 ∧ d.val ≠ 17) → (d.val = 1 → a.isIn [0, 13]) →
    s.hub.dph d = 1 → t = 0 → Runs (.powerRequest a d t) s fun h => h.fld (F.PWR_STATE_RESULT d) = 3 ∧ h.fld
    (F.PWR_STATE_PHASE d) = 0 ∧ h.fld (F.PWR_STATE_STATE d) = s.hub.fld (F.PWR_STATE_STATE d) ∧ h.bit
    F.PWR_FLAG_SUPERSEDED = true ∧ h =
    { s.hub with fields := h.fields, hw := h.hw, pwr := h.pwr, out := h.out, lanes := h.lanes }) ∧
  (∀ (a : Access) (d : Fin 26) (t : BitVec 2) (s : State), s.hub.lets a (0x10000 + 4 * d.val) → s.hub.pwr.stby =
    none → t ≠ 3 → (t = 1 → domRet d = true) → (t ≠ 0 → d.val ≠ 0 ∧ d.val ≠ 17) → (d.val = 1 → a.isIn [0, 13]) →
    (s.hub.dph d = 2 ∨ s.hub.dph d = 3) → t = 0 → Runs (.powerRequest a d t) s fun h => h.fld (F.PWR_STATE_TARGET d)
    = 0 ∧ h.fld (F.PWR_STATE_PHASE d) = s.hub.fld (F.PWR_STATE_PHASE d) ∧ (h.pwr.dom[d]).back = true ∧ h.bit
    F.PWR_FLAG_SUPERSEDED = true ∧ h = { s.hub with fields := h.fields, hw := h.hw, pwr := h.pwr, out := h.out }) ∧
  (∀ (a : Access) (d : Fin 26) (t : BitVec 2) (s : State), s.hub.lets a (0x10000 + 4 * d.val) → s.hub.pwr.stby =
    none → t ≠ 3 → (t = 1 → domRet d = true) → (t ≠ 0 → d.val ≠ 0 ∧ d.val ≠ 17) → (d.val = 1 → a.isIn [0, 13]) → (1
    ≤ s.hub.dph d ∧ s.hub.dph d ≤ 3) → t ≠ 0 → Runs (.powerRequest a d t) s fun h => h.fld (F.PWR_STATE_TARGET d) =
    t.toNat ∧ h.fld (F.PWR_STATE_PHASE d) = s.hub.fld (F.PWR_STATE_PHASE d) ∧ (h.pwr.dom[d]).back = false ∧
    (h.pwr.dom[d]).agreed = (s.hub.pwr.dom[d]).agreed ∧ h.bit F.PWR_FLAG_SUPERSEDED = true ∧ h =
    { s.hub with fields := h.fields, hw := h.hw, pwr := h.pwr, out := h.out }) ∧
  (∀ (a : Access) (d : Fin 26) (t : BitVec 2) (s : State), s.hub.lets a (0x10000 + 4 * d.val) → s.hub.pwr.stby =
    none → t ≠ 3 → (t = 1 → domRet d = true) → (t ≠ 0 → d.val ≠ 0 ∧ d.val ≠ 17) → (d.val = 1 → a.isIn [0, 13]) → 4 ≤
    s.hub.dph d → Runs (.powerRequest a d t) s fun h => h.bit (F.PWR_STATE_PEND d) = true ∧ h.fld
    (F.PWR_STATE_PTARGET d) = t.toNat ∧ h.fld (F.PWR_STATE_PHASE d) = s.hub.fld (F.PWR_STATE_PHASE d) ∧ (s.hub.bit
    (F.PWR_STATE_PEND d) = true → h.bit F.PWR_FLAG_SUPERSEDED = true) ∧ h =
    { s.hub with fields := h.fields, hw := h.hw, pwr := h.pwr, out := h.out }) ∧
  (∀ (a : Access) (d : Fin 26) (t : BitVec 2) (s : State), s.hub.lets a (0x10000 + 4 * d.val) → (t = 3 ∨ (t = 1 ∧
    domRet d = false) ∨ (t ≠ 0 ∧ (d.val = 0 ∨ d.val = 17)) ∨ (d.val = 1 ∧ a.isIn [0, 13] = false)) → Runs
    (.powerRequest a d t) s fun h => h = s.hub.refuse a (0x10000 + 4 * d.val) true) ∧
  (∀ (d : Fin 26) (s : State), s.hub.pwr.stby = none → s.hub.dph d = 1 → s.hub.quiesce d (s.hub.pwr.dom[d]).agreed
    (s.hub.fld (F.PWR_STATE_TARGET d)) = .wait → (s.hub.pwr.dom[d]).at_ + us (max 1 (s.hub.pwr.dom[d]).qt) ≤
    s.hub.now → Runs (.quiesceTimeout d) s fun h => h.fld (F.PWR_STATE_RESULT d) = 2 ∧ h.fld (F.PWR_STATE_PHASE d) =
    0 ∧ h.fld (F.PWR_STATE_STATE d) = s.hub.fld (F.PWR_STATE_STATE d) ∧ h.fld F.PWR_REFUSE_REASON = rsTIMEOUT % 16 ∧
    h.fld F.PWR_REFUSE_UNIT = (s.hub.unit (domUnit d (s.hub.pwr.dom[d]).agreed)).toNat ∧ h.bit F.PWR_FLAG_REFUSED =
    true ∧ h = { s.hub with fields := h.fields, hw := h.hw, pwr := h.pwr, out := h.out, lanes := h.lanes }) ∧
  (∀ (d : Fin 26) (s : State), (s.hub.dph d ≠ 1 ∨ s.hub.now < (s.hub.pwr.dom[d]).at_ + us (max 1
    (s.hub.pwr.dom[d]).qt)) → Runs (.quiesceTimeout d) s fun h => h = s.hub) ∧
  (∀ (d : Fin 26) (s : State), s.hub.pwr.stby = none → (s.hub.domDue d = false ∨ (s.hub.dph d = 1 ∧ s.hub.quiesce d
    (s.hub.pwr.dom[d]).agreed (s.hub.fld (F.PWR_STATE_TARGET d)) = .wait)) → Runs (.powerStepDone d) s fun h => h =
    s.hub) ∧
  (∀ (d : Fin 26) (r : Nat) (s : State), s.hub.pwr.stby = none → s.hub.domDue d → s.hub.dph d = 1 → s.hub.quiesce d
    (s.hub.pwr.dom[d]).agreed (s.hub.fld (F.PWR_STATE_TARGET d)) = .refuse r → Runs (.powerStepDone d) s fun h =>
    h.fld (F.PWR_STATE_RESULT d) = 2 ∧ h.fld (F.PWR_STATE_PHASE d) = 0 ∧ h.fld (F.PWR_STATE_STATE d) = s.hub.fld
    (F.PWR_STATE_STATE d) ∧ h.fld F.PWR_REFUSE_REASON = r % 16 ∧ h.fld F.PWR_REFUSE_UNIT = (s.hub.unit (domUnit d
    (s.hub.pwr.dom[d]).agreed)).toNat ∧ h.bit F.PWR_FLAG_REFUSED = true ∧ h =
    { s.hub with fields := h.fields, hw := h.hw, pwr := h.pwr, out := h.out, lanes := h.lanes }) ∧
  (∀ (d : Fin 26) (s : State), s.hub.pwr.stby = none → s.hub.domDue d → s.hub.dph d = 1 → s.hub.quiesce d
    (s.hub.pwr.dom[d]).agreed (s.hub.fld (F.PWR_STATE_TARGET d)) = .agree → (s.hub.pwr.dom[d]).agreed + 1 <
    (domUnits d).length → Runs (.powerStepDone d) s fun h => (h.pwr.dom[d]).agreed = (s.hub.pwr.dom[d]).agreed + 1 ∧
    h.fld (F.PWR_STATE_PHASE d) = 1 ∧ (∀ c : Fin 8, d = clusterDom c → ∀ i : Fin 8, i.val =
    (s.hub.pwr.dom[d]).agreed → (h.lane ⟨8 * c.val + i.val, by omega⟩).keep = true) ∧ h =
    { s.hub with pwr := h.pwr, lanes := h.lanes }) ∧
  (∀ (d : Fin 26) (s : State), s.hub.pwr.stby = none → s.hub.domDue d → s.hub.dph d = 1 → s.hub.quiesce d
    (s.hub.pwr.dom[d]).agreed (s.hub.fld (F.PWR_STATE_TARGET d)) = .agree → (s.hub.pwr.dom[d]).agreed + 1 =
    (domUnits d).length → (s.hub.pwr.dom[d]).back = false → (s.hub.pwr.dom[d]).recheck = false → s.hub.domChild d
    (s.hub.fld (F.PWR_STATE_TARGET d)) = none → Runs (.powerStepDone d) s fun h => h.fld (F.PWR_STATE_PHASE d) = 2 ∧
    h = { s.hub with fields := h.fields, hw := h.hw, pwr := h.pwr, lanes := h.lanes } ∧ SameRegs s.hub h
    [F.PWR_STATE_PHASE d]) ∧
  (∀ (d : Fin 26) (s : State), s.hub.pwr.stby = none → s.hub.domDue d → s.hub.dph d = 2 → (s.hub.pwr.dom[d]).back =
    false → (s.hub.pwr.dom[d]).recheck = false → s.hub.domChild d (s.hub.fld (F.PWR_STATE_TARGET d)) = none → Runs
    (.powerStepDone d) s fun h => h.fld (F.PWR_STATE_PHASE d) = 3 ∧ h =
    { s.hub with fields := h.fields, hw := h.hw, pwr := h.pwr } ∧ SameRegs s.hub h [F.PWR_STATE_PHASE d]) ∧
  (∀ (d : Fin 26) (s : State), s.hub.pwr.stby = none → s.hub.domDue d → s.hub.dph d = 3 → (s.hub.pwr.dom[d]).back =
    false → (s.hub.pwr.dom[d]).recheck = false → s.hub.domChild d (s.hub.fld (F.PWR_STATE_TARGET d)) = none → Runs
    (.powerStepDone d) s fun h => h.fld (F.PWR_STATE_PHASE d) = 4 ∧ h =
    { s.hub with fields := h.fields, hw := h.hw, pwr := h.pwr } ∧ SameRegs s.hub h [F.PWR_STATE_PHASE d]) ∧
  (∀ (d : Fin 26) (s : State), s.hub.pwr.stby = none → s.hub.domDue d → (s.hub.dph d = 2 ∨ s.hub.dph d = 3) →
    (s.hub.pwr.dom[d]).back → Runs (.powerStepDone d) s fun h => h.fld (F.PWR_STATE_RESULT d) = 3 ∧ h.fld
    (F.PWR_STATE_PHASE d) = 0 ∧ h.fld (F.PWR_STATE_STATE d) = s.hub.fld (F.PWR_STATE_STATE d) ∧ h =
    { s.hub with fields := h.fields, hw := h.hw, pwr := h.pwr, lanes := h.lanes }) ∧
  (∀ (d : Fin 26) (s : State), s.hub.pwr.stby = none → s.hub.domDue d → s.hub.dph d = 5 → Runs (.powerStepDone d) s
    fun h => ((h.pwr.dom[d]).exit = if (s.hub.pwr.dom[d]).exit = 1 ∧ ¬(4 ≤ d.val ∧ d.val ≤ 7 ∧ s.hub.dst d = 2) then
    3 else min 5 ((s.hub.pwr.dom[d]).exit + 1)) ∧ h = { s.hub with pwr := h.pwr }) ∧
  (∀ (d : Fin 26) (s : State), s.hub.pwr.stby = none → (s.hub.dph d = 0 ∨ s.hub.dph d = 4) → Runs (.powerStepDone d)
    s fun h => h = s.hub) ∧
  (∀ (d : Fin 26) (s : State), s.hub.pwr.stby = none → s.hub.domDue d = false → Runs (.powerStateReached d) s fun h
    => h = s.hub) ∧
  (∀ (d : Fin 26) (s : State), s.hub.pwr.stby = none → s.hub.domDue d → s.hub.dph d = 4 → s.hub.bit
    (F.PWR_STATE_PEND d) = false → Runs (.powerStateReached d) s fun h => h.fld (F.PWR_STATE_STATE d) = s.hub.fld
    (F.PWR_STATE_TARGET d) ∧ h.fld (F.PWR_STATE_RESULT d) = 1 ∧ h.fld (F.PWR_STATE_PHASE d) = 0 ∧ h.bit
    F.PWR_FLAG_DONE = true ∧ h.bel = s.hub.bel ∧ h.fuse = s.hub.fuse) ∧
  (∀ (d : Fin 26) (s : State), s.hub.pwr.stby = none → s.hub.domDue d → s.hub.dph d = 5 → (s.hub.pwr.dom[d]).exit =
    5 → s.hub.bit (F.PWR_STATE_PEND d) = false → Runs (.powerStateReached d) s fun h => h.fld (F.PWR_STATE_STATE d)
    = 0 ∧ h.fld (F.PWR_STATE_RESULT d) = 1 ∧ h.fld (F.PWR_STATE_PHASE d) = 0 ∧ h.bit F.PWR_FLAG_DONE = true ∧ h.fuse
    = s.hub.fuse) ∧
  (∀ (d : Fin 26) (s : State), s.hub.pwr.stby = none → s.hub.dph d ≤ 3 → Runs (.powerStateReached d) s fun h => h =
    s.hub) ∧
  (∀ (c : Fin 8) (i : Fin 2) (s : State), s.hub.pwr.stby = none → (s.hub.fld (F.PWR_WAKEMASK_CAN c)).testBit i →
    s.hub.bit (F.CAN_FLAG_WAKE (2 * c.val + i.val)) → Runs (.powerWake (clusterDom c)) s fun h => h = (s.hub.pwrFlag
    F.PWR_FLAG_WAKE).domAsk (clusterDom c) 0 ∧ h.bit F.PWR_FLAG_WAKE = true) ∧
  (∀ (d : Fin 26) (s : State), (d.val < 18 ∨ ∀ c : Fin 8, s.hub.fld (F.PWR_WAKEMASK_CAN c) = 0 ∧ s.hub.fld
    (F.PWR_WAKEMASK_LANEWK c) = 0) → Runs (.powerWake d) s fun h => h = s.hub) ∧
  (∀ (a : Access) (s : State), s.hub.lets a 0x10118 → s.hub.pwr.stby = none → s.hub.pwr.asleep = none → s.hub.wakes
    ≠ 0 → Runs (.standby a) s fun h => h.fld F.PWR_REFUSE_REASON = rsWAKE_PENDING ∧ h.bit F.PWR_FLAG_STBY_ABORT =
    true ∧ h = { s.hub with fields := h.fields, hw := h.hw, out := h.out }) ∧
  (∀ (a : Access) (s : State), s.hub.lets a 0x10118 → s.hub.pwr.stby = none → s.hub.pwr.asleep = none → s.hub.wakes
    = 0 → s.hub.dph 25 = 0 → s.hub.dst 25 = 0 → Runs (.standby a) s fun h => h.bit F.PWR_STBY_GO = true ∧ h.fld
    (F.PWR_STATE_PHASE 25) = 1 ∧ h.fld (F.PWR_STATE_TARGET 25) = 2 ∧ h.pwr.stby.isSome = true ∧ h =
    { s.hub with fields := h.fields, hw := h.hw, pwr := h.pwr } ∧ SameRegs s.hub h [F.PWR_STBY_GO, F.PWR_STATE_PHASE
    25, F.PWR_STATE_TARGET 25]) ∧
  (∀ (n : Nat) (s : State), s.hub.pwr.asleep = some n → n + us (max 1 (s.hub.fld F.PLT_CFG_MINOFF) * 1000) ≤
    s.hub.now → s.hub.wakes = 0 → Runs (.standbyMinoffEnd) s fun h => h.pwr.minoff = true ∧ h =
    { s.hub with pwr := h.pwr }) ∧
  (∀ (n : Nat) (s : State), s.hub.pwr.asleep = some n → n + us (max 1 (s.hub.fld F.PLT_CFG_MINOFF) * 1000) ≤
    s.hub.now → s.hub.wakes ≠ 0 → s.hub.bel.stbyHold → s.hub.bel.thermHold = false → s.hub.bel.offEnd = none → Runs
    (.standbyMinoffEnd) s fun h => h.bl = blIDLE ∧ h.bel.stbyHold = false ∧ (s.hub.bit F.PLT_CFG_PEWAKE →
    h.pwr.peWake = true) ∧ h = { s.hub with fields := h.fields, hw := h.hw, pwr := h.pwr, bel := h.bel }) ∧
  (∀ (s : State), s.hub.pwr.asleep = none → Runs (.standbyMinoffEnd) s fun h => h = s.hub) ∧
  (∀ (n : Nat) (s : State), s.hub.pwr.asleep = some n → s.hub.now < n + us (max 1 (s.hub.fld F.PLT_CFG_MINOFF) *
    1000) → Runs (.standbyMinoffEnd) s fun h => h = s.hub) ∧
  (∀ (src : Fin 16) (s : State), src.val < 15 → (s.hub.fld F.PLT_WEN_EN).testBit src → s.hub.ownDrive src = false →
    s.hub.pwr.stby = none → s.hub.pwr.asleep = none → Runs (.wakeLatch src) s fun h => h.fld F.PLT_WSRC_SRC =
    (s.hub.fld F.PLT_WSRC_SRC ||| 2 ^ src.val) % 2 ^ F.PLT_WSRC_SRC.w ∧ (s.hub.fld F.PLT_WSRC_SRC = 0 → h.fld
    F.PLT_WFIRST_BIT = src.val) ∧ (s.hub.fld F.PLT_WSRC_SRC ≠ 0 → h.fld F.PLT_WFIRST_BIT = s.hub.fld
    F.PLT_WFIRST_BIT) ∧ h = { s.hub with fields := h.fields, hw := h.hw } ∧ SameRegs s.hub h [F.PLT_WSRC_SRC,
    F.PLT_WFIRST_BIT]) ∧
  (∀ (src : Fin 16) (s : State), (src.val = 15 ∨ (s.hub.fld F.PLT_WEN_EN).testBit src = false ∨ s.hub.ownDrive src)
    → Runs (.wakeLatch src) s fun h => h = s.hub) ∧
  (∀ (p : Fin 2) (s : State), (s.hub.fld F.PLT_WEN_EN).testBit (12 + p.val) → s.hub.pwr.flare[p] → s.hub.pwr.stby =
    none → s.hub.pwr.asleep = none → Runs (.flareLook p true) s fun h => h.fld F.PLT_WSRC_SRC = (s.hub.fld
    F.PLT_WSRC_SRC ||| 2 ^ (12 + p.val)) % 2 ^ F.PLT_WSRC_SRC.w ∧ h.pwr.flare[p] = false ∧ h =
    { s.hub with fields := h.fields, hw := h.hw, pwr := h.pwr }) ∧
  (∀ (p : Fin 2) (act : Bool) (s : State), (s.hub.fld F.PLT_WEN_EN).testBit (12 + p.val) → (act = false ∨
    s.hub.pwr.flare[p] = false) → Runs (.flareLook p act) s fun h => h.pwr.flare[p] = act ∧ h =
    { s.hub with pwr := h.pwr }) ∧
  (∀ (p : Fin 2) (act : Bool) (s : State), (s.hub.fld F.PLT_WEN_EN).testBit (12 + p.val) = false → Runs (.flareLook
    p act) s fun h => h = s.hub) ∧
  (∀ (n : Nat) (s : State), s.hub.pwr.asleep = some n → s.hub.fld F.PLT_TIMER_TICKS ≠ 0 → s.hub.timerLeft = 0 →
    (s.hub.fld F.PLT_WEN_EN).testBit 14 → s.hub.pwr.stby = none → Runs (.pilotTimerExpire) s fun h => h.fld
    F.PLT_WSRC_SRC = (s.hub.fld F.PLT_WSRC_SRC ||| 2 ^ 14) % 2 ^ F.PLT_WSRC_SRC.w ∧ h.fld F.PLT_TIMER_TICKS = 0 ∧
    h.err = s.hub.err) ∧
  (∀ (s : State), (s.hub.pwr.asleep = none ∨ s.hub.fld F.PLT_TIMER_TICKS = 0 ∨ s.hub.timerLeft ≠ 0) → Runs
    (.pilotTimerExpire) s fun h => h = s.hub) ∧
  (∀ (s : State), Runs (.vaonPowerUp) s fun h => h.bit F.PLT_STAT_VAON_POR = true ∧ h.bel = {} ∧ h.fld
    F.PLT_WSRC_SRC = 0 ∧ h.fld F.PLT_WEN_EN = 0 ∧ h.fld F.BLW_RETRY_CONSEC = 0 ∧ h.bel.offEnd = none ∧ (∀ f : Fld,
    keyIn 0x10800 0x10FFF f.key = false → keyIn 0x18000 0x18FFF f.key = false → h.fld f = s.hub.fld f) ∧ h.fuse =
    s.hub.fuse ∧ h.err = s.hub.err ∧ h.lanes = s.hub.lanes) ∧
  (∀ (s : State), Runs (.vaonLoss) s fun h => h.bit F.PLT_STAT_VAON_POR = false ∧ h.bel = {} ∧ h.fld F.PLT_WSRC_SRC
    = 0 ∧ h.fld F.PLT_WEN_EN = 0 ∧ h.fld F.BLW_RETRY_CONSEC = 0 ∧ h.bel.offEnd = none ∧ (∀ f : Fld, keyIn 0x10800
    0x10FFF f.key = false → keyIn 0x18000 0x18FFF f.key = false → h.fld f = s.hub.fld f) ∧ h.fuse = s.hub.fuse ∧
    h.err = s.hub.err ∧ h.lanes = s.hub.lanes)

/-- A PLL that loses lock clears its LOCK bit and sets PLL_LOSS; PLL_MAIN holds a fatal warm reset until it relocks,
  PLL_SER takes the links out of UP with cause 1, PLL_DRAM stops the DRAM port, PLL_HOST acts as a host reset
  (R424). At CLK_THERM.WARN THERM_WARN sets; after 1 ms at or above SHUT a fatal error is logged, THERM is latched
  in PLT_WSRC and the Bellows holds the gate off; what is measured reads in the die's register (R425). A trip of an
  enabled F-die detector halves CK_CORE, sets SLOW and DROOP and is counted; clearing, HOLD after the last trip,
  lets the clock recover; a long event sets LONG and is logged as correctable (R427). A P-die trip sets PDROOP and
  is counted and logged (R428). -/
def Obligations.ClocksAndThermal : Prop :=
  (∀ (s : State), Runs (.pllLoss 0) s fun h => (h = (((s.hub.rstBit F.CLK_PLLSTAT_LOCK 0 false).flag .clk
    F.CLK_FLAG_PLL_LOSS).clkError 3).modPwr fun w => { w with held := true }) ∧ h.pwr.held = true ∧ h.bit
    F.CLK_FLAG_PLL_LOSS = true ∧ (h.fld F.CLK_PLLSTAT_LOCK).testBit 0 = false) ∧
  (∀ (s : State), Runs (.pllLoss 1) s fun h => (h = (List.finRange 4).foldl (fun k l => k.linkLoss l 1)
    (((s.hub.rstBit F.CLK_PLLSTAT_LOCK 1 false).flag .clk F.CLK_FLAG_PLL_LOSS).clkError 2))) ∧
  (∀ (s : State), Runs (.pllLoss 2) s fun h => h = (((s.hub.rstBit F.CLK_PLLSTAT_LOCK 2 false).flag .clk
    F.CLK_FLAG_PLL_LOSS).clkError 2).off F.DRM_STAT_RUN ∧ h.bit F.DRM_STAT_RUN = false ∧ h.bit F.CLK_FLAG_PLL_LOSS =
    true ∧ (h.fld F.CLK_PLLSTAT_LOCK).testBit 2 = false) ∧
  (∀ (s : State), Runs (.pllLoss 3) s fun h => h = (((s.hub.rstBit F.CLK_PLLSTAT_LOCK 3 false).flag .clk
    F.CLK_FLAG_PLL_LOSS).clkError 2).hostRst ∧ h.hst.answers = false) ∧
  (∀ (s : State), s.hub.pwr.held → Runs (.pllRelock 0) s fun h => h.bit F.GLB_RST_CAUSE_FATAL = true ∧ (h.fld
    F.CLK_PLLSTAT_LOCK).testBit 0 = true ∧ h.fld F.CLK_PLLSTAT_LOCK = (s.hub.fld F.CLK_PLLSTAT_LOCK ||| 1) % 2 ^
    F.CLK_PLLSTAT_LOCK.w ∧ h.pwr.held = false ∧ (s.hub.pwr.rstOut = none → h.pwr.rstOut = some (s.hub.now + us
    1000)) ∧ h.err.log = s.hub.err.log ∧ h.fuse = s.hub.fuse) ∧
  (∀ (p : Fin 4) (s : State), p ≠ 2 → (p = 0 → s.hub.pwr.held = false) → Runs (.pllRelock p) s fun h => h.fld
    F.CLK_PLLSTAT_LOCK = (s.hub.fld F.CLK_PLLSTAT_LOCK ||| 2 ^ p.val) % 2 ^ F.CLK_PLLSTAT_LOCK.w ∧ (h.pwr =
    { s.hub.pwr with rstOut := if p = 0 ∧ s.hub.pwr.rstOut = none then some (s.hub.now + us 1000) else s.hub.pwr.rstOut })
    ∧ h = { s.hub with fields := h.fields, hw := h.hw, pwr := h.pwr } ∧ SameRegs s.hub h [F.CLK_PLLSTAT_LOCK]) ∧
  (∀ (s : State), Runs (.pllRelock 2) s fun h => h.bit F.DRM_STAT_RUN = (s.hub.bit F.DRM_CTL_EN && s.hub.bit
    F.DRM_STAT_TRAINED) ∧ h.fld F.CLK_PLLSTAT_LOCK = (s.hub.fld F.CLK_PLLSTAT_LOCK ||| 2 ^ 2) % 2 ^
    F.CLK_PLLSTAT_LOCK.w ∧ h = { s.hub with fields := h.fields, hw := h.hw } ∧ SameRegs s.hub h [F.CLK_PLLSTAT_LOCK,
    F.DRM_STAT_RUN]) ∧
  (∀ (t : BitVec 12) (s : State), ((4 * s.hub.fld F.CLK_THERM_WARN : Nat) : Int) ≤ t.toInt → Runs (.thermalWarn true
    t) s fun h => h.bit F.CLK_FLAG_THERM_WARN = true ∧ h.fld F.CLK_TEMPP_T = t.toNat ∧ h =
    { s.hub with fields := h.fields, hw := h.hw, out := h.out, pwr := h.pwr } ∧ SameRegs s.hub h [F.CLK_TEMPP_T,
    F.CLK_FLAG_THERM_WARN]) ∧
  (∀ (t : BitVec 12) (s : State), t.toInt < ((4 * s.hub.fld F.CLK_THERM_WARN : Nat) : Int) → Runs (.thermalWarn true
    t) s fun h => h = (s.hub.tempPut true t) ∧ h.fld F.CLK_TEMPP_T = t.toNat) ∧
  (∀ (t : BitVec 12) (z : Nat) (s : State), ((4 * s.hub.fld F.CLK_THERM_SHUT : Nat) : Int) ≤ t.toInt →
    s.hub.pwr.hotAt[(1 : Fin 2)] = some z → z + us 1000 ≤ s.hub.now → s.hub.pwr.stby = none → Runs (.thermalShutdown
    true t) s fun h => h = (((s.hub.tempPut true t).clkError 3).wakeIn 15).blThermal ∧ (h.fld
    F.PLT_WSRC_SRC).testBit 15 = true ∧ h.bl = blHOLD ∧ h.bel.thermHold = true ∧ (h.bit F.BLW_STAT_PG = false ∨
    s.hub.gateOn = false) ∧ h.fuse = s.hub.fuse) ∧
  (∀ (t : BitVec 12) (z : Nat) (s : State), ((4 * s.hub.fld F.CLK_THERM_SHUT : Nat) : Int) ≤ t.toInt →
    (s.hub.pwr.hotAt[(1 : Fin 2)]).getD s.hub.now = z → s.hub.now < z + us 1000 → Runs (.thermalShutdown true t) s
    fun h => h = (s.hub.tempPut true t) ∧ h.fld F.CLK_TEMPP_T = t.toNat ∧ h.pwr.hotAt[(1 : Fin 2)] = some z) ∧
  (∀ (t : BitVec 12) (s : State), t.toInt < ((4 * s.hub.fld F.CLK_THERM_SHUT : Nat) : Int) → Runs (.thermalShutdown
    true t) s fun h => h = (s.hub.tempPut true t) ∧ h.fld F.CLK_TEMPP_T = t.toNat ∧ h.pwr.hotAt[(1 : Fin 2)] = none)
    ∧
  (∀ (t : BitVec 12) (s : State), ((4 * s.hub.fld F.CLK_THERM_WARN : Nat) : Int) ≤ t.toInt → Runs (.thermalWarn
    false t) s fun h => h.bit F.CLK_FLAG_THERM_WARN = true ∧ h.fld F.CLK_TEMPF_T = t.toNat ∧ h =
    { s.hub with fields := h.fields, hw := h.hw, out := h.out, pwr := h.pwr } ∧ SameRegs s.hub h [F.CLK_TEMPF_T,
    F.CLK_FLAG_THERM_WARN]) ∧
  (∀ (t : BitVec 12) (s : State), t.toInt < ((4 * s.hub.fld F.CLK_THERM_WARN : Nat) : Int) → Runs (.thermalWarn
    false t) s fun h => h = (s.hub.tempPut false t) ∧ h.fld F.CLK_TEMPF_T = t.toNat) ∧
  (∀ (t : BitVec 12) (z : Nat) (s : State), ((4 * s.hub.fld F.CLK_THERM_SHUT : Nat) : Int) ≤ t.toInt →
    s.hub.pwr.hotAt[(0 : Fin 2)] = some z → z + us 1000 ≤ s.hub.now → s.hub.pwr.stby = none → Runs (.thermalShutdown
    false t) s fun h => h = (((s.hub.tempPut false t).clkError 3).wakeIn 15).blThermal ∧ (h.fld
    F.PLT_WSRC_SRC).testBit 15 = true ∧ h.bl = blHOLD ∧ h.bel.thermHold = true ∧ (h.bit F.BLW_STAT_PG = false ∨
    s.hub.gateOn = false) ∧ h.fuse = s.hub.fuse) ∧
  (∀ (t : BitVec 12) (z : Nat) (s : State), ((4 * s.hub.fld F.CLK_THERM_SHUT : Nat) : Int) ≤ t.toInt →
    (s.hub.pwr.hotAt[(0 : Fin 2)]).getD s.hub.now = z → s.hub.now < z + us 1000 → Runs (.thermalShutdown false t) s
    fun h => h = (s.hub.tempPut false t) ∧ h.fld F.CLK_TEMPF_T = t.toNat ∧ h.pwr.hotAt[(0 : Fin 2)] = some z) ∧
  (∀ (t : BitVec 12) (s : State), t.toInt < ((4 * s.hub.fld F.CLK_THERM_SHUT : Nat) : Int) → Runs (.thermalShutdown
    false t) s fun h => h = (s.hub.tempPut false t) ∧ h.fld F.CLK_TEMPF_T = t.toNat ∧ h.pwr.hotAt[(0 : Fin 2)] =
    none) ∧
  (∀ (s : State), s.hub.bel.thermHold → s.hub.bel.thermAt + 10 * oneSecond ≤ s.hub.now → s.hub.bel.stbyHold = false
    → Runs (.thermalHoldEnd) s fun h => h.bel = { s.hub.bel with thermHold := false } ∧ (h.bl = if
    s.hub.bel.offEnd.isSome then blOFFTIME else blIDLE) ∧ h =
    { s.hub with fields := h.fields, hw := h.hw, bel := h.bel } ∧ SameRegs s.hub h [F.BLW_STAT_STATE,
    F.BLW_STAT_FLT_N]) ∧
  (∀ (s : State), (s.hub.bel.thermHold = false ∨ s.hub.now < s.hub.bel.thermAt + 10 * oneSecond) → Runs
    (.thermalHoldEnd) s fun h => h = s.hub) ∧
  (∀ (d : Fin 4) (s : State), (s.hub.fld F.CLK_DIM_DEN).testBit d → Runs (.dimmerTrip d) s fun h => h.bit
    F.CLK_DIMSTAT_SLOW = true ∧ h.fld F.CLK_DIMSTAT_KEEP = 8 ∧ h.bit F.CLK_FLAG_DROOP = true ∧ h.fld F.CLK_DIMCNT =
    (s.hub.count F.CLK_DIMCNT).fld F.CLK_DIMCNT ∧ (h.pwr =
    { s.hub.pwr with tripAt := s.hub.now, slowAt := if s.hub.bit F.CLK_DIMSTAT_SLOW = false ∨ s.hub.pwr.recAt.isSome then s.hub.now else s.hub.pwr.slowAt, recAt := none })
    ∧ h = { s.hub with fields := h.fields, hw := h.hw, pwr := h.pwr, out := h.out } ∧ SameRegs s.hub h
    [F.CLK_DIMSTAT_SLOW, F.CLK_DIMSTAT_KEEP, F.CLK_FLAG_DROOP, F.CLK_DIMCNT]) ∧
  (∀ (d : Fin 4) (s : State), (s.hub.fld F.CLK_DIM_DEN).testBit d = false → Runs (.dimmerTrip d) s fun h => h =
    s.hub) ∧
  (∀ (s : State), s.hub.bit F.CLK_DIMSTAT_SLOW → s.hub.pwr.recAt = none → s.hub.pwr.tripAt + 40 * max 1 (s.hub.fld
    F.CLK_DIM_HOLD) ≤ s.hub.now → Runs (.dimmerClear) s fun h => h =
    { s.hub with pwr := { s.hub.pwr with recAt := some s.hub.now } }) ∧
  (∀ (s : State), (s.hub.bit F.CLK_DIMSTAT_SLOW = false ∨ s.hub.pwr.recAt.isSome ∨ s.hub.now < s.hub.pwr.tripAt + 40
    * max 1 (s.hub.fld F.CLK_DIM_HOLD)) → Runs (.dimmerClear) s fun h => h = s.hub) ∧
  (∀ (s : State), s.hub.bit F.CLK_DIMSTAT_SLOW → s.hub.pwr.recAt = none → s.hub.pwr.slowAt + us (s.hub.fld
    F.CLK_DIM_LONG) < s.hub.now → Runs (.dimmerLong) s fun h => h = (s.hub.flag .clk F.CLK_FLAG_LONG).clkError 1 ∧
    h.bit F.CLK_FLAG_LONG = true ∧ h.lanes = s.hub.lanes) ∧
  (∀ (s : State), (s.hub.bit F.CLK_DIMSTAT_SLOW = false ∨ s.hub.pwr.recAt.isSome ∨ s.hub.now ≤ s.hub.pwr.slowAt + us
    (s.hub.fld F.CLK_DIM_LONG)) → Runs (.dimmerLong) s fun h => h = s.hub) ∧
  (∀ (d : Fin 2) (s : State), (s.hub.fld F.CLK_DIM_DEN).testBit (4 + d.val) → Runs (.pdieDroop d) s fun h => h =
    ((s.hub.flag .clk F.CLK_FLAG_PDROOP).count F.CLK_PDIMCNT).clkError 1 ∧ h.bit F.CLK_FLAG_PDROOP = true ∧ h.lanes
    = s.hub.lanes) ∧
  (∀ (d : Fin 2) (s : State), (s.hub.fld F.CLK_DIM_DEN).testBit (4 + d.val) = false → Runs (.pdieDroop d) s fun h =>
    h = s.hub)

/-- With BL_EN high and no hold IDLE goes to RAMP, RAMP to QUAL, and QUAL, after 33 ticks with no fault timer, to ON
  with BL_PG high (R432, R434, R438). BL_EN falling, an undervoltage or an overvoltage turns the gate off into IDLE
  with its cause and no off time, but where a trip of the cycle wins (R433, R435). The breaker runs the fault timer;
  its expiry is a slow trip, and a fast trip acts in RAMP, QUAL and ON (R436, R437). A fault counts, records its on
  time, and enters OFFTIME for max(100 x on time, 1 s), or LATCHED without RETRY_EN or at MAX (R439). BL_PG high for
  1 s clears CONSEC (R439). The off time runs out into IDLE or a hold; BL_EN and CLEAR never end it (R440, R442). A
  rising BL_EN or CLEAR leaves LATCHED (R443). -/
def Obligations.BellowsStates : Prop :=
  (∀ (s : State), s.hub.bl = blIDLE → s.hub.bit F.BLW_STAT_EN → s.hub.bel.stbyHold = false → s.hub.bel.thermHold =
    false → Runs (.bellowsStart) s fun h => h.bl = blRAMP ∧ h.bel =
    { s.hub.bel with onAt := s.hub.now, rampMax := s.hub.fld F.BLW_GATE_RAMPMAX } ∧ h =
    { s.hub with fields := h.fields, hw := h.hw, bel := h.bel } ∧ SameRegs s.hub h [F.BLW_STAT_STATE,
    F.BLW_STAT_FLT_N]) ∧
  (∀ (s : State), (s.hub.bl ≠ blIDLE ∨ s.hub.bit F.BLW_STAT_EN = false ∨ s.hub.bel.stbyHold ∨ s.hub.bel.thermHold) →
    Runs (.bellowsStart) s fun h => h = s.hub) ∧
  (∀ (s : State), s.hub.bl = blRAMP → Runs (.rampDone) s fun h => h.bl = blQUAL ∧ h.bit F.BLW_STAT_VGS_OK = true ∧
    h.bel = { s.hub.bel with qualAt := s.hub.now } ∧ h = { s.hub with fields := h.fields, hw := h.hw, bel := h.bel }
    ∧ SameRegs s.hub h [F.BLW_STAT_STATE, F.BLW_STAT_FLT_N, F.BLW_STAT_VGS_OK]) ∧
  (∀ (s : State), s.hub.bl ≠ blRAMP → Runs (.rampDone) s fun h => h = s.hub) ∧
  (∀ (s : State), s.hub.bl = blRAMP → s.hub.bel.onAt + us (max 1 s.hub.bel.rampMax * 10000) ≤ s.hub.now → Runs
    (.rampTimeout) s fun h => h.fld F.BLW_STAT_CAUSE = 3 ∧ h.bit F.BLW_STAT_PG = false ∧ h.bit F.BLW_STAT_TIMER_RUN
    = false ∧ h.bit F.BLW_STAT_FLT_N = false ∧ h.bit F.BLW_FLAG_RAMP = true ∧ h.fld F.BLW_RETRY_CONSEC = min
    (s.hub.fld F.BLW_RETRY_CONSEC + 1) 15 ∧ h.fld F.BLW_FCNT = min (s.hub.fld F.BLW_FCNT + 1) (2 ^ 32 - 1) ∧ h.fld
    F.BLW_ONT_TICKS = pilotTicks (s.hub.now - s.hub.bel.onAt) % 2 ^ 32 ∧ ((s.hub.bit F.BLW_CTL_RETRY_EN = false ∨
    (s.hub.fld F.BLW_RETRY_MAX ≠ 0 ∧ s.hub.fld F.BLW_RETRY_MAX ≤ min (s.hub.fld F.BLW_RETRY_CONSEC + 1) 15)) → h.bl
    = blLATCHED ∧ h.bel = s.hub.bel) ∧ (¬ (s.hub.bit F.BLW_CTL_RETRY_EN = false ∨ (s.hub.fld F.BLW_RETRY_MAX ≠ 0 ∧
    s.hub.fld F.BLW_RETRY_MAX ≤ min (s.hub.fld F.BLW_RETRY_CONSEC + 1) 15)) → h.bl = blOFFTIME ∧ h.bel.offEnd = some
    (s.hub.now + max (100 * (s.hub.now - s.hub.bel.onAt)) oneSecond)) ∧ h =
    { s.hub with fields := h.fields, hw := h.hw, bel := h.bel, out := h.out }) ∧
  (∀ (s : State), (s.hub.bl ≠ blRAMP ∨ s.hub.now < s.hub.bel.onAt + us (max 1 s.hub.bel.rampMax * 10000)) → Runs
    (.rampTimeout) s fun h => h = s.hub) ∧
  (∀ (s : State), s.hub.gateOn → s.hub.bit F.BLW_STAT_TIMER_RUN → s.hub.timerEnd ≤ s.hub.now → Runs (.slowTrip) s
    fun h => h.fld F.BLW_STAT_CAUSE = 2 ∧ h.bit F.BLW_STAT_PG = false ∧ h.bit F.BLW_STAT_TIMER_RUN = false ∧ h.bit
    F.BLW_STAT_FLT_N = false ∧ h.bit F.BLW_FLAG_SLOW = true ∧ h.fld F.BLW_RETRY_CONSEC = min (s.hub.fld
    F.BLW_RETRY_CONSEC + 1) 15 ∧ h.fld F.BLW_FCNT = min (s.hub.fld F.BLW_FCNT + 1) (2 ^ 32 - 1) ∧ h.fld
    F.BLW_ONT_TICKS = pilotTicks (s.hub.now - s.hub.bel.onAt) % 2 ^ 32 ∧ ((s.hub.bit F.BLW_CTL_RETRY_EN = false ∨
    (s.hub.fld F.BLW_RETRY_MAX ≠ 0 ∧ s.hub.fld F.BLW_RETRY_MAX ≤ min (s.hub.fld F.BLW_RETRY_CONSEC + 1) 15)) → h.bl
    = blLATCHED ∧ h.bel = s.hub.bel) ∧ (¬ (s.hub.bit F.BLW_CTL_RETRY_EN = false ∨ (s.hub.fld F.BLW_RETRY_MAX ≠ 0 ∧
    s.hub.fld F.BLW_RETRY_MAX ≤ min (s.hub.fld F.BLW_RETRY_CONSEC + 1) 15)) → h.bl = blOFFTIME ∧ h.bel.offEnd = some
    (s.hub.now + max (100 * (s.hub.now - s.hub.bel.onAt)) oneSecond)) ∧ h =
    { s.hub with fields := h.fields, hw := h.hw, bel := h.bel, out := h.out }) ∧
  (∀ (s : State), (s.hub.gateOn = false ∨ s.hub.bit F.BLW_STAT_TIMER_RUN = false ∨ s.hub.now < s.hub.timerEnd) →
    Runs (.slowTrip) s fun h => h = s.hub) ∧
  (∀ (s : State), s.hub.gateOn → Runs (.fastTrip) s fun h => h.fld F.BLW_STAT_CAUSE = 1 ∧ h.bit F.BLW_STAT_PG =
    false ∧ h.bit F.BLW_STAT_TIMER_RUN = false ∧ h.bit F.BLW_STAT_FLT_N = false ∧ h.bit F.BLW_FLAG_FAST = true ∧
    h.fld F.BLW_RETRY_CONSEC = min (s.hub.fld F.BLW_RETRY_CONSEC + 1) 15 ∧ h.fld F.BLW_FCNT = min (s.hub.fld
    F.BLW_FCNT + 1) (2 ^ 32 - 1) ∧ h.fld F.BLW_ONT_TICKS = pilotTicks (s.hub.now - s.hub.bel.onAt) % 2 ^ 32 ∧
    ((s.hub.bit F.BLW_CTL_RETRY_EN = false ∨ (s.hub.fld F.BLW_RETRY_MAX ≠ 0 ∧ s.hub.fld F.BLW_RETRY_MAX ≤ min
    (s.hub.fld F.BLW_RETRY_CONSEC + 1) 15)) → h.bl = blLATCHED ∧ h.bel = s.hub.bel) ∧ (¬ (s.hub.bit
    F.BLW_CTL_RETRY_EN = false ∨ (s.hub.fld F.BLW_RETRY_MAX ≠ 0 ∧ s.hub.fld F.BLW_RETRY_MAX ≤ min (s.hub.fld
    F.BLW_RETRY_CONSEC + 1) 15)) → h.bl = blOFFTIME ∧ h.bel.offEnd = some (s.hub.now + max (100 * (s.hub.now -
    s.hub.bel.onAt)) oneSecond)) ∧ h = { s.hub with fields := h.fields, hw := h.hw, bel := h.bel, out := h.out }) ∧
  (∀ (s : State), s.hub.gateOn = false → Runs (.fastTrip) s fun h => h = s.hub) ∧
  (∀ (s : State), s.hub.gateOn → s.tripComes → Runs (.blEnFall) s fun h => h = s.hub.off F.BLW_STAT_EN) ∧
  (∀ (s : State), s.hub.gateOn → s.tripComes = false → Runs (.blEnFall) s fun h => h.bl = blIDLE ∧ h.fld
    F.BLW_STAT_CAUSE = 7 ∧ h.bit F.BLW_STAT_PG = false ∧ h.bit F.BLW_STAT_TIMER_RUN = false ∧ h.fld
    F.BLW_RETRY_CONSEC = s.hub.fld F.BLW_RETRY_CONSEC ∧ h.bit F.BLW_STAT_EN = false ∧ h =
    { s.hub with fields := h.fields, hw := h.hw, out := h.out }) ∧
  (∀ (s : State), s.hub.gateOn = false → Runs (.blEnFall) s fun h => h.bit F.BLW_STAT_EN = false ∧ h.bl = s.hub.bl ∧
    h = { s.hub with fields := h.fields, hw := h.hw } ∧ SameRegs s.hub h [F.BLW_STAT_EN]) ∧
  (∀ (s : State), s.tripComes → Runs (.undervoltage) s fun h => h = s.hub) ∧
  (∀ (s : State), s.hub.gateOn → s.tripComes = false → Runs (.undervoltage) s fun h => h.bl = blIDLE ∧ h.fld
    F.BLW_STAT_CAUSE = 5 ∧ h.bit F.BLW_STAT_PG = false ∧ h.bit F.BLW_STAT_TIMER_RUN = false ∧ h.fld
    F.BLW_RETRY_CONSEC = s.hub.fld F.BLW_RETRY_CONSEC ∧ h.bit F.BLW_FLAG_UV = true ∧ h =
    { s.hub with fields := h.fields, hw := h.hw, out := h.out }) ∧
  (∀ (s : State), s.hub.gateOn = false → Runs (.undervoltage) s fun h => h = s.hub) ∧
  (∀ (s : State), s.hub.gateOn → Runs (.overvoltage) s fun h => h.bl = blIDLE ∧ h.fld F.BLW_STAT_CAUSE = 6 ∧ h.bit
    F.BLW_STAT_PG = false ∧ h.bit F.BLW_STAT_TIMER_RUN = false ∧ h.fld F.BLW_RETRY_CONSEC = s.hub.fld
    F.BLW_RETRY_CONSEC ∧ h.bit F.BLW_FLAG_OV = true ∧ h =
    { s.hub with fields := h.fields, hw := h.hw, out := h.out }) ∧
  (∀ (s : State), s.hub.gateOn = false → Runs (.overvoltage) s fun h => h = s.hub) ∧
  (∀ (s : State), s.hub.bl = blLATCHED → s.hub.bit F.BLW_STAT_EN = false → s.hub.bel.stbyHold = false →
    s.hub.bel.thermHold = false → s.hub.bel.offEnd = none → Runs (.blEnRise) s fun h => h.bl = blIDLE ∧ h.bit
    F.BLW_STAT_EN = true ∧ h.bit F.BLW_STAT_FLT_N = true ∧ h = { s.hub with fields := h.fields, hw := h.hw } ∧
    SameRegs s.hub h [F.BLW_STAT_STATE, F.BLW_STAT_FLT_N, F.BLW_STAT_EN]) ∧
  (∀ (s : State), (s.hub.bl ≠ blLATCHED ∨ s.hub.bit F.BLW_STAT_EN) → Runs (.blEnRise) s fun h => h.bit F.BLW_STAT_EN
    = true ∧ h = { s.hub with fields := h.fields, hw := h.hw } ∧ SameRegs s.hub h [F.BLW_STAT_EN]) ∧
  (∀ (s : State), s.hub.gateOn → s.hub.bit F.BLW_STAT_TIMER_RUN = false → Runs (.breakerLimit) s fun h => h.bit
    F.BLW_STAT_TIMER_RUN = true ∧ h.bel =
    { s.hub.bel with timerAt := s.hub.now, ftime := s.hub.fld F.BLW_BRK_FTIME } ∧ h =
    { s.hub with fields := h.fields, hw := h.hw, bel := h.bel } ∧ SameRegs s.hub h [F.BLW_STAT_TIMER_RUN]) ∧
  (∀ (s : State), (s.hub.gateOn = false ∨ s.hub.bit F.BLW_STAT_TIMER_RUN) → Runs (.breakerLimit) s fun h => h =
    s.hub) ∧
  (∀ (s : State), s.hub.timerOver = false → s.hub.bit F.BLW_STAT_TIMER_RUN → s.hub.bel.timerAt + ofPilot 1 ≤
    s.hub.now → Runs (.breakerClear) s fun h => h.bit F.BLW_STAT_TIMER_RUN = false ∧ h.bel =
    { s.hub.bel with qualAt := s.hub.now } ∧ h = { s.hub with fields := h.fields, hw := h.hw, bel := h.bel } ∧
    SameRegs s.hub h [F.BLW_STAT_TIMER_RUN]) ∧
  (∀ (s : State), s.hub.timerOver → Runs (.breakerClear) s fun h => h.fld F.BLW_STAT_CAUSE = 2 ∧ h.bit F.BLW_STAT_PG
    = false ∧ h.bit F.BLW_STAT_TIMER_RUN = false ∧ h.bit F.BLW_STAT_FLT_N = false ∧ h.bit F.BLW_FLAG_SLOW = true ∧
    h.fld F.BLW_RETRY_CONSEC = min (s.hub.fld F.BLW_RETRY_CONSEC + 1) 15 ∧ h.fld F.BLW_FCNT = min (s.hub.fld
    F.BLW_FCNT + 1) (2 ^ 32 - 1) ∧ h.fld F.BLW_ONT_TICKS = pilotTicks (s.hub.now - s.hub.bel.onAt) % 2 ^ 32 ∧
    ((s.hub.bit F.BLW_CTL_RETRY_EN = false ∨ (s.hub.fld F.BLW_RETRY_MAX ≠ 0 ∧ s.hub.fld F.BLW_RETRY_MAX ≤ min
    (s.hub.fld F.BLW_RETRY_CONSEC + 1) 15)) → h.bl = blLATCHED ∧ h.bel = s.hub.bel) ∧ (¬ (s.hub.bit
    F.BLW_CTL_RETRY_EN = false ∨ (s.hub.fld F.BLW_RETRY_MAX ≠ 0 ∧ s.hub.fld F.BLW_RETRY_MAX ≤ min (s.hub.fld
    F.BLW_RETRY_CONSEC + 1) 15)) → h.bl = blOFFTIME ∧ h.bel.offEnd = some (s.hub.now + max (100 * (s.hub.now -
    s.hub.bel.onAt)) oneSecond)) ∧ h = { s.hub with fields := h.fields, hw := h.hw, bel := h.bel, out := h.out }) ∧
  (∀ (s : State), s.hub.timerOver = false → (s.hub.bit F.BLW_STAT_TIMER_RUN = false ∨ s.hub.now < s.hub.bel.timerAt
    + ofPilot 1) → Runs (.breakerClear) s fun h => h = s.hub) ∧
  (∀ (s : State), s.hub.bl = blQUAL → s.hub.bit F.BLW_STAT_TIMER_RUN = false → s.hub.bel.qualAt + ofPilot 33 ≤
    s.hub.now → s.timerComes = false → Runs (.powerGood) s fun h => h.bl = blON ∧ h.bit F.BLW_STAT_PG = true ∧ h.bit
    F.BLW_FLAG_PG_RISE = true ∧ h.bel = { s.hub.bel with pgAt := s.hub.now } ∧ h =
    { s.hub with fields := h.fields, hw := h.hw, bel := h.bel, out := h.out } ∧ SameRegs s.hub h [F.BLW_STAT_STATE,
    F.BLW_STAT_FLT_N, F.BLW_STAT_PG, F.BLW_FLAG_PG_RISE]) ∧
  (∀ (s : State), (s.hub.bl ≠ blQUAL ∨ s.hub.bit F.BLW_STAT_TIMER_RUN ∨ s.hub.now < s.hub.bel.qualAt + ofPilot 33 ∨
    s.timerComes) → Runs (.powerGood) s fun h => h = s.hub) ∧
  (∀ (s : State), s.hub.bit F.BLW_STAT_PG → s.hub.bel.pgAt + oneSecond ≤ s.hub.now → Runs (.consecClear) s fun h =>
    h.fld F.BLW_RETRY_CONSEC = 0 ∧ h = { s.hub with fields := h.fields, hw := h.hw } ∧ SameRegs s.hub h
    [F.BLW_RETRY_CONSEC]) ∧
  (∀ (s : State), (s.hub.bit F.BLW_STAT_PG = false ∨ s.hub.now < s.hub.bel.pgAt + oneSecond) → Runs (.consecClear) s
    fun h => h = s.hub) ∧
  (∀ (t : Nat) (s : State), s.hub.bel.offEnd = some t → t ≤ s.hub.now → Runs (.offtimeEnd) s fun h => h.bel =
    { s.hub.bel with offEnd := none } ∧ (h.bl = if s.hub.bel.stbyHold || s.hub.bel.thermHold then blHOLD else
    blIDLE) ∧ h = { s.hub with fields := h.fields, hw := h.hw, bel := h.bel } ∧ SameRegs s.hub h [F.BLW_STAT_STATE,
    F.BLW_STAT_FLT_N]) ∧
  (∀ (t : Nat) (s : State), s.hub.bel.offEnd = some t → s.hub.now < t → Runs (.offtimeEnd) s fun h => h = s.hub) ∧
  (∀ (a : Access) (s : State), s.hub.lets a 0x18000 → s.hub.bl = blLATCHED → s.hub.bel.stbyHold = false →
    s.hub.bel.thermHold = false → s.hub.bel.offEnd = none → Runs (.bellowsClear a) s fun h => h.bl = blIDLE ∧ h.bit
    F.BLW_STAT_FLT_N = true ∧ h = { s.hub with fields := h.fields, hw := h.hw } ∧ SameRegs s.hub h
    [F.BLW_STAT_STATE, F.BLW_STAT_FLT_N]) ∧
  (∀ (a : Access) (s : State), s.hub.lets a 0x18000 → s.hub.bl ≠ blLATCHED → Runs (.bellowsClear a) s fun h => h =
    s.hub)

/-- A pending escalation whose delay has ended is carried out: a P-die reset when every fatal error was confined to
  the P-die, else a warm reset with FATAL; else nothing happens (R446). A pop removes the head entry, unless it was
  written in this cycle, sets LOGSEL to 0 and moves HEADBLK; a clear empties the log and the capture, FECCLR the
  capture alone, and what the same cycle wrote stays (R452-R454). A write of ERR_INJ keeps CLASS and CODE; with GO
  an INJECT entry is recorded with the unit of the ERR block, the writer as requester and ADDR from CODE, class 3
  escalating and class 2 counting towards the storm (R447, R460). A re-arm sends the vector again of a source still
  pending with MSIX = 1, and nothing otherwise (R459). -/
def Obligations.ErrorBlock : Prop :=
  (∀ (s : State), (s.hub.bit F.ERR_STAT_ESC_PEND = false ∨ s.hub.now < s.hub.err.escEnd) → Runs (.escalation) s fun
    h => h = s.hub) ∧
  (∀ (s : State), s.hub.bit F.ERR_STAT_ESC_PEND → s.hub.err.escEnd ≤ s.hub.now → s.hub.err.escP = false → Runs
    (.escalation) s fun h => h = s.hub.warmRst.hwSet F.GLB_RST_CAUSE_FATAL ∧ h.bit F.GLB_RST_CAUSE_FATAL = true ∧
    h.bit F.ERR_STAT_ESC_PEND = false ∧ h.err.log = s.hub.err.log ∧ h.err.fec = s.hub.err.fec) ∧
  (∀ (s : State), s.hub.bit F.ERR_STAT_ESC_PEND → s.hub.err.escEnd ≤ s.hub.now → s.hub.err.escP → Runs (.escalation)
    s fun h => h = (s.hub.off F.ERR_STAT_ESC_PEND).askPdie ∧ h.bit F.GLB_RST_CTL_PDIE = true ∧ h.bit
    F.ERR_STAT_ESC_PEND = false ∧ h.bel = s.hub.bel ∧ h.fuse = s.hub.fuse) ∧
  (∀ (a : Access) (x e : LogEntry) (r : List LogEntry) (s : State), s.hub.lets a 0x30024 → s.hub.err.log = x :: e ::
    r → x.tick ≠ s.hub.now → Runs (.logPop a) s fun h => h.err = { s.hub.err with log := e :: r } ∧ h.fld
    F.ERR_LOGSEL_IDX = 0 ∧ h.fld F.ERR_HEADBLK_SEC = blk e.sec % 2 ^ 32 ∧ h =
    { s.hub with fields := h.fields, hw := h.hw, err := h.err } ∧ SameRegs s.hub h [F.ERR_LOGSEL_IDX,
    F.ERR_HEADBLK_SEC, F.ERR_TAILBLK_SEC]) ∧
  (∀ (a : Access) (x : LogEntry) (r : List LogEntry) (s : State), s.hub.lets a 0x30024 → s.hub.err.log = x :: r →
    x.tick = s.hub.now → Runs (.logPop a) s fun h => h.err = s.hub.err ∧ h.fld F.ERR_LOGSEL_IDX = 0 ∧ h =
    { s.hub with fields := h.fields, hw := h.hw } ∧ SameRegs s.hub h [F.ERR_LOGSEL_IDX, F.ERR_HEADBLK_SEC,
    F.ERR_TAILBLK_SEC]) ∧
  (∀ (a : Access) (s : State), s.hub.lets a 0x30024 → s.hub.err.log.length ≤ 1 → (∀ e ∈ s.hub.err.log, e.tick ≠
    s.hub.now) → Runs (.logPop a) s fun h => h.err = { s.hub.err with log := [] } ∧ h.fld F.ERR_LOGSEL_IDX = 0 ∧ h =
    { s.hub with fields := h.fields, hw := h.hw, err := h.err } ∧ SameRegs s.hub h [F.ERR_LOGSEL_IDX]) ∧
  (∀ (a : Access) (s : State), s.hub.lets a 0x30028 → Runs (.errLogClear a) s fun h => (h.err =
    { s.hub.err with log := s.hub.err.log.filter fun e => e.tick == s.hub.now, fec := s.hub.err.fecNow.filter fun e => e.tick == s.hub.now })
    ∧ h = { s.hub with fields := h.fields, hw := h.hw, err := h.err } ∧ SameRegs s.hub h [F.ERR_HEADBLK_SEC,
    F.ERR_TAILBLK_SEC]) ∧
  (∀ (a : Access) (s : State), s.hub.lets a 0x30050 → Runs (.fecClear a) s fun h => (h.err =
    { s.hub.err with fec := s.hub.err.fecNow.filter fun e => e.tick == s.hub.now }) ∧ h =
    { s.hub with err := h.err }) ∧
  (∀ (a : Access) (v : W32) (s : State), s.hub.lets a 0x30058 → v.bit 31 = false → Runs (.errorInject a v) s fun h
    => h.fld F.ERR_INJ_CLASS = v.bits 29 28 ∧ h.fld F.ERR_INJ_CODE = v.bits 15 0 ∧ h =
    { s.hub with fields := h.fields, hw := h.hw } ∧ SameRegs s.hub h [F.ERR_INJ_CLASS, F.ERR_INJ_CODE]) ∧
  (∀ (a : Access) (v : W32) (s : State), s.hub.lets a 0x30058 → v.bit 31 → v.bits 29 28 = 0 → Runs (.errorInject a
    v) s fun h => h = (((s.hub.put F.ERR_INJ_CLASS (v.bits 29 28)).put F.ERR_INJ_CODE (v.bits 15 0)).record
    { ((s.hub.put F.ERR_INJ_CLASS (v.bits 29 28)).put F.ERR_INJ_CODE (v.bits 15 0)).entry (v.extractLsb' 28 2) (((s.hub.put F.ERR_INJ_CLASS (v.bits 29 28)).put F.ERR_INJ_CODE (v.bits 15 0)).unit (fUnit 0x20)) (v.bits 15 8 * 256 + 0xF2) a.req 0 0 (v.bits 7 0) with rnode := 0 })
    ∧ (s.hub.err.log = [] → h.err.log =
    [{ ((s.hub.put F.ERR_INJ_CLASS (v.bits 29 28)).put F.ERR_INJ_CODE (v.bits 15 0)).entry (v.extractLsb' 28 2) (((s.hub.put F.ERR_INJ_CLASS (v.bits 29 28)).put F.ERR_INJ_CODE (v.bits 15 0)).unit (fUnit 0x20)) (v.bits 15 8 * 256 + 0xF2) a.req 0 0 (v.bits 7 0) with rnode := 0 }])
    ∧ h.fuse = s.hub.fuse) ∧
  (∀ (a : Access) (v : W32) (s : State), s.hub.lets a 0x30058 → v.bit 31 → v.bits 29 28 = 1 → Runs (.errorInject a
    v) s fun h => h = (((s.hub.put F.ERR_INJ_CLASS (v.bits 29 28)).put F.ERR_INJ_CODE (v.bits 15 0)).record
    { ((s.hub.put F.ERR_INJ_CLASS (v.bits 29 28)).put F.ERR_INJ_CODE (v.bits 15 0)).entry (v.extractLsb' 28 2) (((s.hub.put F.ERR_INJ_CLASS (v.bits 29 28)).put F.ERR_INJ_CODE (v.bits 15 0)).unit (fUnit 0x20)) (v.bits 15 8 * 256 + 0xF2) a.req 0 0 (v.bits 7 0) with rnode := 0 })
    ∧ (s.hub.err.log = [] → h.err.log =
    [{ ((s.hub.put F.ERR_INJ_CLASS (v.bits 29 28)).put F.ERR_INJ_CODE (v.bits 15 0)).entry (v.extractLsb' 28 2) (((s.hub.put F.ERR_INJ_CLASS (v.bits 29 28)).put F.ERR_INJ_CODE (v.bits 15 0)).unit (fUnit 0x20)) (v.bits 15 8 * 256 + 0xF2) a.req 0 0 (v.bits 7 0) with rnode := 0 }])
    ∧ h.fuse = s.hub.fuse) ∧
  (∀ (a : Access) (v : W32) (s : State), s.hub.lets a 0x30058 → v.bit 31 → v.bits 29 28 = 2 → Runs (.errorInject a
    v) s fun h => h = (((s.hub.put F.ERR_INJ_CLASS (v.bits 29 28)).put F.ERR_INJ_CODE (v.bits 15 0)).record
    { ((s.hub.put F.ERR_INJ_CLASS (v.bits 29 28)).put F.ERR_INJ_CODE (v.bits 15 0)).entry (v.extractLsb' 28 2) (((s.hub.put F.ERR_INJ_CLASS (v.bits 29 28)).put F.ERR_INJ_CODE (v.bits 15 0)).unit (fUnit 0x20)) (v.bits 15 8 * 256 + 0xF2) a.req 0 0 (v.bits 7 0) with rnode := 0 }).storm
    ∧ h.fuse = s.hub.fuse) ∧
  (∀ (a : Access) (v : W32) (s : State), s.hub.lets a 0x30058 → v.bit 31 → v.bits 29 28 = 3 → Runs (.errorInject a
    v) s fun h => h = (((s.hub.put F.ERR_INJ_CLASS (v.bits 29 28)).put F.ERR_INJ_CODE (v.bits 15 0)).record
    { ((s.hub.put F.ERR_INJ_CLASS (v.bits 29 28)).put F.ERR_INJ_CODE (v.bits 15 0)).entry (v.extractLsb' 28 2) (((s.hub.put F.ERR_INJ_CLASS (v.bits 29 28)).put F.ERR_INJ_CODE (v.bits 15 0)).unit (fUnit 0x20)) (v.bits 15 8 * 256 + 0xF2) a.req 0 0 (v.bits 7 0) with rnode := 0 }).escalate
    false ∧ h.bit F.ERR_STAT_ESC_PEND = true ∧ h.bit F.ERR_FLAG_ESC = true ∧ h.fuse = s.hub.fuse) ∧
  (∀ (a : Access) (v : W32) (s : State), s.hub.lets a 0x30088 → s.hub.pend (v.bits 5 0) → s.hub.bit ⟨0x30200 + 4 *
    v.bits 5 0, 29, 1⟩ → Runs (.interruptRearm a v) s fun h => h = s.hub.emit (.msix (s.hub.vec (v.bits 5 0)))) ∧
  (∀ (a : Access) (v : W32) (s : State), s.hub.lets a 0x30088 → (s.hub.pend (v.bits 5 0) = false ∨ s.hub.bit
    ⟨0x30200 + 4 * v.bits 5 0, 29, 1⟩ = false) → Runs (.interruptRearm a v) s fun h => h = s.hub)

/-- Right after reset the queue and every FIFO are empty, the Gnomon stands at 0 s (R144), every lane is
  unconfigured in NONE with its keepers' hold time of 500 (chapter 02), no core runs, the error log is empty, and
  the registers of every block read the values of the reset columns of Tables 4.1 to 16.6: the non-zero ones are
  listed field by field (offset, low bit, width, value). Values the spec does not give are log entries 3 to 5 and
  are not in the list. -/
def Obligations.ResetValues : Prop :=
  let z := State.reset.hub
  let reads : List (Nat × Nat × Nat × Nat) → Bool := fun l => l.all fun p => z.fld ⟨p.1, p.2.1, p.2.2.1⟩ == p.2.2.2
  State.reset.pending = [] ∧ z.out = [] ∧ z.gno.t = {} ∧ z.err.log = [] ∧
  (∀ n : Fin 64, z.fn n = 15 ∧ z.ln n = 0 ∧ z.fld (F.LN_HOLD_TIME n) = 500 ∧ (z.lane n).rx.q = [] ∧ (z.lane
    n).tx.q = []) ∧
  (∀ c : Fin 8, z.shown (reedBase c + 0x11C) = 0xA0000000#32 ∧ z.bit (F.REED_STAT_ACTIVE c) = false ∧
    (z.reed[c]).q = []) ∧
  (∀ n : Fin 8, z.bit (F.RFX_CTL_RUN n) = false ∧ (z.core[n]).evq = []) ∧
  (∀ q : Fin 56, z.fld (F.SWC_QCFG_MAX q) = 2048 ∧ z.fld (F.SWC_QCFG_MIN q) = 36 ∧ z.sw.q[q] = []) ∧
  (∀ p : Fin 7, z.fld (F.SWC_IN_TH_HEAD p) = 144 ∧ z.fld (F.SWC_IN_TH_XON p) = 192 ∧ z.fld (F.SWC_IN_TH_XOFF p)
    = 256) ∧
  (∀ k : Fin 4, z.mbx[k] = {} ∧ (z.shown (mbxBase k + 4)).extractLsb' 16 4 = 8#4) ∧
  (∀ l : Fin 4, reads ([(0x0 + 0x10, 4, 2, 2), (0x0 + 0x1C, 16, 16, 100), (0x0 + 0x1C, 0, 16, 200), (0x0 + 0x20,
    0, 8, 159), (0x0 + 0x24, 16, 4, 3), (0x0 + 0x24, 0, 16, 4000), (0x0 + 0x28, 16, 16, 65535), (0x0 + 0x28, 0, 8,
    63), (0x0 + 0x40, 0, 16, 1000)].map fun p => (linkBase l + p.1, p.2)) = true) ∧
  (∀ l : Fin 2, reads ([(0x0 + 0x14, 24, 8, 60), (0x0 + 0x14, 16, 8, 20), (0x0 + 0x14, 8, 8, 3), (0x0 + 0x14, 0,
    8, 10), (0x0 + 0x18, 16, 16, 1000), (0x0 + 0x18, 0, 16, 500), (0x0 + 0x2C, 16, 16, 100), (0x0 + 0x2C, 0, 16,
    50), (0x0 + 0x30, 1, 1, 1), (0x0 + 0x38, 8, 4, 4)].map fun p => (linkBase l + p.1, p.2)) = true) ∧
  reads [(0x60000 + 0x10, 24, 8, 4), (0x60000 + 0x10, 0, 24, 0), (0x60000 + 0x80, 24, 8, 1), (0x60000 + 0x80, 0,
    16, 160)] = true ∧
  reads [(0xA0000 + 0x8000, 0, 1, 1), (0xA0000 + 0x8004, 0, 16, 1000), (0xA0000 + 0x8024, 0, 7, 48), (0xA0000 +
    0x10, 0, 15, 512), (0xA0000 + 0x14, 0, 8, 56), (0xA0000 + 0x18, 16, 8, 4), (0xA0000 + 0x18, 8, 8, 2), (0xA0000
    + 0x18, 0, 8, 1), (0xA0000 + 0x20, 0, 8, 7), (0xA0000 + 0x24, 0, 16, 1000)] = true ∧
  reads [(0xC0000 + 0x208, 0, 15, 1024), (0xC0000 + 0x20C, 0, 15, 1024)] = true ∧
  reads [(0xB0000 + 0x10, 0, 14, 50), (0xB0000 + 0x14, 0, 16, 100), (0xB0000 + 0x18, 16, 8, 100), (0xB0000 +
    0x18, 8, 8, 64), (0xB0000 + 0x18, 0, 8, 8), (0xB0000 + 0x1C, 16, 16, 200), (0xB0000 + 0x1C, 0, 4, 2), (0xB0000
    + 0x20, 16, 16, 100), (0xB0000 + 0x20, 8, 8, 50), (0xB0000 + 0x20, 0, 8, 5), (0xB0000 + 0x24, 0, 16, 10),
    (0xB0000 + 0x30, 0, 16, 1000), (0xB0000 + 0x8004, 8, 3, 2), (0xB0000 + 0x8004, 0, 7, 32), (0xB0000 + 0x8008,
    16, 16, 2), (0xB0000 + 0x8008, 0, 16, 50), (0xB0000 + 0x800C, 0, 16, 1000)] = true ∧
  reads [(0x84000 + 0x14, 0, 16, 10), (0x84000 + 0x20, 16, 16, 10), (0x84000 + 0x20, 0, 16, 100), (0x84000 +
    0x2C, 24, 8, 80), (0x84000 + 0x2C, 0, 16, 1000), (0x84000 + 0x30, 0, 16, 25), (0x84000 + 0x40, 0, 16, 1000),
    (0x84000 + 0x1010, 0, 19, 500), (0x84000 + 0x1020, 16, 16, 200), (0x84000 + 0x1020, 0, 16, 400), (0x84000 +
    0x1024, 0, 28, 12000), (0x84000 + 0x1028, 0, 28, 12000), (0x84000 + 0x1030, 0, 16, 1000)] = true ∧
  reads [(0x98000 + 0x0, 3, 1, 1), (0x98000 + 0x0, 2, 1, 1), (0x98000 + 0x14, 16, 16, 5000), (0x98000 + 0x14, 0,
    16, 100), (0x98000 + 0x18, 0, 5, 31), (0x98000 + 0x20, 16, 16, 10), (0x98000 + 0x20, 0, 16, 500), (0x98000 +
    0x24, 0, 16, 10), (0x98000 + 0x28, 16, 16, 10), (0x98000 + 0x28, 0, 8, 8), (0x98000 + 0x64, 0, 16, 1000)] =
    true ∧
  reads [(0x40000 + 0x0, 8, 8, 5), (0x40000 + 0x0, 0, 1, 1), (0x40000 + 0x30, 0, 8, 2), (0x40000 + 0x90004, 0,
    16, 100)] = true ∧
  reads [(0x10000 + 0x114, 0, 16, 100), (0x10000 + 0x814, 8, 8, 10), (0x10000 + 0x818, 0, 1, 1), (0x10000 +
    0x8000, 0, 1, 1), (0x10000 + 0x8004, 10, 1, 1), (0x10000 + 0x8010, 16, 9, 100), (0x10000 + 0x8010, 0, 7, 50),
    (0x10000 + 0x8014, 8, 8, 20), (0x10000 + 0x8014, 0, 2, 1)] = true ∧
  reads [(0x20000 + 0x10, 16, 16, 1000), (0x20000 + 0x10, 8, 8, 10), (0x20000 + 0x10, 0, 6, 63), (0x20000 +
    0x14, 8, 4, 4), (0x20000 + 0x14, 0, 4, 4), (0x20000 + 0x18, 0, 5, 16), (0x20000 + 0x38, 16, 8, 135), (0x20000
    + 0x38, 0, 8, 115), (0x20000 + 0x10000, 31, 1, 1), (0x20000 + 0x10000, 8, 2, 2), (0x20000 + 0x10000, 4, 2, 1),
    (0x20000 + 0x1000C, 0, 4, 9), (0x20000 + 0x10054, 16, 8, 64), (0x20000 + 0x10054, 8, 8, 10), (0x20000 +
    0x10054, 0, 8, 20)] = true

/-- Every store of the reset state (registers, tile memory, DRAM, bundle stores, message RAMs, reed programs, TCMs)
  has its addresses strictly rising and no entry equal to what an unlisted address reads as. The form is the model's
  own (log entries 3 and 9). -/
def Obligations.ResetIsCanonical : Prop :=
  State.reset.hub.canonical = true

/-- For every state whose stores (registers and staged values, tile memory and its checks, DRAM, bundle stores, CAN
  message RAMs, reed programs, TCMs and their ECC marks) are in canonical form, whatever command waits in front, and
  when none waits, the stores of the next state are in canonical form. So equal contents are equal data in every
  state that steps lead to. The form is the model's own (log entries 3 and 9). -/
def Obligations.StepsKeepStoresCanonical : Prop :=
  ∀ s t : State, s.hub.canonical = true → step s = .next t → t.hub.canonical = true

/-- For every state, whatever command waits in front, a key hash, the management key, HOST_TRUST and each revoke bit
  that are blown stay as they are; the anti-rollback count never falls; the lane, identity and vendor fuses never
  change. Only PROVISION, REVOKE and a confirmed bundle write fuses (R379, R404, R405). -/
def Obligations.FusesAreWrittenOnce : Prop :=
  ∀ s t : State, step s = .next t → s.hub.fuse.keeps t.hub.fuse = true

/-- For every reed instruction the word Table 3.3 gives it decodes to that instruction, with every register,
  immediate, pin and code at every value; a word decodes to nothing exactly when its opcode [31:26] is not in Table
  3.3 (R83). For every frame header the five words it is sent as decode to that header (Table 9.1, R268). -/
def Obligations.EncodingsRoundTrip : Prop :=
  (∀ i : ReedIns, decodeReed (encodeReed i) = some i) ∧
    (∀ w : W32, (decodeReed w).isNone = !([0, 1, 2, 3, 4, 5, 6, 7, 8, 9, 0xA, 0x10, 0x11, 0x12, 0x13, 0x14, 0x18, 0x19, 0x1A, 0x1B,
      0x1C, 0x20, 0x21, 0x22, 0x23, 0x24, 0x28, 0x29].contains (w.bits 31 26))) ∧
    ∀ hd : Header, match hd.encode with
      | [w0, w1, w2, w3, w4] => Header.decode w0 w1 w2 w3 w4 = hd
      | _ => False

/-- GLB_RST_CTL: with its domain on, the steward and the local host pass the access checks; a write from any other
  requester, as a register write or as one of the reset commands, gets the error response of R11, is logged, and
  leaves the register unchanged (R25). GNO registers: with GNO's domain on, requesters 0 and 13 pass the checks of a
  write, and so does the local host for GNO_FLAG and GNO_IEN; any other write gets the error response of R11; a read
  passes for every requester (R147). -/
def Obligations.RegisterWriters : Prop :=
  (∀ (a : Access) (h : Hub), h.domOn 0 = true → (h.check a 0x10 true ≠ .refused ↔ a.isIn [0, 9] = true)) ∧
    (∀ (a : Access) (v : W32) (s : State), a.isIn [0, 9] = false →
      (Runs (.registerWrite a 0x10#32 v true) s fun h => h = s.hub.refuse a 0x10 true ∧ h.fld F.GLB_RST_CTL_CLUSTER = s.hub.fld F.GLB_RST_CTL_CLUSTER ∧ h.fld F.GLB_RST_CTL_REGION = s.hub.fld F.GLB_RST_CTL_REGION ∧ h.bit F.GLB_RST_CTL_PDIE = s.hub.bit F.GLB_RST_CTL_PDIE) ∧
      (Runs (.warmReset (.software a)) s fun h => h = s.hub.refuse a 0x10 true ∧ h.fld F.GLB_RST_CTL_CLUSTER = s.hub.fld F.GLB_RST_CTL_CLUSTER ∧ h.fld F.GLB_RST_CTL_REGION = s.hub.fld F.GLB_RST_CTL_REGION ∧ h.bit F.GLB_RST_CTL_PDIE = s.hub.bit F.GLB_RST_CTL_PDIE) ∧
      (Runs (.pdieReset a) s fun h => h = s.hub.refuse a 0x10 true ∧ h.fld F.GLB_RST_CTL_CLUSTER = s.hub.fld F.GLB_RST_CTL_CLUSTER ∧ h.fld F.GLB_RST_CTL_REGION = s.hub.fld F.GLB_RST_CTL_REGION ∧ h.bit F.GLB_RST_CTL_PDIE = s.hub.bit F.GLB_RST_CTL_PDIE) ∧
      (∀ r : Fin 2, Runs (.regionReset a r) s fun h => h = s.hub.refuse a 0x10 true ∧ h.fld F.GLB_RST_CTL_CLUSTER = s.hub.fld F.GLB_RST_CTL_CLUSTER ∧ h.fld F.GLB_RST_CTL_REGION = s.hub.fld F.GLB_RST_CTL_REGION ∧ h.bit F.GLB_RST_CTL_PDIE = s.hub.bit F.GLB_RST_CTL_PDIE) ∧
      (∀ c : Fin 8, Runs (.clusterReset a c) s fun h => h = s.hub.refuse a 0x10 true ∧ h.fld F.GLB_RST_CTL_CLUSTER = s.hub.fld F.GLB_RST_CTL_CLUSTER ∧ h.fld F.GLB_RST_CTL_REGION = s.hub.fld F.GLB_RST_CTL_REGION ∧ h.bit F.GLB_RST_CTL_PDIE = s.hub.bit F.GLB_RST_CTL_PDIE)) ∧
    (∀ (a : Access) (o : Nat) (h : Hub), o < 0x10000 → h.domOn 2 = true →
      (h.check a (0x60000 + o) true ≠ .refused ↔ a.isIn [0, 13] = true ∨ (a.isIn [9] = true ∧ (o = 0x24 ∨ o = 0x28))) ∧
      h.check a (0x60000 + o) false ≠ .refused) ∧
    (∀ (a : Access) (v addr : W32) (s : State), addr.toNat % 4 = 0 → 0x60000 ≤ addr.toNat → addr.toNat < 0x70000 →
      a.isIn [0, 13] = false → (a.isIn [9] = false ∨ (addr.toNat ≠ 0x60024 ∧ addr.toNat ≠ 0x60028)) →
      Runs (.registerWrite a addr v true) s fun h => h = s.hub.refuse a addr.toNat true)

/-- Whenever the gate is on (RAMP, QUAL or ON), BL_EN taken low turns it off: the state is IDLE, the cause is EN and
  BL_PG and the gate-source status read low. In every state no off time is started and a running one keeps its end,
  and where the gate is off already the state stays as it is (R435). -/
def Obligations.BellowsEnableTakenLow : Prop :=
  (∀ (s : State), s.hub.gateOn → Runs (.blEnFall) s fun h => h.bl = blIDLE ∧ h.gateOn = false ∧ h.fld
    F.BLW_STAT_CAUSE = 7 ∧ h.bit F.BLW_STAT_PG = false ∧ h.bit F.BLW_STAT_VGS_OK = false ∧ h.bit F.BLW_STAT_EN =
    false ∧ h.bel.offEnd = s.hub.bel.offEnd ∧ h.bel = s.hub.bel ∧ h.err = s.hub.err) ∧
  (∀ (s : State), s.hub.gateOn = false → Runs (.blEnFall) s fun h => h.bl = s.hub.bl ∧ h.bel.offEnd =
    s.hub.bel.offEnd ∧ h = s.hub.off F.BLW_STAT_EN)
end

