-- ==== Sys2Proof/Laws/Store.lean ====
section
/-! SUPPORT. Laws of the sparse stores: what a write changes, and that every operation keeps the canonical form. -/

namespace Sys2Proof.Machine

variable {α : Type}

/-! ## Reads after writes -/

theorem Sparse.get_erase_same (d : α) (t : Sparse α) (k : Nat) : (t.erase k).get d k = d := by
  induction t with
  | nil => rfl
  | cons p r ih =>
    unfold Sparse.erase at ih ⊢
    by_cases h : p.1 = k
    · simpa [List.filter, h] using ih
    · have : (p.1 != k) = true := by simpa using h
      simp only [List.filter, this, Sparse.get, if_neg h]
      exact ih

theorem Sparse.get_erase_ne (d : α) (t : Sparse α) {k k' : Nat} (h : k' ≠ k) : (t.erase k).get d k' = t.get d k' := by
  induction t with
  | nil => rfl
  | cons p r ih =>
    unfold Sparse.erase at ih ⊢
    by_cases hp : p.1 = k
    · have : p.1 ≠ k' := fun e => h (e ▸ hp)
      simp only [List.filter, hp, bne_self_eq_false, Sparse.get]
      rw [if_neg (fun e => h e.symm)]; exact ih
    · have : (p.1 != k) = true := by simpa using hp
      simp only [List.filter, this, Sparse.get, ih]

theorem Sparse.get_insert_same (d : α) (t : Sparse α) (k : Nat) (v : α) (h : ∀ p ∈ t, p.1 ≠ k) :
    (Sparse.insert k v t).get d k = v := by
  induction t with
  | nil => simp [Sparse.insert, Sparse.get]
  | cons p r ih =>
    unfold Sparse.insert
    split
    · simp [Sparse.get]
    · have hp := h p (by simp)
      simp only [Sparse.get, if_neg hp]
      exact ih fun q hq => h q (by simp [hq])

theorem Sparse.get_insert_ne (d : α) (t : Sparse α) (v : α) {k k' : Nat} (h : k' ≠ k) :
    (Sparse.insert k v t).get d k' = t.get d k' := by
  induction t with
  | nil => simp [Sparse.insert, Sparse.get, h.symm]
  | cons p r ih =>
    unfold Sparse.insert
    split
    · simp [Sparse.get, h.symm]
    · simp only [Sparse.get, ih]

theorem Sparse.mem_erase {t : Sparse α} {k : Nat} {p : Nat × α} : p ∈ t.erase k ↔ p ∈ t ∧ p.1 ≠ k := by
  simp [Sparse.erase]

/-- A key reads what was last written to it. -/
theorem Sparse.get_set_same [DecidableEq α] (d : α) (t : Sparse α) (k : Nat) (v : α) : (t.set d k v).get d k = v := by
  unfold Sparse.set
  split
  · rename_i h; rw [Sparse.get_erase_same, h]
  · exact Sparse.get_insert_same d _ k v fun p hp => (Sparse.mem_erase.mp hp).2

/-- A write leaves every other key. -/
theorem Sparse.get_set_ne [DecidableEq α] (d d' : α) (t : Sparse α) (v : α) {k k' : Nat} (h : k' ≠ k) :
    (t.set d k v).get d' k' = t.get d' k' := by
  unfold Sparse.set
  split
  · exact Sparse.get_erase_ne d' t h
  · rw [Sparse.get_insert_ne d' _ v h, Sparse.get_erase_ne d' t h]

theorem Sparse.get_filter (d : α) (t : Sparse α) (q : Nat → Bool) (k : Nat) :
    Sparse.get d (t.filter fun p => q p.1) k = if q k then t.get d k else d := by
  induction t with
  | nil => simp [Sparse.get]
  | cons p r ih =>
    by_cases hp : p.1 = k
    · by_cases hq : q k
      · simp [Sparse.get, hp, hq]
      · simp [List.filter, hp, hq] at ih ⊢; exact ih
    · by_cases hq : q p.1
      · simp [List.filter, hq, Sparse.get, hp, ih]
      · simp [List.filter, hq, Sparse.get, hp, ih]

/-- `clear` forgets a range and leaves the rest. -/
theorem Sparse.get_clear (d : α) (t : Sparse α) (lo hi k : Nat) :
    (t.clear lo hi).get d k = if lo ≤ k ∧ k ≤ hi then d else t.get d k := by
  have := Sparse.get_filter d t (fun x => x < lo || hi < x) k
  unfold Sparse.clear
  rw [this]
  by_cases h : lo ≤ k ∧ k ≤ hi
  · have : (decide (k < lo) || decide (hi < k)) = false := by simp; omega
    simp [this, h]
  · have : (decide (k < lo) || decide (hi < k)) = true := by simp; omega
    simp [this, h]

/-! ## The canonical form -/

theorem Sparse.wf_iff [DecidableEq α] (d : Nat → α) (t : Sparse α) :
    Sparse.wf d t = true ↔ t.Pairwise (fun a b => a.1 < b.1) ∧ ∀ p ∈ t, p.2 ≠ d p.1 := by
  simp [Sparse.wf]

theorem Sparse.wf_nil [DecidableEq α] (d : Nat → α) : Sparse.wf d [] = true := by simp [Sparse.wf]

theorem Sparse.wf_filter [DecidableEq α] (d : Nat → α) (t : Sparse α) (q : Nat × α → Bool) (h : Sparse.wf d t = true) :
    Sparse.wf d (t.filter q) = true := by
  rw [Sparse.wf_iff] at h ⊢
  exact ⟨h.1.filter q, fun p hp => h.2 p (List.mem_filter.mp hp).1⟩

/-- Forgetting keys keeps the canonical form. -/
theorem Sparse.wf_clear [DecidableEq α] (d : Nat → α) (t : Sparse α) (lo hi : Nat) (h : Sparse.wf d t = true) :
    Sparse.wf d (t.clear lo hi) = true := Sparse.wf_filter d t _ h

theorem Sparse.mem_insert {k : Nat} {v : α} {t : Sparse α} {p : Nat × α} :
    p ∈ Sparse.insert k v t ↔ p = (k, v) ∨ p ∈ t := by
  induction t with
  | nil => simp [Sparse.insert]
  | cons q r ih =>
    unfold Sparse.insert
    split
    · simp
    · simp only [List.mem_cons, ih]; exact or_left_comm

theorem Sparse.sorted_insert {k : Nat} {v : α} {t : Sparse α} (h : t.Pairwise fun a b => a.1 < b.1)
    (hk : ∀ p ∈ t, p.1 ≠ k) : (Sparse.insert k v t).Pairwise fun a b => a.1 < b.1 := by
  induction t with
  | nil => simp [Sparse.insert]
  | cons q r ih =>
    obtain ⟨hq, hr⟩ := List.pairwise_cons.mp h
    unfold Sparse.insert
    split
    · rename_i hlt
      refine List.pairwise_cons.mpr ⟨fun p hp => ?_, h⟩
      rcases List.mem_cons.mp hp with rfl | hp
      · exact hlt
      · exact Nat.lt_trans hlt (hq p hp)
    · rename_i hle
      have hne := hk q (by simp)
      refine List.pairwise_cons.mpr ⟨fun p hp => ?_, ih hr fun p hp => hk p (by simp [hp])⟩
      rcases Sparse.mem_insert.mp hp with rfl | hp
      · change q.1 < k
        change ¬ k < q.1 at hle
        omega
      · exact hq p hp

/-- A write keeps the canonical form. -/
theorem Sparse.wf_set [DecidableEq α] (d : Nat → α) (t : Sparse α) (k : Nat) (v : α) (h : Sparse.wf d t = true) :
    Sparse.wf d (t.set (d k) k v) = true := by
  have he : Sparse.wf d (t.erase k) = true := Sparse.wf_filter d t _ h
  unfold Sparse.set
  split
  · exact he
  · rename_i hv
    rw [Sparse.wf_iff] at he ⊢
    refine ⟨Sparse.sorted_insert he.1 fun p hp => (Sparse.mem_erase.mp hp).2, fun p hp => ?_⟩
    rcases Sparse.mem_insert.mp hp with rfl | hp
    · exact hv
    · exact he.2 p hp

/-- Two stores in canonical form that read alike at every key are equal. -/
theorem Sparse.ext_of_wf [DecidableEq α] (d : Nat → α) {t u : Sparse α} (ht : Sparse.wf d t = true)
    (hu : Sparse.wf d u = true) (h : ∀ k, t.get (d k) k = u.get (d k) k) : t = u := by
  rw [Sparse.wf_iff] at ht hu
  have low : ∀ (t : Sparse α) (k : Nat), (∀ p ∈ t, k < p.1) → t.get (d k) k = d k := by
    intro t k ht
    induction t with
    | nil => rfl
    | cons p r ih =>
      have := ht p (by simp)
      have hne : p.1 ≠ k := by omega
      simp only [Sparse.get, if_neg hne]
      exact ih fun q hq => ht q (by simp [hq])
  induction t generalizing u with
  | nil =>
    cases u with
    | nil => rfl
    | cons q r =>
      have := h q.1
      simp only [Sparse.get, if_true] at this
      exact absurd this.symm (hu.2 q (by simp))
  | cons p r ih =>
    obtain ⟨hp, hr⟩ := List.pairwise_cons.mp ht.1
    cases u with
    | nil =>
      have := h p.1
      simp only [Sparse.get, if_true] at this
      exact absurd this (ht.2 p (by simp))
    | cons q w =>
      obtain ⟨hq, hw⟩ := List.pairwise_cons.mp hu.1
      have hkey : p.1 = q.1 := by
        rcases Nat.lt_trichotomy p.1 q.1 with hlt | he | hgt
        · have := h p.1
          rw [low (q :: w) p.1 (fun x hx => by
            rcases List.mem_cons.mp hx with rfl | hx
            · exact hlt
            · exact Nat.lt_trans hlt (hq x hx))] at this
          simp only [Sparse.get, if_true] at this
          exact absurd this (ht.2 p (by simp))
        · exact he
        · have := h q.1
          rw [low (p :: r) q.1 (fun x hx => by
            rcases List.mem_cons.mp hx with rfl | hx
            · exact hgt
            · exact Nat.lt_trans hgt (hp x hx))] at this
          simp only [Sparse.get, if_true] at this
          exact absurd this.symm (hu.2 q (by simp))
      have hval : p.2 = q.2 := by
        have := h p.1
        simpa [Sparse.get, hkey] using this
      have hpq : p = q := Prod.ext hkey hval
      subst hpq
      congr 1
      refine ih ⟨hr, fun x hx => ht.2 x (by simp [hx])⟩ ⟨hw, fun x hx => hu.2 x (by simp [hx])⟩ fun k => ?_
      by_cases hk : k = p.1
      · rw [hk, low r p.1 hp, low w p.1 hq]
      · have := h k
        simpa [Sparse.get, Ne.symm hk] using this

/-! ## Byte memories -/

/-- Writing bytes keeps the canonical form. -/
theorem writeBytes_wf (m : Sparse Byte) (a : Nat) (bs : List Byte) (h : Sparse.wf (fun _ => 0) m = true) :
    Sparse.wf (fun _ => 0) (writeBytes m a bs) = true := by
  induction bs generalizing m a with
  | nil => exact h
  | cons b r ih => exact ih _ _ (Sparse.wf_set (fun _ => 0) m a b h)

/-- Bytes outside the range written read as before. -/
theorem writeBytes_get_ne (m : Sparse Byte) (a : Nat) (bs : List Byte) (k : Nat) (h : k < a ∨ a + bs.length ≤ k) :
    (writeBytes m a bs).get 0 k = m.get 0 k := by
  induction bs generalizing m a with
  | nil => rfl
  | cons b r ih =>
    simp only [List.length_cons] at h
    rw [writeBytes, ih _ _ (by omega), Sparse.get_set_ne 0 0 m b (by omega)]

/-- A byte written reads back. -/
theorem writeBytes_get (m : Sparse Byte) (a : Nat) (bs : List Byte) (i : Nat) (h : i < bs.length) :
    (writeBytes m a bs).get 0 (a + i) = bs[i] := by
  induction bs generalizing m a i with
  | nil => simp at h
  | cons b r ih =>
    cases i with
    | zero =>
      rw [writeBytes, writeBytes_get_ne _ _ _ _ (by omega), Nat.add_zero, Sparse.get_set_same]; rfl
    | succ j =>
      have := ih (m.set 0 a b) (a + 1) j (by simpa using h)
      rw [writeBytes, show a + (j + 1) = a + 1 + j by omega, this]; rfl

theorem bytesAt_length (m : Sparse Byte) (a n : Nat) : (bytesAt m a n).length = n := by
  induction n generalizing a with
  | zero => rfl
  | succ n ih => simp [bytesAt, ih]

/-- A read of the range written gives the bytes written. -/
theorem bytesAt_writeBytes (m : Sparse Byte) (a : Nat) (bs : List Byte) :
    bytesAt (writeBytes m a bs) a bs.length = bs := by
  have gen : ∀ (n : Nat) (i : Nat), i + n = bs.length → bytesAt (writeBytes m a bs) (a + i) n = bs.drop i := by
    intro n
    induction n with
    | zero => intro i hi; simp [bytesAt, List.drop_eq_nil_of_le (show bs.length ≤ i by omega)]
    | succ n ih =>
      intro i hi
      rw [bytesAt, writeBytes_get m a bs i (by omega), Nat.add_assoc, ih (i + 1) (by omega)]
      exact (List.drop_eq_getElem_cons (by omega)).symm
  have := gen bs.length 0 (by omega)
  simpa using this

end Sys2Proof.Machine
end

