-- ==== Sys2Proof/Laws/Memory.lean ====
section
/-! SUPPORT. Laws of the memories: every operation that writes one keeps its canonical form, and what a reader finds after
it. -/

namespace Sys2Proof.Machine

/-! ## Bundle stores: an erased byte reads 0xFF -/

theorem flashPut_wf (m : Sparse Byte) (a : Nat) (bs : List Byte) (h : Sparse.wf (fun _ => 0xFF) m = true) :
    Sparse.wf (fun _ => 0xFF) (flashPut m a bs) = true := by
  induction bs generalizing m a with
  | nil => exact h
  | cons b r ih => exact ih _ _ (Sparse.wf_set (fun _ => 0xFF) m a b h)

/-- Bytes outside the range programmed read as before. -/
theorem flashPut_get_ne (m : Sparse Byte) (a : Nat) (bs : List Byte) (k : Nat) (h : k < a ∨ a + bs.length ≤ k) :
    (flashPut m a bs).get 0xFF k = m.get 0xFF k := by
  induction bs generalizing m a with
  | nil => rfl
  | cons b r ih =>
    simp only [List.length_cons] at h
    rw [flashPut, ih _ _ (by omega), Sparse.get_set_ne 0xFF 0xFF m b (by omega)]

/-- What was programmed reads back. -/
theorem flashAt_flashPut (m : Sparse Byte) (a : Nat) (bs : List Byte) : flashAt (flashPut m a bs) a bs.length = bs := by
  induction bs generalizing m a with
  | nil => rfl
  | cons b r ih =>
    rw [List.length_cons, flashAt, flashPut, flashPut_get_ne _ _ _ _ (.inl (by omega)), Sparse.get_set_same, ih]

/-! ## Tile memory (06) -/

/-- Tile memory and its checks are in canonical form. -/
def Tiles.Canon (t : Tiles) : Prop := Memory.wf t.mem = true ∧ Sparse.wf (fun _ => zeroCheck) t.chk = true

theorem Tiles.writeFull_canon {t : Tiles} (i : Nat) (bs : List Byte) (h : t.Canon) : (t.writeFull i bs).Canon :=
  ⟨writeBytes_wf _ _ _ h.1, Sparse.wf_set (fun _ => zeroCheck) _ _ _ h.2⟩

theorem Tiles.writePart_canon {t : Tiles} (i off : Nat) (bs : List Byte) (h : t.Canon) : (t.writePart i off bs).Canon :=
  ⟨writeBytes_wf _ _ _ h.1, Sparse.wf_set (fun _ => zeroCheck) _ _ _ h.2⟩

theorem Tiles.release_canon {t : Tiles} (i : Nat) (h : t.Canon) : (t.release i).Canon := by
  unfold Tiles.Canon Tiles.release
  exact h

/-- One request's bytes within one tile: the memory they leave (R174, R175). -/
theorem Hub.tileChunk_mem (h : Hub) (i off : Nat) (bs : List Byte) (full : Bool) :
    (h.tileChunk i off bs full).tl.mem = writeBytes h.tl.mem (i * 256 + off) bs := by
  unfold Hub.tileChunk Hub.snoop
  dsimp only
  split
  · rename_i e; rw [e.2.1, Nat.add_zero]; simp only [Tiles.release, Tiles.writeFull]
  · rfl

theorem Hub.tileChunk_canon (h : Hub) (i off : Nat) (bs : List Byte) (full : Bool) (c : h.tl.Canon) :
    (h.tileChunk i off bs full).tl.Canon := by
  unfold Hub.tileChunk Hub.snoop
  dsimp only
  split
  · exact Tiles.release_canon _ (Tiles.writeFull_canon _ _ c)
  · exact Tiles.writePart_canon _ _ _ c

theorem writeBytes_append (m : Sparse Byte) (a : Nat) (x y : List Byte) :
    writeBytes m a (x ++ y) = writeBytes (writeBytes m a x) (a + x.length) y := by
  induction x generalizing m a with
  | nil => rfl
  | cons b r ih => rw [List.cons_append, writeBytes, ih, writeBytes, List.length_cons, Nat.add_assoc, Nat.add_comm 1]

theorem Hub.tileWriteNow_canon (full : Bool) (fuel : Nat) (h : Hub) (a : Nat) (bs : List Byte) (c : h.tl.Canon) :
    (Hub.tileWriteNow full fuel h a bs).tl.Canon := by
  induction fuel generalizing h a bs with
  | zero => exact c
  | succ n ih =>
    unfold Hub.tileWriteNow
    split
    · exact c
    · exact ih _ _ _ (Hub.tileChunk_canon _ _ _ _ _ c)

/-- A write to tile memory puts its bytes where they belong, whatever tiles it crosses. -/
theorem Hub.tileWriteNow_mem (full : Bool) (fuel : Nat) (h : Hub) (a : Nat) (bs : List Byte)
    (hf : bs = [] ∨ a % 256 + bs.length ≤ fuel * 256) :
    (Hub.tileWriteNow full fuel h a bs).tl.mem = writeBytes h.tl.mem a bs := by
  induction fuel generalizing h a bs with
  | zero =>
    have : bs = [] := hf.elim id fun q => List.length_eq_zero_iff.mp (by omega)
    subst this; rfl
  | succ n ih =>
    unfold Hub.tileWriteNow
    split
    · rename_i e
      rw [List.isEmpty_iff.mp e]; rfl
    · rename_i e
      have hb : a % 256 + bs.length ≤ (n + 1) * 256 := hf.resolve_left fun q => e (by rw [q]; rfl)
      dsimp only
      have hl : (bs.take (min (256 - a % 256) bs.length)).length = min (256 - a % 256) bs.length := by simp
      rw [ih _ _ _ ?_, Hub.tileChunk_mem, show a / 256 * 256 + a % 256 = a by omega]
      · conv => rhs; rw [← List.take_append_drop (min (256 - a % 256) bs.length) bs, writeBytes_append, hl]
      · rcases Nat.le_total (256 - a % 256) bs.length with q | q
        · rw [Nat.min_eq_left q, List.length_drop, show (a + (256 - a % 256)) % 256 = 0 by omega]
          exact .inr (by omega)
        · rw [Nat.min_eq_right q]; exact .inl (List.drop_length)

theorem Hub.tileWrite_canon (h : Hub) (a : Nat) (bs : List Byte) (full : Bool) (c : h.tl.Canon) :
    (h.tileWrite a bs full).tl.Canon := by
  unfold Hub.tileWrite
  split
  · exact c
  · split
    · exact c
    · exact Hub.tileWriteNow_canon _ _ _ _ _ c

theorem Hub.writeChain_canon (ts : List Nat) (h : Hub) (bs : List Byte) (c : h.tl.Canon) : (Hub.writeChain h ts bs).tl.Canon := by
  induction ts generalizing h bs with
  | nil => exact c
  | cons t r ih => exact ih _ _ (Hub.tileChunk_canon _ _ _ _ _ c)

theorem Hub.restoreTile_canon (h : Hub) (t : Nat) (d : List Byte × W32) (bad : Bool) (c : h.tl.Canon) :
    (h.restoreTile t d bad).tl.Canon := ⟨writeBytes_wf _ _ _ c.1, Sparse.wf_set (fun _ => zeroCheck) _ _ _ c.2⟩

theorem Hub.tileZero_canon (h : Hub) (q : Nat) (c : h.tl.Canon) : (h.tileZero q).tl.Canon :=
  ⟨Sparse.wf_clear _ _ _ _ c.1, Sparse.wf_clear _ _ _ _ c.2⟩

/-- Tile memory at reset lists nothing. -/
theorem reset_tiles_canon : State.reset.hub.tl.Canon := ⟨by decide, by decide⟩

/-! ## Message RAM, reed programs, DRAM and register fields -/

theorem Can.setWord_wf (c : Can) (j : Fin 128) (w : Nat) (v : W32) (h : Sparse.wf (fun _ => 0) c.ram = true) :
    Sparse.wf (fun _ => 0) (c.setWord j w v).ram = true := Sparse.wf_set (fun _ => 0) _ _ _ h

theorem Hub.pmWrite_wf (h : Hub) (c : Fin 8) (i : Nat) (v : W32) (w : Sparse.wf (fun _ => 0) (h.reed[c]).pmem = true) :
    Sparse.wf (fun _ => 0) ((h.pmWrite c i v).reed[c]).pmem = true := by
  simp only [Hub.pmWrite, Hub.modReed, Fin.getElem_fin, Vector.getElem_set_self]
  exact Sparse.wf_set (fun _ => 0) _ _ _ w

theorem Hub.put_wf (h : Hub) (f : Fld) (v : Nat) (w : Sparse.wf resetOf h.fields = true) :
    Sparse.wf resetOf (h.put f v).fields = true := Sparse.wf_set resetOf _ _ _ w

theorem Hub.resetRange_wf (h : Hub) (lo hi : Nat) (w : Sparse.wf resetOf h.fields = true) :
    Sparse.wf resetOf (h.resetRange lo hi).fields = true := Sparse.wf_clear _ _ _ _ w

end Sys2Proof.Machine
end

