-- ==== Sys2Proof/Laws/State.lean ====
section
/-! SUPPORT. What each update of the hub leaves as it was, field by field, and what registers read after a write. -/

namespace Sys2Proof.Machine

/-! ## Updates that are another spelling of one below -/

@[simp] theorem Hub.on_eq (h : Hub) (f : Fld) : h.on f = h.put f 1 := rfl
@[simp] theorem Hub.off_eq (h : Hub) (f : Fld) : h.off f = h.put f 0 := rfl
@[simp] theorem Hub.putB_eq (h : Hub) (f : Fld) (b : Bool) : h.putB f b = h.put f (b2n b) := rfl
theorem Hub.modCtx_eq (h : Hub) (c : Fin 8) (x : Fin 16) (g : Ctx → Ctx) :
    h.modCtx c x g = h.modReed c fun r => { r with ctx := r.ctx.set x (g r.ctx[x]) } := rfl
theorem Hub.modPin_eq (h : Hub) (n : Fin 64) (p : Fin 3) (g : Pin → Pin) :
    h.modPin n p g = h.modLane n fun l => { l with pin := l.pin.set p (g l.pin[p]) } := rfl
theorem Hub.modSlot_eq (h : Hub) (i : Fin 128) (g : Slot → Slot) :
    h.modSlot i g = h.modBrg fun b => { b with slot := b.slot.set i (g b.slot[i]) } := rfl

/-! ## put -/

@[simp] theorem Hub.put_now (h : Hub) (f : Fld) (v : Nat) : (h.put f v).now = h.now := rfl
@[simp] theorem Hub.put_freeCtr (h : Hub) (f : Fld) (v : Nat) : (h.put f v).freeCtr = h.freeCtr := rfl
@[simp] theorem Hub.put_fields (h : Hub) (f : Fld) (v : Nat) : (h.put f v).fields = h.fields.set (resetOf f.key) f.key (v % 2 ^ f.w) := rfl
@[simp] theorem Hub.put_hw (h : Hub) (f : Fld) (v : Nat) : (h.put f v).hw = h.hw := rfl
@[simp] theorem Hub.put_wrote (h : Hub) (f : Fld) (v : Nat) : (h.put f v).wrote = h.wrote := rfl
@[simp] theorem Hub.put_staged (h : Hub) (f : Fld) (v : Nat) : (h.put f v).staged = h.staged := rfl
@[simp] theorem Hub.put_snap (h : Hub) (f : Fld) (v : Nat) : (h.put f v).snap = h.snap := rfl
@[simp] theorem Hub.put_bank (h : Hub) (f : Fld) (v : Nat) : (h.put f v).bank = h.bank := rfl
@[simp] theorem Hub.put_out (h : Hub) (f : Fld) (v : Nat) : (h.put f v).out = h.out := rfl
@[simp] theorem Hub.put_gno (h : Hub) (f : Fld) (v : Nat) : (h.put f v).gno = h.gno := rfl
@[simp] theorem Hub.put_lanes (h : Hub) (f : Fld) (v : Nat) : (h.put f v).lanes = h.lanes := rfl
@[simp] theorem Hub.put_err (h : Hub) (f : Fld) (v : Nat) : (h.put f v).err = h.err := rfl
@[simp] theorem Hub.put_fuse (h : Hub) (f : Fld) (v : Nat) : (h.put f v).fuse = h.fuse := rfl
@[simp] theorem Hub.put_dl (h : Hub) (f : Fld) (v : Nat) : (h.put f v).dl = h.dl := rfl
@[simp] theorem Hub.put_tl (h : Hub) (f : Fld) (v : Nat) : (h.put f v).tl = h.tl := rfl
@[simp] theorem Hub.put_pim (h : Hub) (f : Fld) (v : Nat) : (h.put f v).pim = h.pim := rfl
@[simp] theorem Hub.put_core (h : Hub) (f : Fld) (v : Nat) : (h.put f v).core = h.core := rfl
@[simp] theorem Hub.put_reed (h : Hub) (f : Fld) (v : Nat) : (h.put f v).reed = h.reed := rfl
@[simp] theorem Hub.put_sw (h : Hub) (f : Fld) (v : Nat) : (h.put f v).sw = h.sw := rfl
@[simp] theorem Hub.put_ring (h : Hub) (f : Fld) (v : Nat) : (h.put f v).ring = h.ring := rfl
@[simp] theorem Hub.put_brg (h : Hub) (f : Fld) (v : Nat) : (h.put f v).brg = h.brg := rfl
@[simp] theorem Hub.put_hst (h : Hub) (f : Fld) (v : Nat) : (h.put f v).hst = h.hst := rfl
@[simp] theorem Hub.put_can (h : Hub) (f : Fld) (v : Nat) : (h.put f v).can = h.can := rfl
@[simp] theorem Hub.put_bank3 (h : Hub) (f : Fld) (v : Nat) : (h.put f v).bank3 = h.bank3 := rfl
@[simp] theorem Hub.put_monOff (h : Hub) (f : Fld) (v : Nat) : (h.put f v).monOff = h.monOff := rfl
@[simp] theorem Hub.put_link (h : Hub) (f : Fld) (v : Nat) : (h.put f v).link = h.link := rfl
@[simp] theorem Hub.put_drn (h : Hub) (f : Fld) (v : Nat) : (h.put f v).drn = h.drn := rfl
@[simp] theorem Hub.put_lamp (h : Hub) (f : Fld) (v : Nat) : (h.put f v).lamp = h.lamp := rfl
@[simp] theorem Hub.put_sem (h : Hub) (f : Fld) (v : Nat) : (h.put f v).sem = h.sem := rfl
@[simp] theorem Hub.put_semRel (h : Hub) (f : Fld) (v : Nat) : (h.put f v).semRel = h.semRel := rfl
@[simp] theorem Hub.put_mtime (h : Hub) (f : Fld) (v : Nat) : (h.put f v).mtime = h.mtime := rfl
@[simp] theorem Hub.put_ldr (h : Hub) (f : Fld) (v : Nat) : (h.put f v).ldr = h.ldr := rfl
@[simp] theorem Hub.put_mbx (h : Hub) (f : Fld) (v : Nat) : (h.put f v).mbx = h.mbx := rfl
@[simp] theorem Hub.put_sec (h : Hub) (f : Fld) (v : Nat) : (h.put f v).sec = h.sec := rfl
@[simp] theorem Hub.put_pwr (h : Hub) (f : Fld) (v : Nat) : (h.put f v).pwr = h.pwr := rfl
@[simp] theorem Hub.put_bel (h : Hub) (f : Fld) (v : Nat) : (h.put f v).bel = h.bel := rfl
@[simp] theorem Hub.put_statAt (h : Hub) (f : Fld) (v : Nat) : (h.put f v).statAt = h.statAt := rfl
@[simp] theorem Hub.put_dram (h : Hub) (f : Fld) (v : Nat) : (h.put f v).dram = h.dram := rfl
@[simp] theorem Hub.put_ts (h : Hub) (f : Fld) (v : Nat) : (h.put f v).ts = h.ts := rfl

/-! ## mark -/

@[simp] theorem Hub.mark_now (h : Hub) (k n : Nat) : (h.mark k n).now = h.now := rfl
@[simp] theorem Hub.mark_freeCtr (h : Hub) (k n : Nat) : (h.mark k n).freeCtr = h.freeCtr := rfl
@[simp] theorem Hub.mark_fields (h : Hub) (k n : Nat) : (h.mark k n).fields = h.fields := rfl
@[simp] theorem Hub.mark_hw (h : Hub) (k n : Nat) : (h.mark k n).hw = h.hw.set 0 k n := rfl
@[simp] theorem Hub.mark_wrote (h : Hub) (k n : Nat) : (h.mark k n).wrote = h.wrote := rfl
@[simp] theorem Hub.mark_staged (h : Hub) (k n : Nat) : (h.mark k n).staged = h.staged := rfl
@[simp] theorem Hub.mark_snap (h : Hub) (k n : Nat) : (h.mark k n).snap = h.snap := rfl
@[simp] theorem Hub.mark_bank (h : Hub) (k n : Nat) : (h.mark k n).bank = h.bank := rfl
@[simp] theorem Hub.mark_out (h : Hub) (k n : Nat) : (h.mark k n).out = h.out := rfl
@[simp] theorem Hub.mark_gno (h : Hub) (k n : Nat) : (h.mark k n).gno = h.gno := rfl
@[simp] theorem Hub.mark_lanes (h : Hub) (k n : Nat) : (h.mark k n).lanes = h.lanes := rfl
@[simp] theorem Hub.mark_err (h : Hub) (k n : Nat) : (h.mark k n).err = h.err := rfl
@[simp] theorem Hub.mark_fuse (h : Hub) (k n : Nat) : (h.mark k n).fuse = h.fuse := rfl
@[simp] theorem Hub.mark_dl (h : Hub) (k n : Nat) : (h.mark k n).dl = h.dl := rfl
@[simp] theorem Hub.mark_tl (h : Hub) (k n : Nat) : (h.mark k n).tl = h.tl := rfl
@[simp] theorem Hub.mark_pim (h : Hub) (k n : Nat) : (h.mark k n).pim = h.pim := rfl
@[simp] theorem Hub.mark_core (h : Hub) (k n : Nat) : (h.mark k n).core = h.core := rfl
@[simp] theorem Hub.mark_reed (h : Hub) (k n : Nat) : (h.mark k n).reed = h.reed := rfl
@[simp] theorem Hub.mark_sw (h : Hub) (k n : Nat) : (h.mark k n).sw = h.sw := rfl
@[simp] theorem Hub.mark_ring (h : Hub) (k n : Nat) : (h.mark k n).ring = h.ring := rfl
@[simp] theorem Hub.mark_brg (h : Hub) (k n : Nat) : (h.mark k n).brg = h.brg := rfl
@[simp] theorem Hub.mark_hst (h : Hub) (k n : Nat) : (h.mark k n).hst = h.hst := rfl
@[simp] theorem Hub.mark_can (h : Hub) (k n : Nat) : (h.mark k n).can = h.can := rfl
@[simp] theorem Hub.mark_bank3 (h : Hub) (k n : Nat) : (h.mark k n).bank3 = h.bank3 := rfl
@[simp] theorem Hub.mark_monOff (h : Hub) (k n : Nat) : (h.mark k n).monOff = h.monOff := rfl
@[simp] theorem Hub.mark_link (h : Hub) (k n : Nat) : (h.mark k n).link = h.link := rfl
@[simp] theorem Hub.mark_drn (h : Hub) (k n : Nat) : (h.mark k n).drn = h.drn := rfl
@[simp] theorem Hub.mark_lamp (h : Hub) (k n : Nat) : (h.mark k n).lamp = h.lamp := rfl
@[simp] theorem Hub.mark_sem (h : Hub) (k n : Nat) : (h.mark k n).sem = h.sem := rfl
@[simp] theorem Hub.mark_semRel (h : Hub) (k n : Nat) : (h.mark k n).semRel = h.semRel := rfl
@[simp] theorem Hub.mark_mtime (h : Hub) (k n : Nat) : (h.mark k n).mtime = h.mtime := rfl
@[simp] theorem Hub.mark_ldr (h : Hub) (k n : Nat) : (h.mark k n).ldr = h.ldr := rfl
@[simp] theorem Hub.mark_mbx (h : Hub) (k n : Nat) : (h.mark k n).mbx = h.mbx := rfl
@[simp] theorem Hub.mark_sec (h : Hub) (k n : Nat) : (h.mark k n).sec = h.sec := rfl
@[simp] theorem Hub.mark_pwr (h : Hub) (k n : Nat) : (h.mark k n).pwr = h.pwr := rfl
@[simp] theorem Hub.mark_bel (h : Hub) (k n : Nat) : (h.mark k n).bel = h.bel := rfl
@[simp] theorem Hub.mark_statAt (h : Hub) (k n : Nat) : (h.mark k n).statAt = h.statAt := rfl
@[simp] theorem Hub.mark_dram (h : Hub) (k n : Nat) : (h.mark k n).dram = h.dram := rfl
@[simp] theorem Hub.mark_ts (h : Hub) (k n : Nat) : (h.mark k n).ts = h.ts := rfl
@[simp] theorem Hub.mark_fld (h : Hub) (k n : Nat) (f : Fld) : (h.mark k n).fld f = h.fld f := rfl
@[simp] theorem Hub.mark_bit (h : Hub) (k n : Nat) (f : Fld) : (h.mark k n).bit f = h.bit f := rfl

/-! ## hwSet -/

@[simp] theorem Hub.hwSet_now (h : Hub) (f : Fld) (v : Nat) : (h.hwSet f v).now = h.now := rfl
@[simp] theorem Hub.hwSet_freeCtr (h : Hub) (f : Fld) (v : Nat) : (h.hwSet f v).freeCtr = h.freeCtr := rfl
@[simp] theorem Hub.hwSet_fields (h : Hub) (f : Fld) (v : Nat) : (h.hwSet f v).fields = (h.put f (h.fld f ||| v)).fields := rfl
@[simp] theorem Hub.hwSet_hw (h : Hub) (f : Fld) (v : Nat) : (h.hwSet f v).hw = h.hw.set 0 f.key (h.hwOn f.key ||| v) := rfl
@[simp] theorem Hub.hwSet_wrote (h : Hub) (f : Fld) (v : Nat) : (h.hwSet f v).wrote = h.wrote := rfl
@[simp] theorem Hub.hwSet_staged (h : Hub) (f : Fld) (v : Nat) : (h.hwSet f v).staged = h.staged := rfl
@[simp] theorem Hub.hwSet_snap (h : Hub) (f : Fld) (v : Nat) : (h.hwSet f v).snap = h.snap := rfl
@[simp] theorem Hub.hwSet_bank (h : Hub) (f : Fld) (v : Nat) : (h.hwSet f v).bank = h.bank := rfl
@[simp] theorem Hub.hwSet_out (h : Hub) (f : Fld) (v : Nat) : (h.hwSet f v).out = h.out := rfl
@[simp] theorem Hub.hwSet_gno (h : Hub) (f : Fld) (v : Nat) : (h.hwSet f v).gno = h.gno := rfl
@[simp] theorem Hub.hwSet_lanes (h : Hub) (f : Fld) (v : Nat) : (h.hwSet f v).lanes = h.lanes := rfl
@[simp] theorem Hub.hwSet_err (h : Hub) (f : Fld) (v : Nat) : (h.hwSet f v).err = h.err := rfl
@[simp] theorem Hub.hwSet_fuse (h : Hub) (f : Fld) (v : Nat) : (h.hwSet f v).fuse = h.fuse := rfl
@[simp] theorem Hub.hwSet_dl (h : Hub) (f : Fld) (v : Nat) : (h.hwSet f v).dl = h.dl := rfl
@[simp] theorem Hub.hwSet_tl (h : Hub) (f : Fld) (v : Nat) : (h.hwSet f v).tl = h.tl := rfl
@[simp] theorem Hub.hwSet_pim (h : Hub) (f : Fld) (v : Nat) : (h.hwSet f v).pim = h.pim := rfl
@[simp] theorem Hub.hwSet_core (h : Hub) (f : Fld) (v : Nat) : (h.hwSet f v).core = h.core := rfl
@[simp] theorem Hub.hwSet_reed (h : Hub) (f : Fld) (v : Nat) : (h.hwSet f v).reed = h.reed := rfl
@[simp] theorem Hub.hwSet_sw (h : Hub) (f : Fld) (v : Nat) : (h.hwSet f v).sw = h.sw := rfl
@[simp] theorem Hub.hwSet_ring (h : Hub) (f : Fld) (v : Nat) : (h.hwSet f v).ring = h.ring := rfl
@[simp] theorem Hub.hwSet_brg (h : Hub) (f : Fld) (v : Nat) : (h.hwSet f v).brg = h.brg := rfl
@[simp] theorem Hub.hwSet_hst (h : Hub) (f : Fld) (v : Nat) : (h.hwSet f v).hst = h.hst := rfl
@[simp] theorem Hub.hwSet_can (h : Hub) (f : Fld) (v : Nat) : (h.hwSet f v).can = h.can := rfl
@[simp] theorem Hub.hwSet_bank3 (h : Hub) (f : Fld) (v : Nat) : (h.hwSet f v).bank3 = h.bank3 := rfl
@[simp] theorem Hub.hwSet_monOff (h : Hub) (f : Fld) (v : Nat) : (h.hwSet f v).monOff = h.monOff := rfl
@[simp] theorem Hub.hwSet_link (h : Hub) (f : Fld) (v : Nat) : (h.hwSet f v).link = h.link := rfl
@[simp] theorem Hub.hwSet_drn (h : Hub) (f : Fld) (v : Nat) : (h.hwSet f v).drn = h.drn := rfl
@[simp] theorem Hub.hwSet_lamp (h : Hub) (f : Fld) (v : Nat) : (h.hwSet f v).lamp = h.lamp := rfl
@[simp] theorem Hub.hwSet_sem (h : Hub) (f : Fld) (v : Nat) : (h.hwSet f v).sem = h.sem := rfl
@[simp] theorem Hub.hwSet_semRel (h : Hub) (f : Fld) (v : Nat) : (h.hwSet f v).semRel = h.semRel := rfl
@[simp] theorem Hub.hwSet_mtime (h : Hub) (f : Fld) (v : Nat) : (h.hwSet f v).mtime = h.mtime := rfl
@[simp] theorem Hub.hwSet_ldr (h : Hub) (f : Fld) (v : Nat) : (h.hwSet f v).ldr = h.ldr := rfl
@[simp] theorem Hub.hwSet_mbx (h : Hub) (f : Fld) (v : Nat) : (h.hwSet f v).mbx = h.mbx := rfl
@[simp] theorem Hub.hwSet_sec (h : Hub) (f : Fld) (v : Nat) : (h.hwSet f v).sec = h.sec := rfl
@[simp] theorem Hub.hwSet_pwr (h : Hub) (f : Fld) (v : Nat) : (h.hwSet f v).pwr = h.pwr := rfl
@[simp] theorem Hub.hwSet_bel (h : Hub) (f : Fld) (v : Nat) : (h.hwSet f v).bel = h.bel := rfl
@[simp] theorem Hub.hwSet_statAt (h : Hub) (f : Fld) (v : Nat) : (h.hwSet f v).statAt = h.statAt := rfl
@[simp] theorem Hub.hwSet_dram (h : Hub) (f : Fld) (v : Nat) : (h.hwSet f v).dram = h.dram := rfl
@[simp] theorem Hub.hwSet_ts (h : Hub) (f : Fld) (v : Nat) : (h.hwSet f v).ts = h.ts := rfl

/-! ## emit -/

@[simp] theorem Hub.emit_now (h : Hub) (o : Out) : (h.emit o).now = h.now := rfl
@[simp] theorem Hub.emit_freeCtr (h : Hub) (o : Out) : (h.emit o).freeCtr = h.freeCtr := rfl
@[simp] theorem Hub.emit_fields (h : Hub) (o : Out) : (h.emit o).fields = h.fields := rfl
@[simp] theorem Hub.emit_hw (h : Hub) (o : Out) : (h.emit o).hw = h.hw := rfl
@[simp] theorem Hub.emit_wrote (h : Hub) (o : Out) : (h.emit o).wrote = h.wrote := rfl
@[simp] theorem Hub.emit_staged (h : Hub) (o : Out) : (h.emit o).staged = h.staged := rfl
@[simp] theorem Hub.emit_snap (h : Hub) (o : Out) : (h.emit o).snap = h.snap := rfl
@[simp] theorem Hub.emit_bank (h : Hub) (o : Out) : (h.emit o).bank = h.bank := rfl
@[simp] theorem Hub.emit_out (h : Hub) (o : Out) : (h.emit o).out = o :: h.out := rfl
@[simp] theorem Hub.emit_gno (h : Hub) (o : Out) : (h.emit o).gno = h.gno := rfl
@[simp] theorem Hub.emit_lanes (h : Hub) (o : Out) : (h.emit o).lanes = h.lanes := rfl
@[simp] theorem Hub.emit_err (h : Hub) (o : Out) : (h.emit o).err = h.err := rfl
@[simp] theorem Hub.emit_fuse (h : Hub) (o : Out) : (h.emit o).fuse = h.fuse := rfl
@[simp] theorem Hub.emit_dl (h : Hub) (o : Out) : (h.emit o).dl = h.dl := rfl
@[simp] theorem Hub.emit_tl (h : Hub) (o : Out) : (h.emit o).tl = h.tl := rfl
@[simp] theorem Hub.emit_pim (h : Hub) (o : Out) : (h.emit o).pim = h.pim := rfl
@[simp] theorem Hub.emit_core (h : Hub) (o : Out) : (h.emit o).core = h.core := rfl
@[simp] theorem Hub.emit_reed (h : Hub) (o : Out) : (h.emit o).reed = h.reed := rfl
@[simp] theorem Hub.emit_sw (h : Hub) (o : Out) : (h.emit o).sw = h.sw := rfl
@[simp] theorem Hub.emit_ring (h : Hub) (o : Out) : (h.emit o).ring = h.ring := rfl
@[simp] theorem Hub.emit_brg (h : Hub) (o : Out) : (h.emit o).brg = h.brg := rfl
@[simp] theorem Hub.emit_hst (h : Hub) (o : Out) : (h.emit o).hst = h.hst := rfl
@[simp] theorem Hub.emit_can (h : Hub) (o : Out) : (h.emit o).can = h.can := rfl
@[simp] theorem Hub.emit_bank3 (h : Hub) (o : Out) : (h.emit o).bank3 = h.bank3 := rfl
@[simp] theorem Hub.emit_monOff (h : Hub) (o : Out) : (h.emit o).monOff = h.monOff := rfl
@[simp] theorem Hub.emit_link (h : Hub) (o : Out) : (h.emit o).link = h.link := rfl
@[simp] theorem Hub.emit_drn (h : Hub) (o : Out) : (h.emit o).drn = h.drn := rfl
@[simp] theorem Hub.emit_lamp (h : Hub) (o : Out) : (h.emit o).lamp = h.lamp := rfl
@[simp] theorem Hub.emit_sem (h : Hub) (o : Out) : (h.emit o).sem = h.sem := rfl
@[simp] theorem Hub.emit_semRel (h : Hub) (o : Out) : (h.emit o).semRel = h.semRel := rfl
@[simp] theorem Hub.emit_mtime (h : Hub) (o : Out) : (h.emit o).mtime = h.mtime := rfl
@[simp] theorem Hub.emit_ldr (h : Hub) (o : Out) : (h.emit o).ldr = h.ldr := rfl
@[simp] theorem Hub.emit_mbx (h : Hub) (o : Out) : (h.emit o).mbx = h.mbx := rfl
@[simp] theorem Hub.emit_sec (h : Hub) (o : Out) : (h.emit o).sec = h.sec := rfl
@[simp] theorem Hub.emit_pwr (h : Hub) (o : Out) : (h.emit o).pwr = h.pwr := rfl
@[simp] theorem Hub.emit_bel (h : Hub) (o : Out) : (h.emit o).bel = h.bel := rfl
@[simp] theorem Hub.emit_statAt (h : Hub) (o : Out) : (h.emit o).statAt = h.statAt := rfl
@[simp] theorem Hub.emit_dram (h : Hub) (o : Out) : (h.emit o).dram = h.dram := rfl
@[simp] theorem Hub.emit_ts (h : Hub) (o : Out) : (h.emit o).ts = h.ts := rfl
@[simp] theorem Hub.emit_fld (h : Hub) (o : Out) (f : Fld) : (h.emit o).fld f = h.fld f := rfl
@[simp] theorem Hub.emit_bit (h : Hub) (o : Out) (f : Fld) : (h.emit o).bit f = h.bit f := rfl

/-! ## modLane -/

@[simp] theorem Hub.modLane_now (h : Hub) (n : Fin 64) (g : Lane → Lane) : (h.modLane n g).now = h.now := rfl
@[simp] theorem Hub.modLane_freeCtr (h : Hub) (n : Fin 64) (g : Lane → Lane) : (h.modLane n g).freeCtr = h.freeCtr := rfl
@[simp] theorem Hub.modLane_fields (h : Hub) (n : Fin 64) (g : Lane → Lane) : (h.modLane n g).fields = h.fields := rfl
@[simp] theorem Hub.modLane_hw (h : Hub) (n : Fin 64) (g : Lane → Lane) : (h.modLane n g).hw = h.hw := rfl
@[simp] theorem Hub.modLane_wrote (h : Hub) (n : Fin 64) (g : Lane → Lane) : (h.modLane n g).wrote = h.wrote := rfl
@[simp] theorem Hub.modLane_staged (h : Hub) (n : Fin 64) (g : Lane → Lane) : (h.modLane n g).staged = h.staged := rfl
@[simp] theorem Hub.modLane_snap (h : Hub) (n : Fin 64) (g : Lane → Lane) : (h.modLane n g).snap = h.snap := rfl
@[simp] theorem Hub.modLane_bank (h : Hub) (n : Fin 64) (g : Lane → Lane) : (h.modLane n g).bank = h.bank := rfl
@[simp] theorem Hub.modLane_out (h : Hub) (n : Fin 64) (g : Lane → Lane) : (h.modLane n g).out = h.out := rfl
@[simp] theorem Hub.modLane_gno (h : Hub) (n : Fin 64) (g : Lane → Lane) : (h.modLane n g).gno = h.gno := rfl
@[simp] theorem Hub.modLane_lanes (h : Hub) (n : Fin 64) (g : Lane → Lane) : (h.modLane n g).lanes = h.lanes.set n (g h.lanes[n]) := rfl
@[simp] theorem Hub.modLane_err (h : Hub) (n : Fin 64) (g : Lane → Lane) : (h.modLane n g).err = h.err := rfl
@[simp] theorem Hub.modLane_fuse (h : Hub) (n : Fin 64) (g : Lane → Lane) : (h.modLane n g).fuse = h.fuse := rfl
@[simp] theorem Hub.modLane_dl (h : Hub) (n : Fin 64) (g : Lane → Lane) : (h.modLane n g).dl = h.dl := rfl
@[simp] theorem Hub.modLane_tl (h : Hub) (n : Fin 64) (g : Lane → Lane) : (h.modLane n g).tl = h.tl := rfl
@[simp] theorem Hub.modLane_pim (h : Hub) (n : Fin 64) (g : Lane → Lane) : (h.modLane n g).pim = h.pim := rfl
@[simp] theorem Hub.modLane_core (h : Hub) (n : Fin 64) (g : Lane → Lane) : (h.modLane n g).core = h.core := rfl
@[simp] theorem Hub.modLane_reed (h : Hub) (n : Fin 64) (g : Lane → Lane) : (h.modLane n g).reed = h.reed := rfl
@[simp] theorem Hub.modLane_sw (h : Hub) (n : Fin 64) (g : Lane → Lane) : (h.modLane n g).sw = h.sw := rfl
@[simp] theorem Hub.modLane_ring (h : Hub) (n : Fin 64) (g : Lane → Lane) : (h.modLane n g).ring = h.ring := rfl
@[simp] theorem Hub.modLane_brg (h : Hub) (n : Fin 64) (g : Lane → Lane) : (h.modLane n g).brg = h.brg := rfl
@[simp] theorem Hub.modLane_hst (h : Hub) (n : Fin 64) (g : Lane → Lane) : (h.modLane n g).hst = h.hst := rfl
@[simp] theorem Hub.modLane_can (h : Hub) (n : Fin 64) (g : Lane → Lane) : (h.modLane n g).can = h.can := rfl
@[simp] theorem Hub.modLane_bank3 (h : Hub) (n : Fin 64) (g : Lane → Lane) : (h.modLane n g).bank3 = h.bank3 := rfl
@[simp] theorem Hub.modLane_monOff (h : Hub) (n : Fin 64) (g : Lane → Lane) : (h.modLane n g).monOff = h.monOff := rfl
@[simp] theorem Hub.modLane_link (h : Hub) (n : Fin 64) (g : Lane → Lane) : (h.modLane n g).link = h.link := rfl
@[simp] theorem Hub.modLane_drn (h : Hub) (n : Fin 64) (g : Lane → Lane) : (h.modLane n g).drn = h.drn := rfl
@[simp] theorem Hub.modLane_lamp (h : Hub) (n : Fin 64) (g : Lane → Lane) : (h.modLane n g).lamp = h.lamp := rfl
@[simp] theorem Hub.modLane_sem (h : Hub) (n : Fin 64) (g : Lane → Lane) : (h.modLane n g).sem = h.sem := rfl
@[simp] theorem Hub.modLane_semRel (h : Hub) (n : Fin 64) (g : Lane → Lane) : (h.modLane n g).semRel = h.semRel := rfl
@[simp] theorem Hub.modLane_mtime (h : Hub) (n : Fin 64) (g : Lane → Lane) : (h.modLane n g).mtime = h.mtime := rfl
@[simp] theorem Hub.modLane_ldr (h : Hub) (n : Fin 64) (g : Lane → Lane) : (h.modLane n g).ldr = h.ldr := rfl
@[simp] theorem Hub.modLane_mbx (h : Hub) (n : Fin 64) (g : Lane → Lane) : (h.modLane n g).mbx = h.mbx := rfl
@[simp] theorem Hub.modLane_sec (h : Hub) (n : Fin 64) (g : Lane → Lane) : (h.modLane n g).sec = h.sec := rfl
@[simp] theorem Hub.modLane_pwr (h : Hub) (n : Fin 64) (g : Lane → Lane) : (h.modLane n g).pwr = h.pwr := rfl
@[simp] theorem Hub.modLane_bel (h : Hub) (n : Fin 64) (g : Lane → Lane) : (h.modLane n g).bel = h.bel := rfl
@[simp] theorem Hub.modLane_statAt (h : Hub) (n : Fin 64) (g : Lane → Lane) : (h.modLane n g).statAt = h.statAt := rfl
@[simp] theorem Hub.modLane_dram (h : Hub) (n : Fin 64) (g : Lane → Lane) : (h.modLane n g).dram = h.dram := rfl
@[simp] theorem Hub.modLane_ts (h : Hub) (n : Fin 64) (g : Lane → Lane) : (h.modLane n g).ts = h.ts := rfl
@[simp] theorem Hub.modLane_fld (h : Hub) (n : Fin 64) (g : Lane → Lane) (f : Fld) : (h.modLane n g).fld f = h.fld f := rfl
@[simp] theorem Hub.modLane_bit (h : Hub) (n : Fin 64) (g : Lane → Lane) (f : Fld) : (h.modLane n g).bit f = h.bit f := rfl

/-! ## modCore -/

@[simp] theorem Hub.modCore_now (h : Hub) (n : Fin 8) (g : Core → Core) : (h.modCore n g).now = h.now := rfl
@[simp] theorem Hub.modCore_freeCtr (h : Hub) (n : Fin 8) (g : Core → Core) : (h.modCore n g).freeCtr = h.freeCtr := rfl
@[simp] theorem Hub.modCore_fields (h : Hub) (n : Fin 8) (g : Core → Core) : (h.modCore n g).fields = h.fields := rfl
@[simp] theorem Hub.modCore_hw (h : Hub) (n : Fin 8) (g : Core → Core) : (h.modCore n g).hw = h.hw := rfl
@[simp] theorem Hub.modCore_wrote (h : Hub) (n : Fin 8) (g : Core → Core) : (h.modCore n g).wrote = h.wrote := rfl
@[simp] theorem Hub.modCore_staged (h : Hub) (n : Fin 8) (g : Core → Core) : (h.modCore n g).staged = h.staged := rfl
@[simp] theorem Hub.modCore_snap (h : Hub) (n : Fin 8) (g : Core → Core) : (h.modCore n g).snap = h.snap := rfl
@[simp] theorem Hub.modCore_bank (h : Hub) (n : Fin 8) (g : Core → Core) : (h.modCore n g).bank = h.bank := rfl
@[simp] theorem Hub.modCore_out (h : Hub) (n : Fin 8) (g : Core → Core) : (h.modCore n g).out = h.out := rfl
@[simp] theorem Hub.modCore_gno (h : Hub) (n : Fin 8) (g : Core → Core) : (h.modCore n g).gno = h.gno := rfl
@[simp] theorem Hub.modCore_lanes (h : Hub) (n : Fin 8) (g : Core → Core) : (h.modCore n g).lanes = h.lanes := rfl
@[simp] theorem Hub.modCore_err (h : Hub) (n : Fin 8) (g : Core → Core) : (h.modCore n g).err = h.err := rfl
@[simp] theorem Hub.modCore_fuse (h : Hub) (n : Fin 8) (g : Core → Core) : (h.modCore n g).fuse = h.fuse := rfl
@[simp] theorem Hub.modCore_dl (h : Hub) (n : Fin 8) (g : Core → Core) : (h.modCore n g).dl = h.dl := rfl
@[simp] theorem Hub.modCore_tl (h : Hub) (n : Fin 8) (g : Core → Core) : (h.modCore n g).tl = h.tl := rfl
@[simp] theorem Hub.modCore_pim (h : Hub) (n : Fin 8) (g : Core → Core) : (h.modCore n g).pim = h.pim := rfl
@[simp] theorem Hub.modCore_core (h : Hub) (n : Fin 8) (g : Core → Core) : (h.modCore n g).core = h.core.set n (g h.core[n]) := rfl
@[simp] theorem Hub.modCore_reed (h : Hub) (n : Fin 8) (g : Core → Core) : (h.modCore n g).reed = h.reed := rfl
@[simp] theorem Hub.modCore_sw (h : Hub) (n : Fin 8) (g : Core → Core) : (h.modCore n g).sw = h.sw := rfl
@[simp] theorem Hub.modCore_ring (h : Hub) (n : Fin 8) (g : Core → Core) : (h.modCore n g).ring = h.ring := rfl
@[simp] theorem Hub.modCore_brg (h : Hub) (n : Fin 8) (g : Core → Core) : (h.modCore n g).brg = h.brg := rfl
@[simp] theorem Hub.modCore_hst (h : Hub) (n : Fin 8) (g : Core → Core) : (h.modCore n g).hst = h.hst := rfl
@[simp] theorem Hub.modCore_can (h : Hub) (n : Fin 8) (g : Core → Core) : (h.modCore n g).can = h.can := rfl
@[simp] theorem Hub.modCore_bank3 (h : Hub) (n : Fin 8) (g : Core → Core) : (h.modCore n g).bank3 = h.bank3 := rfl
@[simp] theorem Hub.modCore_monOff (h : Hub) (n : Fin 8) (g : Core → Core) : (h.modCore n g).monOff = h.monOff := rfl
@[simp] theorem Hub.modCore_link (h : Hub) (n : Fin 8) (g : Core → Core) : (h.modCore n g).link = h.link := rfl
@[simp] theorem Hub.modCore_drn (h : Hub) (n : Fin 8) (g : Core → Core) : (h.modCore n g).drn = h.drn := rfl
@[simp] theorem Hub.modCore_lamp (h : Hub) (n : Fin 8) (g : Core → Core) : (h.modCore n g).lamp = h.lamp := rfl
@[simp] theorem Hub.modCore_sem (h : Hub) (n : Fin 8) (g : Core → Core) : (h.modCore n g).sem = h.sem := rfl
@[simp] theorem Hub.modCore_semRel (h : Hub) (n : Fin 8) (g : Core → Core) : (h.modCore n g).semRel = h.semRel := rfl
@[simp] theorem Hub.modCore_mtime (h : Hub) (n : Fin 8) (g : Core → Core) : (h.modCore n g).mtime = h.mtime := rfl
@[simp] theorem Hub.modCore_ldr (h : Hub) (n : Fin 8) (g : Core → Core) : (h.modCore n g).ldr = h.ldr := rfl
@[simp] theorem Hub.modCore_mbx (h : Hub) (n : Fin 8) (g : Core → Core) : (h.modCore n g).mbx = h.mbx := rfl
@[simp] theorem Hub.modCore_sec (h : Hub) (n : Fin 8) (g : Core → Core) : (h.modCore n g).sec = h.sec := rfl
@[simp] theorem Hub.modCore_pwr (h : Hub) (n : Fin 8) (g : Core → Core) : (h.modCore n g).pwr = h.pwr := rfl
@[simp] theorem Hub.modCore_bel (h : Hub) (n : Fin 8) (g : Core → Core) : (h.modCore n g).bel = h.bel := rfl
@[simp] theorem Hub.modCore_statAt (h : Hub) (n : Fin 8) (g : Core → Core) : (h.modCore n g).statAt = h.statAt := rfl
@[simp] theorem Hub.modCore_dram (h : Hub) (n : Fin 8) (g : Core → Core) : (h.modCore n g).dram = h.dram := rfl
@[simp] theorem Hub.modCore_ts (h : Hub) (n : Fin 8) (g : Core → Core) : (h.modCore n g).ts = h.ts := rfl
@[simp] theorem Hub.modCore_fld (h : Hub) (n : Fin 8) (g : Core → Core) (f : Fld) : (h.modCore n g).fld f = h.fld f := rfl
@[simp] theorem Hub.modCore_bit (h : Hub) (n : Fin 8) (g : Core → Core) (f : Fld) : (h.modCore n g).bit f = h.bit f := rfl

/-! ## modReed -/

@[simp] theorem Hub.modReed_now (h : Hub) (c : Fin 8) (g : Reed → Reed) : (h.modReed c g).now = h.now := rfl
@[simp] theorem Hub.modReed_freeCtr (h : Hub) (c : Fin 8) (g : Reed → Reed) : (h.modReed c g).freeCtr = h.freeCtr := rfl
@[simp] theorem Hub.modReed_fields (h : Hub) (c : Fin 8) (g : Reed → Reed) : (h.modReed c g).fields = h.fields := rfl
@[simp] theorem Hub.modReed_hw (h : Hub) (c : Fin 8) (g : Reed → Reed) : (h.modReed c g).hw = h.hw := rfl
@[simp] theorem Hub.modReed_wrote (h : Hub) (c : Fin 8) (g : Reed → Reed) : (h.modReed c g).wrote = h.wrote := rfl
@[simp] theorem Hub.modReed_staged (h : Hub) (c : Fin 8) (g : Reed → Reed) : (h.modReed c g).staged = h.staged := rfl
@[simp] theorem Hub.modReed_snap (h : Hub) (c : Fin 8) (g : Reed → Reed) : (h.modReed c g).snap = h.snap := rfl
@[simp] theorem Hub.modReed_bank (h : Hub) (c : Fin 8) (g : Reed → Reed) : (h.modReed c g).bank = h.bank := rfl
@[simp] theorem Hub.modReed_out (h : Hub) (c : Fin 8) (g : Reed → Reed) : (h.modReed c g).out = h.out := rfl
@[simp] theorem Hub.modReed_gno (h : Hub) (c : Fin 8) (g : Reed → Reed) : (h.modReed c g).gno = h.gno := rfl
@[simp] theorem Hub.modReed_lanes (h : Hub) (c : Fin 8) (g : Reed → Reed) : (h.modReed c g).lanes = h.lanes := rfl
@[simp] theorem Hub.modReed_err (h : Hub) (c : Fin 8) (g : Reed → Reed) : (h.modReed c g).err = h.err := rfl
@[simp] theorem Hub.modReed_fuse (h : Hub) (c : Fin 8) (g : Reed → Reed) : (h.modReed c g).fuse = h.fuse := rfl
@[simp] theorem Hub.modReed_dl (h : Hub) (c : Fin 8) (g : Reed → Reed) : (h.modReed c g).dl = h.dl := rfl
@[simp] theorem Hub.modReed_tl (h : Hub) (c : Fin 8) (g : Reed → Reed) : (h.modReed c g).tl = h.tl := rfl
@[simp] theorem Hub.modReed_pim (h : Hub) (c : Fin 8) (g : Reed → Reed) : (h.modReed c g).pim = h.pim := rfl
@[simp] theorem Hub.modReed_core (h : Hub) (c : Fin 8) (g : Reed → Reed) : (h.modReed c g).core = h.core := rfl
@[simp] theorem Hub.modReed_reed (h : Hub) (c : Fin 8) (g : Reed → Reed) : (h.modReed c g).reed = h.reed.set c (g h.reed[c]) := rfl
@[simp] theorem Hub.modReed_sw (h : Hub) (c : Fin 8) (g : Reed → Reed) : (h.modReed c g).sw = h.sw := rfl
@[simp] theorem Hub.modReed_ring (h : Hub) (c : Fin 8) (g : Reed → Reed) : (h.modReed c g).ring = h.ring := rfl
@[simp] theorem Hub.modReed_brg (h : Hub) (c : Fin 8) (g : Reed → Reed) : (h.modReed c g).brg = h.brg := rfl
@[simp] theorem Hub.modReed_hst (h : Hub) (c : Fin 8) (g : Reed → Reed) : (h.modReed c g).hst = h.hst := rfl
@[simp] theorem Hub.modReed_can (h : Hub) (c : Fin 8) (g : Reed → Reed) : (h.modReed c g).can = h.can := rfl
@[simp] theorem Hub.modReed_bank3 (h : Hub) (c : Fin 8) (g : Reed → Reed) : (h.modReed c g).bank3 = h.bank3 := rfl
@[simp] theorem Hub.modReed_monOff (h : Hub) (c : Fin 8) (g : Reed → Reed) : (h.modReed c g).monOff = h.monOff := rfl
@[simp] theorem Hub.modReed_link (h : Hub) (c : Fin 8) (g : Reed → Reed) : (h.modReed c g).link = h.link := rfl
@[simp] theorem Hub.modReed_drn (h : Hub) (c : Fin 8) (g : Reed → Reed) : (h.modReed c g).drn = h.drn := rfl
@[simp] theorem Hub.modReed_lamp (h : Hub) (c : Fin 8) (g : Reed → Reed) : (h.modReed c g).lamp = h.lamp := rfl
@[simp] theorem Hub.modReed_sem (h : Hub) (c : Fin 8) (g : Reed → Reed) : (h.modReed c g).sem = h.sem := rfl
@[simp] theorem Hub.modReed_semRel (h : Hub) (c : Fin 8) (g : Reed → Reed) : (h.modReed c g).semRel = h.semRel := rfl
@[simp] theorem Hub.modReed_mtime (h : Hub) (c : Fin 8) (g : Reed → Reed) : (h.modReed c g).mtime = h.mtime := rfl
@[simp] theorem Hub.modReed_ldr (h : Hub) (c : Fin 8) (g : Reed → Reed) : (h.modReed c g).ldr = h.ldr := rfl
@[simp] theorem Hub.modReed_mbx (h : Hub) (c : Fin 8) (g : Reed → Reed) : (h.modReed c g).mbx = h.mbx := rfl
@[simp] theorem Hub.modReed_sec (h : Hub) (c : Fin 8) (g : Reed → Reed) : (h.modReed c g).sec = h.sec := rfl
@[simp] theorem Hub.modReed_pwr (h : Hub) (c : Fin 8) (g : Reed → Reed) : (h.modReed c g).pwr = h.pwr := rfl
@[simp] theorem Hub.modReed_bel (h : Hub) (c : Fin 8) (g : Reed → Reed) : (h.modReed c g).bel = h.bel := rfl
@[simp] theorem Hub.modReed_statAt (h : Hub) (c : Fin 8) (g : Reed → Reed) : (h.modReed c g).statAt = h.statAt := rfl
@[simp] theorem Hub.modReed_dram (h : Hub) (c : Fin 8) (g : Reed → Reed) : (h.modReed c g).dram = h.dram := rfl
@[simp] theorem Hub.modReed_ts (h : Hub) (c : Fin 8) (g : Reed → Reed) : (h.modReed c g).ts = h.ts := rfl
@[simp] theorem Hub.modReed_fld (h : Hub) (c : Fin 8) (g : Reed → Reed) (f : Fld) : (h.modReed c g).fld f = h.fld f := rfl
@[simp] theorem Hub.modReed_bit (h : Hub) (c : Fin 8) (g : Reed → Reed) (f : Fld) : (h.modReed c g).bit f = h.bit f := rfl

/-! ## modCan -/

@[simp] theorem Hub.modCan_now (h : Hub) (k : Fin 16) (g : Can → Can) : (h.modCan k g).now = h.now := rfl
@[simp] theorem Hub.modCan_freeCtr (h : Hub) (k : Fin 16) (g : Can → Can) : (h.modCan k g).freeCtr = h.freeCtr := rfl
@[simp] theorem Hub.modCan_fields (h : Hub) (k : Fin 16) (g : Can → Can) : (h.modCan k g).fields = h.fields := rfl
@[simp] theorem Hub.modCan_hw (h : Hub) (k : Fin 16) (g : Can → Can) : (h.modCan k g).hw = h.hw := rfl
@[simp] theorem Hub.modCan_wrote (h : Hub) (k : Fin 16) (g : Can → Can) : (h.modCan k g).wrote = h.wrote := rfl
@[simp] theorem Hub.modCan_staged (h : Hub) (k : Fin 16) (g : Can → Can) : (h.modCan k g).staged = h.staged := rfl
@[simp] theorem Hub.modCan_snap (h : Hub) (k : Fin 16) (g : Can → Can) : (h.modCan k g).snap = h.snap := rfl
@[simp] theorem Hub.modCan_bank (h : Hub) (k : Fin 16) (g : Can → Can) : (h.modCan k g).bank = h.bank := rfl
@[simp] theorem Hub.modCan_out (h : Hub) (k : Fin 16) (g : Can → Can) : (h.modCan k g).out = h.out := rfl
@[simp] theorem Hub.modCan_gno (h : Hub) (k : Fin 16) (g : Can → Can) : (h.modCan k g).gno = h.gno := rfl
@[simp] theorem Hub.modCan_lanes (h : Hub) (k : Fin 16) (g : Can → Can) : (h.modCan k g).lanes = h.lanes := rfl
@[simp] theorem Hub.modCan_err (h : Hub) (k : Fin 16) (g : Can → Can) : (h.modCan k g).err = h.err := rfl
@[simp] theorem Hub.modCan_fuse (h : Hub) (k : Fin 16) (g : Can → Can) : (h.modCan k g).fuse = h.fuse := rfl
@[simp] theorem Hub.modCan_dl (h : Hub) (k : Fin 16) (g : Can → Can) : (h.modCan k g).dl = h.dl := rfl
@[simp] theorem Hub.modCan_tl (h : Hub) (k : Fin 16) (g : Can → Can) : (h.modCan k g).tl = h.tl := rfl
@[simp] theorem Hub.modCan_pim (h : Hub) (k : Fin 16) (g : Can → Can) : (h.modCan k g).pim = h.pim := rfl
@[simp] theorem Hub.modCan_core (h : Hub) (k : Fin 16) (g : Can → Can) : (h.modCan k g).core = h.core := rfl
@[simp] theorem Hub.modCan_reed (h : Hub) (k : Fin 16) (g : Can → Can) : (h.modCan k g).reed = h.reed := rfl
@[simp] theorem Hub.modCan_sw (h : Hub) (k : Fin 16) (g : Can → Can) : (h.modCan k g).sw = h.sw := rfl
@[simp] theorem Hub.modCan_ring (h : Hub) (k : Fin 16) (g : Can → Can) : (h.modCan k g).ring = h.ring := rfl
@[simp] theorem Hub.modCan_brg (h : Hub) (k : Fin 16) (g : Can → Can) : (h.modCan k g).brg = h.brg := rfl
@[simp] theorem Hub.modCan_hst (h : Hub) (k : Fin 16) (g : Can → Can) : (h.modCan k g).hst = h.hst := rfl
@[simp] theorem Hub.modCan_can (h : Hub) (k : Fin 16) (g : Can → Can) : (h.modCan k g).can = h.can.set k (g h.can[k]) := rfl
@[simp] theorem Hub.modCan_bank3 (h : Hub) (k : Fin 16) (g : Can → Can) : (h.modCan k g).bank3 = h.bank3 := rfl
@[simp] theorem Hub.modCan_monOff (h : Hub) (k : Fin 16) (g : Can → Can) : (h.modCan k g).monOff = h.monOff := rfl
@[simp] theorem Hub.modCan_link (h : Hub) (k : Fin 16) (g : Can → Can) : (h.modCan k g).link = h.link := rfl
@[simp] theorem Hub.modCan_drn (h : Hub) (k : Fin 16) (g : Can → Can) : (h.modCan k g).drn = h.drn := rfl
@[simp] theorem Hub.modCan_lamp (h : Hub) (k : Fin 16) (g : Can → Can) : (h.modCan k g).lamp = h.lamp := rfl
@[simp] theorem Hub.modCan_sem (h : Hub) (k : Fin 16) (g : Can → Can) : (h.modCan k g).sem = h.sem := rfl
@[simp] theorem Hub.modCan_semRel (h : Hub) (k : Fin 16) (g : Can → Can) : (h.modCan k g).semRel = h.semRel := rfl
@[simp] theorem Hub.modCan_mtime (h : Hub) (k : Fin 16) (g : Can → Can) : (h.modCan k g).mtime = h.mtime := rfl
@[simp] theorem Hub.modCan_ldr (h : Hub) (k : Fin 16) (g : Can → Can) : (h.modCan k g).ldr = h.ldr := rfl
@[simp] theorem Hub.modCan_mbx (h : Hub) (k : Fin 16) (g : Can → Can) : (h.modCan k g).mbx = h.mbx := rfl
@[simp] theorem Hub.modCan_sec (h : Hub) (k : Fin 16) (g : Can → Can) : (h.modCan k g).sec = h.sec := rfl
@[simp] theorem Hub.modCan_pwr (h : Hub) (k : Fin 16) (g : Can → Can) : (h.modCan k g).pwr = h.pwr := rfl
@[simp] theorem Hub.modCan_bel (h : Hub) (k : Fin 16) (g : Can → Can) : (h.modCan k g).bel = h.bel := rfl
@[simp] theorem Hub.modCan_statAt (h : Hub) (k : Fin 16) (g : Can → Can) : (h.modCan k g).statAt = h.statAt := rfl
@[simp] theorem Hub.modCan_dram (h : Hub) (k : Fin 16) (g : Can → Can) : (h.modCan k g).dram = h.dram := rfl
@[simp] theorem Hub.modCan_ts (h : Hub) (k : Fin 16) (g : Can → Can) : (h.modCan k g).ts = h.ts := rfl
@[simp] theorem Hub.modCan_fld (h : Hub) (k : Fin 16) (g : Can → Can) (f : Fld) : (h.modCan k g).fld f = h.fld f := rfl
@[simp] theorem Hub.modCan_bit (h : Hub) (k : Fin 16) (g : Can → Can) (f : Fld) : (h.modCan k g).bit f = h.bit f := rfl

/-! ## modLink -/

@[simp] theorem Hub.modLink_now (h : Hub) (l : Fin 4) (g : LinkSt → LinkSt) : (h.modLink l g).now = h.now := rfl
@[simp] theorem Hub.modLink_freeCtr (h : Hub) (l : Fin 4) (g : LinkSt → LinkSt) : (h.modLink l g).freeCtr = h.freeCtr := rfl
@[simp] theorem Hub.modLink_fields (h : Hub) (l : Fin 4) (g : LinkSt → LinkSt) : (h.modLink l g).fields = h.fields := rfl
@[simp] theorem Hub.modLink_hw (h : Hub) (l : Fin 4) (g : LinkSt → LinkSt) : (h.modLink l g).hw = h.hw := rfl
@[simp] theorem Hub.modLink_wrote (h : Hub) (l : Fin 4) (g : LinkSt → LinkSt) : (h.modLink l g).wrote = h.wrote := rfl
@[simp] theorem Hub.modLink_staged (h : Hub) (l : Fin 4) (g : LinkSt → LinkSt) : (h.modLink l g).staged = h.staged := rfl
@[simp] theorem Hub.modLink_snap (h : Hub) (l : Fin 4) (g : LinkSt → LinkSt) : (h.modLink l g).snap = h.snap := rfl
@[simp] theorem Hub.modLink_bank (h : Hub) (l : Fin 4) (g : LinkSt → LinkSt) : (h.modLink l g).bank = h.bank := rfl
@[simp] theorem Hub.modLink_out (h : Hub) (l : Fin 4) (g : LinkSt → LinkSt) : (h.modLink l g).out = h.out := rfl
@[simp] theorem Hub.modLink_gno (h : Hub) (l : Fin 4) (g : LinkSt → LinkSt) : (h.modLink l g).gno = h.gno := rfl
@[simp] theorem Hub.modLink_lanes (h : Hub) (l : Fin 4) (g : LinkSt → LinkSt) : (h.modLink l g).lanes = h.lanes := rfl
@[simp] theorem Hub.modLink_err (h : Hub) (l : Fin 4) (g : LinkSt → LinkSt) : (h.modLink l g).err = h.err := rfl
@[simp] theorem Hub.modLink_fuse (h : Hub) (l : Fin 4) (g : LinkSt → LinkSt) : (h.modLink l g).fuse = h.fuse := rfl
@[simp] theorem Hub.modLink_dl (h : Hub) (l : Fin 4) (g : LinkSt → LinkSt) : (h.modLink l g).dl = h.dl := rfl
@[simp] theorem Hub.modLink_tl (h : Hub) (l : Fin 4) (g : LinkSt → LinkSt) : (h.modLink l g).tl = h.tl := rfl
@[simp] theorem Hub.modLink_pim (h : Hub) (l : Fin 4) (g : LinkSt → LinkSt) : (h.modLink l g).pim = h.pim := rfl
@[simp] theorem Hub.modLink_core (h : Hub) (l : Fin 4) (g : LinkSt → LinkSt) : (h.modLink l g).core = h.core := rfl
@[simp] theorem Hub.modLink_reed (h : Hub) (l : Fin 4) (g : LinkSt → LinkSt) : (h.modLink l g).reed = h.reed := rfl
@[simp] theorem Hub.modLink_sw (h : Hub) (l : Fin 4) (g : LinkSt → LinkSt) : (h.modLink l g).sw = h.sw := rfl
@[simp] theorem Hub.modLink_ring (h : Hub) (l : Fin 4) (g : LinkSt → LinkSt) : (h.modLink l g).ring = h.ring := rfl
@[simp] theorem Hub.modLink_brg (h : Hub) (l : Fin 4) (g : LinkSt → LinkSt) : (h.modLink l g).brg = h.brg := rfl
@[simp] theorem Hub.modLink_hst (h : Hub) (l : Fin 4) (g : LinkSt → LinkSt) : (h.modLink l g).hst = h.hst := rfl
@[simp] theorem Hub.modLink_can (h : Hub) (l : Fin 4) (g : LinkSt → LinkSt) : (h.modLink l g).can = h.can := rfl
@[simp] theorem Hub.modLink_bank3 (h : Hub) (l : Fin 4) (g : LinkSt → LinkSt) : (h.modLink l g).bank3 = h.bank3 := rfl
@[simp] theorem Hub.modLink_monOff (h : Hub) (l : Fin 4) (g : LinkSt → LinkSt) : (h.modLink l g).monOff = h.monOff := rfl
@[simp] theorem Hub.modLink_link (h : Hub) (l : Fin 4) (g : LinkSt → LinkSt) : (h.modLink l g).link = h.link.set l (g h.link[l]) := rfl
@[simp] theorem Hub.modLink_drn (h : Hub) (l : Fin 4) (g : LinkSt → LinkSt) : (h.modLink l g).drn = h.drn := rfl
@[simp] theorem Hub.modLink_lamp (h : Hub) (l : Fin 4) (g : LinkSt → LinkSt) : (h.modLink l g).lamp = h.lamp := rfl
@[simp] theorem Hub.modLink_sem (h : Hub) (l : Fin 4) (g : LinkSt → LinkSt) : (h.modLink l g).sem = h.sem := rfl
@[simp] theorem Hub.modLink_semRel (h : Hub) (l : Fin 4) (g : LinkSt → LinkSt) : (h.modLink l g).semRel = h.semRel := rfl
@[simp] theorem Hub.modLink_mtime (h : Hub) (l : Fin 4) (g : LinkSt → LinkSt) : (h.modLink l g).mtime = h.mtime := rfl
@[simp] theorem Hub.modLink_ldr (h : Hub) (l : Fin 4) (g : LinkSt → LinkSt) : (h.modLink l g).ldr = h.ldr := rfl
@[simp] theorem Hub.modLink_mbx (h : Hub) (l : Fin 4) (g : LinkSt → LinkSt) : (h.modLink l g).mbx = h.mbx := rfl
@[simp] theorem Hub.modLink_sec (h : Hub) (l : Fin 4) (g : LinkSt → LinkSt) : (h.modLink l g).sec = h.sec := rfl
@[simp] theorem Hub.modLink_pwr (h : Hub) (l : Fin 4) (g : LinkSt → LinkSt) : (h.modLink l g).pwr = h.pwr := rfl
@[simp] theorem Hub.modLink_bel (h : Hub) (l : Fin 4) (g : LinkSt → LinkSt) : (h.modLink l g).bel = h.bel := rfl
@[simp] theorem Hub.modLink_statAt (h : Hub) (l : Fin 4) (g : LinkSt → LinkSt) : (h.modLink l g).statAt = h.statAt := rfl
@[simp] theorem Hub.modLink_dram (h : Hub) (l : Fin 4) (g : LinkSt → LinkSt) : (h.modLink l g).dram = h.dram := rfl
@[simp] theorem Hub.modLink_ts (h : Hub) (l : Fin 4) (g : LinkSt → LinkSt) : (h.modLink l g).ts = h.ts := rfl
@[simp] theorem Hub.modLink_fld (h : Hub) (l : Fin 4) (g : LinkSt → LinkSt) (f : Fld) : (h.modLink l g).fld f = h.fld f := rfl
@[simp] theorem Hub.modLink_bit (h : Hub) (l : Fin 4) (g : LinkSt → LinkSt) (f : Fld) : (h.modLink l g).bit f = h.bit f := rfl

/-! ## modMbx -/

@[simp] theorem Hub.modMbx_now (h : Hub) (k : Fin 4) (g : Mbx → Mbx) : (h.modMbx k g).now = h.now := rfl
@[simp] theorem Hub.modMbx_freeCtr (h : Hub) (k : Fin 4) (g : Mbx → Mbx) : (h.modMbx k g).freeCtr = h.freeCtr := rfl
@[simp] theorem Hub.modMbx_fields (h : Hub) (k : Fin 4) (g : Mbx → Mbx) : (h.modMbx k g).fields = h.fields := rfl
@[simp] theorem Hub.modMbx_hw (h : Hub) (k : Fin 4) (g : Mbx → Mbx) : (h.modMbx k g).hw = h.hw := rfl
@[simp] theorem Hub.modMbx_wrote (h : Hub) (k : Fin 4) (g : Mbx → Mbx) : (h.modMbx k g).wrote = h.wrote := rfl
@[simp] theorem Hub.modMbx_staged (h : Hub) (k : Fin 4) (g : Mbx → Mbx) : (h.modMbx k g).staged = h.staged := rfl
@[simp] theorem Hub.modMbx_snap (h : Hub) (k : Fin 4) (g : Mbx → Mbx) : (h.modMbx k g).snap = h.snap := rfl
@[simp] theorem Hub.modMbx_bank (h : Hub) (k : Fin 4) (g : Mbx → Mbx) : (h.modMbx k g).bank = h.bank := rfl
@[simp] theorem Hub.modMbx_out (h : Hub) (k : Fin 4) (g : Mbx → Mbx) : (h.modMbx k g).out = h.out := rfl
@[simp] theorem Hub.modMbx_gno (h : Hub) (k : Fin 4) (g : Mbx → Mbx) : (h.modMbx k g).gno = h.gno := rfl
@[simp] theorem Hub.modMbx_lanes (h : Hub) (k : Fin 4) (g : Mbx → Mbx) : (h.modMbx k g).lanes = h.lanes := rfl
@[simp] theorem Hub.modMbx_err (h : Hub) (k : Fin 4) (g : Mbx → Mbx) : (h.modMbx k g).err = h.err := rfl
@[simp] theorem Hub.modMbx_fuse (h : Hub) (k : Fin 4) (g : Mbx → Mbx) : (h.modMbx k g).fuse = h.fuse := rfl
@[simp] theorem Hub.modMbx_dl (h : Hub) (k : Fin 4) (g : Mbx → Mbx) : (h.modMbx k g).dl = h.dl := rfl
@[simp] theorem Hub.modMbx_tl (h : Hub) (k : Fin 4) (g : Mbx → Mbx) : (h.modMbx k g).tl = h.tl := rfl
@[simp] theorem Hub.modMbx_pim (h : Hub) (k : Fin 4) (g : Mbx → Mbx) : (h.modMbx k g).pim = h.pim := rfl
@[simp] theorem Hub.modMbx_core (h : Hub) (k : Fin 4) (g : Mbx → Mbx) : (h.modMbx k g).core = h.core := rfl
@[simp] theorem Hub.modMbx_reed (h : Hub) (k : Fin 4) (g : Mbx → Mbx) : (h.modMbx k g).reed = h.reed := rfl
@[simp] theorem Hub.modMbx_sw (h : Hub) (k : Fin 4) (g : Mbx → Mbx) : (h.modMbx k g).sw = h.sw := rfl
@[simp] theorem Hub.modMbx_ring (h : Hub) (k : Fin 4) (g : Mbx → Mbx) : (h.modMbx k g).ring = h.ring := rfl
@[simp] theorem Hub.modMbx_brg (h : Hub) (k : Fin 4) (g : Mbx → Mbx) : (h.modMbx k g).brg = h.brg := rfl
@[simp] theorem Hub.modMbx_hst (h : Hub) (k : Fin 4) (g : Mbx → Mbx) : (h.modMbx k g).hst = h.hst := rfl
@[simp] theorem Hub.modMbx_can (h : Hub) (k : Fin 4) (g : Mbx → Mbx) : (h.modMbx k g).can = h.can := rfl
@[simp] theorem Hub.modMbx_bank3 (h : Hub) (k : Fin 4) (g : Mbx → Mbx) : (h.modMbx k g).bank3 = h.bank3 := rfl
@[simp] theorem Hub.modMbx_monOff (h : Hub) (k : Fin 4) (g : Mbx → Mbx) : (h.modMbx k g).monOff = h.monOff := rfl
@[simp] theorem Hub.modMbx_link (h : Hub) (k : Fin 4) (g : Mbx → Mbx) : (h.modMbx k g).link = h.link := rfl
@[simp] theorem Hub.modMbx_drn (h : Hub) (k : Fin 4) (g : Mbx → Mbx) : (h.modMbx k g).drn = h.drn := rfl
@[simp] theorem Hub.modMbx_lamp (h : Hub) (k : Fin 4) (g : Mbx → Mbx) : (h.modMbx k g).lamp = h.lamp := rfl
@[simp] theorem Hub.modMbx_sem (h : Hub) (k : Fin 4) (g : Mbx → Mbx) : (h.modMbx k g).sem = h.sem := rfl
@[simp] theorem Hub.modMbx_semRel (h : Hub) (k : Fin 4) (g : Mbx → Mbx) : (h.modMbx k g).semRel = h.semRel := rfl
@[simp] theorem Hub.modMbx_mtime (h : Hub) (k : Fin 4) (g : Mbx → Mbx) : (h.modMbx k g).mtime = h.mtime := rfl
@[simp] theorem Hub.modMbx_ldr (h : Hub) (k : Fin 4) (g : Mbx → Mbx) : (h.modMbx k g).ldr = h.ldr := rfl
@[simp] theorem Hub.modMbx_mbx (h : Hub) (k : Fin 4) (g : Mbx → Mbx) : (h.modMbx k g).mbx = h.mbx.set k (g h.mbx[k]) := rfl
@[simp] theorem Hub.modMbx_sec (h : Hub) (k : Fin 4) (g : Mbx → Mbx) : (h.modMbx k g).sec = h.sec := rfl
@[simp] theorem Hub.modMbx_pwr (h : Hub) (k : Fin 4) (g : Mbx → Mbx) : (h.modMbx k g).pwr = h.pwr := rfl
@[simp] theorem Hub.modMbx_bel (h : Hub) (k : Fin 4) (g : Mbx → Mbx) : (h.modMbx k g).bel = h.bel := rfl
@[simp] theorem Hub.modMbx_statAt (h : Hub) (k : Fin 4) (g : Mbx → Mbx) : (h.modMbx k g).statAt = h.statAt := rfl
@[simp] theorem Hub.modMbx_dram (h : Hub) (k : Fin 4) (g : Mbx → Mbx) : (h.modMbx k g).dram = h.dram := rfl
@[simp] theorem Hub.modMbx_ts (h : Hub) (k : Fin 4) (g : Mbx → Mbx) : (h.modMbx k g).ts = h.ts := rfl
@[simp] theorem Hub.modMbx_fld (h : Hub) (k : Fin 4) (g : Mbx → Mbx) (f : Fld) : (h.modMbx k g).fld f = h.fld f := rfl
@[simp] theorem Hub.modMbx_bit (h : Hub) (k : Fin 4) (g : Mbx → Mbx) (f : Fld) : (h.modMbx k g).bit f = h.bit f := rfl

/-! ## modTs -/

@[simp] theorem Hub.modTs_now (h : Hub) (l : Fin 4) (g : Ts → Ts) : (h.modTs l g).now = h.now := rfl
@[simp] theorem Hub.modTs_freeCtr (h : Hub) (l : Fin 4) (g : Ts → Ts) : (h.modTs l g).freeCtr = h.freeCtr := rfl
@[simp] theorem Hub.modTs_fields (h : Hub) (l : Fin 4) (g : Ts → Ts) : (h.modTs l g).fields = h.fields := rfl
@[simp] theorem Hub.modTs_hw (h : Hub) (l : Fin 4) (g : Ts → Ts) : (h.modTs l g).hw = h.hw := rfl
@[simp] theorem Hub.modTs_wrote (h : Hub) (l : Fin 4) (g : Ts → Ts) : (h.modTs l g).wrote = h.wrote := rfl
@[simp] theorem Hub.modTs_staged (h : Hub) (l : Fin 4) (g : Ts → Ts) : (h.modTs l g).staged = h.staged := rfl
@[simp] theorem Hub.modTs_snap (h : Hub) (l : Fin 4) (g : Ts → Ts) : (h.modTs l g).snap = h.snap := rfl
@[simp] theorem Hub.modTs_bank (h : Hub) (l : Fin 4) (g : Ts → Ts) : (h.modTs l g).bank = h.bank := rfl
@[simp] theorem Hub.modTs_out (h : Hub) (l : Fin 4) (g : Ts → Ts) : (h.modTs l g).out = h.out := rfl
@[simp] theorem Hub.modTs_gno (h : Hub) (l : Fin 4) (g : Ts → Ts) : (h.modTs l g).gno = h.gno := rfl
@[simp] theorem Hub.modTs_lanes (h : Hub) (l : Fin 4) (g : Ts → Ts) : (h.modTs l g).lanes = h.lanes := rfl
@[simp] theorem Hub.modTs_err (h : Hub) (l : Fin 4) (g : Ts → Ts) : (h.modTs l g).err = h.err := rfl
@[simp] theorem Hub.modTs_fuse (h : Hub) (l : Fin 4) (g : Ts → Ts) : (h.modTs l g).fuse = h.fuse := rfl
@[simp] theorem Hub.modTs_dl (h : Hub) (l : Fin 4) (g : Ts → Ts) : (h.modTs l g).dl = h.dl := rfl
@[simp] theorem Hub.modTs_tl (h : Hub) (l : Fin 4) (g : Ts → Ts) : (h.modTs l g).tl = h.tl := rfl
@[simp] theorem Hub.modTs_pim (h : Hub) (l : Fin 4) (g : Ts → Ts) : (h.modTs l g).pim = h.pim := rfl
@[simp] theorem Hub.modTs_core (h : Hub) (l : Fin 4) (g : Ts → Ts) : (h.modTs l g).core = h.core := rfl
@[simp] theorem Hub.modTs_reed (h : Hub) (l : Fin 4) (g : Ts → Ts) : (h.modTs l g).reed = h.reed := rfl
@[simp] theorem Hub.modTs_sw (h : Hub) (l : Fin 4) (g : Ts → Ts) : (h.modTs l g).sw = h.sw := rfl
@[simp] theorem Hub.modTs_ring (h : Hub) (l : Fin 4) (g : Ts → Ts) : (h.modTs l g).ring = h.ring := rfl
@[simp] theorem Hub.modTs_brg (h : Hub) (l : Fin 4) (g : Ts → Ts) : (h.modTs l g).brg = h.brg := rfl
@[simp] theorem Hub.modTs_hst (h : Hub) (l : Fin 4) (g : Ts → Ts) : (h.modTs l g).hst = h.hst := rfl
@[simp] theorem Hub.modTs_can (h : Hub) (l : Fin 4) (g : Ts → Ts) : (h.modTs l g).can = h.can := rfl
@[simp] theorem Hub.modTs_bank3 (h : Hub) (l : Fin 4) (g : Ts → Ts) : (h.modTs l g).bank3 = h.bank3 := rfl
@[simp] theorem Hub.modTs_monOff (h : Hub) (l : Fin 4) (g : Ts → Ts) : (h.modTs l g).monOff = h.monOff := rfl
@[simp] theorem Hub.modTs_link (h : Hub) (l : Fin 4) (g : Ts → Ts) : (h.modTs l g).link = h.link := rfl
@[simp] theorem Hub.modTs_drn (h : Hub) (l : Fin 4) (g : Ts → Ts) : (h.modTs l g).drn = h.drn := rfl
@[simp] theorem Hub.modTs_lamp (h : Hub) (l : Fin 4) (g : Ts → Ts) : (h.modTs l g).lamp = h.lamp := rfl
@[simp] theorem Hub.modTs_sem (h : Hub) (l : Fin 4) (g : Ts → Ts) : (h.modTs l g).sem = h.sem := rfl
@[simp] theorem Hub.modTs_semRel (h : Hub) (l : Fin 4) (g : Ts → Ts) : (h.modTs l g).semRel = h.semRel := rfl
@[simp] theorem Hub.modTs_mtime (h : Hub) (l : Fin 4) (g : Ts → Ts) : (h.modTs l g).mtime = h.mtime := rfl
@[simp] theorem Hub.modTs_ldr (h : Hub) (l : Fin 4) (g : Ts → Ts) : (h.modTs l g).ldr = h.ldr := rfl
@[simp] theorem Hub.modTs_mbx (h : Hub) (l : Fin 4) (g : Ts → Ts) : (h.modTs l g).mbx = h.mbx := rfl
@[simp] theorem Hub.modTs_sec (h : Hub) (l : Fin 4) (g : Ts → Ts) : (h.modTs l g).sec = h.sec := rfl
@[simp] theorem Hub.modTs_pwr (h : Hub) (l : Fin 4) (g : Ts → Ts) : (h.modTs l g).pwr = h.pwr := rfl
@[simp] theorem Hub.modTs_bel (h : Hub) (l : Fin 4) (g : Ts → Ts) : (h.modTs l g).bel = h.bel := rfl
@[simp] theorem Hub.modTs_statAt (h : Hub) (l : Fin 4) (g : Ts → Ts) : (h.modTs l g).statAt = h.statAt := rfl
@[simp] theorem Hub.modTs_dram (h : Hub) (l : Fin 4) (g : Ts → Ts) : (h.modTs l g).dram = h.dram := rfl
@[simp] theorem Hub.modTs_ts (h : Hub) (l : Fin 4) (g : Ts → Ts) : (h.modTs l g).ts = h.ts.set l (g h.ts[l]) := rfl
@[simp] theorem Hub.modTs_fld (h : Hub) (l : Fin 4) (g : Ts → Ts) (f : Fld) : (h.modTs l g).fld f = h.fld f := rfl
@[simp] theorem Hub.modTs_bit (h : Hub) (l : Fin 4) (g : Ts → Ts) (f : Fld) : (h.modTs l g).bit f = h.bit f := rfl

/-! ## modGno -/

@[simp] theorem Hub.modGno_now (h : Hub) (g : Gno → Gno) : (h.modGno g).now = h.now := rfl
@[simp] theorem Hub.modGno_freeCtr (h : Hub) (g : Gno → Gno) : (h.modGno g).freeCtr = h.freeCtr := rfl
@[simp] theorem Hub.modGno_fields (h : Hub) (g : Gno → Gno) : (h.modGno g).fields = h.fields := rfl
@[simp] theorem Hub.modGno_hw (h : Hub) (g : Gno → Gno) : (h.modGno g).hw = h.hw := rfl
@[simp] theorem Hub.modGno_wrote (h : Hub) (g : Gno → Gno) : (h.modGno g).wrote = h.wrote := rfl
@[simp] theorem Hub.modGno_staged (h : Hub) (g : Gno → Gno) : (h.modGno g).staged = h.staged := rfl
@[simp] theorem Hub.modGno_snap (h : Hub) (g : Gno → Gno) : (h.modGno g).snap = h.snap := rfl
@[simp] theorem Hub.modGno_bank (h : Hub) (g : Gno → Gno) : (h.modGno g).bank = h.bank := rfl
@[simp] theorem Hub.modGno_out (h : Hub) (g : Gno → Gno) : (h.modGno g).out = h.out := rfl
@[simp] theorem Hub.modGno_gno (h : Hub) (g : Gno → Gno) : (h.modGno g).gno = g h.gno := rfl
@[simp] theorem Hub.modGno_lanes (h : Hub) (g : Gno → Gno) : (h.modGno g).lanes = h.lanes := rfl
@[simp] theorem Hub.modGno_err (h : Hub) (g : Gno → Gno) : (h.modGno g).err = h.err := rfl
@[simp] theorem Hub.modGno_fuse (h : Hub) (g : Gno → Gno) : (h.modGno g).fuse = h.fuse := rfl
@[simp] theorem Hub.modGno_dl (h : Hub) (g : Gno → Gno) : (h.modGno g).dl = h.dl := rfl
@[simp] theorem Hub.modGno_tl (h : Hub) (g : Gno → Gno) : (h.modGno g).tl = h.tl := rfl
@[simp] theorem Hub.modGno_pim (h : Hub) (g : Gno → Gno) : (h.modGno g).pim = h.pim := rfl
@[simp] theorem Hub.modGno_core (h : Hub) (g : Gno → Gno) : (h.modGno g).core = h.core := rfl
@[simp] theorem Hub.modGno_reed (h : Hub) (g : Gno → Gno) : (h.modGno g).reed = h.reed := rfl
@[simp] theorem Hub.modGno_sw (h : Hub) (g : Gno → Gno) : (h.modGno g).sw = h.sw := rfl
@[simp] theorem Hub.modGno_ring (h : Hub) (g : Gno → Gno) : (h.modGno g).ring = h.ring := rfl
@[simp] theorem Hub.modGno_brg (h : Hub) (g : Gno → Gno) : (h.modGno g).brg = h.brg := rfl
@[simp] theorem Hub.modGno_hst (h : Hub) (g : Gno → Gno) : (h.modGno g).hst = h.hst := rfl
@[simp] theorem Hub.modGno_can (h : Hub) (g : Gno → Gno) : (h.modGno g).can = h.can := rfl
@[simp] theorem Hub.modGno_bank3 (h : Hub) (g : Gno → Gno) : (h.modGno g).bank3 = h.bank3 := rfl
@[simp] theorem Hub.modGno_monOff (h : Hub) (g : Gno → Gno) : (h.modGno g).monOff = h.monOff := rfl
@[simp] theorem Hub.modGno_link (h : Hub) (g : Gno → Gno) : (h.modGno g).link = h.link := rfl
@[simp] theorem Hub.modGno_drn (h : Hub) (g : Gno → Gno) : (h.modGno g).drn = h.drn := rfl
@[simp] theorem Hub.modGno_lamp (h : Hub) (g : Gno → Gno) : (h.modGno g).lamp = h.lamp := rfl
@[simp] theorem Hub.modGno_sem (h : Hub) (g : Gno → Gno) : (h.modGno g).sem = h.sem := rfl
@[simp] theorem Hub.modGno_semRel (h : Hub) (g : Gno → Gno) : (h.modGno g).semRel = h.semRel := rfl
@[simp] theorem Hub.modGno_mtime (h : Hub) (g : Gno → Gno) : (h.modGno g).mtime = h.mtime := rfl
@[simp] theorem Hub.modGno_ldr (h : Hub) (g : Gno → Gno) : (h.modGno g).ldr = h.ldr := rfl
@[simp] theorem Hub.modGno_mbx (h : Hub) (g : Gno → Gno) : (h.modGno g).mbx = h.mbx := rfl
@[simp] theorem Hub.modGno_sec (h : Hub) (g : Gno → Gno) : (h.modGno g).sec = h.sec := rfl
@[simp] theorem Hub.modGno_pwr (h : Hub) (g : Gno → Gno) : (h.modGno g).pwr = h.pwr := rfl
@[simp] theorem Hub.modGno_bel (h : Hub) (g : Gno → Gno) : (h.modGno g).bel = h.bel := rfl
@[simp] theorem Hub.modGno_statAt (h : Hub) (g : Gno → Gno) : (h.modGno g).statAt = h.statAt := rfl
@[simp] theorem Hub.modGno_dram (h : Hub) (g : Gno → Gno) : (h.modGno g).dram = h.dram := rfl
@[simp] theorem Hub.modGno_ts (h : Hub) (g : Gno → Gno) : (h.modGno g).ts = h.ts := rfl
@[simp] theorem Hub.modGno_fld (h : Hub) (g : Gno → Gno) (f : Fld) : (h.modGno g).fld f = h.fld f := rfl
@[simp] theorem Hub.modGno_bit (h : Hub) (g : Gno → Gno) (f : Fld) : (h.modGno g).bit f = h.bit f := rfl

/-! ## modBrg -/

@[simp] theorem Hub.modBrg_now (h : Hub) (g : Brg → Brg) : (h.modBrg g).now = h.now := rfl
@[simp] theorem Hub.modBrg_freeCtr (h : Hub) (g : Brg → Brg) : (h.modBrg g).freeCtr = h.freeCtr := rfl
@[simp] theorem Hub.modBrg_fields (h : Hub) (g : Brg → Brg) : (h.modBrg g).fields = h.fields := rfl
@[simp] theorem Hub.modBrg_hw (h : Hub) (g : Brg → Brg) : (h.modBrg g).hw = h.hw := rfl
@[simp] theorem Hub.modBrg_wrote (h : Hub) (g : Brg → Brg) : (h.modBrg g).wrote = h.wrote := rfl
@[simp] theorem Hub.modBrg_staged (h : Hub) (g : Brg → Brg) : (h.modBrg g).staged = h.staged := rfl
@[simp] theorem Hub.modBrg_snap (h : Hub) (g : Brg → Brg) : (h.modBrg g).snap = h.snap := rfl
@[simp] theorem Hub.modBrg_bank (h : Hub) (g : Brg → Brg) : (h.modBrg g).bank = h.bank := rfl
@[simp] theorem Hub.modBrg_out (h : Hub) (g : Brg → Brg) : (h.modBrg g).out = h.out := rfl
@[simp] theorem Hub.modBrg_gno (h : Hub) (g : Brg → Brg) : (h.modBrg g).gno = h.gno := rfl
@[simp] theorem Hub.modBrg_lanes (h : Hub) (g : Brg → Brg) : (h.modBrg g).lanes = h.lanes := rfl
@[simp] theorem Hub.modBrg_err (h : Hub) (g : Brg → Brg) : (h.modBrg g).err = h.err := rfl
@[simp] theorem Hub.modBrg_fuse (h : Hub) (g : Brg → Brg) : (h.modBrg g).fuse = h.fuse := rfl
@[simp] theorem Hub.modBrg_dl (h : Hub) (g : Brg → Brg) : (h.modBrg g).dl = h.dl := rfl
@[simp] theorem Hub.modBrg_tl (h : Hub) (g : Brg → Brg) : (h.modBrg g).tl = h.tl := rfl
@[simp] theorem Hub.modBrg_pim (h : Hub) (g : Brg → Brg) : (h.modBrg g).pim = h.pim := rfl
@[simp] theorem Hub.modBrg_core (h : Hub) (g : Brg → Brg) : (h.modBrg g).core = h.core := rfl
@[simp] theorem Hub.modBrg_reed (h : Hub) (g : Brg → Brg) : (h.modBrg g).reed = h.reed := rfl
@[simp] theorem Hub.modBrg_sw (h : Hub) (g : Brg → Brg) : (h.modBrg g).sw = h.sw := rfl
@[simp] theorem Hub.modBrg_ring (h : Hub) (g : Brg → Brg) : (h.modBrg g).ring = h.ring := rfl
@[simp] theorem Hub.modBrg_brg (h : Hub) (g : Brg → Brg) : (h.modBrg g).brg = g h.brg := rfl
@[simp] theorem Hub.modBrg_hst (h : Hub) (g : Brg → Brg) : (h.modBrg g).hst = h.hst := rfl
@[simp] theorem Hub.modBrg_can (h : Hub) (g : Brg → Brg) : (h.modBrg g).can = h.can := rfl
@[simp] theorem Hub.modBrg_bank3 (h : Hub) (g : Brg → Brg) : (h.modBrg g).bank3 = h.bank3 := rfl
@[simp] theorem Hub.modBrg_monOff (h : Hub) (g : Brg → Brg) : (h.modBrg g).monOff = h.monOff := rfl
@[simp] theorem Hub.modBrg_link (h : Hub) (g : Brg → Brg) : (h.modBrg g).link = h.link := rfl
@[simp] theorem Hub.modBrg_drn (h : Hub) (g : Brg → Brg) : (h.modBrg g).drn = h.drn := rfl
@[simp] theorem Hub.modBrg_lamp (h : Hub) (g : Brg → Brg) : (h.modBrg g).lamp = h.lamp := rfl
@[simp] theorem Hub.modBrg_sem (h : Hub) (g : Brg → Brg) : (h.modBrg g).sem = h.sem := rfl
@[simp] theorem Hub.modBrg_semRel (h : Hub) (g : Brg → Brg) : (h.modBrg g).semRel = h.semRel := rfl
@[simp] theorem Hub.modBrg_mtime (h : Hub) (g : Brg → Brg) : (h.modBrg g).mtime = h.mtime := rfl
@[simp] theorem Hub.modBrg_ldr (h : Hub) (g : Brg → Brg) : (h.modBrg g).ldr = h.ldr := rfl
@[simp] theorem Hub.modBrg_mbx (h : Hub) (g : Brg → Brg) : (h.modBrg g).mbx = h.mbx := rfl
@[simp] theorem Hub.modBrg_sec (h : Hub) (g : Brg → Brg) : (h.modBrg g).sec = h.sec := rfl
@[simp] theorem Hub.modBrg_pwr (h : Hub) (g : Brg → Brg) : (h.modBrg g).pwr = h.pwr := rfl
@[simp] theorem Hub.modBrg_bel (h : Hub) (g : Brg → Brg) : (h.modBrg g).bel = h.bel := rfl
@[simp] theorem Hub.modBrg_statAt (h : Hub) (g : Brg → Brg) : (h.modBrg g).statAt = h.statAt := rfl
@[simp] theorem Hub.modBrg_dram (h : Hub) (g : Brg → Brg) : (h.modBrg g).dram = h.dram := rfl
@[simp] theorem Hub.modBrg_ts (h : Hub) (g : Brg → Brg) : (h.modBrg g).ts = h.ts := rfl
@[simp] theorem Hub.modBrg_fld (h : Hub) (g : Brg → Brg) (f : Fld) : (h.modBrg g).fld f = h.fld f := rfl
@[simp] theorem Hub.modBrg_bit (h : Hub) (g : Brg → Brg) (f : Fld) : (h.modBrg g).bit f = h.bit f := rfl

/-! ## modHst -/

@[simp] theorem Hub.modHst_now (h : Hub) (g : HostPort → HostPort) : (h.modHst g).now = h.now := rfl
@[simp] theorem Hub.modHst_freeCtr (h : Hub) (g : HostPort → HostPort) : (h.modHst g).freeCtr = h.freeCtr := rfl
@[simp] theorem Hub.modHst_fields (h : Hub) (g : HostPort → HostPort) : (h.modHst g).fields = h.fields := rfl
@[simp] theorem Hub.modHst_hw (h : Hub) (g : HostPort → HostPort) : (h.modHst g).hw = h.hw := rfl
@[simp] theorem Hub.modHst_wrote (h : Hub) (g : HostPort → HostPort) : (h.modHst g).wrote = h.wrote := rfl
@[simp] theorem Hub.modHst_staged (h : Hub) (g : HostPort → HostPort) : (h.modHst g).staged = h.staged := rfl
@[simp] theorem Hub.modHst_snap (h : Hub) (g : HostPort → HostPort) : (h.modHst g).snap = h.snap := rfl
@[simp] theorem Hub.modHst_bank (h : Hub) (g : HostPort → HostPort) : (h.modHst g).bank = h.bank := rfl
@[simp] theorem Hub.modHst_out (h : Hub) (g : HostPort → HostPort) : (h.modHst g).out = h.out := rfl
@[simp] theorem Hub.modHst_gno (h : Hub) (g : HostPort → HostPort) : (h.modHst g).gno = h.gno := rfl
@[simp] theorem Hub.modHst_lanes (h : Hub) (g : HostPort → HostPort) : (h.modHst g).lanes = h.lanes := rfl
@[simp] theorem Hub.modHst_err (h : Hub) (g : HostPort → HostPort) : (h.modHst g).err = h.err := rfl
@[simp] theorem Hub.modHst_fuse (h : Hub) (g : HostPort → HostPort) : (h.modHst g).fuse = h.fuse := rfl
@[simp] theorem Hub.modHst_dl (h : Hub) (g : HostPort → HostPort) : (h.modHst g).dl = h.dl := rfl
@[simp] theorem Hub.modHst_tl (h : Hub) (g : HostPort → HostPort) : (h.modHst g).tl = h.tl := rfl
@[simp] theorem Hub.modHst_pim (h : Hub) (g : HostPort → HostPort) : (h.modHst g).pim = h.pim := rfl
@[simp] theorem Hub.modHst_core (h : Hub) (g : HostPort → HostPort) : (h.modHst g).core = h.core := rfl
@[simp] theorem Hub.modHst_reed (h : Hub) (g : HostPort → HostPort) : (h.modHst g).reed = h.reed := rfl
@[simp] theorem Hub.modHst_sw (h : Hub) (g : HostPort → HostPort) : (h.modHst g).sw = h.sw := rfl
@[simp] theorem Hub.modHst_ring (h : Hub) (g : HostPort → HostPort) : (h.modHst g).ring = h.ring := rfl
@[simp] theorem Hub.modHst_brg (h : Hub) (g : HostPort → HostPort) : (h.modHst g).brg = h.brg := rfl
@[simp] theorem Hub.modHst_hst (h : Hub) (g : HostPort → HostPort) : (h.modHst g).hst = g h.hst := rfl
@[simp] theorem Hub.modHst_can (h : Hub) (g : HostPort → HostPort) : (h.modHst g).can = h.can := rfl
@[simp] theorem Hub.modHst_bank3 (h : Hub) (g : HostPort → HostPort) : (h.modHst g).bank3 = h.bank3 := rfl
@[simp] theorem Hub.modHst_monOff (h : Hub) (g : HostPort → HostPort) : (h.modHst g).monOff = h.monOff := rfl
@[simp] theorem Hub.modHst_link (h : Hub) (g : HostPort → HostPort) : (h.modHst g).link = h.link := rfl
@[simp] theorem Hub.modHst_drn (h : Hub) (g : HostPort → HostPort) : (h.modHst g).drn = h.drn := rfl
@[simp] theorem Hub.modHst_lamp (h : Hub) (g : HostPort → HostPort) : (h.modHst g).lamp = h.lamp := rfl
@[simp] theorem Hub.modHst_sem (h : Hub) (g : HostPort → HostPort) : (h.modHst g).sem = h.sem := rfl
@[simp] theorem Hub.modHst_semRel (h : Hub) (g : HostPort → HostPort) : (h.modHst g).semRel = h.semRel := rfl
@[simp] theorem Hub.modHst_mtime (h : Hub) (g : HostPort → HostPort) : (h.modHst g).mtime = h.mtime := rfl
@[simp] theorem Hub.modHst_ldr (h : Hub) (g : HostPort → HostPort) : (h.modHst g).ldr = h.ldr := rfl
@[simp] theorem Hub.modHst_mbx (h : Hub) (g : HostPort → HostPort) : (h.modHst g).mbx = h.mbx := rfl
@[simp] theorem Hub.modHst_sec (h : Hub) (g : HostPort → HostPort) : (h.modHst g).sec = h.sec := rfl
@[simp] theorem Hub.modHst_pwr (h : Hub) (g : HostPort → HostPort) : (h.modHst g).pwr = h.pwr := rfl
@[simp] theorem Hub.modHst_bel (h : Hub) (g : HostPort → HostPort) : (h.modHst g).bel = h.bel := rfl
@[simp] theorem Hub.modHst_statAt (h : Hub) (g : HostPort → HostPort) : (h.modHst g).statAt = h.statAt := rfl
@[simp] theorem Hub.modHst_dram (h : Hub) (g : HostPort → HostPort) : (h.modHst g).dram = h.dram := rfl
@[simp] theorem Hub.modHst_ts (h : Hub) (g : HostPort → HostPort) : (h.modHst g).ts = h.ts := rfl
@[simp] theorem Hub.modHst_fld (h : Hub) (g : HostPort → HostPort) (f : Fld) : (h.modHst g).fld f = h.fld f := rfl
@[simp] theorem Hub.modHst_bit (h : Hub) (g : HostPort → HostPort) (f : Fld) : (h.modHst g).bit f = h.bit f := rfl

/-! ## modDrn -/

@[simp] theorem Hub.modDrn_now (h : Hub) (g : Drn → Drn) : (h.modDrn g).now = h.now := rfl
@[simp] theorem Hub.modDrn_freeCtr (h : Hub) (g : Drn → Drn) : (h.modDrn g).freeCtr = h.freeCtr := rfl
@[simp] theorem Hub.modDrn_fields (h : Hub) (g : Drn → Drn) : (h.modDrn g).fields = h.fields := rfl
@[simp] theorem Hub.modDrn_hw (h : Hub) (g : Drn → Drn) : (h.modDrn g).hw = h.hw := rfl
@[simp] theorem Hub.modDrn_wrote (h : Hub) (g : Drn → Drn) : (h.modDrn g).wrote = h.wrote := rfl
@[simp] theorem Hub.modDrn_staged (h : Hub) (g : Drn → Drn) : (h.modDrn g).staged = h.staged := rfl
@[simp] theorem Hub.modDrn_snap (h : Hub) (g : Drn → Drn) : (h.modDrn g).snap = h.snap := rfl
@[simp] theorem Hub.modDrn_bank (h : Hub) (g : Drn → Drn) : (h.modDrn g).bank = h.bank := rfl
@[simp] theorem Hub.modDrn_out (h : Hub) (g : Drn → Drn) : (h.modDrn g).out = h.out := rfl
@[simp] theorem Hub.modDrn_gno (h : Hub) (g : Drn → Drn) : (h.modDrn g).gno = h.gno := rfl
@[simp] theorem Hub.modDrn_lanes (h : Hub) (g : Drn → Drn) : (h.modDrn g).lanes = h.lanes := rfl
@[simp] theorem Hub.modDrn_err (h : Hub) (g : Drn → Drn) : (h.modDrn g).err = h.err := rfl
@[simp] theorem Hub.modDrn_fuse (h : Hub) (g : Drn → Drn) : (h.modDrn g).fuse = h.fuse := rfl
@[simp] theorem Hub.modDrn_dl (h : Hub) (g : Drn → Drn) : (h.modDrn g).dl = h.dl := rfl
@[simp] theorem Hub.modDrn_tl (h : Hub) (g : Drn → Drn) : (h.modDrn g).tl = h.tl := rfl
@[simp] theorem Hub.modDrn_pim (h : Hub) (g : Drn → Drn) : (h.modDrn g).pim = h.pim := rfl
@[simp] theorem Hub.modDrn_core (h : Hub) (g : Drn → Drn) : (h.modDrn g).core = h.core := rfl
@[simp] theorem Hub.modDrn_reed (h : Hub) (g : Drn → Drn) : (h.modDrn g).reed = h.reed := rfl
@[simp] theorem Hub.modDrn_sw (h : Hub) (g : Drn → Drn) : (h.modDrn g).sw = h.sw := rfl
@[simp] theorem Hub.modDrn_ring (h : Hub) (g : Drn → Drn) : (h.modDrn g).ring = h.ring := rfl
@[simp] theorem Hub.modDrn_brg (h : Hub) (g : Drn → Drn) : (h.modDrn g).brg = h.brg := rfl
@[simp] theorem Hub.modDrn_hst (h : Hub) (g : Drn → Drn) : (h.modDrn g).hst = h.hst := rfl
@[simp] theorem Hub.modDrn_can (h : Hub) (g : Drn → Drn) : (h.modDrn g).can = h.can := rfl
@[simp] theorem Hub.modDrn_bank3 (h : Hub) (g : Drn → Drn) : (h.modDrn g).bank3 = h.bank3 := rfl
@[simp] theorem Hub.modDrn_monOff (h : Hub) (g : Drn → Drn) : (h.modDrn g).monOff = h.monOff := rfl
@[simp] theorem Hub.modDrn_link (h : Hub) (g : Drn → Drn) : (h.modDrn g).link = h.link := rfl
@[simp] theorem Hub.modDrn_drn (h : Hub) (g : Drn → Drn) : (h.modDrn g).drn = g h.drn := rfl
@[simp] theorem Hub.modDrn_lamp (h : Hub) (g : Drn → Drn) : (h.modDrn g).lamp = h.lamp := rfl
@[simp] theorem Hub.modDrn_sem (h : Hub) (g : Drn → Drn) : (h.modDrn g).sem = h.sem := rfl
@[simp] theorem Hub.modDrn_semRel (h : Hub) (g : Drn → Drn) : (h.modDrn g).semRel = h.semRel := rfl
@[simp] theorem Hub.modDrn_mtime (h : Hub) (g : Drn → Drn) : (h.modDrn g).mtime = h.mtime := rfl
@[simp] theorem Hub.modDrn_ldr (h : Hub) (g : Drn → Drn) : (h.modDrn g).ldr = h.ldr := rfl
@[simp] theorem Hub.modDrn_mbx (h : Hub) (g : Drn → Drn) : (h.modDrn g).mbx = h.mbx := rfl
@[simp] theorem Hub.modDrn_sec (h : Hub) (g : Drn → Drn) : (h.modDrn g).sec = h.sec := rfl
@[simp] theorem Hub.modDrn_pwr (h : Hub) (g : Drn → Drn) : (h.modDrn g).pwr = h.pwr := rfl
@[simp] theorem Hub.modDrn_bel (h : Hub) (g : Drn → Drn) : (h.modDrn g).bel = h.bel := rfl
@[simp] theorem Hub.modDrn_statAt (h : Hub) (g : Drn → Drn) : (h.modDrn g).statAt = h.statAt := rfl
@[simp] theorem Hub.modDrn_dram (h : Hub) (g : Drn → Drn) : (h.modDrn g).dram = h.dram := rfl
@[simp] theorem Hub.modDrn_ts (h : Hub) (g : Drn → Drn) : (h.modDrn g).ts = h.ts := rfl
@[simp] theorem Hub.modDrn_fld (h : Hub) (g : Drn → Drn) (f : Fld) : (h.modDrn g).fld f = h.fld f := rfl
@[simp] theorem Hub.modDrn_bit (h : Hub) (g : Drn → Drn) (f : Fld) : (h.modDrn g).bit f = h.bit f := rfl

/-! ## modLamp -/

@[simp] theorem Hub.modLamp_now (h : Hub) (g : Lamp → Lamp) : (h.modLamp g).now = h.now := rfl
@[simp] theorem Hub.modLamp_freeCtr (h : Hub) (g : Lamp → Lamp) : (h.modLamp g).freeCtr = h.freeCtr := rfl
@[simp] theorem Hub.modLamp_fields (h : Hub) (g : Lamp → Lamp) : (h.modLamp g).fields = h.fields := rfl
@[simp] theorem Hub.modLamp_hw (h : Hub) (g : Lamp → Lamp) : (h.modLamp g).hw = h.hw := rfl
@[simp] theorem Hub.modLamp_wrote (h : Hub) (g : Lamp → Lamp) : (h.modLamp g).wrote = h.wrote := rfl
@[simp] theorem Hub.modLamp_staged (h : Hub) (g : Lamp → Lamp) : (h.modLamp g).staged = h.staged := rfl
@[simp] theorem Hub.modLamp_snap (h : Hub) (g : Lamp → Lamp) : (h.modLamp g).snap = h.snap := rfl
@[simp] theorem Hub.modLamp_bank (h : Hub) (g : Lamp → Lamp) : (h.modLamp g).bank = h.bank := rfl
@[simp] theorem Hub.modLamp_out (h : Hub) (g : Lamp → Lamp) : (h.modLamp g).out = h.out := rfl
@[simp] theorem Hub.modLamp_gno (h : Hub) (g : Lamp → Lamp) : (h.modLamp g).gno = h.gno := rfl
@[simp] theorem Hub.modLamp_lanes (h : Hub) (g : Lamp → Lamp) : (h.modLamp g).lanes = h.lanes := rfl
@[simp] theorem Hub.modLamp_err (h : Hub) (g : Lamp → Lamp) : (h.modLamp g).err = h.err := rfl
@[simp] theorem Hub.modLamp_fuse (h : Hub) (g : Lamp → Lamp) : (h.modLamp g).fuse = h.fuse := rfl
@[simp] theorem Hub.modLamp_dl (h : Hub) (g : Lamp → Lamp) : (h.modLamp g).dl = h.dl := rfl
@[simp] theorem Hub.modLamp_tl (h : Hub) (g : Lamp → Lamp) : (h.modLamp g).tl = h.tl := rfl
@[simp] theorem Hub.modLamp_pim (h : Hub) (g : Lamp → Lamp) : (h.modLamp g).pim = h.pim := rfl
@[simp] theorem Hub.modLamp_core (h : Hub) (g : Lamp → Lamp) : (h.modLamp g).core = h.core := rfl
@[simp] theorem Hub.modLamp_reed (h : Hub) (g : Lamp → Lamp) : (h.modLamp g).reed = h.reed := rfl
@[simp] theorem Hub.modLamp_sw (h : Hub) (g : Lamp → Lamp) : (h.modLamp g).sw = h.sw := rfl
@[simp] theorem Hub.modLamp_ring (h : Hub) (g : Lamp → Lamp) : (h.modLamp g).ring = h.ring := rfl
@[simp] theorem Hub.modLamp_brg (h : Hub) (g : Lamp → Lamp) : (h.modLamp g).brg = h.brg := rfl
@[simp] theorem Hub.modLamp_hst (h : Hub) (g : Lamp → Lamp) : (h.modLamp g).hst = h.hst := rfl
@[simp] theorem Hub.modLamp_can (h : Hub) (g : Lamp → Lamp) : (h.modLamp g).can = h.can := rfl
@[simp] theorem Hub.modLamp_bank3 (h : Hub) (g : Lamp → Lamp) : (h.modLamp g).bank3 = h.bank3 := rfl
@[simp] theorem Hub.modLamp_monOff (h : Hub) (g : Lamp → Lamp) : (h.modLamp g).monOff = h.monOff := rfl
@[simp] theorem Hub.modLamp_link (h : Hub) (g : Lamp → Lamp) : (h.modLamp g).link = h.link := rfl
@[simp] theorem Hub.modLamp_drn (h : Hub) (g : Lamp → Lamp) : (h.modLamp g).drn = h.drn := rfl
@[simp] theorem Hub.modLamp_lamp (h : Hub) (g : Lamp → Lamp) : (h.modLamp g).lamp = g h.lamp := rfl
@[simp] theorem Hub.modLamp_sem (h : Hub) (g : Lamp → Lamp) : (h.modLamp g).sem = h.sem := rfl
@[simp] theorem Hub.modLamp_semRel (h : Hub) (g : Lamp → Lamp) : (h.modLamp g).semRel = h.semRel := rfl
@[simp] theorem Hub.modLamp_mtime (h : Hub) (g : Lamp → Lamp) : (h.modLamp g).mtime = h.mtime := rfl
@[simp] theorem Hub.modLamp_ldr (h : Hub) (g : Lamp → Lamp) : (h.modLamp g).ldr = h.ldr := rfl
@[simp] theorem Hub.modLamp_mbx (h : Hub) (g : Lamp → Lamp) : (h.modLamp g).mbx = h.mbx := rfl
@[simp] theorem Hub.modLamp_sec (h : Hub) (g : Lamp → Lamp) : (h.modLamp g).sec = h.sec := rfl
@[simp] theorem Hub.modLamp_pwr (h : Hub) (g : Lamp → Lamp) : (h.modLamp g).pwr = h.pwr := rfl
@[simp] theorem Hub.modLamp_bel (h : Hub) (g : Lamp → Lamp) : (h.modLamp g).bel = h.bel := rfl
@[simp] theorem Hub.modLamp_statAt (h : Hub) (g : Lamp → Lamp) : (h.modLamp g).statAt = h.statAt := rfl
@[simp] theorem Hub.modLamp_dram (h : Hub) (g : Lamp → Lamp) : (h.modLamp g).dram = h.dram := rfl
@[simp] theorem Hub.modLamp_ts (h : Hub) (g : Lamp → Lamp) : (h.modLamp g).ts = h.ts := rfl
@[simp] theorem Hub.modLamp_fld (h : Hub) (g : Lamp → Lamp) (f : Fld) : (h.modLamp g).fld f = h.fld f := rfl
@[simp] theorem Hub.modLamp_bit (h : Hub) (g : Lamp → Lamp) (f : Fld) : (h.modLamp g).bit f = h.bit f := rfl

/-! ## modLdr -/

@[simp] theorem Hub.modLdr_now (h : Hub) (g : Ldr → Ldr) : (h.modLdr g).now = h.now := rfl
@[simp] theorem Hub.modLdr_freeCtr (h : Hub) (g : Ldr → Ldr) : (h.modLdr g).freeCtr = h.freeCtr := rfl
@[simp] theorem Hub.modLdr_fields (h : Hub) (g : Ldr → Ldr) : (h.modLdr g).fields = h.fields := rfl
@[simp] theorem Hub.modLdr_hw (h : Hub) (g : Ldr → Ldr) : (h.modLdr g).hw = h.hw := rfl
@[simp] theorem Hub.modLdr_wrote (h : Hub) (g : Ldr → Ldr) : (h.modLdr g).wrote = h.wrote := rfl
@[simp] theorem Hub.modLdr_staged (h : Hub) (g : Ldr → Ldr) : (h.modLdr g).staged = h.staged := rfl
@[simp] theorem Hub.modLdr_snap (h : Hub) (g : Ldr → Ldr) : (h.modLdr g).snap = h.snap := rfl
@[simp] theorem Hub.modLdr_bank (h : Hub) (g : Ldr → Ldr) : (h.modLdr g).bank = h.bank := rfl
@[simp] theorem Hub.modLdr_out (h : Hub) (g : Ldr → Ldr) : (h.modLdr g).out = h.out := rfl
@[simp] theorem Hub.modLdr_gno (h : Hub) (g : Ldr → Ldr) : (h.modLdr g).gno = h.gno := rfl
@[simp] theorem Hub.modLdr_lanes (h : Hub) (g : Ldr → Ldr) : (h.modLdr g).lanes = h.lanes := rfl
@[simp] theorem Hub.modLdr_err (h : Hub) (g : Ldr → Ldr) : (h.modLdr g).err = h.err := rfl
@[simp] theorem Hub.modLdr_fuse (h : Hub) (g : Ldr → Ldr) : (h.modLdr g).fuse = h.fuse := rfl
@[simp] theorem Hub.modLdr_dl (h : Hub) (g : Ldr → Ldr) : (h.modLdr g).dl = h.dl := rfl
@[simp] theorem Hub.modLdr_tl (h : Hub) (g : Ldr → Ldr) : (h.modLdr g).tl = h.tl := rfl
@[simp] theorem Hub.modLdr_pim (h : Hub) (g : Ldr → Ldr) : (h.modLdr g).pim = h.pim := rfl
@[simp] theorem Hub.modLdr_core (h : Hub) (g : Ldr → Ldr) : (h.modLdr g).core = h.core := rfl
@[simp] theorem Hub.modLdr_reed (h : Hub) (g : Ldr → Ldr) : (h.modLdr g).reed = h.reed := rfl
@[simp] theorem Hub.modLdr_sw (h : Hub) (g : Ldr → Ldr) : (h.modLdr g).sw = h.sw := rfl
@[simp] theorem Hub.modLdr_ring (h : Hub) (g : Ldr → Ldr) : (h.modLdr g).ring = h.ring := rfl
@[simp] theorem Hub.modLdr_brg (h : Hub) (g : Ldr → Ldr) : (h.modLdr g).brg = h.brg := rfl
@[simp] theorem Hub.modLdr_hst (h : Hub) (g : Ldr → Ldr) : (h.modLdr g).hst = h.hst := rfl
@[simp] theorem Hub.modLdr_can (h : Hub) (g : Ldr → Ldr) : (h.modLdr g).can = h.can := rfl
@[simp] theorem Hub.modLdr_bank3 (h : Hub) (g : Ldr → Ldr) : (h.modLdr g).bank3 = h.bank3 := rfl
@[simp] theorem Hub.modLdr_monOff (h : Hub) (g : Ldr → Ldr) : (h.modLdr g).monOff = h.monOff := rfl
@[simp] theorem Hub.modLdr_link (h : Hub) (g : Ldr → Ldr) : (h.modLdr g).link = h.link := rfl
@[simp] theorem Hub.modLdr_drn (h : Hub) (g : Ldr → Ldr) : (h.modLdr g).drn = h.drn := rfl
@[simp] theorem Hub.modLdr_lamp (h : Hub) (g : Ldr → Ldr) : (h.modLdr g).lamp = h.lamp := rfl
@[simp] theorem Hub.modLdr_sem (h : Hub) (g : Ldr → Ldr) : (h.modLdr g).sem = h.sem := rfl
@[simp] theorem Hub.modLdr_semRel (h : Hub) (g : Ldr → Ldr) : (h.modLdr g).semRel = h.semRel := rfl
@[simp] theorem Hub.modLdr_mtime (h : Hub) (g : Ldr → Ldr) : (h.modLdr g).mtime = h.mtime := rfl
@[simp] theorem Hub.modLdr_ldr (h : Hub) (g : Ldr → Ldr) : (h.modLdr g).ldr = g h.ldr := rfl
@[simp] theorem Hub.modLdr_mbx (h : Hub) (g : Ldr → Ldr) : (h.modLdr g).mbx = h.mbx := rfl
@[simp] theorem Hub.modLdr_sec (h : Hub) (g : Ldr → Ldr) : (h.modLdr g).sec = h.sec := rfl
@[simp] theorem Hub.modLdr_pwr (h : Hub) (g : Ldr → Ldr) : (h.modLdr g).pwr = h.pwr := rfl
@[simp] theorem Hub.modLdr_bel (h : Hub) (g : Ldr → Ldr) : (h.modLdr g).bel = h.bel := rfl
@[simp] theorem Hub.modLdr_statAt (h : Hub) (g : Ldr → Ldr) : (h.modLdr g).statAt = h.statAt := rfl
@[simp] theorem Hub.modLdr_dram (h : Hub) (g : Ldr → Ldr) : (h.modLdr g).dram = h.dram := rfl
@[simp] theorem Hub.modLdr_ts (h : Hub) (g : Ldr → Ldr) : (h.modLdr g).ts = h.ts := rfl
@[simp] theorem Hub.modLdr_fld (h : Hub) (g : Ldr → Ldr) (f : Fld) : (h.modLdr g).fld f = h.fld f := rfl
@[simp] theorem Hub.modLdr_bit (h : Hub) (g : Ldr → Ldr) (f : Fld) : (h.modLdr g).bit f = h.bit f := rfl

/-! ## modRing -/

@[simp] theorem Hub.modRing_now (h : Hub) (g : Ring → Ring) : (h.modRing g).now = h.now := rfl
@[simp] theorem Hub.modRing_freeCtr (h : Hub) (g : Ring → Ring) : (h.modRing g).freeCtr = h.freeCtr := rfl
@[simp] theorem Hub.modRing_fields (h : Hub) (g : Ring → Ring) : (h.modRing g).fields = h.fields := rfl
@[simp] theorem Hub.modRing_hw (h : Hub) (g : Ring → Ring) : (h.modRing g).hw = h.hw := rfl
@[simp] theorem Hub.modRing_wrote (h : Hub) (g : Ring → Ring) : (h.modRing g).wrote = h.wrote := rfl
@[simp] theorem Hub.modRing_staged (h : Hub) (g : Ring → Ring) : (h.modRing g).staged = h.staged := rfl
@[simp] theorem Hub.modRing_snap (h : Hub) (g : Ring → Ring) : (h.modRing g).snap = h.snap := rfl
@[simp] theorem Hub.modRing_bank (h : Hub) (g : Ring → Ring) : (h.modRing g).bank = h.bank := rfl
@[simp] theorem Hub.modRing_out (h : Hub) (g : Ring → Ring) : (h.modRing g).out = h.out := rfl
@[simp] theorem Hub.modRing_gno (h : Hub) (g : Ring → Ring) : (h.modRing g).gno = h.gno := rfl
@[simp] theorem Hub.modRing_lanes (h : Hub) (g : Ring → Ring) : (h.modRing g).lanes = h.lanes := rfl
@[simp] theorem Hub.modRing_err (h : Hub) (g : Ring → Ring) : (h.modRing g).err = h.err := rfl
@[simp] theorem Hub.modRing_fuse (h : Hub) (g : Ring → Ring) : (h.modRing g).fuse = h.fuse := rfl
@[simp] theorem Hub.modRing_dl (h : Hub) (g : Ring → Ring) : (h.modRing g).dl = h.dl := rfl
@[simp] theorem Hub.modRing_tl (h : Hub) (g : Ring → Ring) : (h.modRing g).tl = h.tl := rfl
@[simp] theorem Hub.modRing_pim (h : Hub) (g : Ring → Ring) : (h.modRing g).pim = h.pim := rfl
@[simp] theorem Hub.modRing_core (h : Hub) (g : Ring → Ring) : (h.modRing g).core = h.core := rfl
@[simp] theorem Hub.modRing_reed (h : Hub) (g : Ring → Ring) : (h.modRing g).reed = h.reed := rfl
@[simp] theorem Hub.modRing_sw (h : Hub) (g : Ring → Ring) : (h.modRing g).sw = h.sw := rfl
@[simp] theorem Hub.modRing_ring (h : Hub) (g : Ring → Ring) : (h.modRing g).ring = g h.ring := rfl
@[simp] theorem Hub.modRing_brg (h : Hub) (g : Ring → Ring) : (h.modRing g).brg = h.brg := rfl
@[simp] theorem Hub.modRing_hst (h : Hub) (g : Ring → Ring) : (h.modRing g).hst = h.hst := rfl
@[simp] theorem Hub.modRing_can (h : Hub) (g : Ring → Ring) : (h.modRing g).can = h.can := rfl
@[simp] theorem Hub.modRing_bank3 (h : Hub) (g : Ring → Ring) : (h.modRing g).bank3 = h.bank3 := rfl
@[simp] theorem Hub.modRing_monOff (h : Hub) (g : Ring → Ring) : (h.modRing g).monOff = h.monOff := rfl
@[simp] theorem Hub.modRing_link (h : Hub) (g : Ring → Ring) : (h.modRing g).link = h.link := rfl
@[simp] theorem Hub.modRing_drn (h : Hub) (g : Ring → Ring) : (h.modRing g).drn = h.drn := rfl
@[simp] theorem Hub.modRing_lamp (h : Hub) (g : Ring → Ring) : (h.modRing g).lamp = h.lamp := rfl
@[simp] theorem Hub.modRing_sem (h : Hub) (g : Ring → Ring) : (h.modRing g).sem = h.sem := rfl
@[simp] theorem Hub.modRing_semRel (h : Hub) (g : Ring → Ring) : (h.modRing g).semRel = h.semRel := rfl
@[simp] theorem Hub.modRing_mtime (h : Hub) (g : Ring → Ring) : (h.modRing g).mtime = h.mtime := rfl
@[simp] theorem Hub.modRing_ldr (h : Hub) (g : Ring → Ring) : (h.modRing g).ldr = h.ldr := rfl
@[simp] theorem Hub.modRing_mbx (h : Hub) (g : Ring → Ring) : (h.modRing g).mbx = h.mbx := rfl
@[simp] theorem Hub.modRing_sec (h : Hub) (g : Ring → Ring) : (h.modRing g).sec = h.sec := rfl
@[simp] theorem Hub.modRing_pwr (h : Hub) (g : Ring → Ring) : (h.modRing g).pwr = h.pwr := rfl
@[simp] theorem Hub.modRing_bel (h : Hub) (g : Ring → Ring) : (h.modRing g).bel = h.bel := rfl
@[simp] theorem Hub.modRing_statAt (h : Hub) (g : Ring → Ring) : (h.modRing g).statAt = h.statAt := rfl
@[simp] theorem Hub.modRing_dram (h : Hub) (g : Ring → Ring) : (h.modRing g).dram = h.dram := rfl
@[simp] theorem Hub.modRing_ts (h : Hub) (g : Ring → Ring) : (h.modRing g).ts = h.ts := rfl
@[simp] theorem Hub.modRing_fld (h : Hub) (g : Ring → Ring) (f : Fld) : (h.modRing g).fld f = h.fld f := rfl
@[simp] theorem Hub.modRing_bit (h : Hub) (g : Ring → Ring) (f : Fld) : (h.modRing g).bit f = h.bit f := rfl

/-! ## modPwr -/

@[simp] theorem Hub.modPwr_now (h : Hub) (g : Pwr → Pwr) : (h.modPwr g).now = h.now := rfl
@[simp] theorem Hub.modPwr_freeCtr (h : Hub) (g : Pwr → Pwr) : (h.modPwr g).freeCtr = h.freeCtr := rfl
@[simp] theorem Hub.modPwr_fields (h : Hub) (g : Pwr → Pwr) : (h.modPwr g).fields = h.fields := rfl
@[simp] theorem Hub.modPwr_hw (h : Hub) (g : Pwr → Pwr) : (h.modPwr g).hw = h.hw := rfl
@[simp] theorem Hub.modPwr_wrote (h : Hub) (g : Pwr → Pwr) : (h.modPwr g).wrote = h.wrote := rfl
@[simp] theorem Hub.modPwr_staged (h : Hub) (g : Pwr → Pwr) : (h.modPwr g).staged = h.staged := rfl
@[simp] theorem Hub.modPwr_snap (h : Hub) (g : Pwr → Pwr) : (h.modPwr g).snap = h.snap := rfl
@[simp] theorem Hub.modPwr_bank (h : Hub) (g : Pwr → Pwr) : (h.modPwr g).bank = h.bank := rfl
@[simp] theorem Hub.modPwr_out (h : Hub) (g : Pwr → Pwr) : (h.modPwr g).out = h.out := rfl
@[simp] theorem Hub.modPwr_gno (h : Hub) (g : Pwr → Pwr) : (h.modPwr g).gno = h.gno := rfl
@[simp] theorem Hub.modPwr_lanes (h : Hub) (g : Pwr → Pwr) : (h.modPwr g).lanes = h.lanes := rfl
@[simp] theorem Hub.modPwr_err (h : Hub) (g : Pwr → Pwr) : (h.modPwr g).err = h.err := rfl
@[simp] theorem Hub.modPwr_fuse (h : Hub) (g : Pwr → Pwr) : (h.modPwr g).fuse = h.fuse := rfl
@[simp] theorem Hub.modPwr_dl (h : Hub) (g : Pwr → Pwr) : (h.modPwr g).dl = h.dl := rfl
@[simp] theorem Hub.modPwr_tl (h : Hub) (g : Pwr → Pwr) : (h.modPwr g).tl = h.tl := rfl
@[simp] theorem Hub.modPwr_pim (h : Hub) (g : Pwr → Pwr) : (h.modPwr g).pim = h.pim := rfl
@[simp] theorem Hub.modPwr_core (h : Hub) (g : Pwr → Pwr) : (h.modPwr g).core = h.core := rfl
@[simp] theorem Hub.modPwr_reed (h : Hub) (g : Pwr → Pwr) : (h.modPwr g).reed = h.reed := rfl
@[simp] theorem Hub.modPwr_sw (h : Hub) (g : Pwr → Pwr) : (h.modPwr g).sw = h.sw := rfl
@[simp] theorem Hub.modPwr_ring (h : Hub) (g : Pwr → Pwr) : (h.modPwr g).ring = h.ring := rfl
@[simp] theorem Hub.modPwr_brg (h : Hub) (g : Pwr → Pwr) : (h.modPwr g).brg = h.brg := rfl
@[simp] theorem Hub.modPwr_hst (h : Hub) (g : Pwr → Pwr) : (h.modPwr g).hst = h.hst := rfl
@[simp] theorem Hub.modPwr_can (h : Hub) (g : Pwr → Pwr) : (h.modPwr g).can = h.can := rfl
@[simp] theorem Hub.modPwr_bank3 (h : Hub) (g : Pwr → Pwr) : (h.modPwr g).bank3 = h.bank3 := rfl
@[simp] theorem Hub.modPwr_monOff (h : Hub) (g : Pwr → Pwr) : (h.modPwr g).monOff = h.monOff := rfl
@[simp] theorem Hub.modPwr_link (h : Hub) (g : Pwr → Pwr) : (h.modPwr g).link = h.link := rfl
@[simp] theorem Hub.modPwr_drn (h : Hub) (g : Pwr → Pwr) : (h.modPwr g).drn = h.drn := rfl
@[simp] theorem Hub.modPwr_lamp (h : Hub) (g : Pwr → Pwr) : (h.modPwr g).lamp = h.lamp := rfl
@[simp] theorem Hub.modPwr_sem (h : Hub) (g : Pwr → Pwr) : (h.modPwr g).sem = h.sem := rfl
@[simp] theorem Hub.modPwr_semRel (h : Hub) (g : Pwr → Pwr) : (h.modPwr g).semRel = h.semRel := rfl
@[simp] theorem Hub.modPwr_mtime (h : Hub) (g : Pwr → Pwr) : (h.modPwr g).mtime = h.mtime := rfl
@[simp] theorem Hub.modPwr_ldr (h : Hub) (g : Pwr → Pwr) : (h.modPwr g).ldr = h.ldr := rfl
@[simp] theorem Hub.modPwr_mbx (h : Hub) (g : Pwr → Pwr) : (h.modPwr g).mbx = h.mbx := rfl
@[simp] theorem Hub.modPwr_sec (h : Hub) (g : Pwr → Pwr) : (h.modPwr g).sec = h.sec := rfl
@[simp] theorem Hub.modPwr_pwr (h : Hub) (g : Pwr → Pwr) : (h.modPwr g).pwr = g h.pwr := rfl
@[simp] theorem Hub.modPwr_bel (h : Hub) (g : Pwr → Pwr) : (h.modPwr g).bel = h.bel := rfl
@[simp] theorem Hub.modPwr_statAt (h : Hub) (g : Pwr → Pwr) : (h.modPwr g).statAt = h.statAt := rfl
@[simp] theorem Hub.modPwr_dram (h : Hub) (g : Pwr → Pwr) : (h.modPwr g).dram = h.dram := rfl
@[simp] theorem Hub.modPwr_ts (h : Hub) (g : Pwr → Pwr) : (h.modPwr g).ts = h.ts := rfl
@[simp] theorem Hub.modPwr_fld (h : Hub) (g : Pwr → Pwr) (f : Fld) : (h.modPwr g).fld f = h.fld f := rfl
@[simp] theorem Hub.modPwr_bit (h : Hub) (g : Pwr → Pwr) (f : Fld) : (h.modPwr g).bit f = h.bit f := rfl

/-! ## modDom -/

@[simp] theorem Hub.modDom_now (h : Hub) (d : Fin 26) (g : Dom → Dom) : (h.modDom d g).now = h.now := rfl
@[simp] theorem Hub.modDom_freeCtr (h : Hub) (d : Fin 26) (g : Dom → Dom) : (h.modDom d g).freeCtr = h.freeCtr := rfl
@[simp] theorem Hub.modDom_fields (h : Hub) (d : Fin 26) (g : Dom → Dom) : (h.modDom d g).fields = h.fields := rfl
@[simp] theorem Hub.modDom_hw (h : Hub) (d : Fin 26) (g : Dom → Dom) : (h.modDom d g).hw = h.hw := rfl
@[simp] theorem Hub.modDom_wrote (h : Hub) (d : Fin 26) (g : Dom → Dom) : (h.modDom d g).wrote = h.wrote := rfl
@[simp] theorem Hub.modDom_staged (h : Hub) (d : Fin 26) (g : Dom → Dom) : (h.modDom d g).staged = h.staged := rfl
@[simp] theorem Hub.modDom_snap (h : Hub) (d : Fin 26) (g : Dom → Dom) : (h.modDom d g).snap = h.snap := rfl
@[simp] theorem Hub.modDom_bank (h : Hub) (d : Fin 26) (g : Dom → Dom) : (h.modDom d g).bank = h.bank := rfl
@[simp] theorem Hub.modDom_out (h : Hub) (d : Fin 26) (g : Dom → Dom) : (h.modDom d g).out = h.out := rfl
@[simp] theorem Hub.modDom_gno (h : Hub) (d : Fin 26) (g : Dom → Dom) : (h.modDom d g).gno = h.gno := rfl
@[simp] theorem Hub.modDom_lanes (h : Hub) (d : Fin 26) (g : Dom → Dom) : (h.modDom d g).lanes = h.lanes := rfl
@[simp] theorem Hub.modDom_err (h : Hub) (d : Fin 26) (g : Dom → Dom) : (h.modDom d g).err = h.err := rfl
@[simp] theorem Hub.modDom_fuse (h : Hub) (d : Fin 26) (g : Dom → Dom) : (h.modDom d g).fuse = h.fuse := rfl
@[simp] theorem Hub.modDom_dl (h : Hub) (d : Fin 26) (g : Dom → Dom) : (h.modDom d g).dl = h.dl := rfl
@[simp] theorem Hub.modDom_tl (h : Hub) (d : Fin 26) (g : Dom → Dom) : (h.modDom d g).tl = h.tl := rfl
@[simp] theorem Hub.modDom_pim (h : Hub) (d : Fin 26) (g : Dom → Dom) : (h.modDom d g).pim = h.pim := rfl
@[simp] theorem Hub.modDom_core (h : Hub) (d : Fin 26) (g : Dom → Dom) : (h.modDom d g).core = h.core := rfl
@[simp] theorem Hub.modDom_reed (h : Hub) (d : Fin 26) (g : Dom → Dom) : (h.modDom d g).reed = h.reed := rfl
@[simp] theorem Hub.modDom_sw (h : Hub) (d : Fin 26) (g : Dom → Dom) : (h.modDom d g).sw = h.sw := rfl
@[simp] theorem Hub.modDom_ring (h : Hub) (d : Fin 26) (g : Dom → Dom) : (h.modDom d g).ring = h.ring := rfl
@[simp] theorem Hub.modDom_brg (h : Hub) (d : Fin 26) (g : Dom → Dom) : (h.modDom d g).brg = h.brg := rfl
@[simp] theorem Hub.modDom_hst (h : Hub) (d : Fin 26) (g : Dom → Dom) : (h.modDom d g).hst = h.hst := rfl
@[simp] theorem Hub.modDom_can (h : Hub) (d : Fin 26) (g : Dom → Dom) : (h.modDom d g).can = h.can := rfl
@[simp] theorem Hub.modDom_bank3 (h : Hub) (d : Fin 26) (g : Dom → Dom) : (h.modDom d g).bank3 = h.bank3 := rfl
@[simp] theorem Hub.modDom_monOff (h : Hub) (d : Fin 26) (g : Dom → Dom) : (h.modDom d g).monOff = h.monOff := rfl
@[simp] theorem Hub.modDom_link (h : Hub) (d : Fin 26) (g : Dom → Dom) : (h.modDom d g).link = h.link := rfl
@[simp] theorem Hub.modDom_drn (h : Hub) (d : Fin 26) (g : Dom → Dom) : (h.modDom d g).drn = h.drn := rfl
@[simp] theorem Hub.modDom_lamp (h : Hub) (d : Fin 26) (g : Dom → Dom) : (h.modDom d g).lamp = h.lamp := rfl
@[simp] theorem Hub.modDom_sem (h : Hub) (d : Fin 26) (g : Dom → Dom) : (h.modDom d g).sem = h.sem := rfl
@[simp] theorem Hub.modDom_semRel (h : Hub) (d : Fin 26) (g : Dom → Dom) : (h.modDom d g).semRel = h.semRel := rfl
@[simp] theorem Hub.modDom_mtime (h : Hub) (d : Fin 26) (g : Dom → Dom) : (h.modDom d g).mtime = h.mtime := rfl
@[simp] theorem Hub.modDom_ldr (h : Hub) (d : Fin 26) (g : Dom → Dom) : (h.modDom d g).ldr = h.ldr := rfl
@[simp] theorem Hub.modDom_mbx (h : Hub) (d : Fin 26) (g : Dom → Dom) : (h.modDom d g).mbx = h.mbx := rfl
@[simp] theorem Hub.modDom_sec (h : Hub) (d : Fin 26) (g : Dom → Dom) : (h.modDom d g).sec = h.sec := rfl
@[simp] theorem Hub.modDom_pwr (h : Hub) (d : Fin 26) (g : Dom → Dom) : (h.modDom d g).pwr = { h.pwr with dom := h.pwr.dom.set d (g h.pwr.dom[d]) } := rfl
@[simp] theorem Hub.modDom_bel (h : Hub) (d : Fin 26) (g : Dom → Dom) : (h.modDom d g).bel = h.bel := rfl
@[simp] theorem Hub.modDom_statAt (h : Hub) (d : Fin 26) (g : Dom → Dom) : (h.modDom d g).statAt = h.statAt := rfl
@[simp] theorem Hub.modDom_dram (h : Hub) (d : Fin 26) (g : Dom → Dom) : (h.modDom d g).dram = h.dram := rfl
@[simp] theorem Hub.modDom_ts (h : Hub) (d : Fin 26) (g : Dom → Dom) : (h.modDom d g).ts = h.ts := rfl
@[simp] theorem Hub.modDom_fld (h : Hub) (d : Fin 26) (g : Dom → Dom) (f : Fld) : (h.modDom d g).fld f = h.fld f := rfl
@[simp] theorem Hub.modDom_bit (h : Hub) (d : Fin 26) (g : Dom → Dom) (f : Fld) : (h.modDom d g).bit f = h.bit f := rfl

/-! ## modBel -/

@[simp] theorem Hub.modBel_now (h : Hub) (g : Bel → Bel) : (h.modBel g).now = h.now := rfl
@[simp] theorem Hub.modBel_freeCtr (h : Hub) (g : Bel → Bel) : (h.modBel g).freeCtr = h.freeCtr := rfl
@[simp] theorem Hub.modBel_fields (h : Hub) (g : Bel → Bel) : (h.modBel g).fields = h.fields := rfl
@[simp] theorem Hub.modBel_hw (h : Hub) (g : Bel → Bel) : (h.modBel g).hw = h.hw := rfl
@[simp] theorem Hub.modBel_wrote (h : Hub) (g : Bel → Bel) : (h.modBel g).wrote = h.wrote := rfl
@[simp] theorem Hub.modBel_staged (h : Hub) (g : Bel → Bel) : (h.modBel g).staged = h.staged := rfl
@[simp] theorem Hub.modBel_snap (h : Hub) (g : Bel → Bel) : (h.modBel g).snap = h.snap := rfl
@[simp] theorem Hub.modBel_bank (h : Hub) (g : Bel → Bel) : (h.modBel g).bank = h.bank := rfl
@[simp] theorem Hub.modBel_out (h : Hub) (g : Bel → Bel) : (h.modBel g).out = h.out := rfl
@[simp] theorem Hub.modBel_gno (h : Hub) (g : Bel → Bel) : (h.modBel g).gno = h.gno := rfl
@[simp] theorem Hub.modBel_lanes (h : Hub) (g : Bel → Bel) : (h.modBel g).lanes = h.lanes := rfl
@[simp] theorem Hub.modBel_err (h : Hub) (g : Bel → Bel) : (h.modBel g).err = h.err := rfl
@[simp] theorem Hub.modBel_fuse (h : Hub) (g : Bel → Bel) : (h.modBel g).fuse = h.fuse := rfl
@[simp] theorem Hub.modBel_dl (h : Hub) (g : Bel → Bel) : (h.modBel g).dl = h.dl := rfl
@[simp] theorem Hub.modBel_tl (h : Hub) (g : Bel → Bel) : (h.modBel g).tl = h.tl := rfl
@[simp] theorem Hub.modBel_pim (h : Hub) (g : Bel → Bel) : (h.modBel g).pim = h.pim := rfl
@[simp] theorem Hub.modBel_core (h : Hub) (g : Bel → Bel) : (h.modBel g).core = h.core := rfl
@[simp] theorem Hub.modBel_reed (h : Hub) (g : Bel → Bel) : (h.modBel g).reed = h.reed := rfl
@[simp] theorem Hub.modBel_sw (h : Hub) (g : Bel → Bel) : (h.modBel g).sw = h.sw := rfl
@[simp] theorem Hub.modBel_ring (h : Hub) (g : Bel → Bel) : (h.modBel g).ring = h.ring := rfl
@[simp] theorem Hub.modBel_brg (h : Hub) (g : Bel → Bel) : (h.modBel g).brg = h.brg := rfl
@[simp] theorem Hub.modBel_hst (h : Hub) (g : Bel → Bel) : (h.modBel g).hst = h.hst := rfl
@[simp] theorem Hub.modBel_can (h : Hub) (g : Bel → Bel) : (h.modBel g).can = h.can := rfl
@[simp] theorem Hub.modBel_bank3 (h : Hub) (g : Bel → Bel) : (h.modBel g).bank3 = h.bank3 := rfl
@[simp] theorem Hub.modBel_monOff (h : Hub) (g : Bel → Bel) : (h.modBel g).monOff = h.monOff := rfl
@[simp] theorem Hub.modBel_link (h : Hub) (g : Bel → Bel) : (h.modBel g).link = h.link := rfl
@[simp] theorem Hub.modBel_drn (h : Hub) (g : Bel → Bel) : (h.modBel g).drn = h.drn := rfl
@[simp] theorem Hub.modBel_lamp (h : Hub) (g : Bel → Bel) : (h.modBel g).lamp = h.lamp := rfl
@[simp] theorem Hub.modBel_sem (h : Hub) (g : Bel → Bel) : (h.modBel g).sem = h.sem := rfl
@[simp] theorem Hub.modBel_semRel (h : Hub) (g : Bel → Bel) : (h.modBel g).semRel = h.semRel := rfl
@[simp] theorem Hub.modBel_mtime (h : Hub) (g : Bel → Bel) : (h.modBel g).mtime = h.mtime := rfl
@[simp] theorem Hub.modBel_ldr (h : Hub) (g : Bel → Bel) : (h.modBel g).ldr = h.ldr := rfl
@[simp] theorem Hub.modBel_mbx (h : Hub) (g : Bel → Bel) : (h.modBel g).mbx = h.mbx := rfl
@[simp] theorem Hub.modBel_sec (h : Hub) (g : Bel → Bel) : (h.modBel g).sec = h.sec := rfl
@[simp] theorem Hub.modBel_pwr (h : Hub) (g : Bel → Bel) : (h.modBel g).pwr = h.pwr := rfl
@[simp] theorem Hub.modBel_bel (h : Hub) (g : Bel → Bel) : (h.modBel g).bel = g h.bel := rfl
@[simp] theorem Hub.modBel_statAt (h : Hub) (g : Bel → Bel) : (h.modBel g).statAt = h.statAt := rfl
@[simp] theorem Hub.modBel_dram (h : Hub) (g : Bel → Bel) : (h.modBel g).dram = h.dram := rfl
@[simp] theorem Hub.modBel_ts (h : Hub) (g : Bel → Bel) : (h.modBel g).ts = h.ts := rfl
@[simp] theorem Hub.modBel_fld (h : Hub) (g : Bel → Bel) (f : Fld) : (h.modBel g).fld f = h.fld f := rfl
@[simp] theorem Hub.modBel_bit (h : Hub) (g : Bel → Bel) (f : Fld) : (h.modBel g).bit f = h.bit f := rfl

/-! ## Registers after a write -/

/-- A field reads what was written, cut to its width. -/
theorem Hub.fld_put_same (h : Hub) (f : Fld) (v : Nat) : (h.put f v).fld f = v % 2 ^ f.w :=
  Sparse.get_set_same _ _ _ _

/-- As `fld_put_same` for another name of the same field. -/
theorem Hub.fld_put_key (h : Hub) (f g : Fld) (v : Nat) (e : g.key = f.key) : (h.put f v).fld g = v % 2 ^ f.w := by
  unfold Hub.fld; rw [e]; exact Sparse.get_set_same _ _ _ _

/-- A write leaves every other field. -/
theorem Hub.fld_put_ne (h : Hub) (f g : Fld) (v : Nat) (e : g.key ≠ f.key) : (h.put f v).fld g = h.fld g :=
  Sparse.get_set_ne _ _ _ _ e

theorem Hub.bit_put_ne (h : Hub) (f g : Fld) (v : Nat) (e : g.key ≠ f.key) : (h.put f v).bit g = h.bit g := by
  unfold Hub.bit; rw [Hub.fld_put_ne h f g v e]

theorem Hub.bit_on_same (h : Hub) (f : Fld) (e : f.w = 1) : (h.put f 1).bit f = true := by
  unfold Hub.bit; rw [Hub.fld_put_same, e]; rfl

theorem Hub.bit_off_same (h : Hub) (f : Fld) : (h.put f 0).bit f = false := by
  unfold Hub.bit; rw [Hub.fld_put_same, Nat.zero_mod]; rfl

theorem Hub.bit_eq (h : Hub) (f : Fld) : h.bit f = (h.fld f != 0) := rfl

/-- Registers depend on the field table alone. -/
theorem Hub.fld_congr {h g : Hub} (e : g.fields = h.fields) (f : Fld) : g.fld f = h.fld f := by
  unfold Hub.fld; rw [e]

/-! ## Flags and interrupts (R458, R459) -/

/-- A flag's rise changes the flag, marks it as set in this cycle and may send one interrupt vector. -/
theorem Hub.flag_cases (h : Hub) (b : Block) (f : Fld) :
    h.flag b f = h.hwSet f ∨ ∃ v, h.flag b f = (h.hwSet f).emit (.msix v) := by
  unfold Hub.flag Hub.withIrq
  dsimp only
  split
  · exact .inr ⟨_, rfl⟩
  · exact .inl rfl

@[simp] theorem Hub.flag_now (h : Hub) (b : Block) (f : Fld) : (h.flag b f).now = h.now := by
  rcases h.flag_cases b f with e | ⟨v, e⟩ <;> rw [e] <;> rfl
@[simp] theorem Hub.flag_freeCtr (h : Hub) (b : Block) (f : Fld) : (h.flag b f).freeCtr = h.freeCtr := by
  rcases h.flag_cases b f with e | ⟨v, e⟩ <;> rw [e] <;> rfl
@[simp] theorem Hub.flag_fields (h : Hub) (b : Block) (f : Fld) : (h.flag b f).fields = (h.put f (h.fld f ||| 1)).fields := by
  rcases h.flag_cases b f with e | ⟨v, e⟩ <;> rw [e] <;> rfl
@[simp] theorem Hub.flag_hw (h : Hub) (b : Block) (f : Fld) : (h.flag b f).hw = h.hw.set 0 f.key (h.hwOn f.key ||| 1) := by
  rcases h.flag_cases b f with e | ⟨v, e⟩ <;> rw [e] <;> rfl
@[simp] theorem Hub.flag_wrote (h : Hub) (b : Block) (f : Fld) : (h.flag b f).wrote = h.wrote := by
  rcases h.flag_cases b f with e | ⟨v, e⟩ <;> rw [e] <;> rfl
@[simp] theorem Hub.flag_staged (h : Hub) (b : Block) (f : Fld) : (h.flag b f).staged = h.staged := by
  rcases h.flag_cases b f with e | ⟨v, e⟩ <;> rw [e] <;> rfl
@[simp] theorem Hub.flag_snap (h : Hub) (b : Block) (f : Fld) : (h.flag b f).snap = h.snap := by
  rcases h.flag_cases b f with e | ⟨v, e⟩ <;> rw [e] <;> rfl
@[simp] theorem Hub.flag_bank (h : Hub) (b : Block) (f : Fld) : (h.flag b f).bank = h.bank := by
  rcases h.flag_cases b f with e | ⟨v, e⟩ <;> rw [e] <;> rfl
@[simp] theorem Hub.flag_gno (h : Hub) (b : Block) (f : Fld) : (h.flag b f).gno = h.gno := by
  rcases h.flag_cases b f with e | ⟨v, e⟩ <;> rw [e] <;> rfl
@[simp] theorem Hub.flag_lanes (h : Hub) (b : Block) (f : Fld) : (h.flag b f).lanes = h.lanes := by
  rcases h.flag_cases b f with e | ⟨v, e⟩ <;> rw [e] <;> rfl
@[simp] theorem Hub.flag_err (h : Hub) (b : Block) (f : Fld) : (h.flag b f).err = h.err := by
  rcases h.flag_cases b f with e | ⟨v, e⟩ <;> rw [e] <;> rfl
@[simp] theorem Hub.flag_fuse (h : Hub) (b : Block) (f : Fld) : (h.flag b f).fuse = h.fuse := by
  rcases h.flag_cases b f with e | ⟨v, e⟩ <;> rw [e] <;> rfl
@[simp] theorem Hub.flag_dl (h : Hub) (b : Block) (f : Fld) : (h.flag b f).dl = h.dl := by
  rcases h.flag_cases b f with e | ⟨v, e⟩ <;> rw [e] <;> rfl
@[simp] theorem Hub.flag_tl (h : Hub) (b : Block) (f : Fld) : (h.flag b f).tl = h.tl := by
  rcases h.flag_cases b f with e | ⟨v, e⟩ <;> rw [e] <;> rfl
@[simp] theorem Hub.flag_pim (h : Hub) (b : Block) (f : Fld) : (h.flag b f).pim = h.pim := by
  rcases h.flag_cases b f with e | ⟨v, e⟩ <;> rw [e] <;> rfl
@[simp] theorem Hub.flag_core (h : Hub) (b : Block) (f : Fld) : (h.flag b f).core = h.core := by
  rcases h.flag_cases b f with e | ⟨v, e⟩ <;> rw [e] <;> rfl
@[simp] theorem Hub.flag_reed (h : Hub) (b : Block) (f : Fld) : (h.flag b f).reed = h.reed := by
  rcases h.flag_cases b f with e | ⟨v, e⟩ <;> rw [e] <;> rfl
@[simp] theorem Hub.flag_sw (h : Hub) (b : Block) (f : Fld) : (h.flag b f).sw = h.sw := by
  rcases h.flag_cases b f with e | ⟨v, e⟩ <;> rw [e] <;> rfl
@[simp] theorem Hub.flag_ring (h : Hub) (b : Block) (f : Fld) : (h.flag b f).ring = h.ring := by
  rcases h.flag_cases b f with e | ⟨v, e⟩ <;> rw [e] <;> rfl
@[simp] theorem Hub.flag_brg (h : Hub) (b : Block) (f : Fld) : (h.flag b f).brg = h.brg := by
  rcases h.flag_cases b f with e | ⟨v, e⟩ <;> rw [e] <;> rfl
@[simp] theorem Hub.flag_hst (h : Hub) (b : Block) (f : Fld) : (h.flag b f).hst = h.hst := by
  rcases h.flag_cases b f with e | ⟨v, e⟩ <;> rw [e] <;> rfl
@[simp] theorem Hub.flag_can (h : Hub) (b : Block) (f : Fld) : (h.flag b f).can = h.can := by
  rcases h.flag_cases b f with e | ⟨v, e⟩ <;> rw [e] <;> rfl
@[simp] theorem Hub.flag_bank3 (h : Hub) (b : Block) (f : Fld) : (h.flag b f).bank3 = h.bank3 := by
  rcases h.flag_cases b f with e | ⟨v, e⟩ <;> rw [e] <;> rfl
@[simp] theorem Hub.flag_monOff (h : Hub) (b : Block) (f : Fld) : (h.flag b f).monOff = h.monOff := by
  rcases h.flag_cases b f with e | ⟨v, e⟩ <;> rw [e] <;> rfl
@[simp] theorem Hub.flag_link (h : Hub) (b : Block) (f : Fld) : (h.flag b f).link = h.link := by
  rcases h.flag_cases b f with e | ⟨v, e⟩ <;> rw [e] <;> rfl
@[simp] theorem Hub.flag_drn (h : Hub) (b : Block) (f : Fld) : (h.flag b f).drn = h.drn := by
  rcases h.flag_cases b f with e | ⟨v, e⟩ <;> rw [e] <;> rfl
@[simp] theorem Hub.flag_lamp (h : Hub) (b : Block) (f : Fld) : (h.flag b f).lamp = h.lamp := by
  rcases h.flag_cases b f with e | ⟨v, e⟩ <;> rw [e] <;> rfl
@[simp] theorem Hub.flag_sem (h : Hub) (b : Block) (f : Fld) : (h.flag b f).sem = h.sem := by
  rcases h.flag_cases b f with e | ⟨v, e⟩ <;> rw [e] <;> rfl
@[simp] theorem Hub.flag_semRel (h : Hub) (b : Block) (f : Fld) : (h.flag b f).semRel = h.semRel := by
  rcases h.flag_cases b f with e | ⟨v, e⟩ <;> rw [e] <;> rfl
@[simp] theorem Hub.flag_mtime (h : Hub) (b : Block) (f : Fld) : (h.flag b f).mtime = h.mtime := by
  rcases h.flag_cases b f with e | ⟨v, e⟩ <;> rw [e] <;> rfl
@[simp] theorem Hub.flag_ldr (h : Hub) (b : Block) (f : Fld) : (h.flag b f).ldr = h.ldr := by
  rcases h.flag_cases b f with e | ⟨v, e⟩ <;> rw [e] <;> rfl
@[simp] theorem Hub.flag_mbx (h : Hub) (b : Block) (f : Fld) : (h.flag b f).mbx = h.mbx := by
  rcases h.flag_cases b f with e | ⟨v, e⟩ <;> rw [e] <;> rfl
@[simp] theorem Hub.flag_sec (h : Hub) (b : Block) (f : Fld) : (h.flag b f).sec = h.sec := by
  rcases h.flag_cases b f with e | ⟨v, e⟩ <;> rw [e] <;> rfl
@[simp] theorem Hub.flag_pwr (h : Hub) (b : Block) (f : Fld) : (h.flag b f).pwr = h.pwr := by
  rcases h.flag_cases b f with e | ⟨v, e⟩ <;> rw [e] <;> rfl
@[simp] theorem Hub.flag_bel (h : Hub) (b : Block) (f : Fld) : (h.flag b f).bel = h.bel := by
  rcases h.flag_cases b f with e | ⟨v, e⟩ <;> rw [e] <;> rfl
@[simp] theorem Hub.flag_statAt (h : Hub) (b : Block) (f : Fld) : (h.flag b f).statAt = h.statAt := by
  rcases h.flag_cases b f with e | ⟨v, e⟩ <;> rw [e] <;> rfl
@[simp] theorem Hub.flag_dram (h : Hub) (b : Block) (f : Fld) : (h.flag b f).dram = h.dram := by
  rcases h.flag_cases b f with e | ⟨v, e⟩ <;> rw [e] <;> rfl
@[simp] theorem Hub.flag_ts (h : Hub) (b : Block) (f : Fld) : (h.flag b f).ts = h.ts := by
  rcases h.flag_cases b f with e | ⟨v, e⟩ <;> rw [e] <;> rfl
@[simp] theorem Hub.flag_fld (h : Hub) (b : Block) (f g : Fld) : (h.flag b f).fld g = (h.put f (h.fld f ||| 1)).fld g :=
  Hub.fld_congr (h.flag_fields b f) g

/-- A flag that is raised reads 1. -/
theorem Hub.flag_bit_same (h : Hub) (b : Block) (f : Fld) (e : f.w = 1) : (h.flag b f).bit f = true := by
  unfold Hub.bit
  rw [Hub.flag_fld, Hub.fld_put_same, e, pow_one, bne_iff_ne, Nat.or_mod_two_eq_one.mpr (.inr rfl)]
  decide

/-- Outputs are only added to. -/
theorem Hub.flag_out (h : Hub) (b : Block) (f : Fld) : ∃ l, (h.flag b f).out = l ++ h.out := by
  rcases h.flag_cases b f with e | ⟨v, e⟩ <;> rw [e]
  · exact ⟨[], rfl⟩
  · exact ⟨[_], rfl⟩

/-! ## Counters (R264) -/

/-- A count changes its own counter, what hardware counted in this cycle and, in a link block, the half flag. -/
theorem Hub.count_cases (h : Hub) (f : Fld) (n : Nat) :
    (∃ v m, h.count f n = { h.put f v with hw := m }) ∨
      ∃ v l, h.count f n = (h.put f v).flag (.link l) (F.X_FLAG_CNT_HALF l) := by
  unfold Hub.count
  split
  · exact .inl ⟨_, _, rfl⟩
  · dsimp only
    split
    · split
      · exact .inr ⟨_, _, rfl⟩
      · exact .inl ⟨_, h.hw, rfl⟩
    · exact .inl ⟨_, h.hw, rfl⟩
  · exact .inl ⟨_, _, rfl⟩

@[simp] theorem Hub.count_now (h : Hub) (f : Fld) (n : Nat) : (h.count f n).now = h.now := by
  rcases h.count_cases f n with ⟨v, m, e⟩ | ⟨v, l, e⟩ <;> rw [e] <;> simp
@[simp] theorem Hub.count_freeCtr (h : Hub) (f : Fld) (n : Nat) : (h.count f n).freeCtr = h.freeCtr := by
  rcases h.count_cases f n with ⟨v, m, e⟩ | ⟨v, l, e⟩ <;> rw [e] <;> simp
@[simp] theorem Hub.count_wrote (h : Hub) (f : Fld) (n : Nat) : (h.count f n).wrote = h.wrote := by
  rcases h.count_cases f n with ⟨v, m, e⟩ | ⟨v, l, e⟩ <;> rw [e] <;> simp
@[simp] theorem Hub.count_staged (h : Hub) (f : Fld) (n : Nat) : (h.count f n).staged = h.staged := by
  rcases h.count_cases f n with ⟨v, m, e⟩ | ⟨v, l, e⟩ <;> rw [e] <;> simp
@[simp] theorem Hub.count_snap (h : Hub) (f : Fld) (n : Nat) : (h.count f n).snap = h.snap := by
  rcases h.count_cases f n with ⟨v, m, e⟩ | ⟨v, l, e⟩ <;> rw [e] <;> simp
@[simp] theorem Hub.count_bank (h : Hub) (f : Fld) (n : Nat) : (h.count f n).bank = h.bank := by
  rcases h.count_cases f n with ⟨v, m, e⟩ | ⟨v, l, e⟩ <;> rw [e] <;> simp
@[simp] theorem Hub.count_gno (h : Hub) (f : Fld) (n : Nat) : (h.count f n).gno = h.gno := by
  rcases h.count_cases f n with ⟨v, m, e⟩ | ⟨v, l, e⟩ <;> rw [e] <;> simp
@[simp] theorem Hub.count_lanes (h : Hub) (f : Fld) (n : Nat) : (h.count f n).lanes = h.lanes := by
  rcases h.count_cases f n with ⟨v, m, e⟩ | ⟨v, l, e⟩ <;> rw [e] <;> simp
@[simp] theorem Hub.count_err (h : Hub) (f : Fld) (n : Nat) : (h.count f n).err = h.err := by
  rcases h.count_cases f n with ⟨v, m, e⟩ | ⟨v, l, e⟩ <;> rw [e] <;> simp
@[simp] theorem Hub.count_fuse (h : Hub) (f : Fld) (n : Nat) : (h.count f n).fuse = h.fuse := by
  rcases h.count_cases f n with ⟨v, m, e⟩ | ⟨v, l, e⟩ <;> rw [e] <;> simp
@[simp] theorem Hub.count_dl (h : Hub) (f : Fld) (n : Nat) : (h.count f n).dl = h.dl := by
  rcases h.count_cases f n with ⟨v, m, e⟩ | ⟨v, l, e⟩ <;> rw [e] <;> simp
@[simp] theorem Hub.count_tl (h : Hub) (f : Fld) (n : Nat) : (h.count f n).tl = h.tl := by
  rcases h.count_cases f n with ⟨v, m, e⟩ | ⟨v, l, e⟩ <;> rw [e] <;> simp
@[simp] theorem Hub.count_pim (h : Hub) (f : Fld) (n : Nat) : (h.count f n).pim = h.pim := by
  rcases h.count_cases f n with ⟨v, m, e⟩ | ⟨v, l, e⟩ <;> rw [e] <;> simp
@[simp] theorem Hub.count_core (h : Hub) (f : Fld) (n : Nat) : (h.count f n).core = h.core := by
  rcases h.count_cases f n with ⟨v, m, e⟩ | ⟨v, l, e⟩ <;> rw [e] <;> simp
@[simp] theorem Hub.count_reed (h : Hub) (f : Fld) (n : Nat) : (h.count f n).reed = h.reed := by
  rcases h.count_cases f n with ⟨v, m, e⟩ | ⟨v, l, e⟩ <;> rw [e] <;> simp
@[simp] theorem Hub.count_sw (h : Hub) (f : Fld) (n : Nat) : (h.count f n).sw = h.sw := by
  rcases h.count_cases f n with ⟨v, m, e⟩ | ⟨v, l, e⟩ <;> rw [e] <;> simp
@[simp] theorem Hub.count_ring (h : Hub) (f : Fld) (n : Nat) : (h.count f n).ring = h.ring := by
  rcases h.count_cases f n with ⟨v, m, e⟩ | ⟨v, l, e⟩ <;> rw [e] <;> simp
@[simp] theorem Hub.count_brg (h : Hub) (f : Fld) (n : Nat) : (h.count f n).brg = h.brg := by
  rcases h.count_cases f n with ⟨v, m, e⟩ | ⟨v, l, e⟩ <;> rw [e] <;> simp
@[simp] theorem Hub.count_hst (h : Hub) (f : Fld) (n : Nat) : (h.count f n).hst = h.hst := by
  rcases h.count_cases f n with ⟨v, m, e⟩ | ⟨v, l, e⟩ <;> rw [e] <;> simp
@[simp] theorem Hub.count_can (h : Hub) (f : Fld) (n : Nat) : (h.count f n).can = h.can := by
  rcases h.count_cases f n with ⟨v, m, e⟩ | ⟨v, l, e⟩ <;> rw [e] <;> simp
@[simp] theorem Hub.count_bank3 (h : Hub) (f : Fld) (n : Nat) : (h.count f n).bank3 = h.bank3 := by
  rcases h.count_cases f n with ⟨v, m, e⟩ | ⟨v, l, e⟩ <;> rw [e] <;> simp
@[simp] theorem Hub.count_monOff (h : Hub) (f : Fld) (n : Nat) : (h.count f n).monOff = h.monOff := by
  rcases h.count_cases f n with ⟨v, m, e⟩ | ⟨v, l, e⟩ <;> rw [e] <;> simp
@[simp] theorem Hub.count_link (h : Hub) (f : Fld) (n : Nat) : (h.count f n).link = h.link := by
  rcases h.count_cases f n with ⟨v, m, e⟩ | ⟨v, l, e⟩ <;> rw [e] <;> simp
@[simp] theorem Hub.count_drn (h : Hub) (f : Fld) (n : Nat) : (h.count f n).drn = h.drn := by
  rcases h.count_cases f n with ⟨v, m, e⟩ | ⟨v, l, e⟩ <;> rw [e] <;> simp
@[simp] theorem Hub.count_lamp (h : Hub) (f : Fld) (n : Nat) : (h.count f n).lamp = h.lamp := by
  rcases h.count_cases f n with ⟨v, m, e⟩ | ⟨v, l, e⟩ <;> rw [e] <;> simp
@[simp] theorem Hub.count_sem (h : Hub) (f : Fld) (n : Nat) : (h.count f n).sem = h.sem := by
  rcases h.count_cases f n with ⟨v, m, e⟩ | ⟨v, l, e⟩ <;> rw [e] <;> simp
@[simp] theorem Hub.count_semRel (h : Hub) (f : Fld) (n : Nat) : (h.count f n).semRel = h.semRel := by
  rcases h.count_cases f n with ⟨v, m, e⟩ | ⟨v, l, e⟩ <;> rw [e] <;> simp
@[simp] theorem Hub.count_mtime (h : Hub) (f : Fld) (n : Nat) : (h.count f n).mtime = h.mtime := by
  rcases h.count_cases f n with ⟨v, m, e⟩ | ⟨v, l, e⟩ <;> rw [e] <;> simp
@[simp] theorem Hub.count_ldr (h : Hub) (f : Fld) (n : Nat) : (h.count f n).ldr = h.ldr := by
  rcases h.count_cases f n with ⟨v, m, e⟩ | ⟨v, l, e⟩ <;> rw [e] <;> simp
@[simp] theorem Hub.count_mbx (h : Hub) (f : Fld) (n : Nat) : (h.count f n).mbx = h.mbx := by
  rcases h.count_cases f n with ⟨v, m, e⟩ | ⟨v, l, e⟩ <;> rw [e] <;> simp
@[simp] theorem Hub.count_sec (h : Hub) (f : Fld) (n : Nat) : (h.count f n).sec = h.sec := by
  rcases h.count_cases f n with ⟨v, m, e⟩ | ⟨v, l, e⟩ <;> rw [e] <;> simp
@[simp] theorem Hub.count_pwr (h : Hub) (f : Fld) (n : Nat) : (h.count f n).pwr = h.pwr := by
  rcases h.count_cases f n with ⟨v, m, e⟩ | ⟨v, l, e⟩ <;> rw [e] <;> simp
@[simp] theorem Hub.count_bel (h : Hub) (f : Fld) (n : Nat) : (h.count f n).bel = h.bel := by
  rcases h.count_cases f n with ⟨v, m, e⟩ | ⟨v, l, e⟩ <;> rw [e] <;> simp
@[simp] theorem Hub.count_statAt (h : Hub) (f : Fld) (n : Nat) : (h.count f n).statAt = h.statAt := by
  rcases h.count_cases f n with ⟨v, m, e⟩ | ⟨v, l, e⟩ <;> rw [e] <;> simp
@[simp] theorem Hub.count_dram (h : Hub) (f : Fld) (n : Nat) : (h.count f n).dram = h.dram := by
  rcases h.count_cases f n with ⟨v, m, e⟩ | ⟨v, l, e⟩ <;> rw [e] <;> simp
@[simp] theorem Hub.count_ts (h : Hub) (f : Fld) (n : Nat) : (h.count f n).ts = h.ts := by
  rcases h.count_cases f n with ⟨v, m, e⟩ | ⟨v, l, e⟩ <;> rw [e] <;> simp

/-- A count leaves every field but its counter and a half flag. -/
theorem Hub.count_fld_ne (h : Hub) (f g : Fld) (n : Nat) (e : g.key ≠ f.key)
    (e' : ∀ l, g.key ≠ (F.X_FLAG_CNT_HALF l).key) : (h.count f n).fld g = h.fld g := by
  rcases h.count_cases f n with ⟨v, m, q⟩ | ⟨v, l, q⟩ <;> rw [q]
  · exact Hub.fld_put_ne h f g v e
  · rw [Hub.flag_fld, Hub.fld_put_ne _ _ _ _ (e' l), Hub.fld_put_ne _ _ _ _ e]

end Sys2Proof.Machine
end

