-- ==== Sys2Proof/Laws/Ops.lean ====
section
/-! SUPPORT. What the shared operations can do: logging an error, an error response, a command that is a register
write. Each lemma says once everything its operation changes. -/

namespace Sys2Proof.Machine

/-! ## Accesses -/

theorem Hub.lets_ok {h : Hub} {a : Access} {off : Nat} {wr : Bool} (e : h.lets a off wr = true) :
    ∃ b o, h.check a off wr = .ok b o := by
  unfold Hub.lets at e
  split at e
  · exact ⟨_, _, by assumption⟩
  · cases e

/-- The block and offset the checks find are those of the address map. -/
theorem Hub.check_locate {h : Hub} {a : Access} {off : Nat} {wr : Bool} {b : Block} {o : Nat}
    (e : h.check a off wr = .ok b o) : locate off = some (b, o) := by
  unfold Hub.check at e
  repeat' split at e
  all_goals first | (cases e; assumption) | cases e

/-- A command with a row of its own that is let through does what its operation says. -/
theorem Hub.cmdWrite_ok {h : Hub} {a : Access} {off : Nat} {op : Hub → Option Hub} {h' : Hub} (e : h.lets a off = true)
    (ho : op h = some h') : h.cmdWrite a off op = h' := by
  obtain ⟨b, o, hc⟩ := Hub.lets_ok e
  simp only [Hub.cmdWrite, hc, ho]

/-- One whose own rule refuses it answers an error response. -/
theorem Hub.cmdWrite_none {h : Hub} {a : Access} {off : Nat} {op : Hub → Option Hub} (e : h.lets a off = true)
    (ho : op h = none) : h.cmdWrite a off op = h.refuse a off true := by
  obtain ⟨b, o, hc⟩ := Hub.lets_ok e
  simp only [Hub.cmdWrite, hc, ho]

/-- A read that is let through. -/
theorem Hub.cmdRead_ok {h : Hub} {a : Access} {off : Nat} {op : Hub → Option (Hub × Nat)} {h' : Hub} {v : Nat}
    (e : h.lets a off false = true) (ho : op h = some (h', v)) :
    h.cmdRead a off op = h'.emit (.regRead a off (BitVec.ofNat 32 v)) := by
  obtain ⟨b, o, hc⟩ := Hub.lets_ok e
  simp only [Hub.cmdRead, hc, ho]

theorem Hub.cmdRead_none {h : Hub} {a : Access} {off : Nat} {op : Hub → Option (Hub × Nat)} (e : h.lets a off false = true)
    (ho : op h = none) : h.cmdRead a off op = h.refuse a off false := by
  obtain ⟨b, o, hc⟩ := Hub.lets_ok e
  simp only [Hub.cmdRead, hc, ho]

/-! ## Counters outside the link blocks -/

/-- A counter that lies in no link block changes nothing but itself and what hardware counted in this cycle. -/
theorem Hub.count_plain (h : Hub) (f : Fld) (n : Nat) (hl : ∀ l o, locate f.off ≠ some (.link l, o)) :
    ∃ v m, h.count f n = { h.put f v with hw := m } := by
  unfold Hub.count
  split
  · exact ⟨_, _, rfl⟩
  · dsimp only
    split
    · rename_i l o hlo; exact absurd hlo (hl l o)
    · exact ⟨_, h.hw, rfl⟩
  · exact ⟨_, _, rfl⟩

/-! ## The error log (R445-R455) -/

/-- A field outside the error block. -/
def Fld.notErr (f : Fld) : Prop := f.key < 0x30000 * 32 ∨ 0x38000 * 32 ≤ f.key

/-- A change confined to the error block's registers with what is marked of the cycle, its log and the outputs. -/
structure LogOnly (h h' : Hub) : Prop where
  parts : h' = { h with fields := h'.fields, hw := h'.hw, err := h'.err, out := h'.out }
  regs : ∀ f : Fld, f.notErr → h'.fld f = h.fld f
  outs : OutGrows h h'

theorem LogOnly.refl (h : Hub) : LogOnly h h := ⟨rfl, fun _ _ => rfl, [], rfl⟩

theorem LogOnly.trans {h g k : Hub} (p : LogOnly h g) (q : LogOnly g k) : LogOnly h k := by
  refine ⟨?_, fun f e => (q.regs f e).trans (p.regs f e), ?_⟩
  · have := q.parts
    rw [p.parts] at this
    exact this
  · obtain ⟨l, hl⟩ := p.outs
    obtain ⟨m, hm⟩ := q.outs
    exact ⟨m ++ l, by rw [hm, hl, List.append_assoc]⟩

theorem LogOnly.put (h : Hub) (f : Fld) (v : Nat) (e : 0x30000 * 32 ≤ f.key ∧ f.key < 0x38000 * 32) : LogOnly h (h.put f v) :=
  ⟨rfl, fun g hg => Hub.fld_put_ne _ _ _ _ (by unfold Fld.notErr at hg; omega), [], rfl⟩

theorem LogOnly.mark (h : Hub) (k n : Nat) : LogOnly h (h.mark k n) := ⟨rfl, fun _ _ => rfl, [], rfl⟩

theorem LogOnly.flag (h : Hub) (b : Block) (f : Fld) (e : 0x30000 * 32 ≤ f.key ∧ f.key < 0x38000 * 32) :
    LogOnly h (h.flag b f) := by
  have k : LogOnly h (h.hwSet f) := (LogOnly.put h f _ e).trans (LogOnly.mark _ _ _)
  rcases h.flag_cases b f with q | ⟨v, q⟩ <;> rw [q]
  · exact k
  · exact k.trans ⟨rfl, fun _ _ => rfl, [_], rfl⟩

theorem LogOnly.count (h : Hub) (f : Fld) (n : Nat) (e : 0x30000 * 32 ≤ f.key ∧ f.key < 0x38000 * 32)
    (hl : ∀ l o, locate f.off ≠ some (.link l, o)) : LogOnly h (h.count f n) := by
  obtain ⟨v, m, q⟩ := h.count_plain f n hl
  rw [q]; exact (LogOnly.put h f v e).trans ⟨rfl, fun _ _ => rfl, [], rfl⟩

theorem LogOnly.err (h : Hub) (e : Err) : LogOnly h { h with err := e } := ⟨rfl, fun _ _ => rfl, [], rfl⟩

theorem Hub.logBlks_only (h : Hub) : LogOnly h h.logBlks := by
  unfold Hub.logBlks
  split
  · exact .refl h
  · exact (LogOnly.put _ _ _ (by decide)).trans (LogOnly.put _ _ _ (by decide))

/-- An error counter. -/
theorem LogOnly.countErr (h : Hub) (f : Fld) (n : Nat)
    (e : f = F.ERR_LOSTCNT ∨ f = F.ERR_REPCNT ∨ f = F.ERR_CNTC ∨ f = F.ERR_CNTU ∨ f = F.ERR_CNTF) : LogOnly h (h.count f n) := by
  have hl : (match locate f.off with | some (.link _, _) => false | _ => true) = true := by
    rcases e with rfl | rfl | rfl | rfl | rfl <;> decide
  refine LogOnly.count h f n (by rcases e with rfl | rfl | rfl | rfl | rfl <;> decide) fun l o q => ?_
  rw [q] at hl; cases hl

theorem Hub.logLost_only (h : Hub) : LogOnly h h.logLost :=
  (LogOnly.flag _ _ _ (by decide)).trans (LogOnly.countErr _ _ _ (by simp))

/-- Writing a log entry touches the error block alone (R450-R452). -/
theorem Hub.logWrite_only (h : Hub) (e : LogEntry) : LogOnly h (h.logWrite e) := by
  have app : ∀ l : List LogEntry, LogOnly h (Hub.logBlks { h with err := { h.err with log := l } }) :=
    fun l => (LogOnly.err h _).trans (Hub.logBlks_only _)
  unfold Hub.logWrite
  dsimp only
  split
  · exact app _
  · split
    · exact (LogOnly.err h _).trans (LogOnly.countErr _ _ _ (by simp))
    · repeat' split
      all_goals first | exact app _ | exact Hub.logLost_only h

/-- The first-error capture touches the error block alone (R453). -/
theorem Hub.capture_only (h : Hub) (e : LogEntry) : LogOnly h (h.capture e) := by
  unfold Hub.capture
  dsimp only
  split
  · exact (LogOnly.err h _).trans ((LogOnly.err _ _).trans (LogOnly.flag _ _ _ (by decide)))
  · split
    · exact (LogOnly.err h _).trans (LogOnly.err _ _)
    · exact LogOnly.err h _

/-- Recording an error touches the error block alone (R445, R451, R453, R458). -/
theorem Hub.record_only (h : Hub) (e : LogEntry) : LogOnly h (h.record e) := by
  have k1 : ∀ g : Hub, LogOnly g (if e.cls == 1 then g.count F.ERR_CNTC else if e.cls == 2 then g.count F.ERR_CNTU
      else if e.cls == 3 then g.count F.ERR_CNTF else g) := by
    intro g
    repeat' split
    all_goals first | exact LogOnly.countErr _ _ _ (by simp) | exact .refl _
  have k2 : ∀ g : Hub, LogOnly g (if g.fld F.ERR_CTL_FEC_MIN ≤ e.cls.toNat then g.capture e else g) := by
    intro g
    split
    · exact Hub.capture_only g e
    · exact .refl _
  have k3 : ∀ g : Hub, LogOnly g (if g.fld F.ERR_CTL_INT_MIN ≤ e.cls.toNat then g.flag .err F.ERR_FLAG_NEW else g) := by
    intro g
    split
    · exact LogOnly.flag _ _ _ (by decide)
    · exact .refl _
  exact (((k1 h).trans (k2 _)).trans (k3 _)).trans (Hub.logWrite_only _ _)

/-- An escalation that is not of the P-die touches the error block alone (R446). -/
theorem Hub.escalate_only (h : Hub) : LogOnly h (h.escalate false) := by
  unfold Hub.escalate
  exact ((LogOnly.err h _).trans (LogOnly.put _ F.ERR_STAT_ESC_PEND 1 (by decide))).trans (LogOnly.flag _ _ _ (by decide))

theorem Hub.storm_only (h : Hub) : LogOnly h h.storm := by
  unfold Hub.storm
  dsimp only
  split
  · exact ((LogOnly.err h _).trans (Hub.record_only _ _)).trans (Hub.escalate_only _)
  · exact LogOnly.err h _

/-- An error touches the error block alone, but for a fatal one of the P-die, whose escalation puts the lanes' keepers
on (R446). -/
theorem Hub.raise_only (h : Hub) (cls : BitVec 2) (u : UnitAt) (cause addr : Nat) (req : BitVec 4) (rnode : BitVec 8)
    (space : BitVec 2) (esc : Bool) (hc : cls ≠ 3 ∨ esc = false ∨ u.pdie = false) :
    LogOnly h (h.raise cls u cause addr req rnode space esc) := by
  unfold Hub.raise
  dsimp only
  split
  · exact (Hub.record_only _ _).trans (Hub.storm_only _)
  · split
    · rename_i h3
      rcases hc with q | q | q
      · simp_all
      · simp_all
      · rw [q]; exact (Hub.record_only _ _).trans (Hub.escalate_only _)
    · exact Hub.record_only _ _

/-- What logging a refused access changes: the log, and the count of violations of the secure region (R11, R395). -/
theorem Hub.refuseLog_frame (h : Hub) (a : Access) (off : Nat) :
    ∃ g, (g = h ∨ ∃ v m, g = { h.put F.SEC_VIOLCNT_COUNT v with hw := m }) ∧ LogOnly g (h.refuseLog a off) := by
  unfold Hub.refuseLog
  dsimp only
  split
  · obtain ⟨v, m, hv⟩ := h.count_plain F.SEC_VIOLCNT_COUNT 1 (by
      intro l o; rw [show locate F.SEC_VIOLCNT_COUNT.off = some (.sec, 0x10) from by decide]; simp)
    rw [hv]
    exact ⟨_, .inr ⟨v, m, rfl⟩, Hub.raise_only _ _ _ _ _ _ _ _ _ (.inl (by decide))⟩
  · exact ⟨h, .inl rfl, Hub.raise_only _ _ _ _ _ _ _ _ _ (.inl (by decide))⟩

theorem LogOnly.emit (h : Hub) (o : Out) : LogOnly h (h.emit o) := ⟨rfl, fun _ _ => rfl, [o], rfl⟩

/-- What an error response changes beside its output: the same. -/
theorem Hub.refuse_frame (h : Hub) (a : Access) (off : Nat) (wr : Bool) :
    ∃ g, (g = h ∨ ∃ v m, g = { h.put F.SEC_VIOLCNT_COUNT v with hw := m }) ∧ LogOnly g (h.refuse a off wr) := by
  obtain ⟨g, hg, hl⟩ := h.refuseLog_frame a off
  exact ⟨g, hg, hl.trans (LogOnly.emit _ _)⟩

/-- The newest output after a refusal is the error response. -/
theorem Hub.refuse_out (h : Hub) (a : Access) (off : Nat) (wr : Bool) :
    (h.refuse a off wr).out.head? = some (.regError a off (errForm a wr)) := rfl

/-- A refused access leaves every register outside the error block, but for the count of violations. -/
theorem Hub.refuse_fld (h : Hub) (a : Access) (off : Nat) (wr : Bool) (f : Fld) (hf : f.notErr)
    (hv : f.key ≠ F.SEC_VIOLCNT_COUNT.key) : (h.refuse a off wr).fld f = h.fld f := by
  obtain ⟨g, hg, hl⟩ := h.refuse_frame a off wr
  rw [hl.regs f hf]
  rcases hg with rfl | ⟨v, m, rfl⟩
  · rfl
  · exact Hub.fld_put_ne h F.SEC_VIOLCNT_COUNT f v hv

/-- Everything outside registers, log and outputs is as before. -/
theorem Hub.refuse_parts (h : Hub) (a : Access) (off : Nat) (wr : Bool) :
    h.refuse a off wr = { h with fields := (h.refuse a off wr).fields, hw := (h.refuse a off wr).hw, err := (h.refuse a off wr).err,
                                 out := (h.refuse a off wr).out } := by
  obtain ⟨g, hg, hl⟩ := h.refuse_frame a off wr
  have := hl.parts
  rcases hg with rfl | ⟨v, m, rfl⟩
  · exact this
  · exact this

end Sys2Proof.Machine
end

