-- ==== Sys2Proof/WellFormed.lean ====
section
/-! DEFINITION. When a command is one the block can be sent: the operand ranges that no type states. -/

namespace Sys2Proof

/-- Only requesters 10 and 11 act for another node or member (Table 0.6). -/
def Access.wf (a : Access) : Bool := a.req == 10 || a.req == 11 || (a.node == 0 && a.mem == 0)

/-- LEN is the length of the payload, at most 9,216 bytes (Table 9.1). -/
def Frame.wf (f : Frame) : Bool := f.hdr.len.toNat == f.pay.length && decide (f.pay.length ≤ 9216)

/-- A request moves 1 to 4,096 bytes (Table 7.2). -/
def Request.wf (r : Request) : Bool := decide (1 ≤ r.len ∧ r.len ≤ 4096) && decide (r.data.length ≤ 4096)

/-- At most 8 bytes in a classical and 64 in an FD frame; only classical frames are remote, only FD frames switch rate (04). -/
def CanFrame.wf (f : CanFrame) : Bool :=
  decide (f.data.length ≤ if f.fdf then 64 else 8) && !(f.fdf && f.rtr) && !(f.brs && !f.fdf)

/-- A transmit descriptor has eight words (Table 13.2). -/
def TxDesc.wf (d : TxDesc) : Bool := d.words.length == 8

/-- A partition is whole image tiles, 1 to 1,024 of them (Table 12.2). -/
def Partition.wf (p : Partition) : Bool := p.raw.length % 256 == 0 && decide (256 ≤ p.raw.length ∧ p.raw.length ≤ 262144)

/-- Bulk data behind a message is at most 4,096 bytes (R402). -/
def Bulk.wf : Bulk → Bool
  | .inline d => decide (d.length ≤ 4096)
  | .window _ => true

/-- A warm reset's request. -/
def WarmCause.wf : WarmCause → Bool
  | .software a => a.wf
  | .fatal | .ring => true

/-- A sample's request. -/
def SsiTrigger.wf : SsiTrigger → Bool
  | .software a => a.wf
  | .period | .cycle => true

/-- A wake's frame. -/
def CanWake.wf : CanWake → Bool
  | .frame f => f.wf
  | .dominant | .request => true

/-- A served bundle is whole blocks of 4,096 bytes (R364). -/
def BootSource.wf (b : BootSource) : Bool := b.bundle.length % 4096 == 0

/-- The check of a command: every operand that a type does not bound by itself. -/
def Instr.wf (i : Instr) : Bool :=
  match i with
  | .registerWrite a _ _ _ => a.wf
  | .commitGo a _ => a.wf
  | .counterReadClear a _ => a.wf
  | .dieLinkFlitFail _ => true
  | .coldReset _ => true
  | .warmReset why => why.wf
  | .pdieReset a => a.wf
  | .regionReset a _ => a.wf
  | .clusterReset a _ => a.wf
  | .resetComplete _ => true
  | .laneReset a _ => a.wf
  | .laneResetEnd _ => true
  | .laneFuncWrite a _ _ => a.wf
  | .laneEnable a _ => a.wf
  | .laneDisable a _ => a.wf
  | .flushRx a _ => a.wf
  | .flushTx a _ => a.wf
  | .txdataPush a _ _ => a.wf
  | .rxdataPop a _ => a.wf
  | .outLatchWrite a _ _ => a.wf
  | .bankVoltageFault _ => true
  | .bankVoltageOk _ => true
  | .laneCauseClear _ => true
  | .laneHoldExpire _ => true
  | .pinRawChange _ _ _ => true
  | .debounceAccept _ _ => true
  | .pwmPeriodEnd _ => true
  | .uartCharSent _ => true
  | .uartCharReceived _ _ => true
  | .spiStreamWord _ _ => true
  | .spiTargetWord _ _ => true
  | .i2cCommandWord _ _ => true
  | .i2cStretchTimeout _ => true
  | .i2cBusClear _ _ => true
  | .i2cBusStuck _ => true
  | .i2cAlert _ => true
  | .i2cTargetByte _ _ => true
  | .ssiSample _ trig => trig.wf
  | .ssiSampleDone _ _ _ _ => true
  | .sdciWakeup _ => true
  | .sdciConnect _ _ => true
  | .sdciDeviceLost _ => true
  | .sdciDeviceEvent _ _ => true
  | .sdciMSequence _ _ _ => true
  | .quadCount _ _ _ => true
  | .quadZEdge _ => true
  | .quadPreset a _ _ => a.wf
  | .streamWrite rq => rq.wf
  | .streamRead rq => rq.wf
  | .spiDeviceAccess rq => rq.wf
  | .i2cDeviceAccess rq => rq.wf
  | .sdciPdAccess rq => rq.wf
  | .sdciIsduAccess rq => rq.wf
  | .ssiDeviceRead rq => rq.wf
  | .quadDeviceAccess rq => rq.wf
  | .pinsDeviceAccess rq => rq.wf
  | .deviceAccessDone _ _ => true
  | .nop _ _ => true
  | .halt _ _ => true
  | .li _ _ => true
  | .lih _ _ => true
  | .alu _ _ => true
  | .alui _ _ => true
  | .br _ _ => true
  | .djnz _ _ => true
  | .jmp _ _ => true
  | .call _ _ => true
  | .ret _ _ => true
  | .tset _ _ => true
  | .tadd _ _ => true
  | .taddb _ _ => true
  | .waitt _ _ => true
  | .wedge _ _ => true
  | .wedgeEdgeFound _ _ _ => true
  | .wedgeTimeout _ _ => true
  | .act _ _ => true
  | .actg _ _ => true
  | .sho _ _ => true
  | .shi _ _ => true
  | .bpin _ _ => true
  | .pull _ _ => true
  | .push _ _ => true
  | .sig _ _ => true
  | .frd _ _ => true
  | .frdCompletion _ _ _ _ _ => true
  | .fwr _ _ => true
  | .movs _ _ => true
  | .movt _ _ => true
  | .actionRetire _ => true
  | .sampleResolve _ _ _ => true
  | .reedRun a _ => a.wf
  | .reedStop a _ => a.wf
  | .reedStopped _ => true
  | .reedFlush a _ => a.wf
  | .contextEnable a _ _ => a.wf
  | .contextDisable a _ _ => a.wf
  | .syncArm a _ _ => a.wf
  | .syncDisarm a _ => a.wf
  | .syncTrigger _ => true
  | .syncTriggerGnomon => true
  | .canEnable a _ => a.wf
  | .canDisable a _ => a.wf
  | .canIntegrated _ => true
  | .canRaminit a _ => a.wf
  | .canRaminitDone _ => true
  | .canFrameReceived _ f => f.wf
  | .canTxreq a _ _ => a.wf
  | .canTxcancel a _ _ => a.wf
  | .canSof _ => true
  | .canArbLost _ => true
  | .canFrameSent _ => true
  | .canBusError _ _ => true
  | .canBusoffRecover _ => true
  | .canSleepRequest a _ _ => a.wf
  | .canSleepEnter _ => true
  | .canWake _ why => why.wf
  | .canTunnelSend _ => true
  | .canRamAccess rq => rq.wf
  | .canTxreqAccess rq => rq.wf
  | .gnoCommit a => a.wf
  | .gnoApply => true
  | .gnoNowRead a => a.wf
  | .gnoShadowRead a _ => a.wf
  | .gnoPair a => a.wf
  | .gnoPairLatch => true
  | .anchorShadowWrite a _ _ _ => a.wf
  | .anchorApply a _ _ => a.wf
  | .acntlRead a _ => a.wf
  | .timed f => f.wf
  | .pulseEdge _ _ => true
  | .pulseRouteInsert _ _ => true
  | .ppsInEdge => true
  | .ptp _ f => f.wf
  | .ptpTxStamp _ _ _ _ => true
  | .twoStepExpire _ _ _ => true
  | .tsqPop a _ => a.wf
  | .quarantineRetest _ _ => true
  | .scrubStep _ => true
  | .switchEnable a => a.wf
  | .frameReceived _ f _ => f.wf
  | .frameEgress _ => true
  | .spillWriteDone _ => true
  | .refill _ _ => true
  | .tileInject a _ => a.wf
  | .bridgeIssue rq => rq.wf
  | .tagAvailable => true
  | .read rq => rq.wf
  | .write rq => rq.wf
  | .lockRead rq => rq.wf
  | .lockWrite rq => rq.wf
  | .unlock rq => rq.wf
  | .cpl f => f.wf
  | .reissue _ => true
  | .completionTimeout _ => true
  | .tagHoldExpire _ => true
  | .retryWaitExpire _ => true
  | .slotAccessEnd _ _ => true
  | .slotExpire _ => true
  | .echoFetch _ => true
  | .echoFreshExpire _ => true
  | .echoStreamClear _ => true
  | .salvageExpire _ _ => true
  | .salvageClear a _ => a.wf
  | .lockReserveExpire _ => true
  | .lockIdleBreak _ => true
  | .event f => f.wf
  | .eventGapExpire _ => true
  | .tunnel f => f.wf
  | .uartTunnelSend _ => true
  | .bridgeDisable a => a.wf
  | .linkEnable a _ => a.wf
  | .linkDisable a _ => a.wf
  | .moduleInserted _ => true
  | .moduleInitDone _ => true
  | .moduleRemoved _ => true
  | .losAssert _ => true
  | .blockLockLoss _ _ => true
  | .beaconMiss _ => true
  | .beaconSend _ => true
  | .beaconReceived _ f => f.wf
  | .linkHoldExpire _ => true
  | .sfpI2cGo a _ _ => a.wf
  | .sfpI2cDone _ _ _ => true
  | .gclSwap _ => true
  | .gateIntervalEnd _ => true
  | .pfc _ f => f.wf
  | .pfcRepeat _ _ => true
  | .pauseExpire _ _ => true
  | .shiftWindowEnd _ _ => true
  | .shiftPropose _ f => f.wf
  | .shiftAgree _ f => f.wf
  | .shiftReject _ f => f.wf
  | .shiftReq f => f.wf
  | .shiftAns f => f.wf
  | .shiftDrainEnd _ => true
  | .shiftRetrainTimeout _ => true
  | .lpiEnter _ => true
  | .flareSend a _ => a.wf
  | .flareDone _ => true
  | .statsPeriodBoundary _ => true
  | .ringFrameReceived _ _ _ _ => true
  | .joinReqSend => true
  | .joinReq f => f.wf
  | .joinAck f => f.wf
  | .joinNak f => f.wf
  | .electStart => true
  | .elect f => f.wf
  | .electWin => true
  | .masterHbSend => true
  | .masterHb f => f.wf
  | .masterLost => true
  | .idPush f => f.wf
  | .topoSweep => true
  | .topo _ f => f.wf
  | .topoMap f => f.wf
  | .wrap f => f.wf
  | .linkup f => f.wf
  | .unwrapHoldExpire _ _ => true
  | .unwrap f => f.wf
  | .unwrapTime => true
  | .wrapPlan f => f.wf
  | .wrapPlanTime => true
  | .ringResetFrame f => f.wf
  | .ringResetTime => true
  | .droneEnable a => a.wf
  | .cycleStart => true
  | .freezeDone => true
  | .droneSend => true
  | .drone _ f _ => f.wf
  | .droneRegen _ _ => true
  | .drnLateSend _ _ => true
  | .drnLate f => f.wf
  | .droneClose => true
  | .droneApply => true
  | .coreInstruction _ => true
  | .tileBufferFill _ _ => true
  | .tbopWriteBack _ _ => true
  | .tbopWriteBackInvalidate _ _ => true
  | .tbopInvalidate _ _ => true
  | .tbopAllocateZero _ _ => true
  | .eventPop _ => true
  | .eventPost a _ _ => a.wf
  | .issueGo _ => true
  | .issueCompletion _ _ _ _ _ => true
  | .issueSlotFree _ _ => true
  | .semLockRead a _ => a.wf
  | .semLockRelease a _ _ => a.wf
  | .semForce a _ => a.wf
  | .coreStart a _ => a.wf
  | .coreStop a _ => a.wf
  | .coreStopped _ => true
  | .watchdogKick _ => true
  | .watchdogExpire _ => true
  | .tcmDataAccess a _ _ => a.wf
  | .relayCopyComplete => true
  | .lampEnable a => a.wf
  | .lampStartWait => true
  | .leaseRenew => true
  | .lease f => f.wf
  | .rleaseWrite a _ => a.wf
  | .leaseLapse => true
  | .leaseDeadline => true
  | .lampAck f => f.wf
  | .ackMissing => true
  | .healthLoss => true
  | .forceRel a => a.wf
  | .forceTake a => a.wf
  | .lampRelease f => f.wf
  | .releaseGuardExpire => true
  | .memberDriveExpire => true
  | .memberBeat a _ => a.wf
  | .stewardHeartbeat a => a.wf
  | .lampInput f => f.wf
  | .stackItem a _ => a.wf
  | .lampMark f => f.wf
  | .markWaitExpire => true
  | .cplm f => f.wf
  | .lampSig f => f.wf
  | .lampRelay f => f.wf
  | .reclaimStart => true
  | .claim f => f.wf
  | .grant f => f.wf
  | .refuse f => f.wf
  | .handoverRelease => true
  | .claimTake => true
  | .claimTimeout => true
  | .boot src => src.wf
  | .partitionApply p => p.wf
  | .recordNop => true
  | .recordWrite _ _ => true
  | .recordBlock _ _ ws => decide (1 ≤ ws.length ∧ ws.length ≤ 60)
  | .recordPoll _ _ _ _ _ => true
  | .recordCommit _ _ => true
  | .recordEnd => true
  | .imgBegin _ _ _ => true
  | .imgBlock _ _ _ bulk => bulk.wf
  | .imgEnd _ _ => true
  | .imgActivateReset _ _ _ => true
  | .imgActivateLive _ _ _ => true
  | .imgActivateCancel _ _ => true
  | .activateResetTime => true
  | .liveLock _ => true
  | .liveDroneWrite _ => true
  | .liveSwitch => true
  | .imgConfirm _ _ => true
  | .imgReapply _ _ _ _ => true
  | .imgStatus _ _ => true
  | .sessionTimeout => true
  | .trialStop a => a.wf
  | .trialExpire => true
  | .prlockWrite a _ => a.wf
  | .dramTrain a _ => a.wf
  | .dramTrainDone _ _ => true
  | .hostReset => true
  | .endpointReady => true
  | .bar0Access _ _ _ => true
  | .bar2Access _ _ _ => true
  | .txEth _ d => d.wf
  | .txPtp _ d => d.wf
  | .txRequest _ d => d.wf
  | .txTimed _ d => d.wf
  | .rxDeliver _ f _ _ => f.wf
  | .rxWaitExpire _ => true
  | .mbxInPush a _ _ => a.wf
  | .mbxOutPop a _ => a.wf
  | .mbx2WordAccess a _ => a.wf
  | .mgmt f => f.wf
  | .ping _ _ => true
  | .logRead _ _ _ _ => true
  | .logClear _ _ => true
  | .regRead _ _ _ => true
  | .regWrite _ _ _ _ => true
  | .ringReset _ _ _ => true
  | .provision _ _ _ => true
  | .revoke _ _ _ => true
  | .bootWait => true
  | .powerRequest a _ _ => a.wf
  | .quiesceTimeout _ => true
  | .powerStepDone _ => true
  | .powerStateReached _ => true
  | .powerWake _ => true
  | .standby a => a.wf
  | .standbyMinoffEnd => true
  | .wakeLatch _ => true
  | .flareLook _ _ => true
  | .pilotTimerExpire => true
  | .vaonPowerUp => true
  | .pllLoss _ => true
  | .thermalWarn _ _ => true
  | .thermalShutdown _ _ => true
  | .thermalHoldEnd => true
  | .dimmerTrip _ => true
  | .dimmerClear => true
  | .dimmerLong => true
  | .pdieDroop _ => true
  | .bellowsStart => true
  | .rampDone => true
  | .rampTimeout => true
  | .blEnFall => true
  | .blEnRise => true
  | .undervoltage => true
  | .overvoltage => true
  | .breakerLimit => true
  | .breakerClear => true
  | .slowTrip => true
  | .fastTrip => true
  | .powerGood => true
  | .consecClear => true
  | .offtimeEnd => true
  | .bellowsClear a => a.wf
  | .escalation => true
  | .logPop a => a.wf
  | .errLogClear a => a.wf
  | .fecClear a => a.wf
  | .errorInject a _ => a.wf
  | .interruptRearm a _ => a.wf
  | .preemptionVerify _ _ => true
  | .canProtocolException _ => true
  | .pllRelock _ => true
  | .vaonLoss => true

end Sys2Proof
end

