-- ==== Sys2Proof/Tests/Slice0.lean ====
section
/-! SUPPORT. The model's own tests: ill-formed commands, values worked out in the spec, words of the spec's reed program,
and for every statement with hypotheses a state and operands that meet them. -/

set_option maxRecDepth 4000
set_option linter.unusedVariables false

namespace Sys2Proof.Machine

/-- A hub at a tick. -/
def Hub.atNow (h : Hub) (t : Nat) : Hub := { h with now := t }

end Sys2Proof.Machine

namespace Sys2Proof.Tests
open Sys2Proof Sys2Proof.Machine

/-- The hub after reset. -/
def rs : Hub := State.reset.hub
/-- The steward and the local host as requesters. -/
def stew : Access := { req := 0, node := 0, mem := 0, posted := false }
def host : Access := { req := 9, node := 0, mem := 0, posted := false }
/-- A lane in UP with a function. -/
def Hub.withUp (h : Hub) (n : Fin 64) (f : Nat) : Hub :=
  ((h.put (F.LN_FUNC_FUNC n) f).put (F.LN_STAT_STATE n) lnUP).on (F.LN_CTL_EN n)
/-- A request of the steward of this hub for bridge space. -/
def rrq (off : Nat) (len : Nat) : Request :=
  { op := opREAD, addr := BitVec.ofNat 48 (3 * 2 ^ 36 + off), len := len, req := 0, snode := 0, smem := 0, tag := 5, again := false,
    posted := false, tc := 3, seq := 0, data := [] }
def wrq (op : BitVec 4) (off : Nat) (data : List Byte) (posted : Bool) : Request :=
  { rrq off data.length with op := op, data := data, posted := posted }
/-- The bridge serves, and tag 5 is held by a request. -/
def serving (h : Hub) : Hub := h.on F.BRG_CTL_EN
def openWin (h : Hub) : Hub := (serving h).setTag 5 (.use { rq := rrq 0x080000000 8, first := 0 })
def waitFor (h : Hub) (rq : Request) : Hub := (serving h).setTag 5 (.use { rq := rq, first := 0 })

/-- Engine 2 runs; the word of `i` stands at the PC of context 0, whose slot it is. -/
def reedHub (i : ReedIns) (r : CtxRegs := {}) : Hub :=
  ((rs.on (F.REED_STAT_ACTIVE 2)).modReed 2 fun e => { e with pmem := [(0, encodeReed i)], en := 65535 }).modCtx 2 0 fun t => { t with st := cxRUN, r := r }
/-- A header of a type to a node. -/
def pHdr (typ : BitVec 4) (dn : BitVec 8) : Header :=
  { typ := typ, tc := 4, x := false, hops := 0, w := false, len := 12, dnode := dn, dmem := 0, snode := 0, smem := 0, tag := 0,
    d := false, np := false, seq := 1, adr := 0 }
/-- A posted TIMED write of one record. -/
def timedFrame (w0 w1 : W32) : Frame :=
  { hdr := pHdr tTIMED 0, pay := wordsPay [0x00700001#32, w0, w1] }
/-- A hub whose window 0 admits node 3 to TIMED writes. -/
def lateHub (late : Bool) : Hub :=
  let h := (((Hub.withUp rs 10 0).put (F.LN_PIN_MODE 10 0) pmOUT).put F.GNO_CVALID_VALID 255).on F.BRG_CTL_EN
  let h := ((((h.on (F.BRG_WIN_ATTR_EN 0)).on (F.BRG_WIN_ATTR_TIMED 0)).putB (F.BRG_WIN_ATTR_LATE 0) late).put (F.BRG_WIN_BASE_SPACE 0) 3).put (F.BRG_WIN_LIMIT_BLK 0) (2 ^ 28 - 1)
  { h with gno := { t := { sec := 9 } } }
/-- Reads and writes of the steward in a space of this member. -/
def rrqA (sp off len : Nat) : Request := { rrq 0 len with addr := BitVec.ofNat 48 (sp * 2 ^ 36 + off) }
def wrqA (sp off : Nat) (data : List Byte) : Request := { wrq 1 0 data true with addr := BitVec.ofNat 48 (sp * 2 ^ 36 + off) }

/-- An image tile of kind 2, number 0, that holds END alone. -/
def endTile : List Byte :=
  let b := leBytes 0x20000000#32 ++ leBytes 0xF0000000#32 ++ List.replicate 244 0
  b ++ leBytes (crc32c b)

/-- A classical data frame. -/
def cf : CanFrame := ⟨false, false, false, false, false, 5, 0, []⟩

/-! ## Well-formedness: a term that each check refuses -/

/-- A core's access names no other node (Table 0.6). -/
theorem test_wf_access : (Instr.fecClear { req := 3, node := 7, mem := 0, posted := false }).wf = false := by decide
/-- LEN is not the payload's length (Table 9.1). -/
theorem test_wf_frame : (Instr.cpl { hdr := pHdr 1 0, pay := [] }).wf = false := by decide
/-- A request of no bytes (Table 7.2). -/
theorem test_wf_request : (Instr.read { rrq 0 1 with len := 0 }).wf = false := by decide
/-- A remote FD frame. -/
theorem test_wf_can_frame : (Instr.canFrameReceived 0
    { cf with fdf := true, rtr := true }).wf = false := by decide
/-- A descriptor of seven words (Table 13.2). -/
theorem test_wf_descriptor : (Instr.txEth 0 ⟨List.replicate 7 0, []⟩).wf = false := by decide
/-- A partition that is not whole tiles (Table 12.2). -/
theorem test_wf_partition : (Instr.partitionApply { pid := 0, raw := [1], digest := 0, waits := [] }).wf = false := by decide
/-- Bulk data of more than 4,096 bytes (R402). -/
theorem test_wf_bulk : (Instr.imgBlock 1 0 0 (.inline (List.replicate 4097 0))).wf = false := by decide +kernel
/-- A warm reset, a sample and a wake carry their operand's check. -/
theorem test_wf_causes :
    (Instr.warmReset (.software { req := 3, node := 7, mem := 0, posted := false })).wf = false ∧
    (Instr.ssiSample 0 (.software { req := 3, node := 7, mem := 0, posted := false })).wf = false ∧
    (Instr.canWake 0 (.frame { cf with brs := true })).wf = false := by decide
/-- A served bundle that is not whole blocks (R364). -/
theorem test_wf_boot : (Instr.boot { bundle := [0], waits := [] }).wf = false := by decide
/-- A BLOCK record of no words (R367). -/
theorem test_wf_block : (Instr.recordBlock 0 false []).wf = false := by decide

/-! ## Values the spec works out -/

/-- The words of the example program of chapter 03: LI G5, 2000; MOVT G5, BT; PULL G1, lane 2, W; ALUI G1, SHL, 18; TSET
1600; SHO pin 6, 14 bits. -/
theorem test_reed_words_1 :
    decodeReed 0x0A8007D0 = some (.li 5 2000) ∧ decodeReed 0xA6850000 = some (.movt 5 5) ∧
    decodeReed 0x80A80000 = some (.pull 1 2 true) ∧ decodeReed 0x14850012 = some (.alui 1 5 18) ∧
    decodeReed 0x40000640 = some (.tset 1600) ∧ decodeReed 0x68C0000D = some (.sho 6 false 13) := by decide
/-- BPIN pin 7, level 0, noack; TADD -100; ACT pin 8, high; SHI pin 7, 16 bits; MOVS G2, SH; PUSH G2, lane 2; JMP frame;
LIH G2, 0x8000 (chapter 03, the same program). -/
theorem test_reed_words_2 :
    decodeReed 0x70E00016 = some (.bpin 7 false 0 0x16) ∧ decodeReed 0x4400FF9C = some (.tadd false 0xFF9C) ∧
    decodeReed 0x61080000 = some (.act 8 1 false) ∧ decodeReed 0x6CE0000F = some (.shi 7 false 15) ∧
    decodeReed 0xA1000000 = some (.movs 2 0) ∧ decodeReed 0x85200000 = some (.push 2 2) ∧
    decodeReed 0x20000002 = some (.jmp 2) ∧ decodeReed 0x0D008000 = some (.lih 2 0x8000) := by decide
/-- An opcode Table 3.3 does not list carries no instruction. -/
theorem test_reed_unlisted : decodeReed 0xFC000000 = none ∧ decodeReed 0x30000000 = none := by decide

/-- The diverter example of chapter 05: T = 1,204 s + 357,512,345.750 ns is tick 481,603,004,848, tap 2. -/
theorem test_anchor_to_tick :
    (Anchor.toTick { n := 481600000000, g := { sec := 1204, ns := 350000000 }, rate := 0xA0013A88 }
      (pickTime { sec := 1204 } 0x000004B4553CD267#64)) = (481603004848, 2) := by decide +kernel
/-- Its execute time holds 357,512,345 ns and three quarters (R156). -/
theorem test_execute_time :
    timeSec 0x000004B4553CD267#64 = 1204 ∧ timeNs 0x000004B4553CD267#64 = 357512345 ∧ timeQ 0x000004B4553CD267#64 = 3 := by
  decide
/-- Lane 42's block and its reed's block (chapter 03). -/
theorem test_lane_and_reed_base : laneBase 42 = 0x001A2000 ∧ reedBase 5 = 0x001B0000 := by decide
/-- The fabric address of lane 42's stream on node 5 (chapter 03). -/
theorem test_stream_address :
    FabAddr.node 0x053A80000000#48 = 5 ∧ FabAddr.lane 0x053A80000000#48 = 42 := by decide

/-- CRC-32C of 256 zero bytes: what an unlisted tile's stored check reads as (R173). -/
theorem test_zero_check : crc32c (List.replicate 256 0) = zeroCheck := by decide +kernel
/-- A partial write's check equals the check of the new contents (R175). -/
theorem test_partial_check :
    partialCheck zeroCheck (List.replicate 256 0) [7, 9] 30 =
      crc32c (List.replicate 30 0 ++ [7, 9] ++ List.replicate 224 0) := by decide +kernel

/-- The Bellows example of chapter 15: after 3 ms on, the off time is 1 s; after 20 ms on, 2 s (R439). -/
theorem test_off_time :
    max (100 * (3 * 400000)) oneSecond = oneSecond ∧ max (100 * (20 * 400000)) oneSecond = 2 * oneSecond := by decide
/-- A blank fuse takes the value, a blown one keeps its own (R405). -/
theorem test_blow : blow (none : Option Nat) 5 = (some 5, true) ∧ blow (some 4) 5 = (some 4, false) := by decide

/-! ## Hypotheses that are met -/

theorem witness_step_takes_the_front_command : ∃ h : Hub, h.pwr.asleep.isSome = true :=
  ⟨{ rs with pwr := { asleep := some 0 } }, by decide⟩

theorem witness_register_access_checks :
    (∃ (a : Access) (addr : W32) (v : W32) (s : State), (addr.toNat % 4 = 0) ∧ (s.hub.check a addr.toNat true =
      .refused)) ∧ (∃ (a : Access) (addr : W32) (v : W32) (s : State), (addr.toNat % 4 = 0) ∧ (s.hub.check a
      addr.toNat true = .unlisted)) ∧ (∃ (a : Access) (addr : W32) (v : W32) (b : Block) (o : Nat) (r : RegD) (f :
      FieldD) (s : State), (addr.toNat % 4 = 0) ∧ (s.hub.check a addr.toNat true = .ok b o) ∧ (b.regAt o = some r) ∧
      (s.hub.kRefused b o addr.toNat r v = false) ∧ (badCode b o v = false) ∧ (b.blank o = false) ∧ (f ∈ r.fields) ∧
      (b.plain o) ∧ ((s.hub.wrote.get none addr.toNat).all (fun q => decide (q ≤ a.req.toNat))) ∧ (f.acc = .rw) ∧
      (f.app ≠ .s)) ∧ (∃ (a : Access) (addr : W32) (v : W32) (b : Block) (o : Nat) (r : RegD) (f : FieldD) (s :
      State), (addr.toNat % 4 = 0) ∧ (s.hub.check a addr.toNat true = .ok b o) ∧ (b.regAt o = some r) ∧
      (s.hub.kRefused b o addr.toNat r v = false) ∧ (badCode b o v = false) ∧ (b.blank o = false) ∧ (f ∈ r.fields) ∧
      (b.plain o) ∧ ((s.hub.wrote.get none addr.toNat).all (fun q => decide (q ≤ a.req.toNat))) ∧ (f.acc = .rw) ∧
      (f.app = .s)) ∧ (∃ (a : Access) (addr : W32) (v : W32) (b : Block) (o : Nat) (r : RegD) (f : FieldD) (s :
      State), (addr.toNat % 4 = 0) ∧ (s.hub.check a addr.toNat true = .ok b o) ∧ (b.regAt o = some r) ∧
      (s.hub.kRefused b o addr.toNat r v = false) ∧ (badCode b o v = false) ∧ (b.blank o = false) ∧ (f ∈ r.fields) ∧
      (b.plain o) ∧ ((s.hub.wrote.get none addr.toNat).all (fun q => decide (q ≤ a.req.toNat))) ∧ (f.acc = .w1c)) ∧
      (∃ (a : Access) (addr : W32) (v : W32) (b : Block) (o : Nat) (r : RegD) (f : FieldD) (s : State), (addr.toNat
      % 4 = 0) ∧ (s.hub.check a addr.toNat true = .ok b o) ∧ (b.regAt o = some r) ∧ (s.hub.kRefused b o addr.toNat r
      v = false) ∧ (badCode b o v = false) ∧ (b.blank o = false) ∧ (f ∈ r.fields) ∧ (b.plain o) ∧ ((s.hub.wrote.get
      none addr.toNat).all (fun q => decide (q ≤ a.req.toNat))) ∧ (f.acc = .ro ∨ f.acc = .rc)) ∧ (∃ (a : Access)
      (addr : W32) (v : W32) (n : Fin 64) (o : Nat) (r : RegD) (f : FieldD) (s : State), (addr.toNat % 4 = 0) ∧
      (s.hub.check a addr.toNat true = .ok (.lane n) o) ∧ ((Block.lane n).regAt o = some r) ∧ (s.hub.kRefused (.lane
      n) o addr.toNat r v = false) ∧ (0x40 ≤ o) ∧ (o < 0x4C) ∧ (v.bits 2 0 ≤ 4) ∧ (f ∈ r.fields) ∧ ((s.hub.wrote.get
      none addr.toNat).all (fun q => decide (q ≤ a.req.toNat)))) ∧ (∃ (a : Access) (addr : W32) (v : W32) (b :
      Block) (o : Nat) (r : RegD) (f : FieldD) (q : Nat) (s : State), (addr.toNat % 4 = 0) ∧ (s.hub.check a
      addr.toNat true = .ok b o) ∧ (b.regAt o = some r) ∧ (s.hub.kRefused b o addr.toNat r v = false) ∧ (badCode b o
      v = false) ∧ (b.blank o = false) ∧ (b.plain o) ∧ (f ∈ r.fields) ∧ (f.acc = .rw) ∧ (s.hub.wrote.get none
      addr.toNat = some q) ∧ (a.req.toNat < q) ∧ (s.hub.fld (f.at_ addr.toNat) < 2 ^ f.w) ∧ (s.hub.kRefused b o
      addr.toNat r (s.hub.keepRw addr.toNat r v) = false) ∧ (badCode b o (s.hub.keepRw addr.toNat r v) = false) ∧
      (f.app ≠ .s)) ∧ (∃ (a : Access) (addr : W32) (v : W32) (w : Bool) (s : State), ((w && addr.toNat % 4 == 0) =
      false)) ∧ (∃ (a : Access) (n : Fin 64) (f : Fld) (s : State), (s.hub.lets a (laneBase n + 0x30)) ∧ (s.hub.snap
      = []) ∧ (Sparse.wf (fun _ => none) s.hub.staged = true) ∧ (s.hub.wrote.get none (laneBase n + 0x30) = none) ∧
      (keyIn (laneBase n) (laneBase n + 0xFFF) f.key) ∧ (f.lo < 32)) ∧ (∃ (a : Access) (f : Fld) (s : State),
      (s.hub.lets a 0x84044) ∧ (s.hub.snap = []) ∧ (Sparse.wf (fun _ => none) s.hub.staged = true) ∧
      (s.hub.wrote.get none 0x84044 = none) ∧ (s.hub.staged.get none (F.RNG_STATMODE_MODE).key = none) ∧ (keyIn
      0x84000 0x84FFF f.key) ∧ (f.lo < 32)) ∧ (∃ (a : Access) (f : Fld) (s : State), (s.hub.lets a 0x98068) ∧
      (s.hub.snap = []) ∧ (Sparse.wf (fun _ => none) s.hub.staged = true) ∧ (s.hub.wrote.get none 0x98068 = none) ∧
      (s.hub.staged.get none (F.LMP_STATMODE_MODE).key = none) ∧ (keyIn 0x98000 0x9FFFF f.key) ∧ (f.lo < 32)) ∧ (∃
      (a : Access) (f : Fld) (s : State), (s.hub.lets a 0xA001C) ∧ (s.hub.snap = []) ∧ (Sparse.wf (fun _ => none)
      s.hub.staged = true) ∧ (s.hub.wrote.get none 0xA001C = none) ∧ (s.hub.staged.get none
      (F.SWC_STATMODE_MODE).key = none) ∧ (keyIn 0xA0000 0xA7FFF f.key) ∧ (f.lo < 32)) ∧ (∃ (a : Access) (f : Fld)
      (s : State), (s.hub.lets a 0xB0028) ∧ (s.hub.snap = []) ∧ (Sparse.wf (fun _ => none) s.hub.staged = true) ∧
      (s.hub.wrote.get none 0xB0028 = none) ∧ ((List.range 64).all fun w => !s.hub.echoWin w) ∧ (s.hub.staged.get
      none (F.BRG_STATMODE_MODE).key = none) ∧ (keyIn 0xB0000 0xB7FFF f.key) ∧ (f.lo < 32)) ∧ (∃ (a : Access) (l :
      Fin 4) (f : Fld) (s : State), (s.hub.lets a (linkBase l + 0x3C)) ∧ (s.hub.snap = []) ∧ (Sparse.wf (fun _ =>
      none) s.hub.staged = true) ∧ (s.hub.wrote.get none (linkBase l + 0x3C) = none) ∧ (s.hub.bit (F.X_COMMIT_GO l)
      = false) ∧ (s.hub.staged.all fun p => !keyIn (linkBase l + 0x400) (linkBase l + 0xBFF) p.1) ∧
      (s.hub.staged.get none (F.X_STATMODE_MODE l).key = none) ∧ (keyIn (linkBase l) (linkBase l + 0x3FF) f.key) ∧
      (f.lo < 32)) ∧ (∃ (a : Access) (f : Fld) (s : State), (s.hub.lets a 0x8502C) ∧ (s.hub.snap = []) ∧ (Sparse.wf
      (fun _ => none) s.hub.staged = true) ∧ (s.hub.wrote.get none 0x8502C = none) ∧ (s.hub.bit F.DRN_COMMIT_GO =
      false) ∧ (s.hub.drnOn = false) ∧ ((List.range 512).all fun i => (slotEnt s.hub.stagedOr i).isNone) ∧
      (s.hub.staged.get none (F.DRN_STATMODE_MODE).key = none) ∧ (keyIn 0x85000 0x86FFF f.key) ∧ (f.lo < 32)) ∧ (∃
      (a : Access)  (s : State), (s.hub.lets a 0x8502C) ∧ (s.hub.wrote.get none 0x8502C = none) ∧ (s.hub.bit
      F.DRN_COMMIT_GO = false) ∧ (s.hub.bit F.DRN_CTL_EN) ∧ ((List.range 512).all fun i => (slotEnt s.hub.stagedOr
      i).isNone)) ∧ (∃ (a : Access)  (s : State), (s.hub.lets a 0x6001C) ∧ (s.hub.wrote.get none 0x6001C = none) ∧
      (s.hub.bit F.GNO_COMMIT_GO = false)) ∧ (∃ (a : Access) (addr : W32) (b : Block) (o : Nat) (r : RegD) (f :
      FieldD) (s : State), (s.hub.check a addr.toNat false = .ok b o) ∧ (b.regAt o = some r) ∧ ((s.hub.readFx a b
      o).isNone) ∧ (b.blank o = false) ∧ (r.fields.all fun f => f.acc != .ext) ∧ (s.readFirst a addr = false) ∧ (f ∈
      r.fields) ∧ (f.acc = .rc)) ∧ (∃ (a : Access)  (s : State), (s.hub.lets a 0xB0054 false) ∧ (s.hub.fld
      F.BRG_STATMODE_MODE = 1) ∧ (s.hub.hw = []) ∧ (s.readFirst a 0xB0054#32 = false)) ∧ (∃ (a : Access)  (s :
      State), (s.hub.lets a 0xB0054 false) ∧ (s.hub.fld F.BRG_STATMODE_MODE = 0) ∧ (s.readFirst a 0xB0054#32 =
      false)) :=
  ⟨⟨stew, 0x180001#32 &&& 0xFFFFFFFC#32, 0#32, ⟨[], { rs with fuse := { lanes64 := false } }⟩, by decide⟩, ⟨stew,
    0x0000FFC#32, 0#32, ⟨[], rs⟩, by decide⟩, ⟨stew, 0x20008#32, 5#32, .clk, 8, ⟨"IEN", 0x8, 0, 1, [⟨0, 5, .rw, 0,
    .l⟩]⟩, ⟨0, 5, .rw, 0, .l⟩, ⟨[], rs⟩, by decide⟩, ⟨stew, 0x84040#32, 5#32, .rng, 0x40, (Block.rng.regAt
    0x40).getD ⟨"", 0, 0, 0, []⟩, ⟨16, 2, .rw, 0, .s⟩, ⟨[], rs⟩, by decide⟩, ⟨stew, 0x20004#32, 5#32, .clk, 4,
    (Block.clk.regAt 4).getD ⟨"", 0, 0, 0, []⟩, ⟨0, 1, .w1c, 0, .l⟩, ⟨[], rs⟩, by decide⟩, ⟨stew, 0xB0054#32, 5#32,
    .brg, 0x54, (Block.brg.regAt 0x54).getD ⟨"", 0, 0, 0, []⟩, ⟨0, 32, .rc, 0, .none⟩, ⟨[], rs⟩, by decide⟩, ⟨stew,
    BitVec.ofNat 32 (laneBase 3 + 0x40), 0xF001#32, 3, 0x40, ((Block.lane 3).regAt 0x40).getD ⟨"", 0, 0, 0, []⟩,
    ⟨20, 11, .rw, 0, .l⟩, ⟨[], rs⟩, by decide⟩, ⟨stew, 0x20008#32, 5#32, .clk, 8, ⟨"IEN", 0x8, 0, 1, [⟨0, 5, .rw, 0,
    .l⟩]⟩, ⟨0, 5, .rw, 0, .l⟩, 9, ⟨[], { rs with wrote := [(0x20008, some 9)] }⟩, by decide⟩, ⟨stew, 0x20009#32,
    5#32, true, ⟨[], rs⟩, by decide⟩, ⟨stew, 3, F.LN_HOLD_TIME 3, ⟨[], rs.stage (F.LN_HOLD_TIME 3) 7⟩, by decide⟩,
    ⟨stew, F.RNG_TIMING_TOPO, ⟨[], rs.stage F.RNG_TIMING_TOPO 7⟩, by decide⟩, ⟨stew, ⟨0x98064, 0, 16⟩, ⟨[], rs.stage
    (⟨0x98064, 0, 16⟩) 7⟩, by decide⟩, ⟨stew, ⟨0xA0024, 0, 16⟩, ⟨[], rs.stage (⟨0xA0024, 0, 16⟩) 7⟩, by decide⟩,
    ⟨stew, ⟨0xB0030, 0, 16⟩, ⟨[], rs.stage (⟨0xB0030, 0, 16⟩) 7⟩, by decide⟩, ⟨stew, 1, ⟨linkBase 1 + 0x40, 0, 16⟩,
    ⟨[], rs.stage (⟨linkBase 1 + 0x40, 0, 16⟩) 7⟩, by decide⟩, ⟨stew, ⟨0x85030, 0, 16⟩, ⟨[], rs.stage (⟨0x85030, 0,
    16⟩) 7⟩, by decide⟩, ⟨stew, ⟨[], rs.on F.DRN_CTL_EN⟩, by decide⟩, ⟨stew, ⟨[], rs⟩, by decide⟩, ⟨stew,
    0xB0054#32, .brg, 0x54, (Block.brg.regAt 0x54).getD ⟨"", 0, 0, 0, []⟩, ⟨0, 32, .rc, 0, .none⟩, ⟨[], (rs.put
    F.BRG_STATMODE_MODE 1).put F.BRG_STALECPL 5⟩, by decide⟩, ⟨stew, ⟨[], rs.put F.BRG_STATMODE_MODE 1⟩, by decide⟩,
    ⟨stew, ⟨[], rs⟩, by decide⟩⟩

theorem witness_package_resets :
    (∃ (a : Access) (s : State), (s.hub.lets a 0x10)) ∧ (∃ (r : Fin 2) (s : State), ((s.hub.dl[r]).down = false) ∧
      ((s.hub.dl[r]).fails < 3)) ∧ (∃ (r : Fin 2) (s : State), ((s.hub.dl[r]).down = false) ∧ ((s.hub.dl[r]).fails =
      3)) :=
  ⟨⟨stew, ⟨[], rs⟩, by decide⟩, ⟨1, ⟨[], rs⟩, by decide⟩, ⟨1, ⟨[], { rs with dl := rs.dl.set 1 { fails := 3 } }⟩, by
    decide⟩⟩

theorem witness_pdie_resets :
    (∃ (a : Access)  (s : State), (s.hub.lets a 0x10) ∧ (s.hub.bit F.GLB_RST_CTL_PDIE = false)) ∧ (∃ (a : Access) (r
      : Fin 2) (s : State), (s.hub.lets a 0x10) ∧ (s.hub.fuse.lanes64 = true) ∧ (s.hub.regionBusy r = false)) ∧ (∃
      (a : Access) (c : Fin 8) (s : State), (s.hub.lets a 0x10) ∧ (s.hub.clusterPresent c = true) ∧
      (s.hub.regionBusy (c.val / 4) = false) ∧ ((s.hub.fld F.GLB_RST_CTL_CLUSTER).testBit c = false)) ∧ (∃ (c : Fin
      8) (s : State), ((s.hub.fld F.GLB_RST_CTL_CLUSTER).testBit c = true)) ∧ (∃ (s : State), (s.hub.bit
      F.GLB_RST_CTL_PDIE = true)) ∧ (∃ (a : Access) (n : Fin 64) (s : State), (s.hub.lets a (laneBase n + 4)) ∧
      (s.hub.ln n ≠ lnRESET) ∧ (s.hub.up n = false) ∧ (s.hub.fn n ≠ 5) ∧ (s.hub.fn n ≠ 6) ∧ ((s.hub.brg.lock[n]) =
      {})) ∧ (∃ (n : Fin 64) (s : State), (s.hub.bit (F.LN_CTL_RST n) = true) ∧ (s.hub.ln n = lnRESET) ∧ (s.hub.bit
      (F.LN_CTL_EN n) = false)) :=
  ⟨⟨stew, ⟨[], rs⟩, by decide⟩, ⟨stew, 1, ⟨[], rs⟩, by decide⟩, ⟨host, 2, ⟨[], rs⟩, by decide⟩, ⟨2, ⟨[], rs.put
    F.GLB_RST_CTL_CLUSTER 5⟩, by decide⟩, ⟨⟨[], rs.on F.GLB_RST_CTL_PDIE⟩, by decide⟩, ⟨stew, 9, ⟨[], rs.put
    (F.LN_FUNC_FUNC 9) 1⟩, by decide⟩, ⟨9, ⟨[], (rs.put (F.LN_STAT_STATE 9) lnRESET).on (F.LN_CTL_RST 9)⟩, by
    decide⟩⟩

theorem witness_lane_function_and_enable :
    (∃ (a : Access) (n : Fin 64) (v : W32) (s : State), (s.hub.lets a (laneBase n)) ∧ (s.hub.laneLocked n = false) ∧
      (s.hub.fnAllowed n (v.bits 3 0) (v.bits 4 4) = true) ∧ (v.bits 3 0 ≠ s.hub.fn n) ∧ (s.hub.ln n ≠ lnRESET) ∧
      (v.bits 3 0 = 2 → s.hub.bit (F.LN_CTL_EN (partner n)) = false)) ∧ (∃ (a : Access) (n : Fin 64) (v : W32) (s :
      State), (s.hub.lets a (laneBase n)) ∧ (s.hub.laneLocked n = false) ∧ (s.hub.fnAllowed n (v.bits 3 0) (v.bits 4
      4) = false) ∧ (v.bits 3 0 ≠ s.hub.fn n)) ∧ (∃ (a : Access) (n : Fin 64) (s : State), (s.hub.lets a (laneBase n
      + 4)) ∧ (s.hub.pairOwned n = false) ∧ (s.hub.bit (F.LN_CTL_EN n) = false) ∧ (s.hub.ln n = lnIDLE) ∧ (s.hub.fn
      n ≠ 2) ∧ (s.hub.fn n ≠ 8) ∧ (s.hub.needsDevice n = false) ∧ ((s.hub.dl[regionOf (clusterOf n)]).down = false)
      ∧ (s.hub.bank3.getLsbD (n / 8) = false) ∧ ((s.hub.lane n).dev = []) ∧ (s.hub.fn n ≠ 1 ∨ (s.hub.lane n).tx.q =
      []) ∧ (s.hub.quietLane n)) ∧ (∃ (a : Access) (n : Fin 64) (s : State), (s.hub.lets a (laneBase n + 4)) ∧
      (s.hub.pairOwned n = false) ∧ (s.hub.bit (F.LN_CTL_EN n) = true) ∧ (s.hub.ln n = lnUP) ∧ (s.hub.fn n ≠ 8) ∧
      (s.hub.fn n ≠ 5) ∧ (s.hub.fn n ≠ 2) ∧ ((s.hub.lane n).dev = []) ∧ ((s.hub.brg.lock[n]).owner = none) ∧
      (s.hub.quietLane n)) ∧ (∃ (a : Access) (n : Fin 64) (s : State), (s.hub.lets a (laneBase n + 4))) ∧ (∃ (a :
      Access) (n : Fin 64) (s : State), (s.hub.lets a (laneBase n + 4)) ∧ (s.hub.quietLane n)) :=
  ⟨⟨stew, 6, 2#32, ⟨[], rs⟩, by decide⟩, ⟨stew, 7, 2#32, ⟨[], rs⟩, by decide⟩, ⟨stew, 6, ⟨[], (rs.put
    (F.LN_FUNC_FUNC 6) 1).put (F.LN_STAT_STATE 6) lnIDLE⟩, by decide⟩, ⟨stew, 6, ⟨[], Hub.withUp rs 6 1⟩, by
    decide⟩, ⟨stew, 6, ⟨[], rs⟩, by decide⟩, ⟨stew, 6, ⟨[], rs⟩, by decide⟩⟩

theorem witness_lane_fifos :
    (∃ (a : Access) (n : Fin 64) (v : W32) (s : State), (s.hub.lets a (laneBase n + 0x18)) ∧ (s.hub.ln n ≠ lnDOWN) ∧
      ((s.hub.lane n).tx.q.length < 64) ∧ (s.hub.fn n ≠ 1) ∧ ((s.hub.lane n).stretch = false)) ∧ (∃ (a : Access) (n
      : Fin 64) (v : W32) (s : State), (s.hub.lets a (laneBase n + 0x18)) ∧ (64 ≤ (s.hub.lane n).tx.q.length) ∧
      (s.hub.quietLane n)) ∧ (∃ (a : Access) (n : Fin 64) (w : FifoWord) (q : List FifoWord) (s : State),
      (s.hub.lets a (laneBase n + 0x1C) false) ∧ ((s.hub.lane n).rx.q = w :: q) ∧ (w.good = true)) ∧ (∃ (a : Access)
      (n : Fin 64) (s : State), (s.hub.lets a (laneBase n + 0x1C) false) ∧ ((s.hub.lane n).rx.q = []) ∧
      (s.hub.quietLane n)) ∧ (∃ (rq : Request) (s : State), (s.hub.admitsRq rq) ∧ (rq.addr.space = 3) ∧
      (s.hub.laneAcc rq = .stream) ∧ (rq.op = opWRITE) ∧ (rq.posted = true) ∧ ((s.hub.brg.lock[rq.lane]) = {}) ∧
      (s.hub.fn rq.lane ≠ 1) ∧ ((s.hub.lane rq.lane).stretch = false) ∧ ((s.hub.lane rq.lane).tx.q.length + rq.len /
      4 ≤ 64)) ∧ (∃ (rq : Request) (s : State), (s.hub.admitsRq rq) ∧ (rq.addr.space = 3) ∧ (s.hub.laneAcc rq =
      .stream) ∧ (rq.op = opWRITE) ∧ (rq.posted = true) ∧ ((s.hub.brg.lock[rq.lane]) = {}) ∧ (64 < (s.hub.lane
      rq.lane).tx.q.length + rq.len / 4)) ∧ (∃ (rq : Request) (w : FifoWord) (q : List FifoWord) (s : State),
      (s.hub.admitsRq rq) ∧ (s.hub.awaits rq) ∧ (rq.addr.space = 3) ∧ (s.hub.laneAcc rq = .stream) ∧ (rq.op =
      opREAD) ∧ ((s.hub.brg.lock[rq.lane]) = {}) ∧ ((s.hub.lane rq.lane).rx.q = w :: q) ∧ (w.good = true)) ∧ (∃ (rq
      : Request) (w : FifoWord) (q : List FifoWord) (s : State), (s.hub.admitsRq rq) ∧ (s.hub.awaits rq) ∧
      (rq.addr.space = 3) ∧ (s.hub.laneAcc rq = .stream) ∧ (rq.op = opREAD) ∧ ((s.hub.brg.lock[rq.lane]) = {}) ∧
      ((s.hub.lane rq.lane).rx.q = w :: q) ∧ (w.good = false) ∧ (s.hub.quietLane rq.lane)) :=
  ⟨⟨stew, 6, 5#32, ⟨[], Hub.withUp rs 6 2⟩, by decide⟩, ⟨stew, 6, 5#32, ⟨[], rs.modLane 6 fun l =>
    { l with tx := { q := List.replicate 64 { w := 0 } } }⟩, by decide⟩, ⟨stew, 6, { w := 7 }, [], ⟨[], rs.modLane 6
    fun l => { l with rx := { q := [{ w := 7 }] } }⟩, by decide⟩, ⟨stew, 6, ⟨[], rs⟩, by decide⟩, ⟨wrq 1 0x080000000
    [1, 2, 3, 4] true, ⟨[], openWin (Hub.withUp rs 2 2)⟩, by decide⟩, ⟨wrq 1 0x080000000 [1, 2, 3, 4] true, ⟨[],
    (openWin (Hub.withUp rs 2 2)).modLane 2 fun l => { l with tx := { q := List.replicate 64 { w := 0 } } }⟩, by
    decide⟩, ⟨rrq 0x080000000 8, { w := 7 }, [{ w := 8 }, { w := 9 }], ⟨[], (openWin (Hub.withUp rs 2 2)).modLane 2
    fun l => { l with rx := { q := [{ w := 7 }, { w := 8 }, { w := 9 }] } }⟩, by decide⟩, ⟨rrq 0x080000000 8,
    { w := 7, good := false }, [{ w := 8 }], ⟨[], (openWin (Hub.withUp rs 2 2)).modLane 2 fun l =>
    { l with rx := { q := [{ w := 7, good := false }, { w := 8 }] } }⟩, by decide⟩⟩

theorem witness_lane_causes_and_hold :
    (∃ (c : Fin 8) (s : State), (s.hub.clusterUp c) ∧ (s.hub.bit (F.IOB_CTL_MON_EN c)) ∧ (∀ n : Fin 64, n.val / 8 =
      c.val → s.hub.up n = false)) ∧ (∃ (c : Fin 8) (s : State), (s.hub.clusterUp c) ∧ (s.hub.bit (F.IOB_CTL_MON_EN
      c)) ∧ (∀ n : Fin 64, n.val / 8 = c.val → s.hub.ln n ≠ lnHOLD ∧ s.hub.ln n ≠ lnDOWN)) ∧ (∃ (n : Fin 64) (s :
      State), (s.hub.ln n = lnHOLD) ∧ ((s.hub.dl[regionOf (clusterOf n)]).down = false) ∧ (s.hub.bank3.getLsbD (n /
      8) = false) ∧ (s.hub.fn n ≠ 2) ∧ (s.hub.fn n ≠ 8) ∧ (s.hub.fld (F.LN_HOLD_MAXRES n) = 0) ∧ ((s.hub.lane n).dev
      = []) ∧ (s.hub.quietLane n) ∧ (s.hub.fn n ≠ 1) ∧ (s.hub.now ≤ s.hub.holdEnd n)) ∧ (∃ (n : Fin 64) (s : State),
      (s.hub.ln n = lnHOLD) ∧ (s.hub.holdEnd n ≤ s.hub.now) ∧ (s.returns n = false) ∧ (s.hub.quietLane n)) ∧ (∃ (n :
      Fin 64) (s : State), (s.hub.now < s.hub.holdEnd n ∨ s.returns n = true)) :=
  ⟨⟨2, ⟨[], rs.on (F.IOB_CTL_BANK_OK 2)⟩, by decide⟩, ⟨2, ⟨[], { rs with bank3 := 4 }⟩, by decide⟩, ⟨6, ⟨[],
    ((Hub.withUp rs 6 6).put (F.LN_STAT_STATE 6) lnHOLD).modLane 6 fun l => { l with devBad := true }⟩, by decide⟩,
    ⟨6, ⟨[], (((Hub.withUp rs 6 6).put (F.LN_STAT_STATE 6) lnHOLD).put (F.LN_STAT_CAUSE 6) 5).atNow 2000000⟩, by
    decide⟩, ⟨6, ⟨[.laneCauseClear 6], (((Hub.withUp rs 6 6).put (F.LN_STAT_STATE 6) lnHOLD).put (F.LN_STAT_CAUSE 6)
    5).atNow 2000000⟩, by decide⟩⟩

theorem witness_lane_pins :
    (∃ (a : Access) (n : Fin 64) (v : BitVec 3) (s : State), (s.hub.lets a (laneBase n + 0x24)) ∧ (∀ p : Fin 3,
      ((s.hub.lane n).pin[p]).actAt ≠ some s.hub.now ∧ ((s.hub.lane n).pin[p]).drnAt ≠ some s.hub.now) ∧ (s.hub.fld
      (F.LN_IO_OUT n) < 8)) ∧ (∃ (n : Fin 64) (p : Fin 3) (level : Bool) (s : State), (s.hub.clusterUp (clusterOf
      n)) ∧ (((s.hub.lane n).pin[p]).raw ≠ level)) ∧ (∃ (n : Fin 64) (p : Fin 3) (t : Nat) (s : State),
      (((s.hub.lane n).pin[p]).chg = some t) ∧ (((s.hub.lane n).pin[p]).chgAt + s.hub.debTicks n p ≤ s.hub.now) ∧
      (s.hub.fn n ≠ 0)) ∧ (∃ (n : Fin 64) (p : Fin 3) (s : State), (((s.hub.lane n).pin[p]).chg = none ∨ s.hub.now <
      ((s.hub.lane n).pin[p]).chgAt + s.hub.debTicks n p)) ∧ (∃ (n : Fin 64) (p : Fin 3) (t : Nat) (s : State),
      (((s.hub.lane n).pin[p]).chg = some t) ∧ (((s.hub.lane n).pin[p]).chgAt + s.hub.debTicks n p ≤ s.hub.now) ∧
      (s.hub.fn n = 0) ∧ (s.hub.up n) ∧ (s.hub.fld (F.LN_PIN_CAP n p) = 3) ∧ (s.hub.lent n = false) ∧ ((s.hub.lane
      n).rx.q.length ≤ 62) ∧ (s.hub.quietLane n)) ∧ (∃ (n : Fin 64) (s : State), (s.hub.fn n = 0) ∧ (s.hub.up n) ∧
      ((s.hub.lane n).pwmOn)) :=
  ⟨⟨stew, 6, 5, ⟨[], Hub.withUp rs 6 0⟩, by decide⟩, ⟨6, 1, true, ⟨[], rs⟩, by decide⟩, ⟨6, 1, 7, ⟨[], ((Hub.withUp
    rs 6 1).modPin 6 1 fun q => { q with chg := some 7, raw := true }).atNow 9⟩, by decide⟩, ⟨6, 1, ⟨[], (Hub.withUp
    rs 6 1).modPin 6 1 fun q => { q with chg := some 7, raw := true }⟩, by decide⟩, ⟨6, 1, 7, ⟨[], (((Hub.withUp rs
    6 0).put (F.LN_PIN_CAP 6 1) 3).modPin 6 1 fun q => { q with chg := some 7, raw := true }).atNow 9⟩, by decide⟩,
    ⟨6, ⟨[], (Hub.withUp rs 6 0).modLane 6 fun l => { l with pwmOn := true }⟩, by decide⟩⟩

theorem witness_uart_and_spi_words :
    (∃ (n : Fin 64) (w : W32) (s : State), (s.hub.fn n = 1) ∧ (s.hub.up n) ∧ (s.hub.taken n 0 = false) ∧
      ((s.hub.lane n).cur = some w) ∧ ((s.hub.lane n).tx.q = [])) ∧ (∃ (n : Fin 64) (ch : UartChar) (s : State),
      (s.hub.fn n = 1) ∧ (s.hub.up n) ∧ ((s.hub.lane n).de = false) ∧ (s.hub.taken n 1 = false) ∧ (s.hub.tunOf n =
      none) ∧ ((s.hub.lane n).rx.q.length < 64)) ∧ (∃ (n : Fin 64) (rx : W32) (w : FifoWord) (q : List FifoWord) (s
      : State), (s.hub.fn n = 2) ∧ (s.hub.up n) ∧ (s.hub.drives) ∧ (s.hub.taken n 0 = false) ∧ (s.hub.taken n 1 =
      false) ∧ (s.hub.taken n 2 = false) ∧ ((s.hub.cfg n 0).getLsbD 24 = false) ∧ ((s.hub.lane n).devRun = false) ∧
      ((s.hub.lane n).tx.q = w :: q) ∧ (w.good = true) ∧ ((s.hub.lane n).rx.q.length < 64) ∧ (s.hub.quietLane n)) ∧
      (∃ (n : Fin 64) (rx : W32) (w : FifoWord) (q : List FifoWord) (s : State), (s.hub.fn n = 2) ∧ (s.hub.up n) ∧
      (s.hub.taken n 0 = false) ∧ (s.hub.taken n 1 = false) ∧ (s.hub.taken (partner n) 0 = false) ∧ ((s.hub.cfg n
      0).getLsbD 24 = true) ∧ ((s.hub.lane n).tx.q = w :: q) ∧ (w.good = true) ∧ ((s.hub.lane n).rx.q.length < 64) ∧
      (s.hub.quietLane n)) ∧ (∃ (k : Fin 16) (s : State), (s.hub.brg.tun[k] ≠ []) ∧ (s.hub.bit F.BRG_CTL_EN) ∧
      ((s.hub.brg.tunAt[k]) + us (s.hub.fld (F.BRG_TUN_CFG_GATHER k)) ≤ s.hub.now)) ∧ (∃ (k : Fin 16) (s : State),
      (s.hub.now < (s.hub.brg.tunAt[k]) + us (s.hub.fld (F.BRG_TUN_CFG_GATHER k)))) :=
  ⟨⟨6, 65#32, ⟨[], (Hub.withUp rs 6 1).modLane 6 fun l => { l with cur := some 65 }⟩, by decide⟩, ⟨6, ⟨65, false,
    false, true, false⟩, ⟨[], Hub.withUp rs 6 1⟩, by decide⟩, ⟨6, 9#32, { w := 7 }, [{ w := 8 }], ⟨[], (Hub.withUp
    rs 6 2).modLane 6 fun l => { l with tx := { q := [{ w := 7 }, { w := 8 }] } }⟩, by decide⟩, ⟨6, 9#32,
    { w := 7 }, [{ w := 8 }], ⟨[], ((Hub.withUp rs 6 2).setCfg 6 0 0x1000000#32).modLane 6 fun l =>
    { l with tx := { q := [{ w := 7 }, { w := 8 }] } }⟩, by decide⟩, ⟨3, ⟨[], (serving rs).modBrg fun b =>
    { b with tun := b.tun.set 3 [65#32] }⟩, by decide⟩, ⟨3, ⟨[], rs.put (F.BRG_TUN_CFG_GATHER 3) 7⟩, by decide⟩⟩

theorem witness_i2c_words :
    (∃ (n : Fin 64) (bus : I2cBus) (w : FifoWord) (q : List FifoWord) (s : State), (s.hub.i2cCtl n) ∧ (s.hub.up n) ∧
      (s.hub.drives) ∧ (s.hub.taken n 0 = false) ∧ (s.hub.taken n 1 = false) ∧ ((s.hub.lane n).clearing = false) ∧
      ((s.hub.lane n).devRun = false) ∧ ((s.hub.lane n).discard = 0) ∧ ((s.hub.lane n).tx.q = w :: q) ∧ (w.good =
      true) ∧ (w.w.getLsbD 9 = false) ∧ (bus.arbLost = false) ∧ ((s.hub.lane n).rx.q.length < 64) ∧ (s.hub.quietLane
      n)) ∧ (∃ (n : Fin 64) (w : FifoWord) (q : List FifoWord) (s : State), (s.hub.i2cCtl n) ∧ (s.hub.up n) ∧
      (s.hub.taken n 0 = false) ∧ ((s.hub.cfg n 0).bits 15 8 ≠ 0) ∧ ((s.hub.lane n).devRun = false) ∧ ((s.hub.lane
      n).tx.q = w :: q) ∧ (w.good = true) ∧ ((s.hub.lane n).dev = []) ∧ ((s.hub.lane n).rx.q.length < 64) ∧
      (s.hub.quietLane n)) ∧ (∃ (n : Fin 64) (s : State), (s.hub.i2cCtl n) ∧ (s.hub.bit (F.LN_CTL_EN n)) ∧
      ((s.hub.lane n).clearing) ∧ (s.hub.ln n = lnDOWN) ∧ ((s.hub.dl[regionOf (clusterOf n)]).down = false) ∧
      (s.hub.bank3.getLsbD (n / 8) = false) ∧ (s.hub.fn n ≠ 2) ∧ (s.hub.fn n ≠ 8) ∧ (s.hub.fld (F.LN_HOLD_MAXRES n)
      = 0) ∧ ((s.hub.lane n).dev = []) ∧ (s.hub.quietLane n)) ∧ (∃ (n : Fin 64) (s : State), (s.hub.i2cCtl n) ∧
      (s.hub.up n) ∧ ((s.hub.lane n).clearing) ∧ ((s.hub.taken n 0 && s.hub.taken n 1) = false) ∧ (s.hub.bit
      (F.LN_CTL_EN n)) ∧ ((s.hub.lane n).dev = []) ∧ ((s.hub.brg.lock[n]).owner = none) ∧ (s.hub.quietLane n)) ∧ (∃
      (n : Fin 64) (r : Bool) (s : State), ((s.hub.lane n).clearing = false)) ∧ (∃ (n : Fin 64) (s : State),
      (s.hub.i2cCtl n) ∧ (s.hub.bit (F.LN_CTL_EN n)) ∧ (s.hub.drives) ∧ ((s.hub.lane n).clearing = false) ∧
      ((s.hub.taken n 0 && s.hub.taken n 1) = false) ∧ ((s.hub.lane n).devBad = true → (s.hub.lane n).clearAt ≤
      s.hub.now)) ∧ (∃ (n : Fin 64) (s : State), (s.hub.fn n = 4) ∧ (s.hub.up n) ∧ (s.hub.taken n 2 = false) ∧
      (s.hub.quietLane n)) ∧ (∃ (n : Fin 64) (b : Byte) (first stop : Bool) (s : State), (s.hub.fn n = 4) ∧
      (s.hub.i2cCtl n = false) ∧ (s.hub.up n) ∧ (s.hub.taken n 0 = false) ∧ (s.hub.taken n 1 = false) ∧ ((s.hub.lane
      n).rx.q.length < 64)) :=
  ⟨⟨6, ⟨true, false, 3⟩, { w := 0x1A0 }, [], ⟨[], (Hub.withUp rs 6 4).modLane 6 fun l =>
    { l with tx := { q := [{ w := 0x1A0 }] } }⟩, by decide⟩, ⟨6, { w := 0x1A0 }, [], ⟨[], ((Hub.withUp rs 6
    4).setCfg 6 0 0x100#32).modLane 6 fun l => { l with tx := { q := [{ w := 0x1A0 }] } }⟩, by decide⟩, ⟨6, ⟨[],
    ((Hub.withUp rs 6 4).put (F.LN_STAT_STATE 6) lnDOWN).modLane 6 fun l => { l with clearing := true }⟩, by
    decide⟩, ⟨6, ⟨[], (Hub.withUp rs 6 4).modLane 6 fun l => { l with clearing := true }⟩, by decide⟩, ⟨6, true,
    ⟨[], rs⟩, by decide⟩, ⟨6, ⟨[], Hub.withUp rs 6 4⟩, by decide⟩, ⟨6, ⟨[], Hub.withUp rs 6 4⟩, by decide⟩, ⟨6, 65,
    true, false, ⟨[], (Hub.withUp rs 6 4).setCfg 6 0 4#32⟩, by decide⟩⟩

theorem witness_ssi_sdci_quad_events :
    (∃ (n : Fin 64) (s : State), (s.hub.fn n = 5) ∧ (s.hub.drives) ∧ (s.hub.bit (F.LN_CTL_EN n)) ∧ (s.hub.up n) ∧
      ((s.hub.lane n).sample = none) ∧ ((s.hub.lane n).mono ≤ s.hub.now) ∧ ((s.hub.cfg n 0).bits 23 22 = 1)) ∧ (∃ (n
      : Fin 64) (s : State), (s.hub.fn n = 5) ∧ (s.hub.drives) ∧ (s.hub.bit (F.LN_CTL_EN n)) ∧ (s.hub.up n) ∧
      ((s.hub.lane n).sample = none) ∧ ((s.hub.lane n).mono ≤ s.hub.now) ∧ ((s.hub.cfg n 0).bits 23 22 = 2)) ∧ (∃ (a
      : Access) (n : Fin 64) (s : State), (s.hub.lets a (laneBase n + 0x58)) ∧ (s.hub.fn n = 5) ∧ (s.hub.drives) ∧
      (s.hub.bit (F.LN_CTL_EN n)) ∧ (s.hub.up n) ∧ ((s.hub.lane n).sample = none) ∧ ((s.hub.lane n).mono ≤
      s.hub.now)) ∧ (∃ (n : Fin 64) (raw : W32) (good : Bool) (stamp : W32) (s : State), ((s.hub.lane n).sample =
      some stamp) ∧ (s.hub.up n) ∧ (s.hub.taken n 1 = false) ∧ ((s.hub.cfg n 0).getLsbD 21 = false) ∧ ((s.hub.lane
      n).rx.q.length ≤ 62) ∧ (s.hub.quietLane n)) ∧ (∃ (n : Fin 64) (raw : W32) (good : Bool) (stamp : W32) (s :
      State), ((s.hub.lane n).sample = some stamp) ∧ ((s.hub.lane n).discards < 7) ∧ (s.hub.taken n 1 = false) ∧
      (s.hub.quietLane n)) ∧ (∃ (n : Fin 64) (s : State), (s.hub.sdci n) ∧ (s.hub.taken n 0 = false) ∧ ((s.hub.lane
      n).devBad)) ∧ (∃ (n : Fin 64) (com : BitVec 2) (s : State), (s.hub.sdci n) ∧ (s.hub.taken n 1 = false) ∧
      ((s.hub.lane n).enPin) ∧ ((s.hub.lane n).devBad) ∧ (com ≠ 0) ∧ ((s.hub.cfg n 0).bits 1 0 = 0 ∨ (s.hub.cfg n
      0).bits 1 0 = com.toNat) ∧ (s.hub.ln n = lnDOWN) ∧ ((s.hub.dl[regionOf (clusterOf n)]).down = false) ∧
      (s.hub.bank3.getLsbD (n / 8) = false) ∧ (s.hub.fn n ≠ 2) ∧ (s.hub.fn n ≠ 8) ∧ (s.hub.fld (F.LN_HOLD_MAXRES n)
      = 0) ∧ ((s.hub.lane n).dev = []) ∧ (s.hub.quietLane n)) ∧ (∃ (n : Fin 64) (s : State), (s.hub.sdci n) ∧
      ((s.hub.lane n).devBad = false) ∧ (s.hub.up n) ∧ ((s.hub.lane n).dev = []) ∧ ((s.hub.brg.lock[n]).owner =
      none) ∧ (s.hub.quietLane n)) ∧ (∃ (n : Fin 64) (code : BitVec 16) (s : State), (s.hub.sdci n) ∧ (s.hub.up n) ∧
      (s.hub.taken n 1 = false) ∧ ((s.hub.lane n).rx.q.length < 64)) ∧ (∃ (n : Fin 64) (pdi : List Byte) (good :
      Bool) (s : State), (s.hub.sdci n) ∧ (s.hub.up n) ∧ (s.hub.taken n 0 = false) ∧ (s.hub.taken n 1 = false) ∧
      (s.hub.quietLane n) ∧ ((s.hub.cfg n 0).bits 13 8 = pdi.length) ∧ (pdi.length ≤ 32)) ∧ (∃ (n : Fin 64) (qa qb :
      Bool) (s : State), (s.hub.fn n = 7) ∧ (s.hub.up n) ∧ (s.hub.quietLane n) ∧ (s.hub.taken n 0 = false) ∧
      (s.hub.taken n 1 = false) ∧ (s.hub.taken n 2 = false) ∧ ((s.hub.lane n).qa ≠ qa) ∧ ((s.hub.lane n).qb = qb) ∧
      ((s.hub.lane n).preset ≠ some s.hub.now)) ∧ (∃ (n : Fin 64) (s : State), (s.hub.fn n = 7) ∧ (s.hub.up n) ∧
      (s.hub.quietLane n) ∧ (s.hub.taken n 0 = false) ∧ (s.hub.taken n 1 = false) ∧ (s.hub.taken n 2 = false) ∧
      ((s.hub.cfg n 0).bits 13 12 = 1)) ∧ (∃ (a : Access) (n : Fin 64) (v : W32) (s : State), (s.hub.lets a
      (laneBase n + 0x54)) ∧ (s.hub.fn n = 7) ∧ (s.hub.quietLane n)) :=
  ⟨⟨6, ⟨[], (Hub.withUp rs 6 5).setCfg 6 0 0x400000#32⟩, by decide⟩, ⟨6, ⟨[], (Hub.withUp rs 6 5).setCfg 6 0
    0x800000#32⟩, by decide⟩, ⟨stew, 6, ⟨[], Hub.withUp rs 6 5⟩, by decide⟩, ⟨6, 0x1234#32, true, 9#32, ⟨[],
    (Hub.withUp rs 6 5).modLane 6 fun l => { l with sample := some 9 }⟩, by decide⟩, ⟨6, 0x1234#32, true, 9#32, ⟨[],
    (Hub.withUp rs 6 5).modLane 6 fun l => { l with sample := some 9 }⟩, by decide⟩, ⟨6, ⟨[], ((Hub.withUp rs 6
    6).setCfg 6 0 0x3000000#32).modLane 6 fun l => { l with devBad := true }⟩, by decide⟩, ⟨6, 2, ⟨[], (((Hub.withUp
    rs 6 6).setCfg 6 0 0x3000000#32).put (F.LN_STAT_STATE 6) lnDOWN).modLane 6 fun l =>
    { l with devBad := true, enPin := true }⟩, by decide⟩, ⟨6, ⟨[], (Hub.withUp rs 6 6).setCfg 6 0 0x3000000#32⟩, by
    decide⟩, ⟨6, 0x1234, ⟨[], (Hub.withUp rs 6 6).setCfg 6 0 0x3000000#32⟩, by decide⟩, ⟨6, [1, 2], true, ⟨[],
    (Hub.withUp rs 6 6).setCfg 6 0 0x3010200#32⟩, by decide⟩, ⟨6, true, false, ⟨[], (Hub.withUp rs 6 7).setCfg 6 0
    2#32⟩, by decide⟩, ⟨6, ⟨[], ((Hub.withUp rs 6 7).setCfg 6 0 0x1000#32).setCfg 6 1 7#32⟩, by decide⟩, ⟨stew, 6,
    77#32, ⟨[], Hub.withUp rs 6 7⟩, by decide⟩⟩

theorem witness_device_accesses :
    (∃ (rq : Request) (s : State), (s.hub.admitsRq rq) ∧ (rq.addr.space = 3) ∧ ((s.hub.brg.lock[rq.lane]) = {}) ∧
      (s.hub.fn rq.lane = 2) ∧ (s.hub.laneAcc rq = .bus) ∧ (rq.op = opWRITE) ∧ (rq.posted = true) ∧ (s.hub.drives) ∧
      ((s.hub.lane rq.lane).dev = []) ∧ ((s.hub.lane rq.lane).devRun = false) ∧ ((s.hub.lane rq.lane).open_ = false)
      ∧ ((s.hub.lane rq.lane).tx.q = [])) ∧ (∃ (rq : Request) (s : State), (s.hub.admitsRq rq) ∧ (rq.addr.space = 3)
      ∧ ((s.hub.brg.lock[rq.lane]) = {}) ∧ (s.hub.fn rq.lane = 4) ∧ (s.hub.laneAcc rq = .bus) ∧ (rq.op = opWRITE) ∧
      (rq.posted = true) ∧ (s.hub.drives) ∧ ((s.hub.lane rq.lane).dev = []) ∧ ((s.hub.lane rq.lane).devRun = false)
      ∧ ((s.hub.lane rq.lane).open_ = false) ∧ ((s.hub.lane rq.lane).tx.q = [])) ∧ (∃ (rq : Request) (s : State),
      (s.hub.admitsRq rq) ∧ (rq.addr.space = 3) ∧ ((s.hub.brg.lock[rq.lane]) = {}) ∧ (s.hub.fn rq.lane = 6) ∧
      (s.hub.laneAcc rq = .bus) ∧ (rq.op = opWRITE) ∧ (rq.posted = true) ∧ (s.hub.drives) ∧ ((s.hub.lane
      rq.lane).dev = []) ∧ ((s.hub.lane rq.lane).devRun = false) ∧ ((s.hub.lane rq.lane).open_ = false) ∧
      ((s.hub.lane rq.lane).tx.q = [])) ∧ (∃ (rq : Request) (s : State), (s.hub.admitsRq rq) ∧ (rq.addr.space = 3) ∧
      ((s.hub.brg.lock[rq.lane]) = {}) ∧ (s.hub.fn rq.lane = 6) ∧ (s.hub.laneAcc rq = .pd) ∧ (rq.op = opWRITE) ∧
      (rq.posted = true) ∧ (s.hub.drives) ∧ ((s.hub.lane rq.lane).dev = []) ∧ ((s.hub.lane rq.lane).devRun = false)
      ∧ ((s.hub.lane rq.lane).open_ = false) ∧ ((s.hub.lane rq.lane).tx.q = [])) ∧ (∃ (rq : Request) (v w : W32) (s
      : State), (s.hub.admitsRq rq) ∧ (rq.addr.space = 3) ∧ ((s.hub.brg.lock[rq.lane]) = {}) ∧ (s.hub.fn rq.lane =
      5) ∧ (s.hub.laneAcc rq = .ssi) ∧ ((s.hub.lane rq.lane).lastPair = some (v, w)) ∧ (rq.len = 8) ∧ (rq.op =
      opREAD) ∧ (s.hub.awaits rq)) ∧ (∃ (rq : Request) (s : State), (s.hub.admitsRq rq) ∧ (rq.addr.space = 3) ∧
      ((s.hub.brg.lock[rq.lane]) = {}) ∧ (s.hub.fn rq.lane = 7) ∧ (s.hub.laneAcc rq = .quad) ∧ (rq.op = opREAD) ∧
      (s.hub.awaits rq)) ∧ (∃ (rq : Request) (s : State), (s.hub.admitsRq rq) ∧ (rq.addr.space = 3) ∧
      ((s.hub.brg.lock[rq.lane]) = {}) ∧ (s.hub.fn rq.lane = 0) ∧ (s.hub.laneAcc rq = .pins) ∧ (rq.op = opREAD) ∧
      (s.hub.awaits rq)) ∧ (∃ (rq : Request) (s : State), (s.hub.admitsRq rq) ∧ (rq.addr.space = 3) ∧
      ((s.hub.brg.lock[rq.lane]) = {}) ∧ (s.hub.fn rq.lane = 0) ∧ (s.hub.laneAcc rq = .pins) ∧ (rq.op = opWRITE) ∧
      (rq.posted = true) ∧ (rq.dev % 16 = 4)) ∧ (∃ (n : Fin 64) (data : List Byte) (d : DevReq) (s : State),
      ((s.hub.lane n).devRun) ∧ ((s.hub.lane n).dev = [d]) ∧ (d.slot = none) ∧ (d.rq.posted = true) ∧ (s.hub.isPd n
      d.rq = false)) ∧ (∃ (n : Fin 64) (data : List Byte) (d : DevReq) (s : State), ((s.hub.lane n).devRun) ∧
      ((s.hub.lane n).dev = [d]) ∧ (d.slot = none) ∧ (d.rq.posted = true) ∧ (s.hub.isPd n d.rq) ∧ (d.rq.op =
      opWRITE)) ∧ (∃ (n : Fin 64) (data : List Byte) (d : DevReq) (i : Fin 128) (s : State), ((s.hub.lane n).devRun)
      ∧ ((s.hub.lane n).dev = [d]) ∧ (d.slot = some i) ∧ (s.hub.isPd n d.rq) ∧ (d.rq.op = opREAD) ∧ (d.rq.len ≤
      (s.hub.lane n).pdIn.length)) :=
  ⟨⟨wrq 1 0x090000000 [1, 2, 3, 4] true, ⟨[], openWin (Hub.withUp rs 2 2)⟩, by decide⟩, ⟨wrq 1 0x090000000 [1, 2, 3,
    4] true, ⟨[], openWin (Hub.withUp rs 2 4)⟩, by decide⟩, ⟨wrq 1 0x090000000 [1, 2, 3, 4] true, ⟨[], openWin
    (Hub.withUp rs 2 6)⟩, by decide⟩, ⟨wrq 1 0x091000000 [1, 2, 3, 4] true, ⟨[], openWin (Hub.withUp rs 2 6)⟩, by
    decide⟩, ⟨rrq 0x090000000 8, 5#32, 6#32, ⟨[], (waitFor (Hub.withUp rs 2 5) (rrq 0x090000000 8)).modLane 2 fun l
    => { l with lastPair := some (5, 6) }⟩, by decide⟩, ⟨rrq 0x090000004 4, ⟨[], waitFor (Hub.withUp rs 2 7) (rrq
    0x090000004 4)⟩, by decide⟩, ⟨rrq 0x090000004 4, ⟨[], waitFor (Hub.withUp rs 2 0) (rrq 0x090000004 4)⟩, by
    decide⟩, ⟨wrq 1 0x090000004 [1, 2, 3, 4] true, ⟨[], openWin (Hub.withUp rs 2 0)⟩, by decide⟩, ⟨2, [],
    { rq := wrq 1 0x090000004 [1, 2, 3, 4] true, slot := none, at_ := 0 }, ⟨[], (Hub.withUp rs 2 2).modLane 2 fun l
    => { l with devRun := true, dev := [{ rq := wrq 1 0x090000004 [1, 2, 3, 4] true, slot := none, at_ := 0 }] }⟩,
    by decide⟩, ⟨2, [], { rq := wrq 1 0x091000000 [1, 2] true, slot := none, at_ := 0 }, ⟨[], (Hub.withUp rs 2
    6).modLane 2 fun l =>
    { l with devRun := true, dev := [{ rq := wrq 1 0x091000000 [1, 2] true, slot := none, at_ := 0 }] }⟩, by
    decide⟩, ⟨2, [], { rq := rrq 0x091000000 2, slot := some 4, at_ := 0 }, 4, ⟨[], (Hub.withUp rs 2 6).modLane 2
    fun l =>
    { l with pdIn := [5, 6, 7], devRun := true, dev := [{ rq := rrq 0x091000000 2, slot := some 4, at_ := 0 }] }⟩,
    by decide⟩⟩

theorem witness_reed_data_instructions :
    (∃ (c : Fin 8) (x : Fin 16)  (s : State), (s.hub.reedIs c x (.nop))) ∧ (∃ (c : Fin 8) (x : Fin 16) (a : BitVec
      3) (k : BitVec 16) (s : State), (s.hub.reedIs c x (.li a k))) ∧ (∃ (c : Fin 8) (x : Fin 16) (a : BitVec 3) (k
      : BitVec 16) (s : State), (s.hub.reedIs c x (.lih a k))) ∧ (∃ (c : Fin 8) (x : Fin 16) (a b : BitVec 3) (f :
      BitVec 4) (v : W32) (s : State), (s.hub.reedIs c x (.alu a b f)) ∧ (reedAlu f.toNat ((s.hub.cx c x).r.ga a)
      ((s.hub.cx c x).r.ga b) = some v)) ∧ (∃ (c : Fin 8) (x : Fin 16) (a : BitVec 3) (f : BitVec 4) (k : BitVec 16)
      (v : W32) (s : State), (s.hub.reedIs c x (.alui a f k)) ∧ (reedAlu f.toNat ((s.hub.cx c x).r.ga a) (k.setWidth
      32) = some v)) ∧ (∃ (c : Fin 8) (x : Fin 16) (a : BitVec 3) (sel : BitVec 4) (v : W32) (s : State),
      (s.hub.reedIs c x (.movs a sel)) ∧ (s.hub.special c x sel.toNat = some v) ∧ (sel = 0 → (s.hub.cx c x).r.sc =
      0)) ∧ (∃ (c : Fin 8) (x : Fin 16) (a : BitVec 3) (sel : BitVec 4) (s : State), (s.hub.reedIs c x (.movt a
      sel)) ∧ (sel.toNat ≤ 10) ∧ (sel = 0 → (s.hub.cx c x).r.sc = 0)) ∧ (∃ (c : Fin 8) (x : Fin 16) (a : BitVec 3)
      (sel : BitVec 4) (s : State), (s.hub.reedIs c x (.movt a sel)) ∧ (11 ≤ sel.toNat) ∧ ((s.hub.cx c x).ckpt =
      [])) :=
  ⟨⟨2, 0, ⟨[], reedHub .nop⟩, by decide⟩, ⟨2, 0, 3, 0x8001, ⟨[], reedHub (.li 3 0x8001)⟩, by decide⟩, ⟨2, 0, 3,
    0x8001, ⟨[], reedHub (.lih 3 0x8001)⟩, by decide⟩, ⟨2, 0, 3, 4, 1, 0xFFFFFFFF#32, ⟨[], reedHub (.alu 3 4 1)
    { g := Vector.replicate 8 0 |>.set 4 1 }⟩, by decide⟩, ⟨2, 0, 3, 0, 7, 7#32, ⟨[], reedHub (.alui 3 0 7)⟩, by
    decide⟩, ⟨2, 0, 3, 6, 0#32, ⟨[], reedHub (.movs 3 6)⟩, by decide⟩, ⟨2, 0, 3, 5, ⟨[], reedHub (.movt 3 5)⟩, by
    decide⟩, ⟨2, 0, 3, 12, ⟨[], reedHub (.movt 3 12)⟩, by decide⟩⟩

theorem witness_reed_flow_instructions :
    (∃ (c : Fin 8) (x : Fin 16) (a b : BitVec 3) (k : BitVec 4) (t : BitVec 11) (s : State), (s.hub.reedIs c x (.br
      a b k t)) ∧ (reedCond k.toNat ((s.hub.cx c x).r.ga a) ((s.hub.cx c x).r.ga b) = some true)) ∧ (∃ (c : Fin 8)
      (x : Fin 16) (a b : BitVec 3) (k : BitVec 4) (t : BitVec 11) (s : State), (s.hub.reedIs c x (.br a b k t)) ∧
      (reedCond k.toNat ((s.hub.cx c x).r.ga a) ((s.hub.cx c x).r.ga b) = some false)) ∧ (∃ (c : Fin 8) (x : Fin 16)
      (a : BitVec 3) (t : BitVec 11) (s : State), (s.hub.reedIs c x (.djnz a t))) ∧ (∃ (c : Fin 8) (x : Fin 16) (t :
      BitVec 11) (s : State), (s.hub.reedIs c x (.jmp t))) ∧ (∃ (c : Fin 8) (x : Fin 16) (t : BitVec 11) (s :
      State), (s.hub.reedIs c x (.call t))) ∧ (∃ (c : Fin 8) (x : Fin 16)  (s : State), (s.hub.reedIs c x (.ret))) ∧
      (∃ (c : Fin 8) (x : Fin 16)  (s : State), (s.hub.reedIs c x (.halt)) ∧ ((s.hub.cx c x).ckpt = [])) ∧ (∃ (c :
      Fin 8) (x : Fin 16)  (s : State), (s.hub.reedIs c x (.halt)) ∧ ((s.hub.cx c x).ckpt ≠ [])) :=
  ⟨⟨2, 0, 1, 2, 0, 77, ⟨[], reedHub (.br 1 2 0 77)⟩, by decide⟩, ⟨2, 0, 1, 2, 1, 77, ⟨[], reedHub (.br 1 2 1 77)⟩,
    by decide⟩, ⟨2, 0, 1, 77, ⟨[], reedHub (.djnz 1 77)⟩, by decide⟩, ⟨2, 0, 77, ⟨[], reedHub (.jmp 77)⟩, by
    decide⟩, ⟨2, 0, 77, ⟨[], reedHub (.call 77)⟩, by decide⟩, ⟨2, 0, ⟨[], reedHub .ret { lnk := 9 }⟩, by decide⟩,
    ⟨2, 0, ⟨[], reedHub .halt⟩, by decide⟩, ⟨2, 0, ⟨[], (reedHub .halt).modCtx 2 0 fun t =>
    { t with ckpt := [({}, 5)] }⟩, by decide⟩⟩

theorem witness_reed_time_instructions :
    (∃ (c : Fin 8) (x : Fin 16) (k : BitVec 16) (s : State), (s.hub.reedIs c x (.tset k))) ∧ (∃ (c : Fin 8) (x : Fin
      16) (k : BitVec 16) (s : State), (s.hub.reedIs c x (.tadd false k)) ∧ (10 * (s.hub.cx c x).r.tc < 10 * 2 ^ 64)
      ∧ (0 ≤ ((s.hub.cx c x).r.tc : Int) + k.toInt) ∧ (((s.hub.cx c x).r.tc : Int) + k.toInt < 2 ^ 64) ∧ ((s.hub.cx
      c x).r.tap < 10)) ∧ (∃ (c : Fin 8) (x : Fin 16) (k : BitVec 16) (s : State), (s.hub.reedIs c x (.tadd true
      k))) ∧ (∃ (c : Fin 8) (x : Fin 16)  (s : State), (s.hub.reedIs c x (.taddb))) ∧ (∃ (c : Fin 8) (x : Fin 16)
      (s : State), (s.hub.reedIs c x (.waitt)) ∧ (reached (s.hub.ctr c) (s.hub.cx c x).r.tc)) ∧ (∃ (c : Fin 8) (x :
      Fin 16)  (s : State), (s.hub.reedIs c x (.waitt)) ∧ (reached (s.hub.ctr c) (s.hub.cx c x).r.tc = false)) ∧ (∃
      (c : Fin 8) (x : Fin 16) (p : BitVec 5) (e : BitVec 2) (tmo : BitVec 16) (s : State), (s.hub.reedIs c x
      (.wedge p e tmo)) ∧ (p.toNat < 24) ∧ (e ≠ 0) ∧ ((s.hub.cx c x).wedge = none)) ∧ (∃ (c : Fin 8) (x : Fin 16) (p
      : BitVec 5) (e : BitVec 2) (tmo : BitVec 16) (i : Nat) (s : State), (s.hub.reedIs c x (.wedge p e tmo)) ∧
      (p.toNat < 24) ∧ (e ≠ 0) ∧ ((s.hub.cx c x).wedge = some (i, true))) ∧ (∃ (c : Fin 8) (x : Fin 16) (rising :
      Bool) (iss e tmo : Nat) (s : State), (s.hub.wedgeOf c x = some (iss, e, tmo)) ∧ (e.testBit (if rising then 0
      else 1)) ∧ (2 ≤ s.hub.ctr c) ∧ (s.hub.ctr c < 2 ^ 64) ∧ (reached (s.hub.ctr c - 2) iss) ∧ (reached (s.hub.ctr
      c - 2) (s.hub.cx c x).r.tc)) ∧ (∃ (c : Fin 8) (x : Fin 16) (iss e tmo : Nat) (s : State), (s.hub.wedgeOf c x =
      some (iss, e, tmo)) ∧ (tmo ≠ 0) ∧ (reached (s.hub.ctr c) (iss + 400 * tmo))) :=
  ⟨⟨2, 0, 500, ⟨[], reedHub (.tset 500)⟩, by decide⟩, ⟨2, 0, 0xFFFF, ⟨[], reedHub (.tadd false 0xFFFF)
    { tc := 9, tap := 4 }⟩, by decide⟩, ⟨2, 0, 3, ⟨[], reedHub (.tadd true 3) { tc := 9, tap := 8 }⟩, by decide⟩,
    ⟨2, 0, ⟨[], reedHub .taddb { bt := 25, tap := 8 }⟩, by decide⟩, ⟨2, 0, ⟨[], reedHub .waitt⟩, by decide⟩, ⟨2, 0,
    ⟨[], reedHub .waitt { tc := 5 }⟩, by decide⟩, ⟨2, 0, 3, 1, 9, ⟨[], reedHub (.wedge 3 1 9)⟩, by decide⟩, ⟨2, 0,
    3, 1, 9, 4, ⟨[], (reedHub (.wedge 3 1 9)).modCtx 2 0 fun t => { t with wedge := some (4, true) }⟩, by decide⟩,
    ⟨2, 0, true, 4, 1, 9, ⟨[], ((reedHub (.wedge 3 1 9)).modCtx 2 0 fun t =>
    { t with wedge := some (4, false) }).modReed 2 fun r => { r with ctr := 50 }⟩, by decide⟩, ⟨2, 0, 4, 1, 9, ⟨[],
    ((reedHub (.wedge 3 1 9)).modCtx 2 0 fun t => { t with wedge := some (4, false) }).modReed 2 fun r =>
    { r with ctr := 5000 }⟩, by decide⟩⟩

theorem witness_reed_actions :
    (∃ (c : Fin 8) (x : Fin 16) (p : BitVec 5) (v : BitVec 2) (adv : Bool) (s : State), (s.hub.reedIs c x (.act p v
      adv)) ∧ (p.toNat < 24) ∧ (s.hub.ownsPin c x p.toNat) ∧ (s.hub.beyond c (s.hub.cx c x).r.tc = false) ∧
      (s.hub.aqRoom c)) ∧ (∃ (c : Fin 8) (x : Fin 16) (p : BitVec 5) (v : BitVec 2) (adv : Bool) (s : State),
      (s.hub.reedIs c x (.act p v adv)) ∧ (s.hub.ownsPin c x p.toNat = false) ∧ ((s.hub.cx c x).ckpt = [])) ∧ (∃ (c
      : Fin 8) (x : Fin 16) (p : BitVec 5) (adv : Bool) (gr : BitVec 3) (s : State), (s.hub.reedIs c x (.actg p adv
      gr)) ∧ (p.toNat < 24) ∧ (s.hub.ownsPin c x p.toNat) ∧ (s.hub.beyond c (s.hub.cx c x).r.tc = false) ∧
      (s.hub.aqRoom c)) ∧ (∃ (c : Fin 8) (x : Fin 16) (p n : BitVec 5) (lsb : Bool) (s : State), (s.hub.reedIs c x
      (.sho p lsb n)) ∧ (p.toNat < 24) ∧ (s.hub.ownsPin c x p.toNat) ∧ (s.hub.beyond c (s.hub.cx c x).r.tc = false)
      ∧ (s.hub.aqRoom c) ∧ ((s.hub.cx c x).bits < n.toNat)) ∧ (∃ (c : Fin 8) (x : Fin 16) (p n : BitVec 5) (lsb :
      Bool) (s : State), (s.hub.reedIs c x (.sho p lsb n)) ∧ (p.toNat < 24) ∧ (s.hub.ownsPin c x p.toNat) ∧
      (s.hub.beyond c (s.hub.cx c x).r.tc = false) ∧ (s.hub.aqRoom c) ∧ (n.toNat ≤ (s.hub.cx c x).bits)) ∧ (∃ (c :
      Fin 8) (x : Fin 16) (p n : BitVec 5) (lsb : Bool) (s : State), (s.hub.reedIs c x (.shi p lsb n)) ∧ (p.toNat <
      24) ∧ (s.hub.beyond c (s.hub.cx c x).r.tc = false) ∧ ((s.hub.cx c x).r.sc < 32) ∧ (s.hub.ctr c = (s.hub.cx c
      x).r.tc ∨ reached (s.hub.ctr c) (s.hub.cx c x).r.tc = false) ∧ ((s.hub.cx c x).bits < n.toNat) ∧ ((s.hub.cx c
      x).samples = [])) ∧ (∃ (c : Fin 8) (x : Fin 16) (p : BitVec 5) (l : Bool) (k : BitVec 2) (t : BitVec 11) (s :
      State), (s.hub.reedIs c x (.bpin p l k t)) ∧ (p.toNat < 24) ∧ (k.toNat < 2) ∧ ((s.hub.cx c x).held = none) ∧
      ((s.hub.cx c x).samples = []) ∧ (s.hub.beyond c (s.hub.cx c x).r.tc = false) ∧ (s.hub.ctr c = (s.hub.cx c
      x).r.tc ∨ reached (s.hub.ctr c) (s.hub.cx c x).r.tc = false) ∧ ((s.hub.cx c x).ckpt.length < 2)) ∧ (∃ (c : Fin
      8) (x : Fin 16) (level lsb : Bool) (t p : Nat) (s : State), ((s.hub.cx c x).samples = [⟨t, p, .shi 0 lsb, some
      level⟩]) ∧ (reached (s.hub.ctr c) (t + 3)) ∧ ((s.hub.cx c x).ckpt = [])) ∧ (∃ (c : Fin 8) (x : Fin 16) (level
      l taken : Bool) (t p a : Nat) (r : CtxRegs) (s : State), ((s.hub.cx c x).samples = [⟨t, p, .br 0 l taken, some
      level⟩]) ∧ (reached (s.hub.ctr c) (t + 3)) ∧ ((s.hub.cx c x).ckpt = [(r, a)]) ∧ ((level == l) ≠ taken)) ∧ (∃
      (c : Fin 8) (x : Fin 16) (level l taken : Bool) (t p a : Nat) (r : CtxRegs) (s : State), ((s.hub.cx c
      x).samples = [⟨t, p, .br 0 l taken, some level⟩]) ∧ (reached (s.hub.ctr c) (t + 3)) ∧ ((s.hub.cx c x).ckpt =
      [(r, a)]) ∧ ((level == l) = taken)) ∧ (∃ (c : Fin 8) (x : Fin 16) (e : Action) (s : State), (s.hub.domOn (18 +
      c)) ∧ ((s.hub.reed[c]).q = [e]) ∧ (e.src = .ctx x) ∧ (e.good) ∧ (e.depth = 0) ∧ (e.due = s.hub.ctr c) ∧
      (e.ready ≤ s.hub.now) ∧ (e.v < 3) ∧ (e.pin < 24) ∧ (s.hub.ownsPin c x e.pin) ∧ (s.hub.up (reedPin c e.pin).1)
      ∧ (s.hub.prlocked c = false) ∧ (((s.hub.lane (reedPin c e.pin).1).pin[(reedPin c e.pin).2]).actAt ≠ some
      s.hub.now) ∧ ((s.hub.reed[c]).retAt ≠ s.hub.now)) :=
  ⟨⟨2, 0, 0, 1, true, ⟨[], ((reedHub (.act 0 1 true) { bt := 30 }).put (F.LN_PIN_MODE 16 0) pmREED)⟩, by decide⟩,
    ⟨2, 0, 0, 1, true, ⟨[], reedHub (.act 0 1 true)⟩, by decide⟩, ⟨2, 0, 0, false, 3, ⟨[], ((reedHub (.actg 0 false
    3)).put (F.LN_PIN_MODE 16 0) pmREED)⟩, by decide⟩, ⟨2, 0, 0, 7, true, ⟨[], ((reedHub (.sho 0 true 7)
    { bt := 30, sh := 3 }).put (F.LN_PIN_MODE 16 0) pmREED)⟩, by decide⟩, ⟨2, 0, 0, 0, false, ⟨[], ((reedHub (.sho 0
    false 0) { bt := 30, sh := 3 }).put (F.LN_PIN_MODE 16 0) pmREED)⟩, by decide⟩, ⟨2, 0, 0, 7, true, ⟨[], reedHub
    (.shi 0 true 7) { bt := 30 }⟩, by decide⟩, ⟨2, 0, 0, true, 1, 99, ⟨[], reedHub (.bpin 0 true 1 99)⟩, by decide⟩,
    ⟨2, 0, true, true, 1, 4, ⟨[], ((reedHub .nop).modCtx 2 0 fun t =>
    { t with samples := [⟨1, 4, .shi 0 true, some true⟩], r := { t.r with sc := 1, sh := 6 } }).modReed 2 fun r =>
    { r with ctr := 5 }⟩, by decide⟩, ⟨2, 0, false, true, true, 1, 4, 12, {}, ⟨[], ((reedHub .nop).modCtx 2 0 fun t
    => { t with samples := [⟨1, 4, .br 0 true true, some false⟩], ckpt := [({}, 12)] }).modReed 2 fun r =>
    { r with ctr := 5 }⟩, by decide⟩, ⟨2, 0, true, true, true, 1, 4, 12, {}, ⟨[], ((reedHub .nop).modCtx 2 0 fun t
    => { t with samples := [⟨1, 4, .br 0 true true, some true⟩], ckpt := [({}, 12)] }).modReed 2 fun r =>
    { r with ctr := 5 }⟩, by decide⟩, ⟨2, 0, { due := 5, tap := 0, pin := 0, v := 1, src := .ctx 0 }, ⟨[],
    { (((Hub.withUp rs 16 0).put (F.LN_PIN_MODE 16 0) pmREED).modReed 2 fun r => { r with ctr := 5, q := [{ due := 5, tap := 0, pin := 0, v := 1, src := .ctx 0 }] }) with now := 3 }⟩,
    by decide⟩⟩

theorem witness_reed_fifos_events_and_fabric :
    (∃ (c : Fin 8) (x : Fin 16) (ga l : BitVec 3) (w : Bool) (v : FifoWord) (q : List FifoWord) (s : State),
      (s.hub.reedIs c x (.pull ga l w)) ∧ ((s.hub.cx c x).ckpt = []) ∧ (s.hub.lentPins (laneIn c l)) ∧ ((s.hub.lane
      (laneIn c l)).tx.q = v :: q) ∧ (v.good) ∧ (s.hub.quietLane (laneIn c l))) ∧ (∃ (c : Fin 8) (x : Fin 16) (ga l
      : BitVec 3) (s : State), (s.hub.reedIs c x (.pull ga l true)) ∧ ((s.hub.cx c x).ckpt = []) ∧ (s.hub.lentPins
      (laneIn c l)) ∧ ((s.hub.lane (laneIn c l)).tx.q = [])) ∧ (∃ (c : Fin 8) (x : Fin 16) (ga l : BitVec 3) (s :
      State), (s.hub.reedIs c x (.push ga l)) ∧ ((s.hub.cx c x).ckpt = []) ∧ (s.hub.lentPins (laneIn c l)) ∧
      ((s.hub.lane (laneIn c l)).rx.q.length < 64) ∧ (s.hub.quietLane (laneIn c l))) ∧ (∃ (c : Fin 8) (x : Fin 16)
      (k : BitVec 8) (n : Fin 8) (s : State), (s.hub.reedIs c x (.sig k)) ∧ ((s.hub.cx c x).ckpt = []) ∧
      (s.hub.paired = false) ∧ (s.hub.fld (F.RFXC_RSUB_CORES c) = 2 ^ n.val) ∧ (s.hub.bit (F.RFX_CTL_RUN n)) ∧
      ((s.hub.core[n]).evq.length < 64)) ∧ (∃ (c : Fin 8) (x : Fin 16) (ga b : BitVec 3) (tg : Fin 256) (s : State),
      (s.hub.reedIs c x (.frd ga b)) ∧ (b.getLsbD 0 = false) ∧ ((s.hub.cx c x).ckpt = []) ∧ ((s.hub.cx c x).frd =
      none) ∧ ((s.hub.cx c x).frdCome = false) ∧ (s.hub.issueErr
      { reedRq (s.hub.cx c x).r b opREAD false [] with smem := BitVec.ofNat 2 s.hub.member } = none) ∧
      (s.hub.staysHere { reedRq (s.hub.cx c x).r b opREAD false [] with smem := BitVec.ofNat 2 s.hub.member } =
      false) ∧ (s.hub.tagNow 12 = some tg)) ∧ (∃ (c : Fin 8) (x : Fin 16) (ga b : BitVec 3) (s : State),
      (s.hub.reedIs c x (.frd ga b)) ∧ (b.getLsbD 0 = false) ∧ ((s.hub.cx c x).ckpt = []) ∧ ((s.hub.cx c
      x).frdCome)) ∧ (∃ (c : Fin 8) (x : Fin 16) (ga b : BitVec 3) (s : State), (s.hub.reedIs c x (.frd ga b)) ∧
      (b.getLsbD 0) ∧ ((s.hub.cx c x).ckpt = [])) ∧ (∃ (c : Fin 8) (x : Fin 16) (st : BitVec 4) (sv : Bool) (data :
      W32) (d : Fin 8) (s : State), ((s.hub.cx c x).frd = some d) ∧ ((s.hub.cx c x).frdCome = false) ∧ (st.toNat ≤
      8)) ∧ (∃ (c : Fin 8) (x : Fin 16) (ga b : BitVec 3) (s : State), (s.hub.reedIs c x (.fwr ga b)) ∧ (b.getLsbD 0
      = false) ∧ ((s.hub.cx c x).ckpt = []) ∧ (s.hub.brg.wait = []) ∧ (s.hub.issueErr
      { reedRq (s.hub.cx c x).r b opWRITE true (leBytes ((s.hub.cx c x).r.ga ga)) with smem := BitVec.ofNat 2 s.hub.member }
      = none) ∧ (s.hub.staysHere
      { reedRq (s.hub.cx c x).r b opWRITE true (leBytes ((s.hub.cx c x).r.ga ga)) with smem := BitVec.ofNat 2 s.hub.member }
      = false)) ∧ (∃ (c : Fin 8) (x : Fin 16) (ga b : BitVec 3) (s : State), (s.hub.reedIs c x (.fwr ga b)) ∧
      (b.getLsbD 0 = false) ∧ ((s.hub.cx c x).ckpt = []) ∧ (s.hub.brg.wait = []) ∧ (s.hub.brgOn) ∧ (s.hub.ownNode
      { reedRq (s.hub.cx c x).r b opWRITE true (leBytes ((s.hub.cx c x).r.ga ga)) with smem := BitVec.ofNat 2 s.hub.member }
      = false) ∧ (s.hub.node = 0)) :=
  ⟨⟨2, 0, 1, 3, true, { w := 9 }, [], ⟨[], (((reedHub (.pull 1 3 true) { cst := 0x600 }).put (F.REED_FIFOMAP_LEND 2)
    8).put (F.LN_FUNC_FUNC 19) 0).modLane 19 fun l => { l with tx := { q := [{ w := 9 }] } }⟩, by decide⟩, ⟨2, 0, 1,
    3, ⟨[], (((reedHub (.pull 1 3 true)).put (F.REED_FIFOMAP_LEND 2) 8).put (F.LN_FUNC_FUNC 19) 0)⟩, by decide⟩, ⟨2,
    0, 1, 3, ⟨[], (((reedHub (.push 1 3)).put (F.REED_FIFOMAP_LEND 2) 8).put (F.LN_FUNC_FUNC 19) 0)⟩, by decide⟩,
    ⟨2, 0, 7, 1, ⟨[], ((reedHub (.sig 7)).put (F.RFXC_RSUB_CORES 2) 2).on (F.RFX_CTL_RUN 1)⟩, by decide⟩, ⟨2, 0, 1,
    2, 0, ⟨[], (((reedHub (.frd 1 2) { g := (Vector.replicate 8 0).set 3 0x500 }).put F.GLB_SELF_NODE 3).on
    F.BRG_CTL_EN).on F.SWC_CTL_EN⟩, by decide⟩, ⟨2, 0, 1, 2, ⟨[], (reedHub (.frd 1 2)).modCtx 2 0 fun t =>
    { t with frd := some 1, frdCome := true }⟩, by decide⟩, ⟨2, 0, 1, 3, ⟨[], reedHub (.frd 1 3)⟩, by decide⟩, ⟨2,
    0, 3, true, 5#32, 1, ⟨[], (reedHub (.frd 1 2)).modCtx 2 0 fun t => { t with frd := some 1 }⟩, by decide⟩, ⟨2, 0,
    1, 2, ⟨[], (((reedHub (.fwr 1 2) { g := (Vector.replicate 8 0).set 3 0x500 }).put F.GLB_SELF_NODE 3).on
    F.BRG_CTL_EN).on F.SWC_CTL_EN⟩, by decide⟩, ⟨2, 0, 1, 2, ⟨[], ((reedHub (.fwr 1 2)
    { g := (Vector.replicate 8 0).set 3 0x500 })).on F.BRG_CTL_EN⟩, by decide⟩⟩

theorem witness_reed_control :
    (∃ (a : Access) (c : Fin 8) (x : Fin 16) (s : State), (s.hub.lets a (reedBase c)) ∧ ((s.hub.reed[c]).pmNeed = 0)
      ∧ ((s.hub.reed[c]).trig = none) ∧ (s.hub.drives) ∧ ((s.hub.reed[c]).stopping = false) ∧ (s.hub.bit
      (F.REED_STAT_ACTIVE c) = false) ∧ (s.hub.bit (F.REED_CTL_RESUME c) = false) ∧ ((s.hub.fld (F.REED_CTXEN_EN
      c)).testBit x)) ∧ (∃ (a : Access) (c : Fin 8) (s : State), (s.hub.lets a (reedBase c)) ∧ ((s.hub.reed[c]).trig
      = none) ∧ ((s.hub.reed[c]).stopping = false)) ∧ (∃ (c : Fin 8) (s : State), ((s.hub.reed[c]).stopping) ∧
      (s.hub.allStopped c)) ∧ (∃ (a : Access) (c : Fin 8) (s : State), (s.hub.lets a (reedBase c)) ∧
      ((s.hub.reed[c]).stopping = false)) ∧ (∃ (a : Access) (c : Fin 8) (x : Fin 16) (s : State), (s.hub.lets a
      (reedBase c + 0x10)) ∧ ((s.hub.fld (F.REED_CTXEN_EN c)).testBit x = false) ∧ (s.hub.fld (F.REED_CTXEN_EN c) <
      65536) ∧ (s.hub.bit (F.REED_STAT_ACTIVE c)) ∧ (s.hub.bit (F.REED_CTL_RUN c)) ∧ ((s.hub.reed[c]).stopping =
      false) ∧ (s.hub.slotNow c = x) ∧ ((s.hub.cx c x).st = 0)) ∧ (∃ (a : Access) (c : Fin 8) (x : Fin 16) (s :
      State), (s.hub.lets a (reedBase c + 0x10)) ∧ ((s.hub.fld (F.REED_CTXEN_EN c)).testBit x) ∧ (s.hub.fld
      (F.REED_CTXEN_EN c) < 65536) ∧ (s.hub.bit (F.REED_STAT_ACTIVE c)) ∧ (s.hub.bit (F.REED_CTL_RUN c)) ∧
      ((s.hub.reed[c]).stopping = false) ∧ (s.hub.slotNow c = x)) ∧ (∃ (a : Access) (c : Fin 8) (v : W32) (s :
      State), (s.hub.lets a (reedBase c + 0x30)) ∧ (v.bit 1 = false) ∧ (v.bit 2 = false) ∧ (v.bit 3 →
      (s.hub.reed[c]).pmNeed = 0) ∧ (s.hub.trigDue c = false)) ∧ (∃ (a : Access) (c : Fin 8) (s : State),
      (s.hub.lets a (reedBase c + 0x30))) ∧ (∃ (c : Fin 8) (tr : Trig) (s : State), ((s.hub.reed[c]).trig = some tr)
      ∧ (tr.gno = false) ∧ (s.hub.trigDue c) ∧ (s.stops c = false) ∧ (tr.doStart = false) ∧ (tr.doLoad)) ∧ (∃ (c :
      Fin 8) (tr : Trig) (s : State), ((s.hub.reed[c]).trig = some tr) ∧ (tr.gno = false) ∧ (s.hub.trigDue c) ∧
      (s.stops c)) ∧ (∃ (c : Fin 8) (tr : Trig) (s : State), ((s.hub.reed[c]).trig = some tr) ∧ (tr.gno) ∧
      (s.hub.trigDue c) ∧ (s.stops c = false) ∧ (tr.doStart) ∧ (tr.doLoad = false) ∧ ((s.hub.reed[c]).pmNeed = 0) ∧
      ((s.hub.reed[c]).stopping = false) ∧ (s.hub.bit (F.REED_STAT_ACTIVE c) = false) ∧ (∀ d : Fin 8, d ≠ c →
      (s.hub.reed[d]).trig = none)) :=
  ⟨⟨stew, 2, 3, ⟨[], rs.put (F.REED_CTXEN_EN 2) 8⟩, by decide⟩, ⟨stew, 2, ⟨[], (rs.on (F.REED_CTL_RUN 2)).on
    (F.REED_STAT_ACTIVE 2)⟩, by decide⟩, ⟨2, ⟨[], ((rs.on (F.REED_STAT_ACTIVE 2)).modReed 2 fun r =>
    { r with stopping := true })⟩, by decide⟩, ⟨stew, 2, ⟨[], rs.modReed 2 fun r =>
    { r with q := [{ due := 5, tap := 0, pin := 0, v := 1, src := .ctx 0 }, { due := 5, tap := 0, pin := 0, v := 1, src := .bridge }] }⟩,
    by decide⟩, ⟨stew, 2, 3, ⟨[],
    { ((rs.on (F.REED_STAT_ACTIVE 2)).on (F.REED_CTL_RUN 2)).put (F.REED_SLOT0_S 2) 0x33333333 with now := 5 }⟩, by
    decide⟩, ⟨stew, 2, 3, ⟨[],
    { (((rs.on (F.REED_STAT_ACTIVE 2)).on (F.REED_CTL_RUN 2)).put (F.REED_CTXEN_EN 2) 8).modCtx 2 3 (fun t => { t with st := 1 }) |>.put (F.REED_SLOT0_S 2) 0x33333333 with now := 5 }⟩,
    by decide⟩, ⟨stew, 2, 0x19#32, ⟨[], rs⟩, by decide⟩, ⟨stew, 2, ⟨[], (rs.on (F.REED_SYNC_ARM 2)).modReed 2 fun r
    => { r with trig := some { gno := false, doStart := true, doLoad := true, time := 5, load := 6 } }⟩, by decide⟩,
    ⟨2, { gno := false, doStart := false, doLoad := true, time := 5, load := 77 }, ⟨[], (rs.on (F.REED_SYNC_ARM
    2)).modReed 2 fun r =>
    { r with ctr := 5, trig := some { gno := false, doStart := false, doLoad := true, time := 5, load := 77 } }⟩, by
    decide⟩, ⟨2, { gno := false, doStart := false, doLoad := true, time := 5, load := 77 }, ⟨[.reedStop stew 2],
    (rs.on (F.REED_SYNC_ARM 2)).modReed 2 fun r =>
    { r with ctr := 5, trig := some { gno := false, doStart := false, doLoad := true, time := 5, load := 77 } }⟩, by
    decide⟩, ⟨2, { gno := true, doStart := true, doLoad := false, time := 5, load := 77, fire := some 3 }, ⟨[],
    { ((rs.on (F.REED_SYNC_ARM 2)).modReed 2 fun r => { r with ctr := 5, trig := some { gno := true, doStart := true, doLoad := false, time := 5, load := 77, fire := some 3 } }) with now := 4 }⟩,
    by decide⟩⟩

theorem witness_can_control :
    (∃ (a : Access) (k : Fin 16) (s : State), (s.hub.lets a (canBase k)) ∧ (s.hub.bit (F.CAN_CTL_EN k) = false) ∧
      ((s.hub.can[k]).needInit = false) ∧ ((s.hub.can[k]).closing = false) ∧ (¬ (s.hub.canNominal k < 400 ∨
      s.hub.canData k < 50 ∨ s.hub.canNominal k < s.hub.canData k))) ∧ (∃ (a : Access) (k : Fin 16) (s : State),
      (s.hub.lets a (canBase k)) ∧ (s.hub.bit (F.CAN_CTL_EN k) = false) ∧ ((s.hub.can[k]).needInit = false) ∧
      ((s.hub.can[k]).closing = false) ∧ (s.hub.canNominal k < 400 ∨ s.hub.canData k < 50 ∨ s.hub.canNominal k <
      s.hub.canData k)) ∧ (∃ (a : Access) (k : Fin 16) (s : State), (s.hub.lets a (canBase k)) ∧ (s.hub.bit
      (F.CAN_CTL_EN k) = false) ∧ ((s.hub.can[k]).needInit = false) ∧ ((s.hub.can[k]).closing)) ∧ (∃ (a : Access) (k
      : Fin 16) (s : State), (s.hub.lets a (canBase k)) ∧ (s.hub.bit (F.CAN_CTL_EN k))) ∧ (∃ (a : Access) (k : Fin
      16) (s : State), (s.hub.lets a (canBase k)) ∧ (s.hub.bit (F.CAN_CTL_EN k) = false) ∧
      ((s.hub.can[k]).needInit)) ∧ (∃ (a : Access) (k : Fin 16) (s : State), (s.hub.lets a (canBase k)) ∧ (s.hub.bit
      (F.CAN_CTL_EN k)) ∧ (s.hub.canSt k ≠ canRECEIVE) ∧ (s.hub.canSt k ≠ canTRANSMIT)) ∧ (∃ (a : Access) (k : Fin
      16) (s : State), (s.hub.lets a (canBase k)) ∧ (s.hub.bit (F.CAN_CTL_EN k) = false)) ∧ (∃ (a : Access) (k : Fin
      16) (s : State), (s.hub.lets a (canBase k)) ∧ (s.hub.bit (F.CAN_CTL_EN k)) ∧ (s.hub.canSt k = canRECEIVE ∨
      s.hub.canSt k = canTRANSMIT)) ∧ (∃ (k : Fin 16) (s : State), (s.hub.canSt k = canINTEGRATE)) ∧ (∃ (k : Fin 16)
      (s : State), (s.hub.canSt k = canBUSOFF) ∧ (s.hub.fld (F.CAN_STAT_BOREC k) < 127)) ∧ (∃ (k : Fin 16) (s :
      State), (s.hub.canSt k = canBUSOFF) ∧ (127 ≤ s.hub.fld (F.CAN_STAT_BOREC k))) ∧ (∃ (k : Fin 16) (s : State),
      (s.hub.canSt k ≠ canINTEGRATE) ∧ (s.hub.canSt k ≠ canBUSOFF)) ∧ (∃ (a : Access) (k : Fin 16) (s : State),
      (s.hub.lets a (canBase k)) ∧ (s.hub.bit (F.CAN_CTL_EN k) = false)) ∧ (∃ (k : Fin 16) (s : State), (s.hub.canSt
      k = canBUSOFF) ∧ (127 ≤ s.hub.fld (F.CAN_STAT_BOREC k))) ∧ (∃ (k : Fin 16) (s : State), (s.hub.canSt k ≠
      canBUSOFF ∨ s.hub.fld (F.CAN_STAT_BOREC k) < 127)) ∧ (∃ (a : Access) (k : Fin 16) (s : State), (s.hub.lets a
      (canBase k))) ∧ (∃ (a : Access) (k : Fin 16) (s : State), (s.hub.lets a (canBase k)) ∧ (s.hub.canAsleep k =
      false)) ∧ (∃ (k : Fin 16) (s : State), (s.hub.bit (F.CAN_CTL_SLEEP k)) ∧ (s.hub.canSt k = canIDLE) ∧
      ((s.hub.can[k]).txreq = 0)) ∧ (∃ (a : Access) (k : Fin 16) (s : State), (s.hub.lets a (canBase k)) ∧
      (s.hub.canAsleep k) ∧ ((s.hub.canLane k).any fun n => s.hub.fld (F.LN_STAT_STATE n) == 2) ∧ (s.hub.fld
      (F.CAN_STAT_ERRST k) ≠ 2)) ∧ (∃ (k : Fin 16) (s : State), (s.hub.canSt k = canSLEEPE) ∧ (s.hub.canTaken k 1 =
      false) ∧ ((s.hub.canLane k).any fun n => s.hub.fld (F.LN_STAT_STATE n) == 2) ∧ (s.hub.fld (F.CAN_STAT_ERRST k)
      ≠ 2)) ∧ (∃ (k : Fin 16) (s : State), (s.hub.canAsleep k) ∧ ((s.hub.canLane k).any fun n => s.hub.fld
      (F.LN_STAT_STATE n) == 2) ∧ (s.hub.fld (F.CAN_STAT_ERRST k) ≠ 2)) ∧ (∃ (k : Fin 16) (f : CanFrame) (s :
      State), (s.hub.canSt k = canSLEEPF) ∧ (s.hub.canDeaf k = false) ∧ (f.fdf = true → s.hub.bit (F.CAN_CTL_FDOE k)
      = true) ∧ ((s.hub.can[k]).bad = []) ∧ (s.hub.canWakes k f) ∧ ((s.hub.can[k]).objen = 0) ∧ ((s.hub.canLane
      k).any fun n => s.hub.fld (F.LN_STAT_STATE n) == 2) ∧ (s.hub.fld (F.CAN_STAT_ERRST k) ≠ 2)) ∧ (∃ (k : Fin 16)
      (s : State), (s.hub.canSt k = canRECEIVE) ∧ (s.hub.bit (F.CAN_CTL_PXHD k) = false) ∧ ((s.hub.can[k]).closing =
      false)) ∧ (∃ (k : Fin 16) (s : State), (s.hub.canSt k = canRECEIVE) ∧ (s.hub.bit (F.CAN_CTL_PXHD k) = false) ∧
      ((s.hub.can[k]).closing)) :=
  ⟨⟨stew, 4, ⟨[], ((((rs.put (F.LN_FUNC_FUNC 16) 8).put (F.LN_STAT_STATE 16) lnUP).put (F.CAN_BTIME_TSEG1 4)
    255).put (F.CAN_BTIME_TSEG2 4) 127).put (F.CAN_DBTIME_TSEG1 4) 31 |>.put (F.CAN_DBTIME_TSEG2 4) 15 |>.put
    (F.CAN_BTIME_BRP 4) 1 |>.put (F.CAN_DBTIME_BRP 4) 1⟩, by decide⟩, ⟨stew, 4, ⟨[], rs.put (F.CAN_BTIME_BRP 4) 0
    |>.put (F.CAN_BTIME_TSEG1 4) 1⟩, by decide⟩, ⟨stew, 4, ⟨[], ((((rs.put (F.LN_FUNC_FUNC 16) 8).put
    (F.LN_STAT_STATE 16) lnUP).on (F.LN_CTL_EN 16)).put (F.CAN_STAT_STATE 4) 4).modCan 4 fun c =>
    { c with closing := true }⟩, by decide⟩, ⟨stew, 4, ⟨[], ((((rs.put (F.LN_FUNC_FUNC 16) 8).put (F.LN_STAT_STATE
    16) lnUP).on (F.LN_CTL_EN 16)).put (F.CAN_STAT_STATE 4) 3).on (F.CAN_CTL_EN 4)⟩, by decide⟩, ⟨stew, 4, ⟨[],
    rs.modCan 4 fun c => { c with needInit := true }⟩, by decide⟩, ⟨stew, 4, ⟨[], ((((rs.put (F.LN_FUNC_FUNC 16)
    8).put (F.LN_STAT_STATE 16) lnUP).on (F.LN_CTL_EN 16)).put (F.CAN_STAT_STATE 4) 3).on (F.CAN_CTL_EN 4)⟩, by
    decide⟩, ⟨stew, 4, ⟨[], rs⟩, by decide⟩, ⟨stew, 4, ⟨[], ((((rs.put (F.LN_FUNC_FUNC 16) 8).put (F.LN_STAT_STATE
    16) lnUP).on (F.LN_CTL_EN 16)).put (F.CAN_STAT_STATE 4) 4).on (F.CAN_CTL_EN 4)⟩, by decide⟩, ⟨4, ⟨[], ((((rs.put
    (F.LN_FUNC_FUNC 16) 8).put (F.LN_STAT_STATE 16) lnUP).on (F.LN_CTL_EN 16)).put (F.CAN_STAT_STATE 4) 2)⟩, by
    decide⟩, ⟨4, ⟨[], ((((rs.put (F.LN_FUNC_FUNC 16) 8).put (F.LN_STAT_STATE 16) lnUP).on (F.LN_CTL_EN 16)).put
    (F.CAN_STAT_STATE 4) 6)⟩, by decide⟩, ⟨4, ⟨[], ((((rs.put (F.LN_FUNC_FUNC 16) 8).put (F.LN_STAT_STATE 16)
    lnUP).on (F.LN_CTL_EN 16)).put (F.CAN_STAT_STATE 4) 6).put (F.CAN_STAT_BOREC 4) 127⟩, by decide⟩, ⟨4, ⟨[], rs⟩,
    by decide⟩, ⟨stew, 4, ⟨[], rs.modCan 4 fun c => { c with needInit := true, bad := [3] }⟩, by decide⟩, ⟨4, ⟨[],
    ((((rs.put (F.LN_FUNC_FUNC 16) 8).put (F.LN_STAT_STATE 16) lnUP).on (F.LN_CTL_EN 16)).put (F.CAN_STAT_STATE 4)
    6).put (F.CAN_STAT_BOREC 4) 127⟩, by decide⟩, ⟨4, ⟨[], ((((rs.put (F.LN_FUNC_FUNC 16) 8).put (F.LN_STAT_STATE
    16) lnUP).on (F.LN_CTL_EN 16)).put (F.CAN_STAT_STATE 4) 6)⟩, by decide⟩, ⟨stew, 4, ⟨[], ((((rs.put
    (F.LN_FUNC_FUNC 16) 8).put (F.LN_STAT_STATE 16) lnUP).on (F.LN_CTL_EN 16)).put (F.CAN_STAT_STATE 4) 3)⟩, by
    decide⟩, ⟨stew, 4, ⟨[], ((((rs.put (F.LN_FUNC_FUNC 16) 8).put (F.LN_STAT_STATE 16) lnUP).on (F.LN_CTL_EN
    16)).put (F.CAN_STAT_STATE 4) 3).on (F.CAN_CTL_SLEEP 4)⟩, by decide⟩, ⟨4, ⟨[], ((((rs.put (F.LN_FUNC_FUNC 16)
    8).put (F.LN_STAT_STATE 16) lnUP).on (F.LN_CTL_EN 16)).put (F.CAN_STAT_STATE 4) 3).on (F.CAN_CTL_SLEEP 4)⟩, by
    decide⟩, ⟨stew, 4, ⟨[], ((((rs.put (F.LN_FUNC_FUNC 16) 8).put (F.LN_STAT_STATE 16) lnUP).on (F.LN_CTL_EN
    16)).put (F.CAN_STAT_STATE 4) 7).on (F.CAN_CTL_SLEEP 4)⟩, by decide⟩, ⟨4, ⟨[], ((((rs.put (F.LN_FUNC_FUNC 16)
    8).put (F.LN_STAT_STATE 16) lnUP).on (F.LN_CTL_EN 16)).put (F.CAN_STAT_STATE 4) 7).on (F.CAN_CTL_SLEEP 4)⟩, by
    decide⟩, ⟨4, ⟨[], ((((rs.put (F.LN_FUNC_FUNC 16) 8).put (F.LN_STAT_STATE 16) lnUP).on (F.LN_CTL_EN 16)).put
    (F.CAN_STAT_STATE 4) 8).on (F.CAN_CTL_SLEEP 4)⟩, by decide⟩, ⟨4, ⟨false, false, false, false, false, 0, 0, []⟩,
    ⟨[], ((((rs.put (F.LN_FUNC_FUNC 16) 8).put (F.LN_STAT_STATE 16) lnUP).on (F.LN_CTL_EN 16)).put (F.CAN_STAT_STATE
    4) 8).on (F.CAN_CTL_SLEEP 4)⟩, by decide⟩, ⟨4, ⟨[], ((((rs.put (F.LN_FUNC_FUNC 16) 8).put (F.LN_STAT_STATE 16)
    lnUP).on (F.LN_CTL_EN 16)).put (F.CAN_STAT_STATE 4) 4)⟩, by decide⟩, ⟨4, ⟨[], ((((rs.put (F.LN_FUNC_FUNC 16)
    8).put (F.LN_STAT_STATE 16) lnUP).on (F.LN_CTL_EN 16)).put (F.CAN_STAT_STATE 4) 4).modCan 4 fun c =>
    { c with closing := true }⟩, by decide⟩⟩

theorem witness_can_frames :
    (∃ (a : Access) (k : Fin 16) (j : Fin 128) (s : State), (s.hub.lets a (canBase k + (0x50 + j / 32 * 4))) ∧
      ((s.hub.can[k]).txreq.getLsbD j = false) ∧ ((s.hub.can[k]).objen.getLsbD j) ∧ (s.hub.canAsleep k = false)) ∧
      (∃ (a : Access) (k : Fin 16) (j : Fin 128) (s : State), (s.hub.lets a (canBase k + (0x60 + j / 32 * 4))) ∧
      ((s.hub.can[k]).txreq.getLsbD j) ∧ ((s.hub.can[k]).att = none)) ∧ (∃ (k : Fin 16) (j : Fin 128) (s : State),
      (s.hub.canSt k = canIDLE) ∧ ((s.hub.can[k]).bad = []) ∧ ((s.hub.can[k]).objenNext = none) ∧ (s.hub.bit
      (F.CAN_CTL_LISTEN k) = false) ∧ (s.hub.bit (F.CAN_CTL_LOOP k) = false) ∧ (s.hub.canTaken k 0 = false) ∧
      (s.hub.drives) ∧ (s.hub.canPick k = some j)) ∧ (∃ (k : Fin 16) (s : State), (s.hub.canSt k = canIDLE) ∧
      ((s.hub.can[k]).bad = []) ∧ ((s.hub.can[k]).objenNext = none) ∧ ((s.hub.can[k]).txreq = 0) ∧ (s.hub.canDeaf k
      = false)) ∧ (∃ (k : Fin 16) (at_ : Attempt) (s : State), (s.hub.canSt k = canTRANSMIT) ∧ ((s.hub.can[k]).att =
      some at_) ∧ (at_.cancelled = false) ∧ (((s.hub.can[k]).word at_.obj 0).getLsbD 26 = false)) ∧ (∃ (k : Fin 16)
      (at_ : Attempt) (s : State), (s.hub.canSt k = canTRANSMIT) ∧ ((s.hub.can[k]).att = some at_) ∧ (at_.cancelled
      = false) ∧ (((s.hub.can[k]).word at_.obj 0).getLsbD 26)) ∧ (∃ (k : Fin 16) (at_ : Attempt) (s : State),
      (s.hub.canSt k = canTRANSMIT) ∧ ((s.hub.can[k]).att = some at_) ∧ (at_.cancelled = false) ∧ (s.hub.bit
      (F.CAN_TDC_TDCE k) = false) ∧ ((s.hub.can[k]).tec < 96) ∧ ((s.hub.can[k]).rec_ < 96) ∧ (s.hub.bit
      (F.CAN_CTL_LOOP k) = false) ∧ ((s.hub.can[k]).closing = false)) ∧ (∃ (k : Fin 16) (j : Fin 128) (f : CanFrame)
      (s : State), (s.hub.canSt k = canRECEIVE) ∧ (s.hub.canDeaf k = false) ∧ (f.fdf = true → s.hub.bit
      (F.CAN_CTL_FDOE k) = true) ∧ ((s.hub.can[k]).rec_ < 96) ∧ ((s.hub.can[k]).tec < 96) ∧ ((s.hub.can[k]).closing
      = false) ∧ ((s.hub.can[k]).bad = []) ∧ ((s.hub.can[k]).accepts j f) ∧ (∀ i : Fin 128, i.val < j.val →
      (s.hub.can[k]).accepts i f = false) ∧ (((s.hub.can[k]).word j 0).getLsbD 25 = false) ∧
      ((s.hub.can[k]).newdat.getLsbD j = false) ∧ (f.data.length ≤ 64)) ∧ (∃ (k : Fin 16) (e : CanError) (s :
      State), (s.hub.canSt k = canRECEIVE) ∧ ((s.hub.can[k]).att = none) ∧ ((s.hub.can[k]).tec < 96) ∧
      ((s.hub.can[k]).rec_ < 80) ∧ (e.dominantAfterFlag = false) ∧ ((s.hub.can[k]).closing = false) ∧
      (e.passiveNoDominant = false) ∧ (e.stuffInArb = false) ∧ (e.dataPhase = false)) ∧ (∃ (k : Fin 16) (e :
      CanError) (at_ : Attempt) (s : State), (s.hub.canSt k = canTRANSMIT) ∧ ((s.hub.can[k]).att = some at_) ∧
      (at_.cancelled = false) ∧ (((s.hub.can[k]).word at_.obj 0).getLsbD 26 = false) ∧ ((s.hub.can[k]).tec < 80) ∧
      ((s.hub.can[k]).rec_ < 96) ∧ (e.ctrlOrData = false) ∧ ((s.hub.can[k]).closing = false) ∧ (e.passiveNoDominant
      = false) ∧ (e.stuffInArb = false) ∧ (e.dataPhase = false)) :=
  ⟨⟨stew, 4, 9, ⟨[], rs.modCan 4 fun c => { c with objen := BitVec.allOnes 128 }⟩, by decide⟩, ⟨stew, 4, 9, ⟨[],
    rs.modCan 4 fun c => { c with txreq := 512 }⟩, by decide⟩, ⟨4, 1, ⟨[], ((((rs.put (F.LN_FUNC_FUNC 16) 8).put
    (F.LN_STAT_STATE 16) lnUP).on (F.LN_CTL_EN 16)).put (F.CAN_STAT_STATE 4) 3).modCan 4 fun c =>
    { c with objen := 2, txreq := 2, ram := [(20, 0x80000000#32)] }⟩, by decide⟩, ⟨4, ⟨[], ((((rs.put
    (F.LN_FUNC_FUNC 16) 8).put (F.LN_STAT_STATE 16) lnUP).on (F.LN_CTL_EN 16)).put (F.CAN_STAT_STATE 4) 3)⟩, by
    decide⟩, ⟨4, { obj := 1 }, ⟨[], ((((rs.put (F.LN_FUNC_FUNC 16) 8).put (F.LN_STAT_STATE 16) lnUP).on (F.LN_CTL_EN
    16)).put (F.CAN_STAT_STATE 4) 5).modCan 4 fun c => { c with txreq := 2, att := some { obj := 1 } }⟩, by decide⟩,
    ⟨4, { obj := 1 }, ⟨[], ((((rs.put (F.LN_FUNC_FUNC 16) 8).put (F.LN_STAT_STATE 16) lnUP).on (F.LN_CTL_EN 16)).put
    (F.CAN_STAT_STATE 4) 5).modCan 4 fun c =>
    { c with txreq := 2, att := some { obj := 1 }, ram := [(20, 0x84000000#32)] }⟩, by decide⟩, ⟨4, { obj := 1 },
    ⟨[], ((((rs.put (F.LN_FUNC_FUNC 16) 8).put (F.LN_STAT_STATE 16) lnUP).on (F.LN_CTL_EN 16)).put (F.CAN_STAT_STATE
    4) 5).modCan 4 fun c => { c with tec := 8, txreq := 2, att := some { obj := 1 } }⟩, by decide⟩, ⟨4, 3, ⟨false,
    false, false, false, false, 5, 2, [7, 8]⟩, ⟨[], ((((rs.put (F.LN_FUNC_FUNC 16) 8).put (F.LN_STAT_STATE 16)
    lnUP).on (F.LN_CTL_EN 16)).put (F.CAN_STAT_STATE 4) 4).modCan 4 fun c =>
    { c with objen := 8, ram := [(61, 5#32), (62, 0x1FFFFFFF#32)] }⟩, by decide⟩, ⟨4, ⟨2, false, false, false,
    false, false, false⟩, ⟨[], ((((rs.put (F.LN_FUNC_FUNC 16) 8).put (F.LN_STAT_STATE 16) lnUP).on (F.LN_CTL_EN
    16)).put (F.CAN_STAT_STATE 4) 4)⟩, by decide⟩, ⟨4, ⟨2, false, true, false, false, false, false⟩, { obj := 1 },
    ⟨[], ((((rs.put (F.LN_FUNC_FUNC 16) 8).put (F.LN_STAT_STATE 16) lnUP).on (F.LN_CTL_EN 16)).put (F.CAN_STAT_STATE
    4) 5).modCan 4 fun c => { c with txreq := 2, att := some { obj := 1 } }⟩, by decide⟩⟩

theorem witness_can_over_the_fabric :
    (∃ (k : Fin 16) (s : State), ((s.hub.can[k]).out ≠ []) ∧ (s.hub.bit F.BRG_CTL_EN)) ∧ (∃ (k : Fin 16) (s :
      State), (s.hub.bit F.BRG_CTL_EN = false)) ∧ (∃ (rq : Request) (s : State), (s.hub.admitsRq rq) ∧
      (rq.addr.space = 3) ∧ ((s.hub.brg.lock[rq.lane]) = {}) ∧ (s.hub.fn rq.lane = 8) ∧ (s.hub.laneAcc rq = .canRam)
      ∧ ((s.hub.can[s.hub.laneCan rq.lane]).bad = []) ∧ (rq.op = opREAD) ∧ (s.hub.awaits rq)) ∧ (∃ (rq : Request) (s
      : State), (s.hub.admitsRq rq) ∧ (rq.addr.space = 3) ∧ ((s.hub.brg.lock[rq.lane]) = {}) ∧ (s.hub.fn rq.lane =
      8) ∧ (s.hub.laneAcc rq = .canTx) ∧ (rq.op = opWRITE) ∧ (rq.posted) ∧ ((s.hub.can[s.hub.laneCan
      rq.lane]).txreq.getLsbD (rq.dev % 128) = false) ∧ ((s.hub.can[s.hub.laneCan rq.lane]).objen.getLsbD (rq.dev %
      128)) ∧ (s.hub.canAsleep (s.hub.laneCan rq.lane) = false)) :=
  ⟨⟨4, ⟨[], (rs.on F.BRG_CTL_EN).modCan 4 fun c => { c with out := [[1, 2, 3, 4]] }⟩, by decide⟩, ⟨4, ⟨[], rs.modCan
    4 fun c => { c with out := [[1, 2, 3, 4]] }⟩, by decide⟩, ⟨rrq 0x090000000 8, ⟨[], waitFor (Hub.withUp rs 2 8)
    (rrq 0x090000000 8)⟩, by decide⟩, ⟨wrq 1 0x092000005 [1, 2, 3, 4] true, ⟨[], (openWin (Hub.withUp rs 2
    8)).modCan 0 fun c => { c with objen := BitVec.allOnes 128 }⟩, by decide⟩⟩

theorem witness_gnomon_commit_pair_and_reads :
    (∃ (a : Access)  (s : State), (s.hub.lets a 0x6001C) ∧ (s.hub.bit F.GNO_COMMIT_GO = false)) ∧ (∃ (a : Access)
      (s : State), (s.hub.lets a 0x6001C) ∧ (s.hub.bit F.GNO_COMMIT_GO)) ∧ (∃ (c : Fin 8) (s : State), (s.hub.bit
      F.GNO_COMMIT_GO) ∧ (s.hub.gno.goTick ≠ s.hub.now) ∧ (s.hub.now % 8 = 0) ∧ (s.hub.snap = []) ∧
      (s.hub.clusterPresent c)) ∧ (∃ (s : State), (s.hub.bit F.GNO_COMMIT_GO = false ∨ s.hub.gno.goTick = s.hub.now
      ∨ s.hub.now % 8 ≠ 0)) ∧ (∃ (a : Access)  (s : State), (s.hub.lets a 0x60000 false) ∧ (isRemote a = false)) ∧
      (∃ (a : Access)  (s : State), (s.hub.lets a 0x60000 false) ∧ (isRemote a)) ∧ (∃ (a : Access) (g : GTime) (s :
      State), (s.hub.lets a 0x60004 false) ∧ (s.hub.shadowOf a = some g)) ∧ (∃ (a : Access) (g : GTime) (s : State),
      (s.hub.lets a 0x60008 false) ∧ (s.hub.shadowOf a = some g)) ∧ (∃ (a : Access)  (s : State), (s.hub.lets a
      0x60030) ∧ (s.hub.bit F.GNO_PAIR_GO)) ∧ (∃ (a : Access)  (s : State), (s.hub.lets a 0x60030) ∧ (s.hub.bit
      F.GNO_PAIR_GO = false)) ∧ (∃ (c : Fin 8) (s : State), (s.hub.bit F.GNO_PAIR_GO) ∧ (s.hub.gno.pairAt ≠
      s.hub.now) ∧ (s.hub.now % 8 = 0) ∧ (s.hub.clusterPresent c)) ∧ (∃ (s : State), (s.hub.bit F.GNO_PAIR_GO =
      false ∨ s.hub.gno.pairAt = s.hub.now ∨ s.hub.now % 8 ≠ 0)) :=
  ⟨⟨stew, ⟨[], rs⟩, by decide⟩, ⟨stew, ⟨[], rs.on F.GNO_COMMIT_GO⟩, by decide⟩, ⟨2, ⟨[],
    { (rs.on F.GNO_COMMIT_GO).put F.GNO_STEPS_SEC 5 with now := 16 }⟩, by decide⟩, ⟨⟨[],
    { (rs.on F.GNO_COMMIT_GO) with now := 9 }⟩, by decide⟩, ⟨stew, ⟨[],
    { rs with gno := { t := { sec := 5, ns := 6 } } }⟩, by decide⟩,
    ⟨{ req := 10, node := 3, mem := 0, posted := false }, ⟨[], { rs with gno := { t := { sec := 5, ns := 6 } } }⟩,
    by decide⟩, ⟨stew, { sec := 5, ns := 6 }, ⟨[],
    { rs with gno := { shadow := (Vector.replicate 16 {}).set 0 { sec := 5, ns := 6 } } }⟩, by decide⟩, ⟨stew,
    { sec := 5, ns := 6 }, ⟨[],
    { rs with gno := { shadow := (Vector.replicate 16 {}).set 0 { sec := 5, ns := 6 } } }⟩, by decide⟩, ⟨stew, ⟨[],
    rs.on F.GNO_PAIR_GO⟩, by decide⟩, ⟨stew, ⟨[], rs⟩, by decide⟩, ⟨2, ⟨[], ((rs.on F.GNO_PAIR_GO).modReed 2 fun r
    => { r with ctr := 0x500000007 }).atNow 8⟩, by decide⟩, ⟨⟨[], rs⟩, by decide⟩⟩

theorem witness_anchors_pulses_and_pps :
    (∃ (a : Access) (c : Fin 8) (which : Fin 5) (v : W32) (s : State), (s.hub.lets a (reedBase c + 0x108 + 4 *
      which))) ∧ (∃ (a : Access) (c : Fin 8) (v : W32) (s : State), (s.hub.lets a (reedBase c + 0x11C))) ∧ (∃ (a :
      Access) (c : Fin 8) (s : State), (s.hub.lets a (reedBase c + 0x100) false)) ∧ (∃ (g : Fin 4) (rising : Bool)
      (t : Nat) (s : State), (s.hub.bit (F.GNO_PG_CTL_EN g)) ∧ ((s.hub.gno.pg[g]).next = some t) ∧ (t ≤
      s.hub.gno.t.nanos) ∧ ((s.hub.gno.pg[g]).high ≠ rising) ∧ (s.hub.bit (F.GNO_PG_CTL_EVENT g) = false)) ∧ (∃ (g :
      Fin 4) (rising : Bool) (t : Nat) (n : Fin 64) (s : State), (s.hub.bit (F.GNO_PG_CTL_EN g)) ∧ (s.hub.bit
      (F.GNO_PG_CTL_ROUTE g)) ∧ ((s.hub.gno.pg[g]).rNext = some t) ∧ (t ≤ s.hub.gno.t.nanos + 10000) ∧
      ((s.hub.gno.pg[g]).rHigh ≠ rising) ∧ (s.hub.fld (F.GNO_PG_CTL_LANE g) = n.val) ∧ (s.hub.clusterUp (clusterOf
      n)) ∧ ((s.hub.reed[clusterOf n]).q = [])) ∧ (∃ (s : State), (s.hub.bit F.GNO_FLAG_PPSIN = false)) ∧ (∃ (s :
      State), (s.hub.bit F.GNO_FLAG_PPSIN)) :=
  ⟨⟨stew, 2, 1, 7#32, ⟨[], rs⟩, by decide⟩, ⟨stew, 2, 7#32, ⟨[], rs⟩, by decide⟩, ⟨stew, 2, ⟨[], rs⟩, by decide⟩,
    ⟨1, true, 7, ⟨[],
    { (rs.on (F.GNO_PG_CTL_EN 1)).put (F.GNO_PG_PER_NS 1) 2000 with gno := { t := { ns := 9 }, pg := (Vector.replicate 4 {}).set 1 { next := some 7 } } }⟩,
    by decide⟩, ⟨1, true, 7, 20, ⟨[],
    { (((rs.on (F.GNO_PG_CTL_EN 1)).on (F.GNO_PG_CTL_ROUTE 1)).put (F.GNO_PG_CTL_LANE 1) 20).put (F.GNO_PG_PER_NS 1) 2000 with gno := { t := { ns := 9 }, pg := (Vector.replicate 4 {}).set 1 { rNext := some 7 } } }⟩,
    by decide⟩, ⟨⟨[], { rs with gno := { t := { sec := 5, ns := 6 } } }⟩, by decide⟩, ⟨⟨[],
    { rs.on F.GNO_FLAG_PPSIN with gno := { t := { sec := 5, ns := 6 } } }⟩, by decide⟩⟩

theorem witness_timed_writes :
    (∃ (f : Frame) (w0 w1 : W32) (s : State), (f.hdr.typ = tTIMED) ∧ (f.hdr.np = false) ∧ (s.hub.brgOn) ∧
      (s.hub.paired = false) ∧ ((requestOf f).op = opWRITE) ∧ ((requestOf f).len = 8) ∧ (f.pay.length = 12) ∧
      (f.word 1 = w0) ∧ (f.word 2 = w1) ∧ (timeNs f.hdr.adr < 1000000000) ∧ (s.hub.timedRefuse
      ({ requestOf f with addr := s.hub.laneAddr (w0.bits 31 26) }) w0 (s.hub.recTime f.hdr.adr w1) = none) ∧ (¬
      (signed 64 (((s.hub.reed[clusterOf (recLane w0)]).anc.toTick (s.hub.recTime f.hdr.adr w1)).1 + 2 ^ 64 -
      ((s.hub.reed[clusterOf (recLane w0)]).ctr + s.hub.fld F.GNO_TWCFG_GUARD) % 2 ^ 64) < 0))) ∧ (∃ (f : Frame) (w0
      w1 : W32) (s : State), (f.hdr.typ = tTIMED) ∧ (f.hdr.np = false) ∧ (s.hub.brgOn) ∧ (s.hub.paired = false) ∧
      ((requestOf f).op = opWRITE) ∧ ((requestOf f).len = 8) ∧ (f.pay.length = 12) ∧ (f.word 1 = w0) ∧ (f.word 2 =
      w1) ∧ (timeNs f.hdr.adr < 1000000000) ∧ (s.hub.timedRefuse
      ({ requestOf f with addr := s.hub.laneAddr (w0.bits 31 26) }) w0 (s.hub.recTime f.hdr.adr w1) = none) ∧
      (signed 64 (((s.hub.reed[clusterOf (recLane w0)]).anc.toTick (s.hub.recTime f.hdr.adr w1)).1 + 2 ^ 64 -
      ((s.hub.reed[clusterOf (recLane w0)]).ctr + s.hub.fld F.GNO_TWCFG_GUARD) % 2 ^ 64) < 0) ∧ (s.hub.timedWin
      ({ requestOf f with addr := s.hub.laneAddr (w0.bits 31 26) }) = some true)) ∧ (∃ (f : Frame) (w0 w1 : W32) (s
      : State), (f.hdr.typ = tTIMED) ∧ (f.hdr.np = false) ∧ (s.hub.brgOn) ∧ (s.hub.paired = false) ∧ ((requestOf
      f).op = opWRITE) ∧ ((requestOf f).len = 8) ∧ (f.pay.length = 12) ∧ (f.word 1 = w0) ∧ (f.word 2 = w1) ∧ (timeNs
      f.hdr.adr < 1000000000) ∧ (s.hub.timedRefuse ({ requestOf f with addr := s.hub.laneAddr (w0.bits 31 26) }) w0
      (s.hub.recTime f.hdr.adr w1) = none) ∧ (signed 64 (((s.hub.reed[clusterOf (recLane w0)]).anc.toTick
      (s.hub.recTime f.hdr.adr w1)).1 + 2 ^ 64 - ((s.hub.reed[clusterOf (recLane w0)]).ctr + s.hub.fld
      F.GNO_TWCFG_GUARD) % 2 ^ 64) < 0) ∧ (s.hub.timedWin
      ({ requestOf f with addr := s.hub.laneAddr (w0.bits 31 26) }) = some false)) ∧ (∃ (f : Frame) (w0 w1 : W32)
      (st : Nat) (s : State), (f.hdr.typ = tTIMED) ∧ (f.hdr.np = false) ∧ (s.hub.brgOn) ∧ (s.hub.paired = false) ∧
      ((requestOf f).op = opWRITE) ∧ ((requestOf f).len = 8) ∧ (f.pay.length = 12) ∧ (f.word 1 = w0) ∧ (f.word 2 =
      w1) ∧ (timeNs f.hdr.adr < 1000000000) ∧ (s.hub.timedRefuse
      ({ requestOf f with addr := s.hub.laneAddr (w0.bits 31 26) }) w0 (s.hub.recTime f.hdr.adr w1) = some st) ∧ (st
      ≠ stBACKOFF)) ∧ (∃ (f : Frame) (s : State), (f.hdr.typ = tTIMED) ∧ (1000000000 ≤ timeNs f.hdr.adr)) :=
  ⟨⟨timedFrame 0x28400000#32 5000#32, 0x28400000#32, 5000#32, ⟨[], (((Hub.withUp rs 10 0).put (F.LN_PIN_MODE 10 0)
    pmOUT).put F.GNO_CVALID_VALID 255).on F.BRG_CTL_EN⟩, by decide⟩,
    ⟨{ timedFrame 0x28400000#32 0#32 with hdr := { (timedFrame 0x28400000#32 0#32).hdr with snode := 3 } },
    0x28400000#32, 0#32, ⟨[], lateHub true⟩, by decide⟩, ⟨timedFrame 0x28400000#32 0#32, 0x28400000#32, 0#32, ⟨[],
    { (((Hub.withUp rs 10 0).put (F.LN_PIN_MODE 10 0) pmOUT).put F.GNO_CVALID_VALID 255).on F.BRG_CTL_EN with gno := { t := { sec := 9 } } }⟩,
    by decide⟩, ⟨timedFrame 0x28400000#32 0#32, 0x28400000#32, 0#32, 8, ⟨[],
    { (((Hub.withUp rs 10 0).put (F.LN_PIN_MODE 10 0) pmOUT)).on F.BRG_CTL_EN with gno := { t := { sec := 9 } } }⟩,
    by decide⟩, ⟨{ timedFrame 0 0 with hdr := { (timedFrame 0 0).hdr with adr := 0xFFFFFFFF } }, ⟨[], rs.on
    F.BRG_CTL_EN⟩, by decide⟩⟩

theorem witness_ptp_frames_and_stamps :
    (∃ (port : Fin 4) (f : Frame) (s : State), (port.val < 2) ∧ (ptpType f.pay = 1 ∨ ptpType f.pay = 9)) ∧ (∃ (port
      : Fin 4) (f : Frame) (s : State), (f.hdr.dnode = 0) ∧ (port.val < 2 → ptpType f.pay ≠ 1 ∧ ptpType f.pay ≠ 9))
      ∧ (∃ (port : Fin 4) (f : Frame) (s : State), (port.val < 2) ∧ (ptpType f.pay ≠ 1) ∧ (ptpType f.pay ≠ 9) ∧
      (f.hdr.dnode ≠ 0) ∧ (f.hdr.dnode.toNat ≠ s.hub.node) ∧ (f.hdr.dnode ≠ 255) ∧ (s.hub.node ≠ 0 →
      f.hdr.snode.toNat ≠ s.hub.node) ∧ (f.hdr.hops ≠ 0)) ∧ (∃ (port : Fin 4) (f : Frame) (s : State), (port.val <
      2) ∧ (ptpType f.pay ≠ 1) ∧ (ptpType f.pay ≠ 9) ∧ (f.hdr.dnode ≠ 0) ∧ (f.hdr.dnode.toNat ≠ s.hub.node) ∧
      (f.hdr.dnode ≠ 255) ∧ (s.hub.node ≠ 0 → f.hdr.snode.toNat ≠ s.hub.node) ∧ (f.hdr.hops = 0)) ∧ (∃ (port : Fin
      4) (seq : BitVec 16) (dom : Byte) (typ : BitVec 4) (s : State), (s.hub.bit (F.TS_CTL_EN port)) ∧
      ((s.hub.ts[port]).q.length < 16)) ∧ (∃ (port : Fin 4) (seq : BitVec 16) (dom : Byte) (typ : BitVec 4) (s :
      State), (s.hub.bit (F.TS_CTL_EN port)) ∧ (16 ≤ (s.hub.ts[port]).q.length)) ∧ (∃ (a : Access) (port : Fin 4) (s
      : State), (s.hub.lets a (tsBase port + 0x20))) :=
  ⟨⟨0, { hdr := pHdr 9 0, pay := [1] }, ⟨[], rs⟩, by decide⟩, ⟨0, { hdr := pHdr 9 0, pay := [0] }, ⟨[], rs⟩, by
    decide⟩, ⟨0, { hdr := { pHdr 9 5 with hops := 7 }, pay := [0] }, ⟨[], rs⟩, by decide⟩, ⟨0,
    { hdr := pHdr 9 5, pay := [0] }, ⟨[], rs⟩, by decide⟩, ⟨1, 5, 0, 3, ⟨[], rs.on (F.TS_CTL_EN 1)⟩, by decide⟩, ⟨1,
    5, 0, 3, ⟨[],
    { rs.on (F.TS_CTL_EN 1) with ts := (Vector.replicate 4 {}).set 1 { q := List.replicate 16 ⟨0, 0, 0, {}⟩ } }⟩, by
    decide⟩, ⟨stew, 1, ⟨[], rs⟩, by decide⟩⟩

theorem witness_tile_memory_commands :
    (∃ (i : Fin 64) (e : QEnt) (s : State), (s.hub.tl.quar[i] = some e) ∧ (e.part = 0) ∧ (e.perm = false) ∧ (e.at_ +
      4000000000 ≤ s.hub.now)) ∧ (∃ (i : Fin 64) (b : Bool) (e : QEnt) (s : State), (s.hub.tl.quar[i] = some e) ∧
      (e.part = 0) ∧ (e.perm = false) ∧ (e.at_ + 4000000000 ≤ s.hub.now)) ∧ (∃ (s : State), (s.hub.bit
      F.TILE_CTL_SCRUB_EN) ∧ (s.hub.tl.good s.hub.tl.scrub) ∧ (s.hub.tl.scrub + 1 < 16384)) ∧ (∃ (k : Fin 64) (s :
      State), (s.hub.bit F.TILE_CTL_SCRUB_EN) ∧ (s.hub.tl.good s.hub.tl.scrub = false) ∧ (s.hub.tl.quarantined
      s.hub.tl.scrub = false) ∧ (s.hub.tl.scrub + 1 < 16384) ∧ (s.hub.tl.quar[k] = none) ∧ (∀ j : Fin 64, j.val <
      k.val → (s.hub.tl.quar[j]).isSome)) ∧ (∃ (a : Access) (v : W32) (s : State), (s.hub.lets a 0xA803C)) :=
  ⟨⟨3, { tile := 7, cons := 1, part := 0 }, ⟨[],
    { rs with now := 4000000000, tl := { quar := (Vector.replicate 64 none).set 3 (some { tile := 7, cons := 1, part := 0 }) } }⟩,
    by decide⟩, ⟨3, true, { tile := 7, cons := 1, part := 0 }, ⟨[],
    { rs with now := 4000000000, tl := { quar := (Vector.replicate 64 none).set 3 (some { tile := 7, cons := 1, part := 0 }) } }⟩,
    by decide +kernel⟩, ⟨⟨[], rs.on F.TILE_CTL_SCRUB_EN⟩, by decide +kernel⟩, ⟨0, ⟨[],
    { rs.on F.TILE_CTL_SCRUB_EN with tl := { chk := [(0, 5#32)] } }⟩, by decide +kernel⟩, ⟨stew, 0x80000007#32, ⟨[],
    rs⟩, by decide⟩⟩

theorem witness_switch_queues :
    (∃ (a : Access)  (s : State), (s.hub.lets a 0xA0000) ∧ (s.hub.bit F.SWC_CTL_EN = false) ∧ (s.hub.swcLegal) ∧
      (s.hub.domOn 4) ∧ (s.hub.domOn 5) ∧ (s.hub.domOn 6) ∧ (s.hub.domOn 7)) ∧ (∃ (a : Access)  (s : State),
      (s.hub.lets a 0xA0000) ∧ (s.hub.bit F.SWC_CTL_EN = false) ∧ (s.hub.swcLegal = false)) ∧ (∃ (port : Fin 7) (f :
      Frame) (src : Nat) (s : State), (4 ≤ port.val) ∧ (f.hdr.len.toNat = f.pay.length) ∧ (s.hub.portTo f.hdr.dnode
      f.hdr.dmem = none) ∧ (s.hub.bit F.SWC_CTL_EN) ∧ (s.hub.sw.spill.getLsbD (qOf 5 f.hdr.tc.toNat) = false) ∧
      (s.hub.maySpill f.hdr.tc.toNat = false) ∧ (s.hub.admitRule (qOf 5 f.hdr.tc.toNat) f.hdr.tc.toNat (tilesFor
      f.pay.length) = some src) ∧ (tilesFor f.pay.length ≤ s.hub.poolFree)) ∧ (∃ (port : Fin 7) (f : Frame) (s :
      State), (4 ≤ port.val)) ∧ (∃ (l : Fin 4) (f : QFrame) (r : List QFrame) (s : State), (s.hub.linkIsUp l) ∧
      (s.hub.fld (F.X_STAT_PAUSED_RX l) = 0) ∧ (s.hub.bit (F.X_GCL_CTL_EN l) = false) ∧ (s.hub.sw.q[qOf (portOf l)
      7] = f :: r) ∧ (f.spill = none) ∧ (f.copying = false) ∧ (f.hdr.tc = 7) ∧ (f.hdr.typ ≠ tPTP) ∧ (s.hub.lossless
      7 = false) ∧ (f.tiles.all fun i => s.hub.tl.good i && !s.hub.tl.quarantined i)) ∧ (∃ (q : Fin 56) (f : QFrame)
      (s : State), (s.hub.sw.q[q] = [f]) ∧ (f.copying) ∧ (s.hub.lossless f.hdr.tc.toNat = false)) ∧ (∃ (q : Fin 56)
      (f : QFrame) (sl i : Nat) (s : State), (s.hub.sw.q[q] = [f]) ∧ (f.spill = some [sl]) ∧ (f.copying = false) ∧
      (f.tiles = []) ∧ (s.hub.fld F.DRM_REFILL_LO_TILES ≠ 0) ∧ (1 ≤ s.hub.sharedFree) ∧ (1 ≤ s.hub.poolFree) ∧
      (Hub.findTiles s.hub 16384 1 0 = [i])) :=
  ⟨⟨stew, ⟨[], rs⟩, by decide⟩, ⟨stew, ⟨[], rs.put (F.TILE_PART_SIZE 0) 5000⟩, by decide⟩, ⟨4,
    { hdr := { pHdr tEVENT 0 with len := 4 }, pay := [1, 2, 3, 4] }, 0, ⟨[], rs.on F.SWC_CTL_EN⟩, by decide⟩, ⟨4,
    { hdr := { pHdr tEVENT 0 with len := 4 }, pay := [1, 2, 3, 4] }, ⟨[], rs⟩, by decide⟩, ⟨1,
    { hdr := { pHdr tTIMED 5 with tc := 7 }, len := 12, tiles := [9], ing := 5 }, [], ⟨[],
    { rs.put (F.X_STAT_STATE 1) linkUP with tl := { used := [9] }, sw := { q := (Vector.replicate 56 []).set 15 [{ hdr := { pHdr tTIMED 5 with tc := 7 }, len := 12, tiles := [9], ing := 5 }] } }⟩,
    by decide +kernel⟩, ⟨8,
    { hdr := { pHdr tTIMED 5 with tc := 0 }, len := 12, tiles := [9], ing := 5, copying := true }, ⟨[],
    { rs with tl := { used := [9] }, sw := { q := (Vector.replicate 56 []).set 8 [{ hdr := { pHdr tTIMED 5 with tc := 0 }, len := 12, tiles := [9], ing := 5, copying := true }] } }⟩,
    by decide⟩, ⟨8, { hdr := { pHdr tTIMED 5 with tc := 0 }, len := 12, tiles := [], ing := 5, spill := some [0] },
    0, 0, ⟨[],
    { (rs.on F.SWC_CTL_EN).put F.DRM_REFILL_LO_TILES 5 with sw := { q := (Vector.replicate 56 []).set 8 [{ hdr := { pHdr tTIMED 5 with tc := 0 }, len := 12, tiles := [], ing := 5, spill := some [0] }] } }⟩,
    by decide +kernel⟩⟩

theorem witness_bridge_issue_and_tags :
    (∃ (rq : Request) (tg : Fin 256) (s : State), (rq.posted = false) ∧ (s.hub.issueErr
      { rq with snode := 0, smem := BitVec.ofNat 2 s.hub.member, again := false } = none) ∧ (s.hub.locksFull
      { rq with snode := 0, smem := BitVec.ofNat 2 s.hub.member, again := false } = false) ∧ (s.hub.staysHere
      { rq with snode := 0, smem := BitVec.ofNat 2 s.hub.member, again := false } = false) ∧ (s.hub.tagNow rq.req =
      some tg)) ∧ (∃ (rq : Request) (s : State), (rq.posted) ∧ (s.hub.issueErr
      { rq with snode := 0, smem := BitVec.ofNat 2 s.hub.member, again := false } = none) ∧ (s.hub.locksFull
      { rq with snode := 0, smem := BitVec.ofNat 2 s.hub.member, again := false } = false) ∧ (s.hub.staysHere
      { rq with snode := 0, smem := BitVec.ofNat 2 s.hub.member, again := false } = false) ∧ (s.hub.brg.wait = []))
      ∧ (∃ (rq : Request) (s : State), (rq.posted = false) ∧ (s.hub.brgOn) ∧ (s.hub.ownNode rq = false) ∧
      (s.hub.node = 0) ∧ (rq.addr.node ≠ 255)) ∧ (∃ (rq : Request) (s : State), (rq.posted = false) ∧
      (s.hub.issueErr { rq with snode := 0, smem := BitVec.ofNat 2 s.hub.member, again := false } = none) ∧
      (s.hub.locksFull { rq with snode := 0, smem := BitVec.ofNat 2 s.hub.member, again := false } = false) ∧
      (s.hub.tagNow rq.req = none)) ∧ (∃ (tg : Fin 256) (w : Waiting) (s : State), (s.hub.brg.wait = [w]) ∧
      (w.rq.posted = false) ∧ (s.hub.tagFor w.rq.req = some tg) ∧ (s.hub.staysHere
      { w.rq with tag := BitVec.ofNat 8 tg } = false)) ∧ (∃ (f : Frame) (u : Tx) (s : State), (f.hdr.typ = tCPL) ∧
      (s.hub.brg.tag[f.hdr.tag.toNat] = .use u) ∧ (u.flying) ∧ (u.rq.addr.mem = f.hdr.smem) ∧ (u.rq.addr.node =
      f.hdr.snode) ∧ ((u.who = .plain)) ∧ (u.cplm = none) ∧ (isLock u.rq.op = false) ∧ (u.rq.op ≠ opUNLOCK) ∧
      ((f.word 0).bits 3 0 = 0)) ∧ (∃ (f : Frame) (u : Tx) (s : State), (f.hdr.typ = tCPL) ∧
      (s.hub.brg.tag[f.hdr.tag.toNat] = .use u) ∧ (u.flying) ∧ (u.rq.addr.mem = f.hdr.smem) ∧ (u.rq.addr.node =
      f.hdr.snode) ∧ ((u.who = .plain)) ∧ (u.cplm = none) ∧ ((f.word 0).bits 3 0 = 1)) ∧ (∃ (f : Frame) (s : State),
      (f.hdr.typ = tCPL) ∧ (s.hub.brg.tag[f.hdr.tag.toNat] = .free)) ∧ (∃ (tg : Fin 256) (u : Tx) (s : State),
      (s.hub.brg.tag[tg] = .use u) ∧ (u.flying = false) ∧ (u.at_ ≤ s.hub.now) ∧ (s.hub.now ≤ u.first +
      s.hub.brgLife) ∧ (s.hub.staysHere { u.rq with again := true } = false) ∧ (u.timed = none)) ∧ (∃ (tg : Fin 256)
      (u : Tx) (s : State), (s.hub.brg.tag[tg] = .use u) ∧ (u.flying = false) ∧ (u.at_ ≤ s.hub.now) ∧ (u.first +
      s.hub.brgLife < s.hub.now) ∧ (u.last = 1) ∧ ((u.who = .plain)) ∧ (u.cplm = none) ∧ (isLock u.rq.op = false) ∧
      (u.rq.op ≠ opUNLOCK)) ∧ (∃ (tg : Fin 256) (u : Tx) (s : State), (s.hub.brg.tag[tg] = .use u) ∧ (u.flying) ∧
      (u.at_ + u.cto ≤ s.hub.now) ∧ (s.cplComes tg = false) ∧ ((u.who = .plain)) ∧ (u.cplm = none) ∧ (isLock u.rq.op
      = false) ∧ (u.rq.op ≠ opUNLOCK)) ∧ (∃ (tg : Fin 256) (t : Nat) (s : State), (s.hub.brg.tag[tg] = .held t) ∧ (t
      + us (s.hub.fld F.BRG_TAGCFG_HOLD * 10) ≤ s.hub.now)) :=
  ⟨⟨{ rrq 0 4 with addr := 0x053000000000 }, 0, ⟨[], ((rs.put F.GLB_SELF_NODE 3).on F.BRG_CTL_EN).on F.SWC_CTL_EN⟩,
    by decide⟩, ⟨{ wrq 1 0 [1, 2, 3, 4] true with addr := 0x053000000000 }, ⟨[], ((rs.put F.GLB_SELF_NODE 3).on
    F.BRG_CTL_EN).on F.SWC_CTL_EN⟩, by decide⟩, ⟨{ rrq 0 4 with addr := 0x053000000000 }, ⟨[], rs.on F.BRG_CTL_EN⟩,
    by decide⟩, ⟨{ rrq 0 4 with addr := 0x053000000000 }, ⟨[], ((rs.put F.GLB_SELF_NODE 3).on F.BRG_CTL_EN).on
    F.SWC_CTL_EN |>.modBrg fun b => { b with tag := Vector.replicate 256 (.held 0) }⟩, by decide⟩, ⟨0,
    { rq := { rrq 0 4 with addr := 0x053000000000 }, who := .plain, timed := none }, ⟨[], (((rs.put F.GLB_SELF_NODE
    3).on F.BRG_CTL_EN).on F.SWC_CTL_EN).modBrg fun b =>
    { b with wait := [{ rq := { rrq 0 4 with addr := 0x053000000000 }, who := .plain, timed := none }] }⟩, by
    decide⟩, ⟨{ hdr := { pHdr tCPL 3 with snode := 5, tag := 5 }, pay := [0, 0, 0, 0, 7, 8, 9, 10] },
    { rq := { rrq 0 4 with addr := 0x053000000000 }, first := 0 }, ⟨[], (((rs.put F.GLB_SELF_NODE 3).on
    F.BRG_CTL_EN).on F.SWC_CTL_EN).setTag 5 (.use { rq := { rrq 0 4 with addr := 0x053000000000 }, first := 0 })⟩,
    by decide⟩, ⟨{ hdr := { pHdr tCPL 3 with snode := 5, tag := 5 }, pay := [0, 0, 0, 1, 7, 8, 9, 10] },
    { rq := { rrq 0 4 with addr := 0x053000000000 }, first := 0 }, ⟨[], (((rs.put F.GLB_SELF_NODE 3).on
    F.BRG_CTL_EN).on F.SWC_CTL_EN).setTag 5 (.use { rq := { rrq 0 4 with addr := 0x053000000000 }, first := 0 })⟩,
    by decide⟩, ⟨{ hdr := { pHdr tCPL 3 with snode := 5, tag := 5 }, pay := [0, 0, 0, 0, 7, 8, 9, 10] }, ⟨[],
    ((rs.put F.GLB_SELF_NODE 3).on F.BRG_CTL_EN).on F.SWC_CTL_EN⟩, by decide⟩, ⟨5,
    { rq := { rrq 0 4 with addr := 0x053000000000 }, first := 0, flying := false, last := 1 }, ⟨[], (((rs.put
    F.GLB_SELF_NODE 3).on F.BRG_CTL_EN).on F.SWC_CTL_EN).setTag 5 (.use
    { rq := { rrq 0 4 with addr := 0x053000000000 }, first := 0, flying := false, last := 1 })⟩, by decide⟩, ⟨5,
    { rq := { rrq 0 4 with addr := 0x053000000000 }, first := 0, flying := false, last := 1 }, ⟨[],
    { ((((rs.put F.GLB_SELF_NODE 3).on F.BRG_CTL_EN).on F.SWC_CTL_EN).setTag 5 (.use { rq := { rrq 0 4 with addr := 0x053000000000 }, first := 0, flying := false, last := 1 })) with now := 10 ^ 9 }⟩,
    by decide⟩, ⟨5, { rq := { rrq 0 4 with addr := 0x053000000000 }, first := 0 }, ⟨[],
    { ((((rs.put F.GLB_SELF_NODE 3).on F.BRG_CTL_EN).on F.SWC_CTL_EN).setTag 5 (.use { rq := { rrq 0 4 with addr := 0x053000000000 }, first := 0 })) with now := 10 ^ 9 }⟩,
    by decide⟩, ⟨5, 3, ⟨[], { (rs.setTag 5 (.held 3)) with now := 10 ^ 9 }⟩, by decide⟩⟩

theorem witness_reads_and_writes_at_the_target :
    (∃ (rq : Request) (v : Nat) (s : State), (s.hub.admitsRq rq) ∧ (s.hub.awaits rq) ∧ (rq.op = opREAD) ∧
      (rq.addr.space = 0) ∧ (((s.hub.count F.BRG_NPCNT).readReg (s.hub.accessOf rq) rq.addr.off).2 = some v)) ∧ (∃
      (rq : Request) (s : State), (s.hub.admitsRq rq) ∧ (s.hub.awaits rq) ∧ (rq.op = opREAD) ∧ (rq.addr.space = 1) ∧
      ((tilesOf rq.addr.off rq.len).all fun i => s.hub.tl.good i && !s.hub.tl.quarantined i)) ∧ (∃ (rq : Request) (s
      : State), (s.hub.admitsRq rq) ∧ (s.hub.awaits rq) ∧ (rq.op = opREAD) ∧ (rq.addr.space = 2)) ∧ (∃ (rq :
      Request) (i : Fin 128) (s : State), (s.hub.admitsRq rq) ∧ (s.hub.awaits rq) ∧ (rq.op = opREAD) ∧
      (rq.addr.space = 3) ∧ ((s.hub.brg.lock[rq.lane]) = {}) ∧ (s.hub.laneAcc rq = .bus) ∧ (s.hub.winExempt rq) ∧
      (s.hub.slotOfKey rq = none) ∧ (s.hub.echoSlot rq .echoed = none) ∧ (s.hub.echoSlot rq .fetching = none) ∧
      ((s.hub.brg.slot[i]).st = .free) ∧ (∀ k : Fin 128, k.val < i.val → (s.hub.brg.slot[k]).st ≠ .free) ∧
      ((s.hub.lane rq.lane).dev = [])) ∧ (∃ (rq : Request) (s : State), (rq.op = opREAD) ∧ (s.hub.awaits rq) ∧
      (s.hub.brgOn) ∧ (s.hub.paired = false) ∧ (badLen rq = false) ∧ (s.hub.winCheck rq = none) ∧ ((s.hub.spaceCheck
      rq).isNone) ∧ (rq.again = false)) ∧ (∃ (rq : Request) (s : State), (rq.op = opREAD) ∧ (s.hub.awaits rq) ∧
      (s.hub.bit F.BRG_CTL_EN = false)) ∧ (∃ (rq : Request) (s : State), (s.hub.admitsRq rq) ∧ (rq.op = opWRITE) ∧
      (rq.posted) ∧ (rq.addr.space = 2)) ∧ (∃ (rq : Request) (s : State), (s.hub.admitsRq rq) ∧ (rq.op = opWRITE) ∧
      (rq.posted) ∧ (rq.addr.space = 1) ∧ (rq.addr.off % 256 + rq.len < 256) ∧ (s.hub.pim.freezing = false) ∧
      (s.hub.partOf (rq.addr.off / 256) ≠ 1) ∧ (s.hub.member = 0)) :=
  ⟨⟨rrqA 0 0x20008 4, 0, ⟨[], waitFor rs (rrqA 0 0x20008 4)⟩, by decide⟩, ⟨rrqA 1 0x100 4, ⟨[], waitFor (rs.put
    (F.TILE_PART_SIZE 0) 4) (rrqA 1 0x100 4)⟩, by decide +kernel⟩, ⟨rrqA 2 0x100 4, ⟨[], waitFor
    ({ (rs.put F.DRM_CTL_SIZE 1).on F.DRM_STAT_RUN with dram := [(0x101, 9)] }) (rrqA 2 0x100 4)⟩, by decide⟩, ⟨rrq
    0x090000000 4, 0, ⟨[], waitFor (Hub.withUp rs 2 2) (rrq 0x090000000 4)⟩, by decide⟩,
    ⟨{ rrqA 2 0x100 4 with req := 3 }, ⟨[], waitFor ((rs.put F.DRM_CTL_SIZE 1).on F.DRM_STAT_RUN)
    { rrqA 2 0x100 4 with req := 3 }⟩, by decide⟩, ⟨rrqA 1 0x100 4, ⟨[], (waitFor rs (rrqA 1 0x100 4)).off
    F.BRG_CTL_EN⟩, by decide⟩, ⟨wrqA 2 0x100 [1, 2, 3, 4], ⟨[], serving ((rs.put F.DRM_CTL_SIZE 1).on
    F.DRM_STAT_RUN)⟩, by decide⟩, ⟨wrqA 1 0x100 [1, 2, 3, 4], ⟨[], serving (rs.put (F.TILE_PART_SIZE 1) 4)⟩, by
    decide⟩⟩

theorem witness_lane_locks :
    (∃ (rq : Request) (s : State), (s.hub.admitsRq rq) ∧ (s.hub.awaits rq) ∧ (rq.addr.space = 3) ∧ (s.hub.laneAcc rq
      = .stream) ∧ (rq.op = opLREAD) ∧ ((s.hub.brg.lock[rq.lane]) = {}) ∧ ((s.hub.lane rq.lane).rx.q = []) ∧ (∀ i :
      Fin 128, (s.hub.brg.slot[i]).st = .free ∧ (s.hub.brg.slot[i]).rq = none)) ∧ (∃ (rq : Request) (s : State),
      (s.hub.admitsRq rq) ∧ (s.hub.awaits rq) ∧ (rq.addr.space = 3) ∧ (s.hub.laneAcc rq = .stream) ∧ (rq.op =
      opLWRITE) ∧ ((s.hub.brg.lock[rq.lane]).owner = some (s.hub.keyOf rq)) ∧ ((s.hub.brg.lock[rq.lane]).broken =
      []) ∧ (s.hub.fn rq.lane ≠ 1) ∧ ((s.hub.lane rq.lane).stretch = false) ∧ ((s.hub.lane rq.lane).tx.q.length +
      rq.len / 4 ≤ 64)) ∧ (∃ (rq : Request) (k : Key) (s : State), (s.hub.admitsRq rq) ∧ (s.hub.awaits rq) ∧
      (rq.addr.space = 3) ∧ (s.hub.laneAcc rq = .stream) ∧ (rq.op = opLREAD) ∧ ((s.hub.brg.lock[rq.lane]).owner =
      some k) ∧ (k.lt (s.hub.keyOf rq)) ∧ (s.hub.brg.held = []) ∧ ((s.hub.brg.lock[rq.lane]).broken = [])) ∧ (∃ (rq
      : Request) (k : Key) (s : State), (s.hub.admitsRq rq) ∧ (s.hub.awaits rq) ∧ (rq.addr.space = 3) ∧
      (s.hub.laneAcc rq = .stream) ∧ (rq.op = opLREAD) ∧ ((s.hub.brg.lock[rq.lane]).owner = some k) ∧ ((s.hub.keyOf
      rq).lt k) ∧ (k ≠ s.hub.keyOf rq) ∧ (k.lt (s.hub.keyOf rq) = false) ∧ ((s.hub.brg.lock[rq.lane]).waiter = none)
      ∧ ((s.hub.brg.lock[rq.lane]).broken = [])) ∧ (∃ (rq : Request) (s : State), (s.hub.admitsRq rq) ∧ (rq.posted)
      ∧ (rq.addr.space = 3) ∧ (rq.op = opUNLOCK) ∧ ((s.hub.brg.lock[rq.lane]).broken = []) ∧
      ((s.hub.brg.lock[rq.lane]).owner = some (s.hub.keyOf rq))) ∧ (∃ (rq : Request) (s : State), (s.hub.admitsRq
      rq) ∧ (rq.posted) ∧ (rq.addr.space = 3) ∧ (rq.op = opUNLOCK) ∧ ((s.hub.brg.lock[rq.lane]).broken = []) ∧
      ((s.hub.brg.lock[rq.lane]).owner ≠ some (s.hub.keyOf rq))) ∧ (∃ (n : Fin 64) (s : State),
      ((s.hub.brg.lock[n]).rsvAt + us (s.hub.fld F.BRG_LKCFG_RSV) ≤ s.hub.now)) ∧ (∃ (n : Fin 64) (k : Key) (s :
      State), ((s.hub.brg.lock[n]).owner = some k) ∧ (s.hub.lockIdle n) ∧ (s.rqComes (s.hub.byOwner n) = false)) :=
  ⟨⟨{ rrq 0x080000000 8 with op := opLREAD }, ⟨[], waitFor (Hub.withUp rs 2 2)
    { rrq 0x080000000 8 with op := opLREAD }⟩, by decide⟩,
    ⟨{ wrq 3 0x080000000 [1, 2, 3, 4] false with op := opLWRITE }, ⟨[], (waitFor (Hub.withUp rs 2 2)
    { wrq 3 0x080000000 [1, 2, 3, 4] false with op := opLWRITE }).modLock 2 fun l =>
    { l with owner := some ⟨0, 0, 0⟩ }⟩, by decide⟩, ⟨{ rrq 0x080000000 8 with op := opLREAD, req := 3 }, ⟨0, 0, 0⟩,
    ⟨[], ((waitFor (Hub.withUp rs 2 2) { rrq 0x080000000 8 with op := opLREAD, req := 3 }).modLock 2 fun l =>
    { l with owner := some ⟨0, 0, 0⟩ }) |>.on (F.BRG_WIN_ATTR_EN 0) |>.on (F.BRG_WIN_ATTR_READ 0) |>.on
    (F.BRG_WIN_ATTR_LOCK 0) |>.put (F.BRG_WIN_BASE_SPACE 0) 3 |>.put (F.BRG_WIN_LIMIT_BLK 0) (2 ^ 28 - 1)⟩, by
    decide⟩, ⟨{ rrq 0x080000000 8 with op := opLREAD }, ⟨0, 0, 9⟩, ⟨[], (waitFor (Hub.withUp rs 2 2)
    { rrq 0x080000000 8 with op := opLREAD }).modLock 2 fun l => { l with owner := some ⟨0, 0, 9⟩ }⟩, by decide⟩,
    ⟨{ rrq 0x080000000 1 with op := opUNLOCK, posted := true }, ⟨[], (serving (Hub.withUp rs 2 2)).modLock 2 fun l
    => { l with owner := some ⟨0, 0, 0⟩ }⟩, by decide⟩, ⟨{ rrq 0x080000000 1 with op := opUNLOCK, posted := true },
    ⟨[], (serving (Hub.withUp rs 2 2)).modLock 2 fun l => { l with owner := some ⟨0, 0, 9⟩ }⟩, by decide⟩, ⟨2, ⟨[],
    { rs with now := 10 ^ 9 }⟩, by decide⟩, ⟨2, ⟨0, 0, 9⟩, ⟨[],
    { (rs.modLock 2 fun l => { l with owner := some ⟨0, 0, 9⟩ }) with now := 10 ^ 9 }⟩, by decide⟩⟩

theorem witness_retry_slots_echo_and_salvage :
    (∃ (slot : Fin 128) (rq : Request) (s : State), ((s.hub.brg.slot[slot]).st = .fetching) ∧
      ((s.hub.brg.slot[slot]).rq = some rq) ∧ ((s.hub.brg.slot[slot]).echo = false) ∧
      ((s.hub.brg.slot[slot]).retried = false) ∧ ((s.hub.brg.slot[slot]).gone = false) ∧ ((s.hub.brg.slot[slot]).at_
      + us (s.hub.fld F.BRG_RTCFG_WAIT) ≤ s.hub.now) ∧ (s.hub.awaits rq)) ∧ (∃ (slot : Fin 128) (rq : Request) (data
      : List Byte) (n : Fin 64) (t : Nat) (s : State), (s.hub.slotRuns slot = some n) ∧ ((s.hub.brg.slot[slot]).st =
      .fetching) ∧ ((s.hub.brg.slot[slot]).rq = some rq) ∧ ((s.hub.brg.slot[slot]).echo = false) ∧
      ((s.hub.brg.slot[slot]).retried) ∧ ((s.hub.brg.slot[slot]).gone = false) ∧ ((s.hub.lane n).dev =
      [{ rq := rq, slot := some slot, at_ := t }]) ∧ (rq.op = opREAD)) ∧ (∃ (slot : Fin 128) (rq : Request) (s :
      State), ((s.hub.brg.slot[slot]).st = .ready) ∧ ((s.hub.brg.slot[slot]).rq = some rq) ∧ (isRead rq.op) ∧
      ((s.hub.brg.slot[slot]).status = 0) ∧ ((s.hub.brg.slot[slot]).tick + us (max 10 (s.hub.fld F.BRG_RTCFG_HOLD))
      ≤ s.hub.now) ∧ ((s.hub.brg.slot[slot]).noServe = false) ∧ (s.rqComes (fun q => s.hub.slotOfKey q == some slot
      && (s.hub.brg.slot[slot]).rq.any fun r => reclaims r q) = false) ∧ ((s.hub.brg.salv[clusterOf rq.lane])[0] =
      none)) ∧ (∃ (slot : Fin 128) (rq : Request) (s : State), ((s.hub.brg.slot[slot]).st = .echoed) ∧
      ((s.hub.brg.slot[slot]).rq = some rq) ∧ (isRead rq.op) ∧ ((s.hub.brg.slot[slot]).status = 0) ∧
      ((s.hub.brg.slot[slot]).tick + us (s.hub.fld F.ECH_TIME_FRESH) ≤ s.hub.now) ∧ ((s.hub.brg.slot[slot]).noServe
      = false) ∧ ((s.hub.brg.salv[clusterOf rq.lane])[0] = none)) ∧ (∃ (i : Fin 16) (st : Stream) (c : Seen) (r :
      List Seen) (d : Nat) (rq : Request) (s : State), (s.hub.brg.stream[i] = some st) ∧ (st.hist = c :: r) ∧
      (strideOf st.hist = some (d : Int)) ∧ (s.hub.bit F.ECH_CTL_EN) ∧ (s.hub.brgOn) ∧ (s.hub.echoDepth = 1) ∧
      (s.hub.echoRoom) ∧ (c.off + d + c.len ≤ 2 ^ 30) ∧ (rq =
      { op := opREAD, addr := s.hub.laneAddr c.lane + BitVec.ofNat 48 (c.off + d), len := c.len, req := st.req, snode := st.node, smem := st.mem, tag := 0, again := false, posted := false, tc := 4, seq := 0, data := [] })
      ∧ (s.hub.echoMay st.win rq) ∧ ((s.hub.brg.slot[0]).st = .free)) ∧ (∃ (i : Fin 16) (st : Stream) (c : Seen) (r
      : List Seen) (p : Nat) (s : State), (s.hub.brg.stream[i] = some st) ∧ (st.hist = c :: r) ∧ (periodOf st.hist =
      some p) ∧ (c.tick + p + p / 2 ≤ s.hub.now)) ∧ (∃ (c : Fin 8) (e : Fin 16) (x : Salv) (s : State),
      ((s.hub.brg.salv[c])[e] = some x) ∧ (x.tick + us (max 10 (s.hub.fld F.ECH_SALVLIFE_US)) < s.hub.now)) ∧ (∃ (a
      : Access) (v : W32) (s : State), (s.hub.lets a 0xB8018)) :=
  ⟨⟨3, rrq 0x090000000 4, ⟨[],
    { ((waitFor (Hub.withUp rs 2 2) (rrq 0x090000000 4)).modSlot 3 fun _ => { st := .fetching, rq := some (rrq 0x090000000 4) }) with now := 10 ^ 8 }⟩,
    by decide⟩, ⟨3, rrq 0x090000000 4, [1, 2, 3, 4, 5], 2, 0, ⟨[], ((waitFor (Hub.withUp rs 2 2) (rrq 0x090000000
    4)).modSlot 3 fun _ => { st := .fetching, retried := true, rq := some (rrq 0x090000000 4) }).modLane 2 fun l =>
    { l with devRun := true, dev := [{ rq := rrq 0x090000000 4, slot := some 3, at_ := 0 }] }⟩, by decide⟩, ⟨3, rrq
    0x090000000 4, ⟨[],
    { (rs.modSlot 3 fun _ => { st := .ready, rq := some (rrq 0x090000000 4), data := [1, 2, 3, 4] }) with now := 10 ^ 8 }⟩,
    by decide⟩, ⟨3, rrq 0x090000000 4, ⟨[],
    { (rs.modSlot 3 fun _ => { st := .echoed, echo := true, rq := some (rrq 0x090000000 4), data := [1, 2, 3, 4] }) with now := 10 ^ 8 }⟩,
    by decide⟩, ⟨1,
    { node := 5, mem := 0, req := 3, win := 0, hist := [⟨2, 0x10000008, 4, 30⟩, ⟨2, 0x10000004, 4, 20⟩, ⟨2, 0x10000000, 4, 10⟩], used := 30 },
    ⟨2, 0x10000008, 4, 30⟩, [⟨2, 0x10000004, 4, 20⟩, ⟨2, 0x10000000, 4, 10⟩], 4,
    { rrq 0x09000000C 4 with req := 3, snode := 5, tag := 0, tc := 4 }, ⟨[], ((((serving (Hub.withUp rs 2 2)).on
    F.ECH_CTL_EN).put F.ECH_CFG_DEPTH 1).put F.ECH_CFG_SLOTS 4 |>.on (F.BRG_WIN_ATTR_EN 0) |>.on
    (F.BRG_WIN_ATTR_READ 0) |>.on (F.BRG_WIN_ATTR_IDEMPOTENT 0) |>.put (F.BRG_WIN_BASE_SPACE 0) 3 |>.put
    (F.BRG_WIN_LIMIT_BLK 0) (2 ^ 28 - 1)).modBrg fun b =>
    { b with stream := b.stream.set 1 (some { node := 5, mem := 0, req := 3, win := 0, hist := [⟨2, 0x10000008, 4, 30⟩, ⟨2, 0x10000004, 4, 20⟩, ⟨2, 0x10000000, 4, 10⟩], used := 30 }) }⟩,
    by decide⟩, ⟨1,
    { node := 5, mem := 0, req := 3, win := 0, hist := [⟨2, 0, 4, 30000⟩, ⟨2, 0, 4, 20000⟩, ⟨2, 0, 4, 10000⟩], used := 30 },
    ⟨2, 0, 4, 30000⟩, [⟨2, 0, 4, 20000⟩, ⟨2, 0, 4, 10000⟩], 10000, ⟨[],
    { (rs.modBrg fun b => { b with stream := b.stream.set 1 (some { node := 5, mem := 0, req := 3, win := 0, hist := [⟨2, 0, 4, 30000⟩, ⟨2, 0, 4, 20000⟩, ⟨2, 0, 4, 10000⟩], used := 30 }) }) with now := 10 ^ 8 }⟩,
    by decide⟩, ⟨2, 3,
    { lane := 1, off := 0, data := [1], g := {}, tick := 0, origin := 0, serve := true, ord := 0 }, ⟨[],
    { rs.setSalv 2 3 (some { lane := 1, off := 0, data := [1], g := {}, tick := 0, origin := 0, serve := true, ord := 0 }) with now := 10 ^ 12 }⟩,
    by decide⟩, ⟨stew, 4#32, ⟨[], rs.setSalv 2 3 (some
    { lane := 1, off := 0, data := [1], g := {}, tick := 0, origin := 0, serve := true, ord := 0 })⟩, by decide⟩⟩

theorem witness_events_tunnels_and_bridge_disable :
    (∃ (f : Frame) (s : State), (f.hdr.typ = tEVENT) ∧ (s.hub.err.log = []) ∧ (s.hub.fld F.ERR_ESC_UCMAX = 0)) ∧ (∃
      (f : Frame) (src : Nat) (s : State), (f.hdr.typ = tTUNNEL) ∧ (s.hub.bit F.BRG_TUNCFG_IN_EN) ∧
      (s.hub.listAdmits (s.hub.fld F.BRG_TUNCFG_ALLOW) (s.hub.srcNode f.hdr.snode)) ∧ ((f.word 0).bits 31 28 = 1) ∧
      ((f.word 0).bits 23 16 < 8) ∧ (s.hub.bit F.SWC_CTL_EN) ∧ (s.hub.sw.spill.getLsbD (qOf 4 f.hdr.tc.toNat) =
      false) ∧ (s.hub.maySpill f.hdr.tc.toNat = false) ∧ (s.hub.admitRule (qOf 4 f.hdr.tc.toNat) f.hdr.tc.toNat
      (tilesFor f.pay.length) = some src) ∧ (tilesFor f.pay.length ≤ s.hub.poolFree)) ∧ (∃ (f : Frame) (s : State),
      (f.hdr.typ = tTUNNEL) ∧ (s.hub.bit F.BRG_TUNCFG_IN_EN = false)) ∧ (∃ (a : Access)  (s : State), (s.hub.lets a
      0xB0000) ∧ (s.hub.bit F.BRG_CTL_EN) ∧ (s.hub.brgBusy = false)) ∧ (∃ (a : Access)  (s : State), (s.hub.lets a
      0xB0000) ∧ (s.hub.bit F.BRG_CTL_EN) ∧ (s.hub.brgBusy)) :=
  ⟨⟨{ hdr := pHdr tEVENT 0, pay := List.replicate 24 3 }, ⟨[], rs.put F.ERR_ESC_UCMAX 0⟩, by decide⟩,
    ⟨{ hdr := pHdr tTUNNEL 0, pay := [0x10, 2, 0, 0, 1, 2, 3, 4] }, 0, ⟨[], (rs.on F.SWC_CTL_EN).on
    F.BRG_TUNCFG_IN_EN |>.put F.BRG_TUNCFG_ALLOW 0⟩, by decide⟩,
    ⟨{ hdr := pHdr tTUNNEL 0, pay := [0x10, 2, 0, 0, 1, 2, 3, 4] }, ⟨[], rs⟩, by decide⟩, ⟨stew, ⟨[], (serving
    rs).modLock 2 fun l => { l with owner := some ⟨0, 0, 9⟩ }⟩, by decide⟩, ⟨stew, ⟨[], openWin rs⟩, by decide⟩⟩

theorem witness_link_states :
    (∃ (a : Access) (l : Fin 4) (s : State), (s.hub.lets a (linkBase l)) ∧ (s.hub.lk l = lkOFF) ∧ (s.hub.linkAllowed
      l)) ∧ (∃ (a : Access) (l : Fin 4) (s : State), (s.hub.lets a (linkBase l)) ∧ (s.hub.linkIsUp l)) ∧ (∃ (l : Fin
      2) (s : State), (s.hub.bit (F.X_SFPCTL_ABS (ringLink l)))) ∧ (∃ (l : Fin 2) (s : State), ((s.hub.link[ringLink
      l]).init) ∧ ((s.hub.link[ringLink l]).initEnd ≤ s.hub.now) ∧ (s.hub.bit (F.X_SFPCTL_ABS (ringLink l)) = false)
      ∧ (s.hub.member = 0) ∧ (s.hub.bit (F.X_CTL_EN (ringLink l))) ∧ (s.hub.lk (ringLink l) = lkOFF)) ∧ (∃ (l : Fin
      2) (s : State), (s.hub.bit (F.X_SFPCTL_ABS (ringLink l)) = false) ∧ (s.hub.linkIsUp (ringLink l))) ∧ (∃ (l :
      Fin 2) (s : State), (s.hub.bit (F.X_SFPCTL_LOS_EN (ringLink l))) ∧ (s.hub.linkIsUp (ringLink l))) ∧ (∃ (l :
      Fin 2) (s : State), (s.hub.bit (F.X_SFPCTL_LOS_EN (ringLink l)) = false)) ∧ (∃ (l : Fin 4) (hiBer : Bool) (s :
      State), (s.hub.linkIsUp l)) ∧ (∃ (l : Fin 4) (s : State), (s.hub.linkIsUp l) ∧ (2 * max 1 (s.hub.fld
      (F.X_BCN_MISS l)) * s.hub.bcnNs l ≤ (s.hub.now - (s.hub.link[l]).bAt) * 5)) ∧ (∃ (l : Fin 4) (s : State),
      (s.hub.beacons l) ∧ (2 * s.hub.bcnNs l ≤ (s.hub.now - (s.hub.link[l]).bcnAt) * 5)) ∧ (∃ (l : Fin 4) (s :
      State), ((s.hub.beacons l && decide (2 * s.hub.bcnNs l ≤ (s.hub.now - (s.hub.link[l]).bcnAt) * 5)) = false)) ∧
      (∃ (l : Fin 4) (f : Frame) (s : State), (f.hdr.typ = tBEACON) ∧ (s.hub.lk l = lkTRAIN ∨ s.hub.lk l = lkDOWN) ∧
      (s.hub.bit (F.X_CTL_EN l)) ∧ ((s.hub.link[l]).verified) ∧ (2 ≤ (s.hub.link[l]).good) ∧ (s.hub.bcnGap l = 1)) ∧
      (∃ (l : Fin 4) (f : Frame) (s : State), (f.hdr.typ = tBEACON) ∧ (s.hub.lk l = lkTRAIN) ∧ ((s.hub.link[l]).good
      < 2) ∧ ((s.hub.link[l]).good = 0 ∨ s.hub.bcnGap l = 1) ∧ (2 ≤ l.val ∨ s.hub.takesPart = false)) ∧ (∃ (l : Fin
      4) (f : Frame) (s : State), (f.hdr.typ = tBEACON) ∧ (s.hub.linkIsUp l) ∧ ((f.word 0).bit 7)) ∧ (∃ (l : Fin 4)
      (f : Frame) (s : State), (f.hdr.typ = tBEACON) ∧ (s.hub.lk l = lkTRAIN) ∧ ((s.hub.link[l]).good ≠ 0) ∧ (2 ≤
      s.hub.bcnGap l) ∧ (2 ≤ l.val ∨ s.hub.takesPart = false)) ∧ (∃ (l : Fin 4) (s : State), (s.hub.lk l = lkHOLD) ∧
      ((s.hub.link[l]).holdEnd ≤ s.hub.now) ∧ (s.hub.returnsNow l s.pending = false)) ∧ (∃ (l : Fin 4) (s : State),
      ((s.hub.link[l]).good < 3)) ∧ (∃ (l : Fin 4) (s : State), ((s.hub.link[l]).vfails < 2)) ∧ (∃ (l : Fin 4) (s :
      State), ((s.hub.link[l]).vfails = 2)) :=
  ⟨⟨stew, 2, ⟨[], rs⟩, by decide⟩, ⟨stew, 1, ⟨[], rs.put (F.X_STAT_STATE 1) linkUP⟩, by decide⟩, ⟨1, ⟨[], rs.on
    (F.X_SFPCTL_ABS 1)⟩, by decide⟩, ⟨1, ⟨[], ((rs.on (F.X_CTL_EN 1)).off (F.X_SFPCTL_ABS 1)).modLink 1 fun k =>
    { k with init := true }⟩, by decide⟩, ⟨1, ⟨[], (rs.put (F.X_STAT_STATE 1) linkUP).off (F.X_SFPCTL_ABS 1)⟩, by
    decide⟩, ⟨1, ⟨[], (rs.put (F.X_STAT_STATE 1) linkUP).on (F.X_SFPCTL_LOS_EN 1)⟩, by decide⟩, ⟨1, ⟨[], (rs.put
    (F.X_STAT_STATE 1) linkUP).off (F.X_SFPCTL_LOS_EN 1)⟩, by decide⟩, ⟨1, false, ⟨[], rs.put (F.X_STAT_STATE 1)
    linkUP⟩, by decide⟩, ⟨1, ⟨[], { (rs.put (F.X_STAT_STATE 1) linkUP) with now := 10 ^ 9 }⟩, by decide⟩, ⟨1, ⟨[],
    { (rs.put (F.X_STAT_STATE 1) linkUP) with now := 10 ^ 9 }⟩, by decide⟩, ⟨1, ⟨[], rs⟩, by decide⟩, ⟨1,
    { hdr := pHdr tBEACON 0, pay := [0, 0, 0, 0, 0, 0, 0, 0] }, ⟨[], ((rs.put (F.X_STAT_STATE 1) lkTRAIN).on
    (F.X_CTL_EN 1)).modLink 1 (fun k => { k with verified := true, good := 2 }) |>.atNow 1600⟩, by decide⟩, ⟨1,
    { hdr := pHdr tBEACON 0, pay := [0, 0, 0, 0, 0, 0, 0, 0] }, ⟨[], (rs.put (F.X_STAT_STATE 1) lkTRAIN)⟩, by
    decide⟩, ⟨1, { hdr := pHdr tBEACON 0, pay := [0, 0, 0, 128, 0, 0, 0, 0] }, ⟨[], rs.put (F.X_STAT_STATE 1)
    linkUP⟩, by decide⟩, ⟨1, { hdr := pHdr tBEACON 0, pay := [0, 0, 0, 0, 0, 0, 0, 0] }, ⟨[], (rs.put
    (F.X_STAT_STATE 1) lkTRAIN).modLink 1 (fun k => { k with good := 2 }) |>.atNow 4000000⟩, by decide⟩, ⟨1, ⟨[],
    rs.put (F.X_STAT_STATE 1) lkHOLD⟩, by decide⟩, ⟨1, ⟨[], rs⟩, by decide⟩, ⟨1, ⟨[], rs⟩, by decide⟩, ⟨1, ⟨[],
    rs.modLink 1 fun k => { k with vfails := 2 }⟩, by decide⟩⟩

theorem witness_link_services :
    (∃ (a : Access) (l : Fin 2) (v : W32) (s : State), (s.hub.lets a (linkBase l + 0x34)) ∧ (s.hub.bit
      (F.X_SFPI2C_GO (ringLink l)) = false)) ∧ (∃ (l : Fin 2) (data : Byte) (nack : Bool) (s : State), (s.hub.bit
      (F.X_SFPI2C_GO (ringLink l)))) ∧ (∃ (l : Fin 4) (v : Nat) (s : State), (s.hub.bit (F.X_COMMIT_GO l)) ∧
      ((s.hub.link[l]).gclAt ≤ s.hub.gno.t.nanos) ∧ (s.hub.snap = [((F.X_GCL_LEN_LEN l).key, some v)])) ∧ (∃ (l :
      Fin 4) (s : State), (s.hub.bit (F.X_GCL_CTL_EN l))) ∧ (∃ (l : Fin 4) (f : Frame) (s : State), (f.isRing 0x01)
      ∧ ((f.word 1).bits 7 0 = 8) ∧ ((s.hub.fld (F.X_PFC_RX_EN l)).testBit 3) ∧ (s.hub.linkIsUp l) ∧ ((f.word
      3).bits 31 16 ≠ 0)) ∧ (∃ (l : Fin 4) (cls : Fin 8) (s : State), ((s.hub.fld (F.X_STAT_PAUSED_TX l)).testBit
      cls) ∧ (cls.val < 6) ∧ (s.hub.linkSends l) ∧ ((s.hub.link[l]).xoffAt[cls] + s.hub.pauseTicks l (s.hub.fld
      (F.X_PFC_QUANTA l)) / 2 ≤ s.hub.now)) ∧ (∃ (l : Fin 4) (cls : Fin 8) (s : State),
      ((s.hub.link[l]).pauseEnd[cls] ≤ s.hub.now)) ∧ (∃ (l : Fin 4) (s : State), (s.hub.fld (F.X_STAT_RATE_ACT l) =
      1) ∧ (s.hub.linkIsUp l) ∧ (s.hub.member ≠ 0 ∨ l ≠ 2) ∧ (s.hub.bit (F.X_CTL_LPI_EN l)) ∧ (s.hub.lpiIdle l) ∧
      ((s.hub.link[l]).lpiTx = false)) ∧ (∃ (l : Fin 4) (s : State), (s.hub.fld (F.X_STAT_RATE_ACT l) = 1) ∧
      (s.hub.linkIsUp l) ∧ (s.hub.member ≠ 0 ∨ l ≠ 2)) ∧ (∃ (a : Access) (l : Fin 4) (s : State), (s.hub.lets a
      (linkBase l + 0x38)) ∧ (s.hub.lk l = lkTRAIN ∨ s.hub.lk l = lkDOWN)) ∧ (∃ (a : Access) (l : Fin 4) (s :
      State), (s.hub.lets a (linkBase l + 0x38)) ∧ (s.hub.linkIsUp l)) ∧ (∃ (l : Fin 4) (s : State), (s.hub.lk l =
      lkFLARE) ∧ ((s.hub.link[l]).flareEnd ≤ s.hub.now)) ∧ (∃ (l : Fin 4) (v : Nat) (s : State),
      (s.hub.statAt[statIdx (.link l)] < s.hub.statNum (.link l)) ∧ (s.hub.fld (F.X_STATMODE_MODE l) = 2) ∧
      (s.hub.fld (F.X_TXFRM l) = v) ∧ (Sparse.wf resetOf s.hub.fields)) :=
  ⟨⟨stew, 1, 0x80120000#32, ⟨[], rs⟩, by decide⟩, ⟨1, 7, false, ⟨[], rs.on (F.X_SFPI2C_GO 1)⟩, by decide⟩, ⟨1, 5,
    ⟨[], { rs.on (F.X_COMMIT_GO 1) with snap := [((F.X_GCL_LEN_LEN 1).key, some 5)] }⟩, by decide⟩, ⟨1, ⟨[], rs.on
    (F.X_GCL_CTL_EN 1)⟩, by decide⟩, ⟨1,
    { hdr := pHdr tRINGCTL 0, pay := wordsPay [0x01000101#32, 8#32, 0#32, 0x50000#32, 0#32, 0#32] }, ⟨[], (rs.put
    (F.X_STAT_STATE 1) linkUP).put (F.X_PFC_RX_EN 1) 63⟩, by decide⟩, ⟨1, 3, ⟨[],
    { ((rs.put (F.X_STAT_STATE 1) linkUP).put (F.X_STAT_PAUSED_TX 1) 8) with now := 10 ^ 9 }⟩, by decide⟩, ⟨1, 3,
    ⟨[], rs.put (F.X_STAT_PAUSED_RX 1) 8⟩, by decide⟩, ⟨1, ⟨[],
    { (((rs.put (F.X_STAT_STATE 1) linkUP).on (F.X_CTL_LPI_EN 1)).put (F.X_STAT_RATE_ACT 1) 1) with now := 10 ^ 9 }⟩,
    by decide⟩, ⟨1, ⟨[],
    { (((rs.put (F.X_STAT_STATE 1) linkUP).on (F.X_CTL_LPI_EN 1)).put (F.X_STAT_RATE_ACT 1) 1) with now := 10 ^ 9 }⟩,
    by decide⟩, ⟨stew, 1, ⟨[], rs.put (F.X_STAT_STATE 1) lkDOWN⟩, by decide⟩, ⟨stew, 1, ⟨[], rs.put (F.X_STAT_STATE
    1) linkUP⟩, by decide⟩, ⟨1, ⟨[], rs.put (F.X_STAT_STATE 1) lkFLARE⟩, by decide⟩, ⟨1, 7, ⟨[],
    { ((rs.put (F.X_STATMODE_MODE 1) 2).put (F.X_TXFRM 1) 7) with gno := { t := { sec := 9 } } }⟩, by decide⟩⟩

theorem witness_rate_shifts :
    (∃ (l : Fin 2) (s : State), ((s.hub.link[ringLink l]).winAt + s.hub.winTicks (ringLink l) ≤ s.hub.now) ∧
      (s.hub.bit (F.X_CTL_SHIFT_EN (ringLink l))) ∧ (s.hub.linkIsUp (ringLink l)) ∧ ((s.hub.link[ringLink l]).agreed
      = none) ∧ (s.hub.wantsUp (ringLink l) (s.hub.utilNow (ringLink l)))) ∧ (∃ (l : Fin 2) (s : State),
      ((s.hub.link[ringLink l]).winAt + s.hub.winTicks (ringLink l) ≤ s.hub.now) ∧ (s.hub.bit (F.X_CTL_SHIFT_EN
      (ringLink l)) = false)) ∧ (∃ (l : Fin 2) (f : Frame) (s : State), (f.isRing 0x02) ∧ (s.hub.bit
      (F.X_CTL_SHIFT_EN (ringLink l))) ∧ ((f.word 1).bits 1 0 < s.hub.fld (F.X_STAT_RATE_ACT (ringLink l))) ∧
      (s.hub.ownUpshift (ringLink l) = false)) ∧ (∃ (l : Fin 2) (f : Frame) (s : State), (f.isRing 0x02) ∧
      (s.hub.bit (F.X_CTL_SHIFT_EN (ringLink l)) = false) ∧ (s.hub.fld (F.X_STAT_RATE_ACT (ringLink l)) ≤ (f.word
      1).bits 1 0)) ∧ (∃ (l : Fin 2) (f : Frame) (r far : Nat) (s : State), (f.isRing 0x03) ∧ ((s.hub.link[ringLink
      l]).proposed = some r) ∧ (s.hub.neighbour s.hub.node ((ringLink l) == 1) = some far) ∧ (s.hub.isMaster =
      false)) ∧ (∃ (l : Fin 2) (f : Frame) (s : State), (f.isRing 0x04)) ∧ (∃ (f : Frame) (r : Nat) (s : State),
      (f.isRing 0x1C) ∧ (((s.hub.link[0]).proposed = some r)) ∧ ((s.hub.link[1]).proposed = none) ∧ ((f.word 1).bit
      0)) ∧ (∃ (f : Frame) (r : Nat) (s : State), (f.isRing 0x1C) ∧ (((s.hub.link[0]).proposed = some r)) ∧
      ((s.hub.link[1]).proposed = none) ∧ ((f.word 1).bit 0 = false) ∧ (s.hub.fld (F.X_STAT_RATE_ACT 0) < r)) ∧ (∃
      (l : Fin 2) (r : Nat) (s : State), ((s.hub.link[ringLink l]).agreed = some r) ∧ (r < 4) ∧ (s.hub.linkIsUp
      (ringLink l)) ∧ (s.hub.bit (wrapFld (ringLink l))) ∧ (s.hub.portEmpty (portOf (ringLink l)))) ∧ (∃ (l : Fin 2)
      (r : Nat) (s : State), ((s.hub.link[ringLink l]).agreed = some r) ∧ (s.hub.linkIsUp (ringLink l)) ∧ (s.hub.bit
      (wrapFld (ringLink l))) ∧ (s.hub.portEmpty (portOf (ringLink l)) = false) ∧ ((s.hub.link[ringLink l]).drainEnd
      ≤ s.hub.now)) ∧ (∃ (l : Fin 2) (r : Nat) (s : State), (s.hub.lk (ringLink l) = lkSHIFT) ∧
      ((s.hub.link[ringLink l]).from_ = some r) ∧ (r < 4) ∧ ((s.hub.link[ringLink l]).trainEnd ≤ s.hub.now)) ∧ (∃ (f
      : Frame) (s : State), (f.isRing 0x1B) ∧ (s.hub.isMaster) ∧ ((s.hub.shiftDecide f.hdr.snode.toNat (f.word 1)
      (f.word 2)).2 = none)) ∧ (∃ (f : Frame) (z : BitVec 64) (s : State), (f.isRing 0x1B) ∧ (s.hub.isMaster) ∧
      ((s.hub.shiftDecide f.hdr.snode.toNat (f.word 1) (f.word 2)).2 = some z)) :=
  ⟨⟨1, ⟨[],
    { (((rs.put (F.X_STAT_STATE 1) linkUP).on (F.X_CTL_SHIFT_EN 1)).put (F.X_STAT_RATE_ACT 1) 2 |>.put (F.X_SHIFT_UP 1) 80 |>.put (F.X_SHIFT_WIN 1) 1 |>.modLink 1 fun k => { k with sent := 10 ^ 7 }) with now := 10 ^ 9 }⟩,
    by decide⟩, ⟨1, ⟨[], { (rs.put (F.X_STAT_STATE 1) linkUP).off (F.X_CTL_SHIFT_EN 1) with now := 10 ^ 9 }⟩, by
    decide⟩, ⟨1, { hdr := pHdr tRINGCTL 0, pay := wordsPay [BitVec.ofNat 32 (2 * 2 ^ 24), 1#32, 0#32] }, ⟨[],
    ((rs.put (F.X_STAT_STATE 1) linkUP).on (F.X_CTL_SHIFT_EN 1)).put (F.X_STAT_RATE_ACT 1) 2⟩, by decide⟩, ⟨1,
    { hdr := pHdr tRINGCTL 0, pay := wordsPay [BitVec.ofNat 32 (2 * 2 ^ 24), 1#32, 0#32] }, ⟨[], (rs.put
    (F.X_STAT_STATE 1) linkUP).off (F.X_CTL_SHIFT_EN 1)⟩, by decide⟩, ⟨1,
    { hdr := pHdr tRINGCTL 0, pay := wordsPay [BitVec.ofNat 32 (3 * 2 ^ 24), 1#32, 0#32] }, 1, 7, ⟨[],
    { (((rs.put (F.X_STAT_STATE 1) linkUP).put F.GLB_SELF_NODE 3).put F.RNG_STAT_MASTER 9).modLink 1 fun k => { k with proposed := some 1 } with ring := { map := some [⟨3, true, false⟩, ⟨7, true, false⟩] } }⟩,
    by decide⟩, ⟨1, { hdr := pHdr tRINGCTL 0, pay := wordsPay [BitVec.ofNat 32 (4 * 2 ^ 24), 1#32, 0#32] }, ⟨[],
    rs.put (F.X_STAT_STATE 1) linkUP |>.modLink 1 fun k => { k with proposed := some 1 }⟩, by decide⟩,
    ⟨{ hdr := pHdr tRINGCTL 0, pay := wordsPay [BitVec.ofNat 32 (28 * 2 ^ 24), 1#32, 0#32] }, 1, ⟨[], rs.modLink 0
    fun k => { k with proposed := some 1 }⟩, by decide⟩,
    ⟨{ hdr := pHdr tRINGCTL 0, pay := wordsPay [BitVec.ofNat 32 (28 * 2 ^ 24), 0#32, 0#32] }, 1, ⟨[], (rs.put
    (F.X_STAT_RATE_ACT 0) 0).modLink 0 fun k => { k with proposed := some 1 }⟩, by decide⟩, ⟨1, 1, ⟨[], ((rs.put
    (F.X_STAT_STATE 1) linkUP).on F.RNG_STAT_WRAPW).modLink 1 fun k => { k with agreed := some 1 }⟩, by decide⟩, ⟨1,
    1, ⟨[],
    { ((rs.put (F.X_STAT_STATE 1) linkUP).on F.RNG_STAT_WRAPW).modLink 1 fun k => { k with agreed := some 1 } with sw := { q := (Vector.replicate 56 []).set 9 [{ hdr := pHdr tEVENT 4, len := 1, tiles := [], ing := 5 }] } }⟩,
    by decide⟩, ⟨1, 0, ⟨[], (rs.put (F.X_STAT_STATE 1) lkSHIFT).modLink 1 fun k => { k with from_ := some 0 }⟩, by
    decide⟩, ⟨{ hdr := pHdr tRINGCTL 0, pay := wordsPay [BitVec.ofNat 32 (27 * 2 ^ 24), 1#32, 0#32] }, ⟨[], rs.put
    F.RNG_STAT_JOIN 6⟩, by decide⟩,
    ⟨{ hdr := { pHdr tRINGCTL 9 with snode := 3 }, pay := wordsPay [0x1B000000#32, 0x07000000#32, 1000#32] },
    (rs.timeIn 15000), ⟨[],
    { (rs.put F.RNG_STAT_JOIN 6).put (F.X_SHIFT_UP 0) 80 |>.put F.RNG_PLAN_LEAD 15000 with ring := { map := some [⟨3, true, false⟩, ⟨7, true, false⟩] } }⟩,
    by decide⟩⟩

theorem witness_ring_joining :
    (∃ (s : State), (s.hub.takesPart) ∧ (s.hub.master ≠ 0) ∧ (s.hub.fld F.RNG_STAT_JOIN ≠ jnJOINED) ∧ (s.hub.fld
      F.RNG_STAT_JOIN ≠ jnMASTER) ∧ (s.hub.fld F.RNG_STAT_JOIN ≠ jnREFUSED) ∧ (s.hub.ring.joinAt.all (fun t =>
      decide (t + us 1000 ≤ s.hub.now)))) ∧ (∃ (s : State), (s.hub.takesPart = false ∨ s.hub.master = 0 ∨
      s.hub.ring.joinAt.any (fun t => decide (s.hub.now < t + us 1000)))) ∧ (∃ (f : Frame) (id : Nat) (s : State),
      (f.isRing 0x10) ∧ (s.hub.isMaster) ∧ (s.hub.joinGrant f.uid (f.word 3) = .inr id)) ∧ (∃ (f : Frame) (why :
      Nat) (s : State), (f.isRing 0x10) ∧ (s.hub.isMaster) ∧ (s.hub.joinGrant f.uid (f.word 3) = .inl why)) ∧ (∃ (f
      : Frame) (s : State), (s.hub.isMaster = false)) ∧ (∃ (f : Frame) (s : State), (f.isRing 0x11) ∧ (f.uid =
      s.hub.fuse.uid) ∧ (s.hub.isMaster = false)) ∧ (∃ (f : Frame) (s : State), (f.isRing 0x11) ∧ (f.uid ≠
      s.hub.fuse.uid)) ∧ (∃ (f : Frame) (s : State), (f.isRing 0x12) ∧ (f.uid = s.hub.fuse.uid)) ∧ (∃ (f : Frame) (s
      : State), (f.isRing 0x06) ∧ (s.hub.member ≠ 0)) ∧ (∃ (f : Frame) (s : State), (s.hub.member = 0)) :=
  ⟨⟨⟨[], ((rs.on F.RNG_CTL_EN).put (F.X_STAT_STATE 0) linkUP).put F.RNG_STAT_MASTER 9⟩, by decide⟩, ⟨⟨[], rs⟩, by
    decide⟩,
    ⟨{ hdr := { pHdr tRINGCTL 9 with snode := 0 }, pay := wordsPay [0x10000000#32, 77#32, 1#32, 0x05000000#32] }, 5,
    ⟨[], ((rs.put F.RNG_STAT_JOIN 6).put F.GLB_SELF_NODE 9).put F.RNG_STAT_MASTER 9⟩, by decide⟩,
    ⟨{ hdr := pHdr tRINGCTL 255, pay := wordsPay [0x10000000#32, 77#32, 1#32, 0x05800000#32] }, 2, ⟨[],
    { (rs.put F.RNG_STAT_JOIN 6).put F.GLB_SELF_NODE 9 with ring := { ids := [(5, 3)] } }⟩, by decide⟩,
    ⟨{ hdr := pHdr tRINGCTL 255, pay := wordsPay [0x10000000#32, 77#32, 1#32, 0x05800000#32] }, ⟨[], rs⟩, by
    decide⟩, ⟨{ hdr := pHdr tRINGCTL 255, pay := wordsPay [0x11000000#32, 0#32, 0#32, 0x05000007#32] }, ⟨[], ((rs.on
    F.RNG_CTL_EN).put (F.X_STAT_STATE 0) linkUP)⟩, by decide⟩,
    ⟨{ hdr := pHdr tRINGCTL 255, pay := wordsPay [0x11000000#32, 4#32, 0#32, 0x05000007#32] }, ⟨[],
    { rs with ring := { bc := [{ node := 5, mem := 0, hi := 3 }] } }⟩, by decide⟩,
    ⟨{ hdr := pHdr tRINGCTL 255, pay := wordsPay [0x12000000#32, 0#32, 0#32, 2#32] }, ⟨[],
    { rs.put F.GLB_SELF_NODE 4 with ring := { oldId := 4 } }⟩, by decide⟩,
    ⟨{ hdr := pHdr tRINGCTL 0, pay := wordsPay [0x06000000#32, 0x09000003#32] }, ⟨[], rs.put F.GLB_STRAP_MEMBER 2⟩,
    by decide⟩, ⟨{ hdr := pHdr tRINGCTL 0, pay := wordsPay [0x06000000#32, 0x09000003#32] }, ⟨[], rs⟩, by decide⟩⟩

theorem witness_ring_election :
    (∃ (s : State), (s.hub.takesPart) ∧ (s.hub.fld F.RNG_ELECT_PRIO ≠ 0) ∧ (s.hub.master = 0) ∧ (s.hub.ring.electing
      = false) ∧ (s.hub.ring.quietAt + us (max 1 (s.hub.fld F.RNG_ELECT_WAIT) * 1000) ≤ s.hub.now)) ∧ (∃ (s :
      State), (s.hub.fld F.RNG_ELECT_PRIO = 0 ∨ s.hub.master ≠ 0 ∨ (s.hub.ring.electing ∧ s.hub.now <
      s.hub.ring.electAt + us 1000))) ∧ (∃ (s : State), (s.hub.takesPart) ∧ (s.hub.fld F.RNG_ELECT_PRIO ≠ 0) ∧
      (s.hub.master = 0) ∧ (s.hub.ring.electing) ∧ (s.hub.ring.electAt + us 1000 ≤ s.hub.now)) ∧ (∃ (f : Frame) (s :
      State), (f.isRing 0x13) ∧ (better ((f.word 3).bits 7 0) f.uid (s.hub.fld F.RNG_ELECT_PRIO) s.hub.fuse.uid) ∧
      (s.hub.isMaster = false) ∧ (s.hub.ring.electing)) ∧ (∃ (f : Frame) (s : State), (f.isRing 0x13) ∧ (better
      ((f.word 3).bits 7 0) f.uid (s.hub.fld F.RNG_ELECT_PRIO) s.hub.fuse.uid) ∧ (s.hub.isMaster) ∧ (s.hub.master ≠
      0)) ∧ (∃ (f : Frame) (s : State), (f.isRing 0x13) ∧ ((better ((f.word 3).bits 7 0) f.uid (s.hub.fld
      F.RNG_ELECT_PRIO) s.hub.fuse.uid) = false)) ∧ (∃ (s : State), (s.hub.ring.electing) ∧ (s.hub.ring.claimAt + us
      3000 ≤ s.hub.now)) ∧ (∃ (s : State), (s.hub.ring.electing = false ∨ s.hub.now < s.hub.ring.claimAt + us 3000))
      ∧ (∃ (s : State), (s.hub.isMaster) ∧ (s.hub.ring.hbAt + us 1000 ≤ s.hub.now)) ∧ (∃ (s : State),
      (s.hub.isMaster = false ∨ s.hub.now < s.hub.ring.hbAt + us 1000)) ∧ (∃ (f : Frame) (s : State), (f.isRing
      0x14) ∧ (s.hub.isMaster = false) ∧ (s.hub.master = 0)) ∧ (∃ (f : Frame) (s : State), (f.isRing 0x14) ∧
      (s.hub.isMaster) ∧ (better ((f.word 3).bits 7 0) f.uid (s.hub.fld F.RNG_ELECT_PRIO) s.hub.fuse.uid)) ∧ (∃ (s :
      State), (s.hub.isMaster = false) ∧ (s.hub.master ≠ 0) ∧ (s.hub.ring.hbAt + us 3000 ≤ s.hub.now)) ∧ (∃ (s :
      State), (s.hub.isMaster = true ∨ s.hub.master = 0 ∨ s.hub.now < s.hub.ring.hbAt + us 3000)) :=
  ⟨⟨⟨[], (((rs.on F.RNG_CTL_EN).put (F.X_STAT_STATE 0) linkUP).put F.RNG_ELECT_PRIO 3).atNow 40000000⟩, by decide⟩,
    ⟨⟨[], { rs with ring := { electing := true } }⟩, by decide⟩, ⟨⟨[],
    { (((rs.on F.RNG_CTL_EN).put (F.X_STAT_STATE 0) linkUP).put F.RNG_ELECT_PRIO 3).atNow 400000 with ring := { electing := true } }⟩,
    by decide⟩, ⟨{ hdr := pHdr tRINGCTL 255, pay := wordsPay [0x13000000#32, 9#32, 0#32, 200#32] }, ⟨[],
    { rs.put F.RNG_ELECT_PRIO 3 with ring := { electing := true } }⟩, by decide⟩,
    ⟨{ hdr := pHdr tRINGCTL 255, pay := wordsPay [0x13000000#32, 9#32, 0#32, 200#32] }, ⟨[], ((rs.put
    F.RNG_ELECT_PRIO 3).put F.RNG_STAT_JOIN 6).put F.RNG_STAT_MASTER 9⟩, by decide⟩,
    ⟨{ hdr := pHdr tRINGCTL 255, pay := wordsPay [0x13000000#32, 9#32, 0#32, 200#32] }, ⟨[], (rs.put
    F.RNG_ELECT_PRIO 250)⟩, by decide⟩, ⟨⟨[],
    { (rs.put F.RNG_JOINCFG_REQID 12).atNow 1200000 with ring := { electing := true } }⟩, by decide⟩, ⟨⟨[],
    { rs with ring := { electing := true } }⟩, by decide⟩, ⟨⟨[], (rs.put F.RNG_STAT_JOIN 6).atNow 400000⟩, by
    decide⟩, ⟨⟨[], rs⟩, by decide⟩,
    ⟨{ hdr := { pHdr tRINGCTL 255 with snode := 9 }, pay := wordsPay [0x14000000#32, 9#32, 0#32, 200#32] }, ⟨[],
    rs⟩, by decide⟩,
    ⟨{ hdr := { pHdr tRINGCTL 255 with snode := 9 }, pay := wordsPay [0x14000000#32, 9#32, 0#32, 200#32] }, ⟨[],
    ((rs.put F.RNG_ELECT_PRIO 3).put F.RNG_STAT_JOIN 6).put F.RNG_STAT_MASTER 9⟩, by decide⟩, ⟨⟨[], (rs.put
    F.RNG_STAT_MASTER 9).atNow 1200000⟩, by decide⟩, ⟨⟨[], rs.put F.RNG_STAT_MASTER 9⟩, by decide⟩⟩

theorem witness_ring_topology_and_wraps :
    (∃ (s : State), (s.hub.isMaster) ∧ (s.hub.ring.sweepAt + us (max 1 (s.hub.fld F.RNG_TIMING_TOPO) * 1000) ≤
      s.hub.now)) ∧ (∃ (s : State), (s.hub.isMaster = false ∨ s.hub.now < s.hub.ring.sweepAt + us (max 1 (s.hub.fld
      F.RNG_TIMING_TOPO) * 1000))) ∧ (∃ (p : Fin 2) (f : Frame) (s : State), (f.isRing 0x15) ∧ (f.hdr.snode.toNat ≠
      s.hub.node) ∧ (f.hdr.w = false)) ∧ (∃ (p : Fin 2) (f : Frame) (s : State), (f.isRing 0x15) ∧
      (f.hdr.snode.toNat = s.hub.node) ∧ (s.hub.node ≠ 0) ∧ (s.hub.isMaster) ∧ ((f.word 0).bits 15 0 = s.hub.fld
      F.RNG_EPOCH_EPOCH) ∧ (f.hdr.d = false) ∧ (s.hub.ring.topoW = none)) ∧ (∃ (f : Frame) (s : State), (f.isRing
      0x16) ∧ (s.hub.isMaster = false)) ∧ (∃ (f : Frame) (a b : BitVec 8) (s : State), (f.isRing 0x17) ∧
      (s.hub.isMaster) ∧ (s.hub.linkOf f.hdr.snode.toNat ((f.word 1).bit 0) = some (a, b))) ∧ (∃ (f : Frame) (a b :
      BitVec 8) (s : State), (f.isRing 0x18) ∧ (s.hub.isMaster) ∧ (s.hub.linkOf f.hdr.snode.toNat ((f.word 1).bit 0)
      = some (a, b)) ∧ (s.hub.ring.shiftFar ≠ some (a, b)) ∧ (s.hub.ring.linkUp.all (fun x => (x.1, x.2.1) != (a,
      b)))) ∧ (∃ (f : Frame) (a b : BitVec 8) (s : State), (f.isRing 0x18) ∧ (s.hub.isMaster) ∧ (s.hub.linkOf
      f.hdr.snode.toNat ((f.word 1).bit 0) = some (a, b)) ∧ (s.hub.ring.shiftFar = some (a, b))) ∧ (∃ (a b : BitVec
      8) (s : State), (s.hub.isMaster) ∧ (s.hub.heldUp a b)) ∧ (∃ (a b : BitVec 8) (s : State), (s.hub.heldUp a b =
      false)) ∧ (∃ (f : Frame) (s : State), (f.isRing 0x19) ∧ (s.hub.ring.plans.contains ⟨false, (f.word
      1).extractLsb' 24 8, (f.word 1).extractLsb' 16 8, f.hdr.adr⟩ = false)) ∧ (∃ (f : Frame) (s : State), (f.isRing
      0x1A) ∧ (s.hub.ring.plans.contains ⟨true, (f.word 1).extractLsb' 24 8, (f.word 1).extractLsb' 16 8, f.hdr.adr⟩
      = false)) ∧ (∃ (q : Plan) (s : State), (s.hub.ring.plans = [q]) ∧ (q.wrap = false) ∧ (s.hub.timeCome q.at_) ∧
      (s.hub.portOn q.a q.b = some 0) ∧ (s.hub.linkIsUp 0) ∧ (s.hub.isMaster = false)) ∧ (∃ (s : State),
      (s.hub.ring.plans.all fun q => !s.hub.timeCome q.at_)) ∧ (∃ (q : Plan) (s : State), (s.hub.ring.plans = [q]) ∧
      (q.wrap) ∧ (s.hub.timeCome q.at_) ∧ (s.hub.portOn q.a q.b = some 1) ∧ (s.hub.bit F.RNG_STAT_WRAPW = false) ∧
      ((s.hub.link[1]).agreed = none)) ∧ (∃ (q : Plan) (s : State), (s.hub.ring.plans = [q]) ∧ (q.wrap) ∧
      (s.hub.timeCome q.at_) ∧ (s.hub.portOn q.a q.b = some 1) ∧ (s.hub.bit F.RNG_STAT_WRAPW = false) ∧
      ((s.hub.link[1]).agreed.isSome)) ∧ (∃ (f : Frame) (s : State), (f.isRing 0x1D) ∧ (f.hdr.snode.toNat =
      s.hub.master) ∧ (s.hub.master ≠ 0)) ∧ (∃ (f : Frame) (s : State), (f.isRing 0x1D) ∧ (f.hdr.snode.toNat ≠
      s.hub.master)) ∧ (∃ (z : BitVec 64) (s : State), (s.hub.ring.ringReset = some z) ∧ (s.hub.timeCome z)) ∧ (∃ (s
      : State), (s.hub.ring.ringReset = none)) ∧ (∃ (p : Fin 4) (bs : List Byte) (rx : RxEnd) (ecl : Bool) (s :
      State), (bs.length < 32) ∧ ((headerOf bs).typ ≠ tBEACON) ∧ (rx.mm = false)) ∧ (∃ (p : Fin 4) (bs : List Byte)
      (rx : RxEnd) (ecl : Bool) (s : State), (32 ≤ bs.length) ∧ (bs.length ≤ 9240) ∧ (hcrcGood bs = false) ∧
      ((headerOf bs).typ ≠ tBEACON) ∧ (rx.mm = false)) ∧ (∃ (p : Fin 4) (bs : List Byte) (s : State), (32 ≤
      bs.length) ∧ (bs.length ≤ 9240) ∧ (hcrcGood bs) ∧ (fcsGood bs) ∧ (headerBad (frameOfWire bs).hdr = false) ∧
      (p.val < 2) ∧ (s.hub.member = 0) ∧ (((((s.hub.count (F.X_FECCORR p) 0).count (F.X_FECUNC p) 0).putLpi p
      (s.hub.link[p]).lpiTx false).rxCount p bs.length true).linkIsUp p) ∧ ((frameOfWire bs).hdr.typ = tEVENT) ∧
      ((frameOfWire bs).hdr.dnode ≠ 0) ∧ ((frameOfWire bs).hdr.dnode ≠ 255) ∧ ((frameOfWire bs).hdr.dnode.toNat ≠
      ((((s.hub.count (F.X_FECCORR p) 0).count (F.X_FECUNC p) 0).putLpi p (s.hub.link[p]).lpiTx false).rxCount p
      bs.length true).node) ∧ ((frameOfWire bs).hdr.snode.toNat ≠ ((((s.hub.count (F.X_FECCORR p) 0).count
      (F.X_FECUNC p) 0).putLpi p (s.hub.link[p]).lpiTx false).rxCount p bs.length true).node)) :=
  ⟨⟨⟨[], (rs.put F.RNG_STAT_JOIN 6).atNow 40000000⟩, by decide⟩, ⟨⟨[], rs⟩, by decide⟩, ⟨1,
    { hdr := { pHdr tRINGCTL 9 with snode := 9 }, pay := wordsPay [0x15000000#32] ++ [3, 0x30] ++ List.replicate 506 0 },
    ⟨[], rs.put F.GLB_SELF_NODE 4⟩, by decide⟩, ⟨1,
    { hdr := { pHdr tRINGCTL 9 with snode := 9 }, pay := wordsPay [0x15000000#32] ++ [3, 0x30] ++ List.replicate 506 0 },
    ⟨[], (rs.put F.GLB_SELF_NODE 9).put F.RNG_STAT_JOIN 6⟩, by decide⟩,
    ⟨{ hdr := pHdr tRINGCTL 255, pay := wordsPay [0x16000005#32, 2#32] ++ [3, 9, 2, 3] }, ⟨[], rs⟩, by decide⟩,
    ⟨{ hdr := { pHdr tRINGCTL 9 with snode := 3 }, pay := wordsPay [0x17000000#32, 0x100#32] }, 3, 7, ⟨[],
    { rs.put F.RNG_STAT_JOIN 6 with ring := { map := some [⟨3, true, false⟩, ⟨7, true, false⟩], linkUp := [(3, 7, 0)] } }⟩,
    by decide⟩, ⟨{ hdr := { pHdr tRINGCTL 9 with snode := 3 }, pay := wordsPay [0x18000000#32, 0#32] }, 3, 7, ⟨[],
    { rs.put F.RNG_STAT_JOIN 6 with ring := { map := some [⟨3, true, false⟩, ⟨7, true, false⟩] } }⟩, by decide⟩,
    ⟨{ hdr := { pHdr tRINGCTL 9 with snode := 3 }, pay := wordsPay [0x18000000#32, 0#32] }, 3, 7, ⟨[],
    { rs.put F.RNG_STAT_JOIN 6 with ring := { map := some [⟨3, true, false⟩, ⟨7, true, false⟩], shiftFar := some (3, 7) } }⟩,
    by decide⟩, ⟨3, 7, ⟨[], { (rs.put F.RNG_STAT_JOIN 6).atNow 4000000000 with ring := { linkUp := [(3, 7, 0)] } }⟩,
    by decide⟩, ⟨3, 7, ⟨[], rs⟩, by decide⟩,
    ⟨{ hdr := { pHdr tRINGCTL 9 with snode := 3 }, pay := wordsPay [0x19000000#32, 0x03070000#32] }, ⟨[], rs⟩, by
    decide⟩, ⟨{ hdr := { pHdr tRINGCTL 9 with snode := 3 }, pay := wordsPay [0x1A000000#32, 0x03070000#32] }, ⟨[],
    rs⟩, by decide⟩, ⟨⟨false, 3, 7, 0⟩, ⟨[],
    { (((rs.on F.RNG_CTL_EN).put (F.X_STAT_STATE 0) linkUP).put F.GLB_SELF_NODE 3).on F.RNG_STAT_WRAPE with ring := { map := some [⟨3, true, false⟩, ⟨7, true, false⟩], plans := [⟨false, 3, 7, 0⟩] } }⟩,
    by decide⟩, ⟨⟨[], { rs with ring := { plans := [⟨false, 3, 7, 0x40000000⟩] } }⟩, by decide⟩, ⟨⟨true, 3, 7, 0⟩,
    ⟨[],
    { (((rs.on F.RNG_CTL_EN).put (F.X_STAT_STATE 0) linkUP).put F.GLB_SELF_NODE 7) with ring := { map := some [⟨3, true, false⟩, ⟨7, true, false⟩], plans := [⟨true, 3, 7, 0⟩] } }⟩,
    by decide⟩, ⟨⟨true, 3, 7, 0⟩, ⟨[],
    { (((rs.on F.RNG_CTL_EN).put (F.X_STAT_STATE 0) linkUP).put F.GLB_SELF_NODE 7) with ring := { map := some [⟨3, true, false⟩, ⟨7, true, false⟩], plans := [⟨true, 3, 7, 0⟩] } }
    |>.modLink 1 fun k => { k with agreed := some 1 }⟩, by decide⟩,
    ⟨{ hdr := { pHdr tRINGCTL 255 with snode := 9, adr := 5 }, pay := wordsPay [0x1D000000#32] }, ⟨[], rs.put
    F.RNG_STAT_MASTER 9⟩, by decide⟩,
    ⟨{ hdr := { pHdr tRINGCTL 255 with snode := 8, adr := 5 }, pay := wordsPay [0x1D000000#32] }, ⟨[], rs.put
    F.RNG_STAT_MASTER 9⟩, by decide⟩, ⟨0, ⟨[], { rs with ring := { ringReset := some 0 } }⟩, by decide⟩, ⟨⟨[], rs⟩,
    by decide⟩, ⟨1, [1, 2], {}, false, ⟨[], rs⟩, by decide⟩, ⟨1, List.replicate 40 3, {}, false, ⟨[], rs⟩, by
    decide +kernel⟩, ⟨1, Frame.wire
    { hdr := { pHdr tEVENT 5 with snode := 7, hops := 9 }, pay := wordsPay [1#32, 2#32, 3#32] }, ⟨[], ((rs.on
    F.RNG_CTL_EN).put (F.X_STAT_STATE 1) linkUP).put F.GLB_SELF_NODE 4⟩, by decide +kernel⟩⟩

theorem witness_drone_cycle :
    (∃ (a : Access) (s : State), (s.hub.lets a 0x85000) ∧ (s.hub.bit F.DRN_CTL_EN = false) ∧ (s.hub.drnFit)) ∧ (∃ (a
      : Access) (s : State), (s.hub.lets a 0x85000) ∧ (s.hub.bit F.DRN_CTL_EN = false) ∧ (s.hub.drnFit = false)) ∧
      (∃ (k : Nat) (s : State), (s.hub.bit F.DRN_CTL_EN) ∧ (s.hub.cycleNow = some k) ∧ (s.hub.drn.cyc.all fun c =>
      c.no != k) ∧ (s.hub.member = 0) ∧ (s.hub.shadowUnit = false)) ∧ (∃ (s : State), (s.hub.bit F.DRN_CTL_EN =
      false) ∧ (s.hub.bit F.DRN_COMMIT_GO = false)) ∧ (∃ (s : State), (s.hub.pim.freezing) ∧ (s.hub.pim.endAt ≤
      s.hub.now)) ∧ (∃ (s : State), (s.hub.pim.freezing = false ∨ s.hub.now < s.hub.pim.endAt)) ∧ (∃ (c : Cycle) (n
      : Nat) (s : State), (s.hub.drn.cyc = [c]) ∧ (c.sent = false) ∧ (s.hub.bit F.DRN_CTL_EN) ∧ (s.hub.isMaster) ∧
      (∀ i : Fin 64, s.hub.bit (F.DRN_FRM_V i) = decide (i.val = n)) ∧ (n < 64) ∧ (s.hub.bit (F.DRN_FRM_INSV n) =
      false) ∧ (s.hub.fld F.DRN_TIMES_LEAD ≤ s.hub.since c)) ∧ (∃ (c : Cycle) (s : State), (s.hub.drn.cyc.head? =
      some c) ∧ (c.sent = true ∨ s.hub.since c < s.hub.fld F.DRN_TIMES_LEAD)) ∧ (∃ (s : State), (s.hub.isMaster =
      false)) ∧ (∃ (p : Fin 2) (f : Frame) (c : Cycle) (s : State), (f.hdr.typ = tDRONE) ∧ ((s.hub.drn.cyc.find? fun
      x => x.at_ == f.hdr.adr) = some c) ∧ (s.hub.isMaster) ∧ (c.closed = false)) ∧ (∃ (p : Fin 2) (f : Frame) (s :
      State), (f.hdr.typ = tDRONE) ∧ ((s.hub.drn.cyc.find? fun x => x.at_ == f.hdr.adr).isNone) ∧ (s.hub.isMaster) ∧
      (s.hub.bit F.DRN_CTL_EN)) ∧ (∃ (p : Fin 2) (f : Frame) (c : Cycle) (s : State), (f.hdr.typ = tDRONE) ∧
      ((s.hub.drn.cyc.find? fun x => x.at_ == f.hdr.adr) = some c) ∧ (s.hub.isMaster = false) ∧ (c.regen.getLsbD (64
      * b2n f.hdr.d + (f.hdr.tag.extractLsb' 0 6).toNat) = false) ∧ (s.hub.bit (F.DRN_FRM_INSV
      (f.hdr.tag.extractLsb' 0 6).toNat) = false) ∧ (s.hub.since c < 2 ^ 24)) ∧ (∃ (d : Fin 2) (n : Fin 64) (c :
      Cycle) (s : State), (s.hub.missing d n (fun c => s.hub.regenDue c d n) = some c)) ∧ (∃ (d : Fin 2) (n : Fin
      64) (s : State), (s.hub.fld (expFld d n) = 0)) ∧ (∃ (d : Fin 2) (n : Fin 64) (c : Cycle) (s : State),
      (s.hub.missing d n (fun _ => s.hub.fld (expFld d n) + s.hub.margin / 2) = some c) ∧ (c.lateOut.getLsbD (64 *
      d.val + n.val) = false)) ∧ (∃ (f : Frame) (s : State), (f.isRing 0x05)) ∧ (∃ (c : Cycle) (s : State),
      (s.hub.isMaster) ∧ (s.hub.oldestCyc (fun c => !c.closed && decide (s.hub.fld F.DRN_CLOSE_CLOSE ≤ s.hub.since
      c)) = some c)) ∧ (∃ (s : State), (s.hub.isMaster = false ∨ s.hub.oldestCyc (fun c => !c.closed && decide
      (s.hub.fld F.DRN_CLOSE_CLOSE ≤ s.hub.since c)) = none)) ∧ (∃ (c : Cycle) (s : State), (s.hub.member = 0) ∧
      (s.hub.oldestCyc (fun c => !c.applied && decide (s.hub.fld F.DRN_APPLY_APPLY ≤ s.hub.since c)) = some c)) ∧ (∃
      (s : State), (s.hub.member ≠ 0 ∨ s.hub.oldestCyc (fun c => !c.applied && decide (s.hub.fld F.DRN_APPLY_APPLY ≤
      s.hub.since c)) = none)) ∧ (∃ (c : Cycle) (s : State), (s.hub.member ≠ 0) ∧ (s.hub.oldestCyc (fun c =>
      !c.applied) = some c)) :=
  ⟨⟨stew, ⟨[], ((((rs.put F.DRN_PER_PER 400).put F.RFXC_LIVE_SIZE 1).put (F.RFXC_BANK_BASE 0) 1).put
    (F.RFXC_BANK_BASE 1) 2).put (F.TILE_PART_SIZE 0) 8⟩, by decide⟩, ⟨stew, ⟨[], rs.put F.DRN_PER_PER 4⟩, by
    decide⟩, ⟨0, ⟨[], ((rs.on F.DRN_CTL_EN).put F.DRN_PER_PER 400)⟩, by decide⟩, ⟨⟨[], rs⟩, by decide⟩, ⟨⟨[],
    { rs with pim := { freezing := true, no := 3 } }⟩, by decide⟩, ⟨⟨[],
    { rs with pim := { freezing := true, endAt := 5 } }⟩, by decide⟩, ⟨{ no := 5, at_ := 77 }, 3, ⟨[],
    { (((rs.on F.DRN_CTL_EN).put F.RNG_STAT_JOIN 6).put F.RNG_STAT_MASTER 9).on (F.DRN_FRM_V 3) |>.put (F.DRN_FRM_LEN 3) 20 with drn := { cyc := [{ no := 5, at_ := 77 }] } , gno := { t := { ns := 9000000 } } }⟩,
    by decide⟩, ⟨{ no := 5, at_ := 77 }, ⟨[],
    { (((rs.on F.DRN_CTL_EN).put F.RNG_STAT_JOIN 6).put F.RNG_STAT_MASTER 9).on (F.DRN_FRM_V 3) |>.put (F.DRN_FRM_LEN 3) 20 with drn := { cyc := [{ no := 5, at_ := 77 }] } }⟩,
    by decide⟩, ⟨⟨[], { rs with drn := { cyc := [{ no := 5, at_ := 77 }] } }⟩, by decide⟩, ⟨1,
    { hdr := { pHdr tDRONE 9 with adr := 77, hops := 33, tag := 3, d := false, len := 20 }, pay := [8] ++ List.replicate 19 0 },
    { no := 5, at_ := 77 }, ⟨[],
    { (((rs.on F.DRN_CTL_EN).put F.RNG_STAT_JOIN 6).put F.RNG_STAT_MASTER 9).on (F.DRN_FRM_V 3) |>.put (F.DRN_FRM_LEN 3) 20 with drn := { cyc := [{ no := 5, at_ := 77 }] } }⟩,
    by decide⟩, ⟨1,
    { hdr := { pHdr tDRONE 9 with adr := 77, hops := 33, tag := 3, d := false, len := 20 }, pay := [8] ++ List.replicate 19 0 },
    ⟨[], (((rs.on F.DRN_CTL_EN).put F.RNG_STAT_JOIN 6).put F.RNG_STAT_MASTER 9).on (F.DRN_FRM_V 3) |>.put
    (F.DRN_FRM_LEN 3) 20⟩, by decide⟩, ⟨1,
    { hdr := { pHdr tDRONE 9 with adr := 77, hops := 33, tag := 3, d := false, len := 20 }, pay := [8] ++ List.replicate 19 0 },
    { no := 5, at_ := 77 }, ⟨[],
    { ((rs.on F.DRN_CTL_EN).put F.DRN_PER_PER 400) with drn := { cyc := [{ no := 5, at_ := 77 }] } }⟩, by decide⟩,
    ⟨0, 3, { no := 5, at_ := 0 }, ⟨[],
    { (((rs.on F.DRN_CTL_EN).put F.DRN_PER_PER 400).put (F.DRN_EXP_A_EXP 3) 5) with drn := { cyc := [{ no := 5, at_ := 0 }] } , gno := { t := { sec := 0, ns := 900000 } } }⟩,
    by decide⟩, ⟨0, 3, ⟨[], rs⟩, by decide⟩, ⟨0, 3, { no := 5, at_ := 0 }, ⟨[],
    { (((rs.on F.DRN_CTL_EN).put F.DRN_PER_PER 400).put (F.DRN_EXP_A_EXP 3) 5) with drn := { cyc := [{ no := 5, at_ := 0 }] } , gno := { t := { sec := 0, ns := 900000 } } }⟩,
    by decide⟩, ⟨{ hdr := pHdr tRINGCTL 0, pay := wordsPay [0x05000000#32, 0x00058003#32] }, ⟨[],
    { rs with drn := { cyc := [{ no := 5, at_ := 0 }] } }⟩, by decide⟩, ⟨{ no := 5, at_ := 0 }, ⟨[],
    { (((rs.on F.DRN_CTL_EN).put F.RNG_STAT_JOIN 6).put F.RNG_STAT_MASTER 9).on (F.DRN_FRM_V 3) |>.put (F.DRN_FRM_LEN 3) 20 with drn := { cyc := [{ no := 5, at_ := 0 }] } , gno := { t := { ns := 9000000 } } }⟩,
    by decide⟩, ⟨⟨[], rs⟩, by decide⟩, ⟨{ no := 5, at_ := 0 }, ⟨[],
    { (rs.on (F.DRN_SLT_W0_V 2)) with drn := { cyc := [{ no := 5, at_ := 0 }] } , gno := { t := { ns := 9000000 } } }⟩,
    by decide⟩, ⟨⟨[], rs.put F.GLB_STRAP_MEMBER 2⟩, by decide⟩, ⟨{ no := 5, at_ := 0 }, ⟨[],
    { (rs.put F.GLB_STRAP_MEMBER 2) with drn := { cyc := [{ no := 5, at_ := 0 }] } }⟩, by decide⟩⟩

theorem witness_core_instructions :
    (∃ (n : Fin 8) (w : W32) (o : RvAlu) (rd rs1 : Fin 32) (imm : W32) (s : State), (s.hub.coreIs n w) ∧ (rvDecode32
      w = some (.opImm o rd rs1 imm))) ∧ (∃ (n : Fin 8) (w : W32) (o : RvAlu) (rd ra rb : Fin 32) (s : State),
      (s.hub.coreIs n w) ∧ (rvDecode32 w = some (.op o rd ra rb))) ∧ (∃ (n : Fin 8) (w : W32) (o : RvMul) (rd ra rb
      : Fin 32) (s : State), (s.hub.coreIs n w) ∧ (rvDecode32 w = some (.mul o rd ra rb))) ∧ (∃ (n : Fin 8) (w :
      W32) (k : RvCond) (ra rb : Fin 32) (imm : W32) (s : State), (s.hub.coreIs n w) ∧ (rvDecode32 w = some (.branch
      k ra rb imm))) ∧ (∃ (n : Fin 8) (w : W32) (rd : Fin 32) (imm : W32) (s : State), (s.hub.coreIs n w) ∧
      (rvDecode32 w = some (.lui rd imm))) ∧ (∃ (n : Fin 8) (w : W32) (rd : Fin 32) (imm : W32) (s : State),
      (s.hub.coreIs n w) ∧ (rvDecode32 w = some (.auipc rd imm))) ∧ (∃ (n : Fin 8) (w : W32) (rd : Fin 32) (imm :
      W32) (s : State), (s.hub.coreIs n w) ∧ (rvDecode32 w = some (.jal rd imm))) ∧ (∃ (n : Fin 8) (w : W32) (rd ra
      : Fin 32) (imm : W32) (s : State), (s.hub.coreIs n w) ∧ (rvDecode32 w = some (.jalr rd ra imm))) ∧ (∃ (n : Fin
      8) (w : W32) (s : State), (s.hub.coreIs n w) ∧ (rvDecode32 w = some .fence)) ∧ (∃ (n : Fin 8) (w : W32) (s :
      State), (s.hub.coreIs n w) ∧ (rvDecode32 w = some .mret) ∧ ((s.hub.core[n]).user = false)) ∧ (∃ (n : Fin 8) (w
      : W32) (rd ra : Fin 32) (imm : W32) (s : State), (s.hub.coreIs n w) ∧ (rvDecode32 w = some (.load 4 false rd
      ra imm)) ∧ (((s.hub.core[n]).rx ra + imm).toNat % 4 = 0) ∧ ((s.hub.core[n]).pmpOk (s.hub.core[n]).dataUser
      ((s.hub.core[n]).rx ra + imm).toNat 4 0) ∧ (0x10000000 ≤ ((s.hub.core[n]).rx ra + imm).toNat) ∧
      (((s.hub.core[n]).rx ra + imm).toNat < 0x10010000) ∧ ((s.hub.core[n]).decc.get 0 (((s.hub.core[n]).rx ra +
      imm).toNat % 0x10000 / 4) = 0)) ∧ (∃ (n : Fin 8) (w : W32) (ra rb : Fin 32) (imm : W32) (s : State),
      (s.hub.coreIs n w) ∧ (rvDecode32 w = some (.store 4 ra rb imm)) ∧ (((s.hub.core[n]).rx ra + imm).toNat % 4 =
      0) ∧ ((s.hub.core[n]).pmpOk (s.hub.core[n]).dataUser ((s.hub.core[n]).rx ra + imm).toNat 4 1) ∧ (0x10000000 ≤
      ((s.hub.core[n]).rx ra + imm).toNat) ∧ (((s.hub.core[n]).rx ra + imm).toNat < 0x10010000)) ∧ (∃ (n : Fin 8) (w
      : W32) (s : State), (s.hub.coreIs n w) ∧ (rvDecode32 w = some .ecall)) ∧ (∃ (n : Fin 8) (s : State),
      (s.hub.coreRuns n) ∧ ((s.hub.core[n]).evq ≠ []) ∧ ((s.hub.core[n]).csr.mie.bit 11) ∧ ((s.hub.core[n]).user ∨
      (s.hub.core[n]).mie)) ∧ (∃ (n : Fin 8) (s : State), (s.hub.coreRuns n = false)) :=
  ⟨⟨2, 0x00510093#32, .add, 1, 2, 5, ⟨[], ((rs.on (F.RFX_STAT_ACTIVE 2)).on (F.RFX_CTL_RUN 2)).modCore 2 fun c =>
    { c with itcm := writeBytes [] 0 (leBytes 0x00510093#32) }⟩, by decide⟩, ⟨2, 0x402081B3#32, .sub, 3, 1, 2, ⟨[],
    ((rs.on (F.RFX_STAT_ACTIVE 2)).on (F.RFX_CTL_RUN 2)).modCore 2 fun c =>
    { c with itcm := writeBytes [] 0 (leBytes 0x402081B3#32) }⟩, by decide⟩, ⟨2, 0x022081B3#32, .mul, 3, 1, 2, ⟨[],
    ((rs.on (F.RFX_STAT_ACTIVE 2)).on (F.RFX_CTL_RUN 2)).modCore 2 fun c =>
    { c with itcm := writeBytes [] 0 (leBytes 0x022081B3#32) }⟩, by decide⟩, ⟨2, 0x00208463#32, .eq, 1, 2, 8, ⟨[],
    ((rs.on (F.RFX_STAT_ACTIVE 2)).on (F.RFX_CTL_RUN 2)).modCore 2 fun c =>
    { c with itcm := writeBytes [] 0 (leBytes 0x00208463#32) }⟩, by decide⟩, ⟨2, 0x123450B7#32, 1, 0x12345000, ⟨[],
    ((rs.on (F.RFX_STAT_ACTIVE 2)).on (F.RFX_CTL_RUN 2)).modCore 2 fun c =>
    { c with itcm := writeBytes [] 0 (leBytes 0x123450B7#32) }⟩, by decide⟩, ⟨2, 0x12345097#32, 1, 0x12345000, ⟨[],
    ((rs.on (F.RFX_STAT_ACTIVE 2)).on (F.RFX_CTL_RUN 2)).modCore 2 fun c =>
    { c with itcm := writeBytes [] 0 (leBytes 0x12345097#32) }⟩, by decide⟩, ⟨2, 0x008000EF#32, 1, 8, ⟨[], ((rs.on
    (F.RFX_STAT_ACTIVE 2)).on (F.RFX_CTL_RUN 2)).modCore 2 fun c =>
    { c with itcm := writeBytes [] 0 (leBytes 0x008000EF#32) }⟩, by decide⟩, ⟨2, 0x003100E7#32, 1, 2, 3, ⟨[],
    ((rs.on (F.RFX_STAT_ACTIVE 2)).on (F.RFX_CTL_RUN 2)).modCore 2 fun c =>
    { c with itcm := writeBytes [] 0 (leBytes 0x003100E7#32) }⟩, by decide⟩, ⟨2, 0x0000000F#32, ⟨[], ((rs.on
    (F.RFX_STAT_ACTIVE 2)).on (F.RFX_CTL_RUN 2)).modCore 2 fun c =>
    { c with itcm := writeBytes [] 0 (leBytes 0x0000000F#32) }⟩, by decide⟩, ⟨2, 0x30200073#32, ⟨[], ((rs.on
    (F.RFX_STAT_ACTIVE 2)).on (F.RFX_CTL_RUN 2)).modCore 2 fun c =>
    { c with itcm := writeBytes [] 0 (leBytes 0x30200073#32) }⟩, by decide⟩, ⟨2, 0x00412083#32, 1, 2, 4, ⟨[],
    ((rs.on (F.RFX_STAT_ACTIVE 2)).on (F.RFX_CTL_RUN 2)).modCore 2 fun c =>
    { c with itcm := writeBytes [] 0 (leBytes 0x00412083#32), x := (Vector.replicate 32 0).set 2 0x10000000#32, dtcm := writeBytes [] 4 [1, 2, 3, 4] }⟩,
    by decide⟩, ⟨2, 0x00112223#32, 2, 1, 4, ⟨[], ((rs.on (F.RFX_STAT_ACTIVE 2)).on (F.RFX_CTL_RUN 2)).modCore 2 fun
    c =>
    { c with itcm := writeBytes [] 0 (leBytes 0x00112223#32), x := ((Vector.replicate 32 0).set 2 0x10000000#32).set 1 0x01020304#32 }⟩,
    by decide⟩, ⟨2, 0x00000073#32, ⟨[], ((rs.on (F.RFX_STAT_ACTIVE 2)).on (F.RFX_CTL_RUN 2)).modCore 2 fun c =>
    { c with itcm := writeBytes [] 0 (leBytes 0x00000073#32) }⟩, by decide⟩, ⟨2, ⟨[], ((rs.on (F.RFX_STAT_ACTIVE
    2)).on (F.RFX_CTL_RUN 2)).modCore 2 fun c =>
    { c with evq := [{ typ := 8, unit := 0, w1 := 0, w2 := 0, w3 := 0 }], user := true, csr := { c.csr with mie := 0x800#32, mtvec := 0x101#32 } }⟩,
    by decide⟩, ⟨2, ⟨[], rs⟩, by decide⟩⟩

theorem witness_cores_and_locks :
    (∃ (a : Access) (n : Fin 8) (s : State), (s.hub.lets a (rfxBase n)) ∧ (s.hub.bit (F.RFX_CTL_RUN n) = false) ∧
      (s.hub.coreActive n = false)) ∧ (∃ (a : Access) (n : Fin 8) (s : State), (s.hub.lets a (rfxBase n)) ∧
      (s.hub.bit (F.RFX_CTL_RUN n) = false) ∧ (s.hub.coreActive n)) ∧ (∃ (a : Access) (n : Fin 8) (s : State),
      (s.hub.lets a (rfxBase n)) ∧ (s.hub.bit (F.RFX_CTL_RUN n)) ∧ (s.hub.coreRuns n)) ∧ (∃ (n : Fin 8) (k : Nat) (s
      : State), ((s.hub.core[n]).stopping = some k) ∧ (k < 8) ∧ (s.hub.coreActive n) ∧ (s.hub.bit (F.RFX_CTL_RUN n)
      = false) ∧ (k ≠ 2)) ∧ (∃ (n : Fin 8) (s : State), ((s.hub.core[n]).stopping = some 2) ∧ (s.hub.coreActive n) ∧
      (s.hub.bit (F.RFX_CTL_RUN n) = false) ∧ (s.hub.bit (F.RFX_CTL_WDT_AUTO n))) ∧ (∃ (n : Fin 8) (s : State),
      (s.hub.coreRuns n)) ∧ (∃ (n : Fin 8) (s : State), (s.hub.coreRuns n) ∧ ((s.hub.core[n]).wdt ≠ 0) ∧
      ((s.hub.core[n]).kick + us (s.hub.core[n]).wdt ≤ s.hub.now)) ∧ (∃ (n : Fin 8) (s : State), (s.hub.now <
      (s.hub.core[n]).kick + us (s.hub.core[n]).wdt ∨ (s.hub.core[n]).wdt = 0)) ∧ (∃ (n : Fin 8) (tile : Fin 16384)
      (s : State), (s.hub.coreRuns n) ∧ (s.hub.coreTile tile) ∧ (((s.hub.core[n]).line tile).isNone) ∧
      (((s.hub.evict n).verify tile 4).2)) ∧ (∃ (n : Fin 8) (tile : Fin 16384) (l : TLine) (s : State),
      (s.hub.coreRuns n) ∧ (s.hub.coreTile tile) ∧ ((s.hub.core[n]).line tile = some l)) ∧ (∃ (n : Fin 8) (tile :
      Fin 16384) (s : State), (s.hub.coreRuns n) ∧ (s.hub.coreTile tile = false)) ∧ (∃ (n : Fin 8) (v : W32) (t :
      Nat) (l : TLine) (s : State), (s.hub.coreRuns n) ∧ (v.bit 2 = false) ∧ ((s.hub.core[n]).user = false) ∧
      (tileOfAddr (v.toNat / 8 * 8) = some t) ∧ ((s.hub.core[n]).line t = some l)) ∧ (∃ (n : Fin 8) (v : W32) (t :
      Nat) (l : TLine) (s : State), (s.hub.coreRuns n) ∧ (v.bit 2 = false) ∧ ((s.hub.core[n]).user = false) ∧
      (tileOfAddr (v.toNat / 8 * 8) = some t) ∧ ((s.hub.core[n]).line t = some l)) ∧ (∃ (n : Fin 8) (v : W32) (t :
      Nat) (l : TLine) (s : State), (s.hub.coreRuns n) ∧ (v.bit 2 = false) ∧ ((s.hub.core[n]).user = false) ∧
      (tileOfAddr (v.toNat / 8 * 8) = some t) ∧ ((s.hub.core[n]).line t = some l)) ∧ (∃ (n : Fin 8) (v : W32) (t :
      Nat) (s : State), (s.hub.coreRuns n) ∧ (v.bit 2 = false) ∧ ((s.hub.core[n]).user = false) ∧ (tileOfAddr
      (v.toNat / 8 * 8) = some t) ∧ (s.hub.coreTile t)) ∧ (∃ (a : Access) (n : Fin 8) (v : W32) (s : State),
      (s.hub.lets a (rfxBase n + 0x18)) ∧ (s.hub.bit (F.RFX_TCMADDR_DTCM n))) ∧ (∃ (a : Access) (n : Fin 8) (v :
      W32) (s : State), (s.hub.lets a (rfxBase n + 0x18)) ∧ (s.hub.bit (F.RFX_TCMADDR_DTCM n) = false) ∧
      (s.hub.coreActive n = false)) ∧ (∃ (a : Access) (n : Fin 8) (s : State), (s.hub.lets a (rfxBase n + 0x18)
      false)) ∧ (∃ (n : Fin 8) (e : EvEntry) (r : List EvEntry) (s : State), (s.hub.coreRuns n) ∧
      ((s.hub.core[n]).evq = e :: r)) ∧ (∃ (a : Access) (n : Fin 8) (code : BitVec 16) (s : State), (s.hub.lets a
      (rfxBase n + 0x24)) ∧ (s.hub.bit (F.RFX_EVEN_SOFT n)) ∧ (s.hub.bit (F.RFX_CTL_RUN n)) ∧
      ((s.hub.core[n]).evq.length < 64)) ∧ (∃ (a : Access) (n : Fin 8) (code : BitVec 16) (s : State), (s.hub.lets a
      (rfxBase n + 0x24)) ∧ (s.hub.bit (F.RFX_EVEN_SOFT n) = false)) ∧ (∃ (n : Fin 8) (s : State), (s.hub.coreRuns
      n) ∧ ((s.hub.core[n]).user = false) ∧ (∀ d : Fin 4, ((s.hub.core[n]).slot[d]).free = false)) ∧ (∃ (n : Fin 8)
      (d : Fin 4) (s : State), (s.hub.coreRuns n) ∧ ((s.hub.core[n]).user = false) ∧
      (((s.hub.core[n]).slot[d]).free) ∧ (∀ i : Fin 4, i < d → ((s.hub.core[n]).slot[i]).free = false) ∧
      ((s.hub.core[n]).iss.kind = 0) ∧ (inDtcm (s.hub.core[n]).iss.rptr.toNat (s.hub.core[n]).iss.backLen) ∧
      (s.hub.paired = false)) ∧ (∃ (n : Fin 8) (d : Fin 4) (s : State), (s.hub.coreRuns n) ∧ ((s.hub.core[n]).user =
      false) ∧ (((s.hub.core[n]).slot[d]).free) ∧ (∀ i : Fin 4, i < d → ((s.hub.core[n]).slot[i]).free = false) ∧ (4
      < (s.hub.core[n]).iss.kind) ∧ ((s.hub.core[n]).iss.kind ≠ 8)) ∧ (∃ (n : Fin 8) (d : Fin 4) (st : BitVec 4)
      (salv : Bool) (data : List Byte) (s : State), (((s.hub.core[n]).slot[d]).busy) ∧
      (((s.hub.core[n]).slot[d]).discard = false) ∧ (st.toNat ≤ 8)) ∧ (∃ (n : Fin 8) (d : Fin 4) (s : State),
      (s.hub.coreRuns n) ∧ (((s.hub.core[n]).slot[d]).done)) ∧ (∃ (a : Access) (i : Fin 32) (s : State), (s.hub.lets
      a (0x38000 + 4 * i) false) ∧ (s.hub.sem[i] = none) ∧ (a.req ≠ 13) ∧ (∀ r ∈ s.semReaders i, a.req.toNat ≤ r)) ∧
      (∃ (a : Access) (i : Fin 32) (r : Nat) (s : State), (s.hub.lets a (0x38000 + 4 * i) false) ∧ (s.hub.sem[i] =
      some r) ∧ (r ≠ a.req.toNat) ∧ (s.semFreed i r = false)) ∧ (∃ (a : Access) (i : Fin 32) (r : Nat) (s : State),
      (s.hub.lets a (0x38000 + 4 * i) false) ∧ (s.hub.sem[i] = none) ∧ (a.req ≠ 13) ∧ (r ∈ s.semReaders i) ∧ (∀ q ∈
      s.semReaders i, r ≤ q) ∧ (r < a.req.toNat)) ∧ (∃ (a : Access) (i : Fin 32) (r : Nat) (s : State), (s.hub.lets
      a (0x38000 + 4 * i) false) ∧ (s.hub.sem[i] = some r) ∧ (r ≠ a.req.toNat) ∧ (s.semFreed i r) ∧ (a.req ≠ 13) ∧
      (∀ q ∈ s.semReaders i, a.req.toNat ≤ q)) ∧ (∃ (a : Access) (i : Fin 32) (v : W32) (s : State), (s.hub.lets a
      (0x38000 + 4 * i)) ∧ (s.hub.sem[i] = some a.req.toNat) ∧ (v.bits 3 0 = 0) ∧ (s.hub.semRel[i] ≠ some
      (a.req.toNat, s.hub.now))) ∧ (∃ (a : Access) (i : Fin 32) (v : W32) (s : State), (s.hub.lets a (0x38000 + 4 *
      i)) ∧ (s.hub.sem[i] ≠ some a.req.toNat) ∧ (s.hub.semRel[i] ≠ some (a.req.toNat, s.hub.now))) ∧ (∃ (a : Access)
      (i : Fin 32) (s : State), (s.hub.lets a 0x38080) ∧ ((s.hub.sem[i]).isSome)) :=
  ⟨⟨stew, 2, ⟨[], rs⟩, by decide⟩, ⟨stew, 2, ⟨[], rs.on (F.RFX_STAT_ACTIVE 2)⟩, by decide⟩, ⟨stew, 2, ⟨[], ((rs.on
    (F.RFX_STAT_ACTIVE 2)).on (F.RFX_CTL_RUN 2))⟩, by decide⟩, ⟨2, 1, ⟨[], (rs.on (F.RFX_STAT_ACTIVE 2)).modCore 2
    fun c => { c with stopping := some 1 }⟩, by decide⟩, ⟨2, ⟨[], ((rs.on (F.RFX_STAT_ACTIVE 2)).on
    (F.RFX_CTL_WDT_AUTO 2)).modCore 2 fun c => { c with stopping := some 2 }⟩, by decide⟩, ⟨2, ⟨[], ((rs.on
    (F.RFX_STAT_ACTIVE 2)).on (F.RFX_CTL_RUN 2))⟩, by decide⟩, ⟨2, ⟨[],
    { ((rs.on (F.RFX_STAT_ACTIVE 2)).on (F.RFX_CTL_RUN 2)) with now := 500 }.modCore 2 fun c =>
    { c with wdt := 1 }⟩, by decide⟩, ⟨2, ⟨[], ((rs.on (F.RFX_STAT_ACTIVE 2)).on (F.RFX_CTL_RUN 2))⟩, by decide⟩,
    ⟨2, 17, ⟨[], ((((rs.put (F.TILE_PART_BASE 0) 16).put (F.TILE_PART_SIZE 0) 4).on (F.RFX_STAT_ACTIVE 2)).on
    (F.RFX_CTL_RUN 2))⟩, by decide +kernel⟩, ⟨2, 17, { tile := 17, data := [] }, ⟨[], ((((rs.put (F.TILE_PART_BASE
    0) 16).put (F.TILE_PART_SIZE 0) 4).on (F.RFX_STAT_ACTIVE 2)).on (F.RFX_CTL_RUN 2)).modCore 2 fun c =>
    { c with buf := [{ tile := 18, data := [] }, { tile := 17, data := [] }] }⟩, by decide⟩, ⟨2, 21, ⟨[], ((((rs.put
    (F.TILE_PART_BASE 0) 16).put (F.TILE_PART_SIZE 0) 4).on (F.RFX_STAT_ACTIVE 2)).on (F.RFX_CTL_RUN 2))⟩, by
    decide⟩, ⟨2, 0x20001100#32, 17, { tile := 17, data := List.replicate 256 7, dirty := 1 }, ⟨[], ((((rs.put
    (F.TILE_PART_BASE 0) 16).put (F.TILE_PART_SIZE 0) 4).on (F.RFX_STAT_ACTIVE 2)).on (F.RFX_CTL_RUN 2)).modCore 2
    fun c => { c with buf := [{ tile := 17, data := List.replicate 256 7, dirty := 1 }] }⟩, by decide⟩, ⟨2,
    0x20001100#32, 17, { tile := 17, data := List.replicate 256 7, dirty := 1 }, ⟨[], ((((rs.put (F.TILE_PART_BASE
    0) 16).put (F.TILE_PART_SIZE 0) 4).on (F.RFX_STAT_ACTIVE 2)).on (F.RFX_CTL_RUN 2)).modCore 2 fun c =>
    { c with buf := [{ tile := 17, data := List.replicate 256 7, dirty := 1 }] }⟩, by decide⟩, ⟨2, 0x20001100#32,
    17, { tile := 17, data := List.replicate 256 7, dirty := 1 }, ⟨[], ((((rs.put (F.TILE_PART_BASE 0) 16).put
    (F.TILE_PART_SIZE 0) 4).on (F.RFX_STAT_ACTIVE 2)).on (F.RFX_CTL_RUN 2)).modCore 2 fun c =>
    { c with buf := [{ tile := 17, data := List.replicate 256 7, dirty := 1 }] }⟩, by decide⟩, ⟨2, 0x20001100#32,
    17, ⟨[], ((((rs.put (F.TILE_PART_BASE 0) 16).put (F.TILE_PART_SIZE 0) 4).on (F.RFX_STAT_ACTIVE 2)).on
    (F.RFX_CTL_RUN 2)).modCore 2 fun c =>
    { c with buf := [{ tile := 17, data := List.replicate 256 7, dirty := 1 }] }⟩, by decide⟩, ⟨stew, 2, 7, ⟨[],
    rs.on (F.RFX_TCMADDR_DTCM 2)⟩, by decide⟩, ⟨stew, 2, 7, ⟨[], rs⟩, by decide⟩, ⟨stew, 2, ⟨[], rs⟩, by decide⟩,
    ⟨2, { typ := 8, unit := 0, w1 := 3, w2 := 4, w3 := 5 }, [], ⟨[], ((rs.on (F.RFX_STAT_ACTIVE 2)).on
    (F.RFX_CTL_RUN 2)).modCore 2 fun c => { c with evq := [{ typ := 8, unit := 0, w1 := 3, w2 := 4, w3 := 5 }] }⟩,
    by decide⟩, ⟨stew, 2, 5, ⟨[], ((rs.on (F.RFX_STAT_ACTIVE 2)).on (F.RFX_CTL_RUN 2)).on (F.RFX_EVEN_SOFT 2)⟩, by
    decide⟩, ⟨stew, 2, 5, ⟨[], ((rs.on (F.RFX_STAT_ACTIVE 2)).on (F.RFX_CTL_RUN 2)).off (F.RFX_EVEN_SOFT 2)⟩, by
    decide⟩, ⟨2, ⟨[], ((rs.on (F.RFX_STAT_ACTIVE 2)).on (F.RFX_CTL_RUN 2)).modCore 2 fun c =>
    { c with slot := Vector.replicate 4 { busy := true } }⟩, by decide⟩, ⟨2, 0, ⟨[], ((rs.on (F.RFX_STAT_ACTIVE
    2)).on (F.RFX_CTL_RUN 2)).modCore 2 fun c => { c with iss := { rptr := 0x10000000#32 } }⟩, by decide⟩, ⟨2, 0,
    ⟨[], ((rs.on (F.RFX_STAT_ACTIVE 2)).on (F.RFX_CTL_RUN 2)).modCore 2 fun c =>
    { c with iss := { ctl := 0x50000000#32 } }⟩, by decide⟩, ⟨2, 1, 0, false, [1, 2], ⟨[], ((rs.on
    (F.RFX_STAT_ACTIVE 2)).on (F.RFX_CTL_RUN 2)).modCore 2 fun c =>
    { c with slot := Vector.replicate 4 { busy := true } }⟩, by decide⟩, ⟨2, 1, ⟨[], ((rs.on (F.RFX_STAT_ACTIVE
    2)).on (F.RFX_CTL_RUN 2)).modCore 2 fun c => { c with slot := Vector.replicate 4 { done := true } }⟩, by
    decide⟩, ⟨stew, 3, ⟨[], rs⟩, by decide⟩, ⟨stew, 3, 4, ⟨[], { rs with sem := rs.sem.set 3 (some 4) }⟩, by
    decide⟩, ⟨{ stew with req := 3 }, 3, 0, ⟨[.semLockRead stew 3], rs⟩, by decide⟩, ⟨stew, 3, 4, ⟨[.semLockRelease
    { stew with req := 4 } 3 0], { rs with sem := rs.sem.set 3 (some 4) }⟩, by decide⟩, ⟨stew, 3, 0, ⟨[],
    { rs with sem := rs.sem.set 3 (some 0) }⟩, by decide⟩, ⟨stew, 3, 0, ⟨[],
    { rs with sem := rs.sem.set 3 (some 4) }⟩, by decide⟩, ⟨stew, 3, ⟨[], { rs with sem := rs.sem.set 3 (some 4) }⟩,
    by decide⟩⟩

theorem witness_lamp_lease :
    (∃ (a : Access) (s : State), (s.hub.lets a 0x98000) ∧ (s.hub.paired = false) ∧ (s.hub.anyLane = false) ∧
      (s.hub.member = 0)) ∧ (∃ (a : Access) (s : State), (s.hub.lets a 0x98000) ∧ (s.hub.paired = false) ∧
      (s.hub.anyLane)) ∧ (∃ (s : State), (s.hub.member = 0) ∧ (s.hub.lampSt = lpSTART) ∧ (s.hub.isolated = false) ∧
      (s.hub.startOver)) ∧ (∃ (s : State), (s.hub.isolated ∨ s.hub.startOver = false)) ∧ (∃ (s : State),
      (s.hub.member = 0) ∧ (s.hub.paired) ∧ (s.hub.lampSt = lpHOLDER) ∧ (s.hub.isolated = false) ∧ ((s.hub.modLamp
      fun l => { l with mask := none }).healthy) ∧ (s.hub.lamp.renAt + s.hub.lampPer / 4 ≤ s.hub.now)) ∧ (∃ (s :
      State), (s.hub.now < s.hub.lamp.renAt + s.hub.lampPer / 4)) ∧ (∃ (s : State), (s.hub.isolated ∨ (s.hub.modLamp
      fun l => { l with mask := none }).healthy = false)) ∧ (∃ (f : Frame) (s : State), (s.hub.hearsLamp f 1) ∧
      (s.hub.lampSt = lpSTART)) ∧ (∃ (f : Frame) (s : State), (s.hub.hearsLamp f 1) ∧ (s.hub.isShadow) ∧ (newerLease
      (f.word 1).toNat s.hub.lamp.n)) ∧ (∃ (a : Access) (v : W32) (s : State), (s.hub.lets a 0x9802C) ∧
      (s.hub.member = 0) ∧ (s.hub.paired) ∧ (a.req = 10) ∧ (a.node.toNat = s.hub.fld F.LMP_PEER_NODE) ∧
      (s.hub.isShadow) ∧ (newerLease v.toNat s.hub.lamp.n)) ∧ (∃ (a : Access) (v : W32) (s : State), (s.hub.lets a
      0x9802C) ∧ (a.req ≠ 10)) ∧ (∃ (s : State), (s.hub.isHolder) ∧ (s.hub.lamp.exp ≤ s.hub.now)) ∧ (∃ (s : State),
      (s.hub.now < s.hub.lamp.exp)) ∧ (∃ (d : Nat) (s : State), (s.hub.isShadow) ∧ (s.hub.lamp.dead = some d) ∧ (d ≤
      s.hub.now) ∧ (s.hub.mayTake) ∧ (s.leaseComes = false)) ∧ (∃ (s : State), (s.hub.mayTake = false)) ∧ (∃ (s :
      State), (s.leaseComes)) ∧ (∃ (f : Frame) (s : State), (s.hub.hearsLamp f 2) ∧ (s.hub.isHolder)) ∧ (∃ (s :
      State), (s.hub.now < s.hub.lamp.ackAt + s.hub.lampPer)) ∧ (∃ (s : State), (s.hub.isHolder) ∧ (s.hub.lamp.ackAt
      + s.hub.lampPer ≤ s.hub.now)) ∧ (∃ (s : State), (s.hub.healthy = false) ∧ (s.hub.isHolder)) ∧ (∃ (s : State),
      (s.hub.healthy)) ∧ (∃ (a : Access) (s : State), (s.hub.lets a 0x98000) ∧ (s.hub.isHolder)) ∧ (∃ (a : Access)
      (s : State), (s.hub.lets a 0x98000) ∧ (s.hub.isShadow)) ∧ (∃ (f : Frame) (s : State), (s.hub.hearsLamp f 3) ∧
      (s.hub.isShadow)) ∧ (∃ (d : Nat) (s : State), (s.hub.isShadow) ∧ (s.hub.lamp.relAt = some d) ∧ (d ≤ s.hub.now)
      ∧ (s.hub.mayTake)) ∧ (∃ (s : State), (s.hub.member ≠ 0) ∧ (s.hub.shadowUnit)) ∧ (∃ (a : Access) (s : State),
      (s.hub.lets a 0x98058)) ∧ (∃ (a : Access) (s : State), (s.hub.lets a 0x9801C)) :=
  ⟨⟨stew, ⟨[], rs⟩, by decide⟩, ⟨stew, ⟨[], rs.on (F.LN_CTL_EN 3)⟩, by decide⟩, ⟨⟨[],
    { ((((rs.on F.LMP_CTL_EN).put F.LMP_HEALTH_MASK 0).put F.LMP_STAT_STATE 1).put (F.X_STAT_STATE 2) linkUP) with now := 10 ^ 12 }⟩,
    by decide⟩, ⟨⟨[], rs⟩, by decide⟩, ⟨⟨[],
    { ((((rs.on F.LMP_CTL_EN).put F.LMP_HEALTH_MASK 0).put F.LMP_STAT_STATE 3).put (F.X_STAT_STATE 2) linkUP) with now := 9000000 }⟩,
    by decide⟩, ⟨⟨[], rs⟩, by decide⟩, ⟨⟨[], rs⟩, by decide⟩,
    ⟨{ hdr := pHdr tLAMP 0, pay := wordsPay [0x01380000#32, 7#32] }, ⟨[], ((((rs.on F.LMP_CTL_EN).put
    F.LMP_HEALTH_MASK 0).put F.LMP_STAT_STATE 1).put (F.X_STAT_STATE 2) linkUP)⟩, by decide⟩,
    ⟨{ hdr := pHdr tLAMP 0, pay := wordsPay [0x01380000#32, 7#32] }, ⟨[], ((((rs.on F.LMP_CTL_EN).put
    F.LMP_HEALTH_MASK 0).put F.LMP_STAT_STATE 2).put (F.X_STAT_STATE 2) linkUP)⟩, by decide⟩,
    ⟨{ req := 10, node := 9, mem := 0, posted := true }, 7, ⟨[], ((((rs.on F.LMP_CTL_EN).put F.LMP_HEALTH_MASK
    0).put F.LMP_STAT_STATE 2).put (F.X_STAT_STATE 2) linkUP).put F.LMP_PEER_NODE 9⟩, by decide⟩, ⟨stew, 7, ⟨[],
    ((((rs.on F.LMP_CTL_EN).put F.LMP_HEALTH_MASK 0).put F.LMP_STAT_STATE 2).put (F.X_STAT_STATE 2) linkUP)⟩, by
    decide⟩, ⟨⟨[], ((((rs.on F.LMP_CTL_EN).put F.LMP_HEALTH_MASK 0).put F.LMP_STAT_STATE 3).put (F.X_STAT_STATE 2)
    linkUP)⟩, by decide⟩, ⟨⟨[],
    { ((((rs.on F.LMP_CTL_EN).put F.LMP_HEALTH_MASK 0).put F.LMP_STAT_STATE 3).put (F.X_STAT_STATE 2) linkUP) with lamp := { exp := 5 } }⟩,
    by decide⟩, ⟨0, ⟨[],
    { ((((rs.on F.LMP_CTL_EN).put F.LMP_HEALTH_MASK 0).put F.LMP_STAT_STATE 2).put (F.X_STAT_STATE 2) linkUP) with lamp := { dead := some 0 } }⟩,
    by decide⟩, ⟨⟨[],
    { ((((rs.on F.LMP_CTL_EN).put F.LMP_HEALTH_MASK 0).put F.LMP_STAT_STATE 2)) with lamp := { dead := some 0 } }⟩,
    by decide⟩, ⟨⟨[.lease { hdr := pHdr tLAMP 0, pay := wordsPay [0x01380000#32, 7#32] }],
    { ((((rs.on F.LMP_CTL_EN).put F.LMP_HEALTH_MASK 0).put F.LMP_STAT_STATE 2).put (F.X_STAT_STATE 2) linkUP) with lamp := { dead := some 0 } }⟩,
    by decide⟩, ⟨{ hdr := pHdr tLAMP 0, pay := wordsPay [0x02380000#32, 7#32, 9#32] }, ⟨[], ((((rs.on
    F.LMP_CTL_EN).put F.LMP_HEALTH_MASK 0).put F.LMP_STAT_STATE 3).put (F.X_STAT_STATE 2) linkUP)⟩, by decide⟩,
    ⟨⟨[], ((((rs.on F.LMP_CTL_EN).put F.LMP_HEALTH_MASK 0).put F.LMP_STAT_STATE 3).put (F.X_STAT_STATE 2) linkUP)⟩,
    by decide⟩, ⟨⟨[],
    { ((((rs.on F.LMP_CTL_EN).put F.LMP_HEALTH_MASK 0).put F.LMP_STAT_STATE 3).put (F.X_STAT_STATE 2) linkUP) with now := 9000000 }⟩,
    by decide⟩, ⟨⟨[], ((((rs.on F.LMP_CTL_EN).put F.LMP_HEALTH_MASK 0).put F.LMP_STAT_STATE 3).put (F.X_STAT_STATE
    2) linkUP).put F.LMP_HEALTH_MASK 2⟩, by decide⟩, ⟨⟨[], ((((rs.on F.LMP_CTL_EN).put F.LMP_HEALTH_MASK 0).put
    F.LMP_STAT_STATE 3).put (F.X_STAT_STATE 2) linkUP)⟩, by decide⟩, ⟨stew, ⟨[], ((((rs.on F.LMP_CTL_EN).put
    F.LMP_HEALTH_MASK 0).put F.LMP_STAT_STATE 3).put (F.X_STAT_STATE 2) linkUP)⟩, by decide⟩, ⟨stew, ⟨[], ((((rs.on
    F.LMP_CTL_EN).put F.LMP_HEALTH_MASK 0).put F.LMP_STAT_STATE 2))⟩, by decide⟩,
    ⟨{ hdr := pHdr tLAMP 0, pay := wordsPay [0x03380000#32, 7#32] }, ⟨[], ((((rs.on F.LMP_CTL_EN).put
    F.LMP_HEALTH_MASK 0).put F.LMP_STAT_STATE 2).put (F.X_STAT_STATE 2) linkUP)⟩, by decide⟩, ⟨0, ⟨[],
    { ((((rs.on F.LMP_CTL_EN).put F.LMP_HEALTH_MASK 0).put F.LMP_STAT_STATE 2).put (F.X_STAT_STATE 2) linkUP) with lamp := { relAt := some 0 } }⟩,
    by decide⟩, ⟨⟨[], ((((rs.on F.LMP_CTL_EN).put F.LMP_HEALTH_MASK 0).put F.LMP_STAT_STATE 0).put (F.X_STAT_STATE
    2) linkUP).put F.GLB_STRAP_MEMBER 2⟩, by decide⟩, ⟨{ req := 11, node := 0, mem := 2, posted := true }, ⟨[], rs⟩,
    by decide⟩, ⟨stew, ⟨[], rs⟩, by decide⟩⟩

theorem witness_lamp_lockstep_and_reclaim :
    (∃ (f : Frame) (s : State), (s.hub.hearsLamp f 4) ∧ (s.hub.shadowUnit) ∧ ((f.word 1).bits 15 0 = 1) ∧
      (f.pay.length = 28) ∧ ((f.word 2).bits 31 28 = 2) ∧ ((f.word 2).bits 27 26 = 0)) ∧ (∃ (a : Access) (v : W32)
      (s : State), (s.hub.lets a 0x98060) ∧ (((s.hub.lamp.item[(⟨a.mem.toNat, a.mem.isLt⟩ : Fin 4)]) ++ [v]).length
      < itemLen (((s.hub.lamp.item[(⟨a.mem.toNat, a.mem.isLt⟩ : Fin 4)]) ++ [v]).getD 0 0))) ∧ (∃ (a : Access) (v :
      W32) (s : State), (s.hub.lets a 0x98060) ∧ (itemLen (((s.hub.lamp.item[(⟨a.mem.toNat, a.mem.isLt⟩ : Fin 4)])
      ++ [v]).getD 0 0) ≤ ((s.hub.lamp.item[(⟨a.mem.toNat, a.mem.isLt⟩ : Fin 4)]) ++ [v]).length) ∧ (s.hub.member =
      0) ∧ (s.hub.holderUnit) ∧ (s.hub.linkIsUp 2)) ∧ (∃ (f : Frame) (s : State), (s.hub.hearsLamp f 5) ∧
      (s.hub.isShadow) ∧ ((f.word 1).bit 31)) ∧ (∃ (k : Nat) (s : State), (s.hub.isShadow) ∧ (s.hub.lamp.markOwed =
      some k) ∧ (s.hub.drn.cyc.any fun c => c.no == k && decide (s.hub.fld F.LMP_SYNC_MARKWAIT * 100 ≤ s.hub.since
      c)) ∧ (s.markComes = false)) ∧ (∃ (s : State), (s.markComes)) ∧ (∃ (f : Frame) (p : Parked) (s : State),
      (s.hub.hearsLamp f 6) ∧ (s.hub.lamp.parked = [p]) ∧ ((f.word 1).bits 31 30 = 0) ∧ ((f.word 1).bits 29 27 =
      p.core.val) ∧ ((f.word 1).bits 15 0 = p.k % 65536) ∧ ((f.word 2).bits 3 0 ≤ 8)) ∧ (∃ (f : Frame) (z : W32) (s
      : State), (s.hub.hearsLamp f 7) ∧ (s.hub.isShadow) ∧ ((f.word 1).bits 31 30 = 0) ∧ (s.hub.lamp.theirs = []) ∧
      (s.hub.lamp.mine = [((f.word 1).bits 29 27, (f.word 1).bits 15 0, z)]) ∧ (f.word 2 = z)) ∧ (∃ (f : Frame) (z :
      W32) (s : State), (s.hub.hearsLamp f 7) ∧ (s.hub.isShadow) ∧ ((f.word 1).bits 31 30 = 0) ∧ (s.hub.lamp.theirs
      = []) ∧ (s.hub.lamp.mine = [((f.word 1).bits 29 27, (f.word 1).bits 15 0, z)]) ∧ (f.word 2 ≠ z)) ∧ (∃ (z :
      Nat) (s : State), (s.hub.isShadow) ∧ (s.hub.lampSt = lpSHADOW) ∧ (s.hub.bit F.GLB_STRAP_PREFERRED) ∧
      (s.hub.bit F.LMP_CTL_RECLAIM_EN) ∧ (s.hub.bit F.LMP_STAT_CFG_ERR = false) ∧ (s.hub.bit F.LMP_STAT_IN_STEP) ∧
      (s.hub.linkIsUp 2) ∧ (s.hub.lamp.stepAt = some z) ∧ (z + s.hub.fld F.LMP_RECLAIM_HOLDOFF * 400000000 ≤
      s.hub.now)) ∧ (∃ (f : Frame) (s : State), (s.hub.hearsLamp f 9) ∧ (s.hub.lampSt = lpHOLDER) ∧ (s.hub.healthy)
      ∧ (s.hub.lamp.peerStep)) ∧ (∃ (f : Frame) (s : State), (s.hub.hearsLamp f 9) ∧ (s.hub.lampSt ≠ lpHOLDER ∨
      s.hub.lamp.peerStep = false) ∧ (s.hub.linkIsUp 2)) ∧ (∃ (f : Frame) (s : State), (s.hub.hearsLamp f 10) ∧
      (s.hub.lampSt = lpCLAIMING) ∧ (s.hub.lamp.claim = some (claimTime f))) ∧ (∃ (f : Frame) (s : State),
      (s.hub.hearsLamp f 11) ∧ (s.hub.lampSt = lpCLAIMING)) ∧ (∃ (f : Frame) (s : State), (s.hub.hearsLamp f 11) ∧
      (s.hub.lampSt = lpHANDING)) ∧ (∃ (s : State), (s.hub.isHolder) ∧ (s.hub.lampSt = lpHANDING) ∧
      (s.hub.claimCome)) ∧ (∃ (s : State), (s.hub.claimCome = false)) ∧ (∃ (s : State), (s.hub.isShadow) ∧
      (s.hub.lampSt = lpCLAIMING) ∧ (s.hub.lamp.granted) ∧ (s.hub.claimPast (max 1000 (s.hub.fld
      F.LMP_LEASE_GUARD)))) ∧ (∃ (s : State), (s.grantComes = false) ∧ (s.hub.lampSt = lpCLAIMING) ∧
      (s.hub.lamp.granted = false) ∧ (s.hub.claimPast (-(max 100 (s.hub.fld F.LMP_RECLAIM_LEAD) * 500 : Nat)))) ∧ (∃
      (f : Frame) (s : State), (s.hub.hearsLamp f 8) ∧ ((f.word 1).extractLsb' 18 4 ≠ tTIMED)) ∧ (∃ (f : Frame) (s :
      State), (s.hub.hearsLamp f 8) ∧ ((f.word 1).extractLsb' 18 4 = tTIMED)) :=
  ⟨⟨{ hdr := pHdr tLAMP 0, pay := wordsPay [0x04380000#32, 1#32, 0x20000004#32, 0x80000000#32, 1#32, 2#32, 3#32] },
    ⟨[], ((((rs.on F.LMP_CTL_EN).put F.LMP_HEALTH_MASK 0).put F.LMP_STAT_STATE 2).put (F.X_STAT_STATE 2) linkUP).on
    (F.RFX_CTL_RUN 2)⟩, by decide⟩, ⟨{ req := 11, node := 0, mem := 2, posted := true }, 0x20000001#32, ⟨[],
    ((((rs.on F.LMP_CTL_EN).put F.LMP_HEALTH_MASK 0).put F.LMP_STAT_STATE 3).put (F.X_STAT_STATE 2) linkUP)⟩, by
    decide⟩, ⟨{ req := 11, node := 0, mem := 2, posted := true }, 0#32, ⟨[], ((((rs.on F.LMP_CTL_EN).put
    F.LMP_HEALTH_MASK 0).put F.LMP_STAT_STATE 3).put (F.X_STAT_STATE 2) linkUP)⟩, by decide⟩,
    ⟨{ hdr := pHdr tLAMP 0, pay := wordsPay [0x05380000#32, 0x80000007#32] }, ⟨[], ((((rs.on F.LMP_CTL_EN).put
    F.LMP_HEALTH_MASK 0).put F.LMP_STAT_STATE 2).put (F.X_STAT_STATE 2) linkUP)⟩, by decide⟩, ⟨7, ⟨[],
    { ((((rs.on F.LMP_CTL_EN).put F.LMP_HEALTH_MASK 0).put F.LMP_STAT_STATE 2).put (F.X_STAT_STATE 2) linkUP) with lamp := { markOwed := some 7 }, drn := { cyc := [{ no := 7, at_ := 0 }] }, gno := { t := { sec := 9 } } }⟩,
    by decide⟩, ⟨⟨[.lampMark { hdr := pHdr tLAMP 0, pay := wordsPay [0x05380000#32, 7#32] }],
    { ((((rs.on F.LMP_CTL_EN).put F.LMP_HEALTH_MASK 0).put F.LMP_STAT_STATE 2).put (F.X_STAT_STATE 2) linkUP) with lamp := { markOwed := some 7 } }⟩,
    by decide⟩, ⟨{ hdr := pHdr tLAMP 0, pay := wordsPay [0x06380000#32, 0x10000003#32, 0#32] },
    { core := 2, slot := 1, k := 3, rq := rrq 0 8, timed := none }, ⟨[],
    { ((((rs.on F.LMP_CTL_EN).put F.LMP_HEALTH_MASK 0).put F.LMP_STAT_STATE 2).put (F.X_STAT_STATE 2) linkUP) with lamp := { parked := [{ core := 2, slot := 1, k := 3, rq := rrq 0 8, timed := none }] } }⟩,
    by decide⟩, ⟨{ hdr := pHdr tLAMP 0, pay := wordsPay [0x07380000#32, 0x10000040#32, 5#32] }, 5, ⟨[],
    { ((((rs.on F.LMP_CTL_EN).put F.LMP_HEALTH_MASK 0).put F.LMP_STAT_STATE 2).put (F.X_STAT_STATE 2) linkUP) with lamp := { mine := [(2, 64, 5)] } }⟩,
    by decide⟩, ⟨{ hdr := pHdr tLAMP 0, pay := wordsPay [0x07380000#32, 0x10000040#32, 5#32] }, 6, ⟨[],
    { ((((rs.on F.LMP_CTL_EN).put F.LMP_HEALTH_MASK 0).put F.LMP_STAT_STATE 2).put (F.X_STAT_STATE 2) linkUP) with lamp := { mine := [(2, 64, 6)] } }⟩,
    by decide⟩, ⟨0, ⟨[],
    { (((((((rs.on F.LMP_CTL_EN).put F.LMP_HEALTH_MASK 0).put F.LMP_STAT_STATE 2).put (F.X_STAT_STATE 2) linkUP).on F.GLB_STRAP_PREFERRED).on F.LMP_CTL_RECLAIM_EN).on F.LMP_STAT_IN_STEP).put F.LMP_RECLAIM_HOLDOFF 0 with lamp := { stepAt := some 0 } }⟩,
    by decide⟩, ⟨{ hdr := pHdr tLAMP 0, pay := wordsPay [0x09380000#32, 0#32, 5#32] }, ⟨[],
    { ((((rs.on F.LMP_CTL_EN).put F.LMP_HEALTH_MASK 0).put F.LMP_STAT_STATE 3).put (F.X_STAT_STATE 2) linkUP) with lamp := { peerStep := true } }⟩,
    by decide⟩, ⟨{ hdr := pHdr tLAMP 0, pay := wordsPay [0x09380000#32, 0#32, 5#32] }, ⟨[], ((((rs.on
    F.LMP_CTL_EN).put F.LMP_HEALTH_MASK 0).put F.LMP_STAT_STATE 3).put (F.X_STAT_STATE 2) linkUP)⟩, by decide⟩,
    ⟨{ hdr := pHdr tLAMP 0, pay := wordsPay [0x0A380000#32, 0#32, 5#32] }, ⟨[],
    { ((((rs.on F.LMP_CTL_EN).put F.LMP_HEALTH_MASK 0).put F.LMP_STAT_STATE 4).put (F.X_STAT_STATE 2) linkUP) with lamp := { claim := some (claimTime { hdr := pHdr tLAMP 0, pay := wordsPay [0x0A380000#32, 0#32, 5#32] }) } }⟩,
    by decide⟩, ⟨{ hdr := pHdr tLAMP 0, pay := wordsPay [0x0B380000#32, 0#32, 5#32] }, ⟨[], ((((rs.on
    F.LMP_CTL_EN).put F.LMP_HEALTH_MASK 0).put F.LMP_STAT_STATE 4).put (F.X_STAT_STATE 2) linkUP)⟩, by decide⟩,
    ⟨{ hdr := pHdr tLAMP 0, pay := wordsPay [0x0B380000#32, 0#32, 5#32] }, ⟨[], ((((rs.on F.LMP_CTL_EN).put
    F.LMP_HEALTH_MASK 0).put F.LMP_STAT_STATE 5).put (F.X_STAT_STATE 2) linkUP)⟩, by decide⟩, ⟨⟨[],
    { ((((rs.on F.LMP_CTL_EN).put F.LMP_HEALTH_MASK 0).put F.LMP_STAT_STATE 5).put (F.X_STAT_STATE 2) linkUP) with lamp := { claim := some 0 } }⟩,
    by decide⟩, ⟨⟨[], ((((rs.on F.LMP_CTL_EN).put F.LMP_HEALTH_MASK 0).put F.LMP_STAT_STATE 5).put (F.X_STAT_STATE
    2) linkUP)⟩, by decide⟩, ⟨⟨[],
    { ((((rs.on F.LMP_CTL_EN).put F.LMP_HEALTH_MASK 0).put F.LMP_STAT_STATE 4).put (F.X_STAT_STATE 2) linkUP) with lamp := { claim := some 0, granted := true }, gno := { t := { sec := 9 } } }⟩,
    by decide⟩, ⟨⟨[],
    { ((((rs.on F.LMP_CTL_EN).put F.LMP_HEALTH_MASK 0).put F.LMP_STAT_STATE 4).put (F.X_STAT_STATE 2) linkUP) with lamp := { claim := some 0 } }⟩,
    by decide⟩,
    ⟨{ hdr := pHdr tLAMP 0, pay := wordsPay [0x08380000#32, 0x090C0000#32, 3#32, 0#32, 0x00300001#32, 0x01020304#32] },
    ⟨[], ((((rs.on F.LMP_CTL_EN).put F.LMP_HEALTH_MASK 0).put F.LMP_STAT_STATE 2).put (F.X_STAT_STATE 2) linkUP)⟩,
    by decide⟩,
    ⟨{ hdr := pHdr tLAMP 0, pay := wordsPay [0x08380000#32, 0x09140000#32, 3#32, 0#32, 0x00700001#32, 0x01020304#32, 0x01020304#32] },
    ⟨[], ((((rs.on F.LMP_CTL_EN).put F.LMP_HEALTH_MASK 0).put F.LMP_STAT_STATE 2).put (F.X_STAT_STATE 2) linkUP)⟩,
    by decide⟩⟩

theorem witness_records_and_partitions :
    (∃ (off v : W32) (s : State), ((s.hub.writeReg stewAcc off.toNat v).isSome)) ∧ (∃ (off v : W32) (s : State),
      ((s.hub.writeReg stewAcc off.toNat v).isNone)) ∧ (∃ (off : W32) (fixed : Bool) (v : W32) (s : State),
      ((s.hub.writeReg stewAcc off.toNat v).isSome)) ∧ (∃ (off : W32) (fixed : Bool) (ws : List W32) (s : State),
      (ws = [] ∨ 60 < ws.length)) ∧ (∃ (off mask v : W32) (t : Nat) (wait : Wait) (s : State), ((s.hub.readReg
      stewAcc off.toNat).2.any fun r => decide (BitVec.ofNat 32 r &&& mask = v))) ∧ (∃ (off mask v : W32) (t : Nat)
      (wait : Wait) (s : State), ((s.hub.readReg stewAcc off.toNat).2.any fun r => decide (BitVec.ofNat 32 r &&&
      mask ≠ v)) ∧ (wait = .met)) ∧ (∃ (off mask v : W32) (t : Nat) (wait : Wait) (s : State), ((s.hub.readReg
      stewAcc off.toNat).2.any fun r => decide (BitVec.ofNat 32 r &&& mask ≠ v)) ∧ (wait = .timeout)) ∧ (∃ (off mask
      v : W32) (t : Nat) (wait : Wait) (vals : List W32) (s : State), ((s.hub.readReg stewAcc off.toNat).2.any fun r
      => decide (BitVec.ofNat 32 r &&& mask ≠ v)) ∧ (wait = .trained vals)) ∧ (∃ (off : W32) (wait : Wait) (s :
      State), ((s.hub.writeReg stewAcc off.toNat 1).any fun k => (k.readReg stewAcc off.toNat).2.any fun r => r % 2
      == 0)) ∧ (∃ (off : W32) (wait : Wait) (s : State), ((s.hub.writeReg stewAcc off.toNat 1).any fun k =>
      (k.readReg stewAcc off.toNat).2.any fun r => r % 2 == 1) ∧ (wait = .timeout)) ∧ (∃ (p : Partition) (s :
      State), (pidMember p.pid = s.hub.member) ∧ (p.raw.length = 256) ∧ (leWord (p.raw.drop 252) = crc32c
      (p.raw.take 252)) ∧ ((leWord p.raw).bits 31 28 = pidKind p.pid) ∧ ((leWord p.raw).bits 27 16 = 0) ∧ (pidKind
      p.pid ≠ 1)) ∧ (∃ (p : Partition) (s : State), (pidMember p.pid = s.hub.member) ∧ (p.raw = []) ∧ (pidKind p.pid
      ≠ 5) ∧ (pidKind p.pid ≠ 7)) ∧ (∃ (p : Partition) (s : State), (pidMember p.pid ≠ s.hub.member)) ∧ (∃ (a :
      Access) (v : W32) (s : State), (s.hub.lets a 0xC0008) ∧ (v.bit 0)) ∧ (∃ (ok : Bool) (vals : List W32) (s :
      State), (s.hub.bit F.DRM_TRAIN_GO) ∧ (s.hub.ldr.dramOwed = false ∨ ok)) ∧ (∃ (vals : List W32) (s : State),
      (s.hub.bit F.DRM_TRAIN_GO) ∧ (s.hub.ldr.dramOwed)) ∧ (∃ (ok : Bool) (vals : List W32) (s : State), (s.hub.bit
      F.DRM_TRAIN_GO = false)) ∧ (∃ (a : Access) (v : W32) (s : State), (s.hub.lets a 0x40020)) :=
  ⟨⟨0xA8000#32, 1, ⟨[], rs⟩, by decide⟩, ⟨0x3FFFFC#32, 1, ⟨[], rs⟩, by decide⟩, ⟨0xA8000#32, false, 1, ⟨[], rs⟩, by
    decide⟩, ⟨0xA8000#32, false, [], ⟨[], rs⟩, by decide⟩, ⟨0#32, 0#32, 0, 5, .met, ⟨[], rs⟩, by decide⟩, ⟨0#32,
    0#32, 1, 5, .met, ⟨[], rs⟩, by decide⟩, ⟨0#32, 0#32, 1, 5, .timeout, ⟨[], rs⟩, by decide⟩, ⟨0#32, 0#32, 1, 5,
    .trained [7], [7], ⟨[], rs⟩, by decide⟩, ⟨0x8502C#32, .timeout, ⟨[], rs⟩, by decide⟩, ⟨0x8502C#32, .timeout,
    ⟨[], rs.on F.DRN_CTL_EN⟩, by decide⟩, ⟨{ pid := 0x20000000#32, raw := endTile, digest := 0, waits := [] }, ⟨[],
    rs⟩, by decide +kernel⟩, ⟨{ pid := 0x20000000#32, raw := [], digest := 0, waits := [] }, ⟨[], rs⟩, by decide⟩,
    ⟨{ pid := 0x24000000#32, raw := [], digest := 0, waits := [] }, ⟨[], rs⟩, by decide⟩, ⟨stew, 3, ⟨[], rs⟩, by
    decide⟩, ⟨true, [], ⟨[], rs.on F.DRM_TRAIN_GO⟩, by decide⟩, ⟨[], ⟨[],
    { rs.on F.DRM_TRAIN_GO with ldr := { rs.ldr with dramOwed := true } }⟩, by decide⟩, ⟨true, [], ⟨[], rs⟩, by
    decide⟩, ⟨stew, 6, ⟨[], rs⟩, by decide⟩⟩

theorem witness_boot_and_trial :
    (∃ (src : BootSource) (s : State), (s.hub.phase ≠ phROM ∨ s.hub.ldr.running)) ∧ (∃ (src : BootSource) (s :
      State), (s.hub.phase = phROM) ∧ (s.hub.ldr.running = false) ∧ (s.hub.bit F.GLB_STRAP_BOOT_SRC = false) ∧
      (s.hub.bcb.trial = 3)) ∧ (∃ (src : BootSource) (s : State), (s.hub.phase = phROM) ∧ (s.hub.ldr.running =
      false) ∧ (s.hub.bit F.GLB_STRAP_BOOT_SRC = false) ∧ (s.hub.bcb.trial = 3) ∧ (s.hub.bLegal (slotOf
      s.hub.bcb.active) = false) ∧ (s.hub.bcb.slot (1 - s.hub.bcb.active) ≠ slCONFIRMED)) ∧ (∃ (a : Access) (s :
      State), (s.hub.lets a 0x40018)) ∧ (∃ (t : Nat) (s : State), (s.hub.ldr.trialEnd = some t) ∧ (t ≤ s.hub.now)) ∧
      (∃ (t : Nat) (s : State), (s.hub.ldr.trialEnd = some t) ∧ (s.hub.now < t)) ∧ (∃ (t : BitVec 64) (s : State),
      (s.hub.ldr.act = some t) ∧ (t = 0 ∨ s.hub.timeCome t)) ∧ (∃ (t : BitVec 64) (s : State), (s.hub.ldr.act =
      none)) ∧ (∃ (ch : Fin 4) (mid : Byte) (s : State), (secureCh ch) ∧ (s.hub.inTrial) ∧ (s.hub.healthyTrial)) ∧
      (∃ (ch : Fin 4) (mid : Byte) (s : State), (secureCh ch) ∧ (s.hub.inTrial = false)) :=
  ⟨⟨{ bundle := [], waits := [] }, ⟨[], rs.put F.CFG_STAT_PHASE phRUN⟩, by decide⟩, ⟨{ bundle := [], waits := [] },
    ⟨[], { rs with ldr := { rs.ldr with bcb := #v[some {}, none] } }⟩, by decide⟩, ⟨{ bundle := [], waits := [] },
    ⟨[], rs⟩, by decide⟩, ⟨stew, ⟨[], rs⟩, by decide⟩, ⟨0, ⟨[],
    { rs with ldr := { rs.ldr with trialEnd := some 0 } }⟩, by decide⟩, ⟨5, ⟨[],
    { rs with ldr := { rs.ldr with trialEnd := some 5 } }⟩, by decide⟩, ⟨0, ⟨[],
    { rs with ldr := { rs.ldr with act := some 0 } }⟩, by decide⟩, ⟨0, ⟨[], rs⟩, by decide⟩, ⟨0, 7, ⟨[],
    { ((rs.put F.GLB_SELF_NODE 4).put F.CFG_STAT_SLOT 0).put F.CFG_STAT_PHASE phTRIAL with ldr := { rs.ldr with running := true, bcb := #v[some { trial := 0, trials := 1 }, none] } }⟩,
    by decide⟩, ⟨0, 7, ⟨[], rs⟩, by decide⟩⟩

theorem witness_update_sessions :
    (∃ (ch : Fin 4) (mid : Byte) (len : Nat) (s : State), (secureCh ch) ∧ (s.hub.ldr.sess = none) ∧ (s.hub.bcb.trial
      = 3)) ∧ (∃ (ch : Fin 4) (mid : Byte) (len : Nat) (x : Sess) (s : State), (secureCh ch) ∧ (s.hub.ldr.sess =
      some x) ∧ (x.who ≠ s.hub.party ch 0x0201 mid)) ∧ (∃ (ch : Fin 4) (mid : Byte) (len : Nat) (s : State),
      (secureCh ch = false)) ∧ (∃ (ch : Fin 4) (mid : Byte) (off : Nat) (d : List Byte) (x : Sess) (s : State),
      (ch.val % 2 = 1) ∧ (secureCh ch) ∧ (s.hub.ldr.sess = some x) ∧ (x.who = s.hub.party ch 0x0202 mid) ∧ (off %
      4096 = 0) ∧ (off < x.len) ∧ (d.length = 4096) ∧ (x.got.contains off = false)) ∧ (∃ (ch : Fin 4) (mid : Byte)
      (off : Nat) (b : Bulk) (s : State), (secureCh ch) ∧ (s.hub.ldr.sess = none)) ∧ (∃ (ch : Fin 4) (mid : Byte) (x
      : Sess) (s : State), (secureCh ch) ∧ (s.hub.ldr.sess = some x) ∧ (x.who = s.hub.party ch 0x0203 mid) ∧
      ((List.range ((x.len + 4095) / 4096)).all fun k => x.got.contains (4096 * k)) ∧ (s.hub.bLength (slotOf x.slot)
      = x.len) ∧ (s.hub.bLegal (slotOf x.slot))) ∧ (∃ (ch : Fin 4) (mid : Byte) (s : State), (secureCh ch) ∧
      (s.hub.ldr.sess = none)) ∧ (∃ (ch : Fin 4) (mid : Byte) (t : BitVec 64) (s : State), (secureCh ch) ∧
      (s.hub.mayActivate) ∧ (s.hub.ringBoot = false)) ∧ (∃ (ch : Fin 4) (mid : Byte) (t : BitVec 64) (s : State),
      (secureCh ch) ∧ (s.hub.mayActivate = false)) ∧ (∃ (ch : Fin 4) (mid : Byte) (t : BitVec 64) (s : State),
      (secureCh ch) ∧ (s.hub.ldr.act = some t)) ∧ (∃ (ch : Fin 4) (mid : Byte) (k : Nat) (s : State), (secureCh ch)
      ∧ (s.hub.mayActivate) ∧ (s.hub.ldr.running) ∧ (s.hub.slot < 2) ∧ (s.hub.bcb.slot s.hub.slot = slCONFIRMED) ∧
      (s.hub.bcb.trial = 3) ∧ (s.hub.onlyLive (slotOf s.hub.inactive) (slotOf s.hub.slot)) ∧ (((s.hub.changed
      (slotOf s.hub.inactive) (slotOf s.hub.slot)).map fun p => p.tiles).foldl (· + ·) 0 ≤ 1024) ∧
      (s.hub.gno.t.nanos + (s.hub.leadMs + 50) * 1000000 ≤ s.hub.drnBase + k * s.hub.drnPer) ∧ (s.hub.bit
      F.DRN_CTL_EN)) ∧ (∃ (w : List Wait) (l : Live) (s : State), (s.hub.ldr.live = some l) ∧ (l.locked = false) ∧
      (s.hub.liveAt l ≤ s.hub.gno.t.nanos + s.hub.leadMs * 1000000) ∧ (s.hub.changed (slotOf l.slot) (slotOf
      s.hub.slot) = [])) ∧ (∃ (w : List Wait) (l : Live) (s : State), (s.hub.ldr.live = some l) ∧ (l.locked ∨
      s.hub.gno.t.nanos + s.hub.leadMs * 1000000 < s.hub.liveAt l)) ∧ (∃ (w : List Wait) (s : State),
      (s.hub.ldr.live = none)) ∧ (∃ (w : List Wait) (l : Live) (s : State), (s.hub.ldr.live = some l) ∧ (l.locked) ∧
      (l.drnDone = false) ∧ (s.hub.liveAt l ≤ s.hub.gno.t.nanos + s.hub.drnPer) ∧ (s.hub.gno.t.nanos < s.hub.liveAt
      l) ∧ (s.hub.changed (slotOf l.slot) (slotOf s.hub.slot) = [])) ∧ (∃ (w : List Wait) (l : Live) (s : State),
      (s.hub.ldr.live = some l) ∧ (l.locked) ∧ (l.drnDone = false) ∧ (s.hub.liveAt l ≤ s.hub.gno.t.nanos)) ∧ (∃ (l :
      Live) (s : State), (s.hub.ldr.live = some l) ∧ (l.bad = false) ∧ (l.locked) ∧ (l.drone = false ∨ l.drnDone) ∧
      (l.slot < 3) ∧ (s.hub.liveAt l ≤ s.hub.gno.t.nanos)) ∧ (∃ (l : Live) (s : State), (s.hub.ldr.live = some l) ∧
      (l.bad ∨ l.locked = false ∨ (l.drone ∧ l.drnDone = false)) ∧ (s.hub.liveAt l ≤ s.hub.gno.t.nanos)) ∧ (∃ (l :
      Live) (s : State), (s.hub.ldr.live = some l) ∧ (s.hub.gno.t.nanos < s.hub.liveAt l)) ∧ (∃ (ch : Fin 4) (mid :
      Byte) (mask : BitVec 8) (w : List Wait) (s : State), (secureCh ch) ∧ (s.hub.ldr.running = false)) ∧ (∃ (ch :
      Fin 4) (mid : Byte) (c : Fin 8) (w : List Wait) (s : State), (secureCh ch) ∧ (s.hub.ldr.running) ∧
      (s.hub.clusterPresent c) ∧ ((s.hub.bPart (slotOf s.hub.slot) 5 c).isSome) ∧ (s.hub.domOn (18 + c)) ∧
      (s.hub.inReset c = false)) ∧ (∃ (x : Sess) (s : State), (s.hub.ldr.sess = some x) ∧ (x.last + 24000000000 ≤
      s.hub.now)) ∧ (∃ (x : Sess) (s : State), (s.hub.ldr.sess = some x) ∧ (s.hub.now < x.last + 24000000000)) :=
  ⟨⟨0, 7, 4096, ⟨[], rs⟩, by decide⟩, ⟨0, 7, 4096, { who := { ch := 1 }, slot := 0, len := 4, last := 0 }, ⟨[],
    { rs with ldr := { rs.ldr with sess := some { who := { ch := 1 }, slot := 0, len := 4, last := 0 } } }⟩, by
    decide⟩, ⟨2, 7, 4096, ⟨[], rs⟩, by decide⟩, ⟨1, 7, 4096, List.replicate 4096 5,
    { who := { ch := 1 }, slot := 1, len := 8192, last := 0 }, ⟨[],
    { rs with ldr := { rs.ldr with sess := some { who := { ch := 1 }, slot := 1, len := 8192, last := 0 } } }⟩, by
    decide +kernel⟩, ⟨1, 7, 4096, .inline [], ⟨[], rs⟩, by decide⟩, ⟨0, 7,
    { who := { ch := 0 }, slot := 1, len := 4096, got := [0], last := 0 }, ⟨[],
    { rs with ldr := { rs.ldr with sess := some { who := { ch := 0 }, slot := 1, len := 4096, got := [0], last := 0 }, store := #v[[], flashPut [] 0 ([0x54474231#32, 1, 4096, 0, 0, 0].flatMap leBytes), []] } }⟩,
    by decide⟩, ⟨0, 7, ⟨[], rs⟩, by decide⟩, ⟨0, 7, 5, ⟨[], rs⟩, by decide⟩, ⟨0, 7, 5, ⟨[],
    { rs with ldr := { rs.ldr with sess := some { who := { ch := 1 }, slot := 1, len := 8192, last := 0 } } }⟩, by
    decide⟩, ⟨0, 7, 5, ⟨[], { rs with ldr := { rs.ldr with act := some 5 } }⟩, by decide⟩, ⟨0, 7, 100000000, ⟨[],
    { (rs.on F.DRN_CTL_EN).put F.CFG_STAT_SLOT 0 with ldr := { rs.ldr with running := true, bcb := #v[some { a := 2, b := 1 }, none] } }⟩,
    by decide +kernel⟩, ⟨[], { k := 9, slot := 1, clus := 0, cores := 0, drone := false }, ⟨[],
    { rs with ldr := { rs.ldr with live := some { k := 9, slot := 1, clus := 0, cores := 0, drone := false } } }⟩,
    by decide +kernel⟩, ⟨[], { k := 9, slot := 1, clus := 0, cores := 0, drone := false, locked := true }, ⟨[],
    { rs with ldr := { rs.ldr with live := some { k := 9, slot := 1, clus := 0, cores := 0, drone := false, locked := true } } }⟩,
    by decide⟩, ⟨[], ⟨[], rs⟩, by decide⟩, ⟨[],
    { k := 1, slot := 1, clus := 0, cores := 0, drone := false, locked := true }, ⟨[],
    { rs with ldr := { rs.ldr with live := some { k := 1, slot := 1, clus := 0, cores := 0, drone := false, locked := true } } }⟩,
    by decide +kernel⟩, ⟨[], { k := 9, slot := 1, clus := 0, cores := 0, drone := false, locked := true }, ⟨[],
    { { rs with ldr := { rs.ldr with live := some { k := 9, slot := 1, clus := 0, cores := 0, drone := false, locked := true } } } with gno := { t := { sec := 9 } } }⟩,
    by decide⟩, ⟨{ k := 9, slot := 1, clus := 0, cores := 0, drone := false, locked := true }, ⟨[],
    { { rs with ldr := { rs.ldr with live := some { k := 9, slot := 1, clus := 0, cores := 0, drone := false, locked := true } } } with gno := { t := { sec := 9 } } }⟩,
    by decide⟩, ⟨{ k := 9, slot := 1, clus := 0, cores := 0, drone := false }, ⟨[],
    { { rs with ldr := { rs.ldr with live := some { k := 9, slot := 1, clus := 0, cores := 0, drone := false } } } with gno := { t := { sec := 9 } } }⟩,
    by decide⟩, ⟨{ k := 9, slot := 1, clus := 0, cores := 0, drone := false }, ⟨[],
    { rs with ldr := { rs.ldr with live := some { k := 9, slot := 1, clus := 0, cores := 0, drone := false } } }⟩,
    by decide⟩, ⟨0, 7, 1, [], ⟨[], rs⟩, by decide⟩, ⟨0, 7, 0, [], ⟨[],
    { rs with ldr := { rs.ldr with running := true, store := #v[flashPut (flashPut [] 0 ([0x54474231#32, 1, 4096, 0, 0, 1].flatMap leBytes)) 64 ([0x50000000#32, 1, 1].flatMap leBytes), [], []] } }⟩,
    by decide +kernel⟩, ⟨{ who := { ch := 1 }, slot := 1, len := 8192, last := 0 }, ⟨[],
    { { rs with ldr := { rs.ldr with sess := some { who := { ch := 1 }, slot := 1, len := 8192, last := 0 } } } with now := 24000000000 }⟩,
    by decide⟩, ⟨{ who := { ch := 1 }, slot := 1, len := 8192, last := 0 }, ⟨[],
    { rs with ldr := { rs.ldr with sess := some { who := { ch := 1 }, slot := 1, len := 8192, last := 0 } } }⟩, by
    decide⟩⟩

theorem witness_steward_commands :
    (∃ (a : Access) (k : Fin 4) (v : W32) (s : State), (s.hub.lets a (mbxBase k + 8)) ∧ (s.hub.compat k = false) ∧
      ((s.hub.mbx[k]).inq.length < 8)) ∧ (∃ (a : Access) (k : Fin 4) (v : W32) (s : State), (s.hub.lets a (mbxBase k
      + 8)) ∧ (s.hub.compat k = false) ∧ (8 ≤ (s.hub.mbx[k]).inq.length)) ∧ (∃ (a : Access) (k : Fin 4) (v : W32) (s
      : State), (s.hub.lets a (mbxBase k + 8)) ∧ (s.hub.compat k)) ∧ (∃ (a : Access) (k : Fin 4) (w : W32) (r : List
      W32) (s : State), (s.hub.lets a (mbxBase k + 0xC) false) ∧ (s.hub.compat k = false) ∧ ((s.hub.mbx[k]).outq = w
      :: r)) ∧ (∃ (a : Access) (k : Fin 4) (s : State), (s.hub.lets a (mbxBase k + 0xC) false) ∧
      ((s.hub.mbx[k]).outq = [])) ∧ (∃ (a : Access) (v : W32) (s : State), (s.hub.lets a 0x58020) ∧ (s.hub.compat 2)
      ∧ (a.req ≠ 0) ∧ (s.hub.bit (F.MBX_WSTAT_FULL 2) = false)) ∧ (∃ (a : Access) (v : W32) (s : State), (s.hub.lets
      a 0x58020) ∧ (s.hub.compat 2) ∧ (a.req = 0) ∧ (s.hub.bit (F.MBX_WSTAT_RFULL 2) = false)) ∧ (∃ (a : Access) (v
      : W32) (s : State), (s.hub.lets a 0x58020) ∧ (s.hub.compat 2) ∧ (a.req ≠ 0) ∧ (s.hub.bit (F.MBX_WSTAT_FULL
      2))) ∧ (∃ (a : Access) (v : W32) (s : State), (s.hub.lets a 0x58020) ∧ (s.hub.compat 2) ∧ (a.req = 0) ∧
      (s.hub.bit (F.MBX_WSTAT_RFULL 2))) ∧ (∃ (a : Access) (s : State), (s.hub.lets a 0x58020 false) ∧ (s.hub.compat
      2) ∧ (a.req = 0)) ∧ (∃ (a : Access) (s : State), (s.hub.lets a 0x58020 false) ∧ (s.hub.compat 2) ∧ (a.req ≠
      0)) ∧ (∃ (f : Frame) (s : State), ((f.word 0).bits 17 16 = 3) ∧ (s.hub.listAdmits (s.hub.fld F.SEC_CTL_ALLOW3)
      (s.hub.srcNode f.hdr.snode) = false)) ∧ (∃ (f : Frame) (s : State), ((f.word 0).bits 17 16 = 1) ∧
      (s.hub.listAdmits (s.hub.fld F.SEC_CTL_ALLOW1) (s.hub.srcNode f.hdr.snode) = false)) ∧ (∃ (f : Frame) (s :
      State), ((f.word 0).bits 31 28 ≠ 1) ∧ ((f.word 0).bits 17 16 = 1 → s.hub.listAdmits (s.hub.fld
      F.SEC_CTL_ALLOW1) (s.hub.srcNode f.hdr.snode)) ∧ ((f.word 0).bits 17 16 = 3 → s.hub.listAdmits (s.hub.fld
      F.SEC_CTL_ALLOW3) (s.hub.srcNode f.hdr.snode))) ∧ (∃ (f : Frame) (s : State), ((f.word 0).bits 31 28 = 1) ∧
      ((f.word 0).bits 17 16 = 3) ∧ ((f.word 0).bit 27 = false) ∧ (f.pay.length = 8) ∧ ((f.word 1).bits 3 0 = 0) ∧
      (s.hub.listAdmits (s.hub.fld F.SEC_CTL_ALLOW3) (s.hub.srcNode f.hdr.snode)) ∧ ((s.hub.mbx[(3 : Fin
      4)]).opened) ∧ ((s.hub.mbx[(3 : Fin 4)]).inq.length < 8)) ∧ (∃ (f : Frame) (s : State), ((f.word 0).bits 31 28
      = 1) ∧ ((f.word 0).bits 17 16 = 3) ∧ ((f.word 0).bit 27 = false) ∧ (f.pay.length = 8) ∧ ((f.word 1).bits 3 0 =
      0) ∧ (s.hub.listAdmits (s.hub.fld F.SEC_CTL_ALLOW3) (s.hub.srcNode f.hdr.snode)) ∧ ((s.hub.mbx[(3 : Fin
      4)]).opened = false)) ∧ (∃ (f : Frame) (s : State), ((f.word 0).bits 31 28 = 1) ∧ ((f.word 0).bits 17 16 = 1)
      ∧ ((f.word 0).bit 27 = false) ∧ (f.pay.length = 8) ∧ ((f.word 1).bits 3 0 = 0) ∧ (s.hub.listAdmits (s.hub.fld
      F.SEC_CTL_ALLOW1) (s.hub.srcNode f.hdr.snode)) ∧ (s.hub.bit F.SEC_CTL_AUTH)) ∧ (∃ (ch : Fin 4) (mid : Byte)
      (first count : Nat) (e : LogEntry) (s : State), (count = 1) ∧ (s.hub.err.log[first]? = some e)) ∧ (∃ (ch : Fin
      4) (mid : Byte) (first count : Nat) (s : State), (count = 1) ∧ (s.hub.err.log[first]? = none)) ∧ (∃ (ch : Fin
      4) (mid : Byte) (first count : Nat) (s : State), (1 < count)) ∧ (∃ (ch : Fin 4) (mid : Byte) (s : State),
      (secureCh ch)) ∧ (∃ (ch : Fin 4) (mid : Byte) (s : State), (secureCh ch = false)) ∧ (∃ (ch : Fin 4) (mid :
      Byte) (addr : FabAddr) (s : State), (secureCh ch) ∧ ((s.hub.mbxTake ch 0x0101 mid).1.ownReg addr)) ∧ (∃ (ch :
      Fin 4) (mid : Byte) (addr : FabAddr) (s : State), (secureCh ch) ∧ ((s.hub.mbxTake ch 0x0101 mid).1.ownReg addr
      = false)) ∧ (∃ (ch : Fin 4) (mid : Byte) (addr : FabAddr) (s : State), (secureCh ch = false)) ∧ (∃ (ch : Fin
      4) (mid : Byte) (addr : FabAddr) (v : W32) (s : State), (secureCh ch) ∧ ((s.hub.mbxTake ch 0x0102
      mid).1.ownReg addr)) ∧ (∃ (ch : Fin 4) (mid : Byte) (addr : FabAddr) (v : W32) (s : State), (secureCh ch) ∧
      ((s.hub.mbxTake ch 0x0102 mid).1.ownReg addr = false)) ∧ (∃ (ch : Fin 4) (mid : Byte) (addr : FabAddr) (v :
      W32) (s : State), (secureCh ch = false)) ∧ (∃ (ch : Fin 4) (mid : Byte) (t : BitVec 64) (s : State), (secureCh
      ch) ∧ (s.hub.isMaster) ∧ (((s.hub.gno.t.units + 1000000 * 2 ^ 24 : Nat) : Int) ≤ pickTime s.hub.gno.t t)) ∧ (∃
      (ch : Fin 4) (mid : Byte) (t : BitVec 64) (s : State), (secureCh ch) ∧ (s.hub.isMaster) ∧ (pickTime
      s.hub.gno.t t < ((s.hub.gno.t.units + 1000000 * 2 ^ 24 : Nat) : Int))) ∧ (∃ (ch : Fin 4) (mid : Byte) (t :
      BitVec 64) (s : State), (secureCh ch) ∧ (s.hub.isMaster = false)) ∧ (∃ (ch : Fin 4) (mid : Byte) (tile : Nat)
      (d : List Byte) (s : State), (ch = 0) ∧ (((s.hub.mbxTake ch 0x0401 mid).1.bulkData 0 (.window tile) 256).2 =
      .inr d) ∧ ((leWord ((d.drop 128).drop 16)).bits 31 6 = 0)) ∧ (∃ (ch : Fin 4) (mid : Byte) (tile : Nat) (d :
      List Byte) (s : State), (ch = 0) ∧ (((s.hub.mbxTake ch 0x0401 mid).1.bulkData 0 (.window tile) 256).2 = .inr
      d) ∧ ((leWord ((d.drop 128).drop 16)).bits 31 6 ≠ 0)) ∧ (∃ (ch : Fin 4) (mid : Byte) (tile : Nat) (s : State),
      (ch ≠ 0)) ∧ (∃ (ch : Fin 4) (mid : Byte) (k : BitVec 2) (s : State), (secureCh ch) ∧ ((s.hub.ldr.running &&
      (s.hub.bKey (slotOf s.hub.slot)).val == k.toNat) = false) ∧ ((s.hub.fuse.revoked ||| BitVec.twoPow 4 k.toNat)
      ≠ 0xF#4)) ∧ (∃ (ch : Fin 4) (mid : Byte) (k : BitVec 2) (s : State), (secureCh ch) ∧ ((s.hub.ldr.running &&
      (s.hub.bKey (slotOf s.hub.slot)).val == k.toNat) ∨ (s.hub.fuse.revoked ||| BitVec.twoPow 4 k.toNat) = 0xF#4))
      ∧ (∃ (ch : Fin 4) (mid : Byte) (k : BitVec 2) (s : State), (secureCh ch = false)) ∧ (∃ (s : State),
      (s.hub.ringBoot) ∧ (s.hub.node ≠ 0) ∧ (∀ t, s.hub.ldr.waitAt = some t → t + 400000000 ≤ s.hub.now)) ∧ (∃ (s :
      State), (s.hub.ringBoot = false ∨ s.hub.node = 0 ∨ (s.hub.ldr.waitAt.any fun t => decide (s.hub.now < t +
      400000000)))) :=
  ⟨⟨host, 0, 0x00010700#32, ⟨[], rs⟩, by decide⟩, ⟨host, 0, 5, ⟨[], rs.modMbx 0 fun m =>
    { m with inq := List.replicate 8 15 }⟩, by decide⟩, ⟨host, 2, 5, ⟨[], rs.on (F.MBX_CTL_COMPAT 2)⟩, by decide⟩,
    ⟨host, 0, 9, [8], ⟨[], rs.modMbx 0 fun m => { m with outq := [9, 8] }⟩, by decide⟩, ⟨host, 0, ⟨[], rs⟩, by
    decide⟩, ⟨host, 7, ⟨[], (rs.on (F.MBX_CTL_COMPAT 2))⟩, by decide⟩, ⟨stew, 7, ⟨[], (rs.on (F.MBX_CTL_COMPAT 2))⟩,
    by decide⟩, ⟨host, 7, ⟨[], (rs.on (F.MBX_CTL_COMPAT 2)).on (F.MBX_WSTAT_FULL 2)⟩, by decide⟩, ⟨stew, 7, ⟨[],
    (rs.on (F.MBX_CTL_COMPAT 2)).on (F.MBX_WSTAT_RFULL 2)⟩, by decide⟩, ⟨stew, ⟨[], (rs.on (F.MBX_CTL_COMPAT 2))⟩,
    by decide⟩, ⟨host, ⟨[], (rs.on (F.MBX_CTL_COMPAT 2))⟩, by decide⟩,
    ⟨{ hdr := pHdr tMGMT 0, pay := wordsPay [0x10030000#32, 0x00010500#32] }, ⟨[], rs.put F.SEC_CTL_ALLOW3 1⟩, by
    decide⟩, ⟨{ hdr := pHdr tMGMT 0, pay := wordsPay [0x10010000#32, 0x00010500#32] }, ⟨[], rs.put F.SEC_CTL_ALLOW1
    1⟩, by decide⟩, ⟨{ hdr := pHdr tMGMT 0, pay := wordsPay [0x20010000#32, 0x00010500#32] }, ⟨[], rs⟩, by decide⟩,
    ⟨{ hdr := pHdr tMGMT 0, pay := wordsPay [0x10030000#32, 0x00010500#32] }, ⟨[], rs.modMbx 3 fun m =>
    { m with opened := true }⟩, by decide⟩,
    ⟨{ hdr := pHdr tMGMT 0, pay := wordsPay [0x10030000#32, 0x00010500#32] }, ⟨[], rs⟩, by decide⟩,
    ⟨{ hdr := pHdr tMGMT 0, pay := wordsPay [0x10010000#32, 0x00010500#32] }, ⟨[], rs.on F.SEC_CTL_AUTH⟩, by
    decide⟩, ⟨2, 7, 0, 1, rs.entry 1 0 5 0 0 0 0, ⟨[],
    { rs with err := { rs.err with log := [rs.entry 1 0 5 0 0 0 0] } }⟩, by decide⟩, ⟨2, 7, 4, 1, ⟨[], rs⟩, by
    decide⟩, ⟨2, 7, 4, 2, ⟨[], rs⟩, by decide⟩, ⟨0, 7, ⟨[], rs⟩, by decide⟩, ⟨2, 7, ⟨[], rs⟩, by decide⟩, ⟨0, 7, 0,
    ⟨[], rs⟩, by decide⟩, ⟨0, 7, BitVec.ofNat 48 1, ⟨[], rs⟩, by decide⟩, ⟨2, 7, 0, ⟨[], rs⟩, by decide⟩, ⟨0, 7,
    BitVec.ofNat 48 0xA8000, 1, ⟨[], rs⟩, by decide⟩, ⟨0, 7, BitVec.ofNat 48 1, 1, ⟨[], rs⟩, by decide⟩, ⟨2, 7, 0,
    1, ⟨[], rs⟩, by decide⟩, ⟨0, 7, GTime.encode { sec := 5 }, ⟨[], rs.put F.RNG_STAT_JOIN jnMASTER⟩, by decide⟩,
    ⟨0, 7, 0, ⟨[], rs.put F.RNG_STAT_JOIN jnMASTER⟩, by decide⟩, ⟨0, 7, 0, ⟨[], rs⟩, by decide⟩, ⟨0, 7, 0,
    List.replicate 256 0, ⟨[], (rs.put (F.TILE_PART_SIZE 2) 4)⟩, by decide +kernel⟩, ⟨0, 7, 0, List.replicate 144 0
    ++ [0x40] ++ List.replicate 111 0, ⟨[],
    { (rs.put (F.TILE_PART_SIZE 2) 4) with tl := { rs.tl with mem := [(144, 0x40)], chk := [(0, 0x2a8ee7fa#32)] } }⟩,
    by decide +kernel⟩, ⟨1, 7, 0, ⟨[], rs⟩, by decide⟩, ⟨0, 7, 1, ⟨[], rs⟩, by decide⟩, ⟨0, 7, 1, ⟨[],
    { rs with fuse := { rs.fuse with revoked := 0xD } }⟩, by decide⟩, ⟨2, 7, 1, ⟨[], rs⟩, by decide⟩, ⟨⟨[], (rs.on
    F.GLB_STRAP_BOOT_SRC).put F.GLB_SELF_NODE 5⟩, by decide⟩, ⟨⟨[], rs⟩, by decide⟩⟩

theorem witness_host_port_commands :
    (∃ (s : State), (s.hub.now < s.hub.hst.rstAt + 8000000)) ∧ (∃ (s : State), (s.hub.hst.rstAt + 8000000 ≤
      s.hub.now)) ∧ (∃ (off : W32) (v : W32) (s : State), (s.hub.hostRuns) ∧ (off.toNat % 4 = 0) ∧ (off.toNat <
      0x200000)) ∧ (∃ (off : W32) (s : State), (s.hub.hostRuns) ∧ (off.toNat % 4 = 0) ∧ (off.toNat < 0x200000)) ∧ (∃
      (off : W32) (len : Nat) (s : State), (s.hub.hostRuns) ∧ (len ≠ 4 ∨ off.toNat % 4 ≠ 0 ∨ 0x200000 ≤ off.toNat))
      ∧ (∃ (off : W32) (len : Nat) (v : W32) (s : State), (s.hub.hostRuns) ∧ (len ≠ 4 ∨ off.toNat % 4 ≠ 0 ∨ 0x200000
      ≤ off.toNat)) ∧ (∃ (off : W32) (len : Nat) (wr : Option W32) (s : State), (s.hub.hostRuns = false)) ∧ (∃ (off
      : W32) (len : Nat) (d : List Byte) (s : State), (s.hub.hostRuns) ∧ (0 < d.length ∧ d.length ≤ 4096) ∧
      (off.toNat % 4096 + d.length ≤ 4096) ∧ (off.toNat + d.length ≤ s.hub.fld (F.TILE_PART_SIZE 2) * 256) ∧
      (s.hub.banksOn (s.hub.fld (F.TILE_PART_BASE 2) * 256 + off.toNat) d.length)) ∧ (∃ (off : W32) (len : Nat) (s :
      State), (s.hub.hostRuns) ∧ (0 < len ∧ len ≤ 4096) ∧ (off.toNat % 4096 + len ≤ 4096) ∧ (off.toNat + len ≤
      s.hub.fld (F.TILE_PART_SIZE 2) * 256) ∧ (s.hub.banksOn (s.hub.fld (F.TILE_PART_BASE 2) * 256 + off.toNat)
      len)) ∧ (∃ (off : W32) (len : Nat) (s : State), (s.hub.hostRuns) ∧ (s.hub.fld (F.TILE_PART_SIZE 2) * 256 <
      off.toNat + len)) ∧ (∃ (i : Fin 8) (d : TxDesc) (s : State), (s.hub.txReady i) ∧ (txKind d = 0) ∧ (txLen d ≤
      d.buf.length) ∧ ((TxDesc.w d 3).bit 27) ∧ ((TxDesc.w d 3).bit 26) ∧ (14 ≤ txLen d ∧ txLen d ≤ 9212) ∧ (txDest
      d ≤ 7)) ∧ (∃ (i : Fin 8) (d : TxDesc) (s : State), (s.hub.txReady i) ∧ (txKind d = 0) ∧ (txLen d ≤
      d.buf.length) ∧ ((TxDesc.w d 3).bit 27) ∧ ((TxDesc.w d 3).bit 26) ∧ (0 < txLen d ∧ txLen d ≤ 9216) ∧ (txLen d
      < 14 ∨ 9212 < txLen d ∨ 7 < txDest d)) ∧ (∃ (i : Fin 8) (d : TxDesc) (s : State), (s.hub.txReady i) ∧ (txKind
      d = 1) ∧ (txLen d ≤ d.buf.length) ∧ ((TxDesc.w d 3).bit 27) ∧ ((TxDesc.w d 3).bit 26) ∧ (0 < txLen d ∧ txLen d
      ≤ 9216) ∧ (txDest d ≤ 3)) ∧ (∃ (i : Fin 8) (d : TxDesc) (s : State), (s.hub.txReady i) ∧ (txKind d = 2) ∧
      (txLen d ≤ d.buf.length) ∧ ((TxDesc.w d 3).bit 27) ∧ ((TxDesc.w d 3).bit 26) ∧ (0 < txLen d ∧ txLen d ≤ 9216)
      ∧ (txDest d ≤ 7) ∧ (isWrite ((TxDesc.w d 4).extractLsb' 0 4) = false)) ∧ (∃ (i : Fin 8) (d : TxDesc) (s :
      State), (s.hub.txReady i) ∧ (txKind d = 2) ∧ (txLen d ≤ d.buf.length) ∧ ((TxDesc.w d 3).bit 27) ∧ ((TxDesc.w d
      3).bit 26) ∧ (0 < txLen d ∧ txLen d ≤ 9216) ∧ (txDest d ≤ 7) ∧ (isWrite ((TxDesc.w d 4).extractLsb' 0 4)) ∧
      (txLen d = (TxDesc.w d 4).bits 31 20 + 1)) ∧ (∃ (i : Fin 8) (d : TxDesc) (s : State), (s.hub.txReady i) ∧
      (txKind d = 3) ∧ (txLen d ≤ d.buf.length) ∧ ((TxDesc.w d 3).bit 27) ∧ ((TxDesc.w d 3).bit 26) ∧ (8 ≤ txLen d ∧
      txLen d ≤ 128) ∧ (txLen d % 8 = 0) ∧ (txDest d ≤ 7)) ∧ (∃ (i : Fin 8) (d : TxDesc) (s : State), (s.hub.txReady
      i) ∧ (txKind d = 0) ∧ (txLen d ≤ d.buf.length) ∧ (txLen d = 0 ∨ 9216 < txLen d ∨ ((TxDesc.w d 3).bit 27 =
      false ∧ s.hub.hst.open_[i] = false))) ∧ (∃ (i : Fin 8) (d : TxDesc) (s : State), (s.hub.txReady i = false)) ∧
      (∃ (i : Fin 8) (d : TxDesc) (s : State), (s.hub.txReady i) ∧ (txKind d = 0) ∧ (txLen d ≤ d.buf.length) ∧ (0 <
      txLen d ∧ txLen d ≤ 9216) ∧ ((TxDesc.w d 3).bit 27) ∧ ((TxDesc.w d 3).bit 26 = false)) ∧ (∃ (i : Fin 8) (d :
      TxDesc) (s : State), (s.hub.txReady i) ∧ (txKind d = 1) ∧ (txLen d ≤ d.buf.length) ∧ (txLen d = 0 ∨ 9216 <
      txLen d ∨ ((TxDesc.w d 3).bit 27 = false ∧ s.hub.hst.open_[i] = false))) ∧ (∃ (i : Fin 8) (d : TxDesc) (s :
      State), (s.hub.txReady i = false)) ∧ (∃ (i : Fin 8) (d : TxDesc) (s : State), (s.hub.txReady i) ∧ (txKind d =
      1) ∧ (txLen d ≤ d.buf.length) ∧ (0 < txLen d ∧ txLen d ≤ 9216) ∧ ((TxDesc.w d 3).bit 27) ∧ ((TxDesc.w d 3).bit
      26 = false)) ∧ (∃ (i : Fin 8) (d : TxDesc) (s : State), (s.hub.txReady i) ∧ (txKind d = 2) ∧ (txLen d ≤
      d.buf.length) ∧ (txLen d = 0 ∨ 9216 < txLen d ∨ ((TxDesc.w d 3).bit 27 = false ∧ s.hub.hst.open_[i] = false)))
      ∧ (∃ (i : Fin 8) (d : TxDesc) (s : State), (s.hub.txReady i = false)) ∧ (∃ (i : Fin 8) (d : TxDesc) (s :
      State), (s.hub.txReady i) ∧ (txKind d = 2) ∧ (txLen d ≤ d.buf.length) ∧ (0 < txLen d ∧ txLen d ≤ 9216) ∧
      ((TxDesc.w d 3).bit 27) ∧ ((TxDesc.w d 3).bit 26 = false)) ∧ (∃ (i : Fin 8) (d : TxDesc) (s : State),
      (s.hub.txReady i) ∧ (txKind d = 3) ∧ (txLen d ≤ d.buf.length) ∧ (txLen d = 0 ∨ 9216 < txLen d ∨ ((TxDesc.w d
      3).bit 27 = false ∧ s.hub.hst.open_[i] = false))) ∧ (∃ (i : Fin 8) (d : TxDesc) (s : State), (s.hub.txReady i
      = false)) ∧ (∃ (i : Fin 8) (d : TxDesc) (s : State), (s.hub.txReady i) ∧ (txKind d = 3) ∧ (txLen d ≤
      d.buf.length) ∧ (0 < txLen d ∧ txLen d ≤ 9216) ∧ ((TxDesc.w d 3).bit 27) ∧ ((TxDesc.w d 3).bit 26 = false)) ∧
      (∃ (i : Fin 8) (d : TxDesc) (s : State), (s.hub.txReady i) ∧ (txKind d = 1) ∧ (txLen d ≤ d.buf.length) ∧
      ((TxDesc.w d 3).bit 27) ∧ ((TxDesc.w d 3).bit 26) ∧ (3 < txDest d)) ∧ (∃ (i : Fin 8) (d : TxDesc) (s : State),
      (s.hub.txReady i) ∧ (txKind d = 2) ∧ (txLen d ≤ d.buf.length) ∧ ((TxDesc.w d 3).bit 27) ∧ ((TxDesc.w d 3).bit
      26) ∧ (7 < txDest d)) ∧ (∃ (i : Fin 8) (d : TxDesc) (s : State), (s.hub.txReady i) ∧ (txKind d = 3) ∧ (txLen d
      ≤ d.buf.length) ∧ ((TxDesc.w d 3).bit 27) ∧ ((TxDesc.w d 3).bit 26) ∧ (7 < txDest d)) ∧ (∃ (i : Fin 8) (f :
      Frame) (n : Nat) (r : List Nat) (s : State), (s.hub.hostRuns) ∧ (s.hub.bit (F.HST_RXR_CTL_EN i)) ∧ (0 <
      s.hub.rxFree i) ∧ (s.hub.hostHeads = []) ∧ (f.hdr.typ = tTUNNEL) ∧ ((f.word 0).bits 23 16 = i.val) ∧
      ((f.pay.drop 4).length ≤ n)) ∧ (∃ (i : Fin 8) (f : Frame) (n : Nat) (r : List Nat) (s : State),
      (s.hub.hostRuns) ∧ (s.hub.bit (F.HST_RXR_CTL_EN i)) ∧ (0 < s.hub.rxFree i) ∧ (s.hub.hostHeads = []) ∧
      (f.hdr.typ = tTUNNEL) ∧ ((f.word 0).bits 23 16 = i.val) ∧ ((f.pay.drop 4).length ≤ n) ∧ (s.hub.bit
      (F.HST_RXR_CTL_DELIVER_BAD i) = false)) ∧ (∃ (i : Fin 8) (f : Frame) (n : Nat) (r : List Nat) (s : State),
      (s.hub.hostRuns) ∧ (s.hub.bit (F.HST_RXR_CTL_EN i)) ∧ (0 < s.hub.rxFree i) ∧ (s.hub.hostHeads = []) ∧
      (f.hdr.typ = tTUNNEL) ∧ ((f.word 0).bits 23 16 = i.val) ∧ (r = []) ∧ (n < (f.pay.drop 4).length) ∧ (s.hub.bit
      (F.HST_RXR_CTL_DELIVER_BAD i) = false)) ∧ (∃ (i : Fin 8) (f : Frame) (n : Nat) (r : List Nat) (s : State),
      (s.hub.hostRuns) ∧ (s.hub.bit (F.HST_RXR_CTL_EN i)) ∧ (0 < s.hub.rxFree i) ∧ (s.hub.hostHeads = []) ∧
      (f.hdr.typ = tTUNNEL) ∧ ((f.word 0).bits 23 16 = i.val) ∧ (r = []) ∧ (n < (f.pay.drop 4).length) ∧ (s.hub.bit
      (F.HST_RXR_CTL_DELIVER_BAD i))) ∧ (∃ (i : Fin 8) (f : Frame) (n : Nat) (r : List Nat) (c : HostCpl) (q : List
      HostCpl) (s : State), (s.hub.hostRuns) ∧ (s.hub.bit (F.HST_RXR_CTL_EN i)) ∧ (0 < s.hub.rxFree i) ∧ (f.hdr.typ
      = tCPL) ∧ (s.hub.hst.cpl[i] = c :: q) ∧ (c.data.length ≤ n)) ∧ (∃ (i : Fin 8) (f : Frame) (n : Nat) (r : List
      Nat) (s : State), (s.hub.hostRuns = false ∨ s.hub.bit (F.HST_RXR_CTL_EN i) = false ∨ s.hub.rxFree i = 0)) ∧ (∃
      (i : Fin 8) (t : Nat) (x : Fin 56 × QFrame) (s : State), (s.hub.rxFree i = 0 ∨ s.hub.bit (F.HST_RXR_CTL_EN i)
      = false) ∧ (s.hub.hst.waitAt[i] = some t) ∧ (t + us (s.hub.fld F.HST_RXCFG_WAIT) ≤ s.hub.now) ∧
      ((s.hub.hostHeads.find? fun x => ringOf (s.hub.frameOf x.2) i == i.val) = some x)) ∧ (∃ (i : Fin 8) (t : Nat)
      (c : HostCpl) (q : List HostCpl) (s : State), (s.hub.rxFree i = 0 ∨ s.hub.bit (F.HST_RXR_CTL_EN i) = false) ∧
      (s.hub.hst.waitAt[i] = some t) ∧ (t + us (s.hub.fld F.HST_RXCFG_WAIT) ≤ s.hub.now) ∧ (s.hub.hostHeads = []) ∧
      (s.hub.hst.cpl[i] = c :: q)) ∧ (∃ (i : Fin 8) (s : State), ((s.hub.hst.waitAt[i].any fun t => decide (t + us
      (s.hub.fld F.HST_RXCFG_WAIT) ≤ s.hub.now)) = false)) ∧ (∃ (i : Fin 8) (s : State), (s.hub.bit
      (F.HST_RXR_CTL_EN i)) ∧ (0 < s.hub.rxFree i)) :=
  ⟨⟨⟨[], rs⟩, by decide⟩, ⟨⟨[], { rs with now := 8000000 }⟩, by decide⟩, ⟨0xA8000#32, 1, ⟨[],
    { rs with hst := { rs.hst with answers := true } }⟩, by decide⟩, ⟨0, ⟨[],
    { rs with hst := { rs.hst with answers := true } }⟩, by decide⟩, ⟨0, 2, ⟨[],
    { rs with hst := { rs.hst with answers := true } }⟩, by decide⟩, ⟨2, 4, 9, ⟨[],
    { rs with hst := { rs.hst with answers := true } }⟩, by decide⟩, ⟨2, 4, none, ⟨[], rs⟩, by decide⟩, ⟨8, 0, [1,
    2], ⟨[], { rs.put (F.TILE_PART_SIZE 2) 4 with hst := { rs.hst with answers := true } }⟩, by decide⟩, ⟨8, 4, ⟨[],
    { rs.put (F.TILE_PART_SIZE 2) 4 with hst := { rs.hst with answers := true } }⟩, by decide⟩, ⟨1024, 4, ⟨[],
    { rs.put (F.TILE_PART_SIZE 2) 4 with hst := { rs.hst with answers := true } }⟩, by decide⟩, ⟨1, ⟨[0, 0, 14,
    0xc030002#32, 0, 0, 0, 0], List.replicate 14 7⟩, ⟨[],
    { (((rs.on (F.HST_TXR_CTL_EN 1)).put (F.HST_TXR_TAIL_PTR 1) 3)) with hst := { rs.hst with answers := true } }⟩,
    by decide⟩, ⟨1, ⟨[0, 0, 14, 0xc030009#32, 0, 0, 0, 0], List.replicate 14 7⟩, ⟨[],
    { (((rs.on (F.HST_TXR_CTL_EN 1)).put (F.HST_TXR_TAIL_PTR 1) 3)) with hst := { rs.hst with answers := true } }⟩,
    by decide⟩, ⟨1, ⟨[0, 0, 44, 0x1c030001#32, 0, 0, 0, 0], List.replicate 44 7⟩, ⟨[],
    { (((rs.on (F.HST_TXR_CTL_EN 1)).put (F.HST_TXR_TAIL_PTR 1) 3)) with hst := { rs.hst with answers := true } }⟩,
    by decide⟩, ⟨1, ⟨[0, 0, 1, 0x2c030001#32, 0x00300000#32, 0, 0, 0], List.replicate 1 7⟩, ⟨[],
    { (((rs.on (F.HST_TXR_CTL_EN 1)).put (F.HST_TXR_TAIL_PTR 1) 3)) with hst := { rs.hst with answers := true } }⟩,
    by decide⟩, ⟨1, ⟨[0, 0, 4, 0x2d030001#32, 0x00300001#32, 0, 0, 0], List.replicate 4 7⟩, ⟨[],
    { (((rs.on (F.HST_TXR_CTL_EN 1)).put (F.HST_TXR_TAIL_PTR 1) 3)) with hst := { rs.hst with answers := true } }⟩,
    by decide⟩, ⟨1, ⟨[0, 0, 8, 0x3c030001#32, 0, 0, 0, 0], List.replicate 8 7⟩, ⟨[],
    { (((rs.on (F.HST_TXR_CTL_EN 1)).put (F.HST_TXR_TAIL_PTR 1) 3)) with hst := { rs.hst with answers := true } }⟩,
    by decide⟩, ⟨1, ⟨[0, 0, 0, 0xc030001#32, 0, 0, 0, 0], List.replicate 0 7⟩, ⟨[],
    { (((rs.on (F.HST_TXR_CTL_EN 1)).put (F.HST_TXR_TAIL_PTR 1) 3)) with hst := { rs.hst with answers := true } }⟩,
    by decide⟩, ⟨1, ⟨[0, 0, 0, 0xc030001#32, 0, 0, 0, 0], List.replicate 0 7⟩, ⟨[], rs⟩, by decide⟩, ⟨1, ⟨[0, 0, 14,
    0x8030001#32, 0, 0, 0, 0], List.replicate 14 7⟩, ⟨[],
    { (((rs.on (F.HST_TXR_CTL_EN 1)).put (F.HST_TXR_TAIL_PTR 1) 3)) with hst := { rs.hst with answers := true } }⟩,
    by decide⟩, ⟨1, ⟨[0, 0, 0, 0x1c030001#32, 0, 0, 0, 0], List.replicate 0 7⟩, ⟨[],
    { (((rs.on (F.HST_TXR_CTL_EN 1)).put (F.HST_TXR_TAIL_PTR 1) 3)) with hst := { rs.hst with answers := true } }⟩,
    by decide⟩, ⟨1, ⟨[0, 0, 0, 0x1c030001#32, 0, 0, 0, 0], List.replicate 0 7⟩, ⟨[], rs⟩, by decide⟩, ⟨1, ⟨[0, 0,
    14, 0x18030001#32, 0, 0, 0, 0], List.replicate 14 7⟩, ⟨[],
    { (((rs.on (F.HST_TXR_CTL_EN 1)).put (F.HST_TXR_TAIL_PTR 1) 3)) with hst := { rs.hst with answers := true } }⟩,
    by decide⟩, ⟨1, ⟨[0, 0, 0, 0x2c030001#32, 0, 0, 0, 0], List.replicate 0 7⟩, ⟨[],
    { (((rs.on (F.HST_TXR_CTL_EN 1)).put (F.HST_TXR_TAIL_PTR 1) 3)) with hst := { rs.hst with answers := true } }⟩,
    by decide⟩, ⟨1, ⟨[0, 0, 0, 0x2c030001#32, 0, 0, 0, 0], List.replicate 0 7⟩, ⟨[], rs⟩, by decide⟩, ⟨1, ⟨[0, 0,
    14, 0x28030001#32, 0, 0, 0, 0], List.replicate 14 7⟩, ⟨[],
    { (((rs.on (F.HST_TXR_CTL_EN 1)).put (F.HST_TXR_TAIL_PTR 1) 3)) with hst := { rs.hst with answers := true } }⟩,
    by decide⟩, ⟨1, ⟨[0, 0, 0, 0x3c030001#32, 0, 0, 0, 0], List.replicate 0 7⟩, ⟨[],
    { (((rs.on (F.HST_TXR_CTL_EN 1)).put (F.HST_TXR_TAIL_PTR 1) 3)) with hst := { rs.hst with answers := true } }⟩,
    by decide⟩, ⟨1, ⟨[0, 0, 0, 0x3c030001#32, 0, 0, 0, 0], List.replicate 0 7⟩, ⟨[], rs⟩, by decide⟩, ⟨1, ⟨[0, 0,
    14, 0x38030001#32, 0, 0, 0, 0], List.replicate 14 7⟩, ⟨[],
    { (((rs.on (F.HST_TXR_CTL_EN 1)).put (F.HST_TXR_TAIL_PTR 1) 3)) with hst := { rs.hst with answers := true } }⟩,
    by decide⟩, ⟨1, ⟨[0, 0, 14, 0x1c030009#32, 0, 0, 0, 0], List.replicate 14 7⟩, ⟨[],
    { (((rs.on (F.HST_TXR_CTL_EN 1)).put (F.HST_TXR_TAIL_PTR 1) 3)) with hst := { rs.hst with answers := true } }⟩,
    by decide⟩, ⟨1, ⟨[0, 0, 14, 0x2c030009#32, 0, 0, 0, 0], List.replicate 14 7⟩, ⟨[],
    { (((rs.on (F.HST_TXR_CTL_EN 1)).put (F.HST_TXR_TAIL_PTR 1) 3)) with hst := { rs.hst with answers := true } }⟩,
    by decide⟩, ⟨1, ⟨[0, 0, 14, 0x3c030009#32, 0, 0, 0, 0], List.replicate 14 7⟩, ⟨[],
    { (((rs.on (F.HST_TXR_CTL_EN 1)).put (F.HST_TXR_TAIL_PTR 1) 3)) with hst := { rs.hst with answers := true } }⟩,
    by decide⟩, ⟨1, { hdr := pHdr tTUNNEL 0, pay := wordsPay [0x10010000#32, 5, 6] }, 256, [], ⟨[],
    { ((rs.on (F.HST_RXR_CTL_EN 1)).put (F.HST_RXR_TAIL_PTR 1) 3) with hst := { rs.hst with answers := true } }⟩, by
    decide⟩, ⟨1, { hdr := pHdr tTUNNEL 0, pay := wordsPay [0x10010000#32, 5, 6] }, 256, [], ⟨[],
    { ((rs.on (F.HST_RXR_CTL_EN 1)).put (F.HST_RXR_TAIL_PTR 1) 3) with hst := { rs.hst with answers := true } }⟩, by
    decide⟩, ⟨1, { hdr := pHdr tTUNNEL 0, pay := wordsPay [0x10010000#32, 5, 6] }, 4, [], ⟨[],
    { ((rs.on (F.HST_RXR_CTL_EN 1)).put (F.HST_RXR_TAIL_PTR 1) 3) with hst := { rs.hst with answers := true } }⟩, by
    decide⟩, ⟨1, { hdr := pHdr tTUNNEL 0, pay := wordsPay [0x10010000#32, 5, 6] }, 4, [], ⟨[],
    { (((rs.on (F.HST_RXR_CTL_EN 1)).on (F.HST_RXR_CTL_DELIVER_BAD 1)).put (F.HST_RXR_TAIL_PTR 1) 3) with hst := { rs.hst with answers := true } }⟩,
    by decide⟩, ⟨1, { hdr := pHdr tCPL 0, pay := [] }, 256, [],
    { node := 3, mem := 0, word := 0, cookie := 9, data := [1, 2] }, [], ⟨[],
    { ((rs.on (F.HST_RXR_CTL_EN 1)).put (F.HST_RXR_TAIL_PTR 1) 3) with hst := { rs.hst with answers := true, cpl := rs.hst.cpl.set 1 [{ node := 3, mem := 0, word := 0, cookie := 9, data := [1, 2] }] } }⟩,
    by decide⟩, ⟨1, { hdr := pHdr tCPL 0, pay := [] }, 256, [], ⟨[], rs⟩, by decide⟩, ⟨0, 0, (qOf 4 4,
    { hdr := pHdr tTUNNEL 4, len := 4, tiles := [], ing := 5 }), ⟨[],
    { rs with now := 800000000, hst := { rs.hst with waitAt := rs.hst.waitAt.set 0 (some 0) }, sw := { q := (Vector.replicate 56 []).set 36 [{ hdr := pHdr tTUNNEL 4, len := 4, tiles := [], ing := 5 }] } }⟩,
    by decide +kernel⟩, ⟨1, 0, { node := 3, mem := 0, word := 0, cookie := 9, data := [1, 2] }, [], ⟨[],
    { rs with now := 800000000, hst := { rs.hst with waitAt := rs.hst.waitAt.set 1 (some 0), cpl := rs.hst.cpl.set 1 [{ node := 3, mem := 0, word := 0, cookie := 9, data := [1, 2] }] } }⟩,
    by decide⟩, ⟨1, ⟨[],
    { ((rs.on (F.HST_RXR_CTL_EN 1)).put (F.HST_RXR_TAIL_PTR 1) 3) with hst := { rs.hst with answers := true } }⟩, by
    decide⟩, ⟨1, ⟨[],
    { ((rs.on (F.HST_RXR_CTL_EN 1)).put (F.HST_RXR_TAIL_PTR 1) 3) with hst := { rs.hst with answers := true } }⟩, by
    decide⟩⟩

theorem witness_power_domains :
    (∃ (a : Access) (d : Fin 26) (t : BitVec 2) (s : State), (s.hub.lets a (0x10000 + 4 * d.val)) ∧ (s.hub.pwr.stby
      = none) ∧ (t ≠ 3) ∧ (t = 1 → domRet d = true) ∧ (t ≠ 0 → d.val ≠ 0 ∧ d.val ≠ 17) ∧ (d.val = 1 → a.isIn [0,
      13]) ∧ (s.hub.dph d = 0) ∧ (t.toNat = s.hub.dst d)) ∧ (∃ (a : Access) (d : Fin 26) (t : BitVec 2) (s : State),
      (s.hub.lets a (0x10000 + 4 * d.val)) ∧ (s.hub.pwr.stby = none) ∧ (t ≠ 3) ∧ (t = 1 → domRet d = true) ∧ (t ≠ 0
      → d.val ≠ 0 ∧ d.val ≠ 17) ∧ (d.val = 1 → a.isIn [0, 13]) ∧ (s.hub.dph d = 0) ∧ (s.hub.dst d = 0) ∧ (t ≠ 0) ∧
      (s.hub.domChild d t.toNat = none)) ∧ (∃ (a : Access) (d : Fin 26) (t : BitVec 2) (e : Fin 26) (s : State),
      (s.hub.lets a (0x10000 + 4 * d.val)) ∧ (s.hub.pwr.stby = none) ∧ (t ≠ 3) ∧ (t = 1 → domRet d = true) ∧ (t ≠ 0
      → d.val ≠ 0 ∧ d.val ≠ 17) ∧ (d.val = 1 → a.isIn [0, 13]) ∧ (s.hub.dph d = 0) ∧ (s.hub.dst d = 0) ∧ (t ≠ 0) ∧
      (s.hub.domChild d t.toNat = some e)) ∧ (∃ (a : Access) (d : Fin 26) (t : BitVec 2) (s : State), (s.hub.lets a
      (0x10000 + 4 * d.val)) ∧ (s.hub.pwr.stby = none) ∧ (t ≠ 3) ∧ (t = 1 → domRet d = true) ∧ (t ≠ 0 → d.val ≠ 0 ∧
      d.val ≠ 17) ∧ (d.val = 1 → a.isIn [0, 13]) ∧ (s.hub.dph d = 0) ∧ (s.hub.dst d ≠ 0) ∧ (t = 0) ∧ ((domParent
      d).all fun p => s.hub.dst p == 0)) ∧ (∃ (a : Access) (d : Fin 26) (t : BitVec 2) (p : Fin 26) (s : State),
      (s.hub.lets a (0x10000 + 4 * d.val)) ∧ (s.hub.pwr.stby = none) ∧ (t ≠ 3) ∧ (t = 1 → domRet d = true) ∧ (t ≠ 0
      → d.val ≠ 0 ∧ d.val ≠ 17) ∧ (d.val = 1 → a.isIn [0, 13]) ∧ (s.hub.dph d = 0) ∧ (s.hub.dst d ≠ 0) ∧ (t = 0) ∧
      (domParent d = some p) ∧ (s.hub.dst p ≠ 0)) ∧ (∃ (a : Access) (d : Fin 26) (t : BitVec 2) (s : State),
      (s.hub.lets a (0x10000 + 4 * d.val)) ∧ (s.hub.pwr.stby = none) ∧ (t ≠ 3) ∧ (t = 1 → domRet d = true) ∧ (t ≠ 0
      → d.val ≠ 0 ∧ d.val ≠ 17) ∧ (d.val = 1 → a.isIn [0, 13]) ∧ (s.hub.dph d = 1) ∧ (t = 0)) ∧ (∃ (a : Access) (d :
      Fin 26) (t : BitVec 2) (s : State), (s.hub.lets a (0x10000 + 4 * d.val)) ∧ (s.hub.pwr.stby = none) ∧ (t ≠ 3) ∧
      (t = 1 → domRet d = true) ∧ (t ≠ 0 → d.val ≠ 0 ∧ d.val ≠ 17) ∧ (d.val = 1 → a.isIn [0, 13]) ∧ (s.hub.dph d = 2
      ∨ s.hub.dph d = 3) ∧ (t = 0)) ∧ (∃ (a : Access) (d : Fin 26) (t : BitVec 2) (s : State), (s.hub.lets a
      (0x10000 + 4 * d.val)) ∧ (s.hub.pwr.stby = none) ∧ (t ≠ 3) ∧ (t = 1 → domRet d = true) ∧ (t ≠ 0 → d.val ≠ 0 ∧
      d.val ≠ 17) ∧ (d.val = 1 → a.isIn [0, 13]) ∧ (1 ≤ s.hub.dph d ∧ s.hub.dph d ≤ 3) ∧ (t ≠ 0)) ∧ (∃ (a : Access)
      (d : Fin 26) (t : BitVec 2) (s : State), (s.hub.lets a (0x10000 + 4 * d.val)) ∧ (s.hub.pwr.stby = none) ∧ (t ≠
      3) ∧ (t = 1 → domRet d = true) ∧ (t ≠ 0 → d.val ≠ 0 ∧ d.val ≠ 17) ∧ (d.val = 1 → a.isIn [0, 13]) ∧ (4 ≤
      s.hub.dph d)) ∧ (∃ (a : Access) (d : Fin 26) (t : BitVec 2) (s : State), (s.hub.lets a (0x10000 + 4 * d.val))
      ∧ (t = 3 ∨ (t = 1 ∧ domRet d = false) ∨ (t ≠ 0 ∧ (d.val = 0 ∨ d.val = 17)) ∨ (d.val = 1 ∧ a.isIn [0, 13] =
      false))) ∧ (∃ (d : Fin 26) (s : State), (s.hub.pwr.stby = none) ∧ (s.hub.dph d = 1) ∧ (s.hub.quiesce d
      (s.hub.pwr.dom[d]).agreed (s.hub.fld (F.PWR_STATE_TARGET d)) = .wait) ∧ ((s.hub.pwr.dom[d]).at_ + us (max 1
      (s.hub.pwr.dom[d]).qt) ≤ s.hub.now)) ∧ (∃ (d : Fin 26) (s : State), (s.hub.dph d ≠ 1 ∨ s.hub.now <
      (s.hub.pwr.dom[d]).at_ + us (max 1 (s.hub.pwr.dom[d]).qt))) ∧ (∃ (d : Fin 26) (s : State), (s.hub.pwr.stby =
      none) ∧ (s.hub.domDue d = false ∨ (s.hub.dph d = 1 ∧ s.hub.quiesce d (s.hub.pwr.dom[d]).agreed (s.hub.fld
      (F.PWR_STATE_TARGET d)) = .wait))) ∧ (∃ (d : Fin 26) (r : Nat) (s : State), (s.hub.pwr.stby = none) ∧
      (s.hub.domDue d) ∧ (s.hub.dph d = 1) ∧ (s.hub.quiesce d (s.hub.pwr.dom[d]).agreed (s.hub.fld
      (F.PWR_STATE_TARGET d)) = .refuse r)) ∧ (∃ (d : Fin 26) (s : State), (s.hub.pwr.stby = none) ∧ (s.hub.domDue
      d) ∧ (s.hub.dph d = 1) ∧ (s.hub.quiesce d (s.hub.pwr.dom[d]).agreed (s.hub.fld (F.PWR_STATE_TARGET d)) =
      .agree) ∧ ((s.hub.pwr.dom[d]).agreed + 1 < (domUnits d).length)) ∧ (∃ (d : Fin 26) (s : State),
      (s.hub.pwr.stby = none) ∧ (s.hub.domDue d) ∧ (s.hub.dph d = 1) ∧ (s.hub.quiesce d (s.hub.pwr.dom[d]).agreed
      (s.hub.fld (F.PWR_STATE_TARGET d)) = .agree) ∧ ((s.hub.pwr.dom[d]).agreed + 1 = (domUnits d).length) ∧
      ((s.hub.pwr.dom[d]).back = false) ∧ ((s.hub.pwr.dom[d]).recheck = false) ∧ (s.hub.domChild d (s.hub.fld
      (F.PWR_STATE_TARGET d)) = none)) ∧ (∃ (d : Fin 26) (s : State), (s.hub.pwr.stby = none) ∧ (s.hub.domDue d) ∧
      (s.hub.dph d = 2) ∧ ((s.hub.pwr.dom[d]).back = false) ∧ ((s.hub.pwr.dom[d]).recheck = false) ∧ (s.hub.domChild
      d (s.hub.fld (F.PWR_STATE_TARGET d)) = none)) ∧ (∃ (d : Fin 26) (s : State), (s.hub.pwr.stby = none) ∧
      (s.hub.domDue d) ∧ (s.hub.dph d = 3) ∧ ((s.hub.pwr.dom[d]).back = false) ∧ ((s.hub.pwr.dom[d]).recheck =
      false) ∧ (s.hub.domChild d (s.hub.fld (F.PWR_STATE_TARGET d)) = none)) ∧ (∃ (d : Fin 26) (s : State),
      (s.hub.pwr.stby = none) ∧ (s.hub.domDue d) ∧ (s.hub.dph d = 2 ∨ s.hub.dph d = 3) ∧ ((s.hub.pwr.dom[d]).back))
      ∧ (∃ (d : Fin 26) (s : State), (s.hub.pwr.stby = none) ∧ (s.hub.domDue d) ∧ (s.hub.dph d = 5)) ∧ (∃ (d : Fin
      26) (s : State), (s.hub.pwr.stby = none) ∧ (s.hub.dph d = 0 ∨ s.hub.dph d = 4)) ∧ (∃ (d : Fin 26) (s : State),
      (s.hub.pwr.stby = none) ∧ (s.hub.domDue d = false)) ∧ (∃ (d : Fin 26) (s : State), (s.hub.pwr.stby = none) ∧
      (s.hub.domDue d) ∧ (s.hub.dph d = 4) ∧ (s.hub.bit (F.PWR_STATE_PEND d) = false)) ∧ (∃ (d : Fin 26) (s :
      State), (s.hub.pwr.stby = none) ∧ (s.hub.domDue d) ∧ (s.hub.dph d = 5) ∧ ((s.hub.pwr.dom[d]).exit = 5) ∧
      (s.hub.bit (F.PWR_STATE_PEND d) = false)) ∧ (∃ (d : Fin 26) (s : State), (s.hub.pwr.stby = none) ∧ (s.hub.dph
      d ≤ 3)) ∧ (∃ (c : Fin 8) (i : Fin 2) (s : State), (s.hub.pwr.stby = none) ∧ ((s.hub.fld (F.PWR_WAKEMASK_CAN
      c)).testBit i) ∧ (s.hub.bit (F.CAN_FLAG_WAKE (2 * c.val + i.val)))) ∧ (∃ (d : Fin 26) (s : State), (d.val < 18
      ∨ ∀ c : Fin 8, s.hub.fld (F.PWR_WAKEMASK_CAN c) = 0 ∧ s.hub.fld (F.PWR_WAKEMASK_LANEWK c) = 0)) ∧ (∃ (a :
      Access) (s : State), (s.hub.lets a 0x10118) ∧ (s.hub.pwr.stby = none) ∧ (s.hub.pwr.asleep = none) ∧
      (s.hub.wakes ≠ 0)) ∧ (∃ (a : Access) (s : State), (s.hub.lets a 0x10118) ∧ (s.hub.pwr.stby = none) ∧
      (s.hub.pwr.asleep = none) ∧ (s.hub.wakes = 0) ∧ (s.hub.dph 25 = 0) ∧ (s.hub.dst 25 = 0)) ∧ (∃ (n : Nat) (s :
      State), (s.hub.pwr.asleep = some n) ∧ (n + us (max 1 (s.hub.fld F.PLT_CFG_MINOFF) * 1000) ≤ s.hub.now) ∧
      (s.hub.wakes = 0)) ∧ (∃ (n : Nat) (s : State), (s.hub.pwr.asleep = some n) ∧ (n + us (max 1 (s.hub.fld
      F.PLT_CFG_MINOFF) * 1000) ≤ s.hub.now) ∧ (s.hub.wakes ≠ 0) ∧ (s.hub.bel.stbyHold) ∧ (s.hub.bel.thermHold =
      false) ∧ (s.hub.bel.offEnd = none)) ∧ (∃ (s : State), (s.hub.pwr.asleep = none)) ∧ (∃ (n : Nat) (s : State),
      (s.hub.pwr.asleep = some n) ∧ (s.hub.now < n + us (max 1 (s.hub.fld F.PLT_CFG_MINOFF) * 1000))) ∧ (∃ (src :
      Fin 16) (s : State), (src.val < 15) ∧ ((s.hub.fld F.PLT_WEN_EN).testBit src) ∧ (s.hub.ownDrive src = false) ∧
      (s.hub.pwr.stby = none) ∧ (s.hub.pwr.asleep = none)) ∧ (∃ (src : Fin 16) (s : State), (src.val = 15 ∨
      (s.hub.fld F.PLT_WEN_EN).testBit src = false ∨ s.hub.ownDrive src)) ∧ (∃ (p : Fin 2) (s : State), ((s.hub.fld
      F.PLT_WEN_EN).testBit (12 + p.val)) ∧ (s.hub.pwr.flare[p]) ∧ (s.hub.pwr.stby = none) ∧ (s.hub.pwr.asleep =
      none)) ∧ (∃ (p : Fin 2) (act : Bool) (s : State), ((s.hub.fld F.PLT_WEN_EN).testBit (12 + p.val)) ∧ (act =
      false ∨ s.hub.pwr.flare[p] = false)) ∧ (∃ (p : Fin 2) (act : Bool) (s : State), ((s.hub.fld
      F.PLT_WEN_EN).testBit (12 + p.val) = false)) ∧ (∃ (n : Nat) (s : State), (s.hub.pwr.asleep = some n) ∧
      (s.hub.fld F.PLT_TIMER_TICKS ≠ 0) ∧ (s.hub.timerLeft = 0) ∧ ((s.hub.fld F.PLT_WEN_EN).testBit 14) ∧
      (s.hub.pwr.stby = none)) ∧ (∃ (s : State), (s.hub.pwr.asleep = none ∨ s.hub.fld F.PLT_TIMER_TICKS = 0 ∨
      s.hub.timerLeft ≠ 0)) :=
  ⟨⟨stew, 18, 0, ⟨[], rs⟩, by decide⟩, ⟨stew, 18, 2, ⟨[], rs⟩, by decide⟩, ⟨stew, 3, 2, 8, ⟨[], rs⟩, by decide⟩,
    ⟨stew, 18, 0, ⟨[], (rs.put (F.PWR_STATE_STATE 18) 2)⟩, by decide⟩, ⟨stew, 8, 0, 3, ⟨[], (rs.put
    (F.PWR_STATE_STATE 8) 2).put (F.PWR_STATE_STATE 3) 2⟩, by decide⟩, ⟨stew, 18, 0, ⟨[], (rs.put (F.PWR_STATE_PHASE
    18) 1)⟩, by decide⟩, ⟨stew, 18, 0, ⟨[], (rs.put (F.PWR_STATE_PHASE 18) 2)⟩, by decide⟩, ⟨stew, 18, 1, ⟨[],
    (rs.put (F.PWR_STATE_PHASE 18) 2)⟩, by decide⟩, ⟨stew, 18, 2, ⟨[], (rs.put (F.PWR_STATE_PHASE 18) 4)⟩, by
    decide⟩, ⟨stew, 0, 2, ⟨[], rs⟩, by decide⟩, ⟨18, ⟨[],
    { ((rs.put (F.PWR_STATE_PHASE 18) 1).modLane 0 fun l => { l with open_ := true }) with now := 100000 }⟩, by
    decide⟩, ⟨18, ⟨[], rs⟩, by decide⟩, ⟨18, ⟨[], ((rs.put (F.PWR_STATE_PHASE 18) 1).modLane 0 fun l =>
    { l with open_ := true })⟩, by decide⟩, ⟨2, 1, ⟨[],
    { (rs.on F.DRN_CTL_EN).put (F.PWR_STATE_PHASE 2) 1 with now := 100000 }⟩, by decide⟩, ⟨18, ⟨[],
    { (rs.put (F.PWR_STATE_PHASE 18) 1) with now := 100000 }⟩, by decide⟩, ⟨14, ⟨[],
    { rs.put (F.PWR_STATE_PHASE 14) 1 with now := 100000 }⟩, by decide⟩, ⟨18, ⟨[],
    { (rs.put (F.PWR_STATE_PHASE 18) 2) with now := 100000 }⟩, by decide⟩, ⟨18, ⟨[],
    { (rs.put (F.PWR_STATE_PHASE 18) 3) with now := 100000 }⟩, by decide⟩, ⟨18, ⟨[],
    { (rs.put (F.PWR_STATE_PHASE 18) 2) with now := 100000, pwr := { rs.pwr with dom := rs.pwr.dom.set 18 { back := true } } }⟩,
    by decide⟩, ⟨18, ⟨[], { (rs.put (F.PWR_STATE_PHASE 18) 5) with now := 100000 }⟩, by decide⟩, ⟨18, ⟨[], rs⟩, by
    decide⟩, ⟨18, ⟨[], (rs.put (F.PWR_STATE_PHASE 18) 4)⟩, by decide⟩, ⟨18, ⟨[],
    { (rs.put (F.PWR_STATE_PHASE 18) 4).put (F.PWR_STATE_TARGET 18) 2 with now := 100000 }⟩, by decide⟩, ⟨18, ⟨[],
    { (rs.put (F.PWR_STATE_PHASE 18) 5) with now := 100000, pwr := { rs.pwr with dom := rs.pwr.dom.set 18 { exit := 5 } } }⟩,
    by decide⟩, ⟨18, ⟨[], rs⟩, by decide⟩, ⟨1, 0, ⟨[], ((rs.put (F.PWR_WAKEMASK_CAN 1) 1).on (F.CAN_FLAG_WAKE 2))⟩,
    by decide⟩, ⟨18, ⟨[], rs⟩, by decide⟩, ⟨stew, ⟨[], (rs.put F.PLT_WSRC_SRC 1).put F.PLT_WEN_EN 1⟩, by decide⟩,
    ⟨stew, ⟨[], rs⟩, by decide⟩, ⟨5, ⟨[],
    { { rs with pwr := { rs.pwr with asleep := some 5 } } with now := 10000000000 }⟩, by decide⟩, ⟨5, ⟨[],
    { (rs.put F.PLT_WSRC_SRC 1).put F.PLT_WEN_EN 1 with now := 10000000000, pwr := { rs.pwr with asleep := some 5 }, bel := { rs.bel with stbyHold := true } }⟩,
    by decide⟩, ⟨⟨[], rs⟩, by decide⟩, ⟨5, ⟨[], { rs with pwr := { rs.pwr with asleep := some 5 } }⟩, by decide⟩,
    ⟨3, ⟨[], (rs.put F.PLT_WEN_EN 0x7FFF)⟩, by decide⟩, ⟨3, ⟨[], rs⟩, by decide⟩, ⟨0, ⟨[],
    { (rs.put F.PLT_WEN_EN 0x7FFF) with pwr := { rs.pwr with flare := #v[true, false] } }⟩, by decide⟩, ⟨0, true,
    ⟨[], (rs.put F.PLT_WEN_EN 0x7FFF)⟩, by decide⟩, ⟨0, true, ⟨[], rs⟩, by decide⟩, ⟨5, ⟨[],
    { ((rs.put F.PLT_WEN_EN 0x7FFF).put F.PLT_TIMER_TICKS 9) with now := 10000000000, pwr := { rs.pwr with asleep := some 5 } }⟩,
    by decide⟩, ⟨⟨[], rs⟩, by decide⟩⟩

theorem witness_clocks_and_thermal :
    (∃ (s : State), (s.hub.pwr.held)) ∧ (∃ (p : Fin 4) (s : State), (p ≠ 2) ∧ (p = 0 → s.hub.pwr.held = false)) ∧ (∃
      (t : BitVec 12) (s : State), (((4 * s.hub.fld F.CLK_THERM_WARN : Nat) : Int) ≤ t.toInt)) ∧ (∃ (t : BitVec 12)
      (s : State), (t.toInt < ((4 * s.hub.fld F.CLK_THERM_WARN : Nat) : Int))) ∧ (∃ (t : BitVec 12) (z : Nat) (s :
      State), (((4 * s.hub.fld F.CLK_THERM_SHUT : Nat) : Int) ≤ t.toInt) ∧ (s.hub.pwr.hotAt[(1 : Fin 2)] = some z) ∧
      (z + us 1000 ≤ s.hub.now) ∧ (s.hub.pwr.stby = none)) ∧ (∃ (t : BitVec 12) (z : Nat) (s : State), (((4 *
      s.hub.fld F.CLK_THERM_SHUT : Nat) : Int) ≤ t.toInt) ∧ ((s.hub.pwr.hotAt[(1 : Fin 2)]).getD s.hub.now = z) ∧
      (s.hub.now < z + us 1000)) ∧ (∃ (t : BitVec 12) (s : State), (t.toInt < ((4 * s.hub.fld F.CLK_THERM_SHUT :
      Nat) : Int))) ∧ (∃ (t : BitVec 12) (s : State), (((4 * s.hub.fld F.CLK_THERM_WARN : Nat) : Int) ≤ t.toInt)) ∧
      (∃ (t : BitVec 12) (s : State), (t.toInt < ((4 * s.hub.fld F.CLK_THERM_WARN : Nat) : Int))) ∧ (∃ (t : BitVec
      12) (z : Nat) (s : State), (((4 * s.hub.fld F.CLK_THERM_SHUT : Nat) : Int) ≤ t.toInt) ∧ (s.hub.pwr.hotAt[(0 :
      Fin 2)] = some z) ∧ (z + us 1000 ≤ s.hub.now) ∧ (s.hub.pwr.stby = none)) ∧ (∃ (t : BitVec 12) (z : Nat) (s :
      State), (((4 * s.hub.fld F.CLK_THERM_SHUT : Nat) : Int) ≤ t.toInt) ∧ ((s.hub.pwr.hotAt[(0 : Fin 2)]).getD
      s.hub.now = z) ∧ (s.hub.now < z + us 1000)) ∧ (∃ (t : BitVec 12) (s : State), (t.toInt < ((4 * s.hub.fld
      F.CLK_THERM_SHUT : Nat) : Int))) ∧ (∃ (s : State), (s.hub.bel.thermHold) ∧ (s.hub.bel.thermAt + 10 * oneSecond
      ≤ s.hub.now) ∧ (s.hub.bel.stbyHold = false)) ∧ (∃ (s : State), (s.hub.bel.thermHold = false ∨ s.hub.now <
      s.hub.bel.thermAt + 10 * oneSecond)) ∧ (∃ (d : Fin 4) (s : State), ((s.hub.fld F.CLK_DIM_DEN).testBit d)) ∧ (∃
      (d : Fin 4) (s : State), ((s.hub.fld F.CLK_DIM_DEN).testBit d = false)) ∧ (∃ (s : State), (s.hub.bit
      F.CLK_DIMSTAT_SLOW) ∧ (s.hub.pwr.recAt = none) ∧ (s.hub.pwr.tripAt + 40 * max 1 (s.hub.fld F.CLK_DIM_HOLD) ≤
      s.hub.now)) ∧ (∃ (s : State), (s.hub.bit F.CLK_DIMSTAT_SLOW = false ∨ s.hub.pwr.recAt.isSome ∨ s.hub.now <
      s.hub.pwr.tripAt + 40 * max 1 (s.hub.fld F.CLK_DIM_HOLD))) ∧ (∃ (s : State), (s.hub.bit F.CLK_DIMSTAT_SLOW) ∧
      (s.hub.pwr.recAt = none) ∧ (s.hub.pwr.slowAt + us (s.hub.fld F.CLK_DIM_LONG) < s.hub.now)) ∧ (∃ (s : State),
      (s.hub.bit F.CLK_DIMSTAT_SLOW = false ∨ s.hub.pwr.recAt.isSome ∨ s.hub.now ≤ s.hub.pwr.slowAt + us (s.hub.fld
      F.CLK_DIM_LONG))) ∧ (∃ (d : Fin 2) (s : State), ((s.hub.fld F.CLK_DIM_DEN).testBit (4 + d.val))) ∧ (∃ (d : Fin
      2) (s : State), ((s.hub.fld F.CLK_DIM_DEN).testBit (4 + d.val) = false)) :=
  ⟨⟨⟨[], { rs with pwr := { rs.pwr with held := true } }⟩, by decide⟩, ⟨1, ⟨[], rs⟩, by decide⟩, ⟨0x7F0, ⟨[], rs⟩,
    by decide⟩, ⟨0, ⟨[], rs.put F.CLK_THERM_WARN 100⟩, by decide⟩, ⟨0x7F0, 0, ⟨[],
    { rs with now := 400000, pwr := { rs.pwr with hotAt := #v[some 0, some 0] } }⟩, by decide⟩, ⟨0x7F0, 0, ⟨[], rs⟩,
    by decide⟩, ⟨0, ⟨[], rs.put F.CLK_THERM_SHUT 100⟩, by decide⟩, ⟨0x7F0, ⟨[], rs⟩, by decide⟩, ⟨0, ⟨[], rs.put
    F.CLK_THERM_WARN 100⟩, by decide⟩, ⟨0x7F0, 0, ⟨[],
    { rs with now := 400000, pwr := { rs.pwr with hotAt := #v[some 0, some 0] } }⟩, by decide⟩, ⟨0x7F0, 0, ⟨[], rs⟩,
    by decide⟩, ⟨0, ⟨[], rs.put F.CLK_THERM_SHUT 100⟩, by decide⟩, ⟨⟨[],
    { rs with now := 4000000000, bel := { rs.bel with thermHold := true } }⟩, by decide⟩, ⟨⟨[], rs⟩, by decide⟩, ⟨1,
    ⟨[], rs.put F.CLK_DIM_DEN 63⟩, by decide⟩, ⟨1, ⟨[], rs.put F.CLK_DIM_DEN 0⟩, by decide⟩, ⟨⟨[],
    { rs.on F.CLK_DIMSTAT_SLOW with now := 900000000 }⟩, by decide⟩, ⟨⟨[], rs⟩, by decide⟩, ⟨⟨[],
    { rs.on F.CLK_DIMSTAT_SLOW with now := 900000000 }⟩, by decide⟩, ⟨⟨[], rs⟩, by decide⟩, ⟨1, ⟨[], rs.put
    F.CLK_DIM_DEN 63⟩, by decide⟩, ⟨1, ⟨[], rs.put F.CLK_DIM_DEN 0⟩, by decide⟩⟩

theorem witness_bellows_states :
    (∃ (s : State), (s.hub.bl = blIDLE) ∧ (s.hub.bit F.BLW_STAT_EN) ∧ (s.hub.bel.stbyHold = false) ∧
      (s.hub.bel.thermHold = false)) ∧ (∃ (s : State), (s.hub.bl ≠ blIDLE ∨ s.hub.bit F.BLW_STAT_EN = false ∨
      s.hub.bel.stbyHold ∨ s.hub.bel.thermHold)) ∧ (∃ (s : State), (s.hub.bl = blRAMP)) ∧ (∃ (s : State), (s.hub.bl
      ≠ blRAMP)) ∧ (∃ (s : State), (s.hub.bl = blRAMP) ∧ (s.hub.bel.onAt + us (max 1 s.hub.bel.rampMax * 10000) ≤
      s.hub.now)) ∧ (∃ (s : State), (s.hub.bl ≠ blRAMP ∨ s.hub.now < s.hub.bel.onAt + us (max 1 s.hub.bel.rampMax *
      10000))) ∧ (∃ (s : State), (s.hub.gateOn) ∧ (s.hub.bit F.BLW_STAT_TIMER_RUN) ∧ (s.hub.timerEnd ≤ s.hub.now)) ∧
      (∃ (s : State), (s.hub.gateOn = false ∨ s.hub.bit F.BLW_STAT_TIMER_RUN = false ∨ s.hub.now < s.hub.timerEnd))
      ∧ (∃ (s : State), (s.hub.gateOn)) ∧ (∃ (s : State), (s.hub.gateOn = false)) ∧ (∃ (s : State), (s.hub.gateOn) ∧
      (s.tripComes)) ∧ (∃ (s : State), (s.hub.gateOn) ∧ (s.tripComes = false)) ∧ (∃ (s : State), (s.hub.gateOn =
      false)) ∧ (∃ (s : State), (s.tripComes)) ∧ (∃ (s : State), (s.hub.gateOn) ∧ (s.tripComes = false)) ∧ (∃ (s :
      State), (s.hub.gateOn = false)) ∧ (∃ (s : State), (s.hub.gateOn)) ∧ (∃ (s : State), (s.hub.gateOn = false)) ∧
      (∃ (s : State), (s.hub.bl = blLATCHED) ∧ (s.hub.bit F.BLW_STAT_EN = false) ∧ (s.hub.bel.stbyHold = false) ∧
      (s.hub.bel.thermHold = false) ∧ (s.hub.bel.offEnd = none)) ∧ (∃ (s : State), (s.hub.bl ≠ blLATCHED ∨ s.hub.bit
      F.BLW_STAT_EN)) ∧ (∃ (s : State), (s.hub.gateOn) ∧ (s.hub.bit F.BLW_STAT_TIMER_RUN = false)) ∧ (∃ (s : State),
      (s.hub.gateOn = false ∨ s.hub.bit F.BLW_STAT_TIMER_RUN)) ∧ (∃ (s : State), (s.hub.timerOver = false) ∧
      (s.hub.bit F.BLW_STAT_TIMER_RUN) ∧ (s.hub.bel.timerAt + ofPilot 1 ≤ s.hub.now)) ∧ (∃ (s : State),
      (s.hub.timerOver)) ∧ (∃ (s : State), (s.hub.timerOver = false) ∧ (s.hub.bit F.BLW_STAT_TIMER_RUN = false ∨
      s.hub.now < s.hub.bel.timerAt + ofPilot 1)) ∧ (∃ (s : State), (s.hub.bl = blQUAL) ∧ (s.hub.bit
      F.BLW_STAT_TIMER_RUN = false) ∧ (s.hub.bel.qualAt + ofPilot 33 ≤ s.hub.now) ∧ (s.timerComes = false)) ∧ (∃ (s
      : State), (s.hub.bl ≠ blQUAL ∨ s.hub.bit F.BLW_STAT_TIMER_RUN ∨ s.hub.now < s.hub.bel.qualAt + ofPilot 33 ∨
      s.timerComes)) ∧ (∃ (s : State), (s.hub.bit F.BLW_STAT_PG) ∧ (s.hub.bel.pgAt + oneSecond ≤ s.hub.now)) ∧ (∃ (s
      : State), (s.hub.bit F.BLW_STAT_PG = false ∨ s.hub.now < s.hub.bel.pgAt + oneSecond)) ∧ (∃ (t : Nat) (s :
      State), (s.hub.bel.offEnd = some t) ∧ (t ≤ s.hub.now)) ∧ (∃ (t : Nat) (s : State), (s.hub.bel.offEnd = some t)
      ∧ (s.hub.now < t)) ∧ (∃ (a : Access) (s : State), (s.hub.lets a 0x18000) ∧ (s.hub.bl = blLATCHED) ∧
      (s.hub.bel.stbyHold = false) ∧ (s.hub.bel.thermHold = false) ∧ (s.hub.bel.offEnd = none)) ∧ (∃ (a : Access) (s
      : State), (s.hub.lets a 0x18000) ∧ (s.hub.bl ≠ blLATCHED)) :=
  ⟨⟨⟨[], (rs.put F.BLW_STAT_STATE 0).on F.BLW_STAT_EN⟩, by decide⟩, ⟨⟨[], rs⟩, by decide⟩, ⟨⟨[], (rs.put
    F.BLW_STAT_STATE 1)⟩, by decide⟩, ⟨⟨[], rs⟩, by decide⟩, ⟨⟨[],
    { (rs.put F.BLW_STAT_STATE 1) with now := 4000000000 }⟩, by decide⟩, ⟨⟨[], rs⟩, by decide⟩, ⟨⟨[],
    { ((rs.put F.BLW_STAT_STATE 3).on F.BLW_STAT_PG).on F.BLW_STAT_TIMER_RUN with now := 400000000 }⟩, by decide⟩,
    ⟨⟨[], rs⟩, by decide⟩, ⟨⟨[], ((rs.put F.BLW_STAT_STATE 3).on F.BLW_STAT_PG)⟩, by decide⟩, ⟨⟨[], rs⟩, by decide⟩,
    ⟨⟨[.fastTrip], ((rs.put F.BLW_STAT_STATE 3).on F.BLW_STAT_PG)⟩, by decide⟩, ⟨⟨[], ((rs.put F.BLW_STAT_STATE
    3).on F.BLW_STAT_PG)⟩, by decide⟩, ⟨⟨[], rs⟩, by decide⟩, ⟨⟨[.fastTrip], ((rs.put F.BLW_STAT_STATE 3).on
    F.BLW_STAT_PG)⟩, by decide⟩, ⟨⟨[], ((rs.put F.BLW_STAT_STATE 3).on F.BLW_STAT_PG)⟩, by decide⟩, ⟨⟨[], rs⟩, by
    decide⟩, ⟨⟨[], ((rs.put F.BLW_STAT_STATE 3).on F.BLW_STAT_PG)⟩, by decide⟩, ⟨⟨[], rs⟩, by decide⟩, ⟨⟨[], (rs.put
    F.BLW_STAT_STATE 5)⟩, by decide⟩, ⟨⟨[], rs⟩, by decide⟩, ⟨⟨[], ((rs.put F.BLW_STAT_STATE 3).on F.BLW_STAT_PG)⟩,
    by decide⟩, ⟨⟨[], rs⟩, by decide⟩, ⟨⟨[],
    { ((rs.put F.BLW_STAT_STATE 3).on F.BLW_STAT_PG).on F.BLW_STAT_TIMER_RUN with now := 13000, bel := { rs.bel with ftime := 500 } }⟩,
    by decide⟩, ⟨⟨[],
    { ((rs.put F.BLW_STAT_STATE 3).on F.BLW_STAT_PG).on F.BLW_STAT_TIMER_RUN with now := 400000000 }⟩, by decide⟩,
    ⟨⟨[], rs⟩, by decide⟩, ⟨⟨[], { (rs.put F.BLW_STAT_STATE 2) with now := 500000 }⟩, by decide⟩, ⟨⟨[], rs⟩, by
    decide⟩, ⟨⟨[], { rs.on F.BLW_STAT_PG with now := 400000000 }⟩, by decide⟩, ⟨⟨[], rs⟩, by decide⟩, ⟨9, ⟨[],
    { (rs.put F.BLW_STAT_STATE 4) with bel := { rs.bel with offEnd := some 9 }, now := 9 }⟩, by decide⟩, ⟨9, ⟨[],
    { (rs.put F.BLW_STAT_STATE 4) with bel := { rs.bel with offEnd := some 9 }, now := 3 }⟩, by decide⟩, ⟨stew, ⟨[],
    (rs.put F.BLW_STAT_STATE 5)⟩, by decide⟩, ⟨stew, ⟨[], rs⟩, by decide⟩⟩

theorem witness_error_block :
    (∃ (s : State), (s.hub.bit F.ERR_STAT_ESC_PEND = false ∨ s.hub.now < s.hub.err.escEnd)) ∧ (∃ (s : State),
      (s.hub.bit F.ERR_STAT_ESC_PEND) ∧ (s.hub.err.escEnd ≤ s.hub.now) ∧ (s.hub.err.escP = false)) ∧ (∃ (s : State),
      (s.hub.bit F.ERR_STAT_ESC_PEND) ∧ (s.hub.err.escEnd ≤ s.hub.now) ∧ (s.hub.err.escP)) ∧ (∃ (a : Access) (x e :
      LogEntry) (r : List LogEntry) (s : State), (s.hub.lets a 0x30024) ∧ (s.hub.err.log = x :: e :: r) ∧ (x.tick ≠
      s.hub.now)) ∧ (∃ (a : Access) (x : LogEntry) (r : List LogEntry) (s : State), (s.hub.lets a 0x30024) ∧
      (s.hub.err.log = x :: r) ∧ (x.tick = s.hub.now)) ∧ (∃ (a : Access) (s : State), (s.hub.lets a 0x30024) ∧
      (s.hub.err.log.length ≤ 1) ∧ (∀ e ∈ s.hub.err.log, e.tick ≠ s.hub.now)) ∧ (∃ (a : Access) (s : State),
      (s.hub.lets a 0x30028)) ∧ (∃ (a : Access) (s : State), (s.hub.lets a 0x30050)) ∧ (∃ (a : Access) (v : W32) (s
      : State), (s.hub.lets a 0x30058) ∧ (v.bit 31 = false)) ∧ (∃ (a : Access) (v : W32) (s : State), (s.hub.lets a
      0x30058) ∧ (v.bit 31) ∧ (v.bits 29 28 = 0)) ∧ (∃ (a : Access) (v : W32) (s : State), (s.hub.lets a 0x30058) ∧
      (v.bit 31) ∧ (v.bits 29 28 = 1)) ∧ (∃ (a : Access) (v : W32) (s : State), (s.hub.lets a 0x30058) ∧ (v.bit 31)
      ∧ (v.bits 29 28 = 2)) ∧ (∃ (a : Access) (v : W32) (s : State), (s.hub.lets a 0x30058) ∧ (v.bit 31) ∧ (v.bits
      29 28 = 3)) ∧ (∃ (a : Access) (v : W32) (s : State), (s.hub.lets a 0x30088) ∧ (s.hub.pend (v.bits 5 0)) ∧
      (s.hub.bit ⟨0x30200 + 4 * v.bits 5 0, 29, 1⟩)) ∧ (∃ (a : Access) (v : W32) (s : State), (s.hub.lets a 0x30088)
      ∧ (s.hub.pend (v.bits 5 0) = false ∨ s.hub.bit ⟨0x30200 + 4 * v.bits 5 0, 29, 1⟩ = false)) :=
  ⟨⟨⟨[], rs⟩, by decide⟩, ⟨⟨[], rs.on F.ERR_STAT_ESC_PEND⟩, by decide⟩, ⟨⟨[],
    { rs.on F.ERR_STAT_ESC_PEND with err := { rs.err with escP := true } }⟩, by decide⟩, ⟨stew, rs.entry 1 0 5 0 0 0
    0, rs.entry 1 0 5 0 0 0 0, [], ⟨[],
    { rs with now := 5, err := { rs.err with log := [rs.entry 1 0 5 0 0 0 0, rs.entry 1 0 5 0 0 0 0] } }⟩, by
    decide⟩, ⟨stew, rs.entry 1 0 5 0 0 0 0, [], ⟨[],
    { rs with now := 0, err := { rs.err with log := [rs.entry 1 0 5 0 0 0 0] } }⟩, by decide⟩, ⟨stew, ⟨[],
    { rs with now := 5, err := { rs.err with log := [rs.entry 1 0 5 0 0 0 0] } }⟩, by decide⟩, ⟨host, ⟨[],
    { rs with now := 5, err := { rs.err with log := [rs.entry 1 0 5 0 0 0 0, rs.entry 1 0 5 0 0 0 0] } }⟩, by
    decide⟩, ⟨host, ⟨[], { rs with err := { rs.err with fec := some (rs.entry 1 0 5 0 0 0 0) } }⟩, by decide⟩,
    ⟨stew, 0x10000105#32, ⟨[], rs⟩, by decide⟩, ⟨stew, 0x80000105#32, ⟨[], rs⟩, by decide⟩, ⟨stew, 0x90000105#32,
    ⟨[], rs⟩, by decide⟩, ⟨stew, 0xA0000105#32, ⟨[], rs⟩, by decide⟩, ⟨stew, 0xB0000105#32, ⟨[], rs⟩, by decide⟩,
    ⟨host, 0, ⟨[], (rs.on F.ERR_FLAG_ESC).on ⟨0x30200, 29, 1⟩⟩, by decide⟩, ⟨host, 0, ⟨[], rs⟩, by decide⟩⟩

theorem witness_steps_keep_stores_canonical : ∃ s t : State, s.hub.canonical = true ∧ step s = .next t :=
  ⟨⟨[.recordNop], rs⟩, ⟨[], rs⟩, by decide, rfl⟩

theorem witness_fuses_are_written_once : ∃ s t : State, step s = .next t := ⟨⟨[.recordNop], rs⟩, ⟨[], rs⟩, rfl⟩

theorem witness_register_writers :
    (∃ h : Hub, h.domOn 0 = true ∧ h.domOn 2 = true) ∧ (∃ a : Access, a.isIn [0, 9] = false) ∧
    ∃ (a : Access) (addr : W32), addr.toNat % 4 = 0 ∧ 0x60000 ≤ addr.toNat ∧ addr.toNat < 0x70000 ∧ a.isIn [0, 13] = false ∧
      (a.isIn [9] = false ∨ (addr.toNat ≠ 0x60024 ∧ addr.toNat ≠ 0x60028)) :=
  ⟨⟨rs, by decide⟩, ⟨{ req := 3, node := 0, mem := 0, posted := false }, by decide⟩, ⟨host, 0x60010#32, by decide⟩⟩

theorem witness_bellows_enable_taken_low :
    (∃ (s : State), (s.hub.gateOn)) ∧ (∃ (s : State), (s.hub.gateOn = false)) :=
  ⟨⟨⟨[], rs.put F.BLW_STAT_STATE 3⟩, by decide⟩, ⟨⟨[], rs.put F.BLW_STAT_STATE 4⟩, by decide⟩⟩

end Sys2Proof.Tests
end

section
/-! PROOFS. What a command's meaning is, for every command: one next hub with the queue as it was; runs of steps (O2). -/

namespace Sys2Proof.Machine

/-- Every command's meaning is one hub, and the queue stays as it was. -/
theorem exec_goes (i : Instr) (s : State) : ∃ h, exec i s = s.goes h := by
  cases i <;> exact ⟨_, rfl⟩

/-- A command whose effect is the hub `h` satisfies exactly what `h` satisfies. -/
theorem runs_iff {i : Instr} {s : State} {h : Hub} {P : Hub → Prop} (e : exec i s = s.goes h) : Runs i s P ↔ P h := by
  refine ⟨fun ⟨t, ht, _, hp⟩ => ?_, fun hp => ⟨_, e, rfl, hp⟩⟩
  rw [e] at ht
  cases ht
  exact hp

theorem step_next (s : State) : ∃ t, step s = .next t := by
  obtain ⟨pending, hub⟩ := s
  cases pending with
  | nil => exact ⟨_, rfl⟩
  | cons c rest =>
    obtain ⟨h, e⟩ := exec_goes c ⟨rest, hub⟩
    exact ⟨_, e⟩

theorem safeRun (k : Nat) (s : State) : SafeRun k s := by
  induction k generalizing s with
  | zero => exact ⟨s, rfl⟩
  | succ k ih =>
    obtain ⟨t, e⟩ := step_next s
    obtain ⟨u, hu⟩ := ih t
    have step_core : Sys2Proof.core.step s = .next t := e
    exact ⟨u, by simp only [Host.Core.run, step_core]; exact hu⟩

/-- Settles O2: every arm of `exec` answers `State.goes`, and a run repeats steps. -/
theorem noCommandStopsTheHub : Obligations.NoCommandStopsTheHub := by
  unfold Obligations.NoCommandStopsTheHub
  refine ⟨fun i s => ?_, safeRun⟩
  obtain ⟨h, e⟩ := exec_goes i s
  exact ⟨_, e, rfl⟩

end Sys2Proof.Machine
end

section
/-! PROOFS. The checks of a register access (O3): an error response is not always the one output of a refused access. -/

namespace Sys2Proof.Machine

/-- The hub after reset with MSI-X routed for source 0, the error block: ERR_ROUTE0.MSIX = 1 (R459). -/
def msixErrHub : Hub := State.reset.hub.on ⟨0x30200, 29, 1⟩

/-- The local host as a requester. -/
def hostAccess : Access := { req := 9, node := 0, mem := 0, posted := false }

/-- An access of bad width is logged, and the entry's flag ERR_FLAG.NEW sends a vector beside the error response. -/
theorem msixErrHub_badWidth_out : (msixErrHub.badWidth hostAccess 0x20008).out.length = 2 := by decide

/-- Refutes O3: its clause on accesses of bad width (R467) allows one output only, the error response. A refused access
is also logged (R11), which raises ERR_FLAG.NEW, and with ERR_ROUTE0.MSIX = 1 the hub then sends an MSI-X vector as well
(R458, R459). The hub is the one after reset but for that routing bit, which the host may set. -/
theorem not_registerAccessChecks : ¬ Obligations.RegisterAccessChecks := by
  unfold Obligations.RegisterAccessChecks
  intro h
  obtain ⟨-, -, -, -, -, -, -, -, badWidth, -⟩ := h
  have run := badWidth hostAccess 0x20008#32 0 false ⟨[], msixErrHub⟩ rfl
  obtain ⟨oneOutput, -⟩ := (runs_iff rfl).mp run
  exact absurd (msixErrHub_badWidth_out.symm.trans oneOutput) (by decide)

end Sys2Proof.Machine
end

section
/-! PROOFS. Rules used by several families: folds, register frames, commands that are one register access. -/

namespace Sys2Proof.Machine

/-! ## Folds -/

/-- What one element's step brings about and the others' steps keep holds after the fold. -/
theorem foldl_of_mem {α β : Type} {f : β → α → β} {P Q : β → Prop} {c : α} {l : List α} {b : β}
    (inv : ∀ b x, P b → P (f b x)) (hit : ∀ b, P b → Q (f b c)) (keep : ∀ b x, P b → Q b → Q (f b x)) (start : P b)
    (mem : c ∈ l) : Q (l.foldl f b) := by
  obtain ⟨front, back, rfl⟩ := List.append_of_mem mem
  have hfront : P (front.foldl f b) := List.foldlRecOn front f start fun b hb x _ => inv b x hb
  have hback : P (back.foldl f (f (front.foldl f b) c)) ∧ Q (back.foldl f (f (front.foldl f b) c)) :=
    List.foldlRecOn (motive := fun b => P b ∧ Q b) back f ⟨inv _ _ hfront, hit _ hfront⟩
      fun b hb x _ => ⟨inv b x hb.1, keep b x hb.1 hb.2⟩
  simpa [List.foldl_append] using hback.2

/-! ## Frames of register writes -/

/-- A change of register fields alone, with keys from `lo` up to below `hi`. -/
structure FieldsIn (lo hi : Nat) (h h' : Hub) : Prop where
  parts : h' = { h with fields := h'.fields }
  regs : ∀ f : Fld, f.key < lo ∨ hi ≤ f.key → h'.fld f = h.fld f

theorem FieldsIn.refl (lo hi : Nat) (h : Hub) : FieldsIn lo hi h h := ⟨rfl, fun _ _ => rfl⟩

theorem FieldsIn.trans {lo hi : Nat} {h g k : Hub} (p : FieldsIn lo hi h g) (q : FieldsIn lo hi g k) : FieldsIn lo hi h k := by
  refine ⟨?_, fun f e => (q.regs f e).trans (p.regs f e)⟩
  have := q.parts
  rw [p.parts] at this
  exact this

theorem FieldsIn.put {lo hi : Nat} (h : Hub) (f : Fld) (v : Nat) (e : lo ≤ f.key ∧ f.key < hi) : FieldsIn lo hi h (h.put f v) :=
  ⟨rfl, fun g hg => Hub.fld_put_ne h f g v (by omega)⟩

theorem SameRegs.refl (h : Hub) (l : List Fld) : SameRegs h h l := fun _ _ => rfl

/-- A write of a listed field. -/
theorem SameRegs.put {h g : Hub} {l : List Fld} (p : SameRegs h g l) {f : Fld} (mem : f ∈ l) (v : Nat) :
    SameRegs h (g.put f v) l :=
  fun k hk => (Hub.fld_put_ne g f k v (hk f mem)).trans (p k hk)

/-- A change outside the registers. -/
theorem SameRegs.congr {h g k : Hub} {l : List Fld} (p : SameRegs h g l) (e : k.fields = g.fields) : SameRegs h k l :=
  fun f hf => (Hub.fld_congr e f).trans (p f hf)

/-- A flag's rise, where the flag is listed. -/
theorem SameRegs.flag {h g : Hub} {l : List Fld} (p : SameRegs h g l) (b : Block) {f : Fld} (mem : f ∈ l) :
    SameRegs h (g.flag b f) l :=
  (p.put mem _).congr (g.flag_fields b f)

/-! ## Commands that are one register access -/

variable {i : Instr} {s : State} {a : Access} {off : Nat} {P : Hub → Prop}

/-- A command that is a register write let through does what its operation says. -/
theorem runs_cmdWrite {op : Hub → Option Hub} {h : Hub} (e : exec i s = s.goes (s.hub.cmdWrite a off op))
    (admitted : s.hub.lets a off = true) (he : op s.hub = some h) : Runs i s P ↔ P h := by
  rw [runs_iff e, Hub.cmdWrite_ok admitted he]

/-- As `runs_cmdWrite` for an operation that refuses nothing by itself. -/
theorem runs_cmdDo {g : Hub → Hub} (e : exec i s = s.goes (s.hub.cmdWrite a off fun h => some (g h)))
    (admitted : s.hub.lets a off = true) : Runs i s P ↔ P (g s.hub) :=
  runs_cmdWrite e admitted rfl

/-- A command that is a register read let through answers the word of its operation. -/
theorem runs_cmdRead {op : Hub → Option (Hub × Nat)} {h : Hub} {v : Nat} (e : exec i s = s.goes (s.hub.cmdRead a off op))
    (admitted : s.hub.lets a off false = true) (he : op s.hub = some (h, v)) :
    Runs i s P ↔ P (h.emit (.regRead a off (BitVec.ofNat 32 v))) := by
  rw [runs_iff e, Hub.cmdRead_ok admitted he]

/-- With nothing snapshotted an apply puts nothing in force. -/
theorem Hub.applySnap_nil {h : Hub} (e : h.snap = []) (lo hi : Nat) : h.applySnap lo hi = h := by
  cases h
  cases e
  rfl

end Sys2Proof.Machine
end

section
/-! PROOFS. The Gnomon: its commit, the pairing strobe and the anchors (O23). -/

namespace Sys2Proof.Machine

/-! ## Writes of GO (R8, R145) -/

theorem Hub.gnoGo_clear {h : Hub} (e : h.bit F.GNO_COMMIT_GO = false) :
    h.gnoGo = ((h.snapshot 0x60010 0x60018).on F.GNO_COMMIT_GO).modGno fun g => { g with goTick := h.now } := by
  simp [Hub.gnoGo, e]

theorem Hub.gnoGo_set {h : Hub} (e : h.bit F.GNO_COMMIT_GO = true) : h.gnoGo = h := by simp [Hub.gnoGo, e]

theorem Hub.pairGo_clear {h : Hub} (e : h.bit F.GNO_PAIR_GO = false) :
    h.pairGo = (h.on F.GNO_PAIR_GO).modGno fun g => { g with pairAt := h.now } := by simp [Hub.pairGo, e]

theorem Hub.pairGo_set {h : Hub} (e : h.bit F.GNO_PAIR_GO = true) : h.pairGo = h := by simp [Hub.pairGo, e]

/-- A strobe fires at an apply tick other than the tick of its own request; this is what keeps it from firing. -/
theorem Hub.strobeOff {h : Hub} {go : Bool} {at_ : Nat} (e : go = false ∨ at_ = h.now ∨ h.now % 8 ≠ 0) :
    (!go || at_ == h.now || !h.applyTick) = true := by
  rcases e with e | e | e <;> simp [Hub.applyTick, e]

theorem Hub.strobeOn {h : Hub} {go : Bool} {at_ : Nat} (e : go = true) (e' : at_ ≠ h.now) (e'' : h.now % 8 = 0) :
    (!go || at_ == h.now || !h.applyTick) = false := by
  simp [Hub.applyTick, e, e', e'']

/-! ## The pairing strobe (R145, R171) -/

/-- The counter of a present cluster is latched into its two words. -/
def Hub.pairCounter (h : Hub) (c : Fin 8) : Hub :=
  if h.clusterPresent c then (h.put (F.GNO_PCNT_L_CNT c) (h.ctr c)).put (F.GNO_PCNT_H_CNT c) (h.ctr c / 2 ^ 32) else h

theorem Hub.pairStrobe_eq (h : Hub) : h.pairStrobe = (List.finRange 8).foldl Hub.pairCounter
    (h.putTime F.GNO_PAIR_NS_NS F.GNO_PAIR_SL_SEC F.GNO_PAIR_SH_FRAC F.GNO_PAIR_SH_SEC h.gno.t) := rfl

theorem Hub.pairCounter_frame (h : Hub) (c : Fin 8) : FieldsIn (0x60040 * 32) (0x60080 * 32) h (h.pairCounter c) := by
  unfold Hub.pairCounter
  split
  · refine (FieldsIn.put h _ _ ?_).trans (FieldsIn.put _ _ _ ?_) <;>
      simp only [F.GNO_PCNT_L_CNT, F.GNO_PCNT_H_CNT, Fld.key] <;> omega
  · exact .refl _ _ h

theorem FieldsIn.pairCounters {h g : Hub} {lo : Nat} (p : FieldsIn lo (0x60080 * 32) h g) (e : lo ≤ 0x60040 * 32)
    (l : List (Fin 8)) : FieldsIn lo (0x60080 * 32) h (l.foldl Hub.pairCounter g) := by
  refine List.foldlRecOn l _ p fun k hk c _ => hk.trans ?_
  obtain ⟨parts, regs⟩ := k.pairCounter_frame c
  exact ⟨parts, fun f hf => regs f (by omega)⟩

/-- The strobe writes the pairing registers and nothing else. -/
theorem Hub.pairStrobe_frame (h : Hub) : FieldsIn (0x60034 * 32) (0x60080 * 32) h h.pairStrobe := by
  rw [Hub.pairStrobe_eq]
  refine FieldsIn.pairCounters ?_ (by decide) _
  exact (((FieldsIn.put h _ _ (by decide)).trans (FieldsIn.put _ _ _ (by decide))).trans
    (FieldsIn.put _ _ _ (by decide))).trans (FieldsIn.put _ _ _ (by decide))

theorem Hub.pairStrobe_ns (h : Hub) : h.pairStrobe.fld F.GNO_PAIR_NS_NS = h.gno.t.ns % 2 ^ 30 := by
  have latched := (FieldsIn.refl (0x60040 * 32) (0x60080 * 32) (h.putTime F.GNO_PAIR_NS_NS F.GNO_PAIR_SL_SEC
    F.GNO_PAIR_SH_FRAC F.GNO_PAIR_SH_SEC h.gno.t)).pairCounters (by decide) (List.finRange 8)
  rw [Hub.pairStrobe_eq, latched.regs _ (by decide)]
  unfold Hub.putTime
  rw [Hub.fld_put_ne _ _ _ _ (by decide), Hub.fld_put_ne _ _ _ _ (by decide), Hub.fld_put_ne _ _ _ _ (by decide),
    Hub.fld_put_same]
  rfl

/-- The latched words of a cluster's counter. -/
def Hub.PairedAt (c : Fin 8) (n : Nat) (h : Hub) : Prop :=
  h.fld (F.GNO_PCNT_L_CNT c) = n % 2 ^ 32 ∧ h.fld (F.GNO_PCNT_H_CNT c) = n / 2 ^ 32 % 2 ^ 32

theorem Hub.pairCounter_same {h : Hub} {c : Fin 8} (e : h.clusterPresent c = true) : (h.pairCounter c).PairedAt c (h.ctr c) := by
  unfold Hub.PairedAt Hub.pairCounter
  rw [if_pos e]
  refine ⟨?_, Hub.fld_put_same _ _ _⟩
  rw [Hub.fld_put_ne _ _ _ _ (by simp only [F.GNO_PCNT_L_CNT, F.GNO_PCNT_H_CNT, Fld.key]; omega), Hub.fld_put_same]
  rfl

theorem Hub.pairCounter_ne {h : Hub} {c d : Fin 8} {n : Nat} (e : c ≠ d) (p : h.PairedAt c n) : (h.pairCounter d).PairedAt c n := by
  have ne : c.val ≠ d.val := fun q => e (Fin.ext q)
  unfold Hub.PairedAt Hub.pairCounter at *
  split
  · constructor
    · rw [Hub.fld_put_ne, Hub.fld_put_ne, p.1] <;> simp only [F.GNO_PCNT_L_CNT, F.GNO_PCNT_H_CNT, Fld.key] <;> omega
    · rw [Hub.fld_put_ne, Hub.fld_put_ne, p.2] <;> simp only [F.GNO_PCNT_L_CNT, F.GNO_PCNT_H_CNT, Fld.key] <;> omega
  · exact p

/-- The strobe latches the counter of every present cluster. -/
theorem Hub.pairStrobe_counter {h : Hub} {c : Fin 8} (e : h.clusterPresent c = true) : h.pairStrobe.PairedAt c (h.ctr c) := by
  rw [Hub.pairStrobe_eq]
  refine foldl_of_mem (P := fun g => g.clusterPresent c = true ∧ g.ctr c = h.ctr c) (c := c) (fun g d hg => ?_)
    (fun g hg => ?_) (fun g d hg hq => ?_) ⟨e, rfl⟩ (List.mem_finRange c)
  · rw [(g.pairCounter_frame d).parts]
    exact hg
  · rw [← hg.2]
    exact Hub.pairCounter_same hg.1
  · by_cases q : c = d
    · rw [← q, ← hg.2]
      exact Hub.pairCounter_same hg.1
    · exact Hub.pairCounter_ne q hq

/-! ## The anchors of a commit (R153) -/

/-- A present cluster is anchored at its counter and the Gnomon. -/
def Hub.anchorAt (rate : Nat) (h : Hub) (c : Fin 8) : Hub :=
  let a : Anchor := { n := h.ctr c, g := h.gno.t, rate := rate }
  if h.clusterPresent c then (h.modReed c fun r => { r with anc := a, shadow := a }).cvalid c else h

/-- What anchoring leaves: every register but CVALID, the Gnomon, the lanes, the parts present, every counter. -/
structure AnchorKeeps (h h' : Hub) : Prop where
  regs : ∀ f : Fld, f.key ≠ F.GNO_CVALID_VALID.key → h'.fld f = h.fld f
  gno : h'.gno = h.gno
  lanes : h'.lanes = h.lanes
  fuse : h'.fuse = h.fuse
  ctr : ∀ c, h'.ctr c = h.ctr c

theorem AnchorKeeps.trans {h g k : Hub} (p : AnchorKeeps h g) (q : AnchorKeeps g k) : AnchorKeeps h k :=
  ⟨fun f e => (q.regs f e).trans (p.regs f e), q.gno.trans p.gno, q.lanes.trans p.lanes, q.fuse.trans p.fuse,
    fun c => (q.ctr c).trans (p.ctr c)⟩

theorem AnchorKeeps.present {h g : Hub} (p : AnchorKeeps h g) (c : Fin 8) : g.clusterPresent c = h.clusterPresent c := by
  unfold Hub.clusterPresent
  rw [p.fuse]

theorem Hub.ctr_modReed (h : Hub) (c d : Fin 8) (f : Reed → Reed) (keep : (f h.reed[c]).ctr = (h.reed[c]).ctr) :
    (h.modReed c f).ctr d = h.ctr d := by
  by_cases e : c = d
  · subst e
    simpa [Hub.ctr] using keep
  · have : c.val ≠ d.val := fun q => e (Fin.ext q)
    simp [Hub.ctr, this]

theorem Hub.ctr_cvalid (h : Hub) (c d : Fin 8) : (h.cvalid c).ctr d = h.ctr d := rfl

theorem Hub.anchorAt_keeps (rate : Nat) (h : Hub) (c : Fin 8) : AnchorKeeps h (h.anchorAt rate c) := by
  unfold Hub.anchorAt
  dsimp only
  split
  · exact ⟨fun f e => Hub.fld_put_ne _ _ f _ e, rfl, rfl, rfl,
      fun d => (Hub.ctr_cvalid _ c d).trans (Hub.ctr_modReed h c d _ rfl)⟩
  · exact ⟨fun _ _ => rfl, rfl, rfl, rfl, fun _ => rfl⟩

theorem Hub.anchorAll_keeps (rate : Nat) (h : Hub) : AnchorKeeps h ((List.finRange 8).foldl (Hub.anchorAt rate) h) :=
  List.foldlRecOn _ _ ⟨fun _ _ => rfl, rfl, rfl, rfl, fun _ => rfl⟩ fun g p c _ => p.trans (g.anchorAt_keeps rate c)

/-- A cluster's anchor and its VALID bit. -/
def Hub.AnchoredAt (c : Fin 8) (a : Anchor) (h : Hub) : Prop :=
  (h.reed[c]).anc = a ∧ (h.fld F.GNO_CVALID_VALID).testBit c = true

theorem Hub.cvalid_testBit (h : Hub) (c d : Fin 8) :
    ((h.cvalid c).fld F.GNO_CVALID_VALID).testBit d = ((h.fld F.GNO_CVALID_VALID).testBit d || decide (c = d)) := by
  unfold Hub.cvalid
  rw [Hub.fld_put_same, show F.GNO_CVALID_VALID.w = 8 from rfl, Nat.testBit_mod_two_pow, Nat.testBit_or, Nat.testBit_two_pow]
  simp [Fin.ext_iff]

theorem Hub.anchorAt_same {rate : Nat} {h : Hub} {c : Fin 8} (e : h.clusterPresent c = true) :
    (h.anchorAt rate c).AnchoredAt c { n := h.ctr c, g := h.gno.t, rate := rate } := by
  unfold Hub.AnchoredAt Hub.anchorAt
  rw [if_pos e]
  refine ⟨?_, ?_⟩
  · simp [Hub.cvalid]
  · rw [Hub.cvalid_testBit]
    simp

theorem Hub.anchorAt_ne {rate : Nat} {h : Hub} {c d : Fin 8} {a : Anchor} (e : c ≠ d) (p : h.AnchoredAt c a) :
    (h.anchorAt rate d).AnchoredAt c a := by
  have ne : d.val ≠ c.val := fun q => e (Fin.ext q.symm)
  unfold Hub.AnchoredAt Hub.anchorAt at *
  dsimp only
  split
  · refine ⟨?_, ?_⟩
    · simpa [Hub.cvalid, ne] using p.1
    · rw [Hub.cvalid_testBit, Hub.modReed_fld, p.2]
      rfl
  · exact p

theorem Hub.anchorAll_anchored {rate : Nat} {h : Hub} {c : Fin 8} (e : h.clusterPresent c = true) :
    ((List.finRange 8).foldl (Hub.anchorAt rate) h).AnchoredAt c { n := h.ctr c, g := h.gno.t, rate := rate } := by
  refine foldl_of_mem (P := AnchorKeeps h) (c := c) (fun g d p => p.trans (g.anchorAt_keeps rate d)) (fun g p => ?_)
    (fun g d p q => ?_) ⟨fun _ _ => rfl, rfl, rfl, rfl, fun _ => rfl⟩ (List.mem_finRange c)
  · rw [← p.ctr c, ← p.gno]
    exact Hub.anchorAt_same ((p.present c).trans e)
  · by_cases same : c = d
    · rw [← same, ← p.ctr c, ← p.gno]
      exact Hub.anchorAt_same ((p.present c).trans e)
    · exact Hub.anchorAt_ne same q

/-! ## The apply tick of a commit (R145, R153) -/

/-- A step of the Gnomon passes pulse edges over, or moves the next PERIOD boundaries back. -/
def Hub.stepPassed (h : Hub) (st : Int) (was : Nat) : Hub :=
  if 0 < st then h.pulseSkip was h.gno.t.nanos else if st < 0 then h.statBack else h

theorem Hub.statBack_parts (h : Hub) : h.statBack = { h with statAt := h.statBack.statAt } := by
  refine List.foldlRecOn (motive := fun g : Hub => g = { h with statAt := g.statAt }) statBlocks _ rfl fun g e b _ => ?_
  rw [e]
  rfl

/-- What a step that is passed leaves: the registers, the time, the lanes and the engines. -/
theorem Hub.stepPassed_keeps (h : Hub) (st : Int) (was : Nat) :
    (h.stepPassed st was).fields = h.fields ∧ (h.stepPassed st was).gno.t = h.gno.t ∧
      (h.stepPassed st was).lanes = h.lanes ∧ (h.stepPassed st was).reed = h.reed ∧ (h.stepPassed st was).fuse = h.fuse := by
  unfold Hub.stepPassed
  split
  · exact ⟨rfl, rfl, rfl, rfl, rfl⟩
  · split
    · rw [h.statBack_parts]
      exact ⟨rfl, rfl, rfl, rfl, rfl⟩
    · exact ⟨rfl, rfl, rfl, rfl, rfl⟩

/-- The time moves by a step and by the difference of two increments, in the hub where the new one is in force. -/
def Hub.gnoMoved (h : Hub) (old : Nat) : Hub :=
  (h.modGno fun g =>
    { g with t := GTime.ofInt ((g.t.units : Nat) + ((h.incr : Nat) - (old : Nat)) + h.gnoStep * (2 ^ 24 : Nat)) }).stepPassed
    h.gnoStep h.gno.t.nanos

theorem Hub.gnoMoved_keeps (h : Hub) (old : Nat) :
    (h.gnoMoved old).fields = h.fields ∧
      (h.gnoMoved old).gno.t = GTime.ofInt ((h.gno.t.units : Nat) + ((h.incr : Nat) - (old : Nat)) + h.gnoStep * (2 ^ 24 : Nat)) ∧
      (h.gnoMoved old).lanes = h.lanes ∧ (h.gnoMoved old).reed = h.reed ∧ (h.gnoMoved old).fuse = h.fuse :=
  Hub.stepPassed_keeps _ _ _

/-- The step's registers return to 0, and FLAG.STEP tells of a step. -/
def Hub.stepDone (h : Hub) (st : Int) : Hub :=
  let zero := ((h.off F.GNO_STEPN_NEG).off F.GNO_STEPN_NS).off F.GNO_STEPS_SEC
  if st ≠ 0 then zero.flag .gno F.GNO_FLAG_STEP else zero

/-- A commit's hub before its pairing strobe. -/
def Hub.gnoStepped (h : Hub) : Hub :=
  let g := (h.applySnap 0x60010 0x60018).off F.GNO_COMMIT_GO
  (g.gnoMoved h.incr).stepDone g.gnoStep

theorem Hub.gnoApply_eq {h : Hub} (go : h.bit F.GNO_COMMIT_GO = true) (later : h.gno.goTick ≠ h.now) (tick : h.now % 8 = 0) :
    h.gnoApply = (List.finRange 8).foldl (Hub.anchorAt (40 * h.gnoStepped.incr)) h.gnoStepped.pairStrobe := by
  unfold Hub.gnoApply
  rw [if_neg (by rw [Hub.strobeOn go later tick]; decide)]
  rfl

theorem Hub.gnoApply_idle {h : Hub} (e : h.bit F.GNO_COMMIT_GO = false ∨ h.gno.goTick = h.now ∨ h.now % 8 ≠ 0) :
    h.gnoApply = h := by
  unfold Hub.gnoApply
  rw [if_pos (Hub.strobeOff e)]

theorem Hub.gnoStep_congr {h g : Hub} (sec : g.fld F.GNO_STEPS_SEC = h.fld F.GNO_STEPS_SEC)
    (ns : g.fld F.GNO_STEPN_NS = h.fld F.GNO_STEPN_NS) (neg : g.fld F.GNO_STEPN_NEG = h.fld F.GNO_STEPN_NEG) :
    g.gnoStep = h.gnoStep := by
  unfold Hub.gnoStep Hub.bit
  rw [sec, ns, neg]

theorem Hub.incr_congr {h g : Hub} (ns : g.fld F.GNO_INCR_NS = h.fld F.GNO_INCR_NS)
    (frac : g.fld F.GNO_INCR_FRAC = h.fld F.GNO_INCR_FRAC) : g.incr = h.incr := by
  unfold Hub.incr
  rw [ns, frac]

/-- The registers that a commit's step writes. -/
def stepFields : List Fld := [F.GNO_COMMIT_GO, F.GNO_STEPN_NEG, F.GNO_STEPN_NS, F.GNO_STEPS_SEC, F.GNO_FLAG_STEP]

/-- The end of a step writes its own registers and its flag, and no other part but the outputs. -/
theorem Hub.stepDone_parts (h : Hub) (st : Int) :
    h.stepDone st = { h with fields := (h.stepDone st).fields, hw := (h.stepDone st).hw, out := (h.stepDone st).out } := by
  unfold Hub.stepDone
  dsimp only
  split
  · rcases Hub.flag_cases (((h.off F.GNO_STEPN_NEG).off F.GNO_STEPN_NS).off F.GNO_STEPS_SEC) .gno F.GNO_FLAG_STEP with
      e | ⟨v, e⟩ <;> rw [e] <;> rfl
  · rfl

theorem Hub.stepDone_regs (h : Hub) (st : Int) : SameRegs h (h.stepDone st) stepFields := by
  have zero : SameRegs h (((h.off F.GNO_STEPN_NEG).off F.GNO_STEPN_NS).off F.GNO_STEPS_SEC) stepFields :=
    (((SameRegs.refl h _).put (f := F.GNO_STEPN_NEG) (by simp [stepFields]) 0).put (f := F.GNO_STEPN_NS)
      (by simp [stepFields]) 0).put (f := F.GNO_STEPS_SEC) (by simp [stepFields]) 0
  unfold Hub.stepDone
  dsimp only
  split
  · exact zero.flag .gno (by simp [stepFields])
  · exact zero

/-- The end of a step leaves the fields that are not its own; of its own those that are not the flag read 0. -/
theorem Hub.stepDone_fld (h : Hub) (st : Int) {f : Fld} (e : f.key ≠ F.GNO_FLAG_STEP.key) :
    (h.stepDone st).fld f = (((h.off F.GNO_STEPN_NEG).off F.GNO_STEPN_NS).off F.GNO_STEPS_SEC).fld f := by
  unfold Hub.stepDone
  dsimp only
  split
  · rw [Hub.flag_fld, Hub.fld_put_ne _ _ _ _ e]
  · rfl

theorem Hub.stepDone_flag (h : Hub) {st : Int} (e : st ≠ 0) : (h.stepDone st).bit F.GNO_FLAG_STEP = true := by
  unfold Hub.stepDone
  dsimp only
  rw [if_pos e]
  exact Hub.flag_bit_same _ _ _ rfl

/-- What the step leaves and what it makes of the time and of its registers. -/
structure Stepped (h h' : Hub) : Prop where
  regs : SameRegs h h' stepFields
  time : h'.gno.t = GTime.ofInt ((h.gno.t.units : Int) + h.gnoStep * 2 ^ 24)
  go : h'.fld F.GNO_COMMIT_GO = 0
  ns : h'.fld F.GNO_STEPN_NS = 0
  sec : h'.fld F.GNO_STEPS_SEC = 0
  flag : h.gnoStep ≠ 0 → h'.bit F.GNO_FLAG_STEP = true
  lanes : h'.lanes = h.lanes
  reed : h'.reed = h.reed
  fuse : h'.fuse = h.fuse

theorem Hub.gnoStepped_spec {h : Hub} (e : h.snap = []) : Stepped h h.gnoStepped := by
  have step : (h.off F.GNO_COMMIT_GO).gnoStep = h.gnoStep := Hub.gnoStep_congr (Hub.fld_put_ne _ _ _ _ (by decide))
    (Hub.fld_put_ne _ _ _ _ (by decide)) (Hub.fld_put_ne _ _ _ _ (by decide))
  have incr : (h.off F.GNO_COMMIT_GO).incr = h.incr := Hub.incr_congr (Hub.fld_put_ne _ _ _ _ (by decide))
    (Hub.fld_put_ne _ _ _ _ (by decide))
  obtain ⟨fields, t, lanes, reed, fuse⟩ := (h.off F.GNO_COMMIT_GO).gnoMoved_keeps h.incr
  rw [step, incr] at t
  unfold Hub.gnoStepped
  dsimp only
  rw [Hub.applySnap_nil e, step]
  generalize (h.off F.GNO_COMMIT_GO).gnoMoved h.incr = moved at *
  have same : SameRegs h moved stepFields :=
    ((SameRegs.refl h _).put (f := F.GNO_COMMIT_GO) (by simp [stepFields]) 0).congr fields
  exact
    { regs := fun f hf => (moved.stepDone_regs _ f hf).trans (same f hf)
      time := by
        rw [Hub.stepDone_parts]
        refine t.trans (congrArg GTime.ofInt ?_)
        simp
      go := by
        rw [Hub.stepDone_fld _ _ (by decide)]
        simp only [Hub.off_eq]
        rw [Hub.fld_put_ne _ _ _ _ (by decide), Hub.fld_put_ne _ _ _ _ (by decide), Hub.fld_put_ne _ _ _ _ (by decide),
          Hub.fld_congr fields]
        exact Hub.fld_put_same _ _ _
      ns := by
        rw [Hub.stepDone_fld _ _ (by decide)]
        simp only [Hub.off_eq]
        rw [Hub.fld_put_ne _ _ _ _ (by decide), Hub.fld_put_same, Nat.zero_mod]
      sec := by
        rw [Hub.stepDone_fld _ _ (by decide)]
        simp only [Hub.off_eq]
        rw [Hub.fld_put_same, Nat.zero_mod]
      flag := fun e => moved.stepDone_flag e
      lanes := by rw [Hub.stepDone_parts]; exact lanes
      reed := by rw [Hub.stepDone_parts]; exact reed
      fuse := by rw [Hub.stepDone_parts]; exact fuse }

section
variable {h : Hub} (go : h.bit F.GNO_COMMIT_GO = true) (later : h.gno.goTick ≠ h.now) (tick : h.now % 8 = 0)
include go later tick

/-- The pairing strobe and the anchors of a commit leave every register but their own. -/
theorem Hub.gnoApply_fld {f : Fld} (pair : f.key < 0x60034 * 32 ∨ 0x60080 * 32 ≤ f.key)
    (cvalid : f.key ≠ F.GNO_CVALID_VALID.key) : h.gnoApply.fld f = h.gnoStepped.fld f := by
  rw [Hub.gnoApply_eq go later tick, (Hub.anchorAll_keeps _ _).regs f cvalid, (Hub.pairStrobe_frame _).regs f pair]

theorem Hub.gnoApply_gno : h.gnoApply.gno = h.gnoStepped.gno := by
  rw [Hub.gnoApply_eq go later tick, (Hub.anchorAll_keeps _ _).gno, (Hub.pairStrobe_frame _).parts]

theorem Hub.gnoApply_lanes : h.gnoApply.lanes = h.gnoStepped.lanes := by
  rw [Hub.gnoApply_eq go later tick, (Hub.anchorAll_keeps _ _).lanes, (Hub.pairStrobe_frame _).parts]

/-- A commit anchors every present cluster at its counter and the new time (R153). -/
theorem Hub.gnoApply_anchored {c : Fin 8} (snap : h.snap = []) (present : h.clusterPresent c = true) :
    h.gnoApply.AnchoredAt c { n := h.ctr c, g := h.gnoApply.gno.t, rate := 40 * h.incr } := by
  have stepped := Hub.gnoStepped_spec snap
  have incr : h.gnoStepped.incr = h.incr := Hub.incr_congr (stepped.regs _ (by decide)) (stepped.regs _ (by decide))
  have parts := h.gnoStepped.pairStrobe_frame.parts
  have ctr : h.gnoStepped.pairStrobe.ctr c = h.ctr c := by
    rw [parts]
    unfold Hub.ctr
    rw [stepped.reed]
  have here : h.gnoStepped.pairStrobe.clusterPresent c = true := by
    rw [parts]
    unfold Hub.clusterPresent at *
    rw [stepped.fuse]
    exact present
  have anchored := Hub.anchorAll_anchored (rate := 40 * h.gnoStepped.incr) here
  rw [ctr, incr, ← incr, ← Hub.gnoApply_eq go later tick, incr] at anchored
  rw [Hub.gnoApply_gno go later tick]
  rw [parts] at anchored
  exact anchored

end

/-! ## The obligation -/

/-- Settles O23: each clause by the rule of its command. -/
theorem gnomonCommitPairAndReads : Obligations.GnomonCommitPairAndReads := by
  unfold Obligations.GnomonCommitPairAndReads
  refine ⟨fun a s admitted clear => ?commit, fun a s admitted set => ?commitAgain, fun c s go later tick snap present => ?apply,
    fun s idle => ?applyIdle, fun a s admitted local_ => ?nowLocal, fun a s admitted remote => ?nowRemote,
    fun a g s admitted shadow => ?shadowLow, fun a g s admitted shadow => ?shadowHigh, fun a s admitted set => ?pairAgain,
    fun a s admitted clear => ?pair, fun c s go later tick present => ?latch, fun s idle => ?latchIdle⟩
  case commit =>
    rw [runs_cmdDo (g := Hub.gnoGo) rfl admitted, Hub.gnoGo_clear clear]
    exact ⟨Hub.bit_on_same _ _ rfl, rfl, rfl, (SameRegs.refl _ _).put (f := F.GNO_COMMIT_GO) (by simp) 1⟩
  case commitAgain =>
    rw [runs_cmdDo (g := Hub.gnoGo) rfl admitted]
    exact Hub.gnoGo_set set
  case apply =>
    rw [runs_iff rfl]
    have stepped := Hub.gnoStepped_spec snap
    obtain ⟨anc, valid⟩ := Hub.gnoApply_anchored go later tick snap present
    have fld {f : Fld} := Hub.gnoApply_fld (f := f) go later tick
    refine ⟨?_, ?_, ?_, ?_, anc, valid, fun moved => ?_, ?_⟩
    · rw [Hub.bit_eq, fld (by decide) (by decide), stepped.go]
      rfl
    · rw [Hub.gnoApply_gno go later tick, stepped.time]
    · rw [fld (by decide) (by decide), stepped.ns]
    · rw [fld (by decide) (by decide), stepped.sec]
    · rw [Hub.bit_eq, fld (by decide) (by decide)]
      exact stepped.flag moved
    · rw [Hub.gnoApply_lanes go later tick, stepped.lanes]
  case applyIdle =>
    rw [runs_iff rfl]
    exact Hub.gnoApply_idle idle
  case nowLocal =>
    rw [runs_cmdRead rfl admitted rfl]
    simp only [local_]
    exact ⟨rfl, rfl, rfl⟩
  case nowRemote =>
    rw [runs_cmdRead rfl admitted rfl]
    simp only [remote]
    refine ⟨rfl, rfl, ?_, rfl, rfl⟩
    exact List.length_take_le _ _
  case shadowLow =>
    rw [runs_cmdRead rfl admitted (by simp only [Hub.shadowRead, shadow]; rfl)]
    rfl
  case shadowHigh =>
    rw [runs_cmdRead rfl admitted (by simp only [Hub.shadowRead, shadow]; rfl)]
    rfl
  case pairAgain =>
    rw [runs_cmdDo (g := Hub.pairGo) rfl admitted]
    exact Hub.pairGo_set set
  case pair =>
    rw [runs_cmdDo (g := Hub.pairGo) rfl admitted, Hub.pairGo_clear clear]
    exact ⟨Hub.bit_on_same _ _ rfl, rfl, rfl, (SameRegs.refl _ _).put (f := F.GNO_PAIR_GO) (by simp) 1⟩
  case latch =>
    rw [runs_iff rfl, if_pos (by simp [Hub.applyTick, go, later, tick])]
    obtain ⟨low, high⟩ := Hub.pairStrobe_counter present
    simp only [Hub.off_eq]
    refine ⟨Hub.bit_off_same _ _, ?_, ?_, ?_, ?_⟩
    · rw [Hub.fld_put_ne _ _ _ _ (by decide), Hub.pairStrobe_ns]
    · rw [Hub.fld_put_ne _ _ _ _ (by simp only [F.GNO_PCNT_L_CNT, F.GNO_PAIR_GO, Fld.key]; omega), low]
    · rw [Hub.fld_put_ne _ _ _ _ (by simp only [F.GNO_PCNT_H_CNT, F.GNO_PAIR_GO, Fld.key]; omega), high]
    · unfold Hub.put
      rw [s.hub.pairStrobe_frame.parts]
  case latchIdle =>
    rw [runs_iff rfl, if_neg (by rcases idle with e | e | e <;> simp [Hub.applyTick, e])]

end Sys2Proof.Machine
end

section
/-! PROOFS. CAN controllers: their registers, the start on the bus, the end of requests, OFF and the wake (R120-R138). -/

namespace Sys2Proof.Machine

/-! ## Registers of a controller -/

/-- Two fields of one controller at other places have other keys. -/
theorem canKey_ne {k o o' lo lo' w w' : Nat} (e : o * 32 + lo ≠ o' * 32 + lo') :
    (⟨canBase k + o, lo, w⟩ : Fld).key ≠ (⟨canBase k + o', lo', w'⟩ : Fld).key := by
  simp only [Fld.key]
  omega

/-- A field of a controller's page. -/
def Fld.onCan (k : Fin 16) (f : Fld) : Prop := canBase k * 32 ≤ f.key ∧ f.key < (canBase k + 0x4000) * 32

/-- No register of a lane lies in a controller's page (R470). -/
theorem laneKey_ne {n : Nat} {k : Fin 16} {f : Fld} {o lo w : Nat} (hf : f.onCan k) (ho : o < 0x1000) (hl : lo < 32) :
    (⟨laneBase n + o, lo, w⟩ : Fld).key ≠ f.key := by
  simp only [Fld.onCan, Fld.key, laneBase, canBase, clusterBase] at *
  omega

/-- The lane that a controller is attached to is UP. -/
def Hub.canUp (h : Hub) (k : Fin 16) : Bool := (h.canLane k).any fun n => h.fld (F.LN_STAT_STATE n) == 2

/-- Registers of a controller's own page do not tell which lane it has or whether that is UP. -/
theorem Hub.canUp_congr {h g : Hub} {k : Fin 16} {l : List Fld} (p : SameRegs h g l) (page : ∀ f ∈ l, f.onCan k) :
    g.canUp k = h.canUp k := by
  have lane {n o lo w : Nat} (ho : o < 0x1000) (hl : lo < 32) :
      g.fld ⟨laneBase n + o, lo, w⟩ = h.fld ⟨laneBase n + o, lo, w⟩ := p _ fun f hf => laneKey_ne (page f hf) ho hl
  have func (n : Nat) : g.fld (F.LN_FUNC_FUNC n) = h.fld (F.LN_FUNC_FUNC n) := lane (by decide) (by decide)
  have sel (n : Nat) : g.fld (F.LN_FUNC_CANSEL n) = h.fld (F.LN_FUNC_CANSEL n) := lane (by decide) (by decide)
  have state (n : Nat) : g.fld (F.LN_STAT_STATE n) = h.fld (F.LN_STAT_STATE n) := lane (by decide) (by decide)
  simp only [Hub.canUp, Hub.canLane, func, sel, state]

theorem Hub.canSt_canTo (h : Hub) (k : Fin 16) {v : Nat} (e : v < 16) : (h.canTo k v).canSt k = v :=
  (Hub.fld_put_same h _ v).trans (Nat.mod_eq_of_lt e)

/-- A controller's page in the address map (R470). -/
theorem locate_can (k : Fin 16) {o : Nat} (e : o < 0x4000) : locate (canBase k + o) = some (.can k, o) := by
  have cluster : (canBase k + o - 0x100000) / 0x20000 = k / 2 := by
    simp only [canBase, clusterBase]
    omega
  have rest : (canBase k + o - 0x100000) % 0x20000 = 0x18000 + k % 2 * 0x4000 + o := by
    simp only [canBase, clusterBase]
    omega
  have page : ¬ canBase k + o < 0x100000 := by
    simp only [canBase, clusterBase]
    omega
  rw [locate, if_neg page, locateP]
  simp only [cluster, rest]
  rw [dif_pos (by omega), dif_neg (by omega), if_neg (by omega), if_neg (by omega), dif_pos (by omega)]
  simp only [Option.some.injEq, Prod.mk.injEq, Block.can.injEq, Fin.ext_iff]
  omega

/-! ## Frames of what a controller does -/

/-- A change of the listed registers and of what is marked of the cycle. -/
structure RegChange (l : List Fld) (h h' : Hub) : Prop where
  parts : h' = { h with fields := h'.fields, hw := h'.hw }
  regs : SameRegs h h' l

theorem RegChange.refl (l : List Fld) (h : Hub) : RegChange l h h := ⟨rfl, SameRegs.refl h l⟩

theorem RegChange.put {l : List Fld} {h g : Hub} (p : RegChange l h g) {r : Fld} (mem : r ∈ l) (v : Nat) :
    RegChange l h (g.put r v) := by
  obtain ⟨parts, regs⟩ := p
  refine ⟨?_, regs.put mem v⟩
  rw [parts]
  rfl

theorem RegChange.hwAdd {l : List Fld} {h g : Hub} (p : RegChange l h g) {r : Fld} (mem : r ∈ l) (n : Nat) :
    RegChange l h (g.hwAdd r n) := by
  obtain ⟨parts, regs⟩ := p.put mem (g.fld r + n)
  refine ⟨?_, regs.congr (Hub.mark_fields _ _ _)⟩
  rw [Hub.hwAdd, parts]
  rfl

/-- A change of controller k, of the listed registers, of what is marked of the cycle and of the outputs. -/
structure CanChange (k : Fin 16) (l : List Fld) (h h' : Hub) : Prop where
  parts : h' = { h with fields := h'.fields, hw := h'.hw, can := h'.can, out := h'.out }
  regs : SameRegs h h' l
  others : ∀ i : Fin 16, i ≠ k → h'.can[i] = h.can[i]

section
variable {k : Fin 16} {l : List Fld} {h g f : Hub}

theorem CanChange.refl (k : Fin 16) (l : List Fld) (h : Hub) : CanChange k l h h := ⟨rfl, SameRegs.refl h l, fun _ _ => rfl⟩

theorem CanChange.trans (p : CanChange k l h g) (q : CanChange k l g f) : CanChange k l h f := by
  refine ⟨?_, fun r e => (q.regs r e).trans (p.regs r e), fun i e => (q.others i e).trans (p.others i e)⟩
  have := q.parts
  rw [p.parts] at this
  exact this

theorem CanChange.put (p : CanChange k l h g) {r : Fld} (mem : r ∈ l) (v : Nat) : CanChange k l h (g.put r v) :=
  p.trans ⟨rfl, (SameRegs.refl g l).put mem v, fun _ _ => rfl⟩

theorem CanChange.flag (p : CanChange k l h g) (b : Block) {r : Fld} (mem : r ∈ l) : CanChange k l h (g.flag b r) := by
  refine p.trans ⟨?_, (SameRegs.refl g l).flag b mem, fun _ _ => by rw [Hub.flag_can]⟩
  rcases g.flag_cases b r with e | ⟨v, e⟩ <;> rw [e] <;> rfl

theorem Hub.modCan_self (h : Hub) (k : Fin 16) (m : Can → Can) : (h.modCan k m).can[k] = m h.can[k] := by simp

theorem Hub.modCan_ne (h : Hub) {i k : Fin 16} (e : i ≠ k) (m : Can → Can) : (h.modCan k m).can[i] = h.can[i] := by
  have : ¬ k.val = i.val := fun q => e (Fin.ext q.symm)
  simp [this]

theorem CanChange.mod (p : CanChange k l h g) (m : Can → Can) : CanChange k l h (g.modCan k m) :=
  p.trans ⟨rfl, fun _ _ => rfl, fun _ e => g.modCan_ne e m⟩

/-- A change without an output. -/
theorem CanChange.quiet (p : CanChange k l h g) (out : g.out = h.out) :
    g = { h with fields := g.fields, hw := g.hw, can := g.can } := by
  have := p.parts
  rw [out] at this
  exact this

/-- A change that leaves the controllers' messages and counts. -/
theorem CanChange.parts_of_can (p : CanChange k l h g) (can : g.can = h.can) :
    g = { h with fields := g.fields, hw := g.hw, out := g.out } := by
  have := p.parts
  rw [can] at this
  exact this

theorem CanChange.mark (p : CanChange k l h g) (key n : Nat) : CanChange k l h (g.mark key n) :=
  p.trans ⟨rfl, fun _ _ => rfl, fun _ _ => rfl⟩

end

/-! ## The way onto the bus (R120, R122, R123) -/

/-- A controller that is not in bus-off integrates where its lane is UP and waits for it otherwise. -/
theorem Hub.canJoin_eq {h : Hub} {k : Fin 16} (e : h.fld (F.CAN_STAT_ERRST k) ≠ 2) :
    h.canJoin k = h.canTo k (if h.canUp k then canINTEGRATE else canWAIT) := by
  unfold Hub.canJoin
  change (if !h.canUp k then _ else _) = _
  cases h.canUp k
  · rfl
  · simp only [e]
    rfl

/-- The bit timing of a controller is one that R123 refuses. -/
def Hub.canIllegal (h : Hub) (k : Fin 16) : Prop :=
  h.canNominal k < 400 ∨ h.canData k < 50 ∨ h.canNominal k < h.canData k

theorem Hub.canIllegal_on_en (h : Hub) (k : Fin 16) : (h.on (F.CAN_CTL_EN k)).canIllegal k ↔ h.canIllegal k := by
  have same {o lo w : Nat} (e : o * 32 + lo ≠ 0) :
      (h.on (F.CAN_CTL_EN k)).fld ⟨canBase k + o, lo, w⟩ = h.fld ⟨canBase k + o, lo, w⟩ :=
    Hub.fld_put_ne _ _ _ _ (canKey_ne e)
  have nominal : (h.on (F.CAN_CTL_EN k)).canNominal k = h.canNominal k := by
    simp only [Hub.canNominal, F.CAN_BTIME_BRP, F.CAN_BTIME_TSEG1, F.CAN_BTIME_TSEG2, same (by decide : 0x10 * 32 + 24 ≠ 0),
      same (by decide : 0x10 * 32 + 16 ≠ 0), same (by decide : 0x10 * 32 + 9 ≠ 0)]
  have data : (h.on (F.CAN_CTL_EN k)).canData k = h.canData k := by
    simp only [Hub.canData, F.CAN_DBTIME_BRP, F.CAN_DBTIME_TSEG1, F.CAN_DBTIME_TSEG2, same (by decide : 0x14 * 32 + 24 ≠ 0),
      same (by decide : 0x14 * 32 + 16 ≠ 0), same (by decide : 0x14 * 32 + 8 ≠ 0)]
  rw [Hub.canIllegal, nominal, data, Hub.canIllegal]

/-- The error counts of a controller are 0. -/
def Can.uncounted (c : Can) : Can := { c with tec := 0, rec_ := 0 }

/-- An enabled controller before it joins the bus: no configuration error, no errors counted. -/
def Hub.canFresh (h : Hub) (k : Fin 16) : Hub :=
  ((((h.on (F.CAN_CTL_EN k)).off (F.CAN_STAT_CFG_ERR k)).modCan k Can.uncounted).put (F.CAN_STAT_BOREC k)
    0).put (F.CAN_STAT_ERRST k) 0

theorem Hub.canFresh_change (h : Hub) (k : Fin 16) {l : List Fld}
    (mem : [F.CAN_CTL_EN k, F.CAN_STAT_CFG_ERR k, F.CAN_STAT_BOREC k, F.CAN_STAT_ERRST k] ⊆ l) : CanChange k l h (h.canFresh k) := by
  obtain ⟨en, cfg, borec, errst⟩ : F.CAN_CTL_EN k ∈ l ∧ F.CAN_STAT_CFG_ERR k ∈ l ∧ F.CAN_STAT_BOREC k ∈ l ∧
      F.CAN_STAT_ERRST k ∈ l := by
    simpa using mem
  exact (((((CanChange.refl k l h).put en 1).put cfg 0).mod _).put borec 0).put errst 0

theorem Hub.canFresh_can (h : Hub) (k : Fin 16) : (h.canFresh k).can = h.can.set k (h.can[k]).uncounted := by
  rw [Hub.canFresh, Hub.put_can, Hub.put_can, Hub.modCan_can, Hub.off_eq, Hub.put_can, Hub.on_eq, Hub.put_can]

/-- A controller with legal bit timing after its enable: it integrates on an UP lane and waits for one otherwise. -/
def Hub.canStarted (h : Hub) (k : Fin 16) : Hub := (h.canFresh k).canTo k (if h.canUp k then canINTEGRATE else canWAIT)

theorem Hub.canStarted_change (h : Hub) (k : Fin 16) : CanChange k
    [F.CAN_CTL_EN k, F.CAN_STAT_CFG_ERR k, F.CAN_STAT_BOREC k, F.CAN_STAT_ERRST k, F.CAN_STAT_STATE k] h (h.canStarted k) :=
  (h.canFresh_change k (by simp)).put (by simp) _

theorem Hub.canStarted_can (h : Hub) (k : Fin 16) : (h.canStarted k).can = h.can.set k (h.can[k]).uncounted := by
  rw [Hub.canStarted, Hub.canTo, Hub.put_can, Hub.canFresh_can]

theorem Hub.canStarted_self (h : Hub) (k : Fin 16) : (h.canStarted k).can[k] = (h.can[k]).uncounted := by
  rw [Hub.canStarted_can]
  simp

theorem Hub.canStarted_out (h : Hub) (k : Fin 16) : (h.canStarted k).out = h.out := by
  rw [Hub.canStarted, Hub.canTo, Hub.put_out, Hub.canFresh, Hub.put_out, Hub.put_out, Hub.modCan_out, Hub.off_eq, Hub.put_out,
    Hub.on_eq, Hub.put_out]

theorem Hub.canStarted_st (h : Hub) (k : Fin 16) : (h.canStarted k).canSt k = if h.canUp k then canINTEGRATE else canWAIT := by
  refine Hub.canSt_canTo _ k ?_
  split <;> decide

theorem Hub.canStarted_errst (h : Hub) (k : Fin 16) : (h.canStarted k).fld (F.CAN_STAT_ERRST k) = 0 := by
  rw [Hub.canStarted, Hub.canTo, Hub.fld_put_ne _ (F.CAN_STAT_STATE k) (F.CAN_STAT_ERRST k) _ (canKey_ne (by decide)),
    Hub.canFresh, Hub.fld_put_same, Nat.zero_mod]

theorem Hub.canStarted_en (h : Hub) (k : Fin 16) : (h.canStarted k).bit (F.CAN_CTL_EN k) = true := by
  rw [Hub.canStarted, Hub.canTo, Hub.bit_put_ne _ (F.CAN_STAT_STATE k) (F.CAN_CTL_EN k) _ (canKey_ne (by decide)), Hub.canFresh,
    Hub.bit_put_ne _ (F.CAN_STAT_ERRST k) (F.CAN_CTL_EN k) _ (canKey_ne (by decide)),
    Hub.bit_put_ne _ (F.CAN_STAT_BOREC k) (F.CAN_CTL_EN k) _ (canKey_ne (by decide)), Hub.modCan_bit, Hub.off_eq,
    Hub.bit_put_ne _ (F.CAN_STAT_CFG_ERR k) (F.CAN_CTL_EN k) _ (canKey_ne (by decide))]
  exact Hub.bit_on_same _ _ rfl

section
variable {h : Hub} {k : Fin 16} (off : h.bit (F.CAN_CTL_EN k) = false) (sound : (h.can[k]).needInit = false)
include off sound

theorem Hub.canEnable_legal (settled : (h.can[k]).closing = false) (legal : ¬ h.canIllegal k) :
    h.canEnable k = some (h.canStarted k) := by
  have up : (h.canFresh k).canUp k = h.canUp k :=
    Hub.canUp_congr (h.canFresh_change k fun _ e => e).regs (by
      simp [Fld.onCan, Fld.key, F.CAN_CTL_EN, F.CAN_STAT_CFG_ERR, F.CAN_STAT_BOREC, F.CAN_STAT_ERRST]
      omega)
  have errst : (h.canFresh k).fld (F.CAN_STAT_ERRST k) ≠ 2 := by
    rw [Hub.canFresh, Hub.fld_put_same, Nat.zero_mod]
    decide
  rw [Hub.canStarted, ← up, ← Hub.canJoin_eq errst]
  unfold Hub.canEnable
  rw [if_neg (Bool.eq_false_iff.mp off), if_neg (Bool.eq_false_iff.mp sound), if_neg (Bool.eq_false_iff.mp settled)]
  exact if_neg (mt (h.canIllegal_on_en k).mp legal)

theorem Hub.canEnable_illegal (settled : (h.can[k]).closing = false) (illegal : h.canIllegal k) :
    h.canEnable k = some (((h.on (F.CAN_CTL_EN k)).on (F.CAN_STAT_CFG_ERR k)).canTo k canOFF) := by
  unfold Hub.canEnable
  rw [if_neg (Bool.eq_false_iff.mp off), if_neg (Bool.eq_false_iff.mp sound), if_neg (Bool.eq_false_iff.mp settled)]
  exact if_pos ((h.canIllegal_on_en k).mpr illegal)

theorem Hub.canEnable_closing (closing : (h.can[k]).closing = true) :
    h.canEnable k = some ((h.on (F.CAN_CTL_EN k)).modCan k fun c => { c with closing := false }) := by
  unfold Hub.canEnable
  rw [if_neg (Bool.eq_false_iff.mp off), if_neg (Bool.eq_false_iff.mp sound), if_pos closing]

end

theorem Hub.canEnable_on {h : Hub} {k : Fin 16} (on : h.bit (F.CAN_CTL_EN k) = true) : h.canEnable k = some h := by
  unfold Hub.canEnable
  rw [if_pos on]

theorem Hub.canEnable_needInit {h : Hub} {k : Fin 16} (off : h.bit (F.CAN_CTL_EN k) = false)
    (stopped : (h.can[k]).needInit = true) : h.canEnable k = none := by
  unfold Hub.canEnable
  rw [if_neg (Bool.eq_false_iff.mp off), if_pos stopped]

/-! ## Requests that end CANCELLED (R130, R133) -/

theorem Can.word_setWord_same (c : Can) (j : Fin 128) (w : Nat) (v : W32) : (c.setWord j w v).word j w = v :=
  Sparse.get_set_same _ _ _ _

theorem Can.word_setWord_ne (c : Can) {i j : Fin 128} (e : j ≠ i) (w : Nat) (v : W32) : (c.setWord i w v).word j w = c.word j w := by
  have : j.val ≠ i.val := fun q => e (Fin.ext q)
  exact Sparse.get_set_ne _ _ _ _ (by omega)

/-- The controller after a request's end: TXRES in word 3, the request gone from TXREQ and TXCANCEL, TXDONE set. -/
def Can.ended (c : Can) (j : Fin 128) (res : Nat) : Can :=
  { c.setWord j 3 ((c.word j 3 &&& ~~~ (0x38000000#32)) ||| BitVec.ofNat 32 (res * 2 ^ 27)) with
    txreq := c.txreq &&& ~~~ (BitVec.twoPow 128 j)
    cancel := c.cancel &&& ~~~ (BitVec.twoPow 128 j)
    txdone := c.txdone ||| BitVec.twoPow 128 j }

theorem Hub.canEnd_can (h : Hub) (k : Fin 16) (j : Fin 128) (res : Nat) :
    (h.canEnd k j res).can = h.can.set k ((h.can[k]).ended j res) := by
  unfold Hub.canEnd Hub.canFlag
  rw [Hub.flag_can]
  rfl

/-- The request of object j has ended CANCELLED (TXRES 2) and TXDONE tells so. -/
def Can.Cancelled (j : Fin 128) (c : Can) : Prop := (c.word j 3).bits 29 27 = 2 ∧ c.txdone.getLsbD j = true

theorem Can.ended_cancelled (c : Can) (j : Fin 128) : (c.ended j 2).Cancelled j := by
  refine ⟨?_, ?_⟩
  · have word : (c.ended j 2).word j 3 = (c.word j 3 &&& ~~~ (0x38000000#32)) ||| BitVec.ofNat 32 (2 * 2 ^ 27) :=
      Can.word_setWord_same c j 3 _
    rw [word, W32.bits, BitVec.toNat_or, BitVec.toNat_and, Nat.shiftRight_or_distrib, Nat.shiftRight_and_distrib,
      Nat.or_mod_two_pow, Nat.and_mod_two_pow]
    have mask : (~~~ (0x38000000#32)).toNat >>> 27 % 2 ^ (29 + 1 - 27) = 0 := by decide
    rw [mask, Nat.and_zero]
    decide
  · simp [Can.ended]

/-- An object's end leaves the other objects' requests and words. -/
theorem Can.ended_ne (c : Can) {i j : Fin 128} (res : Nat) (e : j ≠ i) :
    (c.ended i res).txreq.getLsbD j = c.txreq.getLsbD j ∧ (c.ended i res).word j 3 = c.word j 3 ∧
      (c.ended i res).txdone.getLsbD j = c.txdone.getLsbD j := by
  have ne : ¬ j.val = i.val := fun q => e (Fin.ext q)
  refine ⟨?_, Can.word_setWord_ne c e 3 _, ?_⟩
  · simp [Can.ended, ne]
  · simp [Can.ended, ne]

/-- A pending request is cancelled. -/
def Can.cancelOne (c : Can) (j : Fin 128) : Can := if c.txreq.getLsbD j then c.ended j 2 else c

theorem Can.cancelOne_cancelled {c : Can} {i j : Fin 128} (p : c.Cancelled j) : (c.cancelOne i).Cancelled j := by
  unfold Can.cancelOne
  split
  · by_cases e : j = i
    · rw [e]
      exact c.ended_cancelled i
    · obtain ⟨-, word, done⟩ := c.ended_ne 2 e
      exact ⟨word ▸ p.1, done ▸ p.2⟩
  · exact p

theorem Can.cancelOne_txreq_same (c : Can) (j : Fin 128) : (c.cancelOne j).txreq.getLsbD j = false := by
  unfold Can.cancelOne
  split
  · simp [Can.ended]
  · exact Bool.eq_false_iff.mpr ‹_›

theorem Can.cancelOne_txreq_ne (c : Can) {i j : Fin 128} (e : j ≠ i) : (c.cancelOne i).txreq.getLsbD j = c.txreq.getLsbD j := by
  unfold Can.cancelOne
  split
  · exact (c.ended_ne 2 e).1
  · rfl

/-- Every pending request of a controller is cancelled. -/
def Can.cancelAll (c : Can) : Can := (List.finRange 128).foldl Can.cancelOne c

theorem Can.cancelAll_txreq (c : Can) : c.cancelAll.txreq = 0 := by
  refine BitVec.eq_of_getLsbD_eq fun j hj => ?_
  rw [show (0 : BitVec 128).getLsbD j = false from BitVec.getLsbD_zero]
  refine foldl_of_mem (P := fun _ => True) (Q := fun c : Can => c.txreq.getLsbD j = false) (c := (⟨j, hj⟩ : Fin 128))
    (fun _ _ _ => trivial) (fun c _ => c.cancelOne_txreq_same ⟨j, hj⟩) (fun c i _ clear => ?_) trivial (List.mem_finRange _)
  by_cases e : (⟨j, hj⟩ : Fin 128) = i
  · rw [← e]
    exact c.cancelOne_txreq_same ⟨j, hj⟩
  · exact (c.cancelOne_txreq_ne e).trans clear

theorem Can.cancelAll_cancelled {c : Can} {j : Fin 128} (pending : c.txreq.getLsbD j = true) : c.cancelAll.Cancelled j := by
  have ends {c : Can} (p : c.txreq.getLsbD j = true ∨ c.Cancelled j) : (c.cancelOne j).Cancelled j := by
    rcases p with p | p
    · rw [Can.cancelOne, if_pos p]
      exact c.ended_cancelled j
    · exact Can.cancelOne_cancelled p
  refine foldl_of_mem (P := fun c : Can => c.txreq.getLsbD j = true ∨ c.Cancelled j) (c := j) (fun c i p => ?_)
    (fun c p => ends p) (fun c i _ q => Can.cancelOne_cancelled q) (.inl pending) (List.mem_finRange j)
  by_cases e : j = i
  · exact .inr (e ▸ ends p)
  · exact p.imp (fun q => (c.cancelOne_txreq_ne e).trans q) Can.cancelOne_cancelled

end Sys2Proof.Machine
end

section
/-! PROOFS. CAN controllers: OFF, the counts in bus-off, the wake, and the obligation on their control (O20). -/

namespace Sys2Proof.Machine

/-! ## OFF (R122, R133) -/

section
variable (h : Hub) (k : Fin 16) {l : List Fld}

theorem Hub.canEnd_change (j : Fin 128) (res : Nat) (tx : F.CAN_FLAG_TX k ∈ l) : CanChange k l h (h.canEnd k j res) :=
  (((CanChange.refl k l h).mod _).mark _ _).flag _ tx

/-- A pending request of controller k is cancelled. -/
def Hub.cancelOne (j : Fin 128) : Hub := if (h.can[k]).txreq.getLsbD j then h.canEnd k j 2 else h

theorem Hub.cancelOne_change (j : Fin 128) (tx : F.CAN_FLAG_TX k ∈ l) : CanChange k l h (h.cancelOne k j) := by
  unfold Hub.cancelOne
  split
  · exact h.canEnd_change k j 2 tx
  · exact CanChange.refl k l h

theorem Hub.cancelOne_can (j : Fin 128) : (h.cancelOne k j).can = h.can.set k ((h.can[k]).cancelOne j) := by
  unfold Hub.cancelOne Can.cancelOne
  split
  · exact h.canEnd_can k j 2
  · simp

theorem Hub.cancelOnes_can (js : List (Fin 128)) :
    (js.foldl (fun h j => h.cancelOne k j) h).can = h.can.set k (js.foldl Can.cancelOne h.can[k]) := by
  induction js generalizing h with
  | nil => simp
  | cons j js ih =>
    rw [List.foldl_cons, List.foldl_cons, ih, h.cancelOne_can k j]
    simp

theorem Hub.canCancelAll_eq : h.canCancelAll k =
    ((List.finRange 128).foldl (fun h j => h.cancelOne k j) h).modCan k fun c => { c with att := none } := rfl

theorem Hub.canCancelAll_change (tx : F.CAN_FLAG_TX k ∈ l) : CanChange k l h (h.canCancelAll k) := by
  rw [Hub.canCancelAll_eq]
  refine CanChange.mod ?_ _
  exact List.foldlRecOn (motive := CanChange k l h) _ _ (CanChange.refl k l h) fun g p j _ => p.trans (g.cancelOne_change k j tx)

/-- A controller that has gone OFF: every request cancelled, no attempt, no disable that waits. -/
def Can.offed (c : Can) : Can := { c.cancelAll with att := none, closing := false }

theorem Hub.canOff_self : (h.canOff k).can[k] = (h.can[k]).offed := by
  rw [Hub.canOff, Hub.canTo, Hub.put_can, Hub.modCan_self, Hub.canCancelAll_eq, Hub.modCan_self, Hub.cancelOnes_can]
  simp [Can.offed, Can.cancelAll]

theorem Hub.canOff_change (tx : F.CAN_FLAG_TX k ∈ l) (state : F.CAN_STAT_STATE k ∈ l) : CanChange k l h (h.canOff k) :=
  ((h.canCancelAll_change k tx).mod _).put state _

theorem Hub.canOff_st : (h.canOff k).canSt k = canOFF := by
  rw [Hub.canOff]
  exact Hub.canSt_canTo _ k (by decide)

theorem Hub.canOff_bit {f : Fld} (tx : f.key ≠ (F.CAN_FLAG_TX k).key) (state : f.key ≠ (F.CAN_STAT_STATE k).key) :
    (h.canOff k).bit f = h.bit f := by
  have := (h.canOff_change (l := [F.CAN_FLAG_TX k, F.CAN_STAT_STATE k]) k (by simp) (by simp)).regs f (by simp [tx, state])
  rw [Hub.bit_eq, this, ← Hub.bit_eq]

end

/-! ## Disable (R122) -/

/-- EN and CFG_ERR are cleared. -/
def Hub.canCleared (h : Hub) (k : Fin 16) : Hub := (h.off (F.CAN_CTL_EN k)).off (F.CAN_STAT_CFG_ERR k)

theorem Hub.canCleared_change (h : Hub) (k : Fin 16) {l : List Fld} (en : F.CAN_CTL_EN k ∈ l) (cfg : F.CAN_STAT_CFG_ERR k ∈ l) :
    CanChange k l h (h.canCleared k) :=
  ((CanChange.refl k l h).put en 0).put cfg 0

theorem Hub.canCleared_can (h : Hub) (k : Fin 16) : (h.canCleared k).can = h.can := by
  rw [Hub.canCleared, Hub.off_eq, Hub.put_can, Hub.off_eq, Hub.put_can]

theorem Hub.canCleared_out (h : Hub) (k : Fin 16) : (h.canCleared k).out = h.out := by
  rw [Hub.canCleared, Hub.off_eq, Hub.put_out, Hub.off_eq, Hub.put_out]

theorem Hub.canCleared_en (h : Hub) (k : Fin 16) : (h.canCleared k).bit (F.CAN_CTL_EN k) = false := by
  rw [Hub.canCleared, Hub.off_eq, Hub.off_eq, Hub.bit_put_ne _ (F.CAN_STAT_CFG_ERR k) (F.CAN_CTL_EN k) _ (canKey_ne (by decide))]
  exact Hub.bit_off_same _ _

theorem Hub.canCleared_st (h : Hub) (k : Fin 16) : (h.canCleared k).canSt k = h.canSt k := by
  rw [Hub.canSt, Hub.canCleared, Hub.off_eq, Hub.off_eq,
    Hub.fld_put_ne _ (F.CAN_STAT_CFG_ERR k) (F.CAN_STAT_STATE k) _ (canKey_ne (by decide)),
    Hub.fld_put_ne _ (F.CAN_CTL_EN k) (F.CAN_STAT_STATE k) _ (canKey_ne (by decide)), ← Hub.canSt]

theorem Hub.canDisable_off {h : Hub} {k : Fin 16} (off : h.bit (F.CAN_CTL_EN k) = false) : h.canDisable k = h := by
  simp [Hub.canDisable, off]

theorem Hub.canDisable_on {h : Hub} {k : Fin 16} (on : h.bit (F.CAN_CTL_EN k) = true) :
    h.canDisable k = if h.canSt k = canRECEIVE ∨ h.canSt k = canTRANSMIT
      then (h.canCleared k).modCan k fun c => { c with closing := true } else (h.canCleared k).canOff k := by
  rw [← h.canCleared_st k]
  unfold Hub.canDisable
  rw [if_neg (by simp [on])]
  rfl

/-! ## Bus-off and its end (R134) -/

/-- A controller's counter has no statistics mode: it counts up and the cycle's count is marked (R264). -/
theorem Hub.count_eq_hwAdd (h : Hub) {f : Fld} {k : Fin 16} {o : Nat} (page : locate f.off = some (.can k, o)) (n : Nat) :
    h.count f n = h.hwAdd f n := by
  have noMode : statField f.off = (none, false) := by simp only [statField, page]
  simp only [Hub.count, Hub.ctrMode, noMode]

/-- The controller counts 11 recessive bits in BOREC. -/
theorem Hub.canBorec_count (h : Hub) (k : Fin 16) : h.count (F.CAN_STAT_BOREC k) = h.hwAdd (F.CAN_STAT_BOREC k) 1 :=
  h.count_eq_hwAdd (locate_can k (o := 0x4) (by decide)) 1

/-- The controller after 128 times 11 recessive bits: no errors counted, error active, BOREC full, idle. -/
structure Recovered (k : Fin 16) (h h' : Hub) : Prop where
  change : CanChange k [F.CAN_STAT_STATE k, F.CAN_STAT_ERRST k, F.CAN_STAT_BOREC k, F.CAN_FLAG_BUSON k] h h'
  can : h'.can[k] = (h.can[k]).uncounted
  st : h'.canSt k = canIDLE
  errst : h'.fld (F.CAN_STAT_ERRST k) = 0
  borec : h'.fld (F.CAN_STAT_BOREC k) = 128
  buson : h'.bit (F.CAN_FLAG_BUSON k) = true

theorem Recovered.tec {k : Fin 16} {h h' : Hub} (r : Recovered k h h') : (h'.can[k]).tec = 0 := by rw [r.can, Can.uncounted]

theorem Recovered.rec_ {k : Fin 16} {h h' : Hub} (r : Recovered k h h') : (h'.can[k]).rec_ = 0 := by rw [r.can, Can.uncounted]

/-- The error counts of a controller return to 0; its state and its flags are as they were. -/
def Hub.canUncounted (h : Hub) (k : Fin 16) : Hub :=
  ((h.modCan k Can.uncounted).put (F.CAN_STAT_ERRST k) 0).put (F.CAN_STAT_BOREC k) 128

theorem Hub.canRecover_eq (h : Hub) (k : Fin 16) : h.canRecover k =
    ((h.canUncounted k).flag (.can k) (F.CAN_FLAG_BUSON k)).canTo k canIDLE := rfl

theorem Hub.canRecover_fld (h : Hub) (k : Fin 16) {f : Fld} (state : f.key ≠ (F.CAN_STAT_STATE k).key)
    (flag : f.key ≠ (F.CAN_FLAG_BUSON k).key) : (h.canRecover k).fld f = (h.canUncounted k).fld f := by
  rw [Hub.canRecover_eq, Hub.canTo, Hub.fld_put_ne _ _ _ _ state, Hub.flag_fld, Hub.fld_put_ne _ _ _ _ flag]

theorem Hub.canRecover_spec (h : Hub) (k : Fin 16) : Recovered k h (h.canRecover k) where
  change := by
    rw [Hub.canRecover_eq]
    exact ((((CanChange.refl _ _ _).mod _).put (by simp) _).put (by simp) _).flag _ (by simp) |>.put (by simp) _
  can := by
    rw [Hub.canRecover_eq, Hub.canTo, Hub.put_can, Hub.flag_can, Hub.canUncounted, Hub.put_can, Hub.put_can, Hub.modCan_self]
  st := by
    rw [Hub.canRecover_eq]
    exact Hub.canSt_canTo _ k (by decide)
  errst := by
    rw [h.canRecover_fld k (f := F.CAN_STAT_ERRST k) (canKey_ne (by decide)) (canKey_ne (by decide)), Hub.canUncounted,
      Hub.fld_put_ne _ (F.CAN_STAT_BOREC k) (F.CAN_STAT_ERRST k) _ (canKey_ne (by decide)), Hub.fld_put_same, Nat.zero_mod]
  borec := by
    rw [h.canRecover_fld k (f := F.CAN_STAT_BOREC k) (canKey_ne (by decide)) (canKey_ne (by decide)), Hub.canUncounted]
    exact Hub.fld_put_same _ _ 128
  buson := by
    rw [Hub.canRecover_eq, Hub.canTo,
      Hub.bit_put_ne _ (F.CAN_STAT_STATE k) (F.CAN_FLAG_BUSON k) _ (canKey_ne (by decide))]
    exact Hub.flag_bit_same _ _ _ rfl

theorem Hub.canEleven_busoff {h : Hub} {k : Fin 16} (st : h.canSt k = canBUSOFF) : h.canEleven k =
    if 127 ≤ h.fld (F.CAN_STAT_BOREC k) then h.canRecover k else h.count (F.CAN_STAT_BOREC k) := by
  have notInt : ¬ h.canSt k = canINTEGRATE := by
    rw [st]
    decide
  rw [Hub.canEleven, if_neg notInt, if_pos st]

/-- A protocol exception: flagged, then the bus is joined again, or left where a disable waits (Table 4.2). -/
theorem Hub.canException_eq {h : Hub} {k : Fin 16} (st : h.canSt k = canRECEIVE) (on : h.bit (F.CAN_CTL_PXHD k) = false) :
    h.canException k = if (h.can[k]).closing then (h.canFlag k (F.CAN_FLAG_PXE k)).canOff k
      else (h.canFlag k (F.CAN_FLAG_PXE k)).canTo k canINTEGRATE := by
  have can : (h.canFlag k (F.CAN_FLAG_PXE k)).can = h.can := by rw [Hub.canFlag, Hub.flag_can]
  unfold Hub.canException
  rw [if_pos ⟨st, on⟩]
  dsimp only
  rw [can]

/-! ## Sleep and wake (R137, R138) -/

/-- A controller that has woken: SLEEP 0, WAKE 1, integrating, its messages untouched. -/
structure Woken (k : Fin 16) (h h' : Hub) : Prop where
  sleep : h'.bit (F.CAN_CTL_SLEEP k) = false
  wake : h'.bit (F.CAN_FLAG_WAKE k) = true
  st : h'.canSt k = canINTEGRATE
  can : h'.can = h.can

/-- A controller on an UP lane that is not in bus-off integrates when it wakes. -/
theorem Hub.canWakeUp_spec {h : Hub} {k : Fin 16} (up : h.canUp k = true) (errst : h.fld (F.CAN_STAT_ERRST k) ≠ 2) :
    Woken k h (h.canWakeUp k) := by
  have change : CanChange k [F.CAN_CTL_SLEEP k, F.CAN_FLAG_WAKE k] h ((h.off (F.CAN_CTL_SLEEP k)).canFlag k (F.CAN_FLAG_WAKE k)) :=
    ((CanChange.refl k _ h).put (by simp) 0).flag _ (by simp)
  have up' := Hub.canUp_congr (k := k) change.regs (by
    simp [Fld.onCan, Fld.key, F.CAN_CTL_SLEEP, F.CAN_FLAG_WAKE]
    omega)
  have errst' : ((h.off (F.CAN_CTL_SLEEP k)).canFlag k (F.CAN_FLAG_WAKE k)).fld (F.CAN_STAT_ERRST k) ≠ 2 := by
    rw [Hub.canFlag, Hub.flag_fld, Hub.fld_put_ne _ (F.CAN_FLAG_WAKE k) (F.CAN_STAT_ERRST k) _ (canKey_ne (by decide)),
      Hub.off_eq, Hub.fld_put_ne _ (F.CAN_CTL_SLEEP k) (F.CAN_STAT_ERRST k) _ (canKey_ne (by decide))]
    exact errst
  unfold Hub.canWakeUp
  rw [Hub.canJoin_eq errst', up', up, if_pos rfl]
  exact
    { sleep := by
        rw [Hub.canTo, Hub.bit_put_ne _ (F.CAN_STAT_STATE k) (F.CAN_CTL_SLEEP k) _ (canKey_ne (by decide)), Hub.bit_eq,
          Hub.canFlag, Hub.flag_fld, Hub.fld_put_ne _ (F.CAN_FLAG_WAKE k) (F.CAN_CTL_SLEEP k) _ (canKey_ne (by decide)),
          ← Hub.bit_eq]
        exact Hub.bit_off_same _ _
      wake := by
        rw [Hub.canTo, Hub.bit_put_ne _ (F.CAN_STAT_STATE k) (F.CAN_FLAG_WAKE k) _ (canKey_ne (by decide))]
        exact Hub.flag_bit_same _ _ _ rfl
      st := Hub.canSt_canTo _ k (by decide)
      can := by rw [Hub.canTo, Hub.put_can, Hub.canFlag, Hub.flag_can, Hub.off_eq, Hub.put_can] }

/-- With no object enabled a frame is stored nowhere (R127). -/
theorem Hub.canStore_none {h : Hub} {k : Fin 16} (e : (h.can[k]).objen = 0) (f : CanFrame) : h.canStore k f = h := by
  unfold Hub.canStore
  rw [List.find?_eq_none.mpr fun j _ => by rw [e]; simp]

theorem Can.firstBad_none {c : Can} (e : c.bad = []) (j : Fin 128) (ws : List Nat) : c.firstBad j ws = none := by
  simp [Can.firstBad, e]

/-- The wake frame of a controller with no object enabled wakes it and is stored nowhere. -/
theorem Hub.canWakeFrame_wakes {h : Hub} {k : Fin 16} {f : CanFrame} (asleep : h.canSt k = canSLEEPF) (hears : h.canDeaf k = false)
    (format : f.fdf = true → h.bit (F.CAN_CTL_FDOE k) = true) (sound : (h.can[k]).bad = []) (wakes : h.canWakes k f = true)
    (objen : (h.can[k]).objen = 0) (up : h.canUp k = true) (errst : h.fld (F.CAN_STAT_ERRST k) ≠ 2) :
    h.canWakeFrame k f = h.canWakeUp k := by
  have awaits : ¬ (h.canSt k ≠ canSLEEPF ∨ h.canDeaf k = true ∨ (f.fdf = true ∧ (!h.bit (F.CAN_CTL_FDOE k)) = true)) := by
    rintro (e | e | ⟨e, e'⟩)
    · exact e asleep
    · simp [hears] at e
    · simp [format e] at e'
  have objen' : ((h.canWakeUp k).can[k]).objen = 0 := by
    rw [(Hub.canWakeUp_spec up errst).can]
    exact objen
  unfold Hub.canWakeFrame
  rw [if_neg awaits, Can.firstBad_none sound]
  exact (if_pos wakes).trans (Hub.canStore_none objen' f)

end Sys2Proof.Machine
end

section
/-! PROOFS. CAN controllers: the obligation on their control (O20). -/

namespace Sys2Proof.Machine

/-- Settles O20: each command's hub is named by an equation for its case, and the controller's frame rules say the rest. -/
theorem canControl : Obligations.CanControl := by
  unfold Obligations.CanControl
  refine ⟨fun a k s admitted off sound settled legal => ?enable, fun a k s admitted off sound settled illegal => ?illegal,
    fun a k s admitted off sound closing => ?takenBack, fun a k s admitted on => ?enabled,
    fun a k s admitted off stopped => ?refused, fun a k s admitted on notRx notTx => ?disable,
    fun a k s admitted off => ?disabled, fun a k s admitted on frame => ?waits, fun k s st => ?integrated,
    fun k s st few => ?counted, fun k s st all => ?last, fun k s notInt notOff => ?elsewhere,
    fun a k s admitted off => ?raminit, fun k s => ?raminitDone, fun k s st all => ?recover, fun k s early => ?early,
    fun a k s admitted => ?sleep, fun a k s admitted awake => ?noSleep, fun k s sleep idle noRequest => ?enter,
    fun a k s admitted asleep up errst => ?sleepBit, fun k s st free up errst => ?dominant, fun k s asleep up errst => ?request,
    fun k f s st hears format clean wakes objen up errst => ?frame, fun k s st on settled => ?exception,
    fun k s st on closing => ?exceptionOff⟩
  case enable =>
    have change := s.hub.canStarted_change k
    refine (runs_cmdWrite (op := fun h => h.canEnable k) rfl admitted (Hub.canEnable_legal off sound settled legal)).mpr
      ⟨s.hub.canStarted_st k, ?_, ?_, s.hub.canStarted_errst k, s.hub.canStarted_en k, change.regs, change.others,
        change.quiet (s.hub.canStarted_out k)⟩
    · rw [Hub.canStarted_self, Can.uncounted]
    · rw [Hub.canStarted_self, Can.uncounted]
  case illegal =>
    have change : RegChange [F.CAN_CTL_EN k, F.CAN_STAT_CFG_ERR k, F.CAN_STAT_STATE k] s.hub
        (((s.hub.on (F.CAN_CTL_EN k)).on (F.CAN_STAT_CFG_ERR k)).canTo k canOFF) :=
      (((RegChange.refl _ _).put (by simp) 1).put (by simp) 1).put (by simp) canOFF
    refine (runs_cmdWrite (op := fun h => h.canEnable k) rfl admitted (Hub.canEnable_illegal off sound settled illegal)).mpr
      ⟨Hub.canSt_canTo _ k (by decide), ?_, ?_, change.regs, change.parts⟩
    · rw [Hub.canTo, Hub.bit_put_ne _ (F.CAN_STAT_STATE k) (F.CAN_STAT_CFG_ERR k) _ (canKey_ne (by decide))]
      exact Hub.bit_on_same _ _ rfl
    · rw [Hub.canTo, Hub.bit_put_ne _ (F.CAN_STAT_STATE k) (F.CAN_CTL_EN k) _ (canKey_ne (by decide)), Hub.on_eq,
        Hub.bit_put_ne _ (F.CAN_STAT_CFG_ERR k) (F.CAN_CTL_EN k) _ (canKey_ne (by decide))]
      exact Hub.bit_on_same _ _ rfl
  case takenBack =>
    have change : CanChange k [F.CAN_CTL_EN k] s.hub ((s.hub.on (F.CAN_CTL_EN k)).modCan k fun c => { c with closing := false }) :=
      ((CanChange.refl _ _ _).put (by simp) 1).mod _
    refine (runs_cmdWrite (op := fun h => h.canEnable k) rfl admitted (Hub.canEnable_closing off sound closing)).mpr
      ⟨?_, ?_, ?_, change.regs, change.others, change.quiet ?_⟩
    · rw [Hub.modCan_bit]
      exact Hub.bit_on_same _ _ rfl
    · rw [Hub.modCan_self]
    · rw [Hub.canSt, Hub.modCan_fld, Hub.on_eq, Hub.fld_put_ne _ (F.CAN_CTL_EN k) (F.CAN_STAT_STATE k) _ (canKey_ne (by decide)),
        ← Hub.canSt]
    · rw [Hub.modCan_out, Hub.on_eq, Hub.put_out]
  case enabled => exact (runs_cmdWrite (op := fun h => h.canEnable k) rfl admitted (Hub.canEnable_on on)).mpr rfl
  case refused =>
    have refusal : exec (.canEnable a k) s = s.goes (s.hub.refuse a (canBase k) true) :=
      congrArg s.goes (Hub.cmdWrite_none (op := fun h => h.canEnable k) admitted (Hub.canEnable_needInit off stopped))
    refine (runs_iff refusal).mpr ⟨Hub.refuse_out _ _ _ _, Hub.refuse_fld _ _ _ _ _ ?_ ?_, Hub.refuse_parts _ _ _ _⟩
    · simp only [Fld.notErr, Fld.key, F.CAN_STAT_STATE, canBase, clusterBase]
      omega
    · simp only [Fld.key, F.CAN_STAT_STATE, F.SEC_VIOLCNT_COUNT, canBase, clusterBase]
      omega
  case disable =>
    have self : (((s.hub.canCleared k).canOff k).can[k]) = (s.hub.can[k]).offed := by
      rw [Hub.canOff_self, Hub.canCleared_can]
    have change : CanChange k [F.CAN_CTL_EN k, F.CAN_STAT_CFG_ERR k, F.CAN_STAT_STATE k, F.CAN_FLAG_TX k] s.hub
        ((s.hub.canCleared k).canOff k) :=
      (s.hub.canCleared_change k (by simp) (by simp)).trans (Hub.canOff_change _ k (by simp) (by simp))
    refine (runs_cmdDo (g := fun h => h.canDisable k) rfl admitted).mpr ?_
    rw [Hub.canDisable_on on, if_neg (not_or.mpr ⟨notRx, notTx⟩)]
    refine ⟨Hub.canOff_st _ k, ?_, ?_, ?_, ?_, fun j pending => ?_, change.regs, change.others, change.parts⟩
    · rw [Hub.canOff_bit _ k (f := F.CAN_CTL_EN k) (canKey_ne (by decide)) (canKey_ne (by decide))]
      exact s.hub.canCleared_en k
    · rw [self, Can.offed]
    · rw [self]
      exact Can.cancelAll_txreq _
    · rw [self, Can.offed]
    · rw [self]
      exact Can.cancelAll_cancelled pending
  case disabled =>
    refine (runs_cmdDo (g := fun h => h.canDisable k) rfl admitted).mpr ?_
    exact Hub.canDisable_off off
  case waits =>
    have change : CanChange k [F.CAN_CTL_EN k, F.CAN_STAT_CFG_ERR k] s.hub
        ((s.hub.canCleared k).modCan k fun c => { c with closing := true }) :=
      (s.hub.canCleared_change k (by simp) (by simp)).mod _
    refine (runs_cmdDo (g := fun h => h.canDisable k) rfl admitted).mpr ?_
    rw [Hub.canDisable_on on, if_pos frame]
    refine ⟨?_, ?_, ?_, change.others, change.quiet ?_, change.regs⟩
    · rw [Hub.canSt, Hub.modCan_fld, ← Hub.canSt, Hub.canCleared_st]
    · rw [Hub.modCan_bit, Hub.canCleared_en]
    · rw [Hub.modCan_self]
    · rw [Hub.modCan_out, Hub.canCleared_out]
  case integrated =>
    have change : RegChange [F.CAN_STAT_STATE k] s.hub (s.hub.canTo k canIDLE) := (RegChange.refl _ _).put (by simp) _
    refine (runs_iff (i := .canIntegrated k) rfl).mpr ?_
    rw [Hub.canEleven, if_pos st]
    exact ⟨Hub.canSt_canTo _ k (by decide), change.parts, change.regs⟩
  case counted =>
    have change : RegChange [F.CAN_STAT_BOREC k] s.hub (s.hub.hwAdd (F.CAN_STAT_BOREC k) 1) := (RegChange.refl _ _).hwAdd (by simp) 1
    refine (runs_iff (i := .canIntegrated k) rfl).mpr ?_
    rw [Hub.canEleven_busoff st, if_neg (by omega), Hub.canBorec_count]
    refine ⟨(Hub.fld_put_same _ _ _).trans (Nat.mod_eq_of_lt ?_), ?_, change.parts, change.regs⟩
    · change _ < 2 ^ 8
      omega
    · have kept := change.regs (F.CAN_STAT_STATE k) fun g e => by
        rw [List.mem_singleton.mp e]
        exact canKey_ne (by decide)
      exact kept.trans st
  case last =>
    have r := s.hub.canRecover_spec k
    refine (runs_iff (i := .canIntegrated k) rfl).mpr ?_
    rw [Hub.canEleven_busoff st, if_pos all]
    exact ⟨r.st, r.tec, r.rec_, r.errst, r.borec, r.buson, r.change.others, r.change.parts, r.change.regs⟩
  case elsewhere =>
    refine (runs_iff (i := .canIntegrated k) rfl).mpr ?_
    rw [Hub.canEleven, if_neg notInt, if_neg notOff]
  case raminit =>
    have change : CanChange k [F.CAN_CTL_RAMINIT k] s.hub (s.hub.canRamInit k) := ((CanChange.refl _ _ _).put (by simp) 1).mod _
    refine (runs_cmdWrite (op := fun h => if h.bit (F.CAN_CTL_EN k) then none else some (h.canRamInit k)) rfl admitted
      (if_neg (Bool.eq_false_iff.mp off))).mpr ⟨?_, ?_, ?_, ?_, change.others, change.quiet ?_, change.regs⟩
    · rw [Hub.canRamInit, Hub.modCan_self]
    · rw [Hub.canRamInit, Hub.modCan_self]
    · rw [Hub.canRamInit, Hub.modCan_self]
    · rw [Hub.canRamInit, Hub.modCan_bit]
      exact Hub.bit_on_same _ _ rfl
    · rw [Hub.canRamInit, Hub.modCan_out, Hub.on_eq, Hub.put_out]
  case raminitDone =>
    have change : RegChange [F.CAN_CTL_RAMINIT k] s.hub (s.hub.off (F.CAN_CTL_RAMINIT k)) := (RegChange.refl _ _).put (by simp) 0
    exact (runs_iff (i := .canRaminitDone k) rfl).mpr ⟨Hub.bit_off_same _ _, change.parts, change.regs⟩
  case recover =>
    have r := s.hub.canRecover_spec k
    refine (runs_iff (i := .canBusoffRecover k) rfl).mpr ?_
    rw [if_pos ⟨st, all⟩]
    exact ⟨r.st, r.tec, r.rec_, r.errst, r.borec, r.buson, r.change.others, r.change.parts, r.change.regs⟩
  case early =>
    refine (runs_iff (i := .canBusoffRecover k) rfl).mpr ?_
    rw [if_neg fun ⟨st, all⟩ => early.elim (· st) (Nat.not_lt.mpr all)]
  case sleep =>
    have change : RegChange [F.CAN_CTL_SLEEP k] s.hub (s.hub.on (F.CAN_CTL_SLEEP k)) := (RegChange.refl _ _).put (by simp) 1
    refine (runs_cmdDo (g := fun h => h.canSleepBit k true) rfl admitted).mpr ?_
    rw [Hub.canSleepBit, if_pos rfl]
    exact ⟨Hub.bit_on_same _ _ rfl, change.parts, change.regs⟩
  case noSleep =>
    have change : RegChange [F.CAN_CTL_SLEEP k] s.hub (s.hub.off (F.CAN_CTL_SLEEP k)) := (RegChange.refl _ _).put (by simp) 0
    refine (runs_cmdDo (g := fun h => h.canSleepBit k false) rfl admitted).mpr ?_
    rw [Hub.canSleepBit, if_neg Bool.false_ne_true, if_neg (Bool.eq_false_iff.mp awake)]
    exact ⟨Hub.bit_off_same _ _, change.parts, change.regs⟩
  case enter =>
    have change : RegChange [F.CAN_STAT_STATE k] s.hub
        (s.hub.canTo k (if s.hub.fld (F.CAN_WAKE_MODE k) = 1 then canSLEEPF else canSLEEPE)) := (RegChange.refl _ _).put (by simp) _
    refine (runs_iff (i := .canSleepEnter k) rfl).mpr ?_
    rw [if_pos (by rw [sleep, idle, noRequest]; rfl)]
    refine ⟨Hub.canSt_canTo _ k ?_, change.parts, change.regs⟩
    split <;> decide
  case sleepBit =>
    have w := Hub.canWakeUp_spec up errst
    refine (runs_cmdDo (g := fun h => h.canSleepBit k false) rfl admitted).mpr ?_
    rw [Hub.canSleepBit, if_neg Bool.false_ne_true, if_pos asleep]
    exact ⟨w.sleep, w.wake, w.st, w.can⟩
  case dominant =>
    have w := Hub.canWakeUp_spec up errst
    refine (runs_iff (i := .canWake k .dominant)
      (h := if s.hub.canSt k = canSLEEPE ∧ !s.hub.canTaken k 1 then s.hub.canWakeUp k else s.hub) rfl).mpr ?_
    rw [if_pos ⟨st, by rw [free]; rfl⟩]
    exact ⟨w.sleep, w.wake, w.st, w.can⟩
  case request =>
    have w := Hub.canWakeUp_spec up errst
    refine (runs_iff (i := .canWake k .request) (h := if s.hub.canAsleep k then s.hub.canWakeUp k else s.hub) rfl).mpr ?_
    rw [if_pos asleep]
    exact ⟨w.sleep, w.wake, w.st, w.can⟩
  case frame =>
    have w := Hub.canWakeUp_spec up errst
    refine (runs_iff (i := .canWake k (.frame f)) (h := s.hub.canWakeFrame k f) rfl).mpr ?_
    rw [Hub.canWakeFrame_wakes st hears format clean wakes objen up errst]
    exact ⟨w.sleep, w.wake, w.st, w.can⟩
  case exception =>
    have change : CanChange k [F.CAN_STAT_STATE k, F.CAN_FLAG_PXE k] s.hub
        ((s.hub.canFlag k (F.CAN_FLAG_PXE k)).canTo k canINTEGRATE) :=
      ((CanChange.refl _ _ _).flag _ (by simp)).put (by simp) _
    refine (runs_iff (i := .canProtocolException k) rfl).mpr ?_
    rw [Hub.canException_eq st on, settled, if_neg Bool.false_ne_true]
    refine ⟨Hub.canSt_canTo _ k (by decide), ?_, change.parts_of_can ?_, change.regs⟩
    · rw [Hub.canTo, Hub.bit_put_ne _ (F.CAN_STAT_STATE k) (F.CAN_FLAG_PXE k) _ (canKey_ne (by decide))]
      exact Hub.flag_bit_same _ _ _ rfl
    · rw [Hub.canTo, Hub.put_can, Hub.canFlag, Hub.flag_can]
  case exceptionOff =>
    have self : ((s.hub.canFlag k (F.CAN_FLAG_PXE k)).canOff k).can[k] = (s.hub.can[k]).offed := by
      rw [Hub.canOff_self, Hub.canFlag, Hub.flag_can]
    have change : CanChange k [F.CAN_FLAG_PXE k, F.CAN_FLAG_TX k, F.CAN_STAT_STATE k] s.hub
        ((s.hub.canFlag k (F.CAN_FLAG_PXE k)).canOff k) :=
      ((CanChange.refl _ _ _).flag _ (by simp)).trans (Hub.canOff_change _ k (by simp) (by simp))
    refine (runs_iff (i := .canProtocolException k) rfl).mpr ?_
    rw [Hub.canException_eq st on, if_pos closing]
    refine ⟨Hub.canOff_st _ k, ?_, ?_, ?_, change.others, change.parts⟩
    · rw [Hub.canOff_bit _ k (f := F.CAN_FLAG_PXE k) (canKey_ne (by decide)) (canKey_ne (by decide))]
      exact Hub.flag_bit_same _ _ _ rfl
    · rw [self, Can.offed]
    · rw [self]
      exact Can.cancelAll_txreq _

end Sys2Proof.Machine
end

section
/-! PROOFS. Who may write GLB_RST_CTL and the GNO registers (O59). -/

namespace Sys2Proof.Machine

/-- On the F-die (R464) an access of a listed page is refused for its power domain or for its requester. -/
theorem Hub.check_refused_iff {h : Hub} {a : Access} {off o : Nat} {wr : Bool} {b : Block} (low : off < 0x100000)
    (page : locate off = some (b, o)) :
    h.check a off wr = .refused ↔ ((b.domain o).any fun d => !h.domOn d) = true ∨ h.admits a off b o wr = false := by
  have notPdie : (0x100000 ≤ off) = False := by simp; omega
  have notRegion1 : (0x180000 ≤ off) = False := by simp; omega
  unfold Hub.check
  rw [page]
  simp only [notPdie, notRegion1, decide_false, Bool.false_and, Bool.and_false, Bool.false_eq_true, if_false]
  by_cases dom : ((b.domain o).any fun d => !h.domOn d) = true
  · simp [dom]
  · by_cases adm : h.admits a off b o wr = true
    · simp only [dom, adm]
      cases b.regAt o <;> simp
    · simp [dom, adm]

/-- A register write whose requester is not admitted answers the error response of R11. -/
theorem Hub.regWrite_refused {h : Hub} {a : Access} {off : Nat} {v : W32} (e : h.check a off true = .refused) :
    h.regWrite a off v = h.refuse a off true := by
  simp only [Hub.regWrite, Hub.writeReg, e]

/-- So does a command that is a register write. -/
theorem Hub.cmdWrite_refused {h : Hub} {a : Access} {off : Nat} {op : Hub → Option Hub} (e : h.check a off true = .refused) :
    h.cmdWrite a off op = h.refuse a off true := by
  simp only [Hub.cmdWrite, e]

/-- A register write of an aligned word (R467). -/
theorem exec_registerWrite {a : Access} {addr v : W32} {s : State} {off : Nat} (at_ : addr.toNat = off)
    (word : off % 4 = 0) : exec (.registerWrite a addr v true) s = s.goes (s.hub.regWrite a off v) := by
  simp [exec, execRegisterWrite, at_, word]

/-! ## GLB_RST_CTL (R25) -/

theorem Hub.admits_rstCtl (h : Hub) (a : Access) : h.admits a 0x10 .glb 0x10 true = a.isIn [0, 9] := rfl

/-- GLB_RST_CTL refuses every requester but the steward and the local host. -/
theorem Hub.check_rstCtl {h : Hub} {a : Access} (e : a.isIn [0, 9] = false) : h.check a 0x10 true = .refused :=
  (Hub.check_refused_iff (by decide) (by decide)).mpr (.inr ((h.admits_rstCtl a).trans e))

/-- A command that is a refused write of GLB_RST_CTL answers the error response and leaves the register as it was. -/
theorem runs_rstCtl_refused {i : Instr} {s : State} {a : Access} (e : exec i s = s.goes (s.hub.refuse a 0x10 true)) :
    Runs i s fun h => h = s.hub.refuse a 0x10 true ∧ h.fld F.GLB_RST_CTL_CLUSTER = s.hub.fld F.GLB_RST_CTL_CLUSTER ∧
      h.fld F.GLB_RST_CTL_REGION = s.hub.fld F.GLB_RST_CTL_REGION ∧
      h.bit F.GLB_RST_CTL_PDIE = s.hub.bit F.GLB_RST_CTL_PDIE := by
  have kept (f : Fld) (low : f.key < 0x30000 * 32) : (s.hub.refuse a 0x10 true).fld f = s.hub.fld f :=
    Hub.refuse_fld _ _ _ _ _ (.inl low) fun e => absurd (e ▸ low) (by decide)
  exact (runs_iff e).mpr ⟨rfl, kept _ (by decide), kept _ (by decide), by rw [Hub.bit_eq, Hub.bit_eq, kept _ (by decide)]⟩

/-! ## The Gnomon's registers (R147) -/

theorem locate_gno {o : Nat} (e : o < 0x10000) : locate (0x60000 + o) = some (.gno, o) := by
  rw [locate, if_pos (by omega), locateF]
  iterate 13 rw [if_neg (by omega)]
  rw [if_pos (by omega), Nat.add_sub_cancel_left]

theorem Hub.admits_gno (h : Hub) (a : Access) {o : Nat} (wr : Bool) :
    h.admits a (0x60000 + o) .gno o wr = (!wr || a.isIn [0, 13] || ((o == 0x24 || o == 0x28) && a.isIn [9])) := by
  have notSecure : secureOff (0x60000 + o) = false := by
    simp only [secureOff, decide_eq_false_iff_not]
    omega
  simp [Hub.admits, notSecure]

/-- A write of a GNO register with its domain on is refused for its requester alone. -/
theorem Hub.check_gno_refused_iff {h : Hub} {a : Access} {o : Nat} {wr : Bool} (e : o < 0x10000) :
    h.check a (0x60000 + o) wr = .refused ↔ h.domOn 2 = false ∨
      (!wr || a.isIn [0, 13] || ((o == 0x24 || o == 0x28) && a.isIn [9])) = false := by
  rw [Hub.check_refused_iff (by omega) (locate_gno e), Hub.admits_gno]
  simp [Block.domain]

/-- Settles O59: on an F-die page the checks refuse for the domain or the requester alone, and a refused write is the
error response, which leaves the registers below the error block. -/
theorem registerWriters : Obligations.RegisterWriters := by
  unfold Obligations.RegisterWriters
  refine ⟨fun a h on => ?rstCtl, fun a v s e => ?rstCtlRefused, fun a o h e on => ⟨?gnoWrite, ?gnoRead⟩,
    fun a v addr s word lo hi e e' => ?gnoRefused⟩
  case rstCtl =>
    rw [ne_eq, Hub.check_refused_iff (by decide) (by decide : locate 0x10 = some (.glb, 0x10)), Hub.admits_rstCtl]
    simp [Block.domain, on]
  case rstCtlRefused =>
    have refused := Hub.check_rstCtl (h := s.hub) e
    have answer {i : Instr} {op : Hub → Option Hub} (command : exec i s = s.goes (s.hub.cmdWrite a 0x10 op)) :
        exec i s = s.goes (s.hub.refuse a 0x10 true) := by
      rw [command, Hub.cmdWrite_refused refused]
    have word : exec (.registerWrite a 0x10#32 v true) s = s.goes (s.hub.refuse a 0x10 true) := by
      rw [exec_registerWrite (off := 0x10) (by decide) (by decide), Hub.regWrite_refused refused]
    exact ⟨runs_rstCtl_refused word,
      runs_rstCtl_refused (answer (op := fun h => some (h.warmRst.hwSet F.GLB_RST_CAUSE_WARM)) rfl),
      runs_rstCtl_refused (answer (op := fun h => some h.askPdie) rfl),
      fun r => runs_rstCtl_refused (answer (op := fun h => some (h.askRegion a r)) rfl),
      fun c => runs_rstCtl_refused (answer (op := fun h => some (h.askCluster a c)) rfl)⟩
  case gnoWrite =>
    rw [ne_eq, Hub.check_gno_refused_iff e, on]
    have host : (o = 0x24 ∨ o = 0x28) ↔ (o == 0x24 || o == 0x28) = true := by simp
    rw [host]
    cases a.isIn [0, 13] <;> cases a.isIn [9] <;> cases (o == 0x24 || o == 0x28) <;> decide
  case gnoRead =>
    rw [ne_eq, Hub.check_gno_refused_iff e, on]
    simp
  case gnoRefused =>
    obtain ⟨o, at_⟩ := Nat.exists_eq_add_of_le lo
    have refused : s.hub.check a addr.toNat true = .refused := by
      rw [at_, Hub.check_gno_refused_iff (by omega)]
      refine .inr ?_
      rcases e' with q | ⟨q, q'⟩
      · simp [e, q]
      · have : o ≠ 0x24 ∧ o ≠ 0x28 := by omega
        simp [e, this]
    exact (runs_iff (exec_registerWrite rfl word)).mpr (Hub.regWrite_refused refused)

end Sys2Proof.Machine
end

section
/-! PROOFS. Resets of the P-die (O5): LANE_RESET_END puts a member of a full-duplex SPI pair into its partner's state. -/

namespace Sys2Proof.Machine

/-- The hub after reset with lane 0 the SPI lane of a pair, enabled and UP, and lane 1 its SPI_PAIR lane, in the reset of
its own CTL.RST and not enabled. -/
def pairInResetHub : Hub :=
  let h := ((State.reset.hub.put (F.LN_FUNC_FUNC 0) 2).on (F.LN_CTL_EN 0)).put (F.LN_STAT_STATE 0) lnUP
  ((h.put (F.LN_FUNC_FUNC 1) 3).on (F.LN_CTL_RST 1)).put (F.LN_STAT_STATE 1) lnRESET

/-- The lane leaves RESET into the state of its partner. -/
theorem pairInResetHub_end : (exec (.laneResetEnd 1) ⟨[], pairInResetHub⟩ = .next ⟨[], pairInResetHub.laneResetEnd 1⟩) ∧
    (pairInResetHub.laneResetEnd 1).ln 1 = lnUP := ⟨rfl, by decide⟩

/-- Refutes O5: its last clause takes every lane with a function that is not enabled from RESET to IDLE. Lane 1 with the
function SPI_PAIR, whose enable is that of the SPI lane beside it (R40), leaves RESET into that lane's state: UP here. -/
theorem not_pdieResets : ¬ Obligations.PdieResets := by
  unfold Obligations.PdieResets
  rintro ⟨-, -, -, -, -, -, resetEnd⟩
  have run := resetEnd 1 ⟨[], pairInResetHub⟩ (by decide) (by decide) (by decide)
  obtain ⟨step, up⟩ := pairInResetHub_end
  obtain ⟨-, idle⟩ := (runs_iff (s := ⟨[], pairInResetHub⟩) step).mp run
  exact absurd (up.symm.trans idle) (by decide)

end Sys2Proof.Machine
end

section
/-! PROOFS. READ at its target (O30): a read of a register sees the slot that its own arrival has abandoned. -/

namespace Sys2Proof.Machine

/-- A read of ECH_DISCARD by the steward of this hub, with tag 0. -/
def discardRead : Request :=
  { op := opREAD, addr := 0xB8028#48, len := 4, req := 0, snode := 0, smem := 0, tag := 0, again := false,
    posted := false, tc := 0, seq := 0, data := [] }

/-- A read of a device on lane 0 that used the same tag before. -/
def deviceRead : Request := { discardRead with addr := 0x3010000000#48 }

/-- The hub after reset with the bridge on: the device read's slot is READY with its data, its tag is in use for the
register read. -/
def readySlotHub : Hub :=
  (State.reset.hub.on F.BRG_CTL_EN).modBrg fun b =>
    { b with slot := b.slot.set 0 { st := .ready, rq := some deviceRead, data := [1, 2, 3, 4], retried := true }
             tag := b.tag.set 0 (.use { rq := discardRead, first := 0 }) }

theorem readySlotHub_admits : readySlotHub.admitsRq discardRead = true ∧ readySlotHub.awaits discardRead = true := by
  decide

/-- As the request arrives, no data has been discarded. -/
theorem readySlotHub_reads :
    ((readySlotHub.count F.BRG_NPCNT).readReg (readySlotHub.accessOf discardRead) 0xB8028).2 = some 0 := by decide

/-- The completion carries the count with the abandoned slot's data in it. -/
theorem readySlotHub_answers :
    (readySlotHub.serve discardRead).out.head? = some (.completion 0 0 0 0 false false [1, 0, 0, 0]) := by decide

/-- Refutes O30: its clause on the READ of a register takes the value from the hub before the request arrives. The request's
key names a READY slot of another access, which its arrival abandons (R217): the slot's data go to salvage, ECH_DISCARD
counts them, and the register read that follows answers 1 where the clause has 0. -/
theorem not_readsAndWritesAtTheTarget : ¬ Obligations.ReadsAndWritesAtTheTarget := by
  unfold Obligations.ReadsAndWritesAtTheTarget
  rintro ⟨registerRead, -⟩
  obtain ⟨admitted, awaited⟩ := readySlotHub_admits
  have run := registerRead discardRead 0 ⟨[], readySlotHub⟩ admitted awaited rfl (by decide) readySlotHub_reads
  have answer := (runs_iff (h := readySlotHub.serve discardRead) rfl).mp run
  exact absurd (readySlotHub_answers.symm.trans answer) (by decide)

end Sys2Proof.Machine
end

section
/-! PROOFS. What the hub's own traffic leaves alone: the bridge and the die-link channels (O4, O29). Each lemma says of one
operation that it keeps both. -/

namespace Sys2Proof.Machine

theorem LogOnly.keeps {h h' : Hub} (p : LogOnly h h') : h'.brg = h.brg ∧ h'.dl = h.dl := by
  rw [p.parts]
  exact ⟨rfl, rfl⟩

@[simp] theorem Hub.record_keeps (h : Hub) (e : LogEntry) :
    (h.record e).brg = h.brg ∧ (h.record e).dl = h.dl :=
  (h.record_only e).keeps

@[simp] theorem Hub.storm_keeps (h : Hub) : h.storm.brg = h.brg ∧ h.storm.dl = h.dl := h.storm_only.keeps

@[simp] theorem Hub.escalate_keeps (h : Hub) (pdie : Bool) :
    (h.escalate pdie).brg = h.brg ∧ (h.escalate pdie).dl = h.dl := by
  cases pdie <;> simp [Hub.escalate]

/-- An error of any class. -/
@[simp] theorem Hub.raise_keeps (h : Hub) (cls : BitVec 2) (u : UnitAt) (cause addr : Nat) (req : BitVec 4) (rnode : BitVec 8)
    (space : BitVec 2) (esc : Bool) :
    (h.raise cls u cause addr req rnode space esc).brg = h.brg ∧
      (h.raise cls u cause addr req rnode space esc).dl = h.dl := by
  unfold Hub.raise
  dsimp only
  split
  · simp
  · split <;> simp

@[simp] theorem Hub.peak_keeps (h : Hub) (f : Fld) (v : Nat) :
    (h.peak f v).brg = h.brg ∧ (h.peak f v).dl = h.dl := by
  simp [Hub.peak]

/-! ## Frames in tiles -/

@[simp] theorem Hub.tileChunk_keeps (h : Hub) (i off : Nat) (bs : List Byte) (full : Bool) :
    (h.tileChunk i off bs full).brg = h.brg ∧ (h.tileChunk i off bs full).dl = h.dl := ⟨rfl, rfl⟩

@[simp] theorem Hub.writeChain_keeps (h : Hub) (ts : List Nat) (bs : List Byte) :
    (h.writeChain ts bs).brg = h.brg ∧ (h.writeChain ts bs).dl = h.dl := by
  induction ts generalizing h bs with
  | nil => exact ⟨rfl, rfl⟩
  | cons t r ih => simpa [Hub.writeChain] using ih (h.tileChunk t 0 (padTile (bs.take 256))) (bs.drop 256)

theorem Hub.storeFrame_keeps {h h' : Hub} {pay : List Byte} {ts : List Nat} (e : h.storeFrame pay = some (h', ts)) :
    h'.brg = h.brg ∧ h'.dl = h.dl := by
  unfold Hub.storeFrame at e
  dsimp only at e
  split at e
  · cases e
  · cases e
    simp [Hub.takeTiles]

/-! ## Link control and pause -/

@[simp] theorem Hub.takeSeq_keeps (h : Hub) (k : Nat) :
    (h.takeSeq k).2.brg = h.brg ∧ (h.takeSeq k).2.dl = h.dl := ⟨rfl, rfl⟩

@[simp] theorem Hub.txStat_keeps (h : Hub) (l : Fin 4) (len : Nat) :
    (h.txStat l len).brg = h.brg ∧ (h.txStat l len).dl = h.dl := by simp [Hub.txStat]

@[simp] theorem Hub.sendLink_keeps (h : Hub) (l : Fin 4) (typ : BitVec 4) (pay : List Byte) (adr : BitVec 64) (x : Bool) :
    (h.sendLink l typ pay adr x).brg = h.brg ∧ (h.sendLink l typ pay adr x).dl = h.dl := by simp [Hub.sendLink]

@[simp] theorem Hub.sendPause_keeps (h : Hub) (p : Fin 7) (cs : List (Nat × Bool)) :
    (h.sendPause p cs).brg = h.brg ∧ (h.sendPause p cs).dl = h.dl := by
  unfold Hub.sendPause
  dsimp only
  repeat' split
  all_goals simp

@[simp] theorem Hub.pauseCheck_keeps (h : Hub) (p : Fin 7) (c : Nat) :
    (h.pauseCheck p c).brg = h.brg ∧ (h.pauseCheck p c).dl = h.dl := by
  simp [Hub.pauseCheck, Hub.pauseChecks]

/-! ## The switch -/

@[simp] theorem Hub.setQ_keeps (h : Hub) (q : Fin 56) (l : List QFrame) :
    (h.setQ q l).brg = h.brg ∧ (h.setQ q l).dl = h.dl := ⟨rfl, rfl⟩

@[simp] theorem Hub.spillEnter_keeps (h : Hub) : h.spillEnter.brg = h.brg ∧ h.spillEnter.dl = h.dl := by
  unfold Hub.spillEnter
  split <;> simp

@[simp] theorem Hub.append_keeps (h : Hub) (q : Fin 56) (f : QFrame) :
    (h.append q f).brg = h.brg ∧ (h.append q f).dl = h.dl := by
  simp [Hub.append]

@[simp] theorem Hub.qDrop_keeps (h : Hub) (q : Fin 56) :
    (h.qDrop q).brg = h.brg ∧ (h.qDrop q).dl = h.dl := by
  simp [Hub.qDrop]

@[simp] theorem Hub.spillIn_keeps (h : Hub) (q : Fin 56) (ing : Fin 7) (f : Frame) :
    (h.spillIn q ing f).1.brg = h.brg ∧ (h.spillIn q ing f).1.dl = h.dl := by
  unfold Hub.spillIn
  dsimp only
  split
  · simp
  · split
    · simp
    · split
      · simp
      · rename_i e
        simpa using Hub.storeFrame_keeps e

@[simp] theorem Hub.enqueue_keeps (h : Hub) (p ing : Fin 7) (f : Frame) :
    (h.enqueue p ing f).1.brg = h.brg ∧ (h.enqueue p ing f).1.dl = h.dl := by
  unfold Hub.enqueue
  dsimp only
  split
  · simp
  · split
    · simp
    · split
      · split
        · simp
        · rename_i stored
          simpa using Hub.storeFrame_keeps stored
      · split
        · simp
        · split
          · split
            · split
              · simp
              · rename_i stored
                simpa using Hub.storeFrame_keeps stored
            · simp
          · simp

@[simp] theorem Hub.rerouteOrFlush_keeps (h : Hub) (l : Fin 4) (ing : Fin 7) (f : Frame) :
    (h.rerouteOrFlush l ing f).brg = h.brg ∧ (h.rerouteOrFlush l ing f).dl = h.dl := by
  unfold Hub.rerouteOrFlush
  dsimp only
  repeat' split
  all_goals simp

@[simp] theorem Hub.route_keeps (h : Hub) (p ing : Fin 7) (f : Frame) :
    (h.route p ing f).1.brg = h.brg ∧ (h.route p ing f).1.dl = h.dl := by
  unfold Hub.route
  dsimp only
  repeat' split
  all_goals simp

@[simp] theorem Hub.ownCopy_keeps (h : Hub) (ing : Fin 7) (f : Frame) :
    (h.ownCopy ing f).brg = h.brg ∧ (h.ownCopy ing f).dl = h.dl := by
  unfold Hub.ownCopy
  dsimp only
  repeat' split
  all_goals simp

/-- A frame this hub sends. -/
@[simp] theorem Hub.send_keeps (h : Hub) (f : Frame) (ing : Fin 7) :
    (h.send f ing).brg = h.brg ∧ (h.send f ing).dl = h.dl := by
  unfold Hub.send
  dsimp only
  split <;> split <;> simp

end Sys2Proof.Machine
end

section
/-! PROOFS. The issuing bridge: requests, tags, completions, reissue and timers (O29). -/

namespace Sys2Proof.Machine

/-! ## Tags -/

theorem Hub.setTag_same (h : Hub) (t : Fin 256) (v : TagSt) : (h.setTag t v).brg.tag[t] = v := by simp [Hub.setTag]

theorem Hub.setTag_ne (h : Hub) {t k : Fin 256} (v : TagSt) (e : k ≠ t) : (h.setTag t v).brg.tag[k] = h.brg.tag[k] := by
  have : t.val ≠ k.val := fun q => e (Fin.ext q.symm)
  simp [Hub.setTag, this]

/-- A change of one tag, to a value. -/
structure TagSet (t : Fin 256) (v : TagSt) (h h' : Hub) : Prop where
  same : h'.brg.tag[t] = v
  others : ∀ k : Fin 256, k ≠ t → h'.brg.tag[k] = h.brg.tag[k]

theorem Hub.setTag_tagSet (h : Hub) (t : Fin 256) (v : TagSt) : TagSet t v h (h.setTag t v) :=
  ⟨h.setTag_same t v, fun _ e => h.setTag_ne v e⟩

/-- What keeps the bridge keeps the tags. -/
theorem TagSet.congr {t : Fin 256} {v : TagSt} {h g g' : Hub} (p : TagSet t v h g) (e : g'.brg = g.brg) :
    TagSet t v h g' := by
  obtain ⟨same, others⟩ := p
  exact ⟨by rw [e]; exact same, fun k ne => by rw [e]; exact others k ne⟩

theorem TagSet.of {t : Fin 256} {v : TagSt} {h g k : Hub} (p : TagSet t v g k) (e : g.brg.tag = h.brg.tag) :
    TagSet t v h k := by
  obtain ⟨same, others⟩ := p
  exact ⟨same, fun j ne => by rw [← e]; exact others j ne⟩

/-! ## Issue (R206, R207) -/

/-- The request as it leaves: its source is this hub, and it is no reissue. -/
def Hub.sourced (h : Hub) (rq : Request) : Request :=
  { rq with snode := 0, smem := BitVec.ofNat 2 h.member, again := false }

theorem Hub.depart_out {h : Hub} {rq : Request} (timed : Option (BitVec 64)) (away : h.staysHere rq = false) :
    h.depart rq timed = h.send (h.reqFrame rq timed) := by
  unfold Hub.depart
  rw [if_neg (Bool.eq_false_iff.mp away)]

/-- A request with a tag leaves for another hub: the tag is in use for it, and its frame is sent. -/
theorem Hub.leaves_tagged {h : Hub} {w : Waiting} {t : Fin 256}
    (away : h.staysHere { w.rq with tag := BitVec.ofNat 8 t } = false) :
    h.leaves w (some t) = (h.takeTag t w).send (h.reqFrame { w.rq with tag := BitVec.ofNat 8 t } w.timed) :=
  Hub.depart_out w.timed away

theorem Hub.takeTag_tagSet (h : Hub) (t : Fin 256) (w : Waiting) : TagSet t (.use
    { rq := { w.rq with tag := BitVec.ofNat 8 t, snode := 0, smem := BitVec.ofNat 2 h.member }, who := w.who,
      timed := w.timed, first := h.now, at_ := h.now, cto := h.cto, cplm := w.cplm }) h (h.takeTag t w) :=
  h.setTag_tagSet _ _

variable {h : Hub} {rq : Request}

/-- A request this hub issues for nobody it must serve, as it leaves. -/
def Hub.asked (h : Hub) (rq : Request) : Waiting := { rq := h.sourced rq, who := .plain, timed := none }

/-- A posted request with none of its requester's before it leaves at once (R206). -/
theorem Hub.issue_posted (noErr : h.issueErr (h.sourced rq) = none) (room : h.locksFull (h.sourced rq) = false)
    (posted : rq.posted = true) (noWait : h.brg.wait = []) (away : h.staysHere (h.sourced rq) = false) :
    h.issue { rq := rq, who := .plain, timed := none } = h.send (h.reqFrame (h.sourced rq) none) := by
  unfold Hub.sourced at *
  simp only [Hub.issue, noErr, room, noWait, List.any_nil, Bool.false_eq_true, if_false]
  rw [if_pos posted]
  exact Hub.depart_out none away

/-- A non-posted one with a tag available takes it and leaves (R206). -/
theorem Hub.issue_tagged {t : Fin 256} (noErr : h.issueErr (h.sourced rq) = none)
    (room : h.locksFull (h.sourced rq) = false) (asks : rq.posted = false) (free : h.tagNow rq.req = some t)
    (away : h.staysHere { h.sourced rq with tag := BitVec.ofNat 8 t } = false) :
    h.issue { rq := rq, who := .plain, timed := none } =
      (h.takeTag t (h.asked rq)).send (h.reqFrame { h.sourced rq with tag := BitVec.ofNat 8 t } none) := by
  unfold Hub.sourced at *
  simp only [Hub.issue, noErr, room, free, Bool.false_eq_true, if_false]
  rw [if_neg (Bool.eq_false_iff.mp asks)]
  exact Hub.leaves_tagged away

/-- Without one it waits (R207). -/
theorem Hub.issue_waits (noErr : h.issueErr (h.sourced rq) = none) (room : h.locksFull (h.sourced rq) = false)
    (asks : rq.posted = false) (none_ : h.tagNow rq.req = none) :
    h.issue { rq := rq, who := .plain, timed := none } = h.waitTag (h.asked rq) := by
  unfold Hub.sourced at *
  simp only [Hub.issue, noErr, room, none_, Bool.false_eq_true, if_false]
  exact if_neg (Bool.eq_false_iff.mp asks)

/-- The bridge ends a request itself before the join (R29). -/
theorem Hub.issueErr_unjoined (on : h.brgOn = true) (other : h.ownNode rq = false) (unjoined : h.node = 0)
    (one : rq.addr.node ≠ 255) : h.issueErr (h.sourced rq) = some stDOWN := by
  have other' : h.ownNode (h.sourced rq) = false := other
  have one' : ¬ ((h.sourced rq).addr.node = 255 ∧ ((!(h.sourced rq).posted) = true ∨ (h.sourced rq).op ≠ opWRITE)) :=
    fun e => one e.1
  unfold Hub.issueErr
  rw [on, if_neg (by decide), other', if_neg Bool.false_ne_true, if_neg one', if_pos (.inl unjoined)]

/-- A completion for nobody the hub must serve is one output. -/
theorem Hub.deliver_plain {u : Tx} (plain : u.who = .plain) (single : u.cplm = none) (st est : Nat) (lock salv : Bool)
    (data : List Byte) : h.deliver u st est lock salv data =
      h.emit (.completion u.rq.req u.rq.tag (BitVec.ofNat 4 st) est lock salv data) := by
  simp only [Hub.deliver, plain, single]

/-- The lock table stays with a completion that neither grants nor releases a lock (R232). -/
theorem Hub.lockTable_same {st : Nat} {lock : Bool} (kept : st ≠ stBACKOFF ∨ lock = false)
    (still : st ≠ stOK ∨ (isLock rq.op = false ∧ rq.op ≠ opUNLOCK)) : h.lockTable rq st lock = h := by
  have noBackoff : ¬ (st = stBACKOFF ∧ lock = true) := by
    rintro ⟨e, e'⟩
    rcases kept with k | k <;> simp_all
  unfold Hub.lockTable
  dsimp only
  rw [if_neg noBackoff]
  rcases still with e | ⟨e, e'⟩
  · simp [e]
  · simp [e, e']

/-- A request refused by the issuing hub ends with one completion and takes no tag. -/
theorem Hub.issue_refused {st : Nat} (err : h.issueErr (h.sourced rq) = some st) (asks : rq.posted = false)
    (down : st ≠ stBACKOFF) (bad : st ≠ stOK) : h.issue { rq := rq, who := .plain, timed := none } =
      h.emit (.completion rq.req rq.tag (BitVec.ofNat 4 st) 0 false false []) := by
  have table : h.lockTable (h.sourced rq) st false = h := Hub.lockTable_same (.inl down) (.inl bad)
  unfold Hub.sourced at *
  have notPosted : ¬ rq.posted = true := Bool.eq_false_iff.mp asks
  simp only [Hub.issue, err]
  rw [if_neg notPosted, Hub.localEnd, if_neg notPosted, table, Hub.deliver_plain rfl rfl]

/-- A request waits for a tag: counted and flagged, and nothing leaves (R207). -/
theorem Hub.waitTag_brg (h : Hub) (w : Waiting) : (h.waitTag w).brg = { h.brg with wait := h.brg.wait ++ [w] } := by
  simp [Hub.waitTag]

theorem Hub.waitTag_sw (h : Hub) (w : Waiting) : (h.waitTag w).sw = h.sw := by
  simp [Hub.waitTag]

theorem Hub.waitTag_stall (h : Hub) (w : Waiting) : (h.waitTag w).bit F.BRG_FLAG_TAGSTALL = true :=
  Hub.flag_bit_same _ _ _ rfl

/-- The one request that waits may leave as soon as a tag is available. -/
theorem Hub.mayLeave_one {w : Waiting} {t : Fin 256} (one : h.brg.wait = [w]) (asks : w.rq.posted = false)
    (free : h.tagFor w.rq.req = some t) : h.mayLeave = some (w, some t) := by
  simp [Hub.mayLeave, one, asks, free]

/-! ## Completions (R204, R209) -/

variable {tg : Fin 256} {u : Tx}

/-- A transaction nobody must be served for ends with one completion, and its tag is as given. -/
theorem Hub.finish_plain (next : TagSt) {st est : Nat} {lock salv : Bool} {data : List Byte} (plain : u.who = .plain)
    (single : u.cplm = none) (kept : st ≠ stBACKOFF ∨ lock = false)
    (still : st ≠ stOK ∨ (isLock u.rq.op = false ∧ u.rq.op ≠ opUNLOCK)) : h.finish tg u next st est lock salv data =
      (h.setTag tg next).emit (.completion u.rq.req u.rq.tag (BitVec.ofNat 4 st) est lock salv data) := by
  rw [Hub.finish, Hub.lockTable_same kept still, Hub.deliver_plain plain single]

theorem Hub.stGood_low {st : Nat} (e : st < 9) (addr : Nat) (req : BitVec 4) : h.stGood st addr req = (h, st) := by
  rw [Hub.stGood, if_neg (by omega)]

/-- A completion from the node and member a transaction of an attempt on its way was sent to. -/
theorem Hub.cplIn_awaited {tag : BitVec 8} {node mem : Nat} (inUse : h.brg.tag[tag.toNat] = .use u)
    (flying : u.flying = true) (fromMem : mem = u.rq.addr.mem.toNat) (fromNode : node = u.rq.addr.node.toNat)
    (st est : Nat) (lock salv : Bool) (data : List Byte) : h.cplIn tag node mem st est lock salv data =
      if st = stRETRY ∨ (st = stBACKOFF ∧ lock = false) then
        h.setTag ⟨tag.toNat, tag.isLt⟩ (.use { u with flying := false, at_ := h.now + us est, last := st })
      else (h.stGood st (u.rq.addr.off % 2 ^ 32) u.rq.req).1.finish ⟨tag.toNat, tag.isLt⟩ u .free
        (h.stGood st (u.rq.addr.off % 2 ^ 32) u.rq.req).2 est lock salv data := by
  simp [Hub.cplIn, inUse, flying, fromMem, fromNode]

/-- A final completion ends its transaction and frees the tag. -/
theorem Hub.cplIn_final {tag : BitVec 8} {node mem st : Nat} (inUse : h.brg.tag[tag.toNat] = .use u)
    (flying : u.flying = true) (fromMem : mem = u.rq.addr.mem.toNat) (fromNode : node = u.rq.addr.node.toNat)
    (noRetry : st ≠ stRETRY) (noBackoff : st ≠ stBACKOFF) (known : st < 9) (est : Nat) (lock salv : Bool)
    (data : List Byte) : h.cplIn tag node mem st est lock salv data =
      h.finish ⟨tag.toNat, tag.isLt⟩ u .free st est lock salv data := by
  rw [Hub.cplIn_awaited inUse flying fromMem fromNode, if_neg (by simp [noRetry, noBackoff]), Hub.stGood_low known]

theorem Hub.cplIn_stale {tag : BitVec 8} (free : h.brg.tag[tag.toNat] = .free) (node mem st est : Nat) (lock salv : Bool)
    (data : List Byte) : h.cplIn tag node mem st est lock salv data = h.staleCpl := by
  simp [Hub.cplIn, free]

theorem Hub.staleCpl_brg (h : Hub) : h.staleCpl.brg = h.brg := by simp [Hub.staleCpl]

theorem Hub.staleCpl_regs (h : Hub) : SameRegs h h.staleCpl [F.BRG_STALECPL, F.BRG_FLAG_STALE] := by
  obtain ⟨v, m, counted⟩ := h.count_plain F.BRG_STALECPL 1 fun l o => by
    rw [show locate F.BRG_STALECPL.off = some (.brg, 0x54) from by decide]
    simp
  refine SameRegs.flag ?_ _ (by simp)
  rw [counted]
  exact ((SameRegs.refl h _).put (by simp) v).congr rfl

/-! ## Reissue and timers (R208, R209, R216) -/

/-- The wait of a transaction is over. -/
theorem Hub.reissue_again (inUse : h.brg.tag[tg] = .use u) (waits : u.flying = false) (due : u.at_ ≤ h.now)
    (alive : h.now ≤ u.first + h.brgLife) (away : h.staysHere { u.rq with again := true } = false)
    (untimed : u.timed = none) : h.reissue tg = (h.setTag tg (.use { u with
      rq := { u.rq with again := true }, flying := true, at_ := h.now, cto := h.cto })).send
        (h.reqFrame { u.rq with again := true } none) := by
  have start : ¬ (u.flying = true ∨ h.now < u.at_) := by simp [waits, due]
  unfold Hub.reissue
  simp only [Fin.getElem_fin] at inUse ⊢
  rw [inUse]
  dsimp only
  rw [if_neg start, if_neg (by omega), untimed]
  exact Hub.depart_out none away

theorem Hub.reissue_late (inUse : h.brg.tag[tg] = .use u) (waits : u.flying = false) (due : u.at_ ≤ h.now)
    (late : u.first + h.brgLife < h.now) (retried : u.last = stRETRY) :
    h.reissue tg = h.finish tg u .free stTIMEOUT 0 false false [] := by
  have start : ¬ (u.flying = true ∨ h.now < u.at_) := by simp [waits, due]
  unfold Hub.reissue
  simp only [Fin.getElem_fin] at inUse ⊢
  rw [inUse]
  dsimp only
  rw [if_neg start, if_pos late, if_pos retried]

/-- The log and the flag of a completion timeout. -/
def Hub.ctoLogged (h : Hub) (u : Tx) : Hub :=
  ((h.count F.BRG_CTOCNT).flag .brg F.BRG_FLAG_CTO).raise 1 Block.brg.unit causeTIMEOUT (u.rq.addr.off % 2 ^ 32) u.rq.req
    (((h.count F.BRG_CTOCNT).flag .brg F.BRG_FLAG_CTO).resolve u.rq.addr.node) u.rq.addr.space

theorem Hub.cplTimeout_due (inUse : h.brg.tag[tg] = .use u) (flying : u.flying = true) (due : u.at_ + u.cto ≤ h.now) :
    h.cplTimeout tg = (h.ctoLogged u).finish tg u (.held (h.ctoLogged u).now) stTIMEOUT 0 false false [] := by
  have start : ¬ ((!u.flying) = true ∨ h.now < u.at_ + u.cto) := by simp [flying, due]
  unfold Hub.cplTimeout
  simp only [Fin.getElem_fin] at inUse ⊢
  rw [inUse]
  dsimp only
  rw [if_neg start]
  rfl

theorem Hub.ctoLogged_only (h : Hub) (u : Tx) :
    LogOnly ((h.count F.BRG_CTOCNT).flag .brg F.BRG_FLAG_CTO) (h.ctoLogged u) :=
  Hub.raise_only _ _ _ _ _ _ _ _ _ (.inl (by decide))

theorem Hub.ctoLogged_flag (h : Hub) (u : Tx) : (h.ctoLogged u).bit F.BRG_FLAG_CTO = true := by
  rw [Hub.bit_eq, (h.ctoLogged_only u).regs _ (.inr (by decide)), ← Hub.bit_eq]
  exact Hub.flag_bit_same _ _ _ rfl

theorem Hub.ctoLogged_parts (h : Hub) (u : Tx) :
    (h.ctoLogged u).brg = h.brg ∧ (h.ctoLogged u).now = h.now ∧ (h.ctoLogged u).lanes = h.lanes := by
  rw [(h.ctoLogged_only u).parts]
  simp

theorem Hub.tagRelease_due {t : Nat} (held : h.brg.tag[tg] = .held t)
    (due : t + us (h.fld F.BRG_TAGCFG_HOLD * 10) ≤ h.now) :
    h.tagRelease tg = h.setTag tg .free := by
  unfold Hub.tagRelease
  simp only [Fin.getElem_fin] at held ⊢
  rw [held]
  dsimp only
  rw [if_neg (by omega)]

/-! ## The commands -/

theorem exec_cpl {f : Frame} {s : State} (typ : f.hdr.typ = tCPL) : exec (.cpl f) s = s.goes (s.hub.onCpl f) :=
  congrArg s.goes (if_pos typ)

/-- With no completion of the same cycle (R209). -/
theorem exec_completionTimeout {t : Fin 256} {s : State} (noCpl : s.cplComes t = false) :
    exec (.completionTimeout t) s = s.goes (s.hub.cplTimeout t) :=
  congrArg s.goes (if_neg (Bool.eq_false_iff.mp noCpl))

/-- Settles O29: each command's hub is named by an equation for its case; sending a frame leaves the bridge alone. -/
theorem bridgeIssueAndTags : Obligations.BridgeIssueAndTags := by
  unfold Obligations.BridgeIssueAndTags
  refine ⟨fun rq tg s asks noErr room away free => ?tagged, fun rq s posted noErr room away noWait => ?posted,
    fun rq s asks on other unjoined one => ?unjoined, fun rq s asks noErr room noTag => ?waits,
    fun tg w s one asks free away => ?available,
    fun f u s typ inUse flying fromMem fromNode plain single noLock noUnlock ok => ?final,
    fun f u s typ inUse flying fromMem fromNode plain single retry => ?retry, fun f s typ free => ?stale,
    fun tg u s inUse waits due alive away untimed => ?again,
    fun tg u s inUse waits due late retried plain single noLock noUnlock => ?late,
    fun tg u s inUse flying due noCpl plain single noLock noUnlock => ?timeout, fun tg t s held due => ?release⟩
  case tagged =>
    obtain ⟨same, others⟩ := (s.hub.takeTag_tagSet tg (s.hub.asked rq)).congr (Hub.send_keeps _ _ _).1
    refine (runs_iff (i := .bridgeIssue rq) rfl).mpr ?_
    rw [Hub.issue_tagged noErr room asks free away]
    refine ⟨same, ?_, others⟩
    rw [(Hub.send_keeps _ _ _).1]
    rfl
  case posted =>
    refine (runs_iff (i := .bridgeIssue rq) rfl).mpr ?_
    rw [Hub.issue_posted noErr room posted noWait away]
    exact ⟨rfl, by rw [(Hub.send_keeps _ _ _).1]⟩
  case unjoined =>
    refine (runs_iff (i := .bridgeIssue rq) rfl).mpr ?_
    rw [Hub.issue_refused (Hub.issueErr_unjoined on other unjoined one) asks (by decide) (by decide)]
    exact ⟨rfl, rfl, rfl, rfl⟩
  case waits =>
    refine (runs_iff (i := .bridgeIssue rq) rfl).mpr ?_
    rw [Hub.issue_waits noErr room asks noTag, Hub.waitTag_brg]
    exact ⟨rfl, Hub.waitTag_stall _ _, rfl, Hub.waitTag_sw _ _⟩
  case available =>
    have away' : (s.hub.modBrg fun b => { b with wait := b.wait.erase w }).staysHere
        { w.rq with tag := BitVec.ofNat 8 tg } = false := away
    obtain ⟨same, others⟩ := (((s.hub.modBrg fun b => { b with wait := b.wait.erase w }).takeTag_tagSet tg w).congr
      (Hub.send_keeps _ _ _).1).of (h := s.hub) rfl
    refine (runs_iff (i := .tagAvailable) rfl).mpr ?_
    rw [Hub.mayLeave_one one asks free]
    dsimp only
    rw [Hub.leaves_tagged away']
    refine ⟨?_, same, others⟩
    rw [(Hub.send_keeps _ _ _).1]
    simp [Hub.takeTag, Hub.setTag, one]
  case final =>
    obtain ⟨same, others⟩ := s.hub.setTag_tagSet ⟨f.hdr.tag.toNat, f.hdr.tag.isLt⟩ .free
    refine (runs_iff (exec_cpl typ)).mpr ?_
    rw [Hub.onCpl, ok, Hub.cplIn_final inUse flying (by rw [fromMem]) (by rw [fromNode]) (by decide) (by decide)
      (by decide), Hub.finish_plain _ plain single (.inl (by decide)) (.inr ⟨noLock, noUnlock⟩)]
    exact ⟨same, rfl, fun k ne => others k fun e => ne (congrArg Fin.val e), rfl⟩
  case retry =>
    obtain ⟨same, others⟩ := s.hub.setTag_tagSet ⟨f.hdr.tag.toNat, f.hdr.tag.isLt⟩ (.use
      { u with flying := false, at_ := s.hub.now + us ((f.word 0).bits 31 16), last := 1 })
    refine (runs_iff (exec_cpl typ)).mpr ?_
    rw [Hub.onCpl, Hub.cplIn_awaited inUse flying (by rw [fromMem]) (by rw [fromNode]), retry, if_pos (.inl rfl)]
    exact ⟨same, fun k ne => others k fun e => ne (congrArg Fin.val e), rfl⟩
  case stale =>
    refine (runs_iff (exec_cpl typ)).mpr ?_
    rw [Hub.onCpl, Hub.cplIn_stale free]
    exact ⟨Hub.staleCpl_brg _, Hub.flag_bit_same _ _ _ rfl, Hub.staleCpl_regs _⟩
  case again =>
    obtain ⟨same, others⟩ := (s.hub.setTag_tagSet tg (.use { u with
      rq := { u.rq with again := true }, flying := true, at_ := s.hub.now, cto := s.hub.cto })).congr
        (Hub.send_keeps _ (s.hub.reqFrame { u.rq with again := true } none) 5).1
    refine (runs_iff (i := .reissue tg) rfl).mpr ?_
    rw [Hub.reissue_again inUse waits due alive away untimed]
    refine ⟨same, ?_, others⟩
    rw [(Hub.send_keeps _ _ _).1]
    rfl
  case late =>
    obtain ⟨same, others⟩ := s.hub.setTag_tagSet tg .free
    refine (runs_iff (i := .reissue tg) rfl).mpr ?_
    rw [Hub.reissue_late inUse waits due late retried,
      Hub.finish_plain _ plain single (.inl (by decide)) (.inl (by decide))]
    exact ⟨same, rfl, others, rfl⟩
  case timeout =>
    obtain ⟨brg, now, lanes⟩ := s.hub.ctoLogged_parts u
    obtain ⟨same, others⟩ := ((s.hub.ctoLogged u).setTag_tagSet tg
      (.held (s.hub.ctoLogged u).now)).of (h := s.hub) (by rw [brg])
    refine (runs_iff (exec_completionTimeout noCpl)).mpr ?_
    rw [Hub.cplTimeout_due inUse flying due, Hub.finish_plain _ plain single (.inl (by decide)) (.inl (by decide))]
    refine ⟨same.trans (by rw [now]), by rw [Hub.emit_out]; rfl, ?_, others, by simpa [Hub.setTag] using lanes⟩
    simpa [Hub.setTag] using s.hub.ctoLogged_flag u
  case release =>
    obtain ⟨same, others⟩ := s.hub.setTag_tagSet tg .free
    refine (runs_iff (i := .tagHoldExpire tg) rfl).mpr ?_
    rw [Hub.tagRelease_due held due]
    exact ⟨same, others, rfl⟩

end Sys2Proof.Machine
end

section
/-! PROOFS. A channel that goes down stays so through all that its lanes then do (O4): each lemma says of one operation of
the bridge, the CAN controllers and the lanes that it keeps the die-link channels. -/

namespace Sys2Proof.Machine

/-- A fold keeps what each of its steps keeps. -/
theorem foldl_dl {α : Type} {f : Hub → α → Hub} (step : ∀ h x, (f h x).dl = h.dl) (l : List α) (h : Hub) :
    (l.foldl f h).dl = h.dl :=
  List.foldlRecOn (motive := fun g => g.dl = h.dl) l f rfl fun g p x _ => (step g x).trans p

/-! ## Counters and flags -/

@[simp] theorem Hub.countSat_dl (h : Hub) (f : Fld) (n : Nat) : (h.countSat f n).dl = h.dl := rfl

@[simp] theorem Hub.draw_dl (h : Hub) : h.draw.2.dl = h.dl := rfl

@[simp] theorem Hub.drawEst_dl (h : Hub) : h.drawEst.2.dl = h.dl := rfl

theorem Hub.withIrq_dl (h : Hub) (s : Nat) {g : Hub → Hub} (e : (g h).dl = h.dl) : (h.withIrq s g).dl = h.dl := by
  unfold Hub.withIrq
  dsimp only
  split <;> simp [e]

/-! ## Events of lanes (R326, R354) -/

@[simp] theorem Hub.lampSend_dl (h : Hub) (sub : Nat) (ws : List W32) (data : List Byte) :
    (h.lampSend sub ws data).dl = h.dl := by
  unfold Hub.lampSend
  dsimp only
  split <;> simp

@[simp] theorem Hub.postReg_dl (h : Hub) (mem off : Nat) (v : W32) : (h.postReg mem off v).dl = h.dl := by
  simp [Hub.postReg, Hub.postWrite]

@[simp] theorem Hub.lockItem_dl (h : Hub) (ws : List W32) : (h.lockItem ws).dl = h.dl := by
  unfold Hub.lockItem
  split
  · rfl
  · split
    · simp
    · exact foldl_dl (fun g w => g.postReg_dl 0 0x98060 w) ws h

@[simp] theorem Hub.evPush_dl (h : Hub) (n : Fin 8) (e : EvEntry) : (h.evPush n e).dl = h.dl := by
  unfold Hub.evPush
  dsimp only
  repeat' split
  all_goals simp

@[simp] theorem Hub.evRoute_dl (h : Hub) (mask : Nat) (e : EvEntry) : (h.evRoute mask e).dl = h.dl := by
  refine foldl_dl (fun g n => ?_) _ h
  split <;> simp

@[simp] theorem Hub.lockEvent_dl (h : Hub) (mask : Nat) (e : EvEntry) : (h.lockEvent mask e).dl = h.dl := by
  unfold Hub.lockEvent
  split <;> simp

@[simp] theorem Hub.laneFlags_dl (h : Hub) (n : Fin 64) (fs : List Nat) : (h.laneFlags n fs).dl = h.dl := by
  have set : (h.withIrq (srcOf (.lane n)) fun h => fs.foldl (fun h i => h.on ⟨laneBase n + 0xC, i, 1⟩) h).dl = h.dl :=
    h.withIrq_dl _ (foldl_dl (f := fun h i => h.on ⟨laneBase n + 0xC, i, 1⟩)
      (fun g i => by rw [Hub.on_eq, Hub.put_dl]) fs h)
  unfold Hub.laneFlags
  dsimp only
  split
  · exact set
  · exact (Hub.lockEvent_dl _ _ _).trans set

/-! ## The bridge -/

@[simp] theorem Hub.modSlot_dl (h : Hub) (i : Fin 128) (g : Slot → Slot) : (h.modSlot i g).dl = h.dl := rfl

@[simp] theorem Hub.modLock_dl (h : Hub) (n : Fin 64) (g : LaneLock → LaneLock) : (h.modLock n g).dl = h.dl := rfl

@[simp] theorem Hub.setTag_dl (h : Hub) (t : Fin 256) (v : TagSt) : (h.setTag t v).dl = h.dl := rfl

@[simp] theorem Hub.setSalv_dl (h : Hub) (c : Fin 8) (i : Fin 16) (v : Option Salv) : (h.setSalv c i v).dl = h.dl := rfl

@[simp] theorem Hub.event_dl (h : Hub) (rq : Request) (st : Nat) (unit : BitVec 24) (op : BitVec 4) (record : Nat) :
    (h.event rq st unit op record).dl = h.dl := by
  unfold Hub.event
  dsimp only
  split
  · simp
  · split <;> simp [Hub.eventLog]

@[simp] theorem Hub.slotToSalv_dl (h : Hub) (i : Fin 128) (origin : Nat) (serve : Bool) :
    (h.slotToSalv i origin serve).dl = h.dl := by
  have put (rq : Request) (s : Slot) : (h.salvPut rq.lane rq.dev s.data s.g s.tick origin (serve && !s.noServe)).dl = h.dl := by
    unfold Hub.salvPut
    dsimp only
    repeat' split
    all_goals simp
  unfold Hub.slotToSalv
  dsimp only
  split
  · split <;> simp [put]
  · simp

@[simp] theorem Hub.lockRelease_dl (h : Hub) (n : Fin 64) : (h.lockRelease n).dl = h.dl := rfl

@[simp] theorem Hub.lockBreak_dl (h : Hub) (n : Fin 64) : (h.lockBreak n).dl = h.dl := by
  unfold Hub.lockBreak
  split <;> simp

@[simp] theorem Hub.unlockMeet_dl (h : Hub) (n : Fin 64) (k : Key) : (h.unlockMeet n k).1.dl = h.dl := by
  unfold Hub.unlockMeet Hub.unlockAt
  repeat' split
  all_goals simp

@[simp] theorem Hub.unlockOwn_dl (h : Hub) (rq : Request) : (h.unlockOwn rq).dl = h.dl := by
  unfold Hub.unlockOwn
  dsimp only
  repeat' split
  all_goals simp [Hub.logAccess]

@[simp] theorem Hub.sendUnlock_dl (h : Hub) (e : HeldLock) : (h.sendUnlock e).dl = h.dl := by
  unfold Hub.sendUnlock
  dsimp only
  split <;> simp

@[simp] theorem Hub.lockTable_dl (h : Hub) (rq : Request) (st : Nat) (lock : Bool) : (h.lockTable rq st lock).dl = h.dl := by
  unfold Hub.lockTable
  dsimp only
  split
  · rw [foldl_dl Hub.sendUnlock_dl]
    simp
  · repeat' split
    all_goals simp

@[simp] theorem Hub.coreSlotDone_dl (h : Hub) (n : Fin 8) (d : Fin 4) (st : Nat) (salv : Bool) (data : List Byte) :
    (h.coreSlotDone n d st salv data).dl = h.dl := by
  unfold Hub.coreSlotDone
  dsimp only
  repeat' split
  all_goals simp

@[simp] theorem Hub.deliver_dl (h : Hub) (t : Tx) (st est : Nat) (lock salv : Bool) (data : List Byte) :
    (h.deliver t st est lock salv data).dl = h.dl := by
  unfold Hub.deliver
  dsimp only
  split <;> split <;> simp [Hub.reedFrdDone]

@[simp] theorem Hub.finish_dl (h : Hub) (tag : Fin 256) (t : Tx) (next : TagSt) (st est : Nat) (lock salv : Bool)
    (data : List Byte) : (h.finish tag t next st est lock salv data).dl = h.dl := by
  simp [Hub.finish]

@[simp] theorem Hub.cplIn_dl (h : Hub) (tag : BitVec 8) (node mem st est : Nat) (lock salv : Bool) (data : List Byte) :
    (h.cplIn tag node mem st est lock salv data).dl = h.dl := by
  unfold Hub.cplIn Hub.staleCpl Hub.stGood
  dsimp only
  repeat' split
  all_goals simp

@[simp] theorem Hub.respond_dl (h : Hub) (rq : Request) (st est : Nat) (lock salv : Bool) (data : List Byte) :
    (h.respond rq st est lock salv data).dl = h.dl := by
  unfold Hub.respond
  dsimp only
  repeat' split
  all_goals simp

@[simp] theorem Hub.slotEnd_dl (h : Hub) (i : Fin 128) (st : Nat) (data : List Byte) : (h.slotEnd i st data).dl = h.dl := by
  unfold Hub.slotEnd
  dsimp only
  repeat' split
  all_goals simp

@[simp] theorem Hub.cutDevice_dl (h : Hub) (n : Fin 64) : (h.cutDevice n).dl = h.dl := by
  unfold Hub.cutDevice
  dsimp only
  rw [Hub.lockBreak_dl]
  refine (foldl_dl (fun g d => ?_) _ _).trans (h.modLane_dl n _)
  split <;> simp

/-! ## CAN controllers -/

@[simp] theorem Hub.canTo_dl (h : Hub) (k : Fin 16) (v : Nat) : (h.canTo k v).dl = h.dl := by
  rw [Hub.canTo, Hub.put_dl]

@[simp] theorem Hub.canJoin_dl (h : Hub) (k : Fin 16) : (h.canJoin k).dl = h.dl := by
  unfold Hub.canJoin
  dsimp only
  repeat' split
  · rw [Hub.canTo_dl]
  · rw [Hub.canTo_dl, Hub.put_dl]
  · rw [Hub.canTo_dl]

@[simp] theorem Hub.canEnd_dl (h : Hub) (k : Fin 16) (j : Fin 128) (res : Nat) : (h.canEnd k j res).dl = h.dl := by
  simp [Hub.canEnd, Hub.canFlag]

@[simp] theorem Hub.canFail_dl (h : Hub) (k : Fin 16) (one : Nat) : (h.canFail k one).dl = h.dl := by
  unfold Hub.canFail
  dsimp only
  repeat' split
  all_goals simp

@[simp] theorem Hub.canOff_dl (h : Hub) (k : Fin 16) : (h.canOff k).dl = h.dl := by
  rw [(h.canOff_change k (l := [F.CAN_FLAG_TX k, F.CAN_STAT_STATE k]) (by simp) (by simp)).parts]

@[simp] theorem Hub.canLaneDown_dl (h : Hub) (n : Fin 64) : (h.canLaneDown n).dl = h.dl := by
  unfold Hub.canLaneDown
  dsimp only
  repeat' split
  all_goals simp

@[simp] theorem Hub.canLaneUp_dl (h : Hub) (n : Fin 64) : (h.canLaneUp n).dl = h.dl := by
  unfold Hub.canLaneUp
  repeat' split
  all_goals simp

/-! ## Lanes -/

@[simp] theorem Hub.setCfg_dl (h : Hub) (n : Fin 64) (i : Nat) (v : W32) : (h.setCfg n i v).dl = h.dl := rfl

@[simp] theorem Hub.gripOne_dl (h : Hub) (n : Fin 64) : (h.gripOne n).dl = h.dl := rfl

@[simp] theorem Hub.lnTo_dl (h : Hub) (n : Fin 64) (st cause : Nat) : (h.lnTo n st cause).dl = h.dl := by
  unfold Hub.lnTo
  dsimp only
  split <;> simp

@[simp] theorem Hub.grip_dl (h : Hub) (n : Fin 64) : (h.grip n).dl = h.dl := by
  unfold Hub.grip
  dsimp only
  split <;> simp

@[simp] theorem Hub.fnStop_dl (h : Hub) (n : Fin 64) : (h.fnStop n).dl = h.dl := by
  unfold Hub.fnStop
  dsimp only
  split <;> simp

@[simp] theorem Hub.txFreed_dl (h : Hub) (n : Fin 64) (before : Nat) (extra : List Nat) : (h.txFreed n before extra).dl = h.dl := by
  unfold Hub.txFreed
  dsimp only
  split <;> split <;> simp

@[simp] theorem Hub.flushWords_dl (h : Hub) (n : Fin 64) (extra : List Nat) : (h.flushWords n extra).dl = h.dl := by
  simp [Hub.flushWords]

@[simp] theorem Hub.drawTx_dl (h : Hub) (n : Fin 64) : (h.drawTx n).1.dl = h.dl := by
  unfold Hub.drawTx
  dsimp only
  split
  · rfl
  · split <;> simp

@[simp] theorem Hub.uartBegin_dl (h : Hub) (n : Fin 64) : (h.uartBegin n).dl = h.dl := by
  have drawn := h.drawTx_dl n
  unfold Hub.uartBegin
  dsimp only
  split
  · split
    · rfl
    · split
      · rename_i e
        rw [e] at drawn
        split <;> simpa using drawn
      · rename_i e
        rw [e] at drawn
        exact drawn
  · rfl

@[simp] theorem Hub.devStart_dl (h : Hub) (n : Fin 64) : (h.devStart n).dl = h.dl := by
  unfold Hub.devStart
  dsimp only
  repeat' split
  all_goals simp

@[simp] theorem Hub.enterUp_dl (h : Hub) (n : Fin 64) : (h.enterUp n).dl = h.dl := by
  unfold Hub.enterUp
  dsimp only
  split <;> simp [Hub.pwmStart]

@[simp] theorem Hub.enterDown_dl (h : Hub) (n : Fin 64) (cause : Nat) (extra : List Nat) :
    (h.enterDown n cause extra).dl = h.dl := by
  simp [Hub.enterDown]

@[simp] theorem Hub.leaveUp_dl (h : Hub) (n : Fin 64) (cause : Nat) : (h.leaveUp n cause).dl = h.dl := by
  unfold Hub.leaveUp
  dsimp only
  repeat' split
  all_goals simp

@[simp] theorem Hub.dropOld_dl (h : Hub) (n : Fin 64) : (h.dropOld n).dl = h.dl := by
  unfold Hub.dropOld
  dsimp only
  repeat' split
  all_goals simp

@[simp] theorem Hub.holdOut_dl (h : Hub) (n : Fin 64) : (h.holdOut n).dl = h.dl := by
  unfold Hub.holdOut
  split <;> simp

@[simp] theorem Hub.laneEval_dl (h : Hub) (n : Fin 64) : (h.laneEval n).dl = h.dl := by
  unfold Hub.laneEval
  dsimp only
  repeat' split
  all_goals simp

end Sys2Proof.Machine
end

section
/-! PROOFS. Cold and warm resets of the package, and the loss of a die-link channel (O4). -/

namespace Sys2Proof.Machine

/-! ## The lanes' pages -/

/-- A lane's page in the address map (R470). -/
theorem locate_lane (n : Fin 64) {o : Nat} (e : o < 0x1000) : locate (laneBase n + o) = some (.lane n, o) := by
  have cluster : (laneBase n + o - 0x100000) / 0x20000 = n / 8 := by
    simp only [laneBase, clusterBase]
    omega
  have rest : (laneBase n + o - 0x100000) % 0x20000 = n % 8 * 0x1000 + o := by
    simp only [laneBase, clusterBase]
    omega
  have page : ¬ laneBase n + o < 0x100000 := by
    simp only [laneBase, clusterBase]
    omega
  rw [locate, if_neg page, locateP]
  simp only [cluster, rest]
  rw [dif_pos (by omega), dif_pos (by omega)]
  simp only [Option.some.injEq, Prod.mk.injEq, Block.lane.injEq, Fin.ext_iff]
  omega

/-- The reset value of a lane's field is the one its table lists. -/
theorem resetOf_lane (n : Fin 64) {o lo w v : Nat} {r : RegD} (ho : o < 0x1000) (hlo : lo < 32)
    (row : (Block.lane n).regAt o = some r) (listed : (r.fields.find? fun f => f.lo == lo).map FieldD.reset = some v) :
    resetOf (Fld.mk (laneBase n + o) lo w).key = v := by
  have off : (Fld.mk (laneBase n + o) lo w).key / 32 = laneBase n + o := by
    simp only [Fld.key]
    omega
  have bit : (Fld.mk (laneBase n + o) lo w).key % 32 = lo := by
    simp only [Fld.key]
    omega
  obtain ⟨f, found, reset⟩ := Option.map_eq_some_iff.mp listed
  rw [resetOf, off, bit, regAt, locate_lane n ho]
  simp only [row, found, reset]

/-- The P-die's fields. -/
def Fld.onPdie (f : Fld) : Prop := 0x100000 * 32 ≤ f.key

theorem laneFld_onPdie (n : Fin 64) (o lo w : Nat) : (Fld.mk (laneBase n + o) lo w).onPdie := by
  simp only [Fld.onPdie, Fld.key, laneBase, clusterBase]
  omega

/-! ## What a reset of the package keeps of the registers -/

/-- A field keeps its value where the reset says so and takes its reset value elsewhere. -/
theorem Hub.restart_fld (h : Hub) (kept : Nat → Bool) (err : Err) (keep : Bool) (stack : Option Nat) (f : Fld) :
    (h.restart kept err keep stack).fld f = if kept f.key then h.fld f else resetOf f.key :=
  Sparse.get_filter _ _ kept _

/-- A change of the mailboxes' registers and of what is marked of the cycle. -/
structure MbxOnly (h h' : Hub) : Prop where
  parts : h' = { h with fields := h'.fields, hw := h'.hw }
  regs : ∀ f : Fld, f.key < 0x50000 * 32 ∨ 0x60000 * 32 ≤ f.key → h'.fld f = h.fld f

theorem MbxOnly.put {h g : Hub} (p : MbxOnly h g) {f : Fld} (e : 0x50000 * 32 ≤ f.key ∧ f.key < 0x60000 * 32) (v : Nat) :
    MbxOnly h (g.put f v) := by
  obtain ⟨parts, regs⟩ := p
  refine ⟨?_, fun k hk => (Hub.fld_put_ne g f k v (by omega)).trans (regs k hk)⟩
  rw [parts]
  rfl

theorem MbxOnly.hwSet {h g : Hub} (p : MbxOnly h g) {f : Fld} (e : 0x50000 * 32 ≤ f.key ∧ f.key < 0x60000 * 32) :
    MbxOnly h (g.hwSet f) := by
  obtain ⟨parts, regs⟩ := p.put e (g.fld f ||| 1)
  refine ⟨?_, fun k hk => regs k hk⟩
  rw [Hub.hwSet, parts]
  rfl

/-- A channel's registers lie between 0x50000 and 0x60000 (Table 13.6). -/
theorem mbxFld_on (k : Fin 4) {o lo : Nat} (w : Nat) (ho : o < 0x1000) (hlo : lo < 32) :
    0x50000 * 32 ≤ (Fld.mk (mbxBase k + o) lo w).key ∧ (Fld.mk (mbxBase k + o) lo w).key < 0x60000 * 32 := by
  simp only [Fld.key, mbxBase]
  split <;> omega

/-- The abort of the mailboxes' messages writes their own registers (R400). -/
theorem Hub.mbxAbort_only (h : Hub) : MbxOnly h h.mbxAbort := by
  refine List.foldlRecOn (motive := MbxOnly h) _ _ ⟨rfl, fun _ _ => rfl⟩ fun g p k _ => ?_
  exact ((p.put (mbxFld_on k _ (by decide) (by decide)) _).put (mbxFld_on k _ (by decide) (by decide)) _).hwSet
    (mbxFld_on k _ (by decide) (by decide))

theorem coldKeeps_pdie {f : Fld} (e : f.onPdie) : coldKeeps f.key = false := by
  have : 0x100000 ≤ f.key / 32 := by
    unfold Fld.onPdie at e
    omega
  simp [coldKeeps, keyIn, linkBase]
  omega

theorem warmKeeps_pdie {f : Fld} (e : f.onPdie) : warmKeeps f.key = false := by
  have : 0x100000 ≤ f.key / 32 := by
    unfold Fld.onPdie at e
    omega
  simp [warmKeeps, coldKeeps_pdie e, keyIn]
  omega

/-- The registers of the restarted package with its mailboxes aborted. -/
theorem Hub.restarted_fld (h : Hub) (kept : Nat → Bool) (err : Err) (keep : Bool) (stack : Option Nat) {f : Fld}
    (e : f.key < 0x50000 * 32 ∨ 0x60000 * 32 ≤ f.key) : (h.restart kept err keep stack).mbxAbort.fld f =
      if kept f.key then h.fld f else resetOf f.key :=
  ((Hub.mbxAbort_only _).regs f e).trans (h.restart_fld kept err keep stack f)

/-- A P-die field takes its reset value. -/
theorem Hub.restarted_pdie (h : Hub) {kept : Nat → Bool} (err : Err) (keep : Bool) (stack : Option Nat) {f : Fld}
    (e : f.onPdie) (none_ : kept f.key = false) : (h.restart kept err keep stack).mbxAbort.fld f = resetOf f.key := by
  rw [Hub.restarted_fld _ _ _ _ _ (.inr (by unfold Fld.onPdie at e; omega)), none_, if_neg Bool.false_ne_true]

/-- A lane after a reset of the package: no state, no function, the hold time of its table (Table 1.5). -/
def Hub.LaneFresh (h : Hub) (n : Fin 64) : Prop := h.ln n = 0 ∧ h.fn n = 15 ∧ h.fld (F.LN_HOLD_TIME n) = 500

theorem resetOf_laneFresh (n : Fin 64) : resetOf (F.LN_STAT_STATE n).key = 0 ∧ resetOf (F.LN_FUNC_FUNC n).key = 15 ∧
    resetOf (F.LN_HOLD_TIME n).key = 500 :=
  ⟨resetOf_lane n (o := 8) (lo := 0) (w := 3) (by decide) (by decide) rfl rfl,
    resetOf_lane n (o := 0) (lo := 0) (w := 4) (by decide) (by decide) rfl rfl,
    resetOf_lane n (o := 0x28) (lo := 0) (w := 16) (by decide) (by decide) rfl rfl⟩

theorem Hub.LaneFresh.of_resets {h : Hub} (e : ∀ f : Fld, f.onPdie → h.fld f = resetOf f.key) (n : Fin 64) :
    h.LaneFresh n := by
  obtain ⟨state, func, hold⟩ := resetOf_laneFresh n
  exact ⟨(e _ (laneFld_onPdie n _ _ _)).trans state, (e _ (laneFld_onPdie n _ _ _)).trans func,
    (e _ (laneFld_onPdie n _ _ _)).trans hold⟩

/-! ## Cold reset (R21) -/

/-- The end of a cold reset: nothing is asleep, and the flash devices are reset (R21). -/
def Hub.woken (g : Hub) : Hub := Hub.emit { g with pwr := { g.pwr with asleep := none, minoff := false } } .xspiReset

/-- The hub of a cold reset before the straps are latched. -/
def Hub.coldBare (h : Hub) : Hub := (h.restart coldKeeps {} false none).mbxAbort.woken

theorem Hub.coldRst_eq (h : Hub) (strap : BitVec 4) : h.coldRst strap =
    (((h.coldBare.put F.GLB_STRAP_MEMBER (strap.extractLsb' 0 2).toNat).put F.GLB_SELF_MEMBER
      (strap.extractLsb' 0 2).toNat).putB F.GLB_STRAP_BOOT_SRC (strap.getLsbD 2)).putB F.GLB_STRAP_PREFERRED
        (strap.getLsbD 3) := by
  unfold Hub.coldRst Hub.coldBare Hub.woken
  rfl

theorem Hub.woken_fld (g : Hub) (f : Fld) : g.woken.fld f = g.fld f := rfl

theorem Hub.coldBare_pdie (h : Hub) {f : Fld} (e : f.onPdie) : h.coldBare.fld f = resetOf f.key := by
  rw [Hub.coldBare, Hub.woken_fld]
  exact h.restarted_pdie {} false none e (coldKeeps_pdie e)

/-- Outside the registers a cold reset leaves the fuses and the Bellows. -/
theorem Hub.coldRst_parts (h : Hub) (strap : BitVec 4) : (h.coldRst strap).tl = {} ∧
    (h.coldRst strap).can = Vector.replicate 16 {} ∧ (h.coldRst strap).err = {} ∧ (h.coldRst strap).fuse = h.fuse ∧
    (h.coldRst strap).bel = h.bel := by
  rw [Hub.coldRst_eq, Hub.coldBare, (Hub.mbxAbort_only _).parts]
  simp [Hub.woken, Hub.restart]

theorem Hub.bit_putB_same (h : Hub) (f : Fld) (b : Bool) (e : f.w = 1) : (h.putB f b).bit f = b := by
  unfold Hub.bit
  rw [Hub.putB, Hub.fld_put_same, e]
  cases b <;> rfl

/-- The latched straps and every P-die field after a cold reset. -/
theorem Hub.coldRst_fields (h : Hub) (strap : BitVec 4) :
    (h.coldRst strap).fld F.GLB_STRAP_MEMBER = (strap.extractLsb' 0 2).toNat ∧
      (h.coldRst strap).bit F.GLB_STRAP_BOOT_SRC = strap.getLsbD 2 ∧
      (h.coldRst strap).bit F.GLB_STRAP_PREFERRED = strap.getLsbD 3 ∧
      ∀ f : Fld, f.onPdie → (h.coldRst strap).fld f = resetOf f.key := by
  rw [Hub.coldRst_eq]
  refine ⟨?_, ?_, Hub.bit_putB_same _ _ _ rfl, fun f e => ?_⟩
  · rw [Hub.putB_eq, Hub.fld_put_ne _ _ _ _ (by decide), Hub.putB_eq, Hub.fld_put_ne _ _ _ _ (by decide),
      Hub.fld_put_ne _ _ _ _ (by decide), Hub.fld_put_same]
    exact Nat.mod_eq_of_lt (strap.extractLsb' 0 2).isLt
  · rw [Hub.putB_eq, Hub.bit_put_ne _ _ _ _ (by decide)]
    exact Hub.bit_putB_same _ _ _ rfl
  · have off (g : Fld) (low : g.key < 0x100000 * 32) : f.key ≠ g.key := by
      unfold Fld.onPdie at e
      omega
    rw [Hub.putB_eq, Hub.fld_put_ne _ _ _ _ (off _ (by decide)), Hub.putB_eq, Hub.fld_put_ne _ _ _ _ (off _ (by decide)),
      Hub.fld_put_ne _ _ _ _ (off _ (by decide)), Hub.fld_put_ne _ _ _ _ (off _ (by decide)), h.coldBare_pdie e]

/-! ## Warm reset (R21, R454) -/

theorem Hub.hwSet_bit_same (h : Hub) (f : Fld) (e : f.w = 1) : (h.hwSet f).bit f = true := by
  unfold Hub.bit Hub.hwSet
  rw [Hub.mark_fld, Hub.fld_put_same, e, pow_one, bne_iff_ne, Nat.or_mod_two_eq_one.mpr (.inr rfl)]
  decide

/-- What a warm reset leaves: the log and the first-error capture, the fuses, the strap latch, every lane's pins on the
keepers, no action pending at any cluster, no tile in use. -/
def Hub.WarmLeft (h h' : Hub) : Prop :=
  h'.err.log = h.err.log ∧ h'.err.fec = h.err.fec ∧ h'.fuse = h.fuse ∧
    h'.fld F.GLB_STRAP_MEMBER = h.fld F.GLB_STRAP_MEMBER ∧ (∀ n : Fin 64, (h'.lanes[n]).keep = true ∧ h'.ln n = 0) ∧
    (∀ c : Fin 8, (h'.reed[c]).ctr = 0 ∧ (h'.reed[c]).q = []) ∧ h'.tl = ({} : Tiles)

theorem Hub.warmRst_fld (h : Hub) (f : Fld) (e : f.key < 0x50000 * 32 ∨ 0x60000 * 32 ≤ f.key) :
    h.warmRst.fld f = if warmKeeps f.key then h.fld f else resetOf f.key :=
  h.restarted_fld warmKeeps { log := h.err.log, fec := h.err.fec } true h.ldr.stack e

theorem Hub.warmRst_left (h : Hub) : h.WarmLeft h.warmRst := by
  have only := Hub.mbxAbort_only (h.restart warmKeeps { log := h.err.log, fec := h.err.fec } true h.ldr.stack)
  have state (n : Fin 64) : h.warmRst.ln n = 0 := by
    have onPdie := laneFld_onPdie n 8 0 3
    rw [Hub.ln, F.LN_STAT_STATE, h.warmRst_fld _ (.inr (by unfold Fld.onPdie at onPdie; omega)), warmKeeps_pdie onPdie,
      if_neg Bool.false_ne_true]
    exact (resetOf_laneFresh n).1
  have strap : h.warmRst.fld F.GLB_STRAP_MEMBER = h.fld F.GLB_STRAP_MEMBER := by
    rw [h.warmRst_fld _ (.inl (by decide)), if_pos (by decide)]
  refine ⟨?_, ?_, ?_, strap, fun n => ⟨?_, state n⟩, fun c => ⟨?_, ?_⟩, ?_⟩
  all_goals
    unfold Hub.warmRst
    simp only [Hub.emit_err, Hub.emit_fuse, Hub.emit_lanes, Hub.emit_reed, Hub.emit_tl]
    rw [only.parts]
    simp [Hub.restart, Lane.cleared]

/-- The bit of the cause changes none of it. -/
theorem Hub.WarmLeft.cause {h g : Hub} (p : h.WarmLeft g) {f : Fld} (e : f.off = 0x14) (w : f.lo < 32) :
    h.WarmLeft (g.hwSet f) := by
  obtain ⟨log, fec, fuse, strap, lanes, reed, tl⟩ := p
  refine ⟨log, fec, fuse, ?_, fun n => ⟨(lanes n).1, ?_⟩, reed, tl⟩
  · rw [Hub.hwSet, Hub.mark_fld, Hub.fld_put_ne _ _ _ _ ?_, strap]
    simp only [Fld.key, F.GLB_STRAP_MEMBER, e]
    omega
  · have onPdie := laneFld_onPdie n 8 0 3
    rw [Hub.hwSet, Hub.ln, F.LN_STAT_STATE, Hub.mark_fld, Hub.fld_put_ne _ _ _ _ ?_]
    · exact (lanes n).2
    · unfold Fld.onPdie at onPdie
      simp only [Fld.key, e] at onPdie ⊢
      omega

/-! ## Die-link channels (R17) -/

variable {h : Hub} {r : Fin 2}

theorem Hub.flitFail_few (up : (h.dl[r]).down = false) (few : (h.dl[r]).fails < 3) :
    h.flitFail r = { h with dl := h.dl.set r { h.dl[r] with fails := (h.dl[r]).fails + 1 } } := by
  unfold Hub.flitFail
  dsimp only
  rw [if_neg (Bool.eq_false_iff.mp up), if_pos few]

/-- The fourth failure in a row takes the channel down; what the lanes of its region then do leaves it down. -/
theorem Hub.flitFail_fourth (up : (h.dl[r]).down = false) (third : (h.dl[r]).fails = 3) :
    ((h.flitFail r).dl[r]).down = true := by
  have lanes (c : Fin 8) (g : Hub) : ((lanesOf c).foldl (fun h n => (h.leaveUp n 4).laneEval n) g).dl = g.dl :=
    foldl_dl (fun g n => by simp) _ g
  unfold Hub.flitFail
  dsimp only
  rw [if_neg (Bool.eq_false_iff.mp up), if_neg (by omega), foldl_dl (fun g c => lanes c g),
    (Hub.raise_keeps _ _ _ _ _ _ _ _ _).2]
  simp

/-- Settles O4: a reset's registers are those its filter keeps and the reset values of the rest; no operation of a lane
brings a channel back. -/
theorem packageResets : Obligations.PackageResets := by
  unfold Obligations.PackageResets
  refine ⟨fun strap s => ?cold, fun a s admitted => ?software, fun s => ?fatal, fun s => ?ring, fun r s up few => ?few,
    fun r s up third => ?fourth⟩
  case cold =>
    obtain ⟨member, src, preferred, resets⟩ := s.hub.coldRst_fields strap
    obtain ⟨tl, can, err, fuse, bel⟩ := s.hub.coldRst_parts strap
    exact (runs_iff (i := .coldReset strap) (h := s.hub.coldRst strap) rfl).mpr
      ⟨member, src, preferred, tl, can, err, fuse, bel, Hub.LaneFresh.of_resets resets⟩
  case software =>
    exact (runs_cmdDo (i := .warmReset (.software a)) (g := fun h => h.warmRst.hwSet F.GLB_RST_CAUSE_WARM) rfl
      admitted).mpr ⟨Hub.hwSet_bit_same _ _ rfl, s.hub.warmRst_left.cause rfl (by decide)⟩
  case fatal =>
    exact (runs_iff (i := .warmReset .fatal) (h := s.hub.warmRst.hwSet F.GLB_RST_CAUSE_FATAL) rfl).mpr
      ⟨Hub.hwSet_bit_same _ _ rfl, s.hub.warmRst_left.cause rfl (by decide)⟩
  case ring =>
    exact (runs_iff (i := .warmReset .ring) (h := s.hub.warmRst.hwSet F.GLB_RST_CAUSE_RING) rfl).mpr
      ⟨Hub.hwSet_bit_same _ _ rfl, s.hub.warmRst_left.cause rfl (by decide)⟩
  case few =>
    refine (runs_iff (i := .dieLinkFlitFail r) rfl).mpr ?_
    rw [Hub.flitFail_few up few]
    simpa using up
  case fourth =>
    exact (runs_iff (i := .dieLinkFlitFail r) rfl).mpr (Hub.flitFail_fourth up third)

end Sys2Proof.Machine
end

section
/-! PROOFS. What the hub's own traffic leaves alone on the field side: the lanes, the clock and the registers of the P-die
and of the UART tunnels (O6-O13). Each lemma says of one operation that it keeps all of them. -/

namespace Sys2Proof.Machine

/-! ## The field side -/

/-- The registers that no frame the hub sends changes: those of the P-die (R470) and of the UART tunnels (R237). -/
def Fld.fieldSide (f : Fld) : Bool :=
  decide (0x100000 * 32 ≤ f.key) || decide (0xB3000 * 32 ≤ f.key ∧ f.key < 0xB8000 * 32)

theorem Fld.fieldSide_iff (f : Fld) : f.fieldSide = true ↔ 0x100000 * 32 ≤ f.key ∨ 0xB3000 * 32 ≤ f.key ∧ f.key < 0xB8000 * 32 := by
  simp [Fld.fieldSide]

theorem laneFld_fieldSide (n : Fin 64) (o lo w : Nat) : (Fld.mk (laneBase n + o) lo w).fieldSide = true :=
  (Fld.fieldSide_iff _).mpr (.inl (laneFld_onPdie n o lo w))

theorem Fld.fieldSide_eq_false {f : Fld} (low : f.key < 0x100000 * 32) (tun : f.key < 0xB3000 * 32 ∨ 0xB8000 * 32 ≤ f.key) :
    f.fieldSide = false := by
  rw [Bool.eq_false_iff, ne_eq, Fld.fieldSide_iff]
  omega

/-- What the lanes' functions are made of: the lanes, the clock and the registers of the field side. -/
def Hub.fieldView (h : Hub) : Vector Lane 64 × Nat × (∀ f : Fld, f.fieldSide = true → Nat) := (h.lanes, h.now, fun f _ => h.fld f)

theorem Hub.fieldView_eq {h g : Hub} (lanes : g.lanes = h.lanes) (now : g.now = h.now)
    (regs : ∀ f : Fld, f.fieldSide = true → g.fld f = h.fld f) : g.fieldView = h.fieldView :=
  Prod.ext lanes (Prod.ext now (funext fun f => funext (regs f)))

section
variable {h g : Hub} (e : g.fieldView = h.fieldView)
include e

theorem Hub.lanes_of_fieldView : g.lanes = h.lanes := congrArg Prod.fst e

theorem Hub.now_of_fieldView : g.now = h.now := congrArg (fun v => v.2.1) e

theorem Hub.fld_of_fieldView {f : Fld} (hf : f.fieldSide = true) : g.fld f = h.fld f := congrArg (fun v => v.2.2 f hf) e

end

/-- Registers alike in another hub with the same lanes and clock. -/
theorem Hub.fieldView_congr {h g : Hub} (fields : g.fields = h.fields) (lanes : g.lanes = h.lanes) (now : g.now = h.now) :
    g.fieldView = h.fieldView :=
  Hub.fieldView_eq lanes now fun f _ => Hub.fld_congr fields f

theorem LogOnly.fieldView {h g : Hub} (p : LogOnly h g) : g.fieldView = h.fieldView := by
  refine Hub.fieldView_eq ?_ ?_ fun f hf => p.regs f ?_
  · rw [p.parts]
  · rw [p.parts]
  · rw [Fld.fieldSide_iff] at hf
    unfold Fld.notErr
    omega

/-- A fold keeps what each of its steps keeps. -/
theorem foldl_fieldView {α : Type} {f : Hub → α → Hub} (step : ∀ h x, (f h x).fieldView = h.fieldView) (l : List α) (h : Hub) :
    (l.foldl f h).fieldView = h.fieldView :=
  List.foldlRecOn (motive := fun g => g.fieldView = h.fieldView) l f rfl fun g p x _ => (step g x).trans p

/-! ## Registers of the switch side -/

theorem linkFld_inner (l : Fin 4) {o lo w : Nat} (ho : o < 0x1000) (hlo : lo < 32) :
    (Fld.mk (linkBase l + o) lo w).fieldSide = false := by
  have base : linkBase l ≤ 0x94000 := by
    unfold linkBase
    split <;> omega
  apply Fld.fieldSide_eq_false <;> simp only [Fld.key] <;> omega

theorem rfxFld_inner (n : Fin 8) {o lo w : Nat} (ho : o < 0x1000) (hlo : lo < 32) :
    (Fld.mk (rfxBase n + o) lo w).fieldSide = false := by
  apply Fld.fieldSide_eq_false <;> simp only [Fld.key, rfxBase] <;> omega

section
variable (h : Hub) {f : Fld} (e : f.fieldSide = false)
include e

theorem Hub.put_fieldView (v : Nat) : (h.put f v).fieldView = h.fieldView :=
  Hub.fieldView_eq rfl rfl fun g hg => Hub.fld_put_ne h f g v fun q => by
    rw [Fld.fieldSide, q, ← Fld.fieldSide, e] at hg
    cases hg

theorem Hub.flag_fieldView (b : Block) : (h.flag b f).fieldView = h.fieldView :=
  (Hub.fieldView_congr (h.flag_fields b f) (by simp) (by simp)).trans (h.put_fieldView e _)

theorem Hub.count_fieldView (n : Nat) : (h.count f n).fieldView = h.fieldView := by
  rcases h.count_cases f n with ⟨v, m, q⟩ | ⟨v, l, q⟩ <;> rw [q]
  · exact h.put_fieldView e v
  · exact (Hub.flag_fieldView _ (linkFld_inner l (by decide) (by decide)) _).trans (h.put_fieldView e v)

end

/-! ## Errors (R445-R457) -/

@[simp] theorem Hub.record_fieldView (h : Hub) (e : LogEntry) : (h.record e).fieldView = h.fieldView := (h.record_only e).fieldView

@[simp] theorem Hub.storm_fieldView (h : Hub) : h.storm.fieldView = h.fieldView := h.storm_only.fieldView

theorem Hub.raise_fieldView (h : Hub) {cls : BitVec 2} (e : cls ≠ 3) (u : UnitAt) (cause addr : Nat) (req : BitVec 4)
    (rnode : BitVec 8) (space : BitVec 2) (esc : Bool) :
    (h.raise cls u cause addr req rnode space esc).fieldView = h.fieldView :=
  (h.raise_only cls u cause addr req rnode space esc (.inl e)).fieldView

/-! ## Frames in tiles -/

theorem Hub.writeChain_fieldView (h : Hub) (ts : List Nat) (bs : List Byte) : (h.writeChain ts bs).fieldView = h.fieldView := by
  induction ts generalizing h bs with
  | nil => rfl
  | cons t r ih => exact ih (h.tileChunk t 0 (padTile (bs.take 256))) (bs.drop 256)

theorem Hub.storeFrame_fieldView {h g : Hub} {pay : List Byte} {ts : List Nat} (e : h.storeFrame pay = some (g, ts)) :
    g.fieldView = h.fieldView := by
  unfold Hub.storeFrame at e
  dsimp only at e
  split at e
  · cases e
  · cases e
    exact Hub.writeChain_fieldView _ _ _

/-! ## Link control and pause -/

theorem sizeBin_lt (n : Nat) : sizeBin n < 8 := by
  unfold sizeBin
  repeat' split
  all_goals decide

@[simp] theorem Hub.txStat_fieldView (h : Hub) (l : Fin 4) (len : Nat) : (h.txStat l len).fieldView = h.fieldView := by
  have bin := sizeBin_lt (frameBytes len)
  unfold Hub.txStat
  dsimp only
  refine (?_ : _ = Hub.fieldView (((h.count (F.X_TXFRM l)).count (F.X_TXBYTE l) (frameBytes len)).count
    (F.X_TXBIN_COUNT l (sizeBin (frameBytes len))))).trans ?_
  · rfl
  · rw [Hub.count_fieldView, Hub.count_fieldView, Hub.count_fieldView]
    · exact linkFld_inner l (by decide) (by decide)
    · exact linkFld_inner l (by decide) (by decide)
    · rw [F.X_TXBIN_COUNT, Nat.add_assoc]
      exact linkFld_inner l (by omega) (by decide)

@[simp] theorem Hub.sendLink_fieldView (h : Hub) (l : Fin 4) (typ : BitVec 4) (pay : List Byte) (adr : BitVec 64) (x : Bool) :
    (h.sendLink l typ pay adr x).fieldView = h.fieldView :=
  Hub.txStat_fieldView _ l pay.length

@[simp] theorem Hub.sendPause_fieldView (h : Hub) (p : Fin 7) (cs : List (Nat × Bool)) :
    (h.sendPause p cs).fieldView = h.fieldView := by
  unfold Hub.sendPause
  dsimp only
  split
  · rename_i isLink
    split
    · rfl
    · have marked (l : Fin 4) (v : Nat) (g : LinkSt → LinkSt) :
          ((h.put (F.X_STAT_PAUSED_TX l) v).modLink l g).fieldView = h.fieldView :=
        h.put_fieldView (linkFld_inner l (by decide) (by decide)) v
      split
      · exact marked ⟨p, isLink⟩ _ _
      · rw [Hub.count_fieldView _ (f := F.X_PFCTX p) (linkFld_inner ⟨p, isLink⟩ (by decide) (by decide)), Hub.sendLink_fieldView]
        exact marked ⟨p, isLink⟩ _ _
  · rfl

@[simp] theorem Hub.pauseCheck_fieldView (h : Hub) (p : Fin 7) (c : Nat) : (h.pauseCheck p c).fieldView = h.fieldView :=
  Hub.sendPause_fieldView _ p _

/-! ## The switch -/

@[simp] theorem Hub.spillEnter_fieldView (h : Hub) : h.spillEnter.fieldView = h.fieldView := by
  unfold Hub.spillEnter
  split <;> rfl

@[simp] theorem Hub.append_fieldView (h : Hub) (q : Fin 56) (f : QFrame) : (h.append q f).fieldView = h.fieldView := by
  unfold Hub.append
  dsimp only
  rw [Hub.spillEnter_fieldView, Hub.pauseCheck_fieldView, Hub.peak, Hub.put_fieldView]
  · rfl
  · apply Fld.fieldSide_eq_false <;> simp only [Fld.key, F.SWC_QUSE_PEAK] <;> omega

@[simp] theorem Hub.qDrop_fieldView (h : Hub) (q : Fin 56) : (h.qDrop q).fieldView = h.fieldView := by
  rw [Hub.qDrop, Hub.flag_fieldView, Hub.count_fieldView]
  · apply Fld.fieldSide_eq_false <;> simp only [Fld.key, F.SWC_QDROP] <;> omega
  · rfl

theorem Hub.append_stored_fieldView {h g : Hub} {pay : List Byte} {ts : List Nat} (e : h.storeFrame pay = some (g, ts))
    (q : Fin 56) (f : QFrame) : (g.append q f).fieldView = h.fieldView :=
  (g.append_fieldView q f).trans (Hub.storeFrame_fieldView e)

@[simp] theorem Hub.spillIn_fieldView (h : Hub) (q : Fin 56) (ing : Fin 7) (f : Frame) :
    (h.spillIn q ing f).1.fieldView = h.fieldView := by
  unfold Hub.spillIn
  dsimp only
  split
  · rw [Hub.qDrop_fieldView, Hub.count_fieldView _ rfl, Hub.on_eq, Hub.put_fieldView _ rfl]
    rfl
  · split
    · exact Hub.qDrop_fieldView _ q
    · split
      · exact Hub.qDrop_fieldView _ q
      · rename_i stored
        exact Hub.append_stored_fieldView stored q _

@[simp] theorem Hub.enqueue_fieldView (h : Hub) (p ing : Fin 7) (f : Frame) : (h.enqueue p ing f).1.fieldView = h.fieldView := by
  unfold Hub.enqueue
  dsimp only
  split
  · simp
  · split
    · simp
    · split
      · split
        · simp
        · rename_i stored
          exact (Hub.append_stored_fieldView stored _ _).trans h.spillEnter_fieldView
      · split
        · simp
        · split
          · split
            · split
              · simp
              · rename_i stored
                exact (Hub.append_stored_fieldView stored _ _).trans h.spillEnter_fieldView
            · rw [Hub.raise_fieldView _ (by decide), Hub.flag_fieldView _ rfl, Hub.count_fieldView _ rfl]
              simp
          · simp

@[simp] theorem Hub.rerouteOrFlush_fieldView (h : Hub) (l : Fin 4) (ing : Fin 7) (f : Frame) :
    (h.rerouteOrFlush l ing f).fieldView = h.fieldView := by
  unfold Hub.rerouteOrFlush
  dsimp only
  split
  · split
    · rw [Hub.count_fieldView _ (f := F.X_REROUTE_CNT l) (linkFld_inner l (by decide) (by decide)), Hub.enqueue_fieldView]
    · exact Hub.count_fieldView h (f := F.X_FLUSH l) (linkFld_inner l (by decide) (by decide)) 1
  · exact Hub.count_fieldView h (f := F.X_FLUSH l) (linkFld_inner l (by decide) (by decide)) 1

@[simp] theorem Hub.route_fieldView (h : Hub) (p ing : Fin 7) (f : Frame) : (h.route p ing f).1.fieldView = h.fieldView := by
  have dropped : ((h.count F.RNG_WRAPDROP).flag .rng F.RNG_FLAG_WRAPDROP).fieldView = h.fieldView := by
    rw [Hub.flag_fieldView _ rfl, Hub.count_fieldView _ rfl]
  unfold Hub.route
  dsimp only
  repeat' split
  all_goals simp [dropped]

@[simp] theorem Hub.ownCopy_fieldView (h : Hub) (ing : Fin 7) (f : Frame) : (h.ownCopy ing f).fieldView = h.fieldView := by
  have discarded : (h.count F.BRG_BCDISC).fieldView = h.fieldView := Hub.count_fieldView _ rfl _
  unfold Hub.ownCopy
  dsimp only
  repeat' split
  all_goals simp [discarded]

/-- A frame this hub sends. -/
@[simp] theorem Hub.send_fieldView (h : Hub) (f : Frame) (ing : Fin 7) : (h.send f ing).fieldView = h.fieldView := by
  have numbered (k : Nat) : (h.takeSeq k).2.fieldView = h.fieldView := rfl
  unfold Hub.send
  dsimp only
  split <;> split <;> simp [numbered]

/-! ## Events of lanes (R316-R318, R326, R354) -/

@[simp] theorem Hub.lampSend_fieldView (h : Hub) (sub : Nat) (ws : List W32) (data : List Byte) :
    (h.lampSend sub ws data).fieldView = h.fieldView := by
  unfold Hub.lampSend
  dsimp only
  split
  · rfl
  · rw [Hub.sendLink_fieldView]
    rfl

@[simp] theorem Hub.lockItem_fieldView (h : Hub) (ws : List W32) : (h.lockItem ws).fieldView = h.fieldView := by
  unfold Hub.lockItem
  split
  · rfl
  · split
    · simp
    · exact foldl_fieldView (fun g w => g.send_fieldView _ _) ws h

@[simp] theorem Hub.evPush_fieldView (h : Hub) (n : Fin 8) (e : EvEntry) : (h.evPush n e).fieldView = h.fieldView := by
  unfold Hub.evPush
  dsimp only
  split
  · rfl
  · split
    · rfl
    · rw [Hub.count_fieldView _ (f := F.RFX_EVLOST n) (rfxFld_inner n (by decide) (by decide)),
        Hub.flag_fieldView _ (f := F.RFX_FLAG_EVLOST n) (rfxFld_inner n (by decide) (by decide))]
      rfl

@[simp] theorem Hub.evRoute_fieldView (h : Hub) (mask : Nat) (e : EvEntry) : (h.evRoute mask e).fieldView = h.fieldView := by
  refine foldl_fieldView (fun g n => ?_) _ h
  split <;> simp

@[simp] theorem Hub.lockEvent_fieldView (h : Hub) (mask : Nat) (e : EvEntry) : (h.lockEvent mask e).fieldView = h.fieldView := by
  unfold Hub.lockEvent
  split <;> simp

end Sys2Proof.Machine
end

section
/-! PROOFS. What the bridge's own operations leave alone on the field side (O7, O10, O13): completions, EVENT frames, locks,
retry slots and salvage change no lane, and no register of the P-die. -/

namespace Sys2Proof.Machine

theorem Hub.modBrg_fieldView (h : Hub) (g : Brg → Brg) : (h.modBrg g).fieldView = h.fieldView := rfl

/-! ## Reports and salvage (R227, R228, R234, R235) -/

@[simp] theorem Hub.event_fieldView (h : Hub) (rq : Request) (st : Nat) (unit : BitVec 24) (op : BitVec 4) (record : Nat) :
    (h.event rq st unit op record).fieldView = h.fieldView := by
  have logged (snode : BitVec 8) (f : Frame) (g : Hub) : (g.eventLog snode f).fieldView = g.fieldView := by
    unfold Hub.eventLog
    dsimp only
    rw [Hub.storm_fieldView, Hub.count_fieldView _ rfl, Hub.record_fieldView]
  unfold Hub.event
  dsimp only
  split
  · rw [Hub.flag_fieldView _ rfl, Hub.count_fieldView _ rfl]
    rfl
  · split
    · exact logged _ _ _
    · exact Hub.send_fieldView _ _ _

theorem Hub.salvPut_fieldView (h : Hub) (lane : Fin 64) (off : Nat) (data : List Byte) (g : GTime) (tick origin : Nat)
    (serve : Bool) : (h.salvPut lane off data g tick origin serve).fieldView = h.fieldView := by
  have counted (k : Hub) : ((k.count F.ECH_DISCARD).flag .ech F.ECH_FLAG_DISCARD).fieldView = k.fieldView := by
    rw [Hub.flag_fieldView _ rfl, Hub.count_fieldView _ rfl]
  unfold Hub.salvPut
  dsimp only
  split
  · exact counted _
  · split
    · rw [Hub.flag_fieldView _ rfl, Hub.count_fieldView _ rfl]
      exact counted _
    · exact counted _

@[simp] theorem Hub.slotToSalv_fieldView (h : Hub) (i : Fin 128) (origin : Nat) (serve : Bool) :
    (h.slotToSalv i origin serve).fieldView = h.fieldView := by
  have freed (g : Hub) : (g.modSlot i fun _ => {}).fieldView = g.fieldView := rfl
  unfold Hub.slotToSalv
  dsimp only
  split
  · split
    · exact (freed _).trans (Hub.salvPut_fieldView h _ _ _ _ _ _ _)
    · exact freed h
  · exact freed h

@[simp] theorem Hub.abandon_fieldView (h : Hub) (i : Fin 128) : (h.abandon i).fieldView = h.fieldView := by
  unfold Hub.abandon
  split
  · exact h.slotToSalv_fieldView i 2 true
  · rfl

@[simp] theorem Hub.abandonOld_fieldView (h : Hub) (rq : Request) : (h.abandonOld rq).fieldView = h.fieldView := by
  unfold Hub.abandonOld
  split
  · split
    · rfl
    · exact h.abandon_fieldView _
  · rfl

theorem Hub.echoOut_fieldView (h : Hub) (lane : Fin 64) (ok : Request → Bool) : (h.echoOut lane ok).fieldView = h.fieldView := by
  refine foldl_fieldView (fun g i => ?_) _ h
  dsimp only
  split
  · split
    · exact g.slotToSalv_fieldView i 0 false
    · split <;> rfl
  · rfl

@[simp] theorem Hub.writeOverlap_fieldView (h : Hub) (lane : Fin 64) (off len : Nat) :
    (h.writeOverlap lane off len).fieldView = h.fieldView := by
  unfold Hub.writeOverlap
  exact (Hub.modBrg_fieldView _ _).trans (h.echoOut_fieldView lane _)

/-! ## Locks (R230-R233) -/

@[simp] theorem Hub.lockBreak_fieldView (h : Hub) (n : Fin 64) : (h.lockBreak n).fieldView = h.fieldView := by
  unfold Hub.lockBreak
  split
  · rfl
  · rw [Hub.raise_fieldView _ (by decide), Hub.flag_fieldView _ rfl, Hub.count_fieldView _ rfl]
    rfl

@[simp] theorem Hub.unlockMeet_fieldView (h : Hub) (n : Fin 64) (k : Key) : (h.unlockMeet n k).1.fieldView = h.fieldView := by
  unfold Hub.unlockMeet Hub.unlockAt
  repeat' split
  all_goals rfl

@[simp] theorem Hub.logAccess_fieldView (h : Hub) (rq : Request) (off : Nat) : (h.logAccess rq off).fieldView = h.fieldView :=
  h.raise_fieldView (by decide) _ _ _ _ _ _ _

@[simp] theorem Hub.unlockOwn_fieldView (h : Hub) (rq : Request) : (h.unlockOwn rq).fieldView = h.fieldView := by
  have counted : (h.count F.BRG_PCNT).fieldView = h.fieldView := h.count_fieldView rfl 1
  have drawn (g : Hub) : g.drawEst.2.fieldView = g.fieldView := rfl
  unfold Hub.unlockOwn
  dsimp only
  repeat' split
  all_goals simp [counted, drawn]

@[simp] theorem Hub.sendUnlock_fieldView (h : Hub) (e : HeldLock) : (h.sendUnlock e).fieldView = h.fieldView := by
  unfold Hub.sendUnlock
  dsimp only
  split <;> simp

@[simp] theorem Hub.lockTable_fieldView (h : Hub) (rq : Request) (st : Nat) (lock : Bool) :
    (h.lockTable rq st lock).fieldView = h.fieldView := by
  unfold Hub.lockTable
  dsimp only
  split
  · exact foldl_fieldView Hub.sendUnlock_fieldView _ _
  · repeat' split
    all_goals rfl

/-! ## Completions (R203, R204, R216) -/

@[simp] theorem Hub.coreSlotDone_fieldView (h : Hub) (n : Fin 8) (d : Fin 4) (st : Nat) (salv : Bool) (data : List Byte) :
    (h.coreSlotDone n d st salv data).fieldView = h.fieldView := by
  unfold Hub.coreSlotDone
  dsimp only
  split
  · rfl
  · split
    · rfl
    · split
      · exact Hub.evPush_fieldView _ n _
      · rfl

@[simp] theorem Hub.deliver_fieldView (h : Hub) (t : Tx) (st est : Nat) (lock salv : Bool) (data : List Byte) :
    (h.deliver t st est lock salv data).fieldView = h.fieldView := by
  have emitted (o : Out) : (h.emit o).fieldView = h.fieldView := rfl
  have frd (g : Hub) (c : Fin 8) (x : Fin 16) (w : W32) : (g.reedFrdDone c x st salv w).fieldView = g.fieldView := rfl
  have host (g : Hub) (x : HostPort) : ({ g with hst := x } : Hub).fieldView = g.fieldView := rfl
  unfold Hub.deliver
  dsimp only
  split
  · split <;> simp [emitted]
  · split <;> simp [emitted]
  · split <;> simp [emitted, frd]
  · exact (host _ _).trans (by split <;> simp [emitted])

@[simp] theorem Hub.finish_fieldView (h : Hub) (tag : Fin 256) (t : Tx) (next : TagSt) (st est : Nat) (lock salv : Bool)
    (data : List Byte) : (h.finish tag t next st est lock salv data).fieldView = h.fieldView :=
  (Hub.deliver_fieldView _ t st est lock salv data).trans (Hub.lockTable_fieldView _ t.rq st lock)

@[simp] theorem Hub.cplIn_fieldView (h : Hub) (tag : BitVec 8) (node mem st est : Nat) (lock salv : Bool) (data : List Byte) :
    (h.cplIn tag node mem st est lock salv data).fieldView = h.fieldView := by
  have stale : h.staleCpl.fieldView = h.fieldView := by
    rw [Hub.staleCpl, Hub.flag_fieldView _ rfl, Hub.count_fieldView _ rfl]
  have status (addr : Nat) (req : BitVec 4) : (h.stGood st addr req).1.fieldView = h.fieldView := by
    unfold Hub.stGood
    split
    · exact h.raise_fieldView (by decide) _ _ _ _ _ _ _
    · rfl
  unfold Hub.cplIn
  dsimp only
  split
  · split
    · exact stale
    · split
      · rfl
      · exact (Hub.finish_fieldView _ _ _ _ _ _ _ _ _).trans (status _ _)
  · exact stale

@[simp] theorem Hub.respond_fieldView (h : Hub) (rq : Request) (st est : Nat) (lock salv : Bool) (data : List Byte) :
    (h.respond rq st est lock salv data).fieldView = h.fieldView := by
  have retried : (h.count F.BRG_RETRYCNT).fieldView = h.fieldView := h.count_fieldView rfl 1
  unfold Hub.respond
  dsimp only
  repeat' split
  all_goals simp [retried]

@[simp] theorem Hub.slotEnd_fieldView (h : Hub) (i : Fin 128) (st : Nat) (data : List Byte) :
    (h.slotEnd i st data).fieldView = h.fieldView := by
  have slot (g : Hub) (x : Slot → Slot) : (g.modSlot i x).fieldView = g.fieldView := rfl
  unfold Hub.slotEnd
  dsimp only
  repeat' split
  all_goals simp [slot]

end Sys2Proof.Machine
end

section
/-! PROOFS. The frame of a lane's operation (O6-O13): registers of its page, notes of the cycle, outputs and the lane beside
its registers; flags, FIFOs and states as steps of that frame. -/

namespace Sys2Proof.Machine

/-! ## Registers of a lane's page -/

/-- A register field of a lane's page: offset, lowest bit, width. -/
abbrev LaneReg := Nat × Nat × Nat

/-- The field of lane n. -/
def laneFld (n : Fin 64) (r : LaneReg) : Fld := ⟨laneBase n + r.1, r.2.1, r.2.2⟩

/-- A flag bit of LNnn_FLAG (Table 2.7). -/
abbrev lrFlag (i : Nat) : LaneReg := (0xC, i, 1)
abbrev lrEN : LaneReg := (0x4, 0, 1)
abbrev lrSTATE : LaneReg := (0x8, 0, 3)
abbrev lrCAUSE : LaneReg := (0x8, 4, 4)
abbrev lrCONFIG_ERR : LaneReg := (0x8, 25, 1)
abbrev lrFLUSH : LaneReg := (0x2C, 16, 16)

/-- Is a field of the page none of a list? -/
def LaneReg.off (r : LaneReg) (l : List LaneReg) : Bool := l.all fun x => r.1 * 32 + r.2.1 != x.1 * 32 + x.2.1

theorem laneFld_key (n : Fin 64) (r : LaneReg) : (laneFld n r).key = laneBase n * 32 + (r.1 * 32 + r.2.1) := by
  simp only [laneFld, Fld.key]
  omega

theorem laneFld_ne {n : Fin 64} {r x : LaneReg} (e : r.1 * 32 + r.2.1 ≠ x.1 * 32 + x.2.1) : (laneFld n r).key ≠ (laneFld n x).key := by
  rw [laneFld_key, laneFld_key]
  omega

theorem LaneReg.off_ne {r x : LaneReg} {l : List LaneReg} (e : r.off l = true) (mem : x ∈ l) (n : Fin 64) :
    (laneFld n r).key ≠ (laneFld n x).key := by
  have := List.all_eq_true.mp e x mem
  exact laneFld_ne (by simpa using this)

theorem lowFld_ne {f : Fld} (low : f.key < 0x100000 * 32) (n : Fin 64) (r : LaneReg) : f.key ≠ (laneFld n r).key := by
  rw [laneFld_key]
  simp only [laneBase, clusterBase]
  omega

theorem laneFld_side (n : Fin 64) (r : LaneReg) : (laneFld n r).fieldSide = true := laneFld_fieldSide n _ _ _

/-! ## Flags of a lane (Table 2.7, R458, R459) -/

/-- The flags of a call read 1, and nothing else of the registers moves. -/
def Hub.flagsOn (h : Hub) (n : Fin 64) (fs : List Nat) : Hub := fs.foldl (fun h i => h.on (laneFld n (lrFlag i))) h

theorem Hub.withIrq_cases (h : Hub) (s : Nat) (g : Hub → Hub) :
    h.withIrq s g = g h ∨ ∃ v, h.withIrq s g = (g h).emit (.msix v) := by
  unfold Hub.withIrq
  dsimp only
  split
  · exact .inr ⟨_, rfl⟩
  · exact .inl rfl

/-- Flags that no core takes are set, with at most one interrupt vector; otherwise an event goes out as well. -/
theorem Hub.laneFlags_cases (h : Hub) (n : Fin 64) (fs : List Nat) :
    ∃ k : Hub, (k = h.flagsOn n fs ∨ ∃ v, k = (h.flagsOn n fs).emit (.msix v)) ∧
      (h.laneFlags n fs = k ∨ ∃ e, h.laneFlags n fs = k.lockEvent (k.fld (F.RFXC_LSUB_FLAG n)) e) := by
  refine ⟨h.withIrq (srcOf (.lane n)) fun h => h.flagsOn n fs, h.withIrq_cases _ _, ?_⟩
  unfold Hub.laneFlags
  dsimp only
  split
  · exact .inl rfl
  · exact .inr ⟨_, rfl⟩

theorem Hub.flagsOn_parts (h : Hub) (n : Fin 64) (fs : List Nat) : h.flagsOn n fs = { h with fields := (h.flagsOn n fs).fields } := by
  refine List.foldlRecOn (motive := fun g : Hub => g = { h with fields := g.fields }) fs _ rfl fun g e i _ => ?_
  rw [e]
  rfl

theorem Hub.flagsOn_ne (h : Hub) (n : Fin 64) (fs : List Nat) {f : Fld} (ne : ∀ i ∈ fs, f.key ≠ (laneFld n (lrFlag i)).key) :
    (h.flagsOn n fs).fld f = h.fld f :=
  List.foldlRecOn (motive := fun g : Hub => g.fld f = h.fld f) fs _ rfl fun g e i hi => (Hub.fld_put_ne g _ f _ (ne i hi)).trans e

theorem Hub.flagsOn_bit (h : Hub) (n : Fin 64) {fs : List Nat} {i : Nat} (mem : i ∈ fs) :
    (h.flagsOn n fs).bit (laneFld n (lrFlag i)) = true := by
  refine foldl_of_mem (P := fun _ => True) (Q := fun g : Hub => g.bit (laneFld n (lrFlag i)) = true) (fun _ _ _ => trivial)
    (fun g _ => g.bit_on_same _ rfl) (fun g j _ q => ?_) trivial mem
  by_cases e : i = j
  · rw [e]
    exact g.bit_on_same _ rfl
  · exact (g.bit_put_ne _ _ _ (laneFld_ne (by simpa using e))).trans q

/-- What setting flags leaves: the lanes and the clock. -/
theorem Hub.laneFlags_keeps (h : Hub) (n : Fin 64) (fs : List Nat) :
    (h.laneFlags n fs).lanes = h.lanes ∧ (h.laneFlags n fs).now = h.now := by
  obtain ⟨k, hk, e⟩ := h.laneFlags_cases n fs
  have keeps : k.lanes = h.lanes ∧ k.now = h.now := by
    rcases hk with rfl | ⟨v, rfl⟩ <;> rw [Hub.flagsOn_parts] <;> exact ⟨rfl, rfl⟩
  rcases e with e | ⟨ev, e⟩ <;> rw [e]
  · exact keeps
  · have view := k.lockEvent_fieldView (k.fld (F.RFXC_LSUB_FLAG n)) ev
    exact ⟨(Hub.lanes_of_fieldView view).trans keeps.1, (Hub.now_of_fieldView view).trans keeps.2⟩

@[simp] theorem Hub.laneFlags_lanes (h : Hub) (n : Fin 64) (fs : List Nat) : (h.laneFlags n fs).lanes = h.lanes :=
  (h.laneFlags_keeps n fs).1

@[simp] theorem Hub.laneFlags_now (h : Hub) (n : Fin 64) (fs : List Nat) : (h.laneFlags n fs).now = h.now :=
  (h.laneFlags_keeps n fs).2

/-- A register of the field side is the one that the flags alone leave. -/
theorem Hub.laneFlags_side (h : Hub) (n : Fin 64) (fs : List Nat) {f : Fld} (side : f.fieldSide = true) :
    (h.laneFlags n fs).fld f = (h.flagsOn n fs).fld f := by
  obtain ⟨k, hk, e⟩ := h.laneFlags_cases n fs
  have here : k.fld f = (h.flagsOn n fs).fld f := by rcases hk with rfl | ⟨v, rfl⟩ <;> rfl
  rcases e with e | ⟨ev, e⟩ <;> rw [e]
  · exact here
  · exact (Hub.fld_of_fieldView (k.lockEvent_fieldView _ ev) side).trans here

theorem Hub.laneFlags_fld (h : Hub) (n : Fin 64) (fs : List Nat) {f : Fld} (side : f.fieldSide = true)
    (ne : ∀ i ∈ fs, f.key ≠ (laneFld n (lrFlag i)).key) : (h.laneFlags n fs).fld f = h.fld f :=
  (h.laneFlags_side n fs side).trans (h.flagsOn_ne n fs ne)

/-- Flags that a call sets read 1. -/
theorem Hub.laneFlags_bit (h : Hub) (n : Fin 64) {fs : List Nat} {i : Nat} (mem : i ∈ fs) :
    (h.laneFlags n fs).bit (laneFld n (lrFlag i)) = true := by
  rw [Hub.bit, h.laneFlags_side n fs (laneFld_side n _)]
  exact h.flagsOn_bit n mem

/-! ## Quiet lanes -/

theorem Hub.quietLane_iff (h : Hub) (n : Fin 64) : h.quietLane n = true ↔
    h.fld (F.RFXC_LSUB_FLAG n) = 0 ∧ h.fld (F.RFXC_LSUB_EDGE n) = 0 ∧ h.bit (F.RFXC_LMAP_I_EN n) = false := by
  simp [Hub.quietLane, and_assoc]

theorem lsubFlag_low (n : Fin 64) : (F.RFXC_LSUB_FLAG n).key < 0x100000 * 32 := by
  simp only [F.RFXC_LSUB_FLAG, Fld.key]
  omega

theorem lsubEdge_low (n : Fin 64) : (F.RFXC_LSUB_EDGE n).key < 0x100000 * 32 := by
  simp only [F.RFXC_LSUB_EDGE, Fld.key]
  omega

theorem lmapEn_low (n : Fin 64) : (F.RFXC_LMAP_I_EN n).key < 0x100000 * 32 := by
  simp only [F.RFXC_LMAP_I_EN, Fld.key]
  omega

theorem Hub.quietLane_congr {h g : Hub} (low : ∀ f : Fld, f.key < 0x100000 * 32 → g.fld f = h.fld f) (n : Fin 64) :
    g.quietLane n = h.quietLane n := by
  unfold Hub.quietLane Hub.bit
  rw [low _ (lsubFlag_low n), low _ (lsubEdge_low n), low _ (lmapEn_low n)]

theorem Hub.lockEvent_none (h : Hub) (e : EvEntry) : h.lockEvent 0 e = h := by
  unfold Hub.lockEvent
  rw [if_pos (by simp)]

/-- The flags of a quiet lane are set, with at most one interrupt vector. -/
theorem Hub.laneFlags_quiet {h : Hub} {n : Fin 64} (quiet : h.quietLane n = true) (fs : List Nat) :
    h.laneFlags n fs = h.flagsOn n fs ∨ ∃ v, h.laneFlags n fs = (h.flagsOn n fs).emit (.msix v) := by
  obtain ⟨k, hk, e⟩ := h.laneFlags_cases n fs
  have mask : k.fld (F.RFXC_LSUB_FLAG n) = 0 := by
    have : (h.flagsOn n fs).fld (F.RFXC_LSUB_FLAG n) = 0 :=
      (h.flagsOn_ne n fs fun i _ => lowFld_ne (lsubFlag_low n) n (lrFlag i)).trans ((h.quietLane_iff n).mp quiet).1
    rcases hk with rfl | ⟨v, rfl⟩ <;> exact this
  have same : h.laneFlags n fs = k := by
    rcases e with e | ⟨ev, e⟩
    · exact e
    · rw [e, mask, Hub.lockEvent_none]
  rw [same]
  exact hk

/-! ## The frame -/

/-- What a step of lane n leaves of the hub: `l` are the registers of its page that may differ, `L` is the lane after it. -/
structure LaneStep (n : Fin 64) (l : List LaneReg) (L : Lane) (h h' : Hub) : Prop where
  parts : h' = { h with fields := h'.fields, hw := h'.hw, lanes := h'.lanes, out := h'.out }
  regs : SameRegs h h' (l.map (laneFld n))
  lanes : h'.lanes = h.lanes.set n L

theorem Hub.lane_modLane (h : Hub) (n : Fin 64) (g : Lane → Lane) : (h.modLane n g).lane n = g (h.lane n) :=
  Vector.getElem_set_self _

theorem Hub.lanes_modLane_ne (h : Hub) {n m : Fin 64} (e : m ≠ n) (g : Lane → Lane) : (h.modLane n g).lanes[m] = h.lanes[m] :=
  Vector.getElem_set_ne n.isLt m.isLt fun q => e (Fin.ext q.symm)

theorem Hub.lanes_set_self (h : Hub) (n : Fin 64) : h.lanes.set n (h.lane n) = h.lanes := Vector.set_getElem_self _

namespace LaneStep

theorem start (n : Fin 64) (l : List LaneReg) (h : Hub) : LaneStep n l (h.lane n) h h :=
  ⟨rfl, SameRegs.refl h _, (h.lanes_set_self n).symm⟩

section
variable {n : Fin 64} {l : List LaneReg} {L : Lane} {h k : Hub} (p : LaneStep n l L h k)
include p

/-! ### What it leaves -/

theorem lane : k.lane n = L := by
  unfold Hub.lane
  rw [p.lanes]
  exact Vector.getElem_set_self _

/-- A part of the lane after the step. -/
theorem part {α : Type} (f : Lane → α) : f (k.lane n) = f L := congrArg f p.lane

theorem others (m : Fin 64) (e : m ≠ n) : k.lanes[m] = h.lanes[m] := by
  rw [p.lanes]
  exact Vector.getElem_set_ne _ _ fun q => e (Fin.ext q.symm)

theorem now : k.now = h.now := by rw [p.parts]
theorem brg : k.brg = h.brg := by rw [p.parts]
theorem dl : k.dl = h.dl := by rw [p.parts]
theorem bank3 : k.bank3 = h.bank3 := by rw [p.parts]
theorem reed : k.reed = h.reed := by rw [p.parts]
theorem gno : k.gno = h.gno := by rw [p.parts]

/-- A field of the page that is not listed. -/
theorem fld (r : LaneReg) (e : r.off l = true) : k.fld (laneFld n r) = h.fld (laneFld n r) := by
  refine p.regs _ fun f hf => ?_
  obtain ⟨x, hx, rfl⟩ := List.mem_map.mp hf
  exact LaneReg.off_ne e hx n

theorem low {f : Fld} (e : f.key < 0x100000 * 32) : k.fld f = h.fld f := by
  refine p.regs _ fun g hg => ?_
  obtain ⟨x, -, rfl⟩ := List.mem_map.mp hg
  exact lowFld_ne e n x

theorem quiet : k.quietLane n = h.quietLane n := Hub.quietLane_congr (fun _ e => p.low e) n

/-! ### Steps that follow it -/

theorem put {r : LaneReg} (mem : r ∈ l) (v : Nat) : LaneStep n l L h (k.put (laneFld n r) v) := by
  refine ⟨?_, p.regs.put (List.mem_map_of_mem mem) v, p.lanes⟩
  rw [p.parts]
  rfl

theorem mark (key v : Nat) : LaneStep n l L h (k.mark key v) := by
  refine ⟨?_, p.regs, p.lanes⟩
  rw [p.parts]
  rfl

theorem emit (o : Out) : LaneStep n l L h (k.emit o) := by
  refine ⟨?_, p.regs, p.lanes⟩
  rw [p.parts]
  rfl

theorem mod (g : Lane → Lane) : LaneStep n l (g L) h (k.modLane n g) := by
  refine ⟨?_, p.regs, ?_⟩
  · rw [p.parts]
    rfl
  · rw [Hub.modLane_lanes, p.lanes, show (h.lanes.set n L)[n] = L from Vector.getElem_set_self _]
    exact Vector.set_set _ _

theorem modTo {g : Lane → Lane} {L' : Lane} (e : g L = L') : LaneStep n l L' h (k.modLane n g) := e ▸ p.mod g

theorem countSat {r : LaneReg} (mem : r ∈ l) (v : Nat) : LaneStep n l L h (k.countSat (laneFld n r) v) :=
  (p.put mem _).mark _ _

theorem flagsOn (fs : List Nat) (mem : ∀ i ∈ fs, lrFlag i ∈ l) : LaneStep n l L h (k.flagsOn n fs) :=
  List.foldlRecOn (motive := LaneStep n l L h) fs _ p fun _ q i hi => q.put (mem i hi) 1

theorem flags (q : h.quietLane n = true) (fs : List Nat) (mem : ∀ i ∈ fs, lrFlag i ∈ l) : LaneStep n l L h (k.laneFlags n fs) := by
  rcases Hub.laneFlags_quiet (p.quiet.trans q) fs with e | ⟨v, e⟩ <;> rw [e]
  · exact p.flagsOn fs mem
  · exact (p.flagsOn fs mem).emit _

theorem mono {l' : List LaneReg} (sub : l ⊆ l') : LaneStep n l' L h k :=
  ⟨p.parts, fun f hf => p.regs f fun g hg => hf g (List.map_subset _ sub hg), p.lanes⟩

theorem trans {L' : Lane} {g : Hub} (q : LaneStep n l L' k g) : LaneStep n l L' h g := by
  refine ⟨?_, fun f hf => (q.regs f hf).trans (p.regs f hf), ?_⟩
  · have := q.parts
    rw [p.parts] at this
    exact this
  · rw [q.lanes, p.lanes]
    exact Vector.set_set _ _

end

end LaneStep

end Sys2Proof.Machine
end

section
/-! PROOFS. FIFOs and states of a lane as steps of its frame (O6-O12): pushes, draws and flushes, the ways into UP, HOLD,
DOWN and IDLE, and the operations that find nothing to do. -/

namespace Sys2Proof.Machine

/-! ## FIFOs (R47-R51) -/

/-- A FIFO after pushes of words at a tick. -/
def Fifo.pushAll (f : Fifo) (ws : List W32) (good : Bool) (t : Nat) : Fifo :=
  ws.foldl (fun f w => (f.push { w := w, good := good, time := t }).1) f

/-- Words that fit are held behind the older ones. -/
theorem Fifo.pushAll_q {f : Fifo} {ws : List W32} (room : f.q.length + ws.length ≤ 64) (good : Bool) (t : Nat) :
    (f.pushAll ws good t).q = f.q ++ ws.map fun w => { w := w, good := good, time := t } := by
  induction ws generalizing f with
  | nil => simp [Fifo.pushAll]
  | cons w ws ih =>
    simp only [List.length_cons] at room
    have pushed : (f.push { w := w, good := good, time := t }).1.q = f.q ++ [{ w := w, good := good, time := t }] := by
      rw [Fifo.push, if_pos (by omega)]
    have rest := ih (f := (f.push { w := w, good := good, time := t }).1) (by rw [pushed, List.length_append]; simp; omega)
    rw [pushed] at rest
    exact rest.trans (by simp)

theorem Fifo.pushAll_length {f : Fifo} {ws : List W32} (room : f.q.length + ws.length ≤ 64) (good : Bool) (t : Nat) :
    (f.pushAll ws good t).q.length = f.q.length + ws.length := by
  rw [Fifo.pushAll_q room, List.length_append, List.length_map]

/-- The flags a FIFO operation ends with: the level's, where it was crossed, and the caller's; none are set where there are
none. -/
theorem Hub.levelFlags_cases (h : Hub) (n : Fin 64) (extra : List Nat) (crossed : Bool) (lvl : Nat) :
    ∃ fs, (∀ i ∈ fs, i ∈ lvl :: extra) ∧ (
      (if (extra ++ if crossed then [lvl] else []).isEmpty then h else h.laneFlags n (extra ++ if crossed then [lvl] else [])) = h ∨
      (if (extra ++ if crossed then [lvl] else []).isEmpty then h else h.laneFlags n (extra ++ if crossed then [lvl] else [])) =
        h.laneFlags n fs) := by
  refine ⟨extra ++ if crossed then [lvl] else [], fun i hi => ?_, ?_⟩
  · rcases List.mem_append.mp hi with hi | hi
    · exact List.mem_cons_of_mem _ hi
    · split at hi
      · exact List.mem_cons.mpr (.inl (List.mem_singleton.mp hi))
      · cases hi
  · by_cases empty : (extra ++ if crossed then [lvl] else []).isEmpty
    · exact .inl (if_pos empty)
    · exact .inr (if_neg empty)

/-- A record that fits is pushed; the flags that may follow are the level's and the caller's. -/
theorem Hub.pushRx_cases {h : Hub} {n : Fin 64} {ws : List W32} (room : (h.lane n).rx.q.length + ws.length ≤ 64)
    (extra : List Nat) (good : Bool) :
    ∃ fs, (∀ i ∈ fs, i ∈ lfRX_LVL :: extra) ∧ (
      h.pushRx n ws extra good = h.modLane n (fun l => { l with rx := (h.lane n).rx.pushAll ws good h.now }) ∨
      h.pushRx n ws extra good =
        (h.modLane n fun l => { l with rx := (h.lane n).rx.pushAll ws good h.now }).laneFlags n fs) := by
  unfold Hub.pushRx
  dsimp only
  rw [if_neg (by omega)]
  exact Hub.levelFlags_cases _ n extra _ lfRX_LVL

/-- A record that fits is pushed, and no other lane changes. -/
theorem Hub.pushRx_lanes {h : Hub} {n : Fin 64} {ws : List W32} (room : (h.lane n).rx.q.length + ws.length ≤ 64)
    (extra : List Nat) (good : Bool) :
    (h.pushRx n ws extra good).lanes = h.lanes.set n { h.lane n with rx := (h.lane n).rx.pushAll ws good h.now } := by
  obtain ⟨fs, -, e | e⟩ := Hub.pushRx_cases room extra good <;> rw [e]
  · rfl
  · exact Hub.laneFlags_lanes _ _ _

theorem Hub.txFreed_cases (h : Hub) (n : Fin 64) (before : Nat) (extra : List Nat) :
    ∃ fs, (∀ i ∈ fs, i ∈ lfTX_LVL :: extra) ∧ (h.txFreed n before extra = h ∨ h.txFreed n before extra = h.laneFlags n fs) :=
  h.levelFlags_cases n extra _ lfTX_LVL

theorem Hub.drawTx_nil {h : Hub} {n : Fin 64} (e : (h.lane n).tx.q = []) : h.drawTx n = (h, none) := by
  simp only [Hub.drawTx, Fifo.pop, e]

/-- The transmit FIFO without its oldest word. -/
def Fifo.popped (f : Fifo) (r : List FifoWord) : Fifo := { f with q := r, rd := f.rd + 1 }

theorem Hub.drawTx_good {h : Hub} {n : Fin 64} {w : FifoWord} {r : List FifoWord} (e : (h.lane n).tx.q = w :: r)
    (good : w.good = true) : h.drawTx n = ((h.modLane n fun l => { l with tx := (h.lane n).tx.popped r }).txFreed n
      (h.lane n).tx.q.length [], some w) := by
  simp only [Hub.drawTx, Fifo.pop, e, good, if_true, Fifo.popped]

theorem Hub.flushWords_eq (h : Hub) (n : Fin 64) (extra : List Nat) : h.flushWords n extra =
    Hub.txFreed ((h.modLane n fun l => { l with tx := l.tx.flush }).countSat (F.LN_DROP_FLUSH n) (h.lane n).tx.q.length) n
      (h.lane n).tx.q.length extra := rfl

/-- The words a flush drops are counted in DROP.FLUSH, which saturates. -/
theorem Hub.flushWords_drop (h : Hub) (n : Fin 64) {extra : List Nat} (low : ∀ i ∈ extra, i < 32) :
    (h.flushWords n extra).fld (F.LN_DROP_FLUSH n) = min (h.fld (F.LN_DROP_FLUSH n) + (h.lane n).tx.q.length) 65535 := by
  have counted : ((h.modLane n fun l => { l with tx := l.tx.flush }).countSat (F.LN_DROP_FLUSH n) (h.lane n).tx.q.length).fld
      (F.LN_DROP_FLUSH n) = min (h.fld (F.LN_DROP_FLUSH n) + (h.lane n).tx.q.length) 65535 := by
    refine (Hub.fld_put_same _ _ _).trans ?_
    simp only [Hub.modLane_fld, F.LN_DROP_FLUSH]
    omega
  rw [Hub.flushWords_eq, ← counted]
  obtain ⟨fs, within, e | e⟩ := Hub.txFreed_cases ((h.modLane n fun l => { l with tx := l.tx.flush }).countSat
    (F.LN_DROP_FLUSH n) (h.lane n).tx.q.length) n (h.lane n).tx.q.length extra <;> rw [e]
  refine Hub.laneFlags_fld _ n fs (laneFld_side n lrFLUSH) fun i hi => laneFld_ne (n := n) (r := lrFLUSH) ?_
  have : i < 32 := by
    rcases List.mem_cons.mp (within i hi) with rfl | hi
    · decide
    · exact low i hi
  dsimp only
  omega

/-! ## Operations that find nothing to do -/

theorem Hub.devStart_idle {h : Hub} {n : Fin 64} (idle : (h.lane n).dev = []) : h.devStart n = h := by
  simp only [Hub.devStart, idle]

theorem Hub.uartBegin_idle {h : Hub} {n : Fin 64} (e : h.fn n ≠ 1 ∨ (h.lane n).tx.q = []) : h.uartBegin n = h := by
  unfold Hub.uartBegin
  refine if_neg fun ⟨isUart, _, _, held⟩ => ?_
  rcases e with e | e
  · exact e isUart
  · rw [e] at held
    cases held

theorem Hub.canLaneUp_idle {h : Hub} {n : Fin 64} (e : h.fn n ≠ 8) : h.canLaneUp n = h := if_pos e

theorem Hub.canLaneDown_idle {h : Hub} {n : Fin 64} (e : h.fn n ≠ 8) : h.canLaneDown n = h := if_pos e

theorem Hub.cutDevice_idle {h : Hub} {n : Fin 64} (idle : (h.lane n).dev = []) (unlocked : (h.brg.lock[n]).owner = none) :
    h.cutDevice n = h.modLane n fun l => { l with dev := [], devRun := false } := by
  have free : ((h.modLane n fun l => { l with dev := [], devRun := false }).brg.lock[n]).owner = none := unlocked
  simp only [Hub.cutDevice, idle, List.foldl_nil, Hub.lockBreak, free]

theorem Hub.dropOld_idle {h : Hub} {n : Fin 64} (e : h.fld (F.LN_HOLD_MAXRES n) = 0) : h.dropOld n = h := if_pos e

theorem Hub.unstretch_idle {h : Hub} {n : Fin 64} (e : (h.lane n).stretch = false) : h.unstretch n = h := by
  unfold Hub.unstretch
  rw [e]
  exact if_neg (by decide)

theorem Hub.devOut_free {h : Hub} {n : Fin 64} {pins : List (Fin 3)} (free : ∀ p ∈ pins, h.taken n p = false) (bs : List Byte) :
    h.devOut n pins bs = h.emit (.device n bs) := by
  unfold Hub.devOut
  rw [if_neg]
  simpa using free

/-! ## The states (R44, R40) -/

theorem partner_ne (n : Fin 64) : partner n ≠ n := by
  intro e
  have := congrArg Fin.val e
  simp only [partner] at this
  split at this <;> omega

theorem laneFld_ne_other {n m : Fin 64} (e : m ≠ n) {r x : LaneReg} (hr : r.1 * 32 + r.2.1 < 0x20000) (hx : x.1 * 32 + x.2.1 < 0x20000) :
    (laneFld m r).key ≠ (laneFld n x).key := by
  have : m.val ≠ n.val := fun q => e (Fin.ext q)
  rw [laneFld_key, laneFld_key]
  simp only [laneBase, clusterBase]
  omega

/-- A change of state writes state and cause, of the lane or of both lanes of an SPI port. -/
theorem Hub.lnTo_cases (h : Hub) (n : Fin 64) (st cause : Nat) :
    h.lnTo n st cause = (h.put (laneFld n lrSTATE) st).put (laneFld n lrCAUSE) cause ∨
      h.lnTo n st cause = (((h.put (laneFld n lrSTATE) st).put (laneFld n lrCAUSE) cause).put (laneFld (partner n) lrSTATE) st).put
        (laneFld (partner n) lrCAUSE) cause := by
  unfold Hub.lnTo
  dsimp only
  split
  · exact .inr rfl
  · exact .inl rfl

theorem Hub.lnTo_parts (h : Hub) (n : Fin 64) (st cause : Nat) :
    h.lnTo n st cause = { h with fields := (h.lnTo n st cause).fields } := by
  rcases h.lnTo_cases n st cause with e | e <;> rw [e] <;> rfl

theorem Hub.lnTo_fld {h : Hub} {n : Fin 64} {f : Fld} (other : ∀ m : Fin 64, m = n ∨ m = partner n →
    f.key ≠ (laneFld m lrSTATE).key ∧ f.key ≠ (laneFld m lrCAUSE).key) (st cause : Nat) : (h.lnTo n st cause).fld f = h.fld f := by
  obtain ⟨state, cse⟩ := other n (.inl rfl)
  obtain ⟨state', cse'⟩ := other (partner n) (.inr rfl)
  rcases h.lnTo_cases n st cause with e | e <;> rw [e]
  · rw [Hub.fld_put_ne _ _ _ _ cse, Hub.fld_put_ne _ _ _ _ state]
  · rw [Hub.fld_put_ne _ _ _ _ cse', Hub.fld_put_ne _ _ _ _ state', Hub.fld_put_ne _ _ _ _ cse, Hub.fld_put_ne _ _ _ _ state]

/-- A register of the lane is none of its partner's. -/
theorem partnerFld_ne (n : Fin 64) {r : LaneReg} (x : LaneReg) (hr : r.1 * 32 + r.2.1 < 0x20000) (hx : x.1 * 32 + x.2.1 < 0x20000) :
    (laneFld n r).key ≠ (laneFld (partner n) x).key := laneFld_ne_other (partner_ne n).symm hr hx

theorem Hub.lnTo_state (h : Hub) (n : Fin 64) (st cause : Nat) : (h.lnTo n st cause).ln n = st % 8 := by
  have own : ((h.put (laneFld n lrSTATE) st).put (laneFld n lrCAUSE) cause).fld (laneFld n lrSTATE) = st % 8 :=
    (Hub.fld_put_ne _ _ _ _ (laneFld_ne (by decide))).trans (Hub.fld_put_same _ _ _)
  change (h.lnTo n st cause).fld (laneFld n lrSTATE) = st % 8
  rcases h.lnTo_cases n st cause with e | e <;> rw [e]
  · exact own
  · rw [Hub.fld_put_ne _ _ _ _ (partnerFld_ne n lrCAUSE (by decide) (by decide)),
      Hub.fld_put_ne _ _ _ _ (partnerFld_ne n lrSTATE (by decide) (by decide)), own]

theorem Hub.lnTo_cause (h : Hub) (n : Fin 64) (st cause : Nat) : (h.lnTo n st cause).fld (F.LN_STAT_CAUSE n) = cause % 16 := by
  have own : ((h.put (laneFld n lrSTATE) st).put (laneFld n lrCAUSE) cause).fld (laneFld n lrCAUSE) = cause % 16 :=
    Hub.fld_put_same _ _ _
  change (h.lnTo n st cause).fld (laneFld n lrCAUSE) = cause % 16
  rcases h.lnTo_cases n st cause with e | e <;> rw [e]
  · exact own
  · rw [Hub.fld_put_ne _ _ _ _ (partnerFld_ne n lrCAUSE (by decide) (by decide)),
      Hub.fld_put_ne _ _ _ _ (partnerFld_ne n lrSTATE (by decide) (by decide)), own]

/-- Another register of the lane's page. -/
theorem Hub.lnTo_own (h : Hub) (n : Fin 64) {r : LaneReg} (page : r.1 * 32 + r.2.1 < 0x20000) (e : r.off [lrSTATE, lrCAUSE] = true)
    (st cause : Nat) : (h.lnTo n st cause).fld (laneFld n r) = h.fld (laneFld n r) := by
  refine Hub.lnTo_fld (fun m hm => ?_) st cause
  rcases hm with rfl | rfl
  · exact ⟨LaneReg.off_ne e (by simp) m, LaneReg.off_ne e (by simp) m⟩
  · exact ⟨partnerFld_ne n lrSTATE page (by decide), partnerFld_ne n lrCAUSE page (by decide)⟩

theorem Hub.lnTo_low (h : Hub) (n : Fin 64) {f : Fld} (low : f.key < 0x100000 * 32) (st cause : Nat) :
    (h.lnTo n st cause).fld f = h.fld f :=
  Hub.lnTo_fld (fun m _ => ⟨lowFld_ne low m _, lowFld_ne low m _⟩) st cause

theorem Hub.lnTo_alone {h : Hub} {n : Fin 64} (e : h.fn n ≠ 2) (st cause : Nat) :
    h.lnTo n st cause = (h.put (F.LN_STAT_STATE n) st).put (F.LN_STAT_CAUSE n) cause := by
  have fn : ((h.put (F.LN_STAT_STATE n) st).put (F.LN_STAT_CAUSE n) cause).fn n = h.fn n :=
    (Hub.fld_put_ne _ _ _ _ (laneFld_ne (n := n) (r := (0, 0, 4)) (x := lrCAUSE) (by decide))).trans
      (Hub.fld_put_ne _ _ _ _ (laneFld_ne (n := n) (r := (0, 0, 4)) (x := lrSTATE) (by decide)))
  unfold Hub.lnTo
  dsimp only
  rw [if_neg (by rw [fn]; exact fun q => e q.2.1)]

theorem Hub.grip_alone {h : Hub} {n : Fin 64} (e : h.fn n ≠ 2) : h.grip n = h.gripOne n := by
  have fn : (h.gripOne n).fn n = h.fn n := rfl
  unfold Hub.grip
  dsimp only
  rw [if_neg (by rw [fn]; exact fun q => e q.2.1)]

/-! ## The lane beside its registers, after the changes of state -/

/-- A lane with a waveform. -/
def Lane.wave (l : Lane) (on halt : Bool) (start per duty : Nat) : Lane :=
  { l with pwmOn := on, pwmHalt := halt, pwmStart := start, pwmPer := per, pwmDuty := duty }

/-- A lane after its way into UP: a fresh waveform at most. -/
def Lane.InUp (l l' : Lane) : Prop := ∃ on halt start per duty, l' = Lane.wave { l with firstZ := true } on halt start per duty

/-- A lane whose function has stopped (other than SSI). -/
def Lane.stopped (l : Lane) : Lane :=
  { l with open_ := false, cur := none, de := false, pwmOn := false, pwmHalt := false, discard := 0, stretch := false,
           sample := none }

theorem Hub.fnStop_alone {h : Hub} {n : Fin 64} (e : h.fn n ≠ 5) : h.fnStop n = h.modLane n Lane.stopped := by
  unfold Hub.fnStop
  dsimp only
  rw [if_neg (show h.fn n ≠ fnSSI from e)]
  rfl

namespace LaneStep

section
variable {n : Fin 64} {l : List LaneReg} {L : Lane} {h k : Hub} (p : LaneStep n l L h k)
include p

theorem fn (e : LaneReg.off (0, 0, 4) l = true) : k.fn n = h.fn n := p.fld (0, 0, 4) e

theorem ln (e : lrSTATE.off l = true) : k.ln n = h.ln n := p.fld lrSTATE e

theorem pushRx (quiet : h.quietLane n = true) {ws : List W32} (room : L.rx.q.length + ws.length ≤ 64) {extra : List Nat}
    (mem : ∀ i ∈ lfRX_LVL :: extra, lrFlag i ∈ l) (good : Bool) :
    LaneStep n l { L with rx := L.rx.pushAll ws good h.now } h (k.pushRx n ws extra good) := by
  have lane := p.lane
  obtain ⟨fs, within, e | e⟩ := Hub.pushRx_cases (h := k) (by rw [lane]; exact room) extra good <;>
    rw [e, lane, p.now]
  · exact p.modTo rfl
  · refine LaneStep.flags ?_ quiet fs fun i hi => mem i (within i hi)
    exact p.modTo rfl

theorem txFreed (quiet : h.quietLane n = true) (before : Nat) {extra : List Nat} (mem : ∀ i ∈ lfTX_LVL :: extra, lrFlag i ∈ l) :
    LaneStep n l L h (k.txFreed n before extra) := by
  obtain ⟨fs, within, e | e⟩ := k.txFreed_cases n before extra <;> rw [e]
  · exact p
  · exact p.flags quiet fs fun i hi => mem i (within i hi)

theorem flushWords (quiet : h.quietLane n = true) (flush : lrFLUSH ∈ l) {extra : List Nat}
    (mem : ∀ i ∈ lfTX_LVL :: extra, lrFlag i ∈ l) : LaneStep n l { L with tx := L.tx.flush } h (k.flushWords n extra) :=
  ((p.mod fun l => { l with tx := l.tx.flush }).countSat flush _).txFreed quiet _ mem

/-- A good word is drawn. -/
theorem drawTx (quiet : h.quietLane n = true) {w : FifoWord} {r : List FifoWord} (e : L.tx.q = w :: r) (good : w.good = true)
    (mem : lrFlag lfTX_LVL ∈ l) :
    (k.drawTx n).2 = some w ∧ LaneStep n l { L with tx := L.tx.popped r } h (k.drawTx n).1 := by
  have lane := p.lane
  rw [Hub.drawTx_good (by rw [lane]; exact e) good, lane]
  refine ⟨rfl, LaneStep.txFreed ?_ quiet _ (extra := []) (by simpa using mem)⟩
  exact p.modTo rfl

theorem lnTo (alone : h.fn n ≠ 2) (fn : LaneReg.off (0, 0, 4) l = true) (state : lrSTATE ∈ l) (cause : lrCAUSE ∈ l) (st c : Nat) :
    LaneStep n l L h (k.lnTo n st c) := by
  rw [Hub.lnTo_alone (by rw [p.fn fn]; exact alone)]
  exact (p.put state st).put cause c

theorem fnStop (alone : h.fn n ≠ 5) (fn : LaneReg.off (0, 0, 4) l = true) : LaneStep n l L.stopped h (k.fnStop n) := by
  rw [Hub.fnStop_alone (by rw [p.fn fn]; exact alone)]
  exact p.mod _

/-- The keepers take levels: pins only. -/
theorem grip (alone : h.fn n ≠ 2) (fn : LaneReg.off (0, 0, 4) l = true) : ∃ pin, LaneStep n l { L with pin := pin } h (k.grip n) := by
  rw [Hub.grip_alone (by rw [p.fn fn]; exact alone), Hub.gripOne]
  dsimp only
  split
  · exact ⟨_, p.modTo rfl⟩
  · exact ⟨_, p.modTo rfl⟩

theorem pwmStart : LaneStep n l (L.wave (decide ((k.cfg n 0).bits 23 0 ≠ 0)) false (k.ctrOf n) ((k.cfg n 0).bits 23 0)
    ((k.cfg n 1).bits 23 0)) h (k.pwmStart n) := by
  unfold Hub.pwmStart
  exact p.modTo rfl

theorem enterUp (quiet : h.quietLane n = true) (alone : h.fn n ≠ 2) (noCan : h.fn n ≠ 8) (idle : L.dev = [])
    (uart : h.fn n ≠ 1 ∨ L.tx.q = []) (fn : LaneReg.off (0, 0, 4) l = true) (state : lrSTATE ∈ l) (cause : lrCAUSE ∈ l)
    (up : lrFlag lfUP ∈ l) : ∃ L', L.InUp L' ∧ LaneStep n l L' h (k.enterUp n) ∧ (k.enterUp n).ln n = lnUP ∧
      (k.enterUp n).bit (laneFld n (lrFlag lfUP)) = true := by
  have entered := (p.lnTo alone fn state cause lnUP 0).mod fun l => { l with firstZ := true }
  have isUp : ((k.lnTo n lnUP 0).modLane n fun l => { l with firstZ := true }).ln n = lnUP := k.lnTo_state n 2 0
  unfold Hub.enterUp
  dsimp only at entered isUp ⊢
  generalize (k.lnTo n lnUP 0).modLane n _ = m at entered isUp ⊢
  have waved : ∃ L', L.InUp L' ∧ LaneStep n l L' h (if m.fn n = fnPINS then m.pwmStart n else m) := by
    split
    · exact ⟨_, ⟨_, _, _, _, _, rfl⟩, entered.pwmStart⟩
    · exact ⟨_, ⟨L.pwmOn, L.pwmHalt, L.pwmStart, L.pwmPer, L.pwmDuty, rfl⟩, entered⟩
  have stays : Hub.ln (if m.fn n = fnPINS then m.pwmStart n else m) n = lnUP := by
    split <;> exact isUp
  obtain ⟨L', inUp, q⟩ := waved
  generalize (if m.fn n = fnPINS then m.pwmStart n else m) = w at q stays ⊢
  have flagged := q.flags quiet [lfUP] (by simpa using up)
  obtain ⟨on, halt, start, per, duty, rfl⟩ := inUp
  refine ⟨_, ⟨on, halt, start, per, duty, rfl⟩, ?_⟩
  rw [Hub.uartBegin_idle (by rw [flagged.fn fn, flagged.lane]; exact uart), Hub.canLaneUp_idle (by rw [flagged.fn fn]; exact noCan),
    Hub.devStart_idle (by rw [flagged.lane]; exact idle)]
  exact ⟨flagged, (w.laneFlags_fld n [lfUP] (laneFld_side n lrSTATE) (by simpa using laneFld_ne (by decide))).trans stays,
    w.laneFlags_bit n (by simp)⟩

end

end LaneStep

end Sys2Proof.Machine
end

section
/-! PROOFS. Configuration words and the device queue of a lane as steps of its frame (O6, O10-O13). -/

namespace Sys2Proof.Machine

/-! ## Configuration words (R41) -/

/-- LNnn_CFGi. -/
abbrev lrCFG (i : Nat) : LaneReg := (0x50 + 4 * i, 0, 32)

theorem laneCfg_eq (n : Fin 64) (i : Nat) : F.LN_CFG n i = laneFld n (lrCFG i) := by
  simp only [F.LN_CFG, laneFld, Nat.add_assoc]

theorem Hub.cfg_congr {h k : Hub} {n : Fin 64} {i : Nat} (word : k.fld (F.LN_CFG n i) = h.fld (F.LN_CFG n i))
    (fn : k.fn n = h.fn n) (written : (k.lane n).cfgW = (h.lane n).cfgW) : k.cfg n i = h.cfg n i := by
  unfold Hub.cfg
  rw [word, fn, written]

theorem Hub.setCfg_fld_ne (h : Hub) (n : Fin 64) (i : Nat) (v : W32) {r : LaneReg} (e : r.1 * 32 + r.2.1 ≠ (0x50 + 4 * i) * 32) :
    (h.setCfg n i v).fld (laneFld n r) = h.fld (laneFld n r) := by
  refine Hub.fld_put_ne _ _ _ _ ?_
  rw [laneCfg_eq]
  exact laneFld_ne e

theorem Hub.setCfg_fn (h : Hub) (n : Fin 64) (i : Nat) (v : W32) : (h.setCfg n i v).fn n = h.fn n :=
  h.setCfg_fld_ne n i v (r := (0, 0, 4)) (by dsimp only; omega)

theorem Hub.setCfg_written (h : Hub) (n : Fin 64) (i : Nat) (v : W32) :
    ((h.setCfg n i v).lane n).cfgW = (h.lane n).cfgW ||| BitVec.twoPow 4 i := by
  rw [Hub.setCfg, Hub.lane_modLane]
  rfl

/-- A word just written reads back. -/
theorem Hub.cfg_setCfg_same (h : Hub) (n : Fin 64) {i : Nat} (e : i < 4) (v : W32) : (h.setCfg n i v).cfg n i = v := by
  have word : (h.setCfg n i v).fld (F.LN_CFG n i) = v.toNat :=
    (Hub.fld_put_same _ _ _).trans (Nat.mod_eq_of_lt v.isLt)
  have written : ((h.setCfg n i v).lane n).cfgW.getLsbD i = true := by
    rw [Hub.setCfg_written]
    simp [e]
  unfold Hub.cfg
  dsimp only
  rw [if_pos (.inr written), word]
  simp

/-- Another word stays. -/
theorem Hub.cfg_setCfg_ne (h : Hub) (n : Fin 64) {i j : Nat} (e : j ≠ i) (v : W32) : (h.setCfg n i v).cfg n j = h.cfg n j := by
  have word := h.setCfg_fld_ne n i v (r := lrCFG j) (by dsimp only; omega)
  rw [← laneCfg_eq] at word
  have written : ((h.setCfg n i v).lane n).cfgW.getLsbD j = (h.lane n).cfgW.getLsbD j := by
    rw [Hub.setCfg_written]
    simp [e.symm]
  unfold Hub.cfg
  rw [written, word, h.setCfg_fn]

/-! ## The device queue -/

theorem Hub.devStart_cases (h : Hub) (n : Fin 64) :
    h.devStart n = h ∨ h.devStart n = h.modLane n fun l => { l with devRun := true, devTick := h.now } := by
  unfold Hub.devStart
  dsimp only
  split
  · exact .inl rfl
  · exact (ite_eq_or_eq (P := _ = true) _ _).symm

namespace LaneStep

section
variable {n : Fin 64} {l : List LaneReg} {L : Lane} {h k : Hub} (p : LaneStep n l L h k)
include p

theorem cfg (i : Nat) (written : L.cfgW = (h.lane n).cfgW) (off : [(0, 0, 4), lrCFG i].all (fun r => LaneReg.off r l) = true) :
    k.cfg n i = h.cfg n i := by
  simp only [List.all_cons, List.all_nil, Bool.and_true, Bool.and_eq_true] at off
  refine Hub.cfg_congr ?_ (p.fn off.1) (by rw [p.lane]; exact written)
  rw [laneCfg_eq]
  exact p.fld (lrCFG i) off.2

theorem setCfg {i : Nat} (mem : lrCFG i ∈ l) (v : W32) :
    LaneStep n l { L with cfgW := L.cfgW ||| BitVec.twoPow 4 i } h (k.setCfg n i v) := by
  unfold Hub.setCfg
  rw [laneCfg_eq]
  refine LaneStep.modTo ?_ rfl
  exact p.put mem v.toNat

/-- The queue may start. -/
theorem devStart : ∃ run tick, LaneStep n l { L with devRun := run, devTick := tick } h (k.devStart n) := by
  rcases k.devStart_cases n with e | e <;> rw [e]
  · exact ⟨L.devRun, L.devTick, p⟩
  · exact ⟨true, k.now, p.modTo rfl⟩

theorem streamEnd : ∃ run tick, LaneStep n l { L with open_ := false, devRun := run, devTick := tick } h (k.streamEnd n) :=
  LaneStep.devStart (L := { L with open_ := false }) (p.modTo rfl)

end

end LaneStep

end Sys2Proof.Machine
end

section
/-! PROOFS. Output latches, pin levels, captures and the PWM period (O9). -/

namespace Sys2Proof.Machine

/-! ## Pins -/

theorem Hub.pin_modPin (h : Hub) (n : Fin 64) (p : Fin 3) (g : Pin → Pin) :
    ((h.modPin n p g).lane n).pin[p] = g ((h.lane n).pin[p]) := by
  rw [Hub.modPin_eq, Hub.lane_modLane]
  exact Vector.getElem_set_self _

theorem Hub.lanes_modPin_ne (h : Hub) {n m : Fin 64} (e : m ≠ n) (p : Fin 3) (g : Pin → Pin) :
    (h.modPin n p g).lanes[m] = h.lanes[m] := by
  rw [Hub.modPin_eq]
  exact h.lanes_modLane_ne e _

/-! ## The output latch (R58) -/

/-- The latch word with one bit written. -/
def latchBit (o : Nat) (p : Fin 3) (b : Bool) : Nat := if b then o ||| 2 ^ p.val else o &&& (7 - 2 ^ p.val)

/-- Three bits written replace the word. -/
theorem latchBit_all : ∀ (o : Fin 8) (v : BitVec 3), latchBit (latchBit (latchBit o 0 (v.toNat.testBit 0) % 8) 1
    (v.toNat.testBit 1) % 8) 2 (v.toNat.testBit 2) % 8 = v.toNat := by decide

/-- Neither a timed action nor a drone output fell on the pins in this tick. -/
def Hub.PinsFree (h : Hub) (n : Fin 64) : Prop :=
  ∀ p : Fin 3, ((h.lane n).pin[p]).actAt ≠ some h.now ∧ ((h.lane n).pin[p]).drnAt ≠ some h.now

theorem Hub.latch_out (h : Hub) (n : Fin 64) (p : Fin 3) (b : Bool) :
    (h.latch n p b).fld (F.LN_IO_OUT n) = latchBit (h.fld (F.LN_IO_OUT n)) p b % 8 := Hub.fld_put_same _ _ _

theorem Hub.PinsFree.latch {h : Hub} {n : Fin 64} (free : h.PinsFree n) (p : Fin 3) (b : Bool) : (h.latch n p b).PinsFree n := by
  intro q
  have lane : (h.latch n p b).lane n = { h.lane n with pin := (h.lane n).pin.set p { (h.lane n).pin[p] with released := false } } :=
    Vector.getElem_set_self _
  rw [lane, show (h.latch n p b).now = h.now from rfl]
  by_cases same : p = q
  · subst same
    simpa using free p
  · have ne : p.val ≠ q.val := fun e => same (Fin.ext e)
    simpa [ne] using free q

/-- The write of one latch of pins that are free. -/
theorem Hub.PinsFree.write {h : Hub} {n : Fin 64} (free : h.PinsFree n) (p : Fin 3) (b : Bool) :
    (if ((h.lane n).pin[p]).actAt == some h.now || ((h.lane n).pin[p]).drnAt == some h.now then h else h.latch n p b) =
      h.latch n p b := by
  obtain ⟨act, drn⟩ := free p
  rw [if_neg]
  simp only [Bool.or_eq_true, beq_iff_eq, not_or]
  exact ⟨act, drn⟩

theorem Hub.outWrite_free {h : Hub} {n : Fin 64} (free : h.PinsFree n) (v : Nat) :
    h.outWrite n v = ((h.latch n 0 (v.testBit 0)).latch n 1 (v.testBit 1)).latch n 2 (v.testBit 2) := by
  rw [← ((free.latch 0 (v.testBit 0)).latch 1 (v.testBit 1)).write 2, ← (free.latch 0 (v.testBit 0)).write 1, ← free.write 0]
  rfl

/-- All three latches written, nothing else of the registers moves. -/
theorem Hub.PinsFree.outWrite {h : Hub} {n : Fin 64} (free : h.PinsFree n) (small : h.fld (F.LN_IO_OUT n) < 8) (v : BitVec 3) :
    (h.outWrite n v.toNat).fld (F.LN_IO_OUT n) = v.toNat ∧ SameRegs h (h.outWrite n v.toNat) [F.LN_IO_OUT n] := by
  rw [Hub.outWrite_free free]
  refine ⟨?_, ?_⟩
  · rw [Hub.latch_out, Hub.latch_out, Hub.latch_out]
    exact latchBit_all ⟨_, small⟩ v
  · have one (g : Hub) (p : Fin 3) (b : Bool) (q : SameRegs h g [F.LN_IO_OUT n]) :
        SameRegs h (g.latch n p b) [F.LN_IO_OUT n] := (q.put (f := F.LN_IO_OUT n) (by simp) _).congr rfl
    exact one _ 2 _ (one _ 1 _ (one _ 0 _ (SameRegs.refl _ _)))

theorem Hub.latch_parts {h g : Hub} (e : g = { h with fields := g.fields, hw := g.hw, lanes := g.lanes }) (n : Fin 64) (p : Fin 3)
    (b : Bool) : g.latch n p b =
      { h with fields := (g.latch n p b).fields, hw := (g.latch n p b).hw, lanes := (g.latch n p b).lanes } := by
  rw [e]
  rfl

theorem Hub.outWrite_parts {h : Hub} {n : Fin 64} (free : h.PinsFree n) (v : Nat) :
    h.outWrite n v = { h with fields := (h.outWrite n v).fields, hw := (h.outWrite n v).hw, lanes := (h.outWrite n v).lanes } := by
  rw [Hub.outWrite_free free]
  exact Hub.latch_parts (Hub.latch_parts (Hub.latch_parts rfl n 0 _) n 1 _) n 2 _

/-! ## Levels and captures (R59, R60) -/

theorem Hub.pimInput_quiet {h : Hub} {n : Fin 64} (quiet : h.quietLane n = true) (bs : List Byte) (good : Bool) :
    h.pimInput n bs good = h := by
  unfold Hub.pimInput
  dsimp only
  rw [((h.quietLane_iff n).mp quiet).2.2]
  rfl

theorem Hub.evEdge_quiet {h : Hub} {n : Fin 64} (quiet : h.quietLane n = true) (pin : Nat) (level : Bool) (stamp : Nat) :
    h.evEdge n pin level stamp = h := by
  unfold Hub.evEdge
  rw [((h.quietLane_iff n).mp quiet).2.1, Hub.lockEvent_none]

/-- The level accepted on a pin. -/
def Hub.settled (h : Hub) (n : Fin 64) (p : Fin 3) : Hub := h.modPin n p fun q => { q with deb := q.raw, chg := none }

section
variable {h : Hub} {n : Fin 64} {p : Fin 3}

/-- No level waits, or it has not been stable for DEB. -/
theorem Hub.accept_early (e : ((h.lane n).pin[p]).chg = none ∨ h.now < ((h.lane n).pin[p]).chgAt + h.debTicks n p) :
    h.accept n p = h := by
  unfold Hub.accept
  dsimp only
  split
  · rfl
  · rename_i t waits
    rcases e with e | e
    · rw [e] at waits
      cases waits
    · exact if_pos e

variable {t : Nat} (waits : ((h.lane n).pin[p]).chg = some t) (stable : ((h.lane n).pin[p]).chgAt + h.debTicks n p ≤ h.now)
include waits stable

/-- Off a PINS lane the level is accepted and nothing is captured. -/
theorem Hub.accept_other (other : h.fn n ≠ 0) : h.accept n p = h.settled n p := by
  have fn : (h.settled n p).fn n ≠ fnPINS := other
  unfold Hub.accept
  simp only [waits]
  rw [if_neg (Nat.not_lt.mpr stable)]
  simp only [← Hub.settled.eq_1]
  rw [if_neg fn, if_neg fun q => fn q.1]

/-- On a PINS lane that captures both edges the pair is pushed. -/
theorem Hub.accept_capture (pins : h.fn n = 0) (up : h.up n = true) (cap : h.fld (F.LN_PIN_CAP n p) = 3) (mine : h.lent n = false)
    (quiet : h.quietLane n = true) : ∃ lev w, h.accept n p =
      ((h.settled n p).pushRx n [BitVec.ofNat 32 t, w]).evEdge n p lev t := by
  have both (lev : Bool) : (lev = true ∧ Nat.testBit 3 0 = true) ∨ (!lev) = true ∧ Nat.testBit 3 1 = true := by
    cases lev
    · exact .inr ⟨rfl, by decide⟩
    · exact .inl ⟨rfl, by decide⟩
  have fn : (h.settled n p).fn n = fnPINS := pins
  have cap' : (h.settled n p).fld (F.LN_PIN_CAP n p) = 3 := cap
  unfold Hub.accept
  simp only [waits]
  rw [if_neg (Nat.not_lt.mpr stable)]
  simp only [← Hub.settled.eq_1]
  rw [if_pos fn, Hub.pimInput_quiet (h := h.settled n p) quiet, cap', if_pos ⟨fn, up, both _, mine⟩]
  exact ⟨_, _, rfl⟩

end

theorem Hub.pwmNext_on {h : Hub} {n : Fin 64} (pins : h.fn n = 0) (up : h.up n = true) (on : (h.lane n).pwmOn = true) :
    h.pwmNext n = h.pwmStart n := if_pos ⟨pins, up, on⟩

/-- The lane after the capture of a pair: the level accepted, two words pushed. -/
theorem Hub.accept_pair {h : Hub} {n : Fin 64} {p : Fin 3} {t : Nat} (waits : ((h.lane n).pin[p]).chg = some t)
    (stable : ((h.lane n).pin[p]).chgAt + h.debTicks n p ≤ h.now) (pins : h.fn n = 0) (up : h.up n = true)
    (cap : h.fld (F.LN_PIN_CAP n p) = 3) (mine : h.lent n = false) (room : (h.lane n).rx.q.length ≤ 62)
    (quiet : h.quietLane n = true) : ∃ w, LaneStep n [lrFlag lfRX_LVL] { h.lane n with
      pin := (h.lane n).pin.set p { (h.lane n).pin[p] with deb := ((h.lane n).pin[p]).raw, chg := none }
      rx := (h.lane n).rx.pushAll [BitVec.ofNat 32 t, w] true h.now } h (h.accept n p) := by
  obtain ⟨lev, w, e⟩ := Hub.accept_capture waits stable pins up cap mine quiet
  have settled : LaneStep n [lrFlag lfRX_LVL] { h.lane n with
      pin := (h.lane n).pin.set p { (h.lane n).pin[p] with deb := ((h.lane n).pin[p]).raw, chg := none } } h (h.settled n p) := by
    unfold Hub.settled
    rw [Hub.modPin_eq]
    exact (LaneStep.start n _ h).modTo rfl
  have run := settled.pushRx quiet (ws := [BitVec.ofNat 32 t, w]) (by simpa using room) (extra := []) (by simp) true
  rw [e, Hub.evEdge_quiet (run.quiet.trans quiet)]
  exact ⟨w, run⟩

/-- A push of a pair is seen: two words more, the first of them behind the older ones. -/
theorem Fifo.pushAll_pair {f : Fifo} (room : f.q.length ≤ 62) (a b : W32) (good : Bool) (t : Nat) :
    (f.pushAll [a, b] good t).q.length = f.q.length + 2 ∧
      ((f.pushAll [a, b] good t).q.map fun w => w.w)[f.q.length]? = some a := by
  have fits : f.q.length + [a, b].length ≤ 64 := by simpa using room
  rw [Fifo.pushAll_q fits]
  simp

/-- Settles O9: the latch takes its three bits one after the other; a level is recorded and accepted as the model's two pin
operations say, and a capture is a push of a quiet lane's frame; a period begins as `pwmStart` says. -/
theorem lanePins : Obligations.LanePins := by
  unfold Obligations.LanePins
  refine ⟨fun a n v s admitted free small => ?outLatch, fun n p level s reachable differs => ?rawChange,
    fun n p t s waits stable other => ?accepted, fun n p s early => ?early,
    fun n p t s waits stable pins up cap mine room quiet => ?captured, fun n s pins up on => ?period⟩
  case outLatch =>
    refine (runs_cmdDo rfl admitted).mpr ?_
    obtain ⟨word, regs⟩ := Hub.PinsFree.outWrite free small v
    exact ⟨word, Hub.outWrite_parts free _, regs⟩
  case rawChange =>
    refine (runs_iff rfl).mpr ?_
    rw [if_pos reachable, Hub.rawChange, if_neg (by simpa using differs)]
    refine ⟨?_, ?_, ?_, rfl, fun m hm => s.hub.lanes_modPin_ne hm _ _⟩ <;> rw [Hub.pin_modPin]
    simp
  case accepted =>
    refine (runs_iff rfl).mpr ?_
    rw [Hub.accept_other waits stable other, Hub.settled]
    refine ⟨?_, ?_, rfl, fun m hm => s.hub.lanes_modPin_ne hm _ _⟩ <;> rw [Hub.pin_modPin]
  case early =>
    exact (runs_iff rfl).mpr (Hub.accept_early early)
  case captured =>
    refine (runs_iff rfl).mpr ?_
    obtain ⟨w, run⟩ := Hub.accept_pair waits stable pins up cap mine room quiet
    obtain ⟨length, first⟩ := Fifo.pushAll_pair room (BitVec.ofNat 32 t) w true s.hub.now
    rw [run.lane]
    exact ⟨by simp, length, first, run.others⟩
  case period =>
    refine (runs_iff rfl).mpr ?_
    rw [Hub.pwmNext_on pins up on]
    have run := (LaneStep.start n [] s.hub).pwmStart
    rw [run.lane]
    exact ⟨rfl, rfl, rfl, rfl, rfl, run.others⟩

end Sys2Proof.Machine
end

section
/-! PROOFS. Down causes: banks that leave and regain their window, causes that clear, holds that expire (O8). -/

namespace Sys2Proof.Machine

/-! ## Returns and expiries (R73, R74) -/

theorem Hub.causeOf_none {h : Hub} {n : Fin 64} (channel : (h.dl[regionOf (clusterOf n)]).down = false)
    (bank : h.bank3.getLsbD (n / 8) = false) (device : (h.lane n).devBad = false) : h.causeOf n = 0 := by
  unfold Hub.causeOf
  rw [channel, bank, device]
  rfl

/-- With no cause standing a lane in HOLD in time, or in DOWN, returns to UP. -/
theorem Hub.laneEval_up {h : Hub} {n : Fin 64} (cause : h.causeOf n = 0) (fresh : h.fld (F.LN_HOLD_MAXRES n) = 0)
    (st : h.ln n = lnHOLD ∧ h.now ≤ h.holdEnd n ∨ h.ln n = lnDOWN) : h.laneEval n = h.enterUp n := by
  have stays : (if h.causeOf n = 4 ∨ h.holdEnd n < h.now then h.holdOut n else h) = h := by
    rcases st with ⟨-, inTime⟩ | down
    · exact if_neg (by rw [cause]; omega)
    · split
      · exact if_neg (by rw [down]; decide)
      · rfl
  unfold Hub.laneEval
  dsimp only
  rw [stays, if_pos (st.imp_left And.left), if_pos cause, Hub.dropOld_idle fresh]

/-- As `laneEval_up`, within the frame of a quiet lane that has no work waiting for it. -/
theorem LaneStep.laneEval {n : Fin 64} {l : List LaneReg} {L : Lane} {h k : Hub} (p : LaneStep n l L h k)
    (channel : (h.dl[regionOf (clusterOf n)]).down = false) (bank : h.bank3.getLsbD (n / 8) = false) (device : L.devBad = false)
    (fresh : h.fld (F.LN_HOLD_MAXRES n) = 0) (st : k.ln n = lnHOLD ∧ k.now ≤ k.holdEnd n ∨ k.ln n = lnDOWN)
    (quiet : h.quietLane n = true) (alone : h.fn n ≠ 2) (noCan : h.fn n ≠ 8) (idle : L.dev = [])
    (uart : h.fn n ≠ 1 ∨ L.tx.q = []) (off : [(0, 0, 4), (0x28, 16, 16)].all (fun r => LaneReg.off r l) = true)
    (mem : [lrSTATE, lrCAUSE, lrFlag lfUP] ⊆ l) :
    ∃ L', L.InUp L' ∧ LaneStep n l L' h (k.laneEval n) ∧ (k.laneEval n).ln n = lnUP := by
  simp only [List.all_cons, List.all_nil, Bool.and_true, Bool.and_eq_true] at off
  obtain ⟨fnOff, resOff⟩ := off
  rw [Hub.laneEval_up (Hub.causeOf_none (by rw [p.dl]; exact channel) (by rw [p.bank3]; exact bank) (by rw [p.lane]; exact device))
    ((p.fld (0x28, 16, 16) resOff).trans fresh) st]
  obtain ⟨L', inUp, run, up, -⟩ := p.enterUp quiet alone noCan idle uart fnOff (mem (by simp)) (mem (by simp)) (mem (by simp))
  exact ⟨L', inUp, run, up⟩

theorem Hub.laneEval_other {h : Hub} {n : Fin 64} (e : h.ln n ≠ lnHOLD ∧ h.ln n ≠ lnDOWN) : h.laneEval n = h :=
  if_neg (not_or.mpr e)

theorem Hub.leaveUp_down {h : Hub} {n : Fin 64} (e : h.up n = false) (cause : Nat) : h.leaveUp n cause = h := by
  unfold Hub.leaveUp
  rw [e]
  rfl

theorem Hub.holdOut_hold {h : Hub} {n : Fin 64} (e : h.ln n = lnHOLD) : h.holdOut n = h.enterDown n (h.fld (F.LN_STAT_CAUSE n)) :=
  if_pos e

/-- What a quiet lane's way into DOWN leaves. -/
structure WentDown (n : Fin 64) (cause : Nat) (h h' : Hub) : Prop where
  parts : h' = { h with fields := h'.fields, hw := h'.hw, lanes := h'.lanes, out := h'.out }
  state : h'.ln n = lnDOWN
  cse : h'.fld (F.LN_STAT_CAUSE n) = cause % 16
  lanes : h'.lanes = h.lanes.set n { h.lane n with tx := (h.lane n).tx.flush }

theorem Hub.enterDown_spec {h : Hub} {n : Fin 64} (quiet : h.quietLane n = true) (cause : Nat) :
    WentDown n cause h (h.enterDown n cause) := by
  have parts := h.lnTo_parts n lnDOWN cause
  have run : LaneStep n [lrFLUSH, lrFlag lfTX_LVL, lrFlag lfHOLD_DROP] { h.lane n with tx := (h.lane n).tx.flush }
      (h.lnTo n lnDOWN cause) (h.enterDown n cause) := by
    have lane : (h.lnTo n lnDOWN cause).lane n = h.lane n := by rw [parts]; rfl
    have base := LaneStep.start n [lrFLUSH, lrFlag lfTX_LVL, lrFlag lfHOLD_DROP] (h.lnTo n lnDOWN cause)
    rw [lane] at base
    refine base.flushWords ((Hub.quietLane_congr (fun _ low => h.lnTo_low n low lnDOWN cause) n).trans quiet) (by simp) ?_
    split <;> simp
  refine ⟨?_, (run.ln (by decide)).trans (h.lnTo_state n lnDOWN cause),
    (run.fld lrCAUSE (by decide)).trans (h.lnTo_cause n lnDOWN cause), ?_⟩
  · rw [run.parts, parts]
  · rw [run.lanes, parts]

/-! ## Banks (R55) -/

theorem bankOk_ne_lane (c : Fin 8) (n : Fin 64) (r : LaneReg) (e : r.1 * 32 + r.2.1 < 0x1000 * 32) :
    (laneFld n r).key ≠ (F.IOB_CTL_BANK_OK c).key := by
  rw [laneFld_key]
  simp only [F.IOB_CTL_BANK_OK, Fld.key, bankBase, laneBase, clusterBase]
  omega

theorem mem_lanesOf {c : Fin 8} {n : Fin 64} (e : n ∈ lanesOf c) : n.val / 8 = c.val := by
  obtain ⟨i, -, rfl⟩ := List.mem_map.mp e
  dsimp only
  omega

/-- A fold whose steps find nothing to do. -/
theorem foldl_idle {α β : Type} {f : β → α → β} {b : β} {l : List α} (e : ∀ x ∈ l, f b x = b) : l.foldl f b = b :=
  List.foldlRecOn (motive := fun g => g = b) l f rfl fun g q x hx => by rw [q]; exact e x hx

theorem Hub.bankFault_idle {h : Hub} {c : Fin 8} (monitored : h.bit (F.IOB_CTL_MON_EN c) = true)
    (idle : ∀ n : Fin 64, n.val / 8 = c.val → h.up n = false) :
    h.bankFault c = ({ h with bank3 := h.bank3 ||| BitVec.twoPow 8 c } : Hub).off (F.IOB_CTL_BANK_OK c) := by
  unfold Hub.bankFault
  rw [monitored]
  refine foldl_idle (f := fun (h : Hub) n => h.leaveUp n 3) fun n hn => Hub.leaveUp_down ?_ 3
  have state := Hub.fld_put_ne { h with bank3 := h.bank3 ||| BitVec.twoPow 8 c } _ _ 0 (bankOk_ne_lane c n lrSTATE (by decide))
  exact (congrArg (· == lnUP) state).trans (idle n (mem_lanesOf hn))

theorem Hub.bankOk_idle {h : Hub} {c : Fin 8}
    (idle : ∀ n : Fin 64, n.val / 8 = c.val → h.ln n ≠ lnHOLD ∧ h.ln n ≠ lnDOWN) :
    h.bankOk c = ({ h with bank3 := h.bank3 &&& ~~~ (BitVec.twoPow 8 c), monOff := h.monOff.set c none } : Hub).putB
      (F.IOB_CTL_BANK_OK c) (h.bit (F.IOB_CTL_MON_EN c)) := by
  unfold Hub.bankOk
  refine foldl_idle (f := fun (h : Hub) n => h.laneEval n) fun n hn => Hub.laneEval_other ?_
  have state := Hub.fld_put_ne { h with bank3 := h.bank3 &&& ~~~ (BitVec.twoPow 8 c), monOff := h.monOff.set c none } _ _
    (b2n (h.bit (F.IOB_CTL_MON_EN c))) (bankOk_ne_lane c n lrSTATE (by decide))
  have settled := idle n (mem_lanesOf hn)
  exact ⟨fun e => settled.1 (state.symm.trans e), fun e => settled.2 (state.symm.trans e)⟩

/-- Settles O8: a bank's change meets no lane it moves; a cleared cause and an expired hold are steps of the lane's frame. -/
theorem laneCausesAndHold : Obligations.LaneCausesAndHold := by
  unfold Obligations.LaneCausesAndHold
  refine ⟨fun c s reachable monitored idle => ?fault, fun c s reachable monitored idle => ?ok,
    fun n s hold channel bank noSpi noCan fresh idle quiet noUart inTime => ?clears,
    fun n s hold late alone quiet => ?expires, fun n s early => ?early⟩
  case fault =>
    refine (runs_iff rfl).mpr ?_
    rw [if_pos reachable, Hub.bankFault_idle monitored idle]
    exact ⟨rfl, Hub.bit_off_same _ _, rfl, ((SameRegs.refl s.hub _).congr rfl).put (by simp) 0⟩
  case ok =>
    refine (runs_iff rfl).mpr ?_
    rw [if_pos (by rw [reachable, monitored]; rfl), Hub.bankOk_idle idle, monitored]
    exact ⟨rfl, rfl, Hub.bit_on_same _ _ rfl, rfl, ((SameRegs.refl s.hub _).congr rfl).put (by simp) 1⟩
  case clears =>
    refine (runs_iff rfl).mpr ?_
    have cleared := (LaneStep.start n [lrSTATE, lrCAUSE, lrFlag lfUP] s.hub).mod fun l => { l with devBad := false }
    obtain ⟨L, ⟨on, halt, start, per, duty, rfl⟩, run, up⟩ := cleared.laneEval channel bank rfl fresh
      (.inl ⟨hold, by rw [Hub.holdEnd, cleared.lane]; exact inTime⟩) quiet noSpi noCan idle (.inl noUart) (by decide) (by simp)
    rw [if_pos (.inl hold)]
    exact ⟨up, run.part Lane.devBad, run.part Lane.tx, run.parts, run.others⟩
  case expires =>
    refine (runs_iff rfl).mpr ?_
    obtain ⟨parts, state, cse, lanes⟩ := Hub.enterDown_spec quiet (s.hub.fld (F.LN_STAT_CAUSE n))
    rw [if_neg (by rw [alone]; simpa using late), Hub.holdOut_hold hold]
    refine ⟨state, cse, ?_, ?_, parts, fun m hm => ?_⟩
    · rw [Hub.lane, lanes]
      simp [Fifo.flush]
    · rw [Hub.lane, lanes]
      simp
    · rw [lanes]
      exact Vector.getElem_set_ne n.isLt m.isLt fun q => hm (Fin.ext q.symm)
  case early =>
    refine (runs_iff rfl).mpr ?_
    rw [if_pos (by simpa using early)]

end Sys2Proof.Machine
end

section
/-! PROOFS. A lane's function selected, enabled and disabled, and its FIFOs flushed (O6). -/

namespace Sys2Proof.Machine

/-! ## Selecting a function (R37, R44) -/

theorem laneFld_notErr (n : Fin 64) (r : LaneReg) : (laneFld n r).notErr := by
  unfold Fld.notErr
  rw [laneFld_key]
  simp only [laneBase, clusterBase]
  omega

abbrev lrFUNC : LaneReg := (0, 0, 4)
abbrev lrCANSEL : LaneReg := (0, 4, 1)

/-- The two fields of LNnn_FUNC. -/
def Hub.funcPut (h : Hub) (n : Fin 64) (v : W32) : Hub := (h.put (laneFld n lrFUNC) (v.bits 3 0)).put (laneFld n lrCANSEL) (v.bits 4 4)

section
variable {h : Hub} {n : Fin 64} {v : W32} (unlocked : h.laneLocked n = false) (change : v.bits 3 0 ≠ h.fn n)
include unlocked change

/-- A function the rules refuse. -/
theorem Hub.funcWrite_refused (bad : h.fnAllowed n (v.bits 3 0) (v.bits 4 4) = false) : h.funcWrite n v = none := by
  unfold Hub.funcWrite
  dsimp only
  rw [if_neg fun same => change same.1, unlocked, bad]
  rfl

/-- A function the rules allow, at a lane out of reset. -/
theorem Hub.funcWrite_allowed (allowed : h.fnAllowed n (v.bits 3 0) (v.bits 4 4) = true) (out : h.ln n ≠ lnRESET) :
    h.funcWrite n v = some (if v.bits 3 0 = 15 then (h.funcPut n v).lnTo n lnNONE 0 else (h.funcPut n v).lnTo n lnIDLE 1) := by
  have state : (h.funcPut n v).ln n ≠ lnRESET := fun e => out <| by
    rw [← e]
    exact ((Hub.fld_put_ne _ _ _ _ (laneFld_ne (n := n) (r := lrSTATE) (x := lrCANSEL) (by decide))).trans
      (Hub.fld_put_ne _ _ _ _ (laneFld_ne (n := n) (r := lrSTATE) (x := lrFUNC) (by decide)))).symm
  unfold Hub.funcWrite
  dsimp only
  rw [if_neg fun same => change same.1, unlocked, allowed, if_neg (by decide), if_neg (by decide)]
  exact congrArg some (if_neg state)

end

/-- What the fields of LNnn_FUNC and a change of state leave. -/
theorem Hub.funcPut_lnTo (h : Hub) (n : Fin 64) (v : W32) (st cause : Nat) :
    ((h.funcPut n v).lnTo n st cause).fn n = v.bits 3 0 ∧
      ((h.funcPut n v).lnTo n st cause).fld (F.LN_FUNC_CANSEL n) = v.bits 4 4 ∧
      (h.funcPut n v).lnTo n st cause =
        { h with fields := ((h.funcPut n v).lnTo n st cause).fields, hw := ((h.funcPut n v).lnTo n st cause).hw } ∧
      SameRegs h ((h.funcPut n v).lnTo n st cause) [F.LN_FUNC_FUNC n, F.LN_FUNC_CANSEL n, F.LN_STAT_STATE n, F.LN_STAT_CAUSE n,
        F.LN_STAT_STATE (partner n), F.LN_STAT_CAUSE (partner n)] := by
  have func : (h.funcPut n v).fld (laneFld n lrFUNC) = v.bits 3 0 :=
    ((Hub.fld_put_ne _ _ _ _ (laneFld_ne (by decide))).trans (Hub.fld_put_same _ _ _)).trans (Nat.mod_mod _ _)
  have sel : (h.funcPut n v).fld (laneFld n lrCANSEL) = v.bits 4 4 := (Hub.fld_put_same _ _ _).trans (Nat.mod_mod _ _)
  refine ⟨(Hub.lnTo_own _ n (r := lrFUNC) (by decide) (by decide) st cause).trans func,
    (Hub.lnTo_own _ n (r := lrCANSEL) (by decide) (by decide) st cause).trans sel, ?_, fun f hf => ?_⟩
  · rw [Hub.lnTo_parts]
    rfl
  · simp only [List.forall_mem_cons] at hf
    obtain ⟨neFunc, neSel, neState, neCause, neState', neCause', -⟩ := hf
    refine (Hub.lnTo_fld (fun m hm => ?_) st cause).trans ((Hub.fld_put_ne _ _ _ _ neSel).trans (Hub.fld_put_ne _ _ _ _ neFunc))
    rcases hm with rfl | rfl
    · exact ⟨neState, neCause⟩
    · exact ⟨neState', neCause'⟩

/-- Where a function has put its lane. -/
theorem Hub.funcPut_ln (h : Hub) (n : Fin 64) (v : W32) :
    (if v.bits 3 0 = 15 then (h.funcPut n v).lnTo n lnNONE 0 else (h.funcPut n v).lnTo n lnIDLE 1).ln n =
      if v.bits 3 0 = 15 then lnNONE else lnIDLE := by
  split
  · exact Hub.lnTo_state _ n 0 0
  · exact Hub.lnTo_state _ n 1 1

/-! ## Enabling (R44, R46) -/

/-- An enabled IDLE lane that needs no device and has no cause standing enters UP. -/
theorem LaneStep.laneStart {n : Fin 64} {l : List LaneReg} {L : Lane} {h k : Hub} (p : LaneStep n l L h k)
    (idle : k.ln n = lnIDLE) (alone : h.fn n ≠ 2) (noCan : h.fn n ≠ 8) (free : k.needsDevice n = false)
    (channel : (h.dl[regionOf (clusterOf n)]).down = false) (bank : h.bank3.getLsbD (n / 8) = false) (noDev : L.dev = [])
    (uart : h.fn n ≠ 1 ∨ L.tx.q = []) (quiet : h.quietLane n = true) (fn : LaneReg.off (0, 0, 4) l = true)
    (mem : [lrCONFIG_ERR, lrSTATE, lrCAUSE, lrFlag lfUP] ⊆ l) :
    ∃ L', LaneStep n l L' h (k.laneStart n) ∧ (k.laneStart n).ln n = lnUP ∧
      (k.laneStart n).bit (laneFld n (lrFlag lfUP)) = true := by
  have noCtl : k.i2cCtl n = false := by
    simp only [Hub.needsDevice, Bool.or_eq_false_iff] at free
    exact free.2
  have noClear (g : Hub) (o : Out) : (if k.i2cCtl n = true then g.emit o else g) = g := by
    rw [noCtl]
    exact if_neg (by decide)
  unfold Hub.laneStart
  dsimp only
  rw [if_neg (by simp [idle]), if_neg (by rw [p.fn fn]; exact fun e => alone e.1), noClear]
  have cleared : LaneStep n l L h (k.off (F.LN_STAT_CONFIG_ERR n)) := p.put (r := lrCONFIG_ERR) (mem (by simp)) 0
  have run := cleared.mod fun l => { l with
    devBad := k.needsDevice n, discards := 0, clearing := k.i2cCtl n, clearAt := 0,
    enPin := k.fn n == fnSDCI && (k.cfg n 0).bits 25 24 == 3 }
  have noCause := Hub.causeOf_none (by rw [run.dl]; exact channel) (by rw [run.bank3]; exact bank)
    ((run.part Lane.devBad).trans free)
  obtain ⟨L', -, run', up, flag⟩ := run.enterUp quiet alone noCan noDev uart fn (mem (by simp)) (mem (by simp)) (mem (by simp))
  rw [if_pos noCause]
  exact ⟨L', run', up, flag⟩

theorem Hub.needsDevice_congr {h k : Hub} {n : Fin 64} (fn : k.fn n = h.fn n) (cfg : k.cfg n 0 = h.cfg n 0) :
    k.needsDevice n = h.needsDevice n := by
  unfold Hub.needsDevice Hub.i2cCtl
  rw [fn, cfg]

/-- LNnn_CTL.EN set on an IDLE lane: it enters UP. -/
theorem Hub.laneEnable_up {h : Hub} {n : Fin 64} (own : h.pairOwned n = false) (off : h.bit (F.LN_CTL_EN n) = false)
    (idle : h.ln n = lnIDLE) (alone : h.fn n ≠ 2) (noCan : h.fn n ≠ 8) (free : h.needsDevice n = false)
    (channel : (h.dl[regionOf (clusterOf n)]).down = false) (bank : h.bank3.getLsbD (n / 8) = false)
    (noDev : (h.lane n).dev = []) (uart : h.fn n ≠ 1 ∨ (h.lane n).tx.q = []) (quiet : h.quietLane n = true) :
    ∃ L', LaneStep n [lrEN, lrCONFIG_ERR, lrSTATE, lrCAUSE, lrFlag lfUP] L' h (h.laneEnable n) ∧ (h.laneEnable n).ln n = lnUP ∧
      (h.laneEnable n).bit (laneFld n (lrFlag lfUP)) = true ∧ (h.laneEnable n).bit (F.LN_CTL_EN n) = true := by
  have on := ((LaneStep.start n [lrEN] h).mod fun l => { l with keep := false }).put (r := lrEN) (by simp) 1
  generalize gen : (h.modLane n fun l => { l with keep := false }).put (laneFld n lrEN) 1 = k at on
  have eq : h.laneEnable n = k.laneStart n := by
    unfold Hub.laneEnable
    dsimp only
    rw [own, if_neg (by decide), if_neg (c := (h.modLane n _).fn n = fnSPI ∧ _) (fun e => alone e.1), if_neg (by simpa using off), ← gen]
    rfl
  have state : k.ln n = lnIDLE := (on.ln (by decide)).trans idle
  have need : k.needsDevice n = false := (Hub.needsDevice_congr (on.fn (by decide)) (on.cfg 0 rfl (by decide))).trans free
  obtain ⟨L', run, up, flag⟩ := (LaneStep.start n [lrCONFIG_ERR, lrSTATE, lrCAUSE, lrFlag lfUP] k).laneStart state
    (by rw [on.fn (by decide)]; exact alone) (by rw [on.fn (by decide)]; exact noCan) need (by rw [on.dl]; exact channel)
    (by rw [on.bank3]; exact bank) (by rw [on.lane]; exact noDev) (by rw [on.fn (by decide), on.lane]; exact uart)
    (on.quiet.trans quiet) (by decide) (by simp)
  rw [eq]
  refine ⟨L', (on.mono (by simp)).trans (run.mono (by simp)), up, flag, ?_⟩
  rw [Hub.bit, show F.LN_CTL_EN n = laneFld n lrEN from rfl, run.fld lrEN (by decide), ← gen, Hub.fld_put_same]
  rfl

/-! ## Disabling (R45) -/

/-- The lane after its function has stopped for good. -/
def Lane.quitted (l : Lane) : Lane := { l.stopped with devBad := false, enPin := false, de := false }

/-- The function stops, and an SDCI port forgets its connection. -/
def Hub.quit (h : Hub) (n : Fin 64) : Hub :=
  let h := (h.fnStop n).modLane n fun l => { l with devBad := false, enPin := false, de := false }
  if h.fn n = fnSDCI then h.setCfg n 2 (h.cfg n 2 &&& 0xFFF8FFFF#32) else h

theorem LaneStep.quit {n : Fin 64} {l : List LaneReg} {L : Lane} {h k : Hub} (p : LaneStep n l L h k) (alone : h.fn n ≠ 5)
    (fn : LaneReg.off (0, 0, 4) l = true) (mem : lrCFG 2 ∈ l) :
    ∃ w, LaneStep n l { L.quitted with cfgW := w } h (k.quit n) := by
  have run := (p.fnStop alone fn).mod fun l => { l with devBad := false, enPin := false, de := false }
  unfold Hub.quit
  dsimp only
  split
  · exact ⟨_, run.setCfg mem _⟩
  · exact ⟨L.cfgW, run⟩

/-- A FIFO operation's step: the transmit FIFO flushed, its words counted. -/
def Hub.quitFlush (h : Hub) (n : Fin 64) : Hub := (h.flushWords n).modLane n fun l => { l with clearing := false }

theorem LaneStep.quitFlush {n : Fin 64} {l : List LaneReg} {L : Lane} {h k : Hub} (p : LaneStep n l L h k)
    (quiet : h.quietLane n = true) (mem : [lrFLUSH, lrFlag lfTX_LVL] ⊆ l) :
    LaneStep n l { L with tx := L.tx.flush, clearing := false } h (k.quitFlush n) :=
  (p.flushWords quiet (mem (by simp)) (extra := []) (by simpa using mem (by simp : lrFlag lfTX_LVL ∈ _))).modTo rfl

/-- The disabling of an UP lane, step by step. -/
theorem Hub.laneDisable_eq {h : Hub} {n : Fin 64} (on : h.bit (F.LN_CTL_EN n) = true) (up : h.ln n = lnUP) :
    h.laneDisable n = (((((((h.off (F.LN_CTL_EN n)).off (F.LN_STAT_CONFIG_ERR n)).quit n).lnTo n lnIDLE 1).quitFlush n).cutDevice
      n).canLaneDown n) := by
  have cleared := ((LaneStep.start n [lrEN, lrCONFIG_ERR] h).put (r := lrEN) (by simp) 0).put (r := lrCONFIG_ERR) (by simp) 0
  have state : ((h.off (F.LN_CTL_EN n)).off (F.LN_STAT_CONFIG_ERR n)).ln n = lnUP := (cleared.ln (by decide)).trans up
  have isUp : ((h.off (F.LN_CTL_EN n)).off (F.LN_STAT_CONFIG_ERR n)).up n = true := by
    rw [Hub.up, state]
    rfl
  unfold Hub.laneDisable
  dsimp only
  rw [on, if_neg (by decide), state, if_neg (by decide), isUp]
  exact if_pos rfl

/-- What the disabling of a quiet UP lane with no access queued leaves. -/
structure Disabled (n : Fin 64) (h h' : Hub) : Prop where
  state : h'.ln n = lnIDLE
  cse : h'.fld (F.LN_STAT_CAUSE n) = 1
  en : h'.bit (F.LN_CTL_EN n) = false
  tx : (h'.lane n).tx.q = []
  rx : (h'.lane n).rx = (h.lane n).rx
  drop : h'.fld (F.LN_DROP_FLUSH n) = min (h.fld (F.LN_DROP_FLUSH n) + (h.lane n).tx.q.length) 65535
  parts : h' = { h with fields := h'.fields, hw := h'.hw, lanes := h'.lanes, out := h'.out }

theorem Hub.laneDisable_spec {h : Hub} {n : Fin 64} (on : h.bit (F.LN_CTL_EN n) = true) (up : h.ln n = lnUP) (noCan : h.fn n ≠ 8)
    (noSsi : h.fn n ≠ 5) (alone : h.fn n ≠ 2) (idle : (h.lane n).dev = []) (unlocked : (h.brg.lock[n]).owner = none)
    (quiet : h.quietLane n = true) : Disabled n h (h.laneDisable n) := by
  rw [Hub.laneDisable_eq on up]
  have first := (LaneStep.start n [lrEN] h).put (r := lrEN) (by simp) 0
  have en : (h.off (F.LN_CTL_EN n)).fld (laneFld n lrEN) = 0 := Hub.fld_put_same _ _ _
  change LaneStep n _ _ h (h.off (F.LN_CTL_EN n)) at first
  generalize h.off (F.LN_CTL_EN n) = a at first en ⊢
  have fn₁ := first.fn (by decide)
  obtain ⟨w, second⟩ := ((LaneStep.start n [lrCONFIG_ERR, lrCFG 2] a).put (r := lrCONFIG_ERR) (by simp) 0).quit
    (by rw [fn₁]; exact noSsi) (by decide) (by simp)
  change LaneStep n _ _ a ((a.off (F.LN_STAT_CONFIG_ERR n)).quit n) at second
  generalize (a.off (F.LN_STAT_CONFIG_ERR n)).quit n = b at second ⊢
  have fn₂ := (second.fn (by decide)).trans fn₁
  have third := (LaneStep.start n [lrSTATE, lrCAUSE] b).lnTo (by rw [fn₂]; exact alone) (by decide) (by simp) (by simp) lnIDLE 1
  have state := b.lnTo_state n lnIDLE 1
  have cse := b.lnTo_cause n lnIDLE 1
  generalize b.lnTo n lnIDLE 1 = c at third state cse ⊢
  have quiet₃ := third.quiet.trans (second.quiet.trans (first.quiet.trans quiet))
  have fn₃ := (third.fn (by decide)).trans fn₂
  have fourth := (LaneStep.start n [lrFLUSH, lrFlag lfTX_LVL] c).quitFlush quiet₃ (by simp)
  have drop : (c.quitFlush n).fld (F.LN_DROP_FLUSH n) = _ := c.flushWords_drop n (extra := []) (by simp)
  generalize c.quitFlush n = d at fourth drop ⊢
  have fn₄ := (fourth.fn (by decide)).trans fn₃
  -- the lane, step by step
  rw [third.lane, second.lane, first.lane] at fourth
  rw [third.lane, second.lane, first.lane] at drop
  rw [Hub.cutDevice_idle (by rw [fourth.lane]; exact idle) (by rw [fourth.brg, third.brg, second.brg, first.brg]; exact unlocked),
    Hub.canLaneDown_idle (by rw [← fn₄] at noCan; exact noCan)]
  have last := (LaneStep.start n [] d).mod fun l => { l with dev := [], devRun := false }
  rw [fourth.lane] at last
  have all := (first.mono (l' := [lrEN, lrCONFIG_ERR, lrCFG 2, lrSTATE, lrCAUSE, lrFLUSH, lrFlag lfTX_LVL]) (by simp)).trans
    ((second.mono (by simp)).trans ((third.mono (by simp)).trans ((fourth.mono (by simp)).trans (last.mono (by simp)))))
  exact {
    state := (last.ln rfl).trans ((fourth.ln (by decide)).trans state)
    cse := (last.fld lrCAUSE rfl).trans ((fourth.fld lrCAUSE (by decide)).trans cse)
    en := by
      rw [Hub.bit, show F.LN_CTL_EN n = laneFld n lrEN from rfl, last.fld lrEN rfl, fourth.fld lrEN (by decide),
        third.fld lrEN (by decide), second.fld lrEN (by decide), en]
      rfl
    tx := by rw [all.lane]; rfl
    rx := by rw [all.lane]; rfl
    drop := by
      have before : c.fld (F.LN_DROP_FLUSH n) = h.fld (F.LN_DROP_FLUSH n) := (third.fld lrFLUSH (by decide)).trans
        ((second.fld lrFLUSH (by decide)).trans (first.fld lrFLUSH (by decide)))
      refine (last.fld lrFLUSH rfl).trans (drop.trans ?_)
      rw [before]
      rfl
    parts := all.parts }

/-! ## Flushing (Table 2.5) -/

theorem Hub.flushTx_spec {h : Hub} {n : Fin 64} (quiet : h.quietLane n = true) :
    ∃ o run tick, LaneStep n [lrFLUSH, lrFlag lfTX_LVL]
      { h.lane n with tx := (h.lane n).tx.flush, open_ := o, devRun := run, devTick := tick } h (h.flushTx n) ∧
      (h.flushTx n).fld (F.LN_DROP_FLUSH n) = min (h.fld (F.LN_DROP_FLUSH n) + (h.lane n).tx.q.length) 65535 := by
  have flush := (LaneStep.start n [lrFLUSH, lrFlag lfTX_LVL] h).flushWords quiet (by simp) (extra := []) (by simp)
  have drop := h.flushWords_drop n (extra := []) (by simp)
  have drop' {L : Lane} {k : Hub} (q : LaneStep n [] L (h.flushWords n) k) : k.fld (F.LN_DROP_FLUSH n) = _ := (q.fld lrFLUSH rfl).trans drop
  unfold Hub.flushTx
  dsimp only
  split
  · obtain ⟨run, tick, last⟩ := (LaneStep.start n [] (h.flushWords n)).streamEnd
    have lane := flush.lane
    rw [lane] at last
    exact ⟨false, run, tick, flush.trans (last.mono (by simp)), drop' last⟩
  · obtain ⟨run, tick, last⟩ := (LaneStep.start n [] (h.flushWords n)).devStart
    have lane := flush.lane
    rw [lane] at last
    exact ⟨_, run, tick, flush.trans (last.mono (by simp)), drop' last⟩

/-- Settles O6: a function's write and a refusal by the model's two rules for them, the rest as steps of the lane's frame. -/
theorem laneFunctionAndEnable : Obligations.LaneFunctionAndEnable := by
  unfold Obligations.LaneFunctionAndEnable
  refine ⟨fun a n v s admitted unlocked allowed change out _ => ?select, fun a n v s admitted unlocked bad change => ?refused,
    fun a n s admitted own off idle alone noCan free channel bank noDev uart quiet => ?enable,
    fun a n s admitted own on up noCan noSsi alone idle unlocked quiet => ?disable, fun a n s admitted => ?flushRx,
    fun a n s admitted quiet => ?flushTx⟩
  case select =>
    refine (runs_cmdWrite rfl admitted (Hub.funcWrite_allowed unlocked change allowed out)).mpr ?_
    have state := s.hub.funcPut_ln n v
    obtain ⟨st, cause, e⟩ : ∃ st cause, (if v.bits 3 0 = 15 then (s.hub.funcPut n v).lnTo n lnNONE 0
        else (s.hub.funcPut n v).lnTo n lnIDLE 1) = (s.hub.funcPut n v).lnTo n st cause := by
      split
      · exact ⟨_, _, rfl⟩
      · exact ⟨_, _, rfl⟩
    rw [e] at state ⊢
    obtain ⟨fn, sel, parts, regs⟩ := s.hub.funcPut_lnTo n v st cause
    exact ⟨fn, sel, state, parts, regs⟩
  case refused =>
    refine (runs_iff rfl).mpr ?_
    rw [Hub.cmdWrite_none admitted (Hub.funcWrite_refused unlocked change bad)]
    have kept (r : LaneReg) : (s.hub.refuse a (laneBase n) true).fld (laneFld n r) = s.hub.fld (laneFld n r) :=
      Hub.refuse_fld _ _ _ _ _ (laneFld_notErr n r) (lowFld_ne (by decide) n r).symm
    exact ⟨Hub.refuse_out _ _ _ _, kept lrFUNC, kept lrSTATE, Hub.refuse_parts _ _ _ _⟩
  case enable =>
    refine (runs_cmdDo rfl admitted).mpr ?_
    obtain ⟨L, run, up, flag, en⟩ := Hub.laneEnable_up own off idle alone noCan free channel bank noDev uart quiet
    exact ⟨up, en, flag, run.parts, run.regs⟩
  case disable =>
    refine (runs_cmdDo rfl admitted).mpr ?_
    rw [if_neg (by rw [own]; decide)]
    obtain ⟨state, cse, en, tx, rx, drop, parts⟩ := Hub.laneDisable_spec on up noCan noSsi alone idle unlocked quiet
    exact ⟨state, cse, en, tx, rx, drop, parts⟩
  case flushRx =>
    refine (runs_cmdDo rfl admitted).mpr ?_
    have run := (LaneStep.start n [] s.hub).mod fun l => { l with rx := l.rx.flush }
    exact ⟨run.part fun l => l.rx.q, run.part Lane.tx, rfl, run.others⟩
  case flushTx =>
    refine (runs_cmdDo rfl admitted).mpr ?_
    obtain ⟨o, r, t, run, drop⟩ := Hub.flushTx_spec quiet
    exact ⟨run.part fun l => l.tx.q, run.part Lane.rx, drop, run.parts, run.regs⟩

end Sys2Proof.Machine
end

section
/-! PROOFS. An UP lane meets a cause of its own (O11, O12). -/

namespace Sys2Proof.Machine

/-- A lane after it has left UP. -/
def Lane.Left (l l' : Lane) : Prop :=
  ∃ pin at_ tx, l' = { l.stopped with pin := pin, holdAt := at_, tx := tx, dev := [], devRun := false }

/-- The registers that a lane's way out of UP writes. -/
abbrev leftRegs : List LaneReg := [lrSTATE, lrCAUSE, lrFLUSH, lrFlag lfTX_LVL, lrFlag lfHOLD_DROP, lrFlag lfDOWN]

/-- Where an own cause takes a lane: to HOLD with a hold time, else to DOWN (R72). -/
def Hub.leftTo (h : Hub) (n : Fin 64) : Hub :=
  if h.bit (F.LN_HOLD_TIME n) then ((h.lnTo n lnHOLD 5).modLane n fun l => { l with holdAt := h.now }).laneFlags n [lfDOWN]
  else h.enterDown n 5 [lfDOWN]

section
variable {n : Fin 64} {h : Hub} (quiet : h.quietLane n = true) (alone : h.fn n ≠ 2)
include quiet alone

theorem Hub.enterDown_step : LaneStep n leftRegs { h.lane n with tx := (h.lane n).tx.flush } h (h.enterDown n 5 [lfDOWN]) ∧
    (h.enterDown n 5 [lfDOWN]).ln n = lnDOWN ∧ (h.enterDown n 5 [lfDOWN]).fld (F.LN_STAT_CAUSE n) = 5 := by
  have moved := (LaneStep.start n [lrSTATE, lrCAUSE] h).lnTo alone (by decide) (by simp) (by simp) lnDOWN 5
  have state := h.lnTo_state n lnDOWN 5
  have cse := h.lnTo_cause n lnDOWN 5
  unfold Hub.enterDown
  dsimp only
  generalize h.lnTo n lnDOWN 5 = k at moved state cse ⊢
  have run := (LaneStep.start n [lrFLUSH, lrFlag lfTX_LVL, lrFlag lfHOLD_DROP, lrFlag lfDOWN] k).flushWords
    (moved.quiet.trans quiet) (by simp) (extra := [lfDOWN] ++ if (h.lane n).tx.q.length = 0 then [] else [lfHOLD_DROP])
    (by split <;> simp)
  rw [moved.lane] at run
  exact ⟨(moved.mono (by simp)).trans (run.mono (by simp)), (run.ln (by decide)).trans state,
    (run.fld lrCAUSE (by decide)).trans cse⟩

theorem Hub.leftTo_step : ∃ at_ tx, LaneStep n leftRegs { h.lane n with holdAt := at_, tx := tx } h (h.leftTo n) ∧
    ((h.leftTo n).ln n = if h.bit (F.LN_HOLD_TIME n) then lnHOLD else lnDOWN) ∧ (h.leftTo n).fld (F.LN_STAT_CAUSE n) = 5 := by
  unfold Hub.leftTo
  by_cases holds : h.bit (F.LN_HOLD_TIME n) = true
  · simp only [if_pos holds]
    have moved := ((LaneStep.start n [lrSTATE, lrCAUSE] h).lnTo alone (by decide) (by simp) (by simp) lnHOLD 5).mod
      fun l => { l with holdAt := h.now }
    have state : ((h.lnTo n lnHOLD 5).modLane n fun l => { l with holdAt := h.now }).ln n = lnHOLD := h.lnTo_state n lnHOLD 5
    have cse : ((h.lnTo n lnHOLD 5).modLane n fun l => { l with holdAt := h.now }).fld (F.LN_STAT_CAUSE n) = 5 :=
      h.lnTo_cause n lnHOLD 5
    generalize (h.lnTo n lnHOLD 5).modLane n _ = k at moved state cse ⊢
    have run := (LaneStep.start n [lrFlag lfDOWN] k).flags (moved.quiet.trans quiet) [lfDOWN] (by simp)
    rw [moved.lane] at run
    exact ⟨h.now, (h.lane n).tx, (moved.mono (by simp)).trans (run.mono (by simp)), (run.ln (by decide)).trans state,
      (run.fld lrCAUSE (by decide)).trans cse⟩
  · simp only [if_neg holds]
    obtain ⟨run, state, cse⟩ := Hub.enterDown_step quiet alone
    exact ⟨(h.lane n).holdAt, _, run, state, cse⟩

/-- A quiet UP lane of another function than SPI, SSI and CAN, with no access queued. -/
theorem Hub.leaveUp_own (up : h.up n = true) (noSsi : h.fn n ≠ 5) (noCan : h.fn n ≠ 8) (idle : (h.lane n).dev = [])
    (unlocked : (h.brg.lock[n]).owner = none) : ∃ L, (h.lane n).Left L ∧ LaneStep n leftRegs L h (h.leaveUp n 5) ∧
      ((h.leaveUp n 5).ln n = if h.bit (F.LN_HOLD_TIME n) then lnHOLD else lnDOWN) ∧
      (h.leaveUp n 5).fld (F.LN_STAT_CAUSE n) = 5 := by
  obtain ⟨pin, grip⟩ := (LaneStep.start n [] h).grip alone rfl
  have stop := (grip.fnStop noSsi rfl).modTo (L' := { (h.lane n).stopped with pin := pin })
    (g := fun l => { l with cur := none }) rfl
  have eq : h.leaveUp n 5 = (((((h.grip n).fnStop n).modLane n fun l => { l with cur := none }).leftTo n).cutDevice
      n).canLaneDown n := by
    unfold Hub.leaveUp
    dsimp only
    rw [up, if_neg (by decide)]
    exact congrArg (fun g : Hub => (g.cutDevice n).canLaneDown n) (if_congr (by simp) rfl rfl)
  rw [eq]
  generalize ((h.grip n).fnStop n).modLane n _ = k at stop ⊢
  have fn := stop.fn rfl
  obtain ⟨at_, tx, left, state, cse⟩ := Hub.leftTo_step (stop.quiet.trans quiet) (by rw [fn]; exact alone)
  rw [stop.lane] at left
  have time : k.bit (F.LN_HOLD_TIME n) = h.bit (F.LN_HOLD_TIME n) := congrArg (· != 0) (stop.fld (0x28, 0, 16) rfl)
  rw [time] at state
  generalize k.leftTo n = m at left state cse ⊢
  rw [Hub.cutDevice_idle (by rw [left.lane]; exact idle) (by rw [left.brg, stop.brg]; exact unlocked),
    Hub.canLaneDown_idle (by rw [show Hub.fn (m.modLane n _) n = m.fn n from rfl, left.fn (by decide), fn]; exact noCan)]
  have last := (LaneStep.start n leftRegs m).mod fun l => { l with dev := [], devRun := false }
  rw [left.lane] at last
  exact ⟨_, ⟨pin, at_, tx, rfl⟩, (stop.mono (by simp)).trans (left.trans last), state, cse⟩

end

end Sys2Proof.Machine
end

section
/-! PROOFS. The I2C function of a lane: command words, time-outs, bus clears, alerts and target bytes (O11). -/

namespace Sys2Proof.Machine

/-! ## Role pins (R39) -/

/-- The mode of a pin. -/
abbrev lrMODE (p : Fin 3) : LaneReg := (0x40 + 4 * p.val, 0, 3)

theorem laneMode_eq (n : Fin 64) (p : Fin 3) : F.LN_PIN_MODE n p = laneFld n (lrMODE p) := by
  simp only [F.LN_PIN_MODE, laneFld, Nat.add_assoc]

namespace LaneStep

section
variable {n : Fin 64} {l : List LaneReg} {L : Lane} {h k : Hub} (p : LaneStep n l L h k)
include p

theorem taken (i : Fin 3) (off : (lrMODE i).off l = true) : k.taken n i = h.taken n i := by
  unfold Hub.taken
  rw [laneMode_eq, p.fld (lrMODE i) off]

/-- As `drawTx`, with the hub after the draw named. -/
theorem drawn (quiet : h.quietLane n = true) {w : FifoWord} {r : List FifoWord} (e : L.tx.q = w :: r) (good : w.good = true)
    (mem : lrFlag lfTX_LVL ∈ l) : ∃ m, k.drawTx n = (m, some w) ∧ LaneStep n l { L with tx := L.tx.popped r } h m :=
  have ⟨word, run⟩ := p.drawTx quiet e good mem
  ⟨_, Prod.ext rfl word, run⟩

/-- Bytes leave, where no other mode has taken the pins. -/
theorem devOut (pins : List (Fin 3)) (bs : List Byte) : LaneStep n l L h (k.devOut n pins bs) := by
  unfold Hub.devOut
  split
  · exact p
  · exact p.emit _

/-- A sequence of command words is cut where no access waits. -/
theorem i2cAbort (idle : L.dev = []) (bit : Nat) (stop : Bool) :
    LaneStep n l { L with discard := if stop then 0 else bit, open_ := false } h (k.i2cAbort n bit stop) := by
  have stopped : LaneStep n l L h
      (if ((k.lane n).open_ && bit != 9 && !k.taken n 0 && !k.taken n 1) = true then k.emit (.i2cStop n) else k) := by
    split
    · exact p.emit _
    · exact p
  unfold Hub.i2cAbort Hub.streamEnd
  dsimp only
  have cut := (stopped.mod fun l => { l with discard := if stop then 0 else bit }).mod fun l => { l with open_ := false }
  rw [Hub.devStart_idle (by rw [cut.lane]; exact idle)]
  exact cut

end

end LaneStep

/-- The flags of a quiet lane: registers, and an interrupt vector. -/
theorem Hub.laneFlags_parts {h : Hub} {n : Fin 64} (quiet : h.quietLane n = true) (fs : List Nat) :
    h.laneFlags n fs = { h with fields := (h.laneFlags n fs).fields, out := (h.laneFlags n fs).out } := by
  rcases Hub.laneFlags_quiet quiet fs with e | ⟨v, e⟩ <;> rw [e, Hub.flagsOn_parts]
  rfl

/-! ## Command words (Table 2.22) -/

theorem Hub.fn_of_i2cCtl {h : Hub} {n : Fin 64} (e : h.i2cCtl n = true) : h.fn n = 4 := by
  simp only [Hub.i2cCtl, Bool.and_eq_true, beq_iff_eq] at e
  exact e.1

/-- The receive word of a command: the acknowledge of a byte sent, or the byte read. -/
def i2cAnswer (bus : I2cBus) (read : Bool) : Nat := (if bus.nack && !read then 2 ^ 8 else 0) + (if read then bus.rd.toNat else 0)

section
variable {h k : Hub} {n : Fin 64} {w : FifoWord} {q : List FifoWord} (ctl : h.i2cCtl n = true) (up : h.up n = true)
include ctl up

/-- A good word without STOP on an undisturbed bus. -/
theorem Hub.i2cWord_good {bus : I2cBus} (drives : h.drives = true) (running : (h.lane n).devRun = false)
    (clearing : (h.lane n).clearing = false) (sda : h.taken n 1 = false) (keep : (h.lane n).discard = 0)
    (drawn : h.drawTx n = (k, some w)) (good : w.good = true) (noStop : w.w.getLsbD 9 = false) (kept : bus.arbLost = false) :
    h.i2cWord n bus = ((k.modLane n fun l => { l with open_ := l.open_ || w.w.getLsbD 8 }).devOut n [0, 1]
      [w.w.extractLsb' 0 8]).pushRx n [BitVec.ofNat 32 (i2cAnswer bus (w.w.getLsbD 10))]
        (if bus.nack && !w.w.getLsbD 10 then [lfPROTO] else []) := by
  have sensed : h.i2cSense n bus = bus := by
    unfold Hub.i2cSense
    rw [sda]
    rfl
  unfold Hub.i2cWord
  rw [ctl, up, drives, running, clearing, if_neg (by decide)]
  dsimp only
  rw [sensed, drawn]
  dsimp only
  rw [keep, good, noStop, kept]
  rfl

/-- A command that STRETCH ends. -/
theorem Hub.i2cStretch_word (limit : (h.cfg n 0).bits 15 8 ≠ 0) (scl : h.taken n 0 = false) (running : (h.lane n).devRun = false)
    (drawn : h.drawTx n = (k, some w)) :
    h.i2cStretch n = (k.pushRx n [1024] [lfPROTO]).i2cAbort n 10 (w.w.getLsbD 9) := by
  unfold Hub.i2cStretch
  rw [if_neg (by simp [Hub.fn_of_i2cCtl ctl, up, limit, scl, fnI2C]), if_pos ctl, running, if_neg (by decide), drawn]
  rfl

end

/-- One word pushed behind the older ones. -/
theorem Fifo.pushAll_one {f : Fifo} (room : f.q.length < 64) (w : W32) (good : Bool) (t : Nat) :
    (f.pushAll [w] good t).q = f.q ++ [{ w := w, good := good, time := t }] := Fifo.pushAll_q (ws := [w]) room good t

section
variable {h : Hub} {n : Fin 64} {w : FifoWord} {q : List FifoWord} (ctl : h.i2cCtl n = true) (up : h.up n = true)
    (running : (h.lane n).devRun = false) (held : (h.lane n).tx.q = w :: q) (good : w.good = true)
    (room : (h.lane n).rx.q.length < 64) (quiet : h.quietLane n = true)
include ctl up running held good room quiet

theorem Hub.i2cWord_step {bus : I2cBus} (drives : h.drives = true) (sda : h.taken n 1 = false)
    (clearing : (h.lane n).clearing = false) (keep : (h.lane n).discard = 0) (noStop : w.w.getLsbD 9 = false)
    (kept : bus.arbLost = false) : ∃ o, LaneStep n [lrFlag lfTX_LVL, lrFlag lfRX_LVL, lrFlag lfPROTO]
      { h.lane n with
        tx := (h.lane n).tx.popped q
        rx := (h.lane n).rx.pushAll [BitVec.ofNat 32 (i2cAnswer bus (w.w.getLsbD 10))] true h.now
        open_ := o } h (h.i2cWord n bus) := by
  obtain ⟨k, drawn, run⟩ := (LaneStep.start n [lrFlag lfTX_LVL, lrFlag lfRX_LVL, lrFlag lfPROTO] h).drawn quiet held good (by simp)
  rw [Hub.i2cWord_good ctl up drives running clearing sda keep drawn good noStop kept]
  have sent := (run.mod fun l => { l with open_ := l.open_ || w.w.getLsbD 8 }).devOut [0, 1] [w.w.extractLsb' 0 8]
  exact ⟨_, sent.pushRx quiet (ws := [_]) room (by split <;> simp) true⟩

theorem Hub.i2cStretch_step (limit : (h.cfg n 0).bits 15 8 ≠ 0) (scl : h.taken n 0 = false) (idle : (h.lane n).dev = []) :
    LaneStep n [lrFlag lfTX_LVL, lrFlag lfRX_LVL, lrFlag lfPROTO]
      { h.lane n with
        tx := (h.lane n).tx.popped q
        rx := (h.lane n).rx.pushAll [1024] true h.now
        discard := if w.w.getLsbD 9 then 0 else 10
        open_ := false } h (h.i2cStretch n) := by
  obtain ⟨k, drawn, run⟩ := (LaneStep.start n [lrFlag lfTX_LVL, lrFlag lfRX_LVL, lrFlag lfPROTO] h).drawn quiet held good (by simp)
  rw [Hub.i2cStretch_word ctl up limit scl running drawn]
  exact (run.pushRx quiet (ws := [1024]) room (extra := [lfPROTO]) (by simp) true).i2cAbort idle 10 _

end

/-! ## Bus clears (R65, R72) -/

/-- The lane as the end of a bus clear finds it. -/
def Hub.cleared (h : Hub) (n : Fin 64) (released : Bool) : Hub :=
  h.modLane n fun l => { l with clearing := false, devBad := !released, clearAt := h.now + us 100000 }

theorem LaneStep.cleared (n : Fin 64) (l : List LaneReg) (h : Hub) (released : Bool) : LaneStep n l
    { h.lane n with clearing := false, devBad := !released, clearAt := h.now + us 100000 } h (h.cleared n released) := by
  unfold Hub.cleared
  exact (LaneStep.start n l h).modTo rfl

section
variable {h : Hub} {n : Fin 64} (ctl : h.i2cCtl n = true) (en : h.bit (F.LN_CTL_EN n) = true)
include ctl en

/-- The end of a bus clear that runs. -/
theorem Hub.i2cClear_running (clearing : (h.lane n).clearing = true) {released : Bool}
    (held : released = true ∨ (h.taken n 0 && h.taken n 1) = false) :
    h.i2cClear n released =
      if released then (h.cleared n released).laneEval n else (h.cleared n released).leaveUp n 5 := by
  have free : (released || (h.taken n 0 && h.taken n 1)) = released := by
    rcases held with rfl | e
    · rfl
    · rw [e, Bool.or_false]
  unfold Hub.i2cClear
  rw [ctl, en, clearing, if_neg (by decide), free]
  rfl

/-- A clear that released the bus brings a lane with no other cause to UP. -/
theorem Hub.i2cClear_released (clearing : (h.lane n).clearing = true) (down : h.ln n = lnDOWN)
    (channel : (h.dl[regionOf (clusterOf n)]).down = false) (bank : h.bank3.getLsbD (n / 8) = false)
    (fresh : h.fld (F.LN_HOLD_MAXRES n) = 0) (idle : (h.lane n).dev = []) (quiet : h.quietLane n = true) :
    ∃ L l, L.clearing = false ∧ L.devBad = false ∧ LaneStep n l L h (h.i2cClear n true) ∧ (h.i2cClear n true).ln n = lnUP := by
  have fn := Hub.fn_of_i2cCtl ctl
  have cleared := LaneStep.cleared n [lrSTATE, lrCAUSE, lrFlag lfUP] h true
  obtain ⟨L, ⟨on, halt, start, per, duty, rfl⟩, run, up⟩ := cleared.laneEval channel bank rfl fresh (.inr down) quiet
    (by rw [fn]; decide) (by rw [fn]; decide) idle (.inl (by rw [fn]; decide)) (by decide) (by simp)
  rw [Hub.i2cClear_running ctl en clearing (.inl rfl), if_pos rfl]
  exact ⟨_, _, rfl, rfl, run, up⟩

/-- A clear that failed takes an UP lane out of UP. -/
theorem Hub.i2cClear_failed (clearing : (h.lane n).clearing = true) (up : h.up n = true)
    (held : (h.taken n 0 && h.taken n 1) = false) (idle : (h.lane n).dev = []) (unlocked : (h.brg.lock[n]).owner = none)
    (quiet : h.quietLane n = true) :
    ∃ L l, (L.devBad = true ∧ L.clearing = false ∧ L.clearAt = h.now + us 100000) ∧ LaneStep n l L h (h.i2cClear n false) ∧
      ((h.i2cClear n false).ln n = if h.bit (F.LN_HOLD_TIME n) then lnHOLD else lnDOWN) ∧
      (h.i2cClear n false).fld (F.LN_STAT_CAUSE n) = 5 := by
  have fn := Hub.fn_of_i2cCtl ctl
  have failed := LaneStep.cleared n leftRegs h false
  rw [Hub.i2cClear_running ctl en clearing (.inr held), if_neg (by decide)]
  have lane := failed.lane
  have same (f : Fld) : (h.cleared n false).fld f = h.fld f := rfl
  generalize h.cleared n false = k at failed lane same ⊢
  have fn' : k.fn n = 4 := (same _).trans fn
  obtain ⟨L, ⟨pin, at_, tx, rfl⟩, run, state, cse⟩ := Hub.leaveUp_own (failed.quiet.trans quiet) (by rw [fn']; decide)
    (by rw [Hub.up, Hub.ln, same]; exact up) (by rw [fn']; decide) (by rw [fn']; decide) (by rw [lane]; exact idle)
    (by rw [failed.brg]; exact unlocked)
  rw [lane] at run
  rw [Hub.bit, same] at state
  exact ⟨_, _, ⟨rfl, rfl, rfl⟩, failed.trans run, state, cse⟩

/-- A bus clear starts. -/
theorem Hub.i2cStuck_starts (drives : h.drives = true) (still : (h.lane n).clearing = false)
    (held : (h.taken n 0 && h.taken n 1) = false) (rested : (h.lane n).devBad = true → (h.lane n).clearAt ≤ h.now) :
    h.i2cStuck n = (h.modLane n fun l => { l with clearing := true }).emit (.busClear n) := by
  have late : ((h.lane n).devBad && decide (h.now < (h.lane n).clearAt)) = false := by
    by_cases bad : (h.lane n).devBad = true
    · simpa [bad] using rested bad
    · simp [bad]
  unfold Hub.i2cStuck
  dsimp only
  rw [ctl, en, drives, still, held, late, if_neg (by decide)]

end

/-- Settles O11: each clause by the rule of its command, as a step of the lane's frame. -/
theorem i2cWords : Obligations.I2cWords := by
  unfold Obligations.I2cWords
  refine ⟨fun n bus w q s ctl up drives _ sda clearing running keep held good noStop kept room quiet => ?word,
    fun n w q s ctl up scl limit running held good idle room quiet => ?stretch,
    fun n s ctl en clearing down channel bank _ _ fresh idle quiet => ?released,
    fun n s ctl up clearing held en idle unlocked quiet => ?failed, fun n r s still => ?noClear,
    fun n s ctl en drives still held rested => ?stuck, fun n s i2c up free quiet => ?alert,
    fun n b first stop s i2c target up scl sda room => ?byte⟩
  case word =>
    refine (runs_iff rfl).mpr ?_
    obtain ⟨o, run⟩ := Hub.i2cWord_step ctl up running held good room quiet drives sda clearing keep noStop kept
    exact ⟨run.part fun l => l.tx.q, (run.part fun l => l.rx.q).trans (Fifo.pushAll_one room _ _ _), run.parts, run.others⟩
  case stretch =>
    refine (runs_iff rfl).mpr ?_
    have run := Hub.i2cStretch_step ctl up running held good room quiet limit scl idle
    exact ⟨run.part fun l => l.tx.q, (run.part fun l => l.rx.q).trans (Fifo.pushAll_one room _ _ _),
      run.part Lane.discard, run.parts, run.others⟩
  case released =>
    refine (runs_iff rfl).mpr ?_
    obtain ⟨L, l, stops, good, run, up⟩ := Hub.i2cClear_released ctl en clearing down channel bank fresh idle quiet
    exact ⟨up, (run.part Lane.clearing).trans stops, (run.part Lane.devBad).trans good, run.parts, run.others⟩
  case failed =>
    refine (runs_iff rfl).mpr ?_
    obtain ⟨L, l, ⟨bad, stops, again⟩, run, state, cse⟩ := Hub.i2cClear_failed ctl en clearing up held idle unlocked quiet
    exact ⟨state, cse, (run.part Lane.devBad).trans bad, (run.part Lane.clearing).trans stops,
      (run.part Lane.clearAt).trans again, run.parts, run.others⟩
  case noClear =>
    refine (runs_iff rfl).mpr (if_pos ?_)
    simp [still]
  case stuck =>
    refine (runs_iff rfl).mpr ?_
    have run := (LaneStep.start n [] s.hub).mod fun l => { l with clearing := true }
    rw [Hub.i2cStuck_starts ctl en drives still held rested]
    exact ⟨run.part Lane.clearing, rfl, rfl, run.others⟩
  case alert =>
    refine (runs_iff rfl).mpr ?_
    have run := (LaneStep.start n [lrFlag lfALERT] s.hub).flags quiet [lfALERT] (by simp)
    rw [if_pos ⟨i2c, up, by rw [free]; rfl⟩]
    exact ⟨s.hub.laneFlags_bit n (i := lfALERT) (by simp), by rw [Hub.laneFlags_parts quiet], run.regs⟩
  case byte =>
    refine (runs_iff rfl).mpr ?_
    have pushed : s.hub.i2cTarget n (.write b first stop) =
        s.hub.pushRx n [BitVec.ofNat 32 (b2n stop * 2 ^ 9 + b2n first * 2 ^ 8 + b.toNat)] :=
      if_neg (by simp [i2c, target, up, scl, sda, fnI2C])
    rw [pushed, Hub.lane, Hub.pushRx_lanes (ws := [_]) room]
    refine ⟨?_, fun m hm => Vector.getElem_set_ne n.isLt m.isLt fun e => hm (Fin.ext e.symm)⟩
    rw [Fin.getElem_fin, Vector.getElem_set_self]
    exact Fifo.pushAll_one room _ _ _

end Sys2Proof.Machine
end

section
/-! PROOFS. Samples of an SSI lane, the life of an SDCI port, and quadrature counting (O12). -/

namespace Sys2Proof.Machine

/-! ## SSI (R66) -/

section
variable {h : Hub} {n : Fin 64}

/-- A trigger of a lane that is free starts a sample. -/
theorem Hub.ssiTrig_starts (ssi : h.fn n = 5) (drives : h.drives = true) (en : h.bit (F.LN_CTL_EN n) = true) (up : h.up n = true)
    (free : (h.lane n).sample = none) (rested : (h.lane n).mono ≤ h.now) (soft : Bool) :
    h.ssiTrig n soft = (if soft then h.setCfg n 2 (h.cfg n 2 ||| 1#32) else h).modLane n fun l =>
      { l with sample := some (BitVec.ofNat 32 (h.ctrOf n)) } := by
  unfold Hub.ssiTrig
  dsimp only
  rw [if_neg (by simp [ssi, drives, en, up, fnSSI]), if_neg (by simpa [free] using rested)]
  cases soft <;> rfl

/-- The lane as the end of a sample finds it. -/
def Hub.ssiEnded (h : Hub) (n : Fin 64) : Hub :=
  (h.setCfg n 2 (h.cfg n 2 &&& ~~~ 1#32)).modLane n fun l =>
    { l with sample := none, mono := (h.setCfg n 2 (h.cfg n 2 &&& ~~~ 1#32)).now + us (max 10 ((h.cfg n 1).bits 27 20)) }

theorem LaneStep.ssiEnded (h : Hub) (n : Fin 64) (l : List LaneReg) (mem : lrCFG 2 ∈ l) : ∃ w m, LaneStep n l
    { h.lane n with cfgW := w, sample := none, mono := m } h (h.ssiEnded n) := by
  unfold Hub.ssiEnded
  exact ⟨_, _, ((LaneStep.start n l h).setCfg mem _).modTo rfl⟩

theorem Hub.cfg_modLane (h : Hub) (n : Fin 64) (i : Nat) {g : Lane → Lane} (e : (g (h.lane n)).cfgW = (h.lane n).cfgW) :
    (h.modLane n g).cfg n i = h.cfg n i := Hub.cfg_congr rfl rfl (by rw [Hub.lane_modLane, e])

theorem Hub.ssiEnded_cfg : (h.ssiEnded n).cfg n 0 = h.cfg n 0 :=
  (Hub.cfg_modLane _ n 0 rfl).trans (h.cfg_setCfg_ne n (by decide) _)

/-- DATA was not high: the sample is discarded, and the eighth in succession is cause 5. -/
def Hub.ssiLow (h : Hub) (n : Fin 64) : Hub :=
  let h := (h.modLane n fun l => { l with discards := l.discards + 1 }).laneFlags n [lfPROTO]
  if 8 ≤ (h.lane n).discards then (h.modLane n fun l => { l with devBad := true }).leaveUp n 5 else h

/-- The value of a sample. -/
def Hub.ssiValue (h : Hub) (n : Fin 64) (raw : W32) : W32 :=
  let bits := max 7 ((h.cfg n 0).bits 20 16) + 1
  let v := raw.toNat % 2 ^ bits
  BitVec.ofNat 32 (if (h.cfg n 0).getLsbD 21 then grayToBin v bits else v)

/-- The sample is taken. -/
def Hub.ssiHigh (h : Hub) (n : Fin 64) (v stamp : W32) (good : Bool) : Hub :=
  (((h.modLane n fun l => { l with discards := 0, devBad := false, lastPair := some (v, stamp) }).laneEval n).pushRx n [v, stamp]
    [] good).pimInput n (leBytes v) good

/-- The end of a sample of a lane whose DATA pin is its own. -/
theorem Hub.ssiDone_eq {stamp raw : W32} (sampled : (h.lane n).sample = some stamp) (wired : h.taken n 1 = false)
    (high good : Bool) : h.ssiDone n raw high good =
      if !high then (h.ssiEnded n).ssiLow n else (h.ssiEnded n).ssiHigh n ((h.ssiEnded n).ssiValue n raw) stamp good := by
  unfold Hub.ssiDone
  rw [sampled]
  dsimp only
  rw [wired, Bool.or_false]
  rfl

/-- Of the discards in succession the first seven take the lane nowhere. -/
theorem LaneStep.ssiLow {l : List LaneReg} {L : Lane} {k : Hub} (p : LaneStep n l L h k) (few : L.discards < 7)
    (quiet : h.quietLane n = true) (mem : lrFlag lfPROTO ∈ l) :
    LaneStep n l { L with discards := L.discards + 1 } h (k.ssiLow n) ∧ (k.ssiLow n).bit (laneFld n (lrFlag lfPROTO)) = true := by
  have run := (p.mod fun l => { l with discards := l.discards + 1 }).flags quiet [lfPROTO] (by simpa using mem)
  have set := (k.modLane n fun l => { l with discards := l.discards + 1 }).laneFlags_bit n (fs := [lfPROTO]) (i := lfPROTO) (by simp)
  unfold Hub.ssiLow
  dsimp only
  rw [if_neg (by rw [run.lane]; dsimp only; omega)]
  exact ⟨run, set⟩

/-- A sample of an UP lane is pushed with its stamp. -/
theorem LaneStep.ssiHigh {l : List LaneReg} {L : Lane} {k : Hub} (p : LaneStep n l L h k) (up : k.up n = true)
    (room : L.rx.q.length ≤ 62) (quiet : h.quietLane n = true) (mem : lrFlag lfRX_LVL ∈ l) (v stamp : W32) (good : Bool) :
    LaneStep n l { L with
      discards := 0
      devBad := false
      lastPair := some (v, stamp)
      rx := L.rx.pushAll [v, stamp] good h.now } h (k.ssiHigh n v stamp good) := by
  have kept := p.mod fun l => { l with discards := 0, devBad := false, lastPair := some (v, stamp) }
  have state : (k.modLane n fun l => { l with discards := 0, devBad := false, lastPair := some (v, stamp) }).ln n = lnUP :=
    beq_iff_eq.mp up
  have pushed := kept.pushRx quiet (ws := [v, stamp]) (by simpa using room) (extra := []) (by simpa using mem) good
  unfold Hub.ssiHigh
  rw [Hub.laneEval_other (by rw [state]; decide), Hub.pimInput_quiet (pushed.quiet.trans quiet)]
  exact pushed

end

/-! ## SDCI (R67) -/

theorem Hub.sdci_iff (h : Hub) (n : Fin 64) : h.sdci n = true ↔
    h.fn n = 6 ∧ h.drives = true ∧ h.bit (F.LN_CTL_EN n) = true ∧ (h.cfg n 0).bits 25 24 = 3 := by
  simp [Hub.sdci, fnSDCI, and_assoc]

/-- The rate that a connection shows in CFG2. -/
theorem connectedRate (x : W32) (com : BitVec 2) :
    ((x &&& 0xFFF8FFFF#32) ||| BitVec.ofNat 32 (2 ^ 18 + com.toNat * 2 ^ 16)).bits 18 16 = 4 + com.toNat := by
  have small := com.isLt
  have rate : (2 ^ 18 + com.toNat * 2 ^ 16) % 2 ^ 32 / 2 ^ 16 % 2 ^ 3 = 4 + com.toNat := by omega
  simp only [W32.bits, BitVec.toNat_or, BitVec.toNat_and, BitVec.toNat_ofNat, Nat.shiftRight_or_distrib,
    Nat.shiftRight_and_distrib, Nat.or_mod_two_pow, Nat.and_mod_two_pow]
  rw [show ((2 ^ 18 + com.toNat * 2 ^ 16) % 2 ^ 32) >>> 16 % 2 ^ (18 + 1 - 16) = 4 + com.toNat from
    (congrArg (· % 2 ^ 3) (Nat.shiftRight_eq_div_pow _ 16)).trans rate]
  simp

/-- A connection clears cause 5 and, with no other cause standing, brings the port UP. -/
theorem Hub.sdciConnect_up {h : Hub} {n : Fin 64} (fn : h.fn n = 6) (down : h.ln n = lnDOWN)
    (channel : (h.dl[regionOf (clusterOf n)]).down = false) (bank : h.bank3.getLsbD (n / 8) = false)
    (fresh : h.fld (F.LN_HOLD_MAXRES n) = 0) (idle : (h.lane n).dev = []) (quiet : h.quietLane n = true) (v : W32) :
    ∃ L l, L.devBad = false ∧ LaneStep n l L h (((h.setCfg n 2 v).modLane n fun l => { l with devBad := false }).laneEval n) ∧
      (((h.setCfg n 2 v).modLane n fun l => { l with devBad := false }).laneEval n).ln n = lnUP ∧
      (((h.setCfg n 2 v).modLane n fun l => { l with devBad := false }).laneEval n).cfg n 2 = v := by
  have first := ((LaneStep.start n [lrCFG 2] h).setCfg (i := 2) (by simp) v).mod fun l => { l with devBad := false }
  have word : ((h.setCfg n 2 v).modLane n fun l => { l with devBad := false }).cfg n 2 = v :=
    (Hub.cfg_modLane _ n 2 rfl).trans (h.cfg_setCfg_same n (by decide) v)
  have state : ((h.setCfg n 2 v).modLane n fun l => { l with devBad := false }).ln n = lnDOWN :=
    (first.ln (by decide)).trans down
  generalize (h.setCfg n 2 v).modLane n _ = k at first word state ⊢
  have fn' : k.fn n = 6 := (first.fn (by decide)).trans fn
  obtain ⟨L, ⟨on, halt, start, per, duty, rfl⟩, run, up⟩ := (LaneStep.start n [lrSTATE, lrCAUSE, lrFlag lfUP] k).laneEval
    (by rw [first.dl]; exact channel) (by rw [first.bank3]; exact bank) (by rw [first.lane])
    ((first.fld (0x28, 16, 16) (by decide)).trans fresh) (.inr state) (first.quiet.trans quiet) (by rw [fn']; decide)
    (by rw [fn']; decide) (by rw [first.lane]; exact idle) (.inl (by rw [fn']; decide)) (by decide) (by simp)
  have kept := run.cfg 2 rfl (by decide)
  rw [first.lane] at run
  exact ⟨_, [lrCFG 2, lrSTATE, lrCAUSE, lrFlag lfUP], rfl, (first.mono (by simp)).trans (run.mono (by simp)), up, kept.trans word⟩

/-- A lost device takes an UP port out of UP. -/
theorem Hub.sdciLost_left {h : Hub} {n : Fin 64} (fn : h.fn n = 6) (up : h.up n = true) (idle : (h.lane n).dev = [])
    (unlocked : (h.brg.lock[n]).owner = none) (quiet : h.quietLane n = true) (v : W32) : ∃ L l, L.devBad = true ∧
      LaneStep n l L h (((h.setCfg n 2 v).modLane n fun l => { l with devBad := true }).leaveUp n 5) ∧
      ((((h.setCfg n 2 v).modLane n fun l => { l with devBad := true }).leaveUp n 5).ln n =
        if h.bit (F.LN_HOLD_TIME n) then lnHOLD else lnDOWN) ∧
      (((h.setCfg n 2 v).modLane n fun l => { l with devBad := true }).leaveUp n 5).fld (F.LN_STAT_CAUSE n) = 5 := by
  have lost := ((LaneStep.start n [lrCFG 2] h).setCfg (i := 2) (by simp) v).mod fun l => { l with devBad := true }
  generalize (h.setCfg n 2 v).modLane n _ = k at lost ⊢
  have fn' : k.fn n = 6 := (lost.fn (by decide)).trans fn
  have time : k.bit (F.LN_HOLD_TIME n) = h.bit (F.LN_HOLD_TIME n) := congrArg (· != 0) (lost.fld (0x28, 0, 16) (by decide))
  obtain ⟨L, ⟨pin, at_, tx, rfl⟩, run, state, cse⟩ := Hub.leaveUp_own (lost.quiet.trans quiet) (by rw [fn']; decide)
    (by rw [Hub.up, lost.ln (by decide)]; exact up) (by rw [fn']; decide) (by rw [fn']; decide)
    (by rw [lost.lane]; exact idle) (by rw [lost.brg]; exact unlocked)
  rw [lost.lane] at run
  rw [time] at state
  exact ⟨_, lrCFG 2 :: leftRegs, rfl, (lost.mono (by simp)).trans (run.mono (by simp)), state, cse⟩

/-- The output of the next cycle. -/
def Hub.pdStaged (h : Hub) (n : Fin 64) : List Byte :=
  ((h.lane n).pdNext ++ List.replicate (min 32 ((h.cfg n 0).bits 21 16)) 0).take (min 32 ((h.cfg n 0).bits 21 16))

theorem Hub.pdStaged_length (h : Hub) (n : Fin 64) : (h.pdStaged n).length = min 32 ((h.cfg n 0).bits 21 16) := by
  simp [Hub.pdStaged]

/-- The output leaves. -/
def Hub.pdSend (h : Hub) (n : Fin 64) (o : List Byte) : Hub := (h.modLane n fun l => { l with pdOut := o }).emit (.device n o)

/-- An M-sequence of an UP port whose input has the configured length. -/
theorem Hub.mSequence_eq {h : Hub} {n : Fin 64} {pdi : List Byte} (port : h.sdci n = true) (up : h.up n = true)
    (txd : h.taken n 0 = false) (rxd : h.taken n 1 = false) (quiet : h.quietLane n = true)
    (length : (h.cfg n 0).bits 13 8 = pdi.length) (small : pdi.length ≤ 32) (good : Bool) :
    h.mSequence n pdi good = (h.pdSend n (h.pdStaged n)).modLane n fun l => { l with pdIn := pdi } := by
  have whole : (pdi ++ List.replicate (min 32 pdi.length) 0).take (min 32 pdi.length) = pdi := by
    rw [Nat.min_eq_right small, List.take_left']
    rfl
  have sent : (h.modLane n fun l => { l with pdOut := h.pdStaged n }).devOut n [0] (h.pdStaged n) = h.pdSend n (h.pdStaged n) :=
    Hub.devOut_free (fun p hp => by rw [List.mem_singleton.mp hp]; exact txd) _
  have taken : (h.pdSend n (h.pdStaged n)).taken n 1 = false := rxd
  have ready : ((h.pdSend n (h.pdStaged n)).modLane n fun l => { l with pdIn := pdi }).quietLane n = true := quiet
  unfold Hub.mSequence
  rw [port, up, if_neg (by decide)]
  dsimp only
  rw [length, whole]
  simp only [← Hub.pdStaged.eq_1]
  rw [sent, taken, if_neg (by decide), Hub.pimInput_quiet ready]

/-! ## Quadrature (R68) -/

theorem LaneStep.pimInput {n : Fin 64} {l : List LaneReg} {L : Lane} {h k : Hub} (p : LaneStep n l L h k)
    (quiet : h.quietLane n = true) (bs : List Byte) (good : Bool) : LaneStep n l L h (k.pimInput n bs good) := by
  rw [Hub.pimInput_quiet (p.quiet.trans quiet)]
  exact p

/-- A count goes to the image, or is due there; a quiet lane has none. -/
theorem LaneStep.quadPim {n : Fin 64} {l : List LaneReg} {L : Lane} {h k : Hub} (p : LaneStep n l L h k)
    (quiet : h.quietLane n = true) : ∃ last due, LaneStep n l { L with pimLast := last, pimDue := due } h (k.quadPim n) := by
  unfold Hub.quadPim
  dsimp only
  split
  · exact ⟨_, _, p.modTo rfl⟩
  · refine ⟨some k.now, false, LaneStep.pimInput ?_ quiet _ _⟩
    exact p.modTo rfl

section
variable {h : Hub} {n : Fin 64} (quad : h.fn n = 7) (quiet : h.quietLane n = true)
include quad

/-- A transition of A alone, with no preset in the same tick. -/
theorem Hub.quadCount_eq {qa : Bool} (up : h.up n = true) (pinA : h.taken n 0 = false) (pinB : h.taken n 1 = false)
    (change : (h.lane n).qa ≠ qa) (unset : (h.lane n).preset ≠ some h.now) {d : Int}
    (step : quadStep ((h.cfg n 0).bits 1 0) ((h.cfg n 0).getLsbD 14) (h.lane n).qa (h.lane n).qb qa (h.lane n).qb = d) :
    h.quadCount n qa (h.lane n).qb = if d = 0 then h.modLane n (fun l => { l with qa := qa, qb := (h.lane n).qb })
      else ((h.modLane n fun l => { l with qa := qa, qb := (h.lane n).qb }).setCfg n 1 (h.cfg n 1 + BitVec.ofInt 32 d)).quadPim n := by
  have cfg (i : Nat) : (h.modLane n fun l => { l with qa := qa, qb := (h.lane n).qb }).cfg n i = h.cfg n i := h.cfg_modLane n i rfl
  unfold Hub.quadCount
  rw [pinA, pinB]
  dsimp only
  simp only [Bool.false_eq_true, if_false, quad, up, fnQUAD]
  simp only [cfg, step, bne_self_eq_false, Bool.and_false, Bool.false_eq_true, if_false]
  rw [if_neg (by decide), if_neg (by decide), if_neg (by simpa using change)]
  exact if_congr (or_iff_left unset) rfl rfl

include quiet

/-- The count has moved by the step of the transition. -/
theorem Hub.quadCount_step {qa : Bool} (up : h.up n = true) (pinA : h.taken n 0 = false) (pinB : h.taken n 1 = false)
    (change : (h.lane n).qa ≠ qa) (unset : (h.lane n).preset ≠ some h.now) : ∃ L,
      LaneStep n [lrCFG 1] L h (h.quadCount n qa (h.lane n).qb) ∧ (L.qa = qa ∧ L.qb = (h.lane n).qb) ∧
        (h.quadCount n qa (h.lane n).qb).cfg n 1 = h.cfg n 1 + BitVec.ofInt 32
          (quadStep ((h.cfg n 0).bits 1 0) ((h.cfg n 0).getLsbD 14) (h.lane n).qa (h.lane n).qb qa (h.lane n).qb) := by
  rw [Hub.quadCount_eq quad up pinA pinB change unset rfl]
  have moved := (LaneStep.start n [lrCFG 1] h).mod fun l => { l with qa := qa, qb := (h.lane n).qb }
  generalize quadStep _ _ _ _ _ _ = d
  by_cases none : d = 0
  · rw [if_pos none]
    refine ⟨_, moved, ⟨rfl, rfl⟩, ?_⟩
    rw [h.cfg_modLane n 1 rfl, none]
    simp
  · rw [if_neg none]
    have counted := moved.setCfg (i := 1) (by simp) (h.cfg n 1 + BitVec.ofInt 32 d)
    have word := ((h.modLane n fun l => { l with qa := qa, qb := (h.lane n).qb })).cfg_setCfg_same n (i := 1) (by decide)
      (h.cfg n 1 + BitVec.ofInt 32 d)
    generalize ((h.modLane n fun l => { l with qa := qa, qb := (h.lane n).qb })).setCfg n 1 _ = k at counted word ⊢
    obtain ⟨last, due, run⟩ := counted.quadPim quiet
    obtain ⟨_, _, own⟩ := (LaneStep.start n [] k).quadPim (counted.quiet.trans quiet)
    exact ⟨_, run, ⟨rfl, rfl⟩, (own.cfg 1 rfl rfl).trans word⟩

/-- A write of COUNT takes effect and is remembered for the tick. -/
theorem Hub.quadPreset_step (v : W32) : ∃ L, LaneStep n [lrCFG 1] L h (h.quadPreset n v) ∧ L.preset = some h.now ∧
    (h.quadPreset n v).cfg n 1 = v := by
  have written := (LaneStep.start n [lrCFG 1] h).setCfg (i := 1) (by simp) v
  have word := h.cfg_setCfg_same n (i := 1) (by decide) v
  unfold Hub.quadPreset
  dsimp only
  generalize h.setCfg n 1 v = k at written word ⊢
  rw [if_pos (show k.fn n = fnQUAD from (written.fn (by decide)).trans quad), written.now]
  have set := written.mod fun l => { l with preset := some h.now }
  have word' : (k.modLane n fun l => { l with preset := some h.now }).cfg n 1 = v := (k.cfg_modLane n 1 rfl).trans word
  generalize k.modLane n _ = m at set word' ⊢
  obtain ⟨last, due, run⟩ := set.quadPim quiet
  obtain ⟨_, _, own⟩ := (LaneStep.start n [] m).quadPim (set.quiet.trans quiet)
  exact ⟨_, run, rfl, (own.cfg 1 rfl rfl).trans word'⟩

end

/-- A Z edge in ZMODE 1. -/
theorem Hub.quadZ_latch {h : Hub} {n : Fin 64} (quad : h.fn n = 7) (up : h.up n = true) (pinZ : h.taken n 2 = false)
    (mode : (h.cfg n 0).bits 13 12 = 1) :
    h.quadZ n = (h.setCfg n 2 (h.cfg n 1)).setCfg n 3 (BitVec.ofNat 32 (h.ctrOf n)) := by
  unfold Hub.quadZ
  dsimp only
  rw [if_neg (by simp [quad, up, pinZ, fnQUAD]), mode]
  rfl

/-- A step that writes configuration words of a lane. -/
theorem LaneStep.cfgRegs {n : Fin 64} {is : List Nat} {L : Lane} {h k : Hub} (p : LaneStep n (is.map lrCFG) L h k) :
    SameRegs h k (is.map (F.LN_CFG n)) := by
  have regs := p.regs
  rw [List.map_map] at regs
  convert regs using 2
  exact funext fun i => laneCfg_eq n i

/-- Settles O12: samples, ports and counts as steps of the lane's frame. -/
theorem ssiSdciQuadEvents : Obligations.SsiSdciQuadEvents := by
  unfold Obligations.SsiSdciQuadEvents
  refine ⟨fun n s ssi drives en up free rested trig => ?period, fun n s ssi drives en up free rested trig => ?cycle,
    fun a n s admitted ssi drives en up free rested => ?software,
    fun n raw good stamp s sampled up wired binary room quiet => ?high,
    fun n raw good stamp s sampled few wired quiet => ?low, fun n s port txd lost => ?wakeup,
    fun n com s port rxd en lost set rate down channel bank _ _ fresh idle quiet => ?connect,
    fun n s port good up idle unlocked quiet => ?lost, fun n code s port up rxd room => ?event,
    fun n pdi good s port up txd rxd quiet length small => ?mSequence,
    fun n qa qb s quad up quiet pinA pinB _ change same unset => ?count,
    fun n s quad up quiet _ _ pinZ mode => ?zEdge, fun a n v s admitted quad quiet => ?preset⟩
  case period =>
    refine (runs_iff rfl).mpr ?_
    have run := (LaneStep.start n [] s.hub).mod fun l => { l with sample := some (BitVec.ofNat 32 (s.hub.ctrOf n)) }
    dsimp only
    rw [if_pos trig, Hub.ssiTrig_starts ssi drives en up free rested, if_neg (by decide)]
    exact ⟨run.part Lane.sample, rfl, run.others⟩
  case cycle =>
    refine (runs_iff rfl).mpr ?_
    have run := (LaneStep.start n [] s.hub).mod fun l => { l with sample := some (BitVec.ofNat 32 (s.hub.ctrOf n)) }
    dsimp only
    rw [if_pos trig, Hub.ssiTrig_starts ssi drives en up free rested, if_neg (by decide)]
    exact ⟨run.part Lane.sample, rfl, run.others⟩
  case software =>
    refine (runs_cmdDo rfl admitted).mpr ?_
    have run := ((LaneStep.start n [lrCFG 2] s.hub).setCfg (i := 2) (by simp) (s.hub.cfg n 2 ||| 1#32)).mod fun l =>
      { l with sample := some (BitVec.ofNat 32 (s.hub.ctrOf n)) }
    rw [Hub.ssiTrig_starts ssi drives en up free rested, if_pos rfl]
    refine ⟨run.part Lane.sample, ?_, rfl, run.others⟩
    rw [Hub.cfg_modLane _ n 2 rfl, Hub.cfg_setCfg_same _ n (by decide)]
    simp
  case high =>
    refine (runs_iff rfl).mpr ?_
    obtain ⟨w, m, ended⟩ := LaneStep.ssiEnded s.hub n [lrCFG 2, lrFlag lfRX_LVL] (by simp)
    have value : (s.hub.ssiEnded n).ssiValue n raw =
        BitVec.ofNat 32 (raw.toNat % 2 ^ (max 7 ((s.hub.cfg n 0).bits 20 16) + 1)) := by
      rw [Hub.ssiValue, Hub.ssiEnded_cfg, binary]
      rfl
    have run := ended.ssiHigh (by rw [Hub.up, ended.ln (by decide)]; exact up) room quiet (by simp)
      ((s.hub.ssiEnded n).ssiValue n raw) stamp good
    rw [Hub.ssiDone_eq sampled wired, if_neg (by decide)]
    rw [value] at run ⊢
    exact ⟨run.part Lane.sample, run.part Lane.lastPair,
      (run.part fun l => l.rx.q.length).trans (Fifo.pushAll_length (by simpa using room) _ _), run.part Lane.discards,
      run.parts, run.others⟩
  case low =>
    refine (runs_iff rfl).mpr ?_
    obtain ⟨w, m, ended⟩ := LaneStep.ssiEnded s.hub n [lrCFG 2, lrFlag lfPROTO] (by simp)
    obtain ⟨run, flag⟩ := ended.ssiLow few quiet (by simp)
    rw [Hub.ssiDone_eq sampled wired, if_pos (by decide)]
    exact ⟨run.part Lane.sample, run.part Lane.discards, run.part Lane.rx, flag, run.parts, run.others⟩
  case wakeup =>
    refine (runs_iff rfl).mpr ?_
    have run := (LaneStep.start n [] s.hub).mod fun l => { l with enPin := true }
    rw [if_pos (by rw [port, lost]; rfl), Hub.devOut_free fun p hp => by rw [List.mem_singleton.mp hp]; exact txd]
    exact ⟨run.part Lane.enPin, rfl, rfl, run.others⟩
  case connect =>
    refine (runs_iff rfl).mpr ?_
    obtain ⟨L, l, good, run, up, word⟩ := Hub.sdciConnect_up ((s.hub.sdci_iff n).mp port).1 down channel bank fresh idle quiet
      ((s.hub.cfg n 2 &&& 0xFFF8FFFF#32) ||| BitVec.ofNat 32 (2 ^ 18 + com.toNat * 2 ^ 16))
    rw [if_pos (by simpa [port, rxd, en, lost, rate] using set)]
    refine ⟨up, (run.part Lane.devBad).trans good, ?_, run.parts, run.others⟩
    rw [word]
    exact connectedRate _ _
  case lost =>
    refine (runs_iff rfl).mpr ?_
    obtain ⟨L, l, bad, run, state, cse⟩ := Hub.sdciLost_left ((s.hub.sdci_iff n).mp port).1 up idle unlocked quiet
      (s.hub.cfg n 2 &&& 0xFFFBFFFF#32)
    rw [if_pos (by simp [port, good])]
    exact ⟨(run.part Lane.devBad).trans bad, state, cse, run.parts, run.others⟩
  case event =>
    refine (runs_iff rfl).mpr ?_
    rw [if_pos (by simp [port, up, rxd]), Hub.lane, Hub.pushRx_lanes (ws := [_]) room]
    refine ⟨?_, fun m hm => Vector.getElem_set_ne n.isLt m.isLt fun e => hm (Fin.ext e.symm)⟩
    rw [Fin.getElem_fin, Vector.getElem_set_self]
    exact Fifo.pushAll_one room _ _ _
  case mSequence =>
    refine (runs_iff rfl).mpr ?_
    rw [Hub.mSequence_eq port up txd rxd quiet length small]
    have run := (((LaneStep.start n [] s.hub).mod fun l => { l with pdOut := s.hub.pdStaged n }).emit
      (.device n (s.hub.pdStaged n))).mod fun l => { l with pdIn := pdi }
    have output := run.part Lane.pdOut
    refine ⟨run.part Lane.pdIn, ?_, ?_, rfl, run.others⟩
    · exact (congrArg List.length output).trans (s.hub.pdStaged_length n)
    · exact congrArg (fun o => Out.device n o :: s.hub.out) output.symm
  case count =>
    refine (runs_iff rfl).mpr ?_
    subst same
    obtain ⟨L, run, ⟨a, b⟩, word⟩ := Hub.quadCount_step quad quiet up pinA pinB change unset
    exact ⟨(run.part Lane.qa).trans a, (run.part Lane.qb).trans b, word, LaneStep.cfgRegs (is := [1]) run, run.others⟩
  case zEdge =>
    refine (runs_iff rfl).mpr ?_
    have first := (LaneStep.start n ([2, 3].map lrCFG) s.hub).setCfg (i := 2) (by simp) (s.hub.cfg n 1)
    have run := first.setCfg (i := 3) (by simp) (BitVec.ofNat 32 (s.hub.ctrOf n))
    rw [Hub.quadZ_latch quad up pinZ mode]
    refine ⟨?_, ?_, Hub.cfg_setCfg_same _ n (by decide) _, rfl, run.others, run.cfgRegs⟩
    · rw [Hub.cfg_setCfg_ne _ n (by decide), Hub.cfg_setCfg_ne _ n (by decide)]
    · rw [Hub.cfg_setCfg_ne _ n (by decide), Hub.cfg_setCfg_same _ n (by decide)]
  case preset =>
    refine (runs_cmdDo rfl admitted).mpr ?_
    obtain ⟨L, run, set, word⟩ := Hub.quadPreset_step quad quiet v
    exact ⟨word, (run.part Lane.preset).trans set, LaneStep.cfgRegs (is := [1]) run, run.others⟩

end Sys2Proof.Machine
end

section
/-! PROOFS. Words of the UART and SPI functions, and of a UART tunnel (O10). -/

namespace Sys2Proof.Machine

/-! ## UART (R61) -/

/-- A character that ends with nothing to follow: it is handed out and DE falls. -/
theorem Hub.uartSent_last {h : Hub} {n : Fin 64} {w : W32} (uart : h.fn n = 1) (up : h.up n = true) (txd : h.taken n 0 = false)
    (sending : (h.lane n).cur = some w) (empty : (h.lane n).tx.q = []) : h.uartSent n =
      ((h.modLane n fun l => { l with cur := none }).emit (.device n [w.extractLsb' 0 8, w.extractLsb' 8 8])).modLane n
        fun l => { l with de := false } := by
  have ended := ((LaneStep.start n [] h).mod fun l => { l with cur := none }).emit (.device n [w.extractLsb' 0 8, w.extractLsb' 8 8])
  have free : ∀ p ∈ [(0 : Fin 3)], (h.modLane n fun l => { l with cur := none }).taken n p = false :=
    fun p hp => by rw [List.mem_singleton.mp hp]; exact txd
  unfold Hub.uartSent
  rw [if_neg (by simp [uart, up, fnUART]), sending]
  dsimp only
  rw [Hub.devOut_free free, Hub.drawTx_nil (by rw [ended.lane]; exact empty)]

/-- A register of the field side after a push that fits, where it is no flag of the lane. -/
theorem Hub.pushRx_fld {h : Hub} {n : Fin 64} {ws : List W32} (room : (h.lane n).rx.q.length + ws.length ≤ 64)
    (extra : List Nat) (good : Bool) {f : Fld} (side : f.fieldSide = true) (ne : ∀ i ∈ lfRX_LVL :: extra, f.key ≠ (laneFld n (lrFlag i)).key) :
    (h.pushRx n ws extra good).fld f = h.fld f := by
  obtain ⟨fs, within, e | e⟩ := Hub.pushRx_cases room extra good <;> rw [e]
  · rfl
  · exact Hub.laneFlags_fld _ n fs side fun i hi => ne i (within i hi)

/-- Which tunnel a lane feeds is written in the tunnels' registers and in the lane's function. -/
theorem Hub.tunOf_congr {h k : Hub} {n : Fin 64} (fn : k.fn n = h.fn n)
    (tun : ∀ f : Fld, f.key < 0x100000 * 32 → f.fieldSide = true → k.fld f = h.fld f) : k.tunOf n = h.tunOf n := by
  have key (i : Fin 16) : (F.BRG_TUN_CFG_EN i).key < 0x100000 * 32 ∧ (F.BRG_TUN_SRC_LANE i).key < 0x100000 * 32 ∧
      (F.BRG_TUN_CFG_EN i).fieldSide = true ∧ (F.BRG_TUN_SRC_LANE i).fieldSide = true := by
    simp only [Fld.fieldSide_iff, F.BRG_TUN_CFG_EN, F.BRG_TUN_SRC_LANE, Fld.key]
    omega
  unfold Hub.tunOf
  congr 1
  funext i
  obtain ⟨enLow, laneLow, enSide, laneSide⟩ := key i
  rw [Hub.bit, Hub.bit, tun _ enLow enSide, tun _ laneLow laneSide, fn]

theorem Hub.tunTake_none {h : Hub} {n : Fin 64} (e : h.tunOf n = none) : h.tunTake n = h := by
  unfold Hub.tunTake
  rw [e]

/-- The word a received character enters the FIFO as (Table 2.19). -/
def Hub.charWord (h : Hub) (n : Fin 64) (ch : UartChar) : Nat :=
  b2n ch.idle * 2 ^ 12 + b2n ch.brk * 2 ^ 11 + b2n ch.framing * 2 ^ 10 + b2n ch.parity * 2 ^ 9 +
    ch.data.toNat % 2 ^ (min 4 ((h.cfg n 0).bits 22 20) + 5)

/-- A character received by a UART that feeds no tunnel. -/
theorem Hub.uartReceived_eq {h : Hub} {n : Fin 64} {ch : UartChar} (uart : h.fn n = 1) (up : h.up n = true)
    (idle : (h.lane n).de = false) (rxd : h.taken n 1 = false) (plain : h.tunOf n = none) (room : (h.lane n).rx.q.length < 64) :
    h.uartReceived n ch = h.pushRx n [BitVec.ofNat 32 (h.charWord n ch)]
      (if ch.brk || ch.framing || ch.parity then [lfPROTO] else []) := by
  have flags : ∀ i ∈ lfRX_LVL :: (if ch.brk || ch.framing || ch.parity then [lfPROTO] else []), i = lfRX_LVL ∨ i = lfPROTO := by
    split <;> simp
  have fld (f : Fld) (side : f.fieldSide = true) (ne : ∀ i, i = lfRX_LVL ∨ i = lfPROTO → f.key ≠ (laneFld n (lrFlag i)).key) :
      (h.pushRx n [BitVec.ofNat 32 (h.charWord n ch)] (if ch.brk || ch.framing || ch.parity then [lfPROTO] else [])).fld f = h.fld f :=
    Hub.pushRx_fld (ws := [_]) room _ _ side fun i hi => ne i (flags i hi)
  have tun : (h.pushRx n [BitVec.ofNat 32 (h.charWord n ch)] (if ch.brk || ch.framing || ch.parity then [lfPROTO] else [])).tunOf n =
      none := by
    rw [Hub.tunOf_congr (h := h) (fld _ (laneFld_side n (0, 0, 4)) fun i hi => ?_) fun f low side => fld f side fun i _ =>
      lowFld_ne low n _, plain]
    rcases hi with rfl | rfl <;> exact laneFld_ne (n := n) (r := (0, 0, 4)) (by decide)
  unfold Hub.uartReceived
  rw [if_neg (by simp [uart, up, idle, rxd, fnUART])]
  exact Hub.tunTake_none tun

/-! ## SPI (R63) -/

theorem Hub.idleWord_own (h : Hub) (w : W32) : h.idleWord false w = (h, w) := rfl

section
variable {h : Hub} {n : Fin 64} {w : FifoWord} {q : List FifoWord} (spi : h.fn n = 2) (up : h.up n = true)
    (held : (h.lane n).tx.q = w :: q) (good : w.good = true) (room : (h.lane n).rx.q.length < 64) (quiet : h.quietLane n = true)
include spi up held good room quiet

/-- A word of a controller: the oldest is sent, one is received. -/
theorem Hub.spiWord_step {rx : W32} (drives : h.drives = true) (controller : (h.cfg n 0).getLsbD 24 = false)
    (running : (h.lane n).devRun = false) (miso : h.taken n 2 = false) : ∃ o cs run tick,
      LaneStep n [lrFlag lfTX_LVL, lrFlag lfRX_LVL] { h.lane n with
        tx := (h.lane n).tx.popped q
        rx := (h.lane n).rx.pushAll [BitVec.ofNat 32 (rx.toNat % 2 ^ h.spiBits n)] true h.now
        open_ := o, csel := cs, devRun := run, devTick := tick } h (h.spiWord n rx) := by
  obtain ⟨k, drawn, draw⟩ := (LaneStep.start n [lrFlag lfTX_LVL, lrFlag lfRX_LVL] h).drawn quiet held good (by simp)
  have bits : k.spiBits n = h.spiBits n := by
    rw [Hub.spiBits, draw.cfg 0 rfl (by decide), ← Hub.spiBits]
  unfold Hub.spiWord
  rw [if_neg (by rw [spi, up, drives, controller, running]; decide), drawn]
  dsimp only
  rw [good, if_neg (by decide), bits]
  have sent := draw.devOut [0, 1] (beBytes (BitVec.ofNat 32 (w.w.toNat % 2 ^ h.spiBits n)))
  generalize k.devOut n [0, 1] _ = m at sent ⊢
  have opened := sent.mod fun l => { l with open_ := true, csel := if l.open_ then l.csel else (m.cfg n 1).bits 25 24 % 3 }
  generalize m.modLane n _ = o at opened ⊢
  rw [(opened.taken 2 (by decide)).trans miso, Hub.idleWord_own]
  have pushed := opened.pushRx quiet (ws := [BitVec.ofNat 32 (rx.toNat % 2 ^ h.spiBits n)]) room (extra := []) (by simp) true
  generalize o.pushRx n _ = g at pushed ⊢
  split
  · obtain ⟨run, tick, ended⟩ := pushed.streamEnd
    exact ⟨_, _, run, tick, ended⟩
  · exact ⟨_, _, _, _, pushed⟩

/-- A word of a target: the oldest answers, one is received. -/
theorem Hub.spiTarget_step {rx : W32} (target : (h.cfg n 0).getLsbD 24 = true) (sck : h.taken n 0 = false)
    (mosi : h.taken n 1 = false) (cs : h.taken (partner n) 0 = false) :
      LaneStep n [lrFlag lfTX_LVL, lrFlag lfRX_LVL] { h.lane n with
        tx := (h.lane n).tx.popped q
        rx := (h.lane n).rx.pushAll [BitVec.ofNat 32 (rx.toNat % 2 ^ h.spiBits n)] true h.now } h (h.spiTarget n rx) := by
  obtain ⟨k, drawn, draw⟩ := (LaneStep.start n [lrFlag lfTX_LVL, lrFlag lfRX_LVL] h).drawn quiet held good (by simp)
  unfold Hub.spiTarget
  rw [if_neg (by simp [spi, up, target, sck, cs, fnSPI]), drawn]
  dsimp only
  have sent := draw.devOut [2] (beBytes (BitVec.ofNat 32 (if w.good = true then w.w.toNat % 2 ^ h.spiBits n else 0)))
  generalize k.devOut n [2] _ = m at sent ⊢
  rw [(sent.taken 1 (by decide)).trans mosi, Hub.idleWord_own]
  exact sent.pushRx quiet (ws := [BitVec.ofNat 32 (rx.toNat % 2 ^ h.spiBits n)]) room (extra := []) (by simp) true

end

/-! ## A UART tunnel (R237) -/

/-- A frame of a tunnel leaves nothing gathered. -/
theorem Hub.tunSend_spec {h : Hub} {k : Fin 16} (held : h.brg.tun[k] ≠ []) (on : h.bit F.BRG_CTL_EN = true) :
    (h.tunSend k).brg.tun[k] = [] ∧ (h.tunSend k).brg.tseq[k] = (h.brg.tseq[k] + 1) % 65536 ∧ (h.tunSend k).lanes = h.lanes := by
  unfold Hub.tunSend
  dsimp only
  rw [if_neg (by simpa [on] using held), (Hub.send_keeps _ _ _).1, Hub.lanes_of_fieldView (Hub.send_fieldView _ _ _)]
  exact ⟨Vector.getElem_set_self _, Vector.getElem_set_self _, rfl⟩

/-- Settles O10: a UART's character by its own rules, the words of SPI as steps of the lane's frame, a tunnel by what
`send` leaves. -/
theorem uartAndSpiWords : Obligations.UartAndSpiWords := by
  unfold Obligations.UartAndSpiWords
  refine ⟨fun n w s uart up txd sending empty => ?sent, fun n ch s uart up idle rxd plain room => ?received,
    fun n rx w q s spi up drives _ _ miso controller running held good room quiet => ?controller,
    fun n rx w q s spi up sck mosi cs target held good room quiet => ?target, fun k s held on late => ?tunnel,
    fun k s early => ?early⟩
  case sent =>
    refine (runs_iff rfl).mpr ?_
    have run := (((LaneStep.start n [] s.hub).mod fun l => { l with cur := none }).emit
      (.device n [w.extractLsb' 0 8, w.extractLsb' 8 8])).mod fun l => { l with de := false }
    rw [Hub.uartSent_last uart up txd sending empty]
    exact ⟨rfl, run.part Lane.cur, run.part Lane.de, rfl, run.others⟩
  case received =>
    refine (runs_iff rfl).mpr ?_
    rw [Hub.uartReceived_eq uart up idle rxd plain room, Hub.lane, Hub.pushRx_lanes (ws := [_]) room]
    refine ⟨?_, fun m hm => Vector.getElem_set_ne n.isLt m.isLt fun e => hm (Fin.ext e.symm)⟩
    rw [Fin.getElem_fin, Vector.getElem_set_self]
    exact Fifo.pushAll_one room _ _ _
  case controller =>
    refine (runs_iff rfl).mpr ?_
    obtain ⟨_, _, _, _, run⟩ := Hub.spiWord_step (rx := rx) spi up held good room quiet drives controller running miso
    exact ⟨run.part fun l => l.tx.q, (run.part fun l => l.rx.q).trans (Fifo.pushAll_one room _ _ _), run.parts, run.others⟩
  case target =>
    refine (runs_iff rfl).mpr ?_
    have run := Hub.spiTarget_step (rx := rx) spi up held good room quiet target sck mosi cs
    exact ⟨run.part fun l => l.tx.q, (run.part fun l => l.rx.q).trans (Fifo.pushAll_one room _ _ _), run.parts, run.others⟩
  case tunnel =>
    refine (runs_iff rfl).mpr ?_
    rw [if_pos late]
    exact Hub.tunSend_spec held on
  case early =>
    refine (runs_iff rfl).mpr ?_
    rw [if_neg (by omega)]

end Sys2Proof.Machine
end

section
/-! PROOFS. Requests that a hub admits to bridge space (O7, O13): what abandoned slots and overlapped reads leave alone, and
how an admitted request reaches its lane. -/

namespace Sys2Proof.Machine

/-! ## Slots and salvage -/

/-- Is a register in the Echo block? -/
def Fld.inEch (f : Fld) : Bool := decide (0xB8000 * 32 ≤ f.key) && decide (f.key < 0xB9000 * 32)

theorem Fld.inEch_iff (f : Fld) : f.inEch = false ↔ f.key < 0xB8000 * 32 ∨ 0xB9000 * 32 ≤ f.key := by
  simp only [Fld.inEch, Bool.and_eq_false_iff, decide_eq_false_iff_not]
  omega

/-- What the bookkeeping of retry slots and salvage leaves of a hub. -/
structure EchoSide (h k : Hub) : Prop where
  parts : k = { h with fields := k.fields, hw := k.hw, out := k.out, brg := k.brg }
  brg : k.brg = { h.brg with slot := k.brg.slot, salv := k.brg.salv, ord := k.brg.ord }
  regs : ∀ f : Fld, f.inEch = false → k.fld f = h.fld f

namespace EchoSide

theorem refl (h : Hub) : EchoSide h h := ⟨rfl, rfl, fun _ _ => rfl⟩

section
variable {h k : Hub} (p : EchoSide h k)
include p

theorem trans {g : Hub} (q : EchoSide k g) : EchoSide h g := by
  refine ⟨?_, ?_, fun f hf => (q.regs f hf).trans (p.regs f hf)⟩
  · have := q.parts
    rw [p.parts] at this
    exact this
  · have := q.brg
    rw [p.brg] at this
    exact this

/-- It keeps what the field side is made of. -/
theorem fieldView : k.fieldView = h.fieldView := by
  refine Hub.fieldView_eq ?_ ?_ fun f hf => p.regs f ?_
  · rw [p.parts]
  · rw [p.parts]
  · rw [Fld.fieldSide_iff] at hf
    rw [Fld.inEch_iff]
    omega

theorem tag : k.brg.tag = h.brg.tag := by rw [p.brg]

theorem lock : k.brg.lock = h.brg.lock := by rw [p.brg]

end

/-- One more change of a register of the block, of what hardware holds there and of the outputs. -/
theorem reg {h g : Hub} {f : Fld} (e : f.inEch = true) (parts : g = { h with fields := g.fields, hw := g.hw, out := g.out }) {v : Nat}
    (fields : g.fields = (h.put f v).fields) : EchoSide h g := by
  refine ⟨?_, ?_, fun x hx => (Hub.fld_congr fields x).trans (Hub.fld_put_ne h f x v fun q => ?_)⟩
  · rw [parts]
  · rw [parts]
  · rw [Fld.inEch, q, ← Fld.inEch, e] at hx
    cases hx

variable (h : Hub)

theorem flag {f : Fld} (e : f.inEch = true) : EchoSide h (h.flag .ech f) := by
  refine reg e ?_ (h.flag_fields .ech f)
  rcases h.flag_cases .ech f with q | ⟨v, q⟩ <;> rw [q] <;> rfl

theorem count {f : Fld} (e : f.inEch = true) (plain : ∀ l o, locate f.off ≠ some (.link l, o)) : EchoSide h (h.count f) := by
  obtain ⟨v, m, q⟩ := h.count_plain f 1 plain
  rw [q]
  exact reg e rfl (v := v) rfl

theorem modBrg {g : Brg → Brg} (e : g h.brg = { h.brg with slot := (g h.brg).slot, salv := (g h.brg).salv, ord := (g h.brg).ord }) :
    EchoSide h (h.modBrg g) := ⟨rfl, e, fun _ _ => rfl⟩

theorem modSlot (i : Fin 128) (g : Slot → Slot) : EchoSide h (h.modSlot i g) := modBrg h rfl

theorem setSalv (c : Fin 8) (i : Fin 16) (v : Option Salv) : EchoSide h (h.setSalv c i v) := modBrg h rfl

theorem foldl {α : Type} {f : Hub → α → Hub} (step : ∀ h x, EchoSide h (f h x)) (l : List α) : EchoSide h (l.foldl f h) :=
  List.foldlRecOn (motive := EchoSide h) l f (.refl h) fun g p x _ => p.trans (step g x)

theorem salvPut (lane : Fin 64) (off : Nat) (data : List Byte) (g : GTime) (tick origin : Nat) (serve : Bool) :
    EchoSide h (h.salvPut lane off data g tick origin serve) := by
  have discard (k : Hub) : EchoSide k ((k.count F.ECH_DISCARD).flag .ech F.ECH_FLAG_DISCARD) :=
    (count k rfl fun l o => by rw [show locate F.ECH_DISCARD.off = some (.ech, 0x28) from by decide]; simp).trans
      (flag _ rfl)
  have lost (k : Hub) : EchoSide k ((k.count F.ECH_SALVLOST).flag .ech F.ECH_FLAG_SALVLOST) :=
    (count k rfl fun l o => by rw [show locate F.ECH_SALVLOST.off = some (.ech, 0x34) from by decide]; simp).trans
      (flag _ rfl)
  have counted : EchoSide h (((h.modBrg fun b => { b with ord := b.ord + 1 }).count F.ECH_DISCARD).flag .ech
      F.ECH_FLAG_DISCARD) := (modBrg h rfl).trans (discard _)
  unfold Hub.salvPut
  dsimp only
  split
  · exact counted.trans (setSalv _ _ _ _)
  · split
    · exact (counted.trans (setSalv _ _ _ _)).trans (lost _)
    · exact counted

theorem slotToSalv (i : Fin 128) (origin : Nat) (serve : Bool) : EchoSide h (h.slotToSalv i origin serve) := by
  unfold Hub.slotToSalv
  dsimp only
  split
  · split
    · exact (salvPut h _ _ _ _ _ _ _).trans (modSlot _ _ _)
    · exact modSlot h _ _
  · exact modSlot h _ _

theorem abandonOld (rq : Request) : EchoSide h (h.abandonOld rq) := by
  unfold Hub.abandonOld
  split
  · split
    · exact .refl h
    · unfold Hub.abandon
      split
      · exact slotToSalv h _ _ _
      · exact modSlot h _ _
  · exact .refl h

theorem writeOverlap (lane : Fin 64) (off len : Nat) : EchoSide h (h.writeOverlap lane off len) := by
  have out : EchoSide h (h.echoOut lane fun rq => overlaps off len rq.dev rq.len) := by
    unfold Hub.echoOut
    refine foldl h (fun k i => ?_) _
    dsimp only
    split
    · split
      · exact slotToSalv k _ _ _
      · split
        · exact .refl k
        · exact modSlot k _ _
    · exact .refl k
  unfold Hub.writeOverlap
  dsimp only
  generalize h.echoOut lane _ = m at out ⊢
  exact out.trans (modBrg m rfl)

end EchoSide

end Sys2Proof.Machine
end

section
/-! PROOFS. How an admitted request reaches its lane (O7, O13; R32, R33, R210-R212, R230). -/

namespace Sys2Proof.Machine

/-! ## The checks do not see the Echo block -/

theorem lowKey_notEch {f : Fld} (e : f.key < 0xB8000 * 32) : f.inEch = false := (Fld.inEch_iff f).mpr (.inl e)

theorem laneKey_notEch (n : Fin 64) (r : LaneReg) : (laneFld n r).inEch = false := by
  rw [Fld.inEch_iff, laneFld_key]
  simp only [laneBase, clusterBase]
  omega

/-- What a request asks of its lane is written in the lane's function and its first configuration word. -/
theorem Hub.laneAcc_congr {h k : Hub} {rq : Request} (fn : k.fn rq.lane = h.fn rq.lane)
    (cfg : k.cfg rq.lane 0 = h.cfg rq.lane 0) : k.laneAcc rq = h.laneAcc rq := by
  simp only [Hub.laneAcc, fn, cfg]

/-- Whose request it is hangs on this hub's node and member numbers (R201). -/
theorem Hub.isLocal_congr {h k : Hub} (node : k.fld F.GLB_SELF_NODE = h.fld F.GLB_SELF_NODE)
    (member : k.fld F.GLB_STRAP_MEMBER = h.fld F.GLB_STRAP_MEMBER) (rq : Request) : k.isLocal rq = h.isLocal rq := by
  unfold Hub.isLocal Hub.node Hub.member
  rw [node, member]

section
variable {h k : Hub} (p : EchoSide h k) (rq : Request)
include p

theorem EchoSide.now : k.now = h.now := by rw [p.parts]

theorem EchoSide.lanes : k.lanes = h.lanes := by rw [p.parts]

theorem EchoSide.fuse : k.fuse = h.fuse := by rw [p.parts]

theorem EchoSide.dl : k.dl = h.dl := by rw [p.parts]

theorem EchoSide.low {f : Fld} (e : f.key < 0xB8000 * 32) : k.fld f = h.fld f := p.regs f (lowKey_notEch e)

theorem EchoSide.lane (n : Fin 64) : k.lane n = h.lane n := by
  unfold Hub.lane
  rw [p.lanes]

theorem EchoSide.laneFld (n : Fin 64) (r : LaneReg) : k.fld (laneFld n r) = h.fld (laneFld n r) := p.regs _ (laneKey_notEch n r)

theorem EchoSide.fn (n : Fin 64) : k.fn n = h.fn n := p.laneFld n (0, 0, 4)

theorem EchoSide.up (n : Fin 64) : k.up n = h.up n := congrArg (· == lnUP) (p.laneFld n lrSTATE)

theorem EchoSide.cfg (n : Fin 64) (i : Nat) : k.cfg n i = h.cfg n i :=
  Hub.cfg_congr (by rw [laneCfg_eq]; exact p.laneFld n _) (p.fn n) (by rw [p.lane])

theorem EchoSide.paired : k.paired = h.paired := congrArg (· != 0) (p.low (f := F.LMP_CTL_EN) (by decide))

theorem EchoSide.isLocal : k.isLocal rq = h.isLocal rq :=
  Hub.isLocal_congr (p.low (f := F.GLB_SELF_NODE) (by decide)) (p.low (f := F.GLB_STRAP_MEMBER) (by decide)) rq

theorem EchoSide.laneAcc : k.laneAcc rq = h.laneAcc rq := Hub.laneAcc_congr (p.fn _) (p.cfg _ 0)

theorem EchoSide.pinsHeld (c : Fin 8) : k.pinsHeld c = h.pinsHeld c := by
  unfold Hub.pinsHeld Hub.domOn Hub.prlocked
  rw [p.dl, p.low (f := F.PWR_STATE_STATE (18 + c)) (by simp only [Fld.key, F.PWR_STATE_STATE]; omega),
    p.low (f := F.CFG_PRLOCK_LOCK) (by decide)]

theorem EchoSide.laneFirst : k.laneFirst rq = h.laneFirst rq := by
  simp only [Hub.laneFirst, Hub.lanePresent, p.fuse, p.fn, p.pinsHeld, p.up]
  rfl

theorem EchoSide.laneCheck : k.laneCheck rq = h.laneCheck rq := by
  unfold Hub.laneCheck
  rw [p.laneFirst, p.laneAcc]

omit p in
theorem Hub.spaceCheck_lane (bridge : rq.addr.space = 3) : h.spaceCheck rq = h.laneCheck rq := by
  unfold Hub.spaceCheck
  rw [bridge]
  rfl

theorem EchoSide.listAdmits (i node : Nat) : k.listAdmits i node = h.listAdmits i node := by
  unfold Hub.listAdmits
  by_cases known : node < 254
  · rw [p.low (f := F.BRG_ALLOW_NODES (i % 16 * 8 + node / 32)) (by simp only [Fld.key, F.BRG_ALLOW_NODES]; omega)]
  · simp [known]

theorem EchoSide.winHits {w : Nat} (few : w < 64) : k.winHits rq w = h.winHits rq w := by
  unfold Hub.winHits Hub.bit
  rw [p.low (f := F.BRG_WIN_ATTR_EN w) (by simp only [Fld.key, F.BRG_WIN_ATTR_EN]; omega),
    p.low (f := F.BRG_WIN_BASE_SPACE w) (by simp only [Fld.key, F.BRG_WIN_BASE_SPACE]; omega),
    p.low (f := F.BRG_WIN_BASE_BLK w) (by simp only [Fld.key, F.BRG_WIN_BASE_BLK]; omega),
    p.low (f := F.BRG_WIN_LIMIT_BLK w) (by simp only [Fld.key, F.BRG_WIN_LIMIT_BLK]; omega)]

theorem EchoSide.winOf : k.winOf rq = h.winOf rq :=
  List.find?_congr fun _ hw => p.winHits rq (List.mem_range.mp hw)

theorem EchoSide.winCheck : k.winCheck rq = h.winCheck rq := by
  unfold Hub.winCheck Hub.winExempt Hub.srcOfRq
  rw [p.isLocal, p.winOf, show k.node = h.node from p.low (f := F.GLB_SELF_NODE) (by decide)]
  split
  · rfl
  · split
    · rfl
    · rename_i w found
      have few : w < 64 := List.mem_range.mp (List.mem_of_find?_eq_some found)
      unfold Hub.winRights Hub.bit
      rw [p.listAdmits, p.low (f := F.BRG_WIN_LIMIT_BLK w) (by simp only [Fld.key, F.BRG_WIN_LIMIT_BLK]; omega),
        p.low (f := F.BRG_WIN_ATTR_ALLOW w) (by simp only [Fld.key, F.BRG_WIN_ATTR_ALLOW]; omega),
        p.low (f := F.BRG_WIN_ATTR_READ w) (by simp only [Fld.key, F.BRG_WIN_ATTR_READ]; omega),
        p.low (f := F.BRG_WIN_ATTR_WRITE w) (by simp only [Fld.key, F.BRG_WIN_ATTR_WRITE]; omega),
        p.low (f := F.BRG_WIN_ATTR_LOCK w) (by simp only [Fld.key, F.BRG_WIN_ATTR_LOCK]; omega)]

end

/-! ## An admitted request -/

/-- The hub once it has counted a request. -/
def Hub.counted (h : Hub) (rq : Request) : Hub := if rq.posted then h.count F.BRG_PCNT else h.count F.BRG_NPCNT

/-- Counting a request changes its counter. -/
theorem Hub.counted_cases (h : Hub) (rq : Request) :
    ∃ f v m, (f = F.BRG_PCNT ∨ f = F.BRG_NPCNT) ∧ h.counted rq = { h.put f v with hw := m } := by
  unfold Hub.counted
  split
  · obtain ⟨v, m, e⟩ := h.count_plain F.BRG_PCNT 1 fun l o => by
      rw [show locate F.BRG_PCNT.off = some (.brg, F.BRG_PCNT.off - 0xB0000) from by decide]
      simp
    exact ⟨_, v, m, .inl rfl, e⟩
  · obtain ⟨v, m, e⟩ := h.count_plain F.BRG_NPCNT 1 fun l o => by
      rw [show locate F.BRG_NPCNT.off = some (.brg, F.BRG_NPCNT.off - 0xB0000) from by decide]
      simp
    exact ⟨_, v, m, .inr rfl, e⟩

theorem Hub.counted_fieldView (h : Hub) (rq : Request) : (h.counted rq).fieldView = h.fieldView := by
  unfold Hub.counted
  split
  · exact h.count_fieldView rfl 1
  · exact h.count_fieldView rfl 1

theorem Hub.counted_parts (h : Hub) (rq : Request) :
    h.counted rq = { h with fields := (h.counted rq).fields, hw := (h.counted rq).hw } := by
  obtain ⟨f, v, m, -, e⟩ := h.counted_cases rq
  rw [e]
  rfl

theorem Hub.counted_fld (h : Hub) (rq : Request) {f : Fld} (p : f.key ≠ F.BRG_PCNT.key) (np : f.key ≠ F.BRG_NPCNT.key) :
    (h.counted rq).fld f = h.fld f := by
  obtain ⟨g, v, m, rfl | rfl, e⟩ := h.counted_cases rq <;> rw [e]
  · exact h.fld_put_ne _ f v p
  · exact h.fld_put_ne _ f v np

/-- What an admitted request has passed. -/
structure Admitted (h : Hub) (rq : Request) : Prop where
  serves : (h.counted rq).serves rq = true
  op : badOp rq = false
  len : badLen rq = false
  alone : (h.counted rq).paired = false
  space : (h.counted rq).spaceCheck rq = none
  win : ∃ w, (h.counted rq).winCheck rq = some w

theorem Hub.admitted_of {h : Hub} {rq : Request} (e : h.admitsRq rq = true) : Admitted h rq := by
  simp only [Hub.admitsRq, Bool.and_eq_true, Bool.not_eq_true', Option.isNone_iff_eq_none, Option.isSome_iff_exists] at e
  obtain ⟨⟨⟨⟨⟨⟨serves, op⟩, len⟩, -⟩, alone⟩, space⟩, win⟩ := e
  exact ⟨serves, op, len, alone, space, win⟩

/-- An unpaired hub relays nothing as a Shadow. -/
theorem Hub.shadowRelays_alone {h : Hub} (e : h.paired = false) (rel : Bool) (rq : Request) : h.shadowRelays rel rq = false := by
  simp [Hub.shadowRelays, Hub.shadowUnit, e]

/-- A free lane meets no lock. -/
theorem Hub.lockTouch_free {h : Hub} {n : Fin 64} (free : h.brg.lock[n] = {}) (k : Key) : h.lockTouch n k = h := by
  unfold Hub.lockTouch
  rw [if_neg (by rw [free]; simp)]

theorem Hub.lockMeet_free {h : Hub} {rq : Request} (free : h.brg.lock[rq.lane] = {}) (plain : isLock rq.op = false) :
    h.lockMeet rq = (h, .go) := by
  unfold Hub.lockMeet
  simp [free, plain]

/-- At an unpaired hub a request to a free lane goes on to the lane. -/
theorem Hub.servePair_free {h : Hub} {rq : Request} (alone : h.paired = false) (free : h.brg.lock[rq.lane] = {})
    (plain : isLock rq.op = false) (noUnlock : rq.op ≠ opUNLOCK) (win : Option Nat) (was : Bool) :
    h.servePair false rq win was = h.serveLane false rq win was := by
  unfold Hub.servePair Hub.serveSpace3
  rw [alone, if_pos (by simp), if_neg noUnlock, Hub.lockMeet_free free plain]

theorem Hub.drives_alone {h : Hub} (e : h.paired = false) : h.drives = true := by
  simp [Hub.drives, e]

/-- A lane that may be served is UP. -/
theorem Hub.up_of_laneFirst {h : Hub} {rq : Request} (bridge : rq.addr.space = 3) (e : h.laneFirst rq = none) :
    h.up rq.lane = true := by
  unfold Hub.laneFirst at e
  dsimp only at e
  rw [if_neg (by simp [bridge])] at e
  split at e
  · cases e
  · split at e
    · cases e
    · rename_i held
      simp only [Bool.or_eq_true, Bool.not_eq_true', not_or, Bool.not_eq_false] at held
      exact held.2

/-- The hub at whose lane an admitted request arrives. -/
structure Reached (h : Hub) (rq : Request) (k : Hub) : Prop where
  side : EchoSide (h.counted rq) k
  up : k.up rq.lane = true
  drives : k.drives = true

/-- An admitted read or write of bridge space reaches its lane, whose lock is free. -/
theorem Hub.serve_lane {h : Hub} {rq : Request} (adm : h.admitsRq rq = true) (bridge : rq.addr.space = 3)
    (free : h.brg.lock[rq.lane] = {}) (op : rq.op = opREAD ∨ rq.op = opWRITE) :
    ∃ k win was, Reached h rq k ∧ h.serve rq = k.serveLane false rq win was := by
  obtain ⟨serves, badOp, badLen, alone, space, w, win⟩ := Hub.admitted_of adm
  have brg : (h.counted rq).brg = h.brg := by rw [Hub.counted_parts]
  have first : (h.counted rq).laneFirst rq = none := by
    rw [Hub.spaceCheck_lane rq bridge, Hub.laneCheck, Option.or_eq_none_iff] at space
    exact space.1
  have plain : isLock rq.op = false := by rcases op with e | e <;> rw [e] <;> decide
  have noUnlock : rq.op ≠ opUNLOCK := by rcases op with e | e <;> rw [e] <;> decide
  have side := EchoSide.abandonOld (h.counted rq) rq
  have aloneOld := side.paired.trans alone
  have spaceOld : ((h.counted rq).abandonOld rq).spaceCheck rq = none := by
    rw [Hub.spaceCheck_lane rq bridge] at space ⊢
    rw [side.laneCheck, space]
  have winOld := (side.winCheck rq).trans win
  have freeOld : ((h.counted rq).abandonOld rq).brg.lock[rq.lane] = {} := by rw [side.lock, brg]; exact free
  have reached : Reached h rq ((h.counted rq).abandonOld rq) :=
    ⟨side, (side.up rq.lane).trans (Hub.up_of_laneFirst bridge first), Hub.drives_alone aloneOld⟩
  refine ⟨(h.counted rq).abandonOld rq, w, ?_⟩
  unfold Hub.serve
  simp only [← Hub.counted.eq_1]
  rw [Hub.shadowRelays_alone alone, serves, if_neg (by decide), first, badOp, badLen, bridge, if_pos rfl, Hub.lockTouch_free freeOld,
    Hub.shadowRelays_alone aloneOld, spaceOld, winOld]
  exact ⟨_, reached, Hub.servePair_free aloneOld freeOld plain noUnlock _ _⟩

/-- A command of one kind of lane access that names such an access. -/
theorem Hub.serveAs_ok {h : Hub} {rq : Request} {ok : Hub → Bool} (bridge : rq.addr.space = 3) (e : ok h = true) :
    h.serveAs rq ok = h.serve rq := by
  unfold Hub.serveAs
  rw [if_pos (by simp [bridge, e])]

/-! ### What the lane finds -/

section
variable {h k : Hub} (e : k.fieldView = h.fieldView)
include e

theorem Hub.lane_of_fieldView (n : Fin 64) : k.lane n = h.lane n := by
  unfold Hub.lane
  rw [Hub.lanes_of_fieldView e]

theorem Hub.laneFld_of_fieldView (n : Fin 64) (r : LaneReg) : k.fld (laneFld n r) = h.fld (laneFld n r) :=
  Hub.fld_of_fieldView e (laneFld_side n r)

theorem Hub.fn_of_fieldView (n : Fin 64) : k.fn n = h.fn n := Hub.laneFld_of_fieldView e n (0, 0, 4)

theorem Hub.cfg_of_fieldView (n : Fin 64) (i : Nat) : k.cfg n i = h.cfg n i :=
  Hub.cfg_congr (by rw [laneCfg_eq]; exact Hub.laneFld_of_fieldView e n _) (Hub.fn_of_fieldView e n)
    (by rw [Hub.lane_of_fieldView e])

theorem Hub.laneAcc_of_fieldView (rq : Request) : k.laneAcc rq = h.laneAcc rq :=
  Hub.laneAcc_congr (Hub.fn_of_fieldView e _) (Hub.cfg_of_fieldView e _ 0)

end

namespace Reached

variable {h k : Hub} {rq : Request} (p : Reached h rq k)
include p

theorem fieldView : k.fieldView = h.fieldView := p.side.fieldView.trans (h.counted_fieldView rq)

theorem lanes : k.lanes = h.lanes := Hub.lanes_of_fieldView p.fieldView

theorem now : k.now = h.now := Hub.now_of_fieldView p.fieldView

theorem lane (n : Fin 64) : k.lane n = h.lane n := Hub.lane_of_fieldView p.fieldView n

theorem fn (n : Fin 64) : k.fn n = h.fn n := Hub.fn_of_fieldView p.fieldView n

theorem cfg (n : Fin 64) (i : Nat) : k.cfg n i = h.cfg n i := Hub.cfg_of_fieldView p.fieldView n i

theorem laneAcc : k.laneAcc rq = h.laneAcc rq := Hub.laneAcc_of_fieldView p.fieldView rq

theorem low {f : Fld} (e : f.key < 0xB0000 * 32) : k.fld f = h.fld f :=
  (p.side.low (by omega)).trans (h.counted_fld rq (Nat.ne_of_lt (e.trans_le (by decide))) (Nat.ne_of_lt (e.trans_le (by decide))))

theorem isLocal : k.isLocal rq = h.isLocal rq :=
  Hub.isLocal_congr (p.low (f := F.GLB_SELF_NODE) (by decide)) (p.low (f := F.GLB_STRAP_MEMBER) (by decide)) rq

theorem tag : k.brg.tag = h.brg.tag := by
  rw [p.side.tag, Hub.counted_parts]

end Reached

/-! ## The answer of the lane (R204) -/

/-- A posted access that went well is answered by nothing. -/
theorem Hub.answer_posted {h : Hub} {rq : Request} (posted : rq.posted = true) (est : Nat) (lock salv : Bool) (data : List Byte) :
    h.answerRq false rq stOK est lock salv data = h := by
  unfold Hub.answerRq Hub.respond
  rw [if_neg (by decide), if_pos posted, if_pos rfl]

/-- The final answer to a plain issuer of this hub: the completion, and the tag is free again. -/
theorem Hub.answer_awaited {h k : Hub} {rq : Request} (await : h.awaits rq = true) (tag : k.brg.tag = h.brg.tag)
    (here : k.isLocal rq = h.isLocal rq) {st : Nat} (final : st ≠ stRETRY ∧ st ≠ stBACKOFF ∧ st < 9)
    (op : rq.op = opREAD ∨ rq.op = opWRITE) (data : List Byte) :
    k.answerRq false rq st 0 false false data =
      (k.setTag ⟨rq.tag.toNat, rq.tag.isLt⟩ .free).emit (.completion rq.req rq.tag (BitVec.ofNat 4 st) 0 false false data) := by
  obtain ⟨noRetry, noBackoff, known⟩ := final
  unfold Hub.awaits at await
  simp only [Bool.and_eq_true, Bool.not_eq_true'] at await
  obtain ⟨⟨asks, own⟩, waits⟩ := await
  split at waits
  case h_2 => cases waits
  case h_1 u inUse =>
    simp only [Bool.and_eq_true, beq_iff_eq, Option.isNone_iff_eq_none] at waits
    obtain ⟨⟨⟨⟨rfl, plain⟩, single⟩, -⟩, flying⟩ := waits
    have inUse' : k.brg.tag[u.rq.tag.toNat] = .use u := by
      rw [← inUse]
      simp only [tag]
    have still : st ≠ stOK ∨ isLock u.rq.op = false ∧ u.rq.op ≠ opUNLOCK := by
      rcases op with e | e <;> rw [e] <;> exact .inr (by decide)
    unfold Hub.answerRq Hub.respond
    rw [if_neg (by decide), if_neg (by rw [asks]; decide), if_neg noRetry, if_pos (here.trans own),
      Hub.cplIn_final inUse' flying rfl rfl noRetry noBackoff known, Hub.finish_plain _ plain single (.inl noBackoff) still]

end Sys2Proof.Machine
end

section
/-! PROOFS. Accesses of bridge space to the devices and registers behind a lane (O13). -/

namespace Sys2Proof.Machine

/-! ## The device queue (R205, R503) -/

/-- A lane with one more access in its queue. -/
def Lane.queued (l : Lane) (d : DevReq) : Lane :=
  let run := if l.devRun then l.dev.take 1 else []
  let rest := if l.devRun then l.dev.drop 1 else l.dev
  let rest := if d.echo then rest ++ [d] else (rest.filter fun x => !x.echo) ++ [d] ++ rest.filter fun x => x.echo
  { l with dev := run ++ rest }

theorem Hub.devAdd_eq (h : Hub) (n : Fin 64) (d : DevReq) : h.devAdd n d = (h.modLane n fun l => l.queued d).devStart n := rfl

theorem Lane.queued_first {l : Lane} {d : DevReq} (idle : l.dev = []) (still : l.devRun = false) (own : d.echo = false) :
    l.queued d = { l with dev := [d] } := by
  simp [Lane.queued, idle, still, own]

/-- The only access of a lane whose bus is free starts. -/
theorem Hub.devStart_first {h : Hub} {n : Fin 64} {d : DevReq} (up : h.up n = true) (drives : h.drives = true)
    (queue : (h.lane n).dev = [d]) (still : (h.lane n).devRun = false) (closed : (h.lane n).open_ = false)
    (empty : (h.lane n).tx.q = []) : h.devStart n = h.modLane n fun l => { l with devRun := true, devTick := h.now } := by
  unfold Hub.devStart
  dsimp only
  split
  · rename_i none
    rw [queue] at none
    cases none
  · exact if_pos (by simp [up, drives, still, closed, empty])

/-- The first access of an UP lane takes its bus at once. -/
theorem Hub.devAdd_first {h : Hub} {n : Fin 64} {d : DevReq} (up : h.up n = true) (drives : h.drives = true)
    (idle : (h.lane n).dev = []) (still : (h.lane n).devRun = false) (closed : (h.lane n).open_ = false)
    (empty : (h.lane n).tx.q = []) (own : d.echo = false) :
    LaneStep n [] { h.lane n with dev := [d], devRun := true, devTick := h.now } h (h.devAdd n d) := by
  have queued := (LaneStep.start n [] h).modTo (g := fun l => l.queued d) (Lane.queued_first idle still own)
  have up' : (h.modLane n fun l => l.queued d).up n = true := up
  have drives' : (h.modLane n fun l => l.queued d).drives = true := drives
  have now : (h.modLane n fun l => l.queued d).now = h.now := rfl
  rw [Hub.devAdd_eq]
  generalize (h.modLane n fun l => l.queued d) = k at queued up' drives' now ⊢
  rw [Hub.devStart_first up' drives' (d := d) (by rw [queued.lane]) (by rw [queued.lane]; exact still)
    (by rw [queued.lane]; exact closed) (by rw [queued.lane]; exact empty), now]
  exact queued.modTo rfl

/-- A posted write that an admitted request brings to an idle device. -/
theorem Hub.deviceWrite {h : Hub} {rq : Request} (adm : h.admitsRq rq = true) (bridge : rq.addr.space = 3)
    (free : h.brg.lock[rq.lane] = {}) (kind : h.laneAcc rq = .bus ∨ h.laneAcc rq = .pd) (op : rq.op = opWRITE)
    (posted : rq.posted = true) (idle : (h.lane rq.lane).dev = []) (still : (h.lane rq.lane).devRun = false)
    (closed : (h.lane rq.lane).open_ = false) (empty : (h.lane rq.lane).tx.q = []) :
    ((h.serve rq).lane rq.lane).dev = [{ rq := rq, slot := none, at_ := h.now }] ∧ ((h.serve rq).lane rq.lane).devRun = true ∧
      ((h.serve rq).lane rq.lane).devTick = h.now ∧ ∀ m : Fin 64, m ≠ rq.lane → (h.serve rq).lanes[m] = h.lanes[m] := by
  obtain ⟨k, win, was, reached, serve⟩ := Hub.serve_lane adm bridge free (.inr op)
  have start : h.serve rq = (k.writeOverlap rq.lane rq.dev rq.len).devAdd rq.lane { rq := rq, slot := none, at_ := k.now } := by
    rw [serve]
    unfold Hub.serveLane
    rcases kind with e | e <;> rw [reached.laneAcc, e] <;> exact if_pos posted
  have side := EchoSide.writeOverlap k rq.lane rq.dev rq.len
  generalize k.writeOverlap rq.lane rq.dev rq.len = m at side start
  have lane := (side.lane rq.lane).trans (reached.lane rq.lane)
  have now := side.now.trans reached.now
  have run := Hub.devAdd_first (h := m) (d := { rq := rq, slot := none, at_ := k.now })
    ((side.up _).trans reached.up) (Hub.drives_alone (side.paired.trans (reached.side.paired.trans (Hub.admitted_of adm).alone)))
    (by rw [lane]; exact idle) (by rw [lane]; exact still) (by rw [lane]; exact closed) (by rw [lane]; exact empty) rfl
  rw [now, reached.now] at run
  rw [start, reached.now]
  refine ⟨run.part Lane.dev, run.part Lane.devRun, run.part Lane.devTick, fun j hj => ?_⟩
  rw [run.others j hj]
  simp only [side.lanes, reached.lanes]

/-! ## Registers and latest values (R69) -/

/-- A read answered at once leaves the lanes alone, and its completion is the newest output. -/
theorem Hub.laneRead {h : Hub} {rq : Request} (adm : h.admitsRq rq = true) (bridge : rq.addr.space = 3)
    (free : h.brg.lock[rq.lane] = {}) (op : rq.op = opREAD) (await : h.awaits rq = true) {data : List Byte}
    (answer : ∀ k win was, Reached h rq k → k.serveLane false rq win was = k.answerRq false rq stOK 0 false false data) :
    (h.serve rq).out.head? = some (.completion rq.req rq.tag 0 0 false false data) ∧ (h.serve rq).lanes = h.lanes := by
  obtain ⟨k, win, was, reached, serve⟩ := Hub.serve_lane adm bridge free (.inl op)
  rw [serve, answer k win was reached, Hub.answer_awaited await reached.tag reached.isLocal (by decide) (.inl op)]
  exact ⟨rfl, reached.lanes⟩

theorem isRead_of_op {rq : Request} (op : rq.op = opREAD) : isRead rq.op = true := by
  rw [op]
  rfl

theorem isRead_of_write {rq : Request} (op : rq.op = opWRITE) : isRead rq.op = false := by
  rw [op]
  rfl

/-- LNnn_IO shows the lane's pins and its output latch. -/
theorem Hub.ioWord_of_fieldView {h k : Hub} (e : k.fieldView = h.fieldView) (n : Fin 64) : k.ioWord n = h.ioWord n := by
  have inv (p : Fin 3) : k.bit (F.LN_PIN_INV n p) = h.bit (F.LN_PIN_INV n p) := by
    have := Hub.laneFld_of_fieldView e n (0x40 + 4 * p.val, 10, 1)
    simp only [laneFld, ← Nat.add_assoc] at this
    exact congrArg (· != 0) this
  have level (p : Fin 3) : k.inLevel n p = h.inLevel n p := by
    rw [Hub.inLevel, Hub.inLevel, inv, Hub.lane_of_fieldView e]
  have out : k.fld (F.LN_IO_OUT n) = h.fld (F.LN_IO_OUT n) := Hub.laneFld_of_fieldView e n (0x24, 0, 3)
  have bits : k.inBits n = h.inBits n := by
    rw [Hub.inBits, Hub.inBits, level, level, level]
  have typed : k.typedBits (.lane n) 0x24 = h.typedBits (.lane n) 0x24 := by
    simp only [Hub.typedBits, Hub.lane_of_fieldView e, bits]
    rfl
  rw [Hub.ioWord, Hub.ioWord, typed, out]

/-! ## The end of an access (R71) -/

/-- The queue's only access ends with no slot and nothing to answer. -/
theorem Hub.devEnd_posted {h : Hub} {n : Fin 64} {d : DevReq} (runs : (h.lane n).devRun = true) (queue : (h.lane n).dev = [d])
    (noSlot : d.slot = none) (posted : d.rq.posted = true) (data : List Byte) :
    h.devEnd n stOK data = h.modLane n fun l => { l with dev := [], devRun := false } := by
  have ended := (LaneStep.start n [] h).mod fun l => { l with dev := [], devRun := false }
  have quiet (bs : List Byte) : (h.modLane n fun l => { l with dev := [], devRun := false }).respond d.rq stOK 0 false false bs =
      h.modLane n fun l => { l with dev := [], devRun := false } := by
    unfold Hub.respond
    rw [if_pos posted, if_pos rfl]
  unfold Hub.devEnd
  rw [queue, runs]
  dsimp only
  rw [if_neg (by decide), noSlot]
  dsimp only
  rw [quiet]
  exact Hub.devStart_idle (by rw [ended.lane])

/-- The queue's only access ends in its slot. -/
theorem Hub.devEnd_slot {h : Hub} {n : Fin 64} {d : DevReq} {i : Fin 128} (runs : (h.lane n).devRun = true)
    (queue : (h.lane n).dev = [d]) (slot : d.slot = some i) (op : d.rq.op = opREAD) {data : List Byte} (fits : data.length ≤ d.rq.len) :
    h.devEnd n stOK data = (h.modLane n fun l => { l with dev := [], devRun := false }).slotEnd i stOK data := by
  have ended := (LaneStep.start n [] h).mod fun l => { l with dev := [], devRun := false }
  unfold Hub.devEnd
  rw [queue, runs]
  dsimp only
  rw [if_neg (by decide), slot, isRead_of_op op, List.take_of_length_le fits]
  refine Hub.devStart_idle ?_
  rw [Hub.lane_of_fieldView (Hub.slotEnd_fieldView _ _ _ _), ended.lane]

/-- The device has answered the access that runs. -/
theorem Hub.deviceDone_ok {h : Hub} {n : Fin 64} {d : DevReq} (runs : (h.lane n).devRun = true) (queue : (h.lane n).dev = [d])
    (data : List Byte) : h.deviceDone n (.ok data) = if h.isPd n d.rq then h.pdDone n d.rq else h.devEnd n stOK data := by
  unfold Hub.deviceDone
  rw [runs, queue]
  rfl

/-- The hub whose lane's bus is free again. -/
def Hub.busFree (h : Hub) (n : Fin 64) : Hub := h.modLane n fun l => { l with dev := [], devRun := false }

theorem LaneStep.busFree (h : Hub) (n : Fin 64) : LaneStep n [] { h.lane n with dev := [], devRun := false } h (h.busFree n) := by
  unfold Hub.busFree
  exact (LaneStep.start n [] h).modTo rfl

/-- A posted write of process data ends: its bytes are staged for the next cycle. -/
theorem Hub.pdDone_write {h : Hub} {n : Fin 64} {d : DevReq} (runs : (h.lane n).devRun = true) (queue : (h.lane n).dev = [d])
    (noSlot : d.slot = none) (posted : d.rq.posted = true) (op : d.rq.op = opWRITE) :
    h.pdDone n d.rq =
      (h.modLane n fun l => { l with pdNext := d.rq.data ++ l.pdNext.drop d.rq.data.length }).busFree n := by
  have staged := (LaneStep.start n [] h).mod fun l => { l with pdNext := d.rq.data ++ l.pdNext.drop d.rq.data.length }
  unfold Hub.pdDone
  rw [isRead_of_write op, if_neg (by decide)]
  exact Hub.devEnd_posted ((staged.part Lane.devRun).trans runs) ((staged.part Lane.dev).trans queue) noSlot posted []

/-- A read of process data that has them all ends with the latched bytes. -/
theorem Hub.pdDone_read {h : Hub} {n : Fin 64} {d : DevReq} {i : Fin 128} (runs : (h.lane n).devRun = true)
    (queue : (h.lane n).dev = [d]) (slot : d.slot = some i) (op : d.rq.op = opREAD) (whole : d.rq.len ≤ (h.lane n).pdIn.length) :
    h.pdDone n d.rq = (h.busFree n).slotEnd i stOK ((h.lane n).pdIn.take d.rq.len) := by
  unfold Hub.pdDone Hub.fit
  rw [isRead_of_op op, if_pos rfl, if_pos whole]
  exact Hub.devEnd_slot runs queue slot op (List.length_take_le _ _)

/-- A register of a PINS lane, as a read of the bridge shows it. -/
def Hub.pinsWord (h : Hub) (rq : Request) : List Byte :=
  if rq.dev % 16 = 0 then leBytes (BitVec.ofNat 32 ((h.count F.BRG_NPCNT).ioWord rq.lane)) else leBytes (h.cfg rq.lane 1)

theorem Reached.pinsWord {h k : Hub} {rq : Request} (p : Reached h rq k) :
    (if rq.dev % 16 = 0 then leBytes (BitVec.ofNat 32 (k.ioWord rq.lane)) else leBytes (k.cfg rq.lane 1)) = h.pinsWord rq := by
  have count : (h.count F.BRG_NPCNT).fieldView = h.fieldView := h.count_fieldView rfl 1
  rw [Hub.pinsWord, Hub.ioWord_of_fieldView p.fieldView, Hub.ioWord_of_fieldView count, p.cfg]

section
variable {h : Hub} {rq : Request} (adm : h.admitsRq rq = true) (bridge : rq.addr.space = 3) (free : h.brg.lock[rq.lane] = {})
include adm bridge free

/-- The latest pair of an SSI lane. -/
theorem Hub.ssiRead {v w : W32} (kind : h.laneAcc rq = .ssi) (pair : (h.lane rq.lane).lastPair = some (v, w)) (len : rq.len = 8)
    (op : rq.op = opREAD) (await : h.awaits rq = true) :
    (h.serve rq).out.head? = some (.completion rq.req rq.tag 0 0 false false (leBytes v ++ leBytes w)) ∧
      (h.serve rq).lanes = h.lanes := by
  refine Hub.laneRead adm bridge free op await fun k win was reached => ?_
  unfold Hub.serveLane
  rw [reached.laneAcc, kind]
  dsimp only
  unfold Hub.serveSsi
  rw [reached.lane, pair, len]
  rfl

/-- The register named of a quadrature lane. -/
theorem Hub.quadRead (kind : h.laneAcc rq = .quad) (op : rq.op = opREAD) (await : h.awaits rq = true) :
    (h.serve rq).out.head? = some (.completion rq.req rq.tag 0 0 false false (leBytes (h.cfg rq.lane (1 + rq.dev % 16 / 4)))) ∧
      (h.serve rq).lanes = h.lanes := by
  refine Hub.laneRead adm bridge free op await fun k win was reached => ?_
  unfold Hub.serveLane
  rw [reached.laneAcc, kind]
  dsimp only
  unfold Hub.serveQuad
  rw [← reached.cfg]
  exact if_pos (isRead_of_op op)

/-- LNnn_IO or the DUTY word of a PINS lane. -/
theorem Hub.pinsRead (kind : h.laneAcc rq = .pins) (op : rq.op = opREAD) (await : h.awaits rq = true) :
    (h.serve rq).out.head? = some (.completion rq.req rq.tag 0 0 false false (h.pinsWord rq)) ∧ (h.serve rq).lanes = h.lanes := by
  refine Hub.laneRead adm bridge free op await fun k win was reached => ?_
  unfold Hub.serveLane
  rw [reached.laneAcc, kind]
  dsimp only
  unfold Hub.servePins
  rw [← reached.pinsWord]
  exact if_pos (isRead_of_op op)

/-- A posted write of DUTY takes effect. -/
theorem Hub.dutyWrite (kind : h.laneAcc rq = .pins) (op : rq.op = opWRITE) (posted : rq.posted = true) (duty : rq.dev % 16 = 4) :
    (h.serve rq).cfg rq.lane 1 = (h.cfg rq.lane 1 &&& 0xFF000000#32) ||| (leWord rq.data &&& 0xFFFFFF#32) ∧
      ∀ m : Fin 64, m ≠ rq.lane → (h.serve rq).lanes[m] = h.lanes[m] := by
  obtain ⟨k, win, was, reached, serve⟩ := Hub.serve_lane adm bridge free (.inr op)
  have written : h.serve rq = k.setCfg rq.lane 1 ((k.cfg rq.lane 1 &&& 0xFF000000#32) ||| (leWord rq.data &&& 0xFFFFFF#32)) := by
    rw [serve]
    unfold Hub.serveLane
    rw [reached.laneAcc, kind]
    dsimp only
    unfold Hub.servePins
    dsimp only
    rw [isRead_of_write op, if_neg (by decide), if_neg (by omega), Hub.answer_posted posted]
  have run := (LaneStep.start rq.lane [lrCFG 1] k).setCfg (i := 1) (by simp)
    ((k.cfg rq.lane 1 &&& 0xFF000000#32) ||| (leWord rq.data &&& 0xFFFFFF#32))
  rw [written]
  refine ⟨?_, fun m hm => ?_⟩
  · rw [Hub.cfg_setCfg_same _ _ (by decide), reached.cfg]
  · rw [run.others m hm]
    simp only [reached.lanes]

end

/-- Settles O13: an admitted request reaches its lane (`serve_lane`), where each clause is the rule of its kind of access;
the end of an access frees the bus. -/
theorem deviceAccesses : Obligations.DeviceAccesses := by
  unfold Obligations.DeviceAccesses
  refine ⟨fun rq s adm bridge free spi kind op posted _ idle still closed empty => ?spi,
    fun rq s adm bridge free i2c kind op posted _ idle still closed empty => ?i2c,
    fun rq s adm bridge free sdci kind op posted _ idle still closed empty => ?isdu,
    fun rq s adm bridge free sdci kind op posted _ idle still closed empty => ?pd,
    fun rq v w s adm bridge free ssi kind pair len op await => ?ssi,
    fun rq s adm bridge free quad kind op await => ?quad, fun rq s adm bridge free pins kind op await => ?pins,
    fun rq s adm bridge free pins kind op posted duty => ?duty,
    fun n data d s runs queue noSlot posted bus => ?ended, fun n data d s runs queue noSlot posted pd op => ?staged,
    fun n data d i s runs queue slot pd op whole => ?latched⟩
  case spi =>
    refine (runs_iff rfl).mpr ?_
    rw [Hub.serveAs_ok bridge (by rw [spi, kind]; decide)]
    exact Hub.deviceWrite adm bridge free (.inl kind) op posted idle still closed empty
  case i2c =>
    refine (runs_iff rfl).mpr ?_
    rw [Hub.serveAs_ok bridge (by rw [i2c, kind]; decide)]
    exact Hub.deviceWrite adm bridge free (.inl kind) op posted idle still closed empty
  case isdu =>
    refine (runs_iff rfl).mpr ?_
    rw [Hub.serveAs_ok bridge (by rw [sdci, kind]; decide)]
    exact Hub.deviceWrite adm bridge free (.inl kind) op posted idle still closed empty
  case pd =>
    refine (runs_iff rfl).mpr ?_
    rw [Hub.serveAs_ok bridge (by rw [kind]; decide)]
    exact Hub.deviceWrite adm bridge free (.inr kind) op posted idle still closed empty
  case ssi =>
    refine (runs_iff rfl).mpr ?_
    rw [Hub.serveAs_ok bridge (by rw [ssi, kind]; decide)]
    exact Hub.ssiRead adm bridge free kind pair len op await
  case quad =>
    refine (runs_iff rfl).mpr ?_
    rw [Hub.serveAs_ok bridge (by rw [quad, kind]; decide)]
    exact Hub.quadRead adm bridge free kind op await
  case pins =>
    refine (runs_iff rfl).mpr ?_
    rw [Hub.serveAs_ok bridge (by rw [pins, kind]; decide)]
    exact Hub.pinsRead adm bridge free kind op await
  case duty =>
    refine (runs_iff rfl).mpr ?_
    rw [Hub.serveAs_ok bridge (by rw [pins, kind]; decide)]
    exact Hub.dutyWrite adm bridge free kind op posted duty
  case ended =>
    refine (runs_iff rfl).mpr ?_
    have run := LaneStep.busFree s.hub n
    rw [Hub.deviceDone_ok runs queue, bus, if_neg (by decide), Hub.devEnd_posted runs queue noSlot posted]
    exact ⟨run.part Lane.dev, run.part Lane.devRun, rfl, run.others⟩
  case staged =>
    refine (runs_iff rfl).mpr ?_
    have run := ((LaneStep.start n [] s.hub).mod fun l =>
      { l with pdNext := d.rq.data ++ l.pdNext.drop d.rq.data.length }).mod fun l => { l with dev := [], devRun := false }
    rw [Hub.deviceDone_ok runs queue, pd, if_pos rfl, Hub.pdDone_write runs queue noSlot posted op]
    exact ⟨run.part Lane.dev, run.part Lane.devRun, run.part Lane.pdNext, rfl, run.others⟩
  case latched =>
    refine (runs_iff rfl).mpr ?_
    rw [Hub.deviceDone_ok runs queue, pd, if_pos rfl]
    exact Hub.pdDone_read runs queue slot op whole

end Sys2Proof.Machine
end

section
/-! PROOFS. Pushes and pops of a lane's FIFOs by register and by STREAM access (O7). -/

namespace Sys2Proof.Machine

/-! ## Pushes (R48) -/

section
variable {h : Hub} {n : Fin 64}

theorem Fifo.push_room {f : Fifo} (room : f.q.length < 64) (w : FifoWord) :
    f.push w = ({ f with q := f.q ++ [w], wr := f.wr + 1 }, true) := if_pos room

theorem Fifo.push_full {f : Fifo} (full : 64 ≤ f.q.length) (w : FifoWord) : f.push w = (f, false) := if_neg (by omega)

/-- A word pushed into a lane that sends nothing by itself. -/
theorem Hub.pushTx_room (live : h.ln n ≠ lnDOWN) (room : (h.lane n).tx.q.length < 64) (noUart : h.fn n ≠ 1)
    (still : (h.lane n).stretch = false) (v : W32) : h.pushTx n v = h.modLane n fun l =>
      { l with tx := ((h.lane n).tx.push { w := v, time := h.now }).1 } := by
  have pushed := (LaneStep.start n [] h).mod fun l => { l with tx := ((h.lane n).tx.push { w := v, time := h.now }).1 }
  rw [Fifo.push_room room] at pushed ⊢
  unfold Hub.pushTx
  rw [if_neg live, Fifo.push_room room]
  dsimp only at pushed ⊢
  rw [Hub.uartBegin_idle (.inl ((pushed.fn rfl).trans_ne noUart)), Hub.unstretch_idle (by rw [pushed.lane]; exact still)]

/-- A push that is lost. -/
theorem Hub.pushTx_lost (full : 64 ≤ (h.lane n).tx.q.length) (v : W32) : h.pushTx n v = h.laneFlags n [lfTX_OVF] := by
  unfold Hub.pushTx
  rw [Fifo.push_full full]
  split <;> rfl

end

/-- Words pushed into a lane that sends nothing by itself. -/
theorem LaneStep.pushAll {n : Fin 64} {L : Lane} {h k : Hub} (p : LaneStep n [] L h k) (ws : List W32)
    (live : h.ln n ≠ lnDOWN) (room : L.tx.q.length + ws.length ≤ 64) (noUart : h.fn n ≠ 1) (still : L.stretch = false) :
    LaneStep n [] { L with tx := L.tx.pushAll ws true h.now } h (ws.foldl (fun h w => h.pushTx n w) k) := by
  induction ws generalizing L k with
  | nil => exact p
  | cons w ws ih =>
    rw [List.length_cons] at room
    have fits : L.tx.q.length < 64 := by omega
    have eq := Hub.pushTx_room (h := k) (n := n) ((p.ln rfl).trans_ne live) (by rw [p.lane]; exact fits)
      ((p.fn rfl).trans_ne noUart) (by rw [p.lane]; exact still) w
    rw [List.foldl_cons, eq, p.lane, p.now]
    refine ih (L := { L with tx := (L.tx.push { w := w, time := h.now }).1 }) (p.modTo rfl) ?_ still
    rw [Fifo.push_room fits]
    simp only [List.length_append, List.length_singleton]
    omega

/-! ## Pops (R43, R48, R49) -/

abbrev lrRXREQ : LaneReg := (0x20, 8, 4)
abbrev lrRXEMPTY : LaneReg := (0x20, 1, 1)
abbrev lrRXPOISON : LaneReg := (0x20, 0, 1)

/-- The registers that a pop writes. -/
abbrev rxTagRegs : List LaneReg := [lrRXREQ, lrRXEMPTY, lrRXPOISON]

/-- RXTAG as a pop leaves it. -/
structure Tagged (n : Fin 64) (req : Nat) (empty poison : Bool) (h : Hub) : Prop where
  req : h.fld (F.LN_RXTAG_REQ n) = req
  empty : h.bit (F.LN_RXTAG_EMPTY n) = empty
  poison : h.bit (F.LN_RXTAG_POISON n) = poison

/-- RXTAG written: the requester, then EMPTY, then POISON. -/
def Hub.rxMarked (h : Hub) (n : Fin 64) (req : BitVec 4) (empty poison : Bool) : Hub :=
  ((h.put (F.LN_RXTAG_REQ n) req.toNat).putB (F.LN_RXTAG_EMPTY n) empty).putB (F.LN_RXTAG_POISON n) poison

theorem Hub.rxMarked_tagged (h : Hub) (n : Fin 64) (req : BitVec 4) (empty poison : Bool) :
    Tagged n req.toNat empty poison (h.rxMarked n req empty poison) := by
  have ne {r x : LaneReg} (e : r.1 * 32 + r.2.1 ≠ x.1 * 32 + x.2.1) (k : Hub) (v : Nat) :
      (k.put (laneFld n x) v).fld (laneFld n r) = k.fld (laneFld n r) := Hub.fld_put_ne _ _ _ _ (laneFld_ne e)
  have bit (b : Bool) : (b2n b % 2 ^ 1 != 0) = b := by cases b <;> rfl
  refine ⟨?_, ?_, ?_⟩
  · refine (ne (r := lrRXREQ) (x := lrRXPOISON) (by decide) _ _).trans ?_
    refine (ne (r := lrRXREQ) (x := lrRXEMPTY) (by decide) _ _).trans ?_
    exact (Hub.fld_put_same h _ _).trans (Nat.mod_eq_of_lt req.isLt)
  · refine (congrArg (· != 0) (ne (r := lrRXEMPTY) (x := lrRXPOISON) (by decide) _ _)).trans ?_
    exact (congrArg (· != 0) (Hub.fld_put_same _ _ _)).trans (bit empty)
  · exact (congrArg (· != 0) (Hub.fld_put_same _ _ _)).trans (bit poison)

/-- What a step that writes no RXTAG leaves of it. -/
theorem Tagged.step {n : Fin 64} {l : List LaneReg} {L : Lane} {h k : Hub} {req : Nat} {empty poison : Bool}
    (t : Tagged n req empty poison h) (p : LaneStep n l L h k)
    (off : rxTagRegs.all (fun r => r.off l) = true) : Tagged n req empty poison k := by
  simp only [List.all_cons, List.all_nil, Bool.and_true, Bool.and_eq_true] at off
  obtain ⟨reqOff, emptyOff, poisonOff⟩ := off
  exact ⟨(p.fld lrRXREQ reqOff).trans t.req, (congrArg (· != 0) (p.fld lrRXEMPTY emptyOff)).trans t.empty,
    (congrArg (· != 0) (p.fld lrRXPOISON poisonOff)).trans t.poison⟩

theorem LaneStep.rxMarked {n : Fin 64} {l : List LaneReg} {L : Lane} {h k : Hub} (p : LaneStep n l L h k) (mem : rxTagRegs ⊆ l)
    (req : BitVec 4) (empty poison : Bool) : LaneStep n l L h (k.rxMarked n req empty poison) := by
  unfold Hub.rxMarked
  exact ((p.put (r := lrRXREQ) (mem (by simp)) _).put (r := lrRXEMPTY) (mem (by simp)) _).put (r := lrRXPOISON) (mem (by simp)) _

/-- The hub whose lane's receive FIFO has been popped, with RXTAG as the pop leaves it. -/
def Hub.rxTaken (h : Hub) (n : Fin 64) (rx : Fifo → Fifo) (req : BitVec 4) (bad : Bool) : Hub :=
  (h.modLane n fun l => { l with rx := rx l.rx }).rxMarked n req false bad

theorem Hub.rxTaken_tagged (h : Hub) (n : Fin 64) (rx : Fifo → Fifo) (req : BitVec 4) (bad : Bool) :
    Tagged n req.toNat false bad (h.rxTaken n rx req bad) := Hub.rxMarked_tagged _ n req false bad

theorem LaneStep.rxTaken {n : Fin 64} {l : List LaneReg} {L : Lane} {h k : Hub} (p : LaneStep n l L h k) (mem : rxTagRegs ⊆ l)
    (rx : Fifo → Fifo) (req : BitVec 4) (bad : Bool) : LaneStep n l { L with rx := rx L.rx } h (k.rxTaken n rx req bad) := by
  unfold Hub.rxTaken
  exact (p.mod fun l => { l with rx := rx l.rx }).rxMarked mem req false bad

/-- A pop of a good word. -/
theorem Hub.popRx_good {h : Hub} {n : Fin 64} {w : FifoWord} {q : List FifoWord} (held : (h.lane n).rx.q = w :: q)
    (good : w.good = true) (req : BitVec 4) :
    h.popRx n req = (h.rxTaken n (fun _ => (h.lane n).rx.pop.1) req false, w.w.toNat) := by
  have popped : ((h.put (F.LN_RXTAG_REQ n) req.toNat).lane n).rx.pop = ((h.lane n).rx.pop.1, some w) := by
    change (h.lane n).rx.pop = _
    rw [Fifo.pop, held]
  unfold Hub.popRx
  dsimp only
  rw [popped]
  dsimp only
  rw [good]
  rfl

theorem Fifo.pop_q {f : Fifo} {w : FifoWord} {q : List FifoWord} (held : f.q = w :: q) : f.pop.1.q = q := by
  rw [Fifo.pop, held]

/-- A pop of an empty FIFO. -/
theorem Hub.popRx_empty {h : Hub} {n : Fin 64} (empty : (h.lane n).rx.q = []) (quiet : h.quietLane n = true) (req : BitVec 4) :
    ∃ k, h.popRx n req = (k, 0) ∧ Tagged n req.toNat true false k ∧ k.lanes = h.lanes ∧
      k.bit (laneFld n (lrFlag lfRX_UDF)) = true := by
  have none : ((h.put (F.LN_RXTAG_REQ n) req.toNat).lane n).rx.pop.2 = Option.none := by
    change (h.lane n).rx.pop.2 = _
    rw [Fifo.pop, empty]
  have tag := h.rxMarked_tagged n req true false
  have run := (LaneStep.start n rxTagRegs h).rxMarked (List.Subset.refl _) req true false
  have eq : h.popRx n req = ((h.rxMarked n req true false).laneFlags n [lfRX_UDF], 0) := by
    unfold Hub.popRx
    dsimp only
    split
    · rfl
    · rename_i found
      rw [found] at none
      cases none
  rw [eq]
  generalize h.rxMarked n req true false = k at tag run
  have flagged := (LaneStep.start n [lrFlag lfRX_UDF] k).flags (run.quiet.trans quiet) [lfRX_UDF] (by simp)
  exact ⟨_, rfl, tag.step flagged (by decide), (k.laneFlags_lanes n _).trans (run.lanes.trans (h.lanes_set_self n)),
    k.laneFlags_bit n (by simp)⟩

/-! ## STREAM accesses (R49, R70) -/

theorem LaneStep.isLocal {n : Fin 64} {l : List LaneReg} {L : Lane} {h k : Hub} (p : LaneStep n l L h k) (rq : Request) :
    k.isLocal rq = h.isLocal rq :=
  Hub.isLocal_congr (p.low (f := F.GLB_SELF_NODE) (by decide)) (p.low (f := F.GLB_STRAP_MEMBER) (by decide)) rq


theorem leWords_length (k : Nat) (data : List Byte) : (leWords k data).length = k := by
  induction k generalizing data with
  | zero => rfl
  | succ k ih => rw [leWords, List.length_cons, ih]

theorem LogOnly.isLocal {h k : Hub} (p : LogOnly h k) (rq : Request) : k.isLocal rq = h.isLocal rq :=
  Hub.isLocal_congr (p.regs F.GLB_SELF_NODE (.inl (by decide))) (p.regs F.GLB_STRAP_MEMBER (.inl (by decide))) rq

/-- What cores take of a lane's events is kept on the way to it. -/
theorem Reached.quiet {h k : Hub} {rq : Request} (p : Reached h rq k) (n : Fin 64) : k.quietLane n = h.quietLane n := by
  have outside {f : Fld} (e : 0xE0000 * 32 ≤ f.key) : k.fld f = h.fld f :=
    (p.side.regs f ((Fld.inEch_iff f).mpr (.inr (by omega)))).trans (h.counted_fld rq (fun q => by
      rw [q] at e
      exact absurd e (by decide)) fun q => by
      rw [q] at e
      exact absurd e (by decide))
  unfold Hub.quietLane Hub.bit
  rw [outside (f := F.RFXC_LSUB_FLAG n) (by simp only [F.RFXC_LSUB_FLAG, Fld.key]; omega),
    outside (f := F.RFXC_LSUB_EDGE n) (by simp only [F.RFXC_LSUB_EDGE, Fld.key]; omega),
    outside (f := F.RFXC_LMAP_I_EN n) (by simp only [F.RFXC_LMAP_I_EN, Fld.key]; omega)]

theorem Hub.isLocal_of_awaits {h : Hub} {rq : Request} (await : h.awaits rq = true) : h.isLocal rq = true := by
  unfold Hub.awaits at await
  simp only [Bool.and_eq_true] at await
  exact await.1.2

section
variable {h : Hub} {rq : Request} (adm : h.admitsRq rq = true) (bridge : rq.addr.space = 3) (free : h.brg.lock[rq.lane] = {})
  (kind : h.laneAcc rq = .stream)
include adm bridge free kind

/-- A STREAM write reaches the lane's transmit FIFO. -/
theorem Hub.serve_streamWrite (op : rq.op = opWRITE) : ∃ k, Reached h rq k ∧ h.serve rq = k.streamWrite false rq := by
  obtain ⟨k, win, was, reached, serve⟩ := Hub.serve_lane adm bridge free (.inr op)
  refine ⟨k, reached, serve.trans ?_⟩
  unfold Hub.serveLane
  rw [reached.laneAcc, kind]
  dsimp only
  rw [isRead_of_write op, if_neg (by decide)]

/-- A STREAM read reaches the lane's receive FIFO. -/
theorem Hub.serve_streamRead (op : rq.op = opREAD) : ∃ k, Reached h rq k ∧ h.serve rq = k.streamRead false rq := by
  obtain ⟨k, win, was, reached, serve⟩ := Hub.serve_lane adm bridge free (.inl op)
  refine ⟨k, reached, serve.trans ?_⟩
  unfold Hub.serveLane
  rw [reached.laneAcc, kind]
  dsimp only
  rw [isRead_of_op op, if_pos rfl]

/-- A posted STREAM write that fits pushes every word. -/
theorem Hub.streamWrite_fits (op : rq.op = opWRITE) (posted : rq.posted = true) (noUart : h.fn rq.lane ≠ 1)
    (still : (h.lane rq.lane).stretch = false) (room : (h.lane rq.lane).tx.q.length + rq.len / 4 ≤ 64) :
    ((h.serve rq).lane rq.lane).tx.q = (h.lane rq.lane).tx.q ++ (leWords (rq.len / 4) rq.data).map (fun w =>
      { w := w, time := h.now }) ∧ ∀ m : Fin 64, m ≠ rq.lane → (h.serve rq).lanes[m] = h.lanes[m] := by
  obtain ⟨k, reached, serve⟩ := Hub.serve_streamWrite adm bridge free kind op
  have live : k.ln rq.lane ≠ lnDOWN := by
    rw [beq_iff_eq.mp reached.up]
    decide
  have pushed : h.serve rq = (leWords (rq.len / 4) rq.data).foldl (fun h w => h.pushTx rq.lane w) k := by
    rw [serve]
    unfold Hub.streamWrite
    dsimp only
    rw [if_neg (by rw [reached.lane]; omega), Hub.answer_posted posted]
  have fits : (k.lane rq.lane).tx.q.length + (leWords (rq.len / 4) rq.data).length ≤ 64 := by
    rw [reached.lane, leWords_length]
    exact room
  have run := (LaneStep.start rq.lane [] k).pushAll (leWords (rq.len / 4) rq.data) live fits ((reached.fn _).trans_ne noUart)
    (by rw [reached.lane]; exact still)
  rw [pushed]
  refine ⟨?_, fun m hm => ?_⟩
  · rw [run.part fun l => l.tx.q, Fifo.pushAll_q fits, reached.lane, reached.now]
  · rw [run.others m hm]
    simp only [reached.lanes]

/-- A posted STREAM write that does not fit pushes none. -/
theorem Hub.streamWrite_full (op : rq.op = opWRITE) (posted : rq.posted = true)
    (full : 64 < (h.lane rq.lane).tx.q.length + rq.len / 4) : (h.serve rq).lanes = h.lanes := by
  obtain ⟨k, reached, serve⟩ := Hub.serve_streamWrite adm bridge free kind op
  rw [serve]
  unfold Hub.streamWrite
  dsimp only
  rw [if_pos (by rw [reached.lane]; exact full), posted, if_pos rfl, if_pos rfl]
  exact (Hub.lanes_of_fieldView (Hub.respond_fieldView _ _ _ _ _ _ _)).trans ((k.laneFlags_lanes _ _).trans reached.lanes)

/-- A STREAM read pops the good words at the head and answers them. -/
theorem Hub.streamRead_good (op : rq.op = opREAD) (await : h.awaits rq = true) {w : FifoWord} {q : List FifoWord}
    (held : (h.lane rq.lane).rx.q = w :: q) (good : w.good = true) :
    (h.serve rq).out.head? = some (.completion rq.req rq.tag 0 0 false false
      ((Fifo.popGood (rq.len / 4) (h.lane rq.lane).rx []).2.flatMap leBytes)) ∧
      ((h.serve rq).lane rq.lane).rx = (Fifo.popGood (rq.len / 4) (h.lane rq.lane).rx []).1 ∧
      (h.serve rq).fld (F.LN_RXTAG_REQ rq.lane) = rq.req.toNat ∧
      ∀ m : Fin 64, m ≠ rq.lane → (h.serve rq).lanes[m] = h.lanes[m] := by
  obtain ⟨k, reached, serve⟩ := Hub.serve_streamRead adm bridge free kind op
  have here := reached.isLocal.trans (Hub.isLocal_of_awaits await)
  have read : h.serve rq = (k.rxTaken rq.lane (fun _ => (Fifo.popGood (rq.len / 4) (h.lane rq.lane).rx []).1) rq.req false).answerRq false rq stOK
      0 false false ((Fifo.popGood (rq.len / 4) (h.lane rq.lane).rx []).2.flatMap leBytes) := by
    rw [serve]
    unfold Hub.streamRead Hub.accessOf
    dsimp only
    rw [reached.lane, held, here]
    dsimp only
    rw [if_pos good]
    rfl
  have run := (LaneStep.start rq.lane rxTagRegs k).rxTaken (List.Subset.refl _)
    (fun _ => (Fifo.popGood (rq.len / 4) (h.lane rq.lane).rx []).1) rq.req false
  have tag := k.rxTaken_tagged rq.lane (fun _ => (Fifo.popGood (rq.len / 4) (h.lane rq.lane).rx []).1) rq.req false
  generalize k.rxTaken rq.lane (fun _ => (Fifo.popGood (rq.len / 4) (h.lane rq.lane).rx []).1) rq.req false = g at run tag read
  rw [read, Hub.answer_awaited await ((congrArg Brg.tag run.brg).trans reached.tag)
    ((run.isLocal rq).trans reached.isLocal) (by decide) (.inl op)]
  refine ⟨rfl, run.part Lane.rx, tag.req, fun m hm => ?_⟩
  refine (run.others m hm).trans ?_
  simp only [reached.lanes]

/-- A STREAM read whose first word fails its parity pops it and answers POISON. -/
theorem Hub.streamRead_bad (op : rq.op = opREAD) (await : h.awaits rq = true) (quiet : h.quietLane rq.lane = true)
    {w : FifoWord} {q : List FifoWord} (held : (h.lane rq.lane).rx.q = w :: q) (bad : w.good = false) :
    (h.serve rq).out.head? = some (.completion rq.req rq.tag 6 0 false false []) ∧
      ((h.serve rq).lane rq.lane).rx.q = q := by
  obtain ⟨k, reached, serve⟩ := Hub.serve_streamRead adm bridge free kind op
  have here := reached.isLocal.trans (Hub.isLocal_of_awaits await)
  have read : h.serve rq = (((k.rxTaken rq.lane (fun f => f.pop.1) rq.req true).laneFlags rq.lane [lfRX_POISON]).raise 2
      (laneUnit rq.lane) causePARITY ((h.lane rq.lane).rx.rd.toNat % 64)).answerRq false rq stPOISON := by
    rw [serve]
    unfold Hub.streamRead Hub.accessOf
    dsimp only
    rw [reached.lane, held, here]
    dsimp only
    rw [if_neg (by rw [bad]; decide)]
    rfl
  have quietHere : k.quietLane rq.lane = true := (reached.quiet rq.lane).trans quiet
  have run := ((LaneStep.start rq.lane (lrFlag lfRX_POISON :: rxTagRegs) k).rxTaken (List.subset_cons_self _ _)
    (fun f => f.pop.1) rq.req true).flags quietHere [lfRX_POISON] (by simp)
  generalize (k.rxTaken rq.lane (fun f => f.pop.1) rq.req true).laneFlags rq.lane [lfRX_POISON] = g at run read
  have logged : LogOnly g (g.raise 2 (laneUnit rq.lane) causePARITY ((h.lane rq.lane).rx.rd.toNat % 64)) :=
    g.raise_only _ _ _ _ _ _ _ _ (.inl (by decide))
  generalize g.raise 2 (laneUnit rq.lane) causePARITY ((h.lane rq.lane).rx.rd.toNat % 64) = e at logged read
  rw [read, Hub.answer_awaited await (by rw [logged.parts, run.brg, reached.tag])
    ((logged.isLocal rq).trans ((run.isLocal rq).trans reached.isLocal)) (by decide) (.inl op)]
  refine ⟨rfl, ?_⟩
  change (e.lane rq.lane).rx.q = q
  rw [Hub.lane_of_fieldView logged.fieldView, run.part Lane.rx, reached.lane]
  exact Fifo.pop_q held

end

/-- Settles O7: a push appends the word or loses it with its flag, a pop writes RXTAG (`Tagged`), and an admitted STREAM
access reaches its lane (`serve_streamWrite`, `serve_streamRead`). -/
theorem laneFifos : Obligations.LaneFifos := by
  unfold Obligations.LaneFifos
  refine ⟨fun a n v s admitted live room noUart still => ?push, fun a n v s admitted full quiet => ?lost,
    fun a n w q s admitted held good => ?pop, fun a n s admitted empty quiet => ?underflow,
    fun rq s adm bridge kind op posted free noUart still room => ?fits, fun rq s adm bridge kind op posted free full => ?full,
    fun rq w q s adm await bridge kind op free held good => ?read, fun rq w q s adm await bridge kind op free held bad quiet => ?poison⟩
  case push =>
    refine (runs_cmdDo rfl admitted).mpr ?_
    have run := (LaneStep.start n [] s.hub).mod fun l =>
      { l with tx := ((s.hub.lane n).tx.push { w := v, time := s.hub.now }).1 }
    rw [Hub.pushTx_room live room noUart still]
    refine ⟨(run.part fun l => l.tx.q).trans ?_, run.part Lane.rx, rfl, run.others⟩
    rw [Fifo.push_room room]
  case lost =>
    refine (runs_cmdDo rfl admitted).mpr ?_
    have run := (LaneStep.start n [lrFlag lfTX_OVF] s.hub).flags quiet [lfTX_OVF] (by simp)
    rw [Hub.pushTx_lost full]
    exact ⟨s.hub.laneFlags_lanes n _, s.hub.laneFlags_bit n (i := lfTX_OVF) (by simp), run.regs⟩
  case pop =>
    refine (runs_cmdRead rfl admitted (congrArg some (Hub.popRx_good held good a.req))).mpr ?_
    have run := (LaneStep.start n rxTagRegs s.hub).rxTaken (List.Subset.refl _) (fun _ => (s.hub.lane n).rx.pop.1) a.req false
    have tag := s.hub.rxTaken_tagged n (fun _ => (s.hub.lane n).rx.pop.1) a.req false
    have out : (s.hub.rxTaken n (fun _ => (s.hub.lane n).rx.pop.1) a.req false).out = s.hub.out := rfl
    rw [BitVec.ofNat_toNat, BitVec.setWidth_eq]
    generalize s.hub.rxTaken n (fun _ => (s.hub.lane n).rx.pop.1) a.req false = k at run tag out ⊢
    have rx : (k.lane n).rx.q = q := (run.part fun l => l.rx.q).trans (Fifo.pop_q held)
    exact ⟨congrArg (_ :: ·) out, rx, tag.req, tag.empty, tag.poison, (run.emit _).parts, run.regs, run.others⟩
  case underflow =>
    obtain ⟨k, popped, tag, lanes, flag⟩ := Hub.popRx_empty empty quiet a.req
    refine (runs_cmdRead rfl admitted (congrArg some popped)).mpr ?_
    exact ⟨rfl, lanes, tag.empty, tag.req, flag⟩
  case fits =>
    refine (runs_iff rfl).mpr ?_
    rw [Hub.serveAs_ok bridge (by rw [kind, op]; decide)]
    exact Hub.streamWrite_fits adm bridge free kind op posted noUart still room
  case full =>
    refine (runs_iff rfl).mpr ?_
    rw [Hub.serveAs_ok bridge (by rw [kind, op]; decide)]
    exact Hub.streamWrite_full adm bridge free kind op posted full
  case read =>
    refine (runs_iff rfl).mpr ?_
    rw [Hub.serveAs_ok bridge (by rw [kind, op]; decide)]
    exact Hub.streamRead_good adm bridge free kind op await held good
  case poison =>
    refine (runs_iff rfl).mpr ?_
    rw [Hub.serveAs_ok bridge (by rw [kind, op]; decide)]
    exact Hub.streamRead_bad adm bridge free kind op await quiet held bad

end Sys2Proof.Machine
end

section
/-! PROOFS. Encodings (O58): an instruction's opcode and fields, and a header's words, are read back out of what was put
together. -/

namespace Sys2Proof.Machine

/-! ## Reed instructions (Table 3.3) -/

/-- The opcode of an instruction (Table 3.3). -/
def ReedIns.opcode : ReedIns → BitVec 6
  | .nop => 0x00
  | .halt => 0x01
  | .li .. => 0x02
  | .lih .. => 0x03
  | .alu .. => 0x04
  | .alui .. => 0x05
  | .br .. => 0x06
  | .djnz .. => 0x07
  | .jmp .. => 0x08
  | .call .. => 0x09
  | .ret => 0x0A
  | .tset .. => 0x10
  | .tadd .. => 0x11
  | .taddb => 0x12
  | .waitt => 0x13
  | .wedge .. => 0x14
  | .act .. => 0x18
  | .actg .. => 0x19
  | .sho .. => 0x1A
  | .shi .. => 0x1B
  | .bpin .. => 0x1C
  | .pull .. => 0x20
  | .push .. => 0x21
  | .sig .. => 0x22
  | .frd .. => 0x23
  | .fwr .. => 0x24
  | .movs .. => 0x28
  | .movt .. => 0x29

/-- Bits [31:26] of an instruction's word are its opcode. -/
theorem encodeReed_opcode (i : ReedIns) : (encodeReed i).extractLsb' 26 6 = i.opcode := by
  cases i <;> simp (disch := decide) [-Nat.reduceAdd, encodeReed, ReedIns.opcode, BitVec.extractLsb'_append_eq_of_le]

/-- Decoding goes by the opcode, and each field lies whole in one part of the word. -/
theorem decodeReed_encodeReed (i : ReedIns) : decodeReed (encodeReed i) = some i := by
  unfold decodeReed
  rw [encodeReed_opcode]
  cases i <;> simp (disch := decide) [-Nat.reduceAdd, encodeReed, ReedIns.opcode, fieldA, fieldB, fieldF, fieldP, fieldI,
    fieldT, BitVec.extractLsb'_append_eq_of_le, BitVec.extractLsb'_append_eq_of_add_le, -BitVec.getLsbD_eq_getElem,
    BitVec.getLsbD_append]

theorem decodeReed_isNone (w : W32) : (decodeReed w).isNone = !([0, 1, 2, 3, 4, 5, 6, 7, 8, 9, 0xA, 0x10, 0x11, 0x12, 0x13,
    0x14, 0x18, 0x19, 0x1A, 0x1B, 0x1C, 0x20, 0x21, 0x22, 0x23, 0x24, 0x28, 0x29].contains (w.bits 31 26)) := by
  have opcode : w.bits 31 26 = (w.extractLsb' 26 6).toNat := by simp [W32.bits]
  rw [opcode]
  unfold decodeReed
  split <;> simp_all

/-! ## Frame headers (Table 9.1) -/

/-- An address cut as a header's words cut it, and joined again. -/
theorem extractLsb'_thirds (a : BitVec 64) :
    (a.extractLsb' 48 16 ++ a.extractLsb' 16 32 ++ a.extractLsb' 0 16 : BitVec 64) = a := by
  have upper : a.extractLsb' 48 16 ++ a.extractLsb' 16 32 = a.extractLsb' 16 48 :=
    BitVec.extractLsb'_append_extractLsb'_eq_extractLsb' (show 48 = 16 + 32 from rfl)
  have whole : a.extractLsb' 16 48 ++ a.extractLsb' 0 16 = a.extractLsb' 0 64 :=
    BitVec.extractLsb'_append_extractLsb'_eq_extractLsb' (show 16 = 0 + 16 from rfl)
  calc a.extractLsb' 48 16 ++ a.extractLsb' 16 32 ++ a.extractLsb' 0 16
    _ = a.extractLsb' 16 48 ++ a.extractLsb' 0 16 := by rw [upper]
    _ = a := whole.trans BitVec.extractLsb'_eq_self

theorem header_decode_encode (hd : Header) : ∃ w0 w1 w2 w3 w4, hd.encode = [w0, w1, w2, w3, w4] ∧
    Header.decode w0 w1 w2 w3 w4 = hd := by
  refine ⟨_, _, _, _, _, rfl, ?_⟩
  simp (disch := decide) [-Nat.reduceAdd, Header.decode, BitVec.extractLsb'_append_eq_of_le,
    BitVec.extractLsb'_append_eq_of_add_le, -BitVec.getLsbD_eq_getElem, BitVec.getLsbD_append, extractLsb'_thirds]

/-- Settles O58: an instruction's fields, and a header's, lie side by side in what is sent, and decoding takes each out of
the part it was put in. -/
theorem encodingsRoundTrip : Obligations.EncodingsRoundTrip := by
  unfold Obligations.EncodingsRoundTrip
  refine ⟨decodeReed_encodeReed, decodeReed_isNone, fun hd => ?_⟩
  obtain ⟨w0, w1, w2, w3, w4, words, back⟩ := header_decode_encode hd
  rw [words]
  exact back

end Sys2Proof.Machine
end

section
/-! PROOFS. The frame of a reed engine's operation (O14-O19): engines and contexts after an update, the registers of an
engine's page, and an instruction in its own slot. -/

namespace Sys2Proof.Machine

/-! ## Engines and contexts -/

section
variable (h : Hub) (c : Fin 8) (x : Fin 16)

theorem Hub.reed_modReed_same (g : Reed → Reed) : (h.modReed c g).reed[c] = g h.reed[c] := Vector.getElem_set_self _

theorem Hub.reed_modReed_ne {c d : Fin 8} (e : d ≠ c) (g : Reed → Reed) : (h.modReed c g).reed[d] = h.reed[d] :=
  Vector.getElem_set_ne c.isLt d.isLt fun q => e (Fin.ext q.symm)

theorem Hub.cx_congr {h k : Hub} (e : k.reed = h.reed) (c : Fin 8) (x : Fin 16) : k.cx c x = h.cx c x := by
  unfold Hub.cx
  rw [e]

theorem Hub.ctr_congr {h k : Hub} (e : k.reed = h.reed) (c : Fin 8) : k.ctr c = h.ctr c := by
  unfold Hub.ctr
  rw [e]

theorem Hub.modReed_congr {f g : Reed → Reed} (e : f h.reed[c] = g h.reed[c]) : h.modReed c f = h.modReed c g := by
  simp only [Hub.modReed, e]

theorem Hub.modCtx_congr {f g : Ctx → Ctx} (e : f (h.cx c x) = g (h.cx c x)) : h.modCtx c x f = h.modCtx c x g := by
  refine h.modReed_congr c ?_
  rw [show f (h.reed[c]).ctx[x] = g (h.reed[c]).ctx[x] from e]

/-- A context after a change of its engine. -/
theorem Hub.cx_modReed (g : Reed → Reed) : (h.modReed c g).cx c x = (g h.reed[c]).ctx[x] := by
  unfold Hub.cx
  rw [Hub.reed_modReed_same]

theorem Hub.cx_modReed_keep {g : Reed → Reed} (keep : ∀ r, (g r).ctx = r.ctx) (y : Fin 16) :
    (h.modReed c g).cx c y = h.cx c y := by
  rw [Hub.cx_modReed, keep, Hub.cx]

@[simp] theorem Hub.cx_modCtx_same (g : Ctx → Ctx) : (h.modCtx c x g).cx c x = g (h.cx c x) := by
  rw [Hub.modCtx_eq, Hub.cx_modReed]
  exact Vector.getElem_set_self _

theorem Hub.cx_modCtx_ne {x y : Fin 16} (e : y ≠ x) (g : Ctx → Ctx) : (h.modCtx c x g).cx c y = h.cx c y := by
  rw [Hub.modCtx_eq, Hub.cx_modReed]
  exact Vector.getElem_set_ne x.isLt y.isLt fun q => e (Fin.ext q.symm)

theorem Hub.modReed_modReed (f g : Reed → Reed) : (h.modReed c f).modReed c g = h.modReed c fun r => g (f r) := by
  simp only [Hub.modReed, Fin.getElem_fin, Vector.getElem_set_self, Vector.set_set]

theorem Hub.modCtx_queue (g : Ctx → Ctx) : ((h.modCtx c x g).reed[c]).q = (h.reed[c]).q := by
  rw [Hub.modCtx_eq, Hub.reed_modReed_same]

theorem Hub.modCtx_modCtx (f g : Ctx → Ctx) : (h.modCtx c x f).modCtx c x g = h.modCtx c x fun t => g (f t) := by
  simp only [Hub.modCtx, Hub.modReed_modReed, Fin.getElem_fin, Vector.getElem_set_self, Vector.set_set]

/-- A change of a context leaves the other engines and the rest of the hub. -/
theorem Hub.modCtx_frame {h k : Hub} {c : Fin 8} {x : Fin 16} {g : Ctx → Ctx} (e : k = h.modCtx c x g) :
    k = { h with reed := k.reed } ∧ ∀ d : Fin 8, d ≠ c → k.reed[d] = h.reed[d] := by
  subst e
  exact ⟨rfl, fun _ other => h.reed_modReed_ne other _⟩

@[simp] theorem Hub.ctr_modCtx (g : Ctx → Ctx) : (h.modCtx c x g).ctr c = h.ctr c := h.ctr_modReed c c _ rfl

/-! ## An instruction in its slot (R76, R77, R83, R111) -/

/-- The hub whose engine c has run an instruction in this tick. -/
def Hub.inSlot : Hub := h.modReed c fun r => { r with ran := some h.now }

@[simp] theorem Hub.inSlot_cx : (h.inSlot c).cx c x = h.cx c x := h.cx_modReed c x _

@[simp] theorem Hub.inSlot_ctr : (h.inSlot c).ctr c = h.ctr c := h.ctr_modReed c c _ rfl

/-- An update of the context alone, in its slot, is seen by nobody else. -/
theorem Hub.inSlot_onlyCtx (g : Ctx → Ctx) : OnlyCtx c x h ((h.inSlot c).modCtx c x g) := by
  refine ⟨rfl, fun d e => ?_, ?_, fun y e => ?_⟩
  · exact (Hub.reed_modReed_ne _ e _).trans (h.reed_modReed_ne e _)
  · rw [Hub.inSlot, Hub.modCtx, Hub.modReed_modReed, Hub.reed_modReed_same]
  · exact (Hub.cx_modCtx_ne _ c e g).trans (h.inSlot_cx c y)

end

variable {h : Hub} {c : Fin 8} {x : Fin 16} {i : ReedIns} {f : ReedIns → Option (Hub → Hub)} {g : Hub → Hub}

theorem Hub.reedIs_iff : h.reedIs c x i = true ↔
    h.reedTurn c x = true ∧ (h.reed[c]).pmBad.contains (h.cx c x).r.pc = false ∧ decodeReed (h.reedWord c x) = some i := by
  simp [Hub.reedIs, and_assoc]

/-- A slot whose word spells an instruction does what the instruction means. -/
theorem Hub.reedSlot_is (is : h.reedIs c x i = true) (means : f i = some g) : h.reedSlot c x f = g (h.inSlot c) := by
  obtain ⟨turn, sound, word⟩ := Hub.reedIs_iff.mp is
  simp only [Hub.reedSlot, turn, sound, word, means, Bool.not_true, Bool.false_eq_true, if_false]
  rfl

variable {ins : Instr} {s : State} {P : Hub → Prop}

theorem runs_slot (e : exec ins s = s.goes (s.hub.reedSlot c x f)) (is : s.hub.reedIs c x i = true)
    (means : f i = some g) : Runs ins s P ↔ P (g (s.hub.inSlot c)) := by
  rw [runs_iff e, Hub.reedSlot_is is means]


/-! ## What an instruction does to its context alone -/

theorem Hub.inSlot_modCtx (h : Hub) (c : Fin 8) (x : Fin 16) (g : Ctx → Ctx) :
    ((h.inSlot c).modCtx c x g).cx c x = g (h.cx c x) ∧ OnlyCtx c x h ((h.inSlot c).modCtx c x g) :=
  ⟨by simp, h.inSlot_onlyCtx c x g⟩

/-- It completes. -/
theorem Hub.inSlot_done (h : Hub) (c : Fin 8) (x : Fin 16) (g : CtxRegs → CtxRegs) :
    ((h.inSlot c).done c x g).cx c x =
        { h.cx c x with wait := 0, r := { g (h.cx c x).r with pc := ((h.cx c x).r.pc + 1) % 2048 } } ∧
      OnlyCtx c x h ((h.inSlot c).done c x g) :=
  h.inSlot_modCtx c x _

/-- It completes and goes on at a target. -/
theorem Hub.inSlot_goTo (h : Hub) (c : Fin 8) (x : Fin 16) (pc : Nat) (g : CtxRegs → CtxRegs) :
    ((h.inSlot c).goTo c x pc g).cx c x = { h.cx c x with wait := 0, r := { g (h.cx c x).r with pc := pc } } ∧
      OnlyCtx c x h ((h.inSlot c).goTo c x pc g) :=
  h.inSlot_modCtx c x _

/-- It stalls. -/
theorem Hub.inSlot_stall (h : Hub) (c : Fin 8) (x : Fin 16) (w : Nat) :
    ((h.inSlot c).stall c x w).cx c x = { h.cx c x with wait := w } ∧ OnlyCtx c x h ((h.inSlot c).stall c x w) :=
  h.inSlot_modCtx c x _

/-! ## Registers of an engine's page -/

/-- The field of engine c, written as a lane's register: offset, lowest bit, width. -/
def reedFld (c : Fin 8) (r : LaneReg) : Fld := ⟨reedBase c + r.1, r.2.1, r.2.2⟩

theorem reedFld_key (c : Fin 8) (r : LaneReg) : (reedFld c r).key = reedBase c * 32 + (r.1 * 32 + r.2.1) := by
  simp only [reedFld, Fld.key]
  omega

theorem reedFld_ne {c : Fin 8} {r x : LaneReg} (e : r.1 * 32 + r.2.1 ≠ x.1 * 32 + x.2.1) :
    (reedFld c r).key ≠ (reedFld c x).key := by
  rw [reedFld_key, reedFld_key]
  omega

/-- A saturating count. -/
theorem Hub.fld_countSat_same (h : Hub) (f : Fld) (n : Nat) : (h.countSat f n).fld f = min (h.fld f + n) (2 ^ f.w - 1) := by
  have counted : (h.countSat f n).fld f = min (2 ^ f.w - 1) (h.fld f + n) % 2 ^ f.w := h.fld_put_same f _
  have pos : 0 < 2 ^ f.w := Nat.two_pow_pos f.w
  rw [counted, Nat.mod_eq_of_lt (by omega), Nat.min_comm]

theorem Hub.fld_countSat_ne (h : Hub) {f g : Fld} (e : g.key ≠ f.key) (n : Nat) : (h.countSat f n).fld g = h.fld g :=
  h.fld_put_ne f g _ e

theorem lowFld_ne_reed {f : Fld} (low : f.key < 0x100000 * 32) (c : Fin 8) (r : LaneReg) : f.key ≠ (reedFld c r).key := by
  rw [reedFld_key]
  simp only [reedBase, clusterBase]
  omega

abbrev rrHALT : LaneReg := (8, 0, 1)

/-! ## The frame -/

/-- An engine after a change of one of its contexts. -/
def Reed.modCtx (r : Reed) (x : Fin 16) (g : Ctx → Ctx) : Reed := { r with ctx := r.ctx.set x (g r.ctx[x]) }

@[simp] theorem Reed.ctx_modCtx_same (r : Reed) (x : Fin 16) (g : Ctx → Ctx) : (r.modCtx x g).ctx[x] = g r.ctx[x] :=
  Vector.getElem_set_self _

theorem Reed.modCtx_id (r : Reed) (x : Fin 16) : r.modCtx x id = r :=
  congrArg (fun v => { r with ctx := v }) (Vector.set_getElem_self _)

/-- What a step of engine c leaves of the hub: `l` are the registers of its page that may differ, `R` is the engine after
it. -/
structure ReedStep (c : Fin 8) (l : List LaneReg) (R : Reed) (h h' : Hub) : Prop where
  parts : h' = { h with fields := h'.fields, hw := h'.hw, reed := h'.reed, out := h'.out }
  regs : SameRegs h h' (l.map (reedFld c))
  reeds : h'.reed = h.reed.set c R

namespace ReedStep

theorem start (c : Fin 8) (l : List LaneReg) (h : Hub) : ReedStep c l h.reed[c] h h :=
  ⟨rfl, SameRegs.refl h _, (Vector.set_getElem_self _).symm⟩

section
variable {c : Fin 8} {l : List LaneReg} {R : Reed} {h k : Hub} (p : ReedStep c l R h k)
include p

/-! ### What it leaves -/

theorem engine : k.reed[c] = R := by
  rw [p.reeds]
  exact Vector.getElem_set_self _

theorem ctr (e : R.ctr = h.ctr c) : k.ctr c = h.ctr c := by rw [Hub.ctr, p.engine, e]

theorem ctx (x : Fin 16) : k.cx c x = R.ctx[x] := congrArg (fun r : Reed => r.ctx[x]) p.engine

theorem others (d : Fin 8) (e : d ≠ c) : k.reed[d] = h.reed[d] := by
  rw [p.reeds]
  exact Vector.getElem_set_ne _ _ fun q => e (Fin.ext q.symm)

theorem now : k.now = h.now := by rw [p.parts]

/-- A field of the page that is not listed. -/
theorem fld (r : LaneReg) (e : r.off l = true) : k.fld (reedFld c r) = h.fld (reedFld c r) := by
  refine p.regs _ fun f hf => ?_
  obtain ⟨x, hx, rfl⟩ := List.mem_map.mp hf
  have := List.all_eq_true.mp e x hx
  exact reedFld_ne (by simpa using this)

theorem bit (r : LaneReg) (e : r.off l = true) : k.bit (reedFld c r) = h.bit (reedFld c r) := by
  rw [Hub.bit, p.fld r e, Hub.bit]

/-- A step that counts nothing and tells nobody. -/
theorem quiet (hw : k.hw = h.hw) (out : k.out = h.out) : k = { h with fields := k.fields, reed := k.reed } := by
  have := p.parts
  rw [hw, out] at this
  exact this

/-- A step that tells nobody. -/
theorem silent (out : k.out = h.out) : k = { h with fields := k.fields, hw := k.hw, reed := k.reed } := by
  have := p.parts
  rw [out] at this
  exact this

/-- A step that is a write of registers. -/
theorem registers (reed : k.reed = h.reed) (out : k.out = h.out) : k = { h with fields := k.fields, hw := k.hw } := by
  have := p.parts
  rw [reed, out] at this
  exact this

/-! ### Steps that follow it -/

theorem put {r : LaneReg} (mem : r ∈ l) (v : Nat) : ReedStep c l R h (k.put (reedFld c r) v) := by
  refine ⟨?_, p.regs.put (List.mem_map_of_mem mem) v, p.reeds⟩
  rw [p.parts]
  rfl

theorem mark (key v : Nat) : ReedStep c l R h (k.mark key v) := by
  refine ⟨?_, p.regs, p.reeds⟩
  rw [p.parts]
  rfl

theorem emit (o : Out) : ReedStep c l R h (k.emit o) := by
  refine ⟨?_, p.regs, p.reeds⟩
  rw [p.parts]
  rfl

theorem flag (b : Block) {r : LaneReg} (mem : r ∈ l) : ReedStep c l R h (k.flag b (reedFld c r)) := by
  rcases k.flag_cases b (reedFld c r) with e | ⟨v, e⟩ <;> rw [e]
  · exact (p.put mem _).mark _ _
  · exact ((p.put mem _).mark _ _).emit _

theorem countSat {r : LaneReg} (mem : r ∈ l) (v : Nat) : ReedStep c l R h (k.countSat (reedFld c r) v) :=
  (p.put mem _).mark _ _

theorem peak {r : LaneReg} (mem : r ∈ l) (v : Nat) : ReedStep c l R h (k.peak (reedFld c r) v) := p.put mem _

theorem mod (g : Reed → Reed) : ReedStep c l (g R) h (k.modReed c g) := by
  refine ⟨?_, p.regs, ?_⟩
  · rw [p.parts]
    rfl
  · rw [Hub.modReed_reed, p.reeds, show (h.reed.set c R)[c] = R from Vector.getElem_set_self _]
    exact Vector.set_set _ _

theorem modCtx (x : Fin 16) (g : Ctx → Ctx) : ReedStep c l (R.modCtx x g) h (k.modCtx c x g) := p.mod fun r => r.modCtx x g

end

end ReedStep

/-- The slot of an instruction as a step of its engine. -/
theorem Hub.inSlot_step (h : Hub) (c : Fin 8) (l : List LaneReg) :
    ReedStep c l { h.reed[c] with ran := some h.now } h (h.inSlot c) :=
  (ReedStep.start c l h).mod fun r => { r with ran := some h.now }

end Sys2Proof.Machine
end

section
/-! PROOFS. Reed instructions on registers (O14), and the fault of a context (R104). -/

namespace Sys2Proof.Machine

/-! ## Faults (R104) -/

section
variable (h : Hub) (c : Fin 8) (x : Fin 16)

theorem Hub.countSat_reed (f : Fld) (n : Nat) : (h.countSat f n).reed = h.reed := rfl

theorem Hub.modPin_reed (n : Fin 64) (p : Fin 3) (g : Pin → Pin) : (h.modPin n p g).reed = h.reed := rfl

theorem Hub.raise_reed {cls : BitVec 2} (notFatal : cls ≠ 3) (u : UnitAt) (cause addr : Nat) :
    (h.raise cls u cause addr).reed = h.reed := by
  rw [(h.raise_only cls u cause addr _ _ _ _ (.inl notFatal)).parts]

theorem Hub.squash_cx (p : Action → Bool) (y : Fin 16) : (h.squash c p).cx c y = h.cx c y := by
  rw [Hub.squash, Hub.cx_congr (Hub.countSat_reed _ _ _), Hub.cx_modReed_keep _ _ (by exact fun _ => rfl)]

theorem Hub.squash_fld (p : Action → Bool) {f : Fld} (e : f.key ≠ (F.REED_SQUASHCNT_COUNT c).key) :
    (h.squash c p).fld f = h.fld f := Hub.fld_countSat_ne _ e _

theorem Hub.squash_others (p : Action → Bool) (d : Fin 8) (e : d ≠ c) : (h.squash c p).reed[d] = h.reed[d] := by
  rw [Hub.squash, Hub.countSat_reed, Hub.reed_modReed_ne _ e]

theorem Hub.squash_queue (p : Action → Bool) : ((h.squash c p).reed[c]).q = (h.reed[c]).q.filter fun e => !p e :=
  (congrArg (fun v : Vector Reed 8 => v[c].q) (Hub.countSat_reed _ _ _)).trans (congrArg Reed.q (h.reed_modReed_same c _))

theorem Hub.idlePins_reed : (h.idlePins c x).reed = h.reed := by
  refine List.foldlRecOn (motive := fun k : Hub => k.reed = h.reed) _ _ rfl fun k hk p _ => ?_
  split
  · exact (k.modPin_reed _ _ _).trans hk
  · exact hk

/-- A context after a fault. -/
def Ctx.faulted (t : Ctx) (cause : Nat) : Ctx :=
  { t with st := cxFAULT, wait := 0, cause := cause, samples := [], bits := 0, mid := false, wedge := none, held := none,
           fresh := true, r := { t.r with sc := 0 } }

theorem Hub.ctxFault_cx (cause : Nat) : (h.ctxFault c x cause).cx c x = (h.cx c x).faulted cause := by
  unfold Hub.ctxFault
  dsimp only
  rw [Hub.cx_congr (Hub.raise_reed _ (by decide) _ _ _), Hub.cx_congr (Hub.flag_reed _ _ _),
    Hub.cx_congr (Hub.idlePins_reed _ c x), Hub.cx_modCtx_same, Hub.squash_cx]
  rfl

theorem Hub.faultOr_plain {h : Hub} {c : Fin 8} {x : Fin 16} (plain : (h.cx c x).ckpt = []) (cause : Nat) :
    h.faultOr c x cause = h.ctxFault c x cause := by
  unfold Hub.faultOr
  exact if_pos (List.isEmpty_iff.mpr plain)

/-- What a slot faults with. -/
theorem Hub.inSlot_fault {h : Hub} {c : Fin 8} {x : Fin 16} (plain : (h.cx c x).ckpt = []) (cause : Nat) :
    ((h.inSlot c).faultOr c x cause).cx c x = (h.cx c x).faulted cause := by
  rw [Hub.faultOr_plain (by rw [Hub.inSlot_cx, plain]), Hub.ctxFault_cx, Hub.inSlot_cx]

@[simp] theorem Hub.inSlot_special (sel : Nat) : (h.inSlot c).special c x sel = h.special c x sel := by
  simp only [Hub.special, Hub.inSlot_cx, Hub.inSlot_ctr]

theorem CtxRegs.putSpecial_pc (r : CtxRegs) (sel : Nat) (v : W32) : (r.putSpecial sel v).pc = r.pc := by
  unfold CtxRegs.putSpecial
  split <;> rfl

end

/-- Settles O14: each instruction's slot is one change of its context. -/
theorem reedDataInstructions : Obligations.ReedDataInstructions := by
  unfold Obligations.ReedDataInstructions
  refine ⟨fun c x s is => ?nop, fun c x a k s is => ?li, fun c x a k s is => ?lih, fun c x a b f v s is val => ?alu,
    fun c x a f k v s is val => ?alui, fun c x a sel v s is val free => ?movs, fun c x a sel s is known free => ?movt,
    fun c x a sel s is unknown plain => ?movtFault⟩
  all_goals refine (runs_slot rfl is rfl).mpr ?_
  case nop => exact s.hub.inSlot_done c x id
  case li => exact s.hub.inSlot_done c x _
  case lih => exact s.hub.inSlot_done c x _
  case alu =>
    simp only [Hub.inSlot_cx, val]
    exact s.hub.inSlot_done c x _
  case alui =>
    simp only [Hub.inSlot_cx, val]
    exact s.hub.inSlot_done c x _
  case movs =>
    simp only [Hub.inSlot_cx, Hub.inSlot_special, Hub.inSlot_ctr, val]
    rw [if_neg fun busy => busy.2 (free busy.1)]
    obtain ⟨ctx, alone⟩ := s.hub.inSlot_done c x fun r =>
      if sel = 6 then { r.setG a v with cntHi := BitVec.ofNat 32 (s.hub.ctr c / 2 ^ 32) } else r.setG a v
    refine ⟨congrArg Ctx.wait ctx, (congrArg Ctx.r ctx).trans ?_, alone⟩
    split <;> rfl
  case movt =>
    simp only [Hub.inSlot_cx]
    rw [if_neg (by omega), if_neg fun busy => busy.2 (free busy.1)]
    obtain ⟨ctx, alone⟩ := s.hub.inSlot_done c x fun r => r.putSpecial sel.toNat (r.ga a)
    refine ⟨ctx.trans ?_, alone⟩
    rw [CtxRegs.next, CtxRegs.putSpecial_pc]
  case movtFault =>
    simp only [if_pos unknown]
    rw [Hub.inSlot_fault plain]
    exact ⟨rfl, rfl, rfl⟩

end Sys2Proof.Machine
end

section
/-! PROOFS. Reed instructions that steer (O15). -/

namespace Sys2Proof.Machine

/-- Settles O15: each instruction's slot is one change of its context; HALT raises its flag too. -/
theorem reedFlowInstructions : Obligations.ReedFlowInstructions := by
  unfold Obligations.ReedFlowInstructions
  refine ⟨fun c x a b k t s is cond => ?taken, fun c x a b k t s is cond => ?notTaken, fun c x a t s is => ?djnz,
    fun c x t s is => ?jmp, fun c x t s is => ?call, fun c x s is => ?ret, fun c x s is plain => ?halt, fun c x s is spec => ?stall⟩
  all_goals refine (runs_slot rfl is rfl).mpr ?_
  case taken =>
    simp only [Hub.inSlot_cx, cond]
    exact s.hub.inSlot_goTo c x _ _
  case notTaken =>
    simp only [Hub.inSlot_cx, cond]
    exact s.hub.inSlot_done c x _
  case djnz =>
    simp only [Hub.inSlot_cx]
    by_cases last : (s.hub.cx c x).r.ga a = 1
    · rw [if_neg (by simp [last]), if_pos last]
      exact s.hub.inSlot_done c x _
    · rw [if_pos fun zero => last (BitVec.sub_eq_iff_eq_add.mp zero), if_neg last]
      exact s.hub.inSlot_goTo c x _ _
  case jmp => exact s.hub.inSlot_goTo c x _ _
  case call => exact s.hub.inSlot_goTo c x _ _
  case ret =>
    simp only [Hub.inSlot_cx]
    exact s.hub.inSlot_goTo c x _ _
  case halt =>
    rw [if_neg (by simp [plain]), Hub.done, Hub.modCtx_modCtx]
    have run := ((s.hub.inSlot_step c [rrHALT]).modCtx x fun t => { t with st := cxHALT, wait := 0, r := t.r.next }).flag (.reed c)
      (r := rrHALT) (by simp)
    exact ⟨(run.ctx x).trans (Reed.ctx_modCtx_same _ x _), Hub.flag_bit_same _ _ _ rfl, run.parts, run.regs⟩
  case stall =>
    simp only [Hub.inSlot_cx, List.isEmpty_eq_false_iff.mpr spec, Bool.not_false, if_true]
    exact s.hub.inSlot_stall c x 3

end Sys2Proof.Machine
end

section
/-! PROOFS. Reed instructions on the time cursor (O16). -/

namespace Sys2Proof.Machine

/-- Whole ticks added to the cursor, in range, leave its tap (R85). -/
theorem CtxRegs.addTaps_ticks (r : CtxRegs) (k : Int) (tap : r.tap < 10) (low : 0 ≤ (r.tc : Int) + k)
    (high : (r.tc : Int) + k < 2 ^ 64) : r.addTaps (k * 10) = { r with tc := ((r.tc : Int) + k).toNat } := by
  have ticks : (((r.tc * 10 + r.tap : Nat) : Int) + k * 10) / 10 % ((2 ^ 64 : Nat) : Int) = r.tc + k := by
    rw [Int.emod_eq_of_lt] <;> omega
  have taps : ((((r.tc * 10 + r.tap : Nat) : Int) + k * 10) % 10).toNat = r.tap := by omega
  unfold CtxRegs.addTaps
  dsimp only
  rw [ticks, taps]

theorem add64_minus_two {n : Nat} (low : 2 ≤ n) (high : n < 2 ^ 64) : add64 n (2 ^ 64 - 2) = n - 2 := by
  unfold add64
  omega

theorem and_not_or_self {w : Nat} (a b : BitVec w) : (a &&& ~~~ b) ||| b = a ||| b := by
  ext i hi
  cases bit : b[i] <;> simp [bit]

theorem Hub.wedgeEnd_cx (h : Hub) (c : Fin 8) (x : Fin 16) (tc : Nat) (timeout : Bool) :
    ((h.wedgeEnd c x tc timeout).cx c x).wedge = (h.cx c x).wedge.map (fun w => (w.1, true)) ∧
      ((h.wedgeEnd c x tc timeout).cx c x).r = { (h.cx c x).r with
        tc := tc, tap := 0, cst := ((h.cx c x).r.cst &&& ~~~ 0x100#32) ||| (if timeout then 0x100#32 else 0) } := by
  rw [Hub.wedgeEnd, Hub.cx_modCtx_same]
  exact ⟨rfl, rfl⟩

/-- A context that waits in a WEDGE has its issue tick. -/
theorem Hub.wedgeOf_wedge {h : Hub} {c : Fin 8} {x : Fin 16} {iss e tmo : Nat} (waits : h.wedgeOf c x = some (iss, e, tmo)) :
    (h.cx c x).wedge = some (iss, false) := by
  unfold Hub.wedgeOf at waits
  split at waits
  · next wedge _ =>
    obtain ⟨rfl, -⟩ := Prod.mk.inj (Option.some.inj waits)
    exact wedge
  · exact absurd waits nofun

/-- Settles O16: each instruction's slot is one change of its context, and so is the end of a WEDGE. -/
theorem reedTimeInstructions : Obligations.ReedTimeInstructions := by
  unfold Obligations.ReedTimeInstructions
  refine ⟨fun c x k s is => (runs_slot rfl is rfl).mpr ?tset,
    fun c x k s is _ low high tap => (runs_slot rfl is rfl).mpr ?taddTicks,
    fun c x k s is => (runs_slot rfl is rfl).mpr ?taddTaps, fun c x s is => (runs_slot rfl is rfl).mpr ?taddb,
    fun c x s is come => (runs_slot rfl is rfl).mpr ?waittReached, fun c x s is early => (runs_slot rfl is rfl).mpr ?waittEarly,
    fun c x p e tmo s is pin edge fresh => (runs_slot rfl is rfl).mpr ?wedgeFirst,
    fun c x p e tmo i s is pin edge ended => (runs_slot rfl is rfl).mpr ?wedgeOver,
    fun c x rising iss e tmo s waits selects low high issued cursor => (runs_iff rfl).mpr ?edge,
    fun c x iss e tmo s waits timed come => (runs_iff rfl).mpr ?timeout⟩
  case tset =>
    simp only [Hub.inSlot_ctr]
    exact s.hub.inSlot_done c x fun r => { r with tc := add64 (s.hub.ctr c) k.toNat, tap := 0 }
  case taddTicks =>
    obtain ⟨ctx, alone⟩ := s.hub.inSlot_done c x fun r => r.addTaps (k.toInt * 10)
    refine ⟨ctx.trans ?_, alone⟩
    rw [CtxRegs.addTaps_ticks _ _ tap low high]
    rfl
  case taddTaps => exact s.hub.inSlot_done c x fun r => r.addTaps k.toInt
  case taddb => exact s.hub.inSlot_done c x CtxRegs.addBt
  case waittReached =>
    simp only [Hub.inSlot_ctr, Hub.inSlot_cx, come, if_true]
    exact s.hub.inSlot_done c x id
  case waittEarly =>
    simp only [Hub.inSlot_ctr, Hub.inSlot_cx, early, Bool.false_eq_true, if_false]
    exact s.hub.inSlot_stall c x 1
  case wedgeFirst =>
    simp only [Nat.not_le.mpr pin, edge, if_false, Hub.inSlot_cx, fresh, Hub.inSlot_ctr, Hub.stall, Hub.modCtx_modCtx]
    exact s.hub.inSlot_modCtx c x _
  case wedgeOver =>
    simp only [Nat.not_le.mpr pin, edge, if_false, Hub.inSlot_cx, ended, Hub.done, Hub.modCtx_modCtx]
    exact s.hub.inSlot_modCtx c x _
  case edge =>
    have found : e.testBit (if rising then 0 else 1) ∧ reached (s.hub.ctr c - 2) iss ∧
        reached (s.hub.ctr c - 2) (s.hub.cx c x).r.tc := ⟨selects, issued, cursor⟩
    simp only [waits, add64_minus_two low high, found, and_self, if_true]
    obtain ⟨wedge, regs⟩ := s.hub.wedgeEnd_cx c x (s.hub.ctr c - 2) false
    refine ⟨by rw [wedge, Hub.wedgeOf_wedge waits]; rfl, by simpa using regs, Hub.modCtx_frame rfl⟩
  case timeout =>
    have due : tmo ≠ 0 ∧ reached (s.hub.ctr c) (iss + 400 * tmo) := ⟨timed, come⟩
    simp only [waits, due, ne_eq, not_false_eq_true, and_self, if_true]
    obtain ⟨wedge, regs⟩ := s.hub.wedgeEnd_cx c x (add64 iss (400 * tmo)) true
    rw [if_pos rfl, and_not_or_self] at regs
    exact ⟨by rw [wedge, Hub.wedgeOf_wedge waits]; rfl, regs, Hub.modCtx_frame rfl⟩

end Sys2Proof.Machine
end

section
/-! PROOFS. SIG beside an event of the same cycle (O18). -/

namespace Sys2Proof.Machine

/-- Engine 2 is about to run SIG 7 for core 1, in whose queue a PULSE event raised in the same tick is the only entry. -/
def sigBesideHub : Hub :=
  let h := (State.reset.hub.on (F.REED_STAT_ACTIVE 2)).modReed 2 fun e => { e with pmem := [(0, encodeReed (.sig 7))], en := 1 }
  let h := (h.modCtx 2 0 fun t => { t with st := cxRUN }).put (F.RFXC_RSUB_CORES 2) 2
  (h.on (F.RFX_CTL_RUN 1)).modCore 1 fun c =>
    { c with evq := [{ typ := 4, unit := 0, w1 := 0, w2 := 0, w3 := 0, at_ := h.now }] }

theorem sigBesideHub_sig : sigBesideHub.reedIs 2 0 (.sig 7) = true ∧ (sigBesideHub.cx 2 0).ckpt = [] ∧
    sigBesideHub.paired = false ∧ sigBesideHub.fld (F.RFXC_RSUB_CORES 2) = 2 ^ (1 : Fin 8).val ∧
    sigBesideHub.bit (F.RFX_CTL_RUN 1) = true ∧ (sigBesideHub.core[1]).evq.length < 64 := by decide

/-- Refutes O18: its clause on SIG appends the event to the core's queue, but events of one cycle enter a queue in
ascending TYPE (R318), so that a SIG event (TYPE 3) goes before a PULSE event (TYPE 4) that the same tick has raised. The hub is the
one after reset with engine 2 running, core 1 running and subscribed, and such an event in its queue. -/
theorem not_reedFifosEventsAndFabric : ¬ Obligations.ReedFifosEventsAndFabric := by
  unfold Obligations.ReedFifosEventsAndFabric
  intro h
  obtain ⟨-, -, -, sig, -⟩ := h
  obtain ⟨is, plain, alone, one, on, room⟩ := sigBesideHub_sig
  have run := sig 2 0 7 1 ⟨[], sigBesideHub⟩ is plain alone one on room
  obtain ⟨appended, -⟩ := (runs_slot rfl is rfl).mp run
  exact absurd (congrArg (List.map EvEntry.typ) appended) (by decide)

end Sys2Proof.Machine
end

section
/-! PROOFS. Reed instructions on pins, the samples they ask for, and retiring actions (O17). -/

namespace Sys2Proof.Machine

/-! ## Queued actions (R86-R88) -/

/-- The high-water mark of the action queue. -/
abbrev rrPEAK : LaneReg := (0x4c, 16, 9)

/-- The entry of a context's action, put into the queue as the one numbered n. -/
def Ctx.action (t : Ctx) (x : Fin 16) (p v now n : Nat) : Action :=
  { due := t.r.tc, tap := t.r.tap, pin := p, v := v, src := .ctx x, depth := t.ckpt.length, ready := now + 4, idx := n }

/-- An engine with an action of context x queued. -/
def Reed.queued (r : Reed) (x : Fin 16) (p v now : Nat) : Reed :=
  { r with
    asked := some ⟨now, x, r.seq, (r.ctx[x]).r, (r.ctx[x]).bits, (r.ctx[x]).mid⟩
    q := r.q ++ [(r.ctx[x]).action x p v now r.seq]
    seq := r.seq + 1 }

theorem Hub.aqContext_quiet (h : Hub) (c : Fin 8) (x : Fin 16) (p v : Nat) :
    (h.aqContext c x p v).hw = h.hw ∧ (h.aqContext c x p v).out = h.out := ⟨rfl, rfl⟩

theorem ReedStep.aqContext {c : Fin 8} {l : List LaneReg} {R : Reed} {h k : Hub} (s : ReedStep c l R h k) (peak : rrPEAK ∈ l)
    (x : Fin 16) (p v : Nat) : ReedStep c l (R.queued x p v k.now) h (k.aqContext c x p v) := by
  have queued := (s.mod fun r => { r with asked := some ⟨k.now, x, r.seq, (k.cx c x).r, (k.cx c x).bits, (k.cx c x).mid⟩ }).mod
    fun r => { r with q := r.q ++ [(k.cx c x).action x p v k.now r.seq], seq := r.seq + 1 }
  rw [Reed.queued, ← s.ctx x]
  exact queued.peak peak _

theorem Hub.modCtx_id (h : Hub) (c : Fin 8) (x : Fin 16) : h.modCtx c x id = h := by
  have engine : (h.reed[c]).modCtx x id = h.reed[c] := Reed.modCtx_id _ x
  calc h.modCtx c x id
    _ = { h with reed := h.reed.set c ((h.reed[c]).modCtx x id) } := rfl
    _ = { h with reed := h.reed.set c h.reed[c] } := by rw [engine]
    _ = h := congrArg (fun v => { h with reed := v }) (Vector.set_getElem_self _)

/-- An engine's instruction that queues an action and changes its context with it. -/
theorem Hub.inSlot_queues (h : Hub) (c : Fin 8) (x : Fin 16) (p v : Nat) (f g : Ctx → Ctx) (regs : ∀ t, (f t).r = t.r)
    (path : ∀ t, (f t).ckpt = t.ckpt) {k : Hub} (run : k = (((h.inSlot c).modCtx c x f).aqContext c x p v).modCtx c x g) :
    (k.reed[c]).q = (h.reed[c]).q ++ [(h.cx c x).action x p v h.now (h.reed[c]).seq] ∧ k.cx c x = g (f (h.cx c x)) ∧
      k = { h with fields := k.fields, reed := k.reed } ∧ SameRegs h k [F.REED_AQSTAT_PEAK c] ∧
      ∀ d : Fin 8, d ≠ c → k.reed[d] = h.reed[d] := by
  have step := (((h.inSlot_step c [rrPEAK]).modCtx x f).aqContext (by simp) x p v).modCtx x g
  rw [← run] at step
  refine ⟨?_, ?_, step.quiet (by rw [run]; simp [Hub.modCtx_eq, Hub.aqContext_quiet, Hub.inSlot]) (by rw [run]; simp [Hub.modCtx_eq, Hub.aqContext_quiet, Hub.inSlot]), step.regs, step.others⟩
  · rw [step.engine]
    simp only [Reed.queued, Reed.modCtx, Ctx.action, Fin.getElem_fin, Vector.getElem_set_self, regs, path]
    rfl
  · refine (step.ctx x).trans ?_
    rw [Reed.ctx_modCtx_same]
    exact congrArg g (Reed.ctx_modCtx_same _ x f)

section
variable {h : Hub} {c : Fin 8} {x : Fin 16} {p v : Nat}

/-- An action that may be queued is (R79, R86, R87). -/
theorem Hub.reedAct_queues (pin : p < 24) (owns : h.ownsPin c x p = true) (near : h.beyond c (h.cx c x).r.tc = false)
    (room : h.aqRoom c = true) (next : Hub → Hub) : h.reedAct c x p v next = next (h.aqContext c x p v) := by
  unfold Hub.reedAct
  rw [if_neg (by simp [owns]; omega), if_neg (by simp [near, room])]

theorem Hub.ownsPin_congr {k : Hub} (e : k.fields = h.fields) (q : Nat) : k.ownsPin c x q = h.ownsPin c x q := by
  simp only [Hub.ownsPin, Hub.pinOwner, Hub.fld_congr e]

theorem Hub.inSlot_modCtx_fields (h : Hub) (c : Fin 8) (x : Fin 16) (f : Ctx → Ctx) :
    ((h.inSlot c).modCtx c x f).fields = h.fields := rfl

theorem Hub.inSlot_modCtx_beyond (h : Hub) (c : Fin 8) (x : Fin 16) (f : Ctx → Ctx) (t : Nat) :
    ((h.inSlot c).modCtx c x f).beyond c t = h.beyond c t := by
  rw [Hub.beyond, Hub.ctr_modCtx, Hub.inSlot_ctr, Hub.fld_congr (Hub.inSlot_modCtx_fields h c x f), Hub.beyond]

theorem Hub.inSlot_modCtx_queue (h : Hub) (c : Fin 8) (x : Fin 16) (f : Ctx → Ctx) :
    (((h.inSlot c).modCtx c x f).reed[c]).q = (h.reed[c]).q := by
  rw [Hub.modCtx_eq, Hub.reed_modReed_same, Hub.inSlot, Hub.reed_modReed_same]

theorem Hub.aqContext_cx (h : Hub) (c : Fin 8) (x : Fin 16) (p v : Nat) : (h.aqContext c x p v).cx c x = h.cx c x :=
  ((ReedStep.start c [rrPEAK] h).aqContext (by simp) x p v).ctx x

/-- An instruction that queues an action and changes its context with it: the entry, the context, and nothing else but the
queue's high-water mark. `f` is what the instruction does to the context before, `g` after. -/
theorem Hub.inSlot_acts {f g : Ctx → Ctx} {next : Hub → Hub} {k : Hub} (regs : ∀ t, (f t).r = t.r)
    (path : ∀ t, (f t).ckpt = t.ckpt) (pin : p < 24) (owns : h.ownsPin c x p = true)
    (near : h.beyond c (h.cx c x).r.tc = false) (room : h.aqRoom c = true)
    (after : ∀ a : Hub, a.cx c x = f (h.cx c x) → next a = a.modCtx c x g)
    (run : k = ((h.inSlot c).modCtx c x f).reedAct c x p v next) :
    (k.reed[c]).q = (h.reed[c]).q ++ [(h.cx c x).action x p v h.now (h.reed[c]).seq] ∧ k.cx c x = g (f (h.cx c x)) ∧
      k = { h with fields := k.fields, reed := k.reed } ∧ SameRegs h k [F.REED_AQSTAT_PEAK c] ∧
      ∀ d : Fin 8, d ≠ c → k.reed[d] = h.reed[d] := by
  refine h.inSlot_queues c x p v f g regs path ?_
  rw [run, Hub.reedAct_queues pin, after]
  · rw [Hub.aqContext_cx, Hub.cx_modCtx_same, Hub.inSlot_cx]
  · rw [Hub.ownsPin_congr (Hub.inSlot_modCtx_fields h c x f), owns]
  · rw [Hub.cx_modCtx_same, regs, Hub.inSlot_cx, Hub.inSlot_modCtx_beyond, near]
  · rw [Hub.aqRoom, Hub.inSlot_modCtx_queue, Hub.fld_congr (Hub.inSlot_modCtx_fields h c x f)]
    exact room

/-- ACT and ACTG: as `inSlot_acts`, and the instruction completes. -/
theorem Hub.inSlot_act (adv : Bool) (pin : p < 24) (owns : h.ownsPin c x p = true)
    (near : h.beyond c (h.cx c x).r.tc = false) (room : h.aqRoom c = true) {k : Hub}
    (run : k = (h.inSlot c).reedAct c x p v fun a => a.done c x fun r => if adv then r.addBt else r) :
    (k.reed[c]).q = (h.reed[c]).q ++ [(h.cx c x).action x p v h.now (h.reed[c]).seq] ∧
      k.cx c x = { h.cx c x with wait := 0, r := (if adv then (h.cx c x).r.addBt else (h.cx c x).r).next } ∧
      k = { h with fields := k.fields, reed := k.reed } ∧ SameRegs h k [F.REED_AQSTAT_PEAK c] ∧
      ∀ d : Fin 8, d ≠ c → k.reed[d] = h.reed[d] := by
  rw [← (h.inSlot c).modCtx_id c x] at run
  obtain ⟨queue, ctx, frame⟩ :=
    Hub.inSlot_acts (f := id) (fun _ => rfl) (fun _ => rfl) pin owns near room (fun _ _ => rfl) run
  refine ⟨queue, ctx.trans ?_, frame⟩
  cases adv <;> rfl

theorem Hub.nextBit_more {n : Nat} (more : (h.cx c x).bits < n) (g : CtxRegs → CtxRegs) :
    h.nextBit c x n g = h.modCtx c x fun t => { t with bits := t.bits + 1, wait := 0, r := g t.r } := if_pos more

theorem Hub.nextBit_last {n : Nat} (last : n ≤ (h.cx c x).bits) (g : CtxRegs → CtxRegs) : h.nextBit c x n g =
    h.modCtx c x fun t => { t with bits := 0, mid := false, wait := 0, r := { g t.r with pc := (t.r.pc + 1) % 2048 } } :=
  (if_neg (Nat.not_lt.mpr last)).trans (Hub.modCtx_modCtx _ _ _ _ _)

end

/-! ## Samples (R92, R93, R95) -/

section
variable {h : Hub} {c : Fin 8} {x : Fin 16}

theorem Hub.inSlot_beyond (h : Hub) (c : Fin 8) (t : Nat) : (h.inSlot c).beyond c t = h.beyond c t := by
  rw [Hub.beyond, Hub.inSlot_ctr, Hub.fld_congr (show (h.inSlot c).fields = h.fields from rfl), Hub.beyond]

/-- A sample of a tick that has not passed is taken at that tick (R92). -/
theorem Hub.sampleAt_early (early : h.ctr c = (h.cx c x).r.tc ∨ reached (h.ctr c) (h.cx c x).r.tc = false) :
    h.sampleAt c x = (h, (h.cx c x).r.tc) := by
  refine if_neg fun late => ?_
  rcases early with now | ahead
  · exact late.1 now.symm
  · exact absurd late.2 (by simp [ahead])

/-- SHI's sample shifts in (R93). -/
theorem Hub.sampleResolve_shi {t p : Nat} {lsb level : Bool} (one : (h.cx c x).samples = [⟨t, p, .shi 0 lsb, some level⟩])
    (due : reached (h.ctr c) (t + 3) = true) : h.sampleResolve c x t = h.modCtx c x fun k =>
      { k with
        samples := []
        r := k.r.shiftIn lsb level
        ckpt := k.ckpt.mapIdx fun _ b => (b.1.shiftIn lsb level, b.2) } := by
  simp only [Hub.sampleResolve, one, due, ne_eq, not_true_eq_false, Bool.not_true, Bool.false_eq_true, or_self, if_false,
    Option.getD_some, Hub.modCtx_modCtx, Nat.zero_le, if_true]

/-- A branch's sample decides it (R97, R98). -/
theorem Hub.sampleResolve_br {t p : Nat} {l taken level : Bool}
    (one : (h.cx c x).samples = [⟨t, p, .br 0 l taken, some level⟩]) (due : reached (h.ctr c) (t + 3) = true) :
    h.sampleResolve c x t = if (level == l) == taken then (h.modCtx c x fun k => { k with samples := [] }).confirm c x 0
      else ((h.modCtx c x fun k => { k with samples := [] }).restore c x 0 true).countSat (F.REED_MISPCNT_COUNT c) := by
  simp only [Hub.sampleResolve, one, due, ne_eq, not_true_eq_false, Bool.not_true, Bool.false_eq_true, or_self, if_false,
    Option.getD_some]

end

/-! ## Branches resolved (R97, R98) -/

/-- The first branch confirmed, with nothing that depends on it but queued actions. -/
theorem Hub.confirm_first {h : Hub} {c : Fin 8} {x : Fin 16} {b : CtxRegs × Nat} (path : (h.cx c x).ckpt = [b])
    (none_ : (h.cx c x).samples = []) : (h.confirm c x 0).cx c x = { h.cx c x with ckpt := [], samples := [] } ∧
      h.confirm c x 0 = { h with reed := (h.confirm c x 0).reed } ∧
      ∀ d : Fin 8, d ≠ c → (h.confirm c x 0).reed[d] = h.reed[d] := by
  refine ⟨?_, rfl, fun d e => (Hub.reed_modReed_ne _ e _).trans (h.reed_modReed_ne e _)⟩
  rw [Hub.confirm, Hub.cx_modCtx_same, Hub.cx_modReed_keep _ _ (by exact fun _ => rfl), path, none_]
  rfl

/-- The context of a restored path. -/
def Ctx.restored (t : Ctx) (r : CtxRegs) (pc : Nat) : Ctx :=
  { t with ckpt := [], samples := [], r := { r with pc := pc, cntHi := t.r.cntHi }, bits := 0, mid := false, wedge := none,
           held := none, wait := 0 }

/-- The first branch taken back, with nothing that depends on it but queued actions. -/
theorem Hub.restore_first {h : Hub} {c : Fin 8} {x : Fin 16} {r : CtxRegs} {pc : Nat} (path : (h.cx c x).ckpt = [(r, pc)])
    (none_ : (h.cx c x).samples = []) : ∃ g : Ctx → Ctx, g (h.cx c x) = (h.cx c x).restored r pc ∧
      h.restore c x 0 true = (h.squash c fun e => e.of_ x && decide (0 < e.depth)).modCtx c x g := by
  rw [Hub.restore, path]
  refine ⟨_, ?_, rfl⟩
  rw [none_, path]
  rfl

/-! ## Retiring (R89-R91) -/

theorem reached_self (n : Nat) : reached n n = true := by
  have zero : since n n = 0 := by
    unfold since
    omega
  rw [reached, zero]
  rfl

/-- An entry that may retire in this cycle (R88-R90). -/
def Hub.retires (h : Hub) (c : Fin 8) (e : Action) : Prop :=
  e.depth = 0 ∧ reached (h.ctr c) e.due = true ∧ e.ready ≤ h.now ∧
    ((h.lane (reedPin c e.pin).1).pin[(reedPin c e.pin).2]).actAt ≠ some h.now

theorem Hub.modPin_modPin (h : Hub) (n : Fin 64) (p : Fin 3) (f g : Pin → Pin) :
    (h.modPin n p f).modPin n p g = h.modPin n p fun q => g (f q) := by
  simp only [Hub.modPin, Hub.modLane, Fin.getElem_fin, Vector.getElem_set_self, Vector.set_set]

/-- The only entry of the queue retires. -/
theorem Hub.aqRetire_one {h : Hub} {c : Fin 8} {e : Action} (one : (h.reed[c]).q = [e]) (due : h.retires c e)
    (first : (h.reed[c]).retAt ≠ h.now) :
    h.aqRetire c = (h.modReed c fun r => { r with q := [], retAt := h.now, retN := 1 }).retireOne c e := by
  obtain ⟨shallow, reached_, ready, fresh⟩ := due
  have acts : (e.depth == 0 && reached (h.reed[c]).ctr e.due && decide (e.ready ≤ h.now) &&
      ((h.lane (reedPin c e.pin).1).pin[(reedPin c e.pin).2]).actAt != some h.now) = true := by
    simp only [Bool.and_eq_true]
    exact ⟨⟨⟨beq_iff_eq.mpr shallow, reached_⟩, decide_eq_true ready⟩, bne_iff_ne.mpr fresh⟩
  unfold Hub.aqRetire
  have alone : (decide (e.idx < e.idx)) = false := decide_eq_false (Nat.lt_irrefl _)
  simp only [one, acts, alone, first, List.filter_cons, List.filter_nil, List.any_cons, List.any_nil, Bool.and_false,
    Bool.or_false, Bool.false_eq_true, if_true, if_false, Bool.not_false, List.foldl_cons, List.foldl_nil, Action.place,
    firstPerPin, Nat.sub_zero, List.take_succ_cons, List.take_nil, List.map_cons, List.map_nil, List.length_cons,
    List.length_nil, Nat.zero_add]
  refine congrArg (Hub.retireOne · c e) (Hub.modReed_congr _ _ ?_)
  simp only [one, alone, List.filter_cons, List.filter_nil, Bool.and_false, Bool.not_false, List.contains_cons, beq_self_eq_true,
    Bool.true_or, Bool.not_true, Bool.false_eq_true, if_false]

/-- An entry of a context acts on a pin it owns, at its tick (R91). -/
theorem Hub.retireOne_act {h : Hub} {c : Fin 8} {x : Fin 16} {e : Action} (src : e.src = .ctx x) (good : e.good = true)
    (onTime : e.due = h.ctr c) (level : e.v < 3) (owns : h.ownsPin c x e.pin = true) (up : h.up (reedPin c e.pin).1 = true)
    (open_ : h.prlocked c = false) : ∃ f : Pin → Pin, (∀ q, (f q).drv = e.v ∧ (f q).actAt = some h.now) ∧
      h.retireOne c e = h.modPin (reedPin c e.pin).1 (reedPin c e.pin).2 f := by
  unfold Hub.retireOne
  simp only [src, good, onTime, owns, up, open_, bne_self_eq_false, Bool.not_true, Bool.not_false, Bool.or_self,
    Bool.false_eq_true, if_false, if_true, Hub.actOn, level, Hub.modPin_modPin]
  exact ⟨_, fun _ => ⟨rfl, rfl⟩, rfl⟩

/-- Settles O17: one lemma for the instructions that queue an action, one for each way a sample resolves, one for an entry
that retires alone. -/
theorem reedActions : Obligations.ReedActions := by
  unfold Obligations.ReedActions
  refine ⟨fun c x p v adv s is pin owns near room => (runs_slot rfl is rfl).mpr ?act,
    fun c x p v adv s is foreign plain => (runs_slot rfl is rfl).mpr ?foreign,
    fun c x p adv gr s is pin owns near room => (runs_slot rfl is rfl).mpr ?actg,
    fun c x p n lsb s is pin owns near room more => (runs_slot rfl is rfl).mpr ?shoBit,
    fun c x p n lsb s is pin owns near room last => (runs_slot rfl is rfl).mpr ?shoEnd,
    fun c x p n lsb s is pin near few early more none_ => (runs_slot rfl is rfl).mpr ?shi,
    fun c x p l k t s is pin hint free none_ near early shallow => (runs_slot rfl is rfl).mpr ?bpin,
    fun c x level lsb t p s one due plain => (runs_iff rfl).mpr ?shiSample,
    fun c x level l taken t p a r s one due path wrong => (runs_iff rfl).mpr ?mispredicted,
    fun c x level l taken t p a r s one due path right => (runs_iff rfl).mpr ?confirmed,
    fun c x e s on one src good shallow due ready low pin owns up open_ fresh first => (runs_iff rfl).mpr ?retire⟩
  case act => exact Hub.inSlot_act adv pin owns near room rfl
  case actg =>
    simp only [Hub.inSlot_cx]
    exact Hub.inSlot_act adv pin owns near room rfl
  case foreign =>
    have refused : (s.hub.inSlot c).reedAct c x p.toNat v.toNat (fun h => h.done c x fun r => if adv then r.addBt else r) =
        (s.hub.inSlot c).faultOr c x 2 := if_pos (.inr (by rw [Hub.ownsPin_congr (h := s.hub) (k := s.hub.inSlot c) rfl, foreign]; rfl))
    rw [refused, Hub.inSlot_fault plain]
    exact ⟨rfl, rfl⟩
  case shoBit =>
    simp only [Hub.inSlot_cx]
    obtain ⟨queue, ctx, frame⟩ := Hub.inSlot_acts (h := s.hub) (c := c) (x := x) (p := p.toNat)
      (v := b2n (if lsb then (s.hub.cx c x).r.sh.getLsbD 0 else (s.hub.cx c x).r.sh.getLsbD 31))
      (f := fun t => { t with mid := true }) (fun _ => rfl) (fun _ => rfl) pin owns near room
      (fun a e => Hub.nextBit_more (n := n.toNat) (by rw [e]; exact more)
        fun r => { r.addBt with sh := if lsb then r.sh >>> 1 else r.sh <<< 1 }) rfl
    exact ⟨queue, congrArg Ctx.bits ctx, congrArg Ctx.mid ctx, congrArg Ctx.r ctx, frame⟩
  case shoEnd =>
    simp only [Hub.inSlot_cx]
    obtain ⟨queue, ctx, frame⟩ := Hub.inSlot_acts (h := s.hub) (c := c) (x := x) (p := p.toNat)
      (v := b2n (if lsb then (s.hub.cx c x).r.sh.getLsbD 0 else (s.hub.cx c x).r.sh.getLsbD 31))
      (f := fun t => { t with mid := true }) (fun _ => rfl) (fun _ => rfl) pin owns near room
      (fun a e => Hub.nextBit_last (n := n.toNat) (by rw [e]; exact last)
        fun r => { r.addBt with sh := if lsb then r.sh >>> 1 else r.sh <<< 1 }) rfl
    exact ⟨queue, congrArg Ctx.bits ctx, congrArg Ctx.mid ctx, congrArg (·.r.pc) ctx, congrArg (·.r.sh) ctx, frame⟩
  case shi =>
    have issue := Hub.sampleAt_early (h := (s.hub.inSlot c).modCtx c x fun t => { t with mid := true }) (c := c) (x := x)
      (by simpa using early)
    simp only [Hub.cx_modCtx_same, Hub.inSlot_cx] at issue
    simp only [Nat.not_le.mpr pin, if_false, Hub.cx_modCtx_same, Hub.inSlot_cx, Hub.inSlot_modCtx_beyond, near,
      Bool.false_eq_true, Nat.not_le.mpr few, or_self, issue, Hub.modCtx_modCtx]
    rw [Hub.nextBit_more (by simpa using more)]
    simp only [Hub.modCtx_modCtx]
    obtain ⟨ctx, alone⟩ := s.hub.inSlot_modCtx c x fun t => { t with
      mid := true, samples := putSample ⟨(s.hub.cx c x).r.tc, p.toNat, .shi t.ckpt.length lsb, none⟩ t.samples,
      bits := t.bits + 1, wait := 0, r := { t.r.addBt with sc := t.r.sc + 1 } }
    exact ⟨(congrArg Ctx.samples ctx).trans (by rw [none_]; rfl), congrArg Ctx.bits ctx, congrArg Ctx.r ctx, alone⟩
  case bpin =>
    have issue := Hub.sampleAt_early (h := s.hub.inSlot c) (c := c) (x := x) (by simpa using early)
    have predicted : k ≠ 3 ∧ (k == 2) = false :=
      ⟨by rintro rfl; exact absurd hint (by decide), beq_eq_false_iff_ne.mpr (by rintro rfl; exact absurd hint (by decide))⟩
    simp only [Nat.not_le.mpr pin, if_false, Hub.inSlot_cx, free, none_, List.any_nil, Hub.inSlot_beyond, near,
      Bool.false_eq_true, predicted, Nat.not_le.mpr shallow, issue, Bool.false_and, Bool.or_false, beq_iff_eq, Hub.goTo,
      Hub.modCtx_modCtx]
    obtain ⟨ctx, alone⟩ := s.hub.inSlot_modCtx c x fun u => { u with
      wait := 0
      samples := putSample ⟨(s.hub.cx c x).r.tc, p.toNat, .br u.ckpt.length l (k == 1), none⟩ u.samples
      ckpt := u.ckpt ++ [(u.r, if k = 1 then ((s.hub.cx c x).r.pc + 1) % 2048 else t.toNat)]
      r := { u.r with pc := if k = 1 then t.toNat else ((s.hub.cx c x).r.pc + 1) % 2048 } }
    refine ⟨ctx.trans ?_, alone⟩
    rw [none_, free]
    rfl
  case shiSample =>
    rw [Hub.sampleResolve_shi one due]
    refine ⟨?_, ?_, Hub.modCtx_frame rfl⟩
    · rw [Hub.cx_modCtx_same]
    · rw [Hub.cx_modCtx_same]
      rfl
  case mispredicted =>
    rw [Hub.sampleResolve_br one due, if_neg (by rw [beq_iff_eq]; exact wrong)]
    obtain ⟨g, ctx, back⟩ := Hub.restore_first (h := s.hub.modCtx c x fun k => { k with samples := [] }) (c := c)
      (x := x) (r := r) (pc := a) (by rw [Hub.cx_modCtx_same, path]) (by rw [Hub.cx_modCtx_same])
    refine ⟨?_, ?_, ?_⟩
    · rw [Hub.cx_congr (Hub.countSat_reed _ _ _), back, Hub.cx_modCtx_same, Hub.squash_cx, ctx, Hub.cx_modCtx_same]
      rfl
    · rw [Hub.fld_countSat_same, back, Hub.modCtx_eq, Hub.modReed_fld, Hub.squash_fld]
      · rfl
      · exact reedFld_ne (c := c) (r := (0x58, 0, 32)) (x := (0x54, 0, 32)) (by decide)
    · rw [Hub.countSat_reed, back, Hub.modCtx_queue, Hub.squash_queue, Hub.modCtx_queue]
  case confirmed =>
    rw [Hub.sampleResolve_br one due, if_pos (beq_iff_eq.mpr right)]
    obtain ⟨ctx, frame, others⟩ := Hub.confirm_first (h := s.hub.modCtx c x fun k => { k with samples := [] }) (c := c)
      (x := x) (b := (r, a)) (by rw [Hub.cx_modCtx_same, path]) (by rw [Hub.cx_modCtx_same])
    refine ⟨?_, frame, fun d e => (others d e).trans (s.hub.reed_modReed_ne e _)⟩
    rw [ctx, Hub.cx_modCtx_same]
  case retire =>
    rw [if_pos on, Hub.aqRetire_one one ⟨shallow, by rw [due, reached_self], ready, fresh⟩ first]
    obtain ⟨f, pin_, acts⟩ := Hub.retireOne_act
      (h := s.hub.modReed c fun r => { r with q := [], retAt := s.hub.now, retN := 1 }) src good
      (by rw [Hub.ctr_modReed, due]; rfl) low ((Hub.ownsPin_congr (h := s.hub) rfl _).trans owns) up open_
    rw [acts]
    refine ⟨?_, ?_, ?_, ?_, ?_, fun m e => Hub.lanes_modPin_ne _ e _ _⟩
    · rw [Hub.modPin_reed, Hub.reed_modReed_same]
    · rw [Hub.pin_modPin]
      exact (pin_ _).1
    · rw [Hub.pin_modPin]
      exact (pin_ _).2
    · rw [Hub.modPin_reed, Hub.reed_modReed_same]
    · rfl

end Sys2Proof.Machine
end

section
/-! PROOFS. Engines under control: the start of a cycle, contexts that start and stop (O19). -/

namespace Sys2Proof.Machine

/-! ## Context enables (R109) -/

/-- A clear bit set by adding its weight. -/
theorem Nat.add_two_pow_of_clear {v x n : Nat} (clear : v.testBit x = false) (low : v < 2 ^ n) (bit : x < n) :
    v + 2 ^ x < 2 ^ n ∧ (v + 2 ^ x).testBit x = true := by
  constructor
  · have even : v / 2 ^ x % 2 = 0 := by simpa [Nat.testBit_eq_decide_div_mod_eq] using clear
    have halves : 2 ^ n = 2 * 2 ^ (n - x - 1) * 2 ^ x := by
      rw [← Nat.pow_succ', ← Nat.pow_add]
      congr 1
      omega
    have pos : 0 < 2 ^ x := Nat.two_pow_pos x
    rw [halves] at low ⊢
    rw [← Nat.div_lt_iff_lt_mul pos] at low ⊢
    rw [Nat.add_div_right v pos]
    omega
  · rw [Nat.add_comm, Nat.testBit_two_pow_add_eq, clear]
    rfl

/-- A set bit cleared by taking its weight away. -/
theorem Nat.testBit_sub_two_pow {v x : Nat} (set : v.testBit x = true) : (v - 2 ^ x).testBit x = false := by
  have back : 2 ^ x + (v - 2 ^ x) = v := Nat.add_sub_cancel' (Nat.ge_two_pow_of_testBit set)
  have toggled := Nat.testBit_two_pow_add_eq (v - 2 ^ x) x
  rw [back, set] at toggled
  simpa using toggled.symm

theorem ctxBit (n : Nat) (x : Fin 16) : (BitVec.ofNat 16 n).getLsbD x = n.testBit x := by
  rw [BitVec.getLsbD_ofNat, decide_eq_true x.isLt, Bool.true_and]

/-! ## A member that drives its pins -/

/-- Which member drives is a matter of registers below the engines' pages. -/
theorem Hub.drives_congr {h k : Hub} (low : ∀ f : Fld, f.key < 0x100000 * 32 → k.fld f = h.fld f) (gno : k.gno = h.gno) :
    k.drives = h.drives := by
  have same (f : Fld) (e : f.key < 0x100000 * 32 := by decide) : k.fld f = h.fld f := low f e
  have paired : k.paired = h.paired := by rw [Hub.paired, Hub.bit, same F.LMP_CTL_EN, Hub.paired, Hub.bit]
  have member : k.member = h.member := same F.GLB_STRAP_MEMBER
  have lampSt : k.lampSt = h.lampSt := same F.LMP_STAT_STATE
  have lampExp : k.lampExp = h.lampExp := by
    rw [Hub.lampExp, same F.LMP_EXPSH_SEC, same F.LMP_EXPSL_SEC, same F.LMP_EXPNS_NS, Hub.lampExp]
  rw [Hub.drives, paired, member, lampSt, lampExp, gno, Hub.drives]

theorem ReedStep.low {c : Fin 8} {l : List LaneReg} {R : Reed} {h k : Hub} (p : ReedStep c l R h k) (f : Fld)
    (low : f.key < 0x100000 * 32) : k.fld f = h.fld f := by
  refine p.regs f fun g hg => ?_
  obtain ⟨r, -, rfl⟩ := List.mem_map.mp hg
  exact lowFld_ne_reed low c r

theorem ReedStep.drives {c : Fin 8} {l : List LaneReg} {R : Reed} {h k : Hub} (p : ReedStep c l R h k) :
    k.drives = h.drives := Hub.drives_congr p.low (by rw [p.parts])

/-! ## The start of an engine (R105) -/

/-- Contexts changed one by one. -/
def ctxFold (g : Fin 16 → Ctx → Ctx) (l : List (Fin 16)) (v : Vector Ctx 16) : Vector Ctx 16 :=
  l.foldl (fun v (x : Fin 16) => v.set x (g x v[x])) v

theorem ctxFold_not_mem (g : Fin 16 → Ctx → Ctx) {l : List (Fin 16)} {x : Fin 16} (out : x ∉ l) (v : Vector Ctx 16) :
    (ctxFold g l v)[x] = v[x] := by
  refine List.foldlRecOn (motive := fun w : Vector Ctx 16 => w[x] = v[x]) l _ rfl fun w hw y mem => ?_
  exact (Vector.getElem_set_ne _ _ fun e => out ((show y = x from Fin.ext e) ▸ mem)).trans hw

theorem ctxFold_mem (g : Fin 16 → Ctx → Ctx) {l : List (Fin 16)} (once : l.Nodup) {x : Fin 16} (mem : x ∈ l)
    (v : Vector Ctx 16) : (ctxFold g l v)[x] = g x v[x] := by
  obtain ⟨front, back, rfl⟩ := List.append_of_mem mem
  obtain ⟨-, -, apart⟩ := List.nodup_append.mp once
  have before : x ∉ front := fun e => apart x e x (List.mem_cons_self ..) rfl
  have after : x ∉ back := (List.nodup_cons.mp (List.nodup_append.mp once).2.1).1
  have split : ctxFold g (front ++ x :: back) v =
      ctxFold g back ((ctxFold g front v).set x (g x (ctxFold g front v)[x])) := by
    simp only [ctxFold, List.foldl_append, List.foldl_cons]
  rw [split, ctxFold_not_mem g after, ctxFold_not_mem g before]
  exact Vector.getElem_set_self _

/-- An engine with other contexts. -/
def Reed.withCtx (v : Vector Ctx 16) (r : Reed) : Reed := { r with ctx := v }

/-- A fold of hub steps that each change one context of engine c. -/
theorem Hub.foldl_modCtx {h : Hub} {c : Fin 8} {f : Hub → Fin 16 → Hub} {g : Fin 16 → Ctx → Ctx}
    (step : ∀ (v : Vector Ctx 16) (x : Fin 16), f (h.modReed c (Reed.withCtx v)) x =
      (h.modReed c (Reed.withCtx v)).modCtx c x (g x)) (l : List (Fin 16)) (v : Vector Ctx 16) :
    l.foldl f (h.modReed c (Reed.withCtx v)) = h.modReed c (Reed.withCtx (ctxFold g l v)) := by
  induction l generalizing v with
  | nil => rfl
  | cons x l ih =>
    have next : (h.modReed c (Reed.withCtx v)).modCtx c x (g x) = h.modReed c (Reed.withCtx (v.set x (g x v[x]))) := by
      rw [Hub.modCtx_eq, Hub.modReed_modReed]
      rfl
    rw [List.foldl_cons, step, next, ih]
    rfl

/-- The words of contexts stand behind the engine's own registers. -/
theorem ctxWord_ne (c : Fin 8) (i : Nat) {r : LaneReg} (e : r.1 * 32 + r.2.1 < 0x400 * 32) :
    (F.REED_CTX_W c i).key ≠ (reedFld c r).key := by
  rw [reedFld_key]
  simp only [F.REED_CTX_W, Fld.key]
  omega

/-- A context that begins at its ENTRY with its cursor at a tick (R105). -/
def Hub.freshCtx (h : Hub) (c : Fin 8) (x : Fin 16) (tc : Nat) (t : Ctx) : Ctx :=
  { st := cxRUN, flags := t.flags
    r := { pc := h.fld (F.REED_CTX_W c (16 * x.val + 1)) % 2048, bt := t.r.bt, tc := tc, tap := 0, cntHi := t.r.cntHi } }

theorem Hub.ctxFresh_eq (h : Hub) (c : Fin 8) (x : Fin 16) (tc : Nat) :
    h.ctxFresh c x tc = h.modCtx c x (h.freshCtx c x tc) := rfl

/-- What a start makes of a context (R105, R107). -/
def Hub.startCtx (h : Hub) (c : Fin 8) (x : Fin 16) (t : Ctx) : Ctx :=
  if !(BitVec.ofNat 16 (h.fld (F.REED_CTXEN_EN c))).getLsbD x then { t with st := cxOFF }
  else if h.bit (F.REED_CTL_RESUME c) && !t.fresh then { t with st := cxRUN, wait := 0 }
  else h.freshCtx c x (h.ctr c) t

/-- An engine that begins to run. -/
def Reed.begun (now : Nat) (en : BitVec 16) (r : Reed) : Reed :=
  { r with start := now, ran := none, startWait := false, en := en }

/-- A started engine. -/
def Hub.startReed (h : Hub) (c : Fin 8) (r : Reed) : Reed :=
  (r.begun h.now (BitVec.ofNat 16 (h.fld (F.REED_CTXEN_EN c)))).withCtx (ctxFold (h.startCtx c) (List.finRange 16) r.ctx)

/-- A step of the start changes its context as `startCtx` says. -/
theorem Hub.startCtx_step {h k : Hub} (c : Fin 8) (x : Fin 16)
    (entry : k.fld (F.REED_CTX_W c (16 * x.val + 1)) = h.fld (F.REED_CTX_W c (16 * x.val + 1))) (ctr : k.ctr c = h.ctr c) :
    (if !(BitVec.ofNat 16 (h.fld (F.REED_CTXEN_EN c))).getLsbD x then k.modCtx c x fun t => { t with st := cxOFF }
      else if h.bit (F.REED_CTL_RESUME c) && !(k.cx c x).fresh then k.modCtx c x fun t => { t with st := cxRUN, wait := 0 }
      else k.ctxFresh c x (k.ctr c)) = k.modCtx c x (h.startCtx c x) := by
  by_cases off : (!(BitVec.ofNat 16 (h.fld (F.REED_CTXEN_EN c))).getLsbD x) = true
  · rw [if_pos off]
    exact Hub.modCtx_congr k c x (if_pos off).symm
  · by_cases old : (h.bit (F.REED_CTL_RESUME c) && !(k.cx c x).fresh) = true
    · rw [if_neg off, if_pos old]
      exact Hub.modCtx_congr k c x ((if_neg off).trans (if_pos old)).symm
    · rw [if_neg off, if_neg old, Hub.ctxFresh_eq, ctr]
      refine Hub.modCtx_congr k c x (Eq.trans ?_ ((if_neg off).trans (if_neg old)).symm)
      rw [Hub.freshCtx, entry, Hub.freshCtx]

theorem Hub.reedStart_eq (h : Hub) (c : Fin 8) : h.reedStart c = (h.on (F.REED_STAT_ACTIVE c)).modReed c (h.startReed c) := by
  let active := (h.on (F.REED_STAT_ACTIVE c)).modReed c (Reed.begun h.now (BitVec.ofNat 16 (h.fld (F.REED_CTXEN_EN c))))
  have base : active = active.modReed c (Reed.withCtx (h.reed[c]).ctx) := by
    rw [Hub.modReed_modReed]
    exact Hub.modReed_congr _ c rfl
  have ctr (v : Vector Ctx 16) : (active.modReed c (Reed.withCtx v)).ctr c = h.ctr c := by
    rw [Hub.ctr_modReed _ _ _ _ rfl, Hub.ctr_modReed _ _ _ _ rfl, Hub.on_eq, Hub.ctr_congr (Hub.put_reed _ _ _)]
  have entry (v : Vector Ctx 16) (x : Fin 16) : (active.modReed c (Reed.withCtx v)).fld (F.REED_CTX_W c (16 * x.val + 1)) =
      h.fld (F.REED_CTX_W c (16 * x.val + 1)) := by
    rw [Hub.modReed_fld, Hub.modReed_fld]
    exact Hub.fld_put_ne _ _ _ _ (ctxWord_ne c _ (r := (4, 0, 1)) (by decide))
  unfold Hub.reedStart
  dsimp only
  change List.foldl _ active _ = _
  rw [base]
  refine (Hub.foldl_modCtx (g := h.startCtx c) (fun v x => ?_) _ _).trans ?_
  · exact Hub.startCtx_step c x (entry v x) (ctr v)
  · rw [Hub.modReed_modReed]
    exact Hub.modReed_congr _ c rfl

theorem Hub.startReed_ctx (h : Hub) (c : Fin 8) (r : Reed) (x : Fin 16) :
    (h.startReed c r).ctx[x] = h.startCtx c x r.ctx[x] :=
  ctxFold_mem _ (List.nodup_finRange 16) (List.mem_finRange x) _

/-- Registers of the page that control the engine. -/
abbrev rrRUN : LaneReg := (0, 0, 1)
abbrev rrFLUSH : LaneReg := (0, 1, 1)
abbrev rrACTIVE : LaneReg := (4, 0, 1)
abbrev rrSQUASHED : LaneReg := (0x54, 0, 32)

theorem ReedStep.reedStart {c : Fin 8} {l : List LaneReg} {R : Reed} {h k : Hub} (p : ReedStep c l R h k)
    (mem : rrACTIVE ∈ l) : ReedStep c l (k.startReed c R) h (k.reedStart c) := by
  rw [Hub.reedStart_eq]
  exact (p.put mem 1).mod (k.startReed c)

theorem Hub.reedStart_active (h : Hub) (c : Fin 8) : (h.reedStart c).bit (F.REED_STAT_ACTIVE c) = true := by
  rw [Hub.reedStart_eq, Hub.modReed_bit]
  exact Hub.bit_on_same _ _ rfl

theorem Hub.reedStart_cx (h : Hub) (c : Fin 8) (x : Fin 16) : (h.reedStart c).cx c x = h.startCtx c x (h.cx c x) :=
  (((ReedStep.start c [rrACTIVE] h).reedStart (by simp)).ctx x).trans (h.startReed_ctx c _ x)

/-- An enabled context begins afresh where RESUME is 0. -/
theorem Hub.startCtx_on {h : Hub} {c : Fin 8} {x : Fin 16} (on : (h.fld (F.REED_CTXEN_EN c)).testBit x = true)
    (noResume : h.bit (F.REED_CTL_RESUME c) = false) (t : Ctx) : h.startCtx c x t = h.freshCtx c x (h.ctr c) t := by
  rw [Hub.startCtx, ctxBit, on, noResume]
  rfl

/-- What a step of the engine leaves of a context's ENTRY. -/
theorem ReedStep.freshCtx {c : Fin 8} {l : List LaneReg} {R : Reed} {h k : Hub} (p : ReedStep c l R h k)
    (low : ∀ r ∈ l, r.1 * 32 + r.2.1 < 0x400 * 32) (x : Fin 16) (tc : Nat) (t : Ctx) :
    k.freshCtx c x tc t = h.freshCtx c x tc t := by
  have entry : k.fld (F.REED_CTX_W c (16 * x.val + 1)) = h.fld (F.REED_CTX_W c (16 * x.val + 1)) := by
    refine p.regs _ fun f hf => ?_
    obtain ⟨r, mem, rfl⟩ := List.mem_map.mp hf
    exact ctxWord_ne c _ (low r mem)
  rw [Hub.freshCtx, entry, Hub.freshCtx]

abbrev rrSLOT0 : LaneReg := (0x14, 0, 32)
abbrev rrSLOT1 : LaneReg := (0x18, 0, 32)

/-- What a step of the engine leaves of the slot table. -/
theorem ReedStep.slotNow {c : Fin 8} {l : List LaneReg} {R : Reed} {h k : Hub} (p : ReedStep c l R h k)
    (table : rrSLOT0.off l = true ∧ rrSLOT1.off l = true) (start : R.start = (h.reed[c]).start) : k.slotNow c = h.slotNow c := by
  have first : k.fld (F.REED_SLOT0_S c) = h.fld (F.REED_SLOT0_S c) := p.fld rrSLOT0 table.1
  have second : k.fld (F.REED_SLOT1_S c) = h.fld (F.REED_SLOT1_S c) := p.fld rrSLOT1 table.2
  simp only [Hub.slotNow, Hub.slotOwner, first, second, p.now, p.engine, start]

/-! ## The start of a cycle (R105, R106, R108, R109) -/

/-- What a pending flush leaves. -/
def Hub.flushed (h : Hub) (c : Fin 8) : Hub :=
  if h.bit (F.REED_CTL_FLUSH c) then (h.squash c fun e => e.src != .bridge).off (F.REED_CTL_FLUSH c) else h

theorem ReedStep.squash {c : Fin 8} {l : List LaneReg} {R : Reed} {h k : Hub} (p : ReedStep c l R h k)
    (mem : rrSQUASHED ∈ l) (f : Action → Bool) :
    ReedStep c l { R with q := R.q.filter fun e => !f e } h (k.squash c f) := by
  have queue : (k.reed[c]).q = R.q := by rw [p.engine]
  rw [Hub.squash, queue]
  exact (p.mod fun r => { r with q := R.q.filter fun e => !f e }).countSat mem _

/-- A flush changes the queue, with its count. -/
theorem ReedStep.flushed {c : Fin 8} {l : List LaneReg} {R : Reed} {h k : Hub} (p : ReedStep c l R h k)
    (count : rrSQUASHED ∈ l) (pending : rrFLUSH ∈ l) : ∃ q, ReedStep c l { R with q := q } h (k.flushed c) := by
  unfold Hub.flushed
  split
  · exact ⟨_, (p.squash count fun e => e.src != .bridge).put (r := rrFLUSH) pending 0⟩
  · exact ⟨R.q, p⟩

section
variable {h : Hub} {c : Fin 8}

/-- The start of a cycle once a pending flush is done. -/
def Hub.entered (h : Hub) (c : Fin 8) : Hub :=
  if !h.bit (F.REED_STAT_ACTIVE c) then (if (h.reed[c]).startWait && h.drives then h.reedStart c else h)
  else if (h.reed[c]).stopping then (if (h.reed[c]).stopAt + 16 ≤ h.now then h.reedEnd c else h)
  else if !h.bit (F.REED_CTL_RUN c) then h.modReed c fun r => { r with stopping := true, stopAt := h.now }
  else
    let k := h.modReed c fun r => { r with en := BitVec.ofNat 16 (h.fld (F.REED_CTXEN_EN c)) }
    if (k.reed[c]).en.getLsbD (k.slotNow c) && (k.cx c (k.slotNow c)).st == cxOFF then
      k.ctxFresh c (k.slotNow c) (k.ctr c) else k

theorem Hub.reedEnter_eq (h : Hub) (c : Fin 8) : h.reedEnter c = (h.flushed c).entered c := rfl

/-- An engine that is not active stays so unless a start waits for it. -/
theorem Hub.reedEnter_idle (idle : h.bit (F.REED_STAT_ACTIVE c) = false) (none_ : (h.reed[c]).startWait = false) :
    h.reedEnter c = h.flushed c := by
  obtain ⟨q, step⟩ := (ReedStep.start c [rrSQUASHED, rrFLUSH] h).flushed (by simp) (by simp)
  have idle' : (h.flushed c).bit (F.REED_STAT_ACTIVE c) = false := (step.bit rrACTIVE (by decide)).trans idle
  rw [Hub.reedEnter_eq, Hub.entered, idle', step.engine]
  simp only [none_, Bool.not_false, Bool.false_and, Bool.false_eq_true, if_true, if_false]

/-- A start that waits (R105). -/
theorem Hub.reedEnter_start (idle : h.bit (F.REED_STAT_ACTIVE c) = false) (waits : (h.reed[c]).startWait = true)
    (drives : h.drives = true) : h.reedEnter c = (h.flushed c).reedStart c := by
  obtain ⟨q, step⟩ := (ReedStep.start c [rrSQUASHED, rrFLUSH] h).flushed (by simp) (by simp)
  have idle' : (h.flushed c).bit (F.REED_STAT_ACTIVE c) = false := (step.bit rrACTIVE (by decide)).trans idle
  rw [Hub.reedEnter_eq, Hub.entered, idle', step.engine, step.drives, drives]
  simp only [waits, Bool.not_false, Bool.and_true, if_true]

/-- A running engine whose RUN bit is 0 begins to stop (R106). -/
theorem Hub.reedEnter_stop (active : h.bit (F.REED_STAT_ACTIVE c) = true) (runs : (h.reed[c]).stopping = false)
    (stop : h.bit (F.REED_CTL_RUN c) = false) :
    h.reedEnter c = (h.flushed c).modReed c fun r => { r with stopping := true, stopAt := (h.flushed c).now } := by
  obtain ⟨q, step⟩ := (ReedStep.start c [rrSQUASHED, rrFLUSH] h).flushed (by simp) (by simp)
  have active' : (h.flushed c).bit (F.REED_STAT_ACTIVE c) = true := (step.bit rrACTIVE (by decide)).trans active
  have stop' : (h.flushed c).bit (F.REED_CTL_RUN c) = false := (step.bit rrRUN (by decide)).trans stop
  rw [Hub.reedEnter_eq, Hub.entered, active', step.engine, stop']
  simp only [runs, Bool.not_true, Bool.not_false, Bool.false_eq_true, if_true, if_false]

/-- A running engine takes the context enables over, and an enabled context that is OFF starts in its slot (R109). -/
theorem Hub.reedEnter_run (active : h.bit (F.REED_STAT_ACTIVE c) = true) (runs : (h.reed[c]).stopping = false)
    (run : h.bit (F.REED_CTL_RUN c) = true) {k : Hub}
    (enables : k = (h.flushed c).modReed c fun r => { r with en := BitVec.ofNat 16 ((h.flushed c).fld (F.REED_CTXEN_EN c)) }) :
    h.reedEnter c = if (k.reed[c]).en.getLsbD (k.slotNow c) && (k.cx c (k.slotNow c)).st == cxOFF then
      k.ctxFresh c (k.slotNow c) (k.ctr c) else k := by
  obtain ⟨q, step⟩ := (ReedStep.start c [rrSQUASHED, rrFLUSH] h).flushed (by simp) (by simp)
  have active' : (h.flushed c).bit (F.REED_STAT_ACTIVE c) = true := (step.bit rrACTIVE (by decide)).trans active
  have run' : (h.flushed c).bit (F.REED_CTL_RUN c) = true := (step.bit rrRUN (by decide)).trans run
  rw [Hub.reedEnter_eq, Hub.entered, active', step.engine, run']
  simp only [runs, Bool.not_true, Bool.false_eq_true, if_false]
  rw [enables]

end

end Sys2Proof.Machine
end

section
/-! PROOFS. Contexts that stop, counter loads and triggers (O19). -/

namespace Sys2Proof.Machine

/-! ## What a flush, a start or a stop of the engine leaves of the queue (R108) -/

/-- The start of a cycle changes the queue by its flush alone. -/
theorem Hub.entered_step {h : Hub} {c : Fin 8} (runs : (h.reed[c]).stopping = false) :
    ∃ R : Reed, ReedStep c [rrACTIVE] R h (h.entered c) ∧ R.q = (h.reed[c]).q := by
  have whole := ReedStep.start c [rrACTIVE] h
  unfold Hub.entered
  split
  · split
    · exact ⟨_, whole.reedStart (by simp), rfl⟩
    · exact ⟨_, whole, rfl⟩
  · rw [runs, if_neg Bool.false_ne_true]
    split
    · exact ⟨_, whole.mod fun r => { r with stopping := true, stopAt := h.now }, rfl⟩
    · have taken := whole.mod fun r => { r with en := BitVec.ofNat 16 (h.fld (F.REED_CTXEN_EN c)) }
      dsimp only
      split
      · rw [Hub.ctxFresh_eq]
        exact ⟨_, taken.modCtx _ _, rfl⟩
      · exact ⟨_, taken, rfl⟩

/-! ## What a stop leaves (R106, R107) -/

/-- A change of context x of engine c, which leaves every other context and engine. -/
structure OthersKept (c : Fin 8) (x : Fin 16) (h k : Hub) : Prop where
  engines : ∀ d : Fin 8, d ≠ c → k.reed[d] = h.reed[d]
  contexts : ∀ y : Fin 16, y ≠ x → k.cx c y = h.cx c y

namespace OthersKept
variable {c : Fin 8} {x : Fin 16} {h k m : Hub}

theorem refl (c : Fin 8) (x : Fin 16) (h : Hub) : OthersKept c x h h := ⟨fun _ _ => rfl, fun _ _ => rfl⟩

theorem congr (p : OthersKept c x h k) (e : m.reed = k.reed) : OthersKept c x h m :=
  ⟨fun d other => by rw [e]; exact p.engines d other, fun y other => (Hub.cx_congr e c y).trans (p.contexts y other)⟩

theorem modCtx (p : OthersKept c x h k) (g : Ctx → Ctx) : OthersKept c x h (k.modCtx c x g) :=
  ⟨fun d other => (k.reed_modReed_ne other _).trans (p.engines d other),
    fun y other => (Hub.cx_modCtx_ne _ c other g).trans (p.contexts y other)⟩

theorem squash (p : OthersKept c x h k) (f : Action → Bool) : OthersKept c x h (k.squash c f) :=
  ⟨fun d other => (k.squash_others c f d other).trans (p.engines d other),
    fun y other => (k.squash_cx c f y).trans (p.contexts y other)⟩

theorem restore (p : OthersKept c x h k) (n : Nat) (alt : Bool) : OthersKept c x h (k.restore c x n alt) := by
  unfold Hub.restore
  dsimp only
  split
  · exact p
  · exact (p.squash _).modCtx _

end OthersKept

theorem Hub.frdAbandon_reed (h : Hub) (c : Fin 8) (x : Fin 16) : (h.frdAbandon c x).reed = h.reed := rfl

theorem Hub.ctxFlag_reed (h : Hub) (c : Fin 8) (x : Fin 16) (b : Nat) :
    (h.ctxFlag c x b).reed = (h.modCtx c x fun t => { t with flags := t.flags ||| 2 ^ b }).reed :=
  Hub.flag_reed _ _ _

/-- Context x of engine c does not run. -/
def Hub.Rests (c : Fin 8) (x : Fin 16) (h : Hub) : Prop := (h.cx c x).st ≠ cxRUN

/-- A stopped context does not run, and no other is touched. -/
theorem Hub.ctxStop_spec (h : Hub) (c : Fin 8) (x : Fin 16) :
    OthersKept c x h (h.ctxStop c x) ∧ (h.ctxStop c x).Rests c x := by
  unfold Hub.ctxStop Hub.Rests
  split
  · next stopped => exact ⟨.refl c x h, stopped⟩
  · dsimp only
    have ended (g : Ctx → Ctx) := (((OthersKept.refl c x h).restore 0 false).congr (Hub.frdAbandon_reed _ c x)).modCtx g
    split
    · refine ⟨((((ended _).squash _).modCtx _).congr (Hub.idlePins_reed _ c x)).modCtx _ |>.congr (Hub.ctxFlag_reed _ c x 3), ?_⟩
      rw [Hub.cx_congr (Hub.ctxFlag_reed _ c x 3), Hub.cx_modCtx_same, Hub.cx_congr (Hub.idlePins_reed _ c x),
        Hub.cx_modCtx_same, Hub.squash_cx, Hub.cx_modCtx_same]
      exact (by decide : cxOFF ≠ cxRUN)
    · refine ⟨ended _, ?_⟩
      rw [Hub.cx_modCtx_same]
      exact (by decide : cxOFF ≠ cxRUN)

/-- Every context stopped. -/
def Hub.ctxStops (h : Hub) (c : Fin 8) : Hub := (List.finRange 16).foldl (fun h (x : Fin 16) => h.ctxStop c x) h

theorem Hub.ctxStops_others (h : Hub) (c d : Fin 8) (other : d ≠ c) : (h.ctxStops c).reed[d] = h.reed[d] :=
  List.foldlRecOn (motive := fun k : Hub => k.reed[d] = h.reed[d]) (List.finRange 16) (fun h (x : Fin 16) => h.ctxStop c x) rfl
    fun k kept y _ => Eq.trans (OthersKept.engines (Hub.ctxStop_spec k c y).1 d other) kept

theorem Hub.ctxStops_rest (h : Hub) (c : Fin 8) (x : Fin 16) : (h.ctxStops c).Rests c x := by
  unfold Hub.ctxStops
  refine foldl_of_mem (f := fun (k : Hub) (y : Fin 16) => k.ctxStop c y) (P := fun _ => True) (Q := Hub.Rests c x) (c := x)
    (fun _ _ _ => trivial) (fun k _ => (k.ctxStop_spec c x).2) (fun k y _ rests => ?_) trivial (List.mem_finRange x)
  by_cases same : y = x
  · rw [same]
    exact (k.ctxStop_spec c x).2
  · rw [Hub.Rests, (k.ctxStop_spec c y).1.contexts x (Ne.symm same)]
    exact rests

/-! ## Triggers (R114-R117) -/

abbrev rrARM : LaneReg := (0x30, 0, 1)
abbrev rrSYNC_DONE : LaneReg := (8, 6, 1)

section
variable {h : Hub} {c : Fin 8}

/-- A trigger that fires is disarmed and told. -/
def Hub.fired (h : Hub) (c : Fin 8) : Hub := (h.disarm c).flag (.reed c) (F.REED_FLAG_SYNC_DONE c)

theorem Hub.disarm_step (h : Hub) (c : Fin 8) {l : List LaneReg} (mem : rrARM ∈ l) :
    ReedStep c l { h.reed[c] with trig := none } h (h.disarm c) := by
  rw [Hub.disarm]
  exact ((ReedStep.start c l h).mod fun r => { r with trig := none }).put mem 0

theorem Hub.fired_step (h : Hub) (c : Fin 8) {l : List LaneReg} (arm : rrARM ∈ l) (done : rrSYNC_DONE ∈ l) :
    ReedStep c l { h.reed[c] with trig := none } h (h.fired c) := by
  rw [Hub.fired]
  exact (h.disarm_step c arm).flag (r := rrSYNC_DONE) (.reed c) done

theorem Hub.disarm_arm (h : Hub) (c : Fin 8) : (h.disarm c).bit (F.REED_SYNC_ARM c) = false := Hub.bit_off_same _ _

theorem Hub.fired_arm (h : Hub) (c : Fin 8) : (h.fired c).bit (F.REED_SYNC_ARM c) = false := by
  rw [Hub.fired, Hub.bit, Hub.flag_fld, Hub.fld_put_ne]
  · exact h.disarm_arm c
  · exact reedFld_ne (c := c) (r := rrARM) (x := rrSYNC_DONE) (by decide)

theorem Hub.fired_done (h : Hub) (c : Fin 8) : (h.fired c).bit (F.REED_FLAG_SYNC_DONE c) = true :=
  Hub.flag_bit_same _ _ _ rfl

theorem Hub.trigger_fires (due : h.trigDue c = true) : h.trigger c false = h.trigFire c := by
  rw [Hub.trigger, due]
  rfl

theorem Hub.trigger_stops (due : h.trigDue c = true) : h.trigger c true = h.disarm c := by
  rw [Hub.trigger, due]
  rfl

theorem Hub.trigFire_load {t : Trig} (armed : (h.reed[c]).trig = some t) (noStart : t.doStart = false) (load : t.doLoad = true) :
    h.trigFire c = (h.fired c).ctrLoad c t.load := by
  simp only [Hub.trigFire, armed, noStart, load, Bool.not_false, Bool.true_or, if_true, Hub.fired]

theorem Hub.trigFire_start {t : Trig} (armed : (h.reed[c]).trig = some t) (start : t.doStart = true) (noLoad : t.doLoad = false)
    (written : (h.reed[c]).pmNeed = 0) (runs : (h.reed[c]).stopping = false) (idle : h.bit (F.REED_STAT_ACTIVE c) = false) :
    h.trigFire c = ((h.fired c).on (F.REED_CTL_RUN c)).reedStart c := by
  have idle' : ((h.fired c).on (F.REED_CTL_RUN c)).bit (F.REED_STAT_ACTIVE c) = false :=
    (((h.fired_step c (l := [rrARM, rrSYNC_DONE, rrRUN]) (by simp) (by simp)).put (r := rrRUN) (by simp) 1).bit rrACTIVE
      (by decide)).trans idle
  rw [Hub.fired] at idle' ⊢
  simp only [Hub.trigFire, armed, start, noLoad, written, runs, idle', Bool.not_true, bne_self_eq_false, Bool.or_self,
    Bool.false_eq_true, if_false]

/-- What a counter load does to its engine (R116). -/
theorem Hub.ctrLoad_engine (h : Hub) (c : Fin 8) (v : Nat) : ∃ g : Reed → Reed,
    (h.ctrLoad c v).reed = (h.modReed c g).reed ∧ (g h.reed[c]).ctr = v ∧ (g h.reed[c]).trig = (h.reed[c]).trig ∧
      (g h.reed[c]).anc.n = add64 (h.reed[c]).anc.n ((v + 2 ^ 64 - h.ctr c) % 2 ^ 64) ∧
      (g h.reed[c]).q.length = (h.reed[c]).q.length := by
  unfold Hub.ctrLoad
  dsimp only
  rw [Hub.put_reed]
  dsimp only
  refine ⟨_, rfl, ?_, ?_, ?_, ?_⟩
  · rfl
  · rfl
  · rfl
  · exact List.length_map _

theorem Hub.ctrLoad_bit (h : Hub) (c : Fin 8) (v : Nat) {f : Fld} (e : f.key ≠ (F.REED_STAT_EPOCH c).key) :
    (h.ctrLoad c v).bit f = h.bit f := Hub.bit_put_ne _ _ _ _ e

end

end Sys2Proof.Machine
end

section
/-! PROOFS. Starting, stopping and flushing an engine, enabling contexts, triggers (O19). -/

namespace Sys2Proof.Machine

abbrev rrCTXEN : LaneReg := (0x10, 0, 16)

section
variable {h : Hub} {c : Fin 8} {x : Fin 16}

/-! ## RUN written 1 (R105) -/

/-- An idle engine that a start waits for. -/
def Hub.runSet (h : Hub) (c : Fin 8) : Hub := (h.on (F.REED_CTL_RUN c)).modReed c fun r => { r with startWait := true }

theorem Hub.runSet_step (h : Hub) (c : Fin 8) {l : List LaneReg} (mem : rrRUN ∈ l) :
    ReedStep c l { h.reed[c] with startWait := true } h (h.runSet c) :=
  ((ReedStep.start c l h).put (r := rrRUN) mem 1).mod fun r => { r with startWait := true }

theorem Hub.reedRun_idle (written : (h.reed[c]).pmNeed = 0) (none_ : (h.reed[c]).trig = none) (drives : h.drives = true)
    (idle : h.bit (F.REED_STAT_ACTIVE c) = false) : h.reedRun c = some (h.runSet c) := by
  have set := (ReedStep.start c [rrRUN] h).put (r := rrRUN) (by simp) 1
  have idle' : (h.on (F.REED_CTL_RUN c)).bit (F.REED_STAT_ACTIVE c) = false := (set.bit rrACTIVE (by decide)).trans idle
  have drives' : (h.on (F.REED_CTL_RUN c)).drives = true := set.drives.trans drives
  simp only [Hub.reedRun, written, none_, idle', drives', Hub.runSet, ne_eq, not_true_eq_false, if_false, Option.any_none,
    Bool.not_true, Bool.or_self, Bool.false_and, Bool.false_eq_true]

theorem Hub.runSet_run (h : Hub) (c : Fin 8) : (h.runSet c).bit (F.REED_CTL_RUN c) = true := by
  rw [Hub.runSet, Hub.modReed_bit]
  exact Hub.bit_on_same _ _ rfl

theorem Hub.runSet_out (h : Hub) (c : Fin 8) : (h.runSet c).out = h.out := by
  rw [Hub.runSet, Hub.modReed_out, Hub.on_eq, Hub.put_out]

/-- The cycle after: the engine is active and an enabled context begins at its ENTRY. -/
theorem Hub.runSet_enter (drives : h.drives = true) (idle : h.bit (F.REED_STAT_ACTIVE c) = false)
    (noResume : h.bit (F.REED_CTL_RESUME c) = false) (on : (h.fld (F.REED_CTXEN_EN c)).testBit x = true) :
    ((h.runSet c).reedEnter c).bit (F.REED_STAT_ACTIVE c) = true ∧
      ((h.runSet c).reedEnter c).cx c x = h.freshCtx c x (h.ctr c) (h.cx c x) := by
  have set := h.runSet_step c (l := [rrRUN, rrSQUASHED, rrFLUSH]) (by simp)
  obtain ⟨q, step⟩ := set.flushed (by simp) (by simp)
  have enabled : ((h.runSet c).flushed c).fld (F.REED_CTXEN_EN c) = h.fld (F.REED_CTXEN_EN c) := step.fld rrCTXEN (by decide)
  have afresh : ((h.runSet c).flushed c).bit (F.REED_CTL_RESUME c) = h.bit (F.REED_CTL_RESUME c) :=
    step.bit (0, 2, 1) (by decide)
  have ctr : ((h.runSet c).flushed c).ctr c = h.ctr c := step.ctr rfl
  have begins : (h.runSet c).reedEnter c = ((h.runSet c).flushed c).reedStart c :=
    Hub.reedEnter_start ((set.bit rrACTIVE (by decide)).trans idle) (by rw [set.engine]) (set.drives.trans drives)
  rw [begins]
  refine ⟨Hub.reedStart_active _ c, ?_⟩
  rw [Hub.reedStart_cx, Hub.startCtx_on (by rw [enabled, on]) (by rw [afresh, noResume]), step.freshCtx (by decide),
    step.ctx x, ctr]
  rfl

/-! ## RUN written 0 (R106) -/

/-- An engine whose RUN bit is cleared. -/
def Hub.runCleared (h : Hub) (c : Fin 8) : Hub :=
  (h.off (F.REED_CTL_RUN c)).modReed c fun r => { r with startWait := false }

theorem Hub.runCleared_step (h : Hub) (c : Fin 8) {l : List LaneReg} (mem : rrRUN ∈ l) :
    ReedStep c l { h.reed[c] with startWait := false } h (h.runCleared c) :=
  ((ReedStep.start c l h).put (r := rrRUN) mem 0).mod fun r => { r with startWait := false }

theorem Hub.runCleared_run (h : Hub) (c : Fin 8) : (h.runCleared c).bit (F.REED_CTL_RUN c) = false := by
  rw [Hub.runCleared, Hub.modReed_bit]
  exact Hub.bit_off_same _ _

theorem Hub.runCleared_out (h : Hub) (c : Fin 8) : (h.runCleared c).out = h.out := by
  rw [Hub.runCleared, Hub.modReed_out, Hub.off_eq, Hub.put_out]

theorem Hub.reedStop_untriggered (none_ : (h.reed[c]).trig = none) : h.reedStop c = h.runCleared c := by
  have quiet : (h.off (F.REED_CTL_RUN c)).trigDue c = false := by
    rw [Hub.trigDue, Hub.off_eq, Hub.put_reed, none_]
    rfl
  have unarmed : (((h.off (F.REED_CTL_RUN c)).reed[c]).trig.any fun t => t.doStart) = false := by
    rw [Hub.off_eq, Hub.put_reed, none_]
    rfl
  unfold Hub.reedStop
  dsimp only
  rw [unarmed, quiet]
  rfl

/-- The cycle after: an active engine begins to stop. -/
theorem Hub.runCleared_enter (runs : (h.reed[c]).stopping = false) :
    (((h.runCleared c).reedEnter c).reed[c]).stopping = h.bit (F.REED_STAT_ACTIVE c) := by
  have cleared := h.runCleared_step c (l := [rrRUN, rrSQUASHED, rrFLUSH]) (by simp)
  obtain ⟨q, step⟩ := cleared.flushed (by simp) (by simp)
  have same : (h.runCleared c).bit (F.REED_STAT_ACTIVE c) = h.bit (F.REED_STAT_ACTIVE c) := cleared.bit rrACTIVE (by decide)
  cases active : h.bit (F.REED_STAT_ACTIVE c) with
  | false =>
    rw [Hub.reedEnter_idle (same.trans active) (by rw [cleared.engine]), step.engine]
    exact runs
  | true =>
    rw [Hub.reedEnter_stop (same.trans active) (by rw [cleared.engine]; exact runs) (h.runCleared_run c),
      Hub.reed_modReed_same]

/-! ## The end of a stop (R106) -/

theorem Hub.reedEnd_eq (h : Hub) (c : Fin 8) : h.reedEnd c =
    (((h.ctxStops c).off (F.REED_STAT_ACTIVE c)).modReed c fun r => { r with stopping := false }).flag (.reed c)
      (F.REED_FLAG_STOPPED c) := rfl

/-- The engine has stopped, and no context of it runs. -/
theorem Hub.reedEnd_spec (h : Hub) (c : Fin 8) : ((h.reedEnd c).reed[c]).stopping = false ∧
    (h.reedEnd c).bit (F.REED_STAT_ACTIVE c) = false ∧ (h.reedEnd c).bit (F.REED_FLAG_STOPPED c) = true ∧
    (∀ x : Fin 16, ((h.reedEnd c).cx c x).st ≠ 1) ∧ ∀ d : Fin 8, d ≠ c → (h.reedEnd c).reed[d] = h.reed[d] := by
  rw [Hub.reedEnd_eq]
  refine ⟨?_, ?_, Hub.flag_bit_same _ _ _ rfl, fun x => ?_, fun d other => ?_⟩
  · rw [Hub.flag_reed, Hub.reed_modReed_same]
  · rw [Hub.bit, Hub.flag_fld, Hub.fld_put_ne, Hub.modReed_fld]
    · exact Hub.bit_off_same _ _
    · exact reedFld_ne (c := c) (r := rrACTIVE) (x := (8, 7, 1)) (by decide)
  · have kept : ((h.ctxStops c).off (F.REED_STAT_ACTIVE c)).cx c x = (h.ctxStops c).cx c x :=
      Hub.cx_congr (Hub.put_reed (h.ctxStops c) _ _) c x
    have ended := Hub.cx_modReed_keep ((h.ctxStops c).off (F.REED_STAT_ACTIVE c)) c
      (g := fun r => { r with stopping := false }) (fun _ => rfl) x
    rw [(Hub.cx_congr (Hub.flag_reed _ _ _) c x).trans (ended.trans kept)]
    exact h.ctxStops_rest c x
  · rw [Hub.flag_reed, Hub.reed_modReed_ne _ other, Hub.off_eq, Hub.put_reed, Hub.ctxStops_others h c d other]

/-! ## FLUSH (R108) -/

theorem Hub.reedFlush_step (h : Hub) (c : Fin 8) {l : List LaneReg} (mem : rrFLUSH ∈ l) :
    ReedStep c l h.reed[c] h (h.reedFlush c) := (ReedStep.start c l h).put (r := rrFLUSH) mem 1

theorem Hub.reedFlush_pends (h : Hub) (c : Fin 8) : (h.reedFlush c).bit (F.REED_CTL_FLUSH c) = true :=
  Hub.bit_on_same _ _ rfl

theorem Hub.flushed_pending (pending : h.bit (F.REED_CTL_FLUSH c) = true) :
    h.flushed c = (h.squash c fun e => e.src != .bridge).off (F.REED_CTL_FLUSH c) := if_pos pending

/-- The cycle after: what contexts queued is gone and counted. -/
theorem Hub.reedFlush_enter (runs : (h.reed[c]).stopping = false) :
    ((h.reedFlush c).reedEnter c).bit (F.REED_CTL_FLUSH c) = false ∧
      (((h.reedFlush c).reedEnter c).reed[c]).q = (h.reed[c]).q.filter (fun e => e.src == .bridge) ∧
      ((h.reedFlush c).reedEnter c).fld (F.REED_SQUASHCNT_COUNT c) = min (h.fld (F.REED_SQUASHCNT_COUNT c) +
        ((h.reed[c]).q.filter fun e => e.src != .bridge).length) (2 ^ 32 - 1) := by
  have flush := Hub.flushed_pending (h.reedFlush_pends c)
  have pend := h.reedFlush_step c (l := [rrFLUSH]) (by simp)
  obtain ⟨q, flushed⟩ := (ReedStep.start c [rrSQUASHED, rrFLUSH] (h.reedFlush c)).flushed (by simp) (by simp)
  obtain ⟨R, step, queue⟩ := Hub.entered_step (h := (h.reedFlush c).flushed c) (c := c)
    (by rw [flushed.engine, pend.engine]; exact runs)
  have counted : ((h.reedFlush c).flushed c).fld (F.REED_SQUASHCNT_COUNT c) =
      ((h.reedFlush c).squash c fun e => e.src != .bridge).fld (F.REED_SQUASHCNT_COUNT c) := by
    rw [flush]
    exact Hub.fld_put_ne _ _ _ _ (reedFld_ne (c := c) (r := rrSQUASHED) (x := rrFLUSH) (by decide))
  have before : (h.reedFlush c).fld (F.REED_SQUASHCNT_COUNT c) = h.fld (F.REED_SQUASHCNT_COUNT c) :=
    pend.fld rrSQUASHED (by decide)
  rw [Hub.reedEnter_eq]
  refine ⟨?_, ?_, ?_⟩
  · refine (step.bit rrFLUSH (by decide)).trans ?_
    rw [flush]
    exact Hub.bit_off_same _ _
  · rw [step.engine, queue, flush, Hub.off_eq, Hub.put_reed, Hub.squash_queue, pend.engine]
    simp only [bne, Bool.not_not]
  · refine (step.fld rrSQUASHED (by decide)).trans (counted.trans ?_)
    rw [Hub.squash, Hub.fld_countSat_same, Hub.modReed_fld, before, pend.engine]
    rfl

/-! ## Context enables (R109) -/

/-- A running engine at the start of a cycle. -/
theorem ReedStep.enter_running {l : List LaneReg} {R : Reed} {k : Hub} (p : ReedStep c l R h k) (count : rrSQUASHED ∈ l)
    (pending : rrFLUSH ∈ l) (active : k.bit (F.REED_STAT_ACTIVE c) = true) (runs : R.stopping = false)
    (run : k.bit (F.REED_CTL_RUN c) = true) : ∃ (m : Hub) (q : List Action), ReedStep c l
        { R with q := q, en := BitVec.ofNat 16 (k.fld (F.REED_CTXEN_EN c)) } h m ∧
      k.reedEnter c = if (m.reed[c]).en.getLsbD (m.slotNow c) && (m.cx c (m.slotNow c)).st == cxOFF then
        m.ctxFresh c (m.slotNow c) (m.ctr c) else m := by
  obtain ⟨q, flushed⟩ := p.flushed count pending
  obtain ⟨_, same⟩ := (ReedStep.start c [rrSQUASHED, rrFLUSH] k).flushed (by simp) (by simp)
  have enables : (k.flushed c).fld (F.REED_CTXEN_EN c) = k.fld (F.REED_CTXEN_EN c) := same.fld rrCTXEN (by decide)
  refine ⟨_, q, flushed.mod fun r => { r with en := BitVec.ofNat 16 (k.fld (F.REED_CTXEN_EN c)) }, ?_⟩
  exact Hub.reedEnter_run active (by rw [p.engine]; exact runs) run (by rw [enables])

theorem Hub.ctxEnable_clear (clear : (h.fld (F.REED_CTXEN_EN c)).testBit x = false) :
    h.ctxEnable c x = h.put (F.REED_CTXEN_EN c) (h.fld (F.REED_CTXEN_EN c) + 2 ^ x.val) :=
  if_neg (by rw [clear]; exact Bool.false_ne_true)

theorem Hub.ctxDisable_set (set : (h.fld (F.REED_CTXEN_EN c)).testBit x = true) :
    h.ctxDisable c x = h.put (F.REED_CTXEN_EN c) (h.fld (F.REED_CTXEN_EN c) - 2 ^ x.val) := if_pos set

/-- A running engine whose context enables are written, in the slot of the context: what the next cycle starts from. -/
theorem Hub.ctxWrite_running {v : Nat} (low : v < 2 ^ 16) (active : h.bit (F.REED_STAT_ACTIVE c) = true)
    (runs : (h.reed[c]).stopping = false) (run : h.bit (F.REED_CTL_RUN c) = true) (slot : h.slotNow c = x) :
    (h.put (F.REED_CTXEN_EN c) v).fld (F.REED_CTXEN_EN c) = v ∧ ∃ (m : Hub) (q : List Action),
      ReedStep c [rrCTXEN, rrSQUASHED, rrFLUSH] { h.reed[c] with q := q, en := BitVec.ofNat 16 v } h m ∧ m.slotNow c = x ∧
      (h.put (F.REED_CTXEN_EN c) v).reedEnter c =
        if v.testBit x && (h.cx c x).st == cxOFF then m.ctxFresh c x (m.ctr c) else m := by
  have written : ReedStep c [rrCTXEN, rrSQUASHED, rrFLUSH] h.reed[c] h (h.put (F.REED_CTXEN_EN c) v) :=
    (ReedStep.start c _ h).put (r := rrCTXEN) (by simp) v
  have value : (h.put (F.REED_CTXEN_EN c) v).fld (F.REED_CTXEN_EN c) = v :=
    (Hub.fld_put_same _ _ _).trans (Nat.mod_eq_of_lt low)
  obtain ⟨m, q, step, entered⟩ := written.enter_running (by simp) (by simp) ((written.bit rrACTIVE (by decide)).trans active)
    runs ((written.bit rrRUN (by decide)).trans run)
  rw [value] at step
  have now : m.slotNow c = x := (step.slotNow (by decide) rfl).trans slot
  have same : m.cx c x = h.cx c x := step.ctx x
  rw [now, step.engine, ctxBit, same] at entered
  exact ⟨value, m, q, step, now, entered⟩

/-- An OFF context that is enabled in its slot begins at its ENTRY. -/
theorem Hub.ctxEnable_enter (clear : (h.fld (F.REED_CTXEN_EN c)).testBit x = false) (low : h.fld (F.REED_CTXEN_EN c) < 2 ^ 16)
    (active : h.bit (F.REED_STAT_ACTIVE c) = true) (runs : (h.reed[c]).stopping = false)
    (run : h.bit (F.REED_CTL_RUN c) = true) (slot : h.slotNow c = x) (off : (h.cx c x).st = cxOFF) :
    (h.ctxEnable c x).fld (F.REED_CTXEN_EN c) = h.fld (F.REED_CTXEN_EN c) + 2 ^ x.val ∧
      ∃ tc, ((h.ctxEnable c x).reedEnter c).cx c x = h.freshCtx c x tc (h.cx c x) := by
  obtain ⟨low', set⟩ := Nat.add_two_pow_of_clear clear low x.isLt
  obtain ⟨value, m, q, step, -, entered⟩ := Hub.ctxWrite_running low' active runs run slot
  rw [Hub.ctxEnable_clear clear]
  refine ⟨value, m.ctr c, ?_⟩
  have same : m.cx c x = h.cx c x := step.ctx x
  rw [entered, set, off, beq_self_eq_true, Bool.and_true, if_pos rfl, Hub.ctxFresh_eq, Hub.cx_modCtx_same,
    step.freshCtx (by decide), same]

/-- Samples that see their pins are a matter of the contexts. -/
theorem ReedStep.samplesSee {l : List LaneReg} {R : Reed} {k : Hub} (p : ReedStep c l R h k) :
    ∃ v, ReedStep c l { R with ctx := v } h (k.samplesSee c) := by
  unfold Hub.samplesSee
  split
  · exact ⟨R.ctx, p⟩
  · exact ⟨R.ctx.map _, p.mod fun r => { r with ctx := r.ctx.map _ }⟩

/-- The context of the slot is OFF at the end of a cycle where its enable is cleared. -/
theorem Hub.reedLeave_disabled (active : h.bit (F.REED_STAT_ACTIVE c) = true) (runs : (h.reed[c]).stopping = false)
    (slot : h.slotNow c = x) (off : (h.reed[c]).en.getLsbD x = false) : ((h.reedLeave c).cx c x).st = cxOFF := by
  obtain ⟨v, seen⟩ := (ReedStep.start c [] h).samplesSee
  have active' : (h.samplesSee c).bit (F.REED_STAT_ACTIVE c) = true := (seen.bit rrACTIVE (by decide)).trans active
  have slot' : (h.samplesSee c).slotNow c = x := (seen.slotNow (by decide) rfl).trans slot
  rw [Hub.reedLeave]
  simp only [active', slot', seen.engine, runs, off, Bool.not_true, Bool.false_eq_true, if_false]
  rw [Hub.cx_modCtx_same]

/-- A context that is disabled in its slot is OFF at the end of the slot. -/
theorem Hub.ctxDisable_leave (set : (h.fld (F.REED_CTXEN_EN c)).testBit x = true) (low : h.fld (F.REED_CTXEN_EN c) < 2 ^ 16)
    (active : h.bit (F.REED_STAT_ACTIVE c) = true) (runs : (h.reed[c]).stopping = false)
    (run : h.bit (F.REED_CTL_RUN c) = true) (slot : h.slotNow c = x) :
    (h.ctxDisable c x).fld (F.REED_CTXEN_EN c) = h.fld (F.REED_CTXEN_EN c) - 2 ^ x.val ∧
      ((((h.ctxDisable c x).reedEnter c).reedLeave c).cx c x).st = cxOFF := by
  have clear := Nat.testBit_sub_two_pow set
  obtain ⟨value, m, q, step, now, entered⟩ := Hub.ctxWrite_running (Nat.lt_of_le_of_lt (Nat.sub_le _ (2 ^ x.val)) low) active
    runs run slot
  rw [clear, Bool.false_and, if_neg Bool.false_ne_true] at entered
  rw [Hub.ctxDisable_set set, entered]
  refine ⟨value, Hub.reedLeave_disabled ((step.bit rrACTIVE (by decide)).trans active) ?_ now ?_⟩
  · rw [step.engine]
    exact runs
  · rw [step.engine, ctxBit, clear]

/-! ## Triggers (R114-R117) -/

abbrev rrSRC : LaneReg := (0x30, 2, 1)
abbrev rrDO_START : LaneReg := (0x30, 3, 1)
abbrev rrDO_LOAD : LaneReg := (0x30, 4, 1)
abbrev rrEPOCH : LaneReg := (4, 4, 4)

/-- What an ARM write samples for a counter trigger. -/
def Hub.sampled (h : Hub) (c : Fin 8) (start load : Bool) : Trig :=
  ⟨false, start, load, h.fld (F.REED_SYNCT_VALUE c 1) * 2 ^ 32 + h.fld (F.REED_SYNCT_VALUE c 0),
    h.fld (F.REED_LOAD_VALUE c 1) * 2 ^ 32 + h.fld (F.REED_LOAD_VALUE c 0), h.now, none⟩

/-- An engine whose counter trigger is armed. -/
def Hub.armed (h : Hub) (c : Fin 8) (start load : Bool) : Hub :=
  ((((h.putB (F.REED_SYNC_DO_LOAD c) load).putB (F.REED_SYNC_DO_START c) start).putB (F.REED_SYNC_SRC c) false).on
    (F.REED_SYNC_ARM c)).modReed c fun r => { r with trig := some (h.sampled c start load) }

theorem W32.bit_or_one (v : W32) (i : Nat) : W32.bit (v ||| 1) i = (v.bit i || decide (i = 0)) := by
  rw [W32.bit, BitVec.toNat_or, Nat.testBit_or, W32.bit]
  congr 1
  exact Bool.eq_iff_iff.mpr (Nat.testBit_one_eq_true_iff_self_eq_zero.trans decide_eq_true_iff.symm)

theorem Hub.syncWrite_armed {v : W32} (arm : v.bit 0 = true) (noDisarm : v.bit 1 = false) (counter : v.bit 2 = false)
    (written : v.bit 3 = true → (h.reed[c]).pmNeed = 0) (due : h.trigDue c = false) :
    h.syncWrite c v = some (h.armed c (v.bit 3) (v.bit 4)) := by
  have accepted : ¬ (v.bit 3 = true ∧ (h.reed[c]).pmNeed ≠ 0) := fun ⟨start, need⟩ => need (written start)
  simp only [Hub.syncWrite, arm, noDisarm, counter, due, accepted, Bool.not_true, Bool.false_eq_true, if_false]
  rfl

theorem Hub.armed_step (h : Hub) (c : Fin 8) (start load : Bool) : ReedStep c [rrARM, rrSRC, rrDO_START, rrDO_LOAD]
    { h.reed[c] with trig := some (h.sampled c start load) } h (h.armed c start load) :=
  (((((ReedStep.start c _ h).put (r := rrDO_LOAD) (by simp) _).put (r := rrDO_START) (by simp) _).put (r := rrSRC) (by simp)
    _).put (r := rrARM) (by simp) 1).mod fun r => { r with trig := some (h.sampled c start load) }

theorem Hub.armed_arm (h : Hub) (c : Fin 8) (start load : Bool) :
    (h.armed c start load).bit (F.REED_SYNC_ARM c) = true := by
  rw [Hub.armed, Hub.modReed_bit]
  exact Hub.bit_on_same _ _ rfl

theorem Hub.armed_out (h : Hub) (c : Fin 8) (start load : Bool) : (h.armed c start load).out = h.out := by
  rw [Hub.armed, Hub.modReed_out, Hub.on_eq, Hub.put_out, Hub.putB_eq, Hub.put_out, Hub.putB_eq, Hub.put_out, Hub.putB_eq, Hub.put_out]

theorem Hub.disarm_out (h : Hub) (c : Fin 8) : (h.disarm c).out = h.out := by
  rw [Hub.disarm, Hub.off_eq, Hub.put_out, Hub.modReed_out]

/-- A counter load: the engine after it, and the registers told. -/
theorem Hub.trigFire_loads {t : Trig} (armed : (h.reed[c]).trig = some t) (noStart : t.doStart = false)
    (load : t.doLoad = true) : ((h.trigFire c).reed[c]).ctr = t.load ∧ ((h.trigFire c).reed[c]).trig = none ∧
      (h.trigFire c).bit (F.REED_SYNC_ARM c) = false ∧ (h.trigFire c).bit (F.REED_FLAG_SYNC_DONE c) = true ∧
      ((h.trigFire c).reed[c]).anc.n = add64 (h.reed[c]).anc.n ((t.load + 2 ^ 64 - h.ctr c) % 2 ^ 64) ∧
      ((h.trigFire c).reed[c]).q.length = (h.reed[c]).q.length ∧ ∀ d : Fin 8, d ≠ c → (h.trigFire c).reed[d] = h.reed[d] := by
  have fired := h.fired_step c (l := [rrARM, rrSYNC_DONE]) (by simp) (by simp)
  have ctr : (h.fired c).ctr c = h.ctr c := fired.ctr rfl
  obtain ⟨g, reeds, loaded, none_, anchor, queue⟩ := Hub.ctrLoad_engine (h.fired c) c t.load
  rw [fired.engine] at loaded none_ anchor queue
  rw [Hub.trigFire_load armed noStart load, reeds, Hub.reed_modReed_same, fired.engine]
  refine ⟨loaded, none_, ?_, ?_, ?_, queue, fun d other => ?_⟩
  · exact ((h.fired c).ctrLoad_bit c _ (reedFld_ne (c := c) (r := rrARM) (x := rrEPOCH) (by decide))).trans (h.fired_arm c)
  · exact ((h.fired c).ctrLoad_bit c _ (reedFld_ne (c := c) (r := rrSYNC_DONE) (x := rrEPOCH) (by decide))).trans (h.fired_done c)
  · rw [anchor, ctr]
  · rw [Hub.reed_modReed_ne _ other, fired.others d other]

/-- What a start leaves of its engine's trigger and of the other engines. -/
theorem Hub.reedStart_engine (h : Hub) (c : Fin 8) : ((h.reedStart c).reed[c]).trig = (h.reed[c]).trig ∧
    ((h.reedStart c).reed[c]).start = h.now ∧ ∀ d : Fin 8, d ≠ c → (h.reedStart c).reed[d] = h.reed[d] := by
  have step := (ReedStep.start c [rrACTIVE] h).reedStart (by simp)
  rw [step.engine]
  exact ⟨rfl, rfl, step.others⟩

theorem Hub.reedStart_bit (h : Hub) (c : Fin 8) (r : LaneReg) (e : r.off [rrACTIVE] = true) :
    (h.reedStart c).bit (reedFld c r) = h.bit (reedFld c r) := ((ReedStep.start c [rrACTIVE] h).reedStart (by simp)).bit r e

/-- A trigger that starts an idle engine. -/
theorem Hub.trigFire_starts {t : Trig} (armed : (h.reed[c]).trig = some t) (start : t.doStart = true)
    (noLoad : t.doLoad = false) (written : (h.reed[c]).pmNeed = 0) (runs : (h.reed[c]).stopping = false)
    (idle : h.bit (F.REED_STAT_ACTIVE c) = false) : ((h.trigFire c).reed[c]).trig = none ∧
      (h.trigFire c).bit (F.REED_SYNC_ARM c) = false ∧ (h.trigFire c).bit (F.REED_FLAG_SYNC_DONE c) = true ∧
      (h.trigFire c).bit (F.REED_CTL_RUN c) = true ∧ (h.trigFire c).bit (F.REED_STAT_ACTIVE c) = true ∧
      ((h.trigFire c).reed[c]).start = h.now ∧ ∀ d : Fin 8, d ≠ c → (h.trigFire c).reed[d] = h.reed[d] := by
  obtain ⟨k, run⟩ : ∃ k, k = (h.fired c).on (F.REED_CTL_RUN c) := ⟨_, rfl⟩
  have step : ReedStep c [rrARM, rrSYNC_DONE, rrRUN] { h.reed[c] with trig := none } h k := by
    rw [run]
    exact (h.fired_step c (by simp) (by simp)).put (r := rrRUN) (by simp) 1
  have arm : k.bit (F.REED_SYNC_ARM c) = false := by
    rw [run]
    exact (Hub.bit_put_ne _ _ _ _ (reedFld_ne (c := c) (r := rrARM) (x := rrRUN) (by decide))).trans (h.fired_arm c)
  have done : k.bit (F.REED_FLAG_SYNC_DONE c) = true := by
    rw [run]
    exact (Hub.bit_put_ne _ _ _ _ (reedFld_ne (c := c) (r := rrSYNC_DONE) (x := rrRUN) (by decide))).trans (h.fired_done c)
  have on : k.bit (F.REED_CTL_RUN c) = true := by
    rw [run]
    exact Hub.bit_on_same _ _ rfl
  obtain ⟨trig, begun, others⟩ := k.reedStart_engine c
  rw [Hub.trigFire_start armed start noLoad written runs idle, ← run]
  refine ⟨?_, (k.reedStart_bit c rrARM (by decide)).trans arm, (k.reedStart_bit c rrSYNC_DONE (by decide)).trans done,
    (k.reedStart_bit c rrRUN (by decide)).trans on, k.reedStart_active c, begun.trans step.now,
    fun d other => (others d other).trans (step.others d other)⟩
  rw [trig, step.engine]

/-- The turn of a cluster when the Gnomon's triggers act (R115). -/
def Hub.gnomonTurn (stops : Fin 8 → Bool) (h : Hub) (c : Fin 8) : Hub :=
  if (h.reed[c]).trig.any fun t => t.gno then h.trigger c (stops c) else h

theorem exec_syncTriggerGnomon (s : State) :
    exec .syncTriggerGnomon s = s.goes ((List.finRange 8).foldl (Hub.gnomonTurn s.stops) s.hub) := rfl

theorem Hub.gnomonTurn_unarmed (stops : Fin 8 → Bool) (none_ : (h.reed[c]).trig = none) : h.gnomonTurn stops c = h := by
  rw [Hub.gnomonTurn, none_]
  rfl

/-- The one armed cluster is the one that acts. -/
theorem Hub.gnomonTurns_alone {stops : Fin 8 → Bool} (alone : ∀ d : Fin 8, d ≠ c → (h.reed[d]).trig = none)
    (kept : ∀ d : Fin 8, d ≠ c → (h.gnomonTurn stops c).reed[d] = h.reed[d]) :
    (List.finRange 8).foldl (Hub.gnomonTurn stops) h = h.gnomonTurn stops c := by
  obtain ⟨front, back, clusters⟩ := List.append_of_mem (List.mem_finRange c)
  obtain ⟨-, once, apart⟩ := List.nodup_append.mp (clusters ▸ List.nodup_finRange 8)
  have before : ∀ d ∈ front, h.gnomonTurn stops d = h := fun d mem =>
    Hub.gnomonTurn_unarmed stops (alone d (apart d mem c (List.mem_cons_self ..)))
  have after : ∀ d ∈ back, (h.gnomonTurn stops c).gnomonTurn stops d = h.gnomonTurn stops c := fun d mem => by
    have other : d ≠ c := fun e => (List.nodup_cons.mp once).1 (e ▸ mem)
    exact Hub.gnomonTurn_unarmed stops (by rw [kept d other]; exact alone d other)
  rw [clusters, List.foldl_append, List.foldl_cons, foldl_idle before, foldl_idle after]

end

end Sys2Proof.Machine
end

section
/-! PROOFS. Engines under control, assembled (O19). -/

namespace Sys2Proof.Machine

/-- Settles O19: each command by what it changes of its engine, and what the start and the end of a cycle make of that. -/
theorem reedControl : Obligations.ReedControl := by
  unfold Obligations.ReedControl
  refine ⟨?run, ?stop, ?stopped, ?flush, ?enable, ?disable, ?arm, ?disarm, ?load, ?cancel, ?gnomon⟩
  case run =>
    intro a c x s admitted written none_ drives runs idle noResume on
    refine (runs_cmdWrite rfl admitted (Hub.reedRun_idle written none_ drives idle)).mpr ?_
    have step := s.hub.runSet_step c (l := [rrRUN]) (by simp)
    obtain ⟨active, ctx⟩ := Hub.runSet_enter drives idle noResume on
    refine ⟨s.hub.runSet_run c, by rw [step.engine], active, ?_, ?_, step.silent (s.hub.runSet_out c), step.regs, step.others⟩
    · rw [ctx]
      rfl
    · rw [ctx]
      rfl
  case stop =>
    intro a c s admitted none_ runs
    refine (runs_cmdDo rfl admitted).mpr ?_
    rw [Hub.reedStop_untriggered none_]
    have step := s.hub.runCleared_step c (l := [rrRUN]) (by simp)
    exact ⟨s.hub.runCleared_run c, by rw [step.engine], Hub.runCleared_enter runs, step.silent (s.hub.runCleared_out c),
      step.regs, step.others⟩
  case stopped =>
    intro c s stops rest
    refine (runs_iff rfl).mpr ?_
    rw [Hub.reedStopped, stops, rest]
    exact s.hub.reedEnd_spec c
  case flush =>
    intro a c s admitted runs
    refine (runs_cmdDo rfl admitted).mpr ?_
    have step := s.hub.reedFlush_step c (l := [rrFLUSH]) (by simp)
    obtain ⟨done, queue, count⟩ := Hub.reedFlush_enter runs
    exact ⟨s.hub.reedFlush_pends c, by rw [step.engine], done, queue, count,
      step.registers (Hub.put_reed _ _ _) (Hub.put_out _ _ _), step.regs⟩
  case enable =>
    intro a c x s admitted clear low active run runs slot off
    refine (runs_cmdDo rfl admitted).mpr ?_
    obtain ⟨value, tc, begins⟩ := Hub.ctxEnable_enter clear low active runs run slot off
    have step : ReedStep c [rrCTXEN] s.hub.reed[c] s.hub (s.hub.ctxEnable c x) := by
      rw [Hub.ctxEnable_clear clear]
      exact (ReedStep.start c _ s.hub).put (r := rrCTXEN) (by simp) _
    refine ⟨value, ?_, ?_, step.registers ?_ ?_, step.regs⟩
    · rw [begins]
      rfl
    · rw [begins]
      rfl
    · rw [Hub.ctxEnable_clear clear, Hub.put_reed]
    · rw [Hub.ctxEnable_clear clear, Hub.put_out]
  case disable =>
    intro a c x s admitted set low active run runs slot
    refine (runs_cmdDo rfl admitted).mpr ?_
    obtain ⟨value, ends⟩ := Hub.ctxDisable_leave set low active runs run slot
    have step : ReedStep c [rrCTXEN] s.hub.reed[c] s.hub (s.hub.ctxDisable c x) := by
      rw [Hub.ctxDisable_set set]
      exact (ReedStep.start c _ s.hub).put (r := rrCTXEN) (by simp) _
    refine ⟨value, congrArg Ctx.st (step.ctx x), ends, step.registers ?_ ?_, step.regs⟩
    · rw [Hub.ctxDisable_set set, Hub.put_reed]
    · rw [Hub.ctxDisable_set set, Hub.put_out]
  case arm =>
    intro a c v s admitted noDisarm counter written due
    have bit (i : Nat) (pos : i ≠ 0) : W32.bit (v ||| 1) i = v.bit i := by
      rw [W32.bit_or_one, decide_eq_false pos, Bool.or_false]
    have written' : W32.bit (v ||| 1) 3 = true → (s.hub.reed[c]).pmNeed = 0 := by
      rw [bit 3 (by decide)]
      exact written
    refine (runs_cmdWrite rfl admitted (Hub.syncWrite_armed (by rw [W32.bit_or_one]; exact Bool.or_true _)
      ((bit 1 (by decide)).trans noDisarm) ((bit 2 (by decide)).trans counter) written' due)).mpr ?_
    rw [bit 3 (by decide), bit 4 (by decide)]
    have step := s.hub.armed_step c (v.bit 3) (v.bit 4)
    refine ⟨?_, s.hub.armed_arm c _ _, step.silent (s.hub.armed_out c _ _), step.regs, step.others⟩
    rw [step.engine]
    rfl
  case disarm =>
    intro a c s admitted
    refine (runs_cmdDo rfl admitted).mpr ?_
    have step := s.hub.disarm_step c (l := [rrARM]) (by simp)
    exact ⟨by rw [step.engine], s.hub.disarm_arm c, step.silent (s.hub.disarm_out c), step.regs, step.others⟩
  case load =>
    intro c t s armed counter due noStop noStart load
    refine (runs_iff rfl).mpr ?_
    rw [armed, Option.any_some, counter, if_neg Bool.false_ne_true, noStop, Hub.trigger_fires due]
    exact Hub.trigFire_loads armed noStart load
  case cancel =>
    intro c t s armed counter due stop
    refine (runs_iff rfl).mpr ?_
    rw [armed, Option.any_some, counter, if_neg Bool.false_ne_true, stop, Hub.trigger_stops due]
    have step := s.hub.disarm_step c (l := [rrARM]) (by simp)
    exact ⟨by rw [step.engine], s.hub.disarm_arm c, by rw [step.engine], step.silent (s.hub.disarm_out c), step.regs,
      step.others⟩
  case gnomon =>
    intro c t s armed gnomon due noStop start noLoad written runs idle alone
    refine (runs_iff (exec_syncTriggerGnomon s)).mpr ?_
    have acts : s.hub.gnomonTurn s.stops c = s.hub.trigFire c := by
      rw [Hub.gnomonTurn, armed, Option.any_some, if_pos gnomon, noStop, Hub.trigger_fires due]
    have starts := Hub.trigFire_starts armed start noLoad written runs idle
    have others : ∀ d : Fin 8, d ≠ c → (s.hub.trigFire c).reed[d] = s.hub.reed[d] := by
      obtain ⟨-, -, -, -, -, -, others⟩ := starts
      exact others
    rw [Hub.gnomonTurns_alone alone (by rw [acts]; exact others), acts]
    exact starts

end Sys2Proof.Machine
end

section
/-! PROOFS. CAN controllers: message objects, ends of requests and error counts as the frames on the bus change them
(R126-R134). -/

namespace Sys2Proof.Machine

/-! ## Message objects (R126, R128, R130) -/

theorem Can.word_setWord_other (c : Can) (j : Fin 128) {w w' : Nat} (e : w ≠ w') (v : W32) :
    (c.setWord j w' v).word j w = c.word j w :=
  Sparse.get_set_ne _ _ _ _ (by omega)

/-- What every write of an object's data words keeps, the storing of a data field keeps. -/
theorem Can.setData_ind {P : Can → Prop} {j : Fin 128} (step : ∀ c w v, 4 ≤ w → P c → P (c.setWord j w v)) {c : Can}
    (start : P c) (bs : List Byte) : P (c.setData j bs) :=
  List.foldlRecOn _ _ start fun c p i _ => step c (4 + i) _ (Nat.le_add_right 4 i) p

/-- Storing data leaves the object's header words. -/
theorem Can.setData_header (c : Can) (j : Fin 128) (bs : List Byte) {w : Nat} (header : w < 4) :
    (c.setData j bs).word j w = c.word j w :=
  Can.setData_ind (P := fun g => g.word j w = c.word j w)
    (fun g _ v data kept => (g.word_setWord_other j (Nat.ne_of_lt (header.trans_le data)) v).trans kept) rfl bs

/-- Storing data touches the message RAM alone. -/
theorem Can.setData_parts (c : Can) (j : Fin 128) (bs : List Byte) :
    c.setData j bs = { c with ram := (c.setData j bs).ram, bad := (c.setData j bs).bad } :=
  Can.setData_ind (P := fun g => g = { c with ram := g.ram, bad := g.bad })
    (fun g w v _ kept => by rw [kept]; rfl) rfl bs

/-- The code a request ends with stands in TXRES. -/
theorem Can.ended_res (c : Can) (j : Fin 128) {res : Nat} (code : res < 8) : ((c.ended j res).word j 3).bits 29 27 = res := by
  have word : (c.ended j res).word j 3 = (c.word j 3 &&& ~~~ (0x38000000#32)) ||| BitVec.ofNat 32 (res * 2 ^ 27) :=
    Can.word_setWord_same c j 3 _
  have mask : (~~~ (0x38000000#32)).toNat >>> 27 % 2 ^ (29 + 1 - 27) = 0 := by decide
  rw [word, W32.bits, BitVec.toNat_or, BitVec.toNat_and, Nat.shiftRight_or_distrib, Nat.shiftRight_and_distrib,
    Nat.or_mod_two_pow, Nat.and_mod_two_pow, mask, Nat.and_zero, Nat.zero_or, BitVec.toNat_ofNat, Nat.shiftRight_eq_div_pow]
  omega

/-! ## Frames of a controller's changes -/

theorem forall_mem_pair {α : Type} {P : α → Prop} {a b : α} (first : P a) (second : P b) : ∀ x ∈ [a, b], P x :=
  List.forall_mem_cons.mpr ⟨first, List.forall_mem_singleton.mpr second⟩

section
variable {k : Fin 16} {l : List Fld} {h g : Hub}

theorem CanChange.emit (p : CanChange k l h g) (o : Out) : CanChange k l h (g.emit o) :=
  p.trans ⟨rfl, fun _ _ => rfl, fun _ _ => rfl⟩

/-- A change of other registers leaves the controller's state. -/
theorem CanChange.st (p : CanChange k l h g) (other : ∀ f ∈ l, (F.CAN_STAT_STATE k).key ≠ f.key) : g.canSt k = h.canSt k :=
  p.regs _ other

theorem CanChange.bit (p : CanChange k l h g) {f : Fld} (other : ∀ r ∈ l, f.key ≠ r.key) : g.bit f = h.bit f :=
  congrArg (· != 0) (p.regs f other)

end

section
variable (h : Hub) (k : Fin 16)

/-- Entering a state leaves every other register. -/
theorem Hub.canTo_bit (v : Nat) {f : Fld} (e : f.key ≠ (F.CAN_STAT_STATE k).key) : (h.canTo k v).bit f = h.bit f :=
  Hub.bit_put_ne _ _ _ _ e

theorem Hub.canTo_can (v : Nat) : (h.canTo k v).can = h.can := rfl

theorem Hub.canTo_out (v : Nat) : (h.canTo k v).out = h.out := rfl

theorem CanChange.canTo_others {k : Fin 16} {l : List Fld} {h g : Hub} (p : CanChange k l h g) (v : Nat) :
    ∀ i : Fin 16, i ≠ k → (g.canTo k v).can[i] = h.can[i] := by
  simp only [Hub.canTo_can]
  exact p.others

theorem Hub.canEnd_self (j : Fin 128) (res : Nat) : (h.canEnd k j res).can[k] = (h.can[k]).ended j res := by
  rw [Hub.canEnd_can]
  simp

theorem Hub.canEnd_tx (j : Fin 128) (res : Nat) : (h.canEnd k j res).bit (F.CAN_FLAG_TX k) = true :=
  Hub.flag_bit_same _ _ _ rfl

end

/-- The bus is free again and no disable waits. -/
theorem Hub.canIdle_free {h : Hub} {k : Fin 16} (settled : (h.can[k]).closing = false) : h.canIdle k = h.canTo k canIDLE :=
  if_neg (by rw [settled]; decide)

/-! ## Attempts that fail (R131) -/

/-- A controller with no attempt in progress. -/
def Can.detached (c : Can) : Can := { c with att := none }

/-- A failed attempt of an object that tries again stays pending. -/
theorem Hub.canFail_again {h : Hub} {k : Fin 16} {a : Attempt} (att : (h.can[k]).att = some a) (wanted : a.cancelled = false)
    (again : ((h.can[k]).word a.obj 0).getLsbD 26 = false) (one : Nat) :
    h.canFail k one = h.modCan k Can.detached := by
  have again' : (((h.modCan k Can.detached).can[k]).word a.obj 0).getLsbD 26 = false := by
    rw [Hub.modCan_self]
    exact again
  simp only [Hub.canFail, att, wanted, ← Can.detached.eq_1, again', Bool.false_eq_true, if_false]

/-- A failed attempt of a one-shot object ends its request. -/
theorem Hub.canFail_once {h : Hub} {k : Fin 16} {a : Attempt} (att : (h.can[k]).att = some a) (wanted : a.cancelled = false)
    (once : ((h.can[k]).word a.obj 0).getLsbD 26 = true) (one : Nat) :
    h.canFail k one = (h.modCan k Can.detached).canEnd k a.obj one := by
  have once' : (((h.modCan k Can.detached).can[k]).word a.obj 0).getLsbD 26 = true := by
    rw [Hub.modCan_self]
    exact once
  simp only [Hub.canFail, att, wanted, ← Can.detached.eq_1, once', Bool.false_eq_true, if_false, if_true]

theorem Hub.canFail_none {h : Hub} {k : Fin 16} (att : (h.can[k]).att = none) (one : Nat) : h.canFail k one = h := by
  simp only [Hub.canFail, att]

/-! ## Error counts (R134) -/

/-- The controller holds new error counts. -/
def Can.counting (tec rec_ : Nat) (c : Can) : Can := { c with tec := tec, rec_ := rec_ }

/-- New counts below the warning limit raise no flag and leave the controller error active. -/
def Hub.canCounted (h : Hub) (k : Fin 16) (tec rec_ : Nat) : Hub :=
  (h.modCan k (Can.counting tec rec_)).put (F.CAN_STAT_ERRST k) 0

theorem Hub.canCounts_low (h : Hub) (k : Fin 16) {tec rec_ : Nat} (sends : tec < 96) (receives : rec_ < 96) :
    h.canCounts k tec rec_ = h.canCounted k tec rec_ := by
  have noWarn : ¬ (((h.can[k]).tec < 96 ∧ 96 ≤ tec) ∨ ((h.can[k]).rec_ < 96 ∧ 96 ≤ rec_)) := by omega
  have cap : min 255 rec_ = rec_ := Nat.min_eq_right (by omega)
  unfold Hub.canCounts Hub.canCounted Can.counting
  dsimp only
  rw [if_neg noWarn, if_neg (by omega), if_neg (by omega), cap]

section
variable (h : Hub) (k : Fin 16) (tec rec_ : Nat)

theorem Hub.canCounted_self : (h.canCounted k tec rec_).can[k] = (h.can[k]).counting tec rec_ := by
  rw [Hub.canCounted, Hub.put_can, Hub.modCan_self]

theorem Hub.canCounted_change {l : List Fld} (errst : F.CAN_STAT_ERRST k ∈ l) : CanChange k l h (h.canCounted k tec rec_) :=
  ((CanChange.refl k l h).mod _).put errst 0

theorem Hub.canCounted_st : (h.canCounted k tec rec_).canSt k = h.canSt k :=
  (h.canCounted_change k tec rec_ (l := [F.CAN_STAT_ERRST k]) (by simp)).st (List.forall_mem_singleton.mpr (canKey_ne (by decide)))

end

/-- A frame received without error takes 1 from REC. -/
theorem Hub.canRxOk_low {h : Hub} {k : Fin 16} (receives : (h.can[k]).rec_ < 96) (sends : (h.can[k]).tec < 96) :
    h.canRxOk k = h.canCounted k (h.can[k]).tec ((h.can[k]).rec_ - 1) := by
  rw [Hub.canRxOk, if_neg (by omega), h.canCounts_low k sends (by omega)]

end Sys2Proof.Machine
end

section
/-! PROOFS. CAN controllers: requests, the choice of a frame and its start (R130, R133). -/

namespace Sys2Proof.Machine

/-! ## Requests (R130, R133) -/

/-- A request is pending: its bit is set and TXRES of its object is 0. -/
def Can.requested (j : Fin 128) (c : Can) : Can :=
  { c.setWord j 3 (c.word j 3 &&& ~~~ (0x38000000#32)) with txreq := c.txreq ||| BitVec.twoPow 128 j }

theorem Hub.canTxReq_enabled {h : Hub} {k : Fin 16} {j : Fin 128} (clear : (h.can[k]).txreq.getLsbD j = false)
    (enabled : (h.can[k]).objen.getLsbD j = true) (awake : h.canAsleep k = false) :
    h.canTxReq k j = h.modCan k (Can.requested j) := by
  have enabled' : ((h.modCan k (Can.requested j)).can[k]).objen.getLsbD j = true := by
    rw [Hub.modCan_self]
    exact enabled
  have awake' : (h.modCan k (Can.requested j)).canAsleep k = false := awake
  unfold Hub.canTxReq
  rw [if_neg (Bool.eq_false_iff.mp clear)]
  exact (if_neg (Bool.eq_false_iff.mp ((congrArg (Hub.canAsleep · k) (if_pos enabled')).trans awake'))).trans (if_pos enabled')

/-- With no frame on its way a cancelled request ends at once. -/
theorem Hub.canCancel_waiting {h : Hub} {k : Fin 16} {j : Fin 128} (pending : (h.can[k]).txreq.getLsbD j = true)
    (none_ : (h.can[k]).att = none) : h.canCancel k j = h.canEnd k j 2 := by
  simp only [Hub.canCancel, pending, none_, Bool.not_true, Bool.false_eq_true, if_false]

/-! ## The choice of a frame (R130) -/

/-- The frame of an object depends on the message RAM and on registers. -/
theorem Hub.canFrameOf_modCan (h : Hub) (k : Fin 16) {m : Can → Can} (ram : (m h.can[k]).ram = (h.can[k]).ram) (j : Fin 128) :
    (h.modCan k m).canFrameOf k j = h.canFrameOf k j := by
  have word (w : Nat) : (m h.can[k]).word j w = (h.can[k]).word j w := by rw [Can.word, ram, Can.word]
  simp only [Hub.canFrameOf, Can.dataOf, Hub.modCan_self, Hub.modCan_bit, Hub.modCan_fld, word]

theorem Hub.canPick_modCan (h : Hub) (k : Fin 16) {m : Can → Can} (ram : (m h.can[k]).ram = (h.can[k]).ram)
    (txreq : (m h.can[k]).txreq = (h.can[k]).txreq) (objen : (m h.can[k]).objen = (h.can[k]).objen) :
    (h.modCan k m).canPick k = h.canPick k := by
  unfold Hub.canPick
  simp only [h.canFrameOf_modCan k ram, Hub.modCan_self, txreq, objen, Can.word, ram] <;> rfl

/-- With no request pending no frame is chosen. -/
theorem Hub.canPick_none {h : Hub} {k : Fin 16} (none_ : (h.can[k]).txreq = 0) : h.canPick k = none := by
  unfold Hub.canPick
  refine List.foldlRecOn (motive := (· = none)) _ _ rfl fun best hb j _ => ?_
  rw [none_, hb, if_neg (by simp)]

/-! ## The start of a frame (R130) -/

/-- A controller at SOF: enables that waited are in force, and the counter of the sample point is kept. -/
def Can.started (at_ : Nat) (c : Can) : Can := { c with objen := c.objenNext.getD c.objen, objenNext := none, sof := at_ }

/-- A controller that has begun to send object j: its CLASH mark is cleared. -/
def Can.sending (j : Fin 128) (c : Can) : Can :=
  { c.setWord j 3 (c.word j 3 &&& ~~~ (0x00080000#32)) with att := some { obj := j } }

/-- The hub at SOF of controller k, before the choice of a frame. -/
def Hub.canStarts (h : Hub) (k : Fin 16) : Hub :=
  h.modCan k (Can.started (((h.reed[canCluster k]).ctr + h.canSample k) % 2 ^ 64))

theorem Can.firstBads_none {c : Can} (sound : c.bad = []) (pend : Fin 128 → Bool) (ws : List Nat) :
    ((List.finRange 128).findSome? fun j => if pend j then c.firstBad j ws else none) = none := by
  rw [List.findSome?_eq_none_iff]
  intro j _
  rw [Can.firstBad_none sound, ite_self]

section
variable {h : Hub} {k : Fin 16} (idle : h.canSt k = canIDLE) (sound : (h.can[k]).bad = [])
include idle sound

/-- With no frame to send a controller that hears the bus receives. -/
theorem Hub.canSof_receive (none_ : (h.can[k]).txreq = 0) (hears : h.canDeaf k = false) :
    h.canSof k = (h.canStarts k).canTo k canRECEIVE := by
  have sound' : ((h.canStarts k).can[k]).bad = [] := by
    rw [Hub.canStarts, Hub.modCan_self]
    exact sound
  have pick : (h.canStarts k).canPick k = none := Hub.canPick_none (by
    rw [Hub.canStarts, Hub.modCan_self]
    exact none_)
  have hears' : (h.canStarts k).canDeaf k = false := hears
  unfold Hub.canSof
  rw [if_neg (by rw [idle]; decide), if_neg (by rw [idle]; decide)]
  dsimp only
  simp only [← Can.started.eq_1, ← Hub.canStarts.eq_1, Can.firstBads_none sound', pick, ite_self, hears'] <;> rfl

/-- The frame chosen is sent on the bus. -/
theorem Hub.canSof_send {j : Fin 128} (settled : (h.can[k]).objenNext = none) (talks : h.bit (F.CAN_CTL_LISTEN k) = false)
    (onBus : h.bit (F.CAN_CTL_LOOP k) = false) (own : h.canTaken k 0 = false) (drives : h.drives = true)
    (pick : h.canPick k = some j) :
    h.canSof k = ((((h.canStarts k).modCan k (Can.sending j)).emit (.canFrame k (h.canFrameOf k j))).canTo k canTRANSMIT) := by
  have sound' : ((h.canStarts k).can[k]).bad = [] := by
    rw [Hub.canStarts, Hub.modCan_self]
    exact sound
  have pick' : (h.canStarts k).canPick k = some j :=
    (h.canPick_modCan k rfl rfl (by rw [Can.started, settled]; rfl)).trans pick
  have frame : (h.canStarts k).canFrameOf k j = h.canFrameOf k j := h.canFrameOf_modCan k rfl j
  have listens : (h.bit (F.CAN_CTL_LISTEN k) || !h.drives) = false := by rw [talks, drives]; rfl
  have offBus : (h.bit (F.CAN_CTL_LOOP k) || h.canTaken k 0) = false := by rw [onBus, own]; rfl
  have listens' : ((h.canStarts k).bit (F.CAN_CTL_LISTEN k) || !(h.canStarts k).drives) = false := listens
  unfold Hub.canSof
  rw [if_neg (by rw [idle]; decide), if_neg (by rw [idle]; decide)]
  dsimp only
  simp only [← Can.started.eq_1, ← Hub.canStarts.eq_1, Can.firstBads_none sound']
  simp only [Can.firstBad_none sound', listens', pick', frame, Bool.false_eq_true, if_false]
  exact congrArg (Hub.canTo · k canTRANSMIT) (if_neg (Bool.eq_false_iff.mp offBus))

end

end Sys2Proof.Machine
end

section
/-! PROOFS. CAN controllers: the end of a frame, sent, received or broken by an error (R127, R128, R130, R134). -/

namespace Sys2Proof.Machine

/-! ## A frame sent (R130) -/

/-- The controller whose attempt on object j completed: its stamp stands in word 3. -/
def Can.stamped (j : Fin 128) (c : Can) : Can :=
  { c.setWord j 3 ((c.word j 3 &&& 0xFFFF0000#32) ||| BitVec.ofNat 32 (c.sof / 16 % 65536)) with att := none }

/-- A frame sent, before the bus is free again. -/
def Hub.canDone (h : Hub) (k : Fin 16) (j : Fin 128) : Hub :=
  ((h.canCounted k ((h.can[k]).tec - 1) (h.can[k]).rec_).modCan k (Can.stamped j)).canEnd k j 1

theorem Hub.canDone_change (h : Hub) (k : Fin 16) (j : Fin 128) :
    CanChange k [F.CAN_STAT_ERRST k, F.CAN_FLAG_TX k] h (h.canDone k j) :=
  ((h.canCounted_change k _ _ (by simp)).mod _).trans (Hub.canEnd_change _ k j 1 (by simp))

theorem Hub.canDone_self (h : Hub) (k : Fin 16) (j : Fin 128) :
    (h.canDone k j).can[k] = (((h.can[k]).counting ((h.can[k]).tec - 1) (h.can[k]).rec_).stamped j).ended j 1 := by
  rw [Hub.canDone, Hub.canEnd_self, Hub.modCan_self, Hub.canCounted_self]

/-- An attempt that was not cancelled completes off loopback. -/
theorem Hub.canSent_eq {h : Hub} {k : Fin 16} {a : Attempt} (st : h.canSt k = canTRANSMIT) (att : (h.can[k]).att = some a)
    (wanted : a.cancelled = false) (noTdc : h.bit (F.CAN_TDC_TDCE k) = false) (sends : (h.can[k]).tec < 96)
    (receives : (h.can[k]).rec_ < 96) (onBus : h.bit (F.CAN_CTL_LOOP k) = false) (settled : (h.can[k]).closing = false) :
    h.canSent k = (h.canDone k a.obj).canTo k canIDLE := by
  have change := h.canDone_change k a.obj
  have onBus' : (h.canDone k a.obj).bit (F.CAN_CTL_LOOP k) = false :=
    (change.bit (forall_mem_pair (canKey_ne (by decide)) (canKey_ne (by decide)))).trans onBus
  have st' : (h.canDone k a.obj).canSt k = canTRANSMIT :=
    (change.st (forall_mem_pair (canKey_ne (by decide)) (canKey_ne (by decide)))).trans st
  have settled' : ((h.canDone k a.obj).can[k]).closing = false := by
    rw [Hub.canDone_self]
    exact settled
  have tdc : h.canTdc k (h.canFrameOf k a.obj) = h := by
    unfold Hub.canTdc
    rw [noTdc]
    rfl
  unfold Hub.canSent
  rw [att]
  dsimp only
  rw [if_neg (not_not.mpr st), tdc, h.canCounts_low k (by omega) receives, wanted, if_neg Bool.false_ne_true]
  simp only [← Can.stamped.eq_1]
  have noStore : (if (h.canDone k a.obj).bit (F.CAN_CTL_LOOP k) then (h.canDone k a.obj).canStore k (h.canFrameOf k a.obj)
      else h.canDone k a.obj) = h.canDone k a.obj := if_neg (Bool.eq_false_iff.mp onBus')
  exact (congrArg (fun g : Hub => if g.canSt k = canTRANSMIT then g.canIdle k else g) noStore).trans
    ((if_pos st').trans (Hub.canIdle_free settled'))

/-! ## A frame received (R127, R128) -/

/-- The controller with a frame stored in object j, which held none: W1 and data, then W3. -/
def Can.stored (j : Fin 128) (f : CanFrame) (c : Can) : Can :=
  { ((c.setWord j 1 (f.ident.setWidth 32)).setData j f.data).setWord j 3
      (1#1 ++ 0#1 ++ 0#3 ++ BitVec.ofBool f.esi ++ BitVec.ofBool f.fdf ++ BitVec.ofBool f.brs ++ f.dlc ++ 0#4 ++
        BitVec.ofNat 16 (c.sof / 16)) with newdat := c.newdat ||| BitVec.twoPow 128 j }

theorem Can.stored_w1 (c : Can) (j : Fin 128) (f : CanFrame) : (c.stored j f).word j 1 = f.ident.setWidth 32 := by
  have other : (c.stored j f).word j 1 = ((c.setWord j 1 (f.ident.setWidth 32)).setData j f.data).word j 1 :=
    Can.word_setWord_other _ j (by decide) _
  rw [other, Can.setData_header _ _ _ (by decide), Can.word_setWord_same]

theorem Can.stored_w3 (c : Can) (j : Fin 128) (f : CanFrame) : (c.stored j f).word j 3 =
    1#1 ++ 0#1 ++ 0#3 ++ BitVec.ofBool f.esi ++ BitVec.ofBool f.fdf ++ BitVec.ofBool f.brs ++ f.dlc ++ 0#4 ++
      BitVec.ofNat 16 (c.sof / 16) :=
  Can.word_setWord_same _ j 3 _

/-- Beside the message RAM and NEWDAT the controller is as it was. -/
theorem Can.stored_parts (c : Can) (j : Fin 128) (f : CanFrame) : c.stored j f =
    { c with ram := (c.stored j f).ram, bad := (c.stored j f).bad, newdat := c.newdat ||| BitVec.twoPow 128 j } := by
  unfold Can.stored Can.setWord
  dsimp only
  rw [Can.setData_parts]

/-- Object j, which holds no frame and feeds no tunnel, is the lowest that accepts the frame, and the message RAM is sound. -/
structure Can.Takes (c : Can) (j : Fin 128) (f : CanFrame) : Prop where
  sound : c.bad = []
  accepts : c.accepts j f = true
  lowest : ∀ i : Fin 128, i.val < j.val → c.accepts i f = false
  noTunnel : (c.word j 0).getLsbD 25 = false
  empty : c.newdat.getLsbD j = false

/-- Error counts do not matter to the choice of the object. -/
theorem Can.Takes.counting {c : Can} {j : Fin 128} {f : CanFrame} (p : c.Takes j f) (tec rec_ : Nat) :
    (c.counting tec rec_).Takes j f :=
  ⟨p.sound, p.accepts, p.lowest, p.noTunnel, p.empty⟩

/-- The object that stores a frame: the lowest enabled one that accepts it. -/
theorem Can.Takes.found {c : Can} {j : Fin 128} {f : CanFrame} (p : c.Takes j f) : ((List.finRange 128).find? fun j : Fin 128 =>
    c.objen.getLsbD j && ((c.firstBad j [0, 1, 2]).isSome || c.accepts j f)) = some j := by
  have enabled (i : Fin 128) : (c.objen.getLsbD i && ((c.firstBad i [0, 1, 2]).isSome || c.accepts i f)) = c.accepts i f := by
    rw [Can.firstBad_none p.sound, Option.isSome_none, Bool.false_or]
    unfold Can.accepts
    cases c.objen.getLsbD i <;> rfl
  simp only [enabled]
  rw [List.find?_eq_some_iff_getElem]
  refine ⟨p.accepts, j, by simp, by simp, fun i hi => ?_⟩
  rw [List.getElem_finRange]
  simpa using p.lowest _ hi

/-- A frame is stored in the object that takes it. -/
theorem Hub.canStore_eq {h : Hub} {k : Fin 16} {j : Fin 128} {f : CanFrame} (takes : (h.can[k]).Takes j f) :
    h.canStore k f = ((h.modCan k (Can.stored j f)).mark (F.CAN_NEWDAT k j).key 1).canFlag k (F.CAN_FLAG_RX k) := by
  have newdat : (((h.can[k]).setWord j 1 (f.ident.setWidth 32)).setData j f.data).newdat = (h.can[k]).newdat := by
    rw [Can.setData_parts]
    rfl
  unfold Hub.canStore
  rw [takes.found]
  dsimp only
  rw [Can.firstBad_none takes.sound]
  dsimp only
  rw [takes.noTunnel, takes.empty, if_neg Bool.false_ne_true, Bool.false_and, if_neg Bool.false_ne_true]
  unfold Hub.modCan Can.stored
  dsimp only
  rw [newdat]
  rfl

/-- The hub whose controller k has counted and stored a frame, before the bus is free again. -/
def Hub.canTook (h : Hub) (k : Fin 16) (j : Fin 128) (f : CanFrame) : Hub :=
  (((h.canCounted k (h.can[k]).tec ((h.can[k]).rec_ - 1)).modCan k (Can.stored j f)).mark (F.CAN_NEWDAT k j).key 1).canFlag k
    (F.CAN_FLAG_RX k)

theorem Hub.canTook_change (h : Hub) (k : Fin 16) (j : Fin 128) (f : CanFrame) :
    CanChange k [F.CAN_STAT_ERRST k, F.CAN_FLAG_RX k] h (h.canTook k j f) :=
  (((h.canCounted_change k _ _ (by simp)).mod _).mark _ _).flag _ (by simp)

theorem Hub.canTook_self (h : Hub) (k : Fin 16) (j : Fin 128) (f : CanFrame) :
    (h.canTook k j f).can[k] = ((h.can[k]).counting (h.can[k]).tec ((h.can[k]).rec_ - 1)).stored j f := by
  have can : (h.canTook k j f).can = ((h.canCounted k (h.can[k]).tec ((h.can[k]).rec_ - 1)).modCan k (Can.stored j f)).can := by
    rw [Hub.canTook, Hub.canFlag, Hub.flag_can, Hub.mark_can]
  simp only [can]
  rw [Hub.modCan_self, Hub.canCounted_self]

/-- A frame received without error is counted and stored, and the bus is free again. -/
theorem Hub.canReceived_eq {h : Hub} {k : Fin 16} {j : Fin 128} {f : CanFrame} (st : h.canSt k = canRECEIVE)
    (hears : h.canDeaf k = false) (format : f.fdf = true → h.bit (F.CAN_CTL_FDOE k) = true) (receives : (h.can[k]).rec_ < 96)
    (sends : (h.can[k]).tec < 96) (settled : (h.can[k]).closing = false) (takes : (h.can[k]).Takes j f) :
    h.canReceived k f = (h.canTook k j f).canTo k canIDLE := by
  have reaches : ¬ (h.canSt k ≠ canRECEIVE ∨ h.canDeaf k = true ∨ (f.fdf = true ∧ (!h.bit (F.CAN_CTL_FDOE k)) = true)) := by
    rintro (e | e | ⟨e, e'⟩)
    · exact e st
    · simp [hears] at e
    · simp [format e] at e'
  have stores : (h.canRxOk k).canStore k f = h.canTook k j f := by
    rw [Hub.canRxOk_low receives sends]
    refine Hub.canStore_eq ?_
    rw [Hub.canCounted_self]
    exact takes.counting _ _
  have st' : (h.canTook k j f).canSt k = canRECEIVE :=
    ((h.canTook_change k j f).st (forall_mem_pair (canKey_ne (by decide)) (canKey_ne (by decide)))).trans st
  have settled' : ((h.canTook k j f).can[k]).closing = false := by
    rw [Hub.canTook_self, Can.stored_parts]
    exact settled
  unfold Hub.canReceived
  rw [if_neg reaches]
  dsimp only
  rw [stores, if_pos st', Hub.canIdle_free settled']

/-! ## A frame that ends in an error (R134) -/

/-- The error is counted in ECNT and recorded in LEC. -/
def Hub.canErred (h : Hub) (k : Fin 16) (e : CanError) : Hub :=
  (h.countSat (F.CAN_ECNT_CEL k)).put (F.CAN_STAT_LEC k) e.code.toNat

theorem Hub.canErred_lec (h : Hub) (k : Fin 16) (e : CanError) : (h.canErred k e).fld (F.CAN_STAT_LEC k) = e.code.toNat :=
  (Hub.fld_put_same _ _ _).trans (Nat.mod_eq_of_lt e.code.isLt)

theorem Hub.canErred_can (h : Hub) (k : Fin 16) (e : CanError) : (h.canErred k e).can = h.can := rfl

/-- The counts and the state that follow an error leave its record. -/
theorem Hub.canCounted_lec (h : Hub) (k : Fin 16) (tec rec_ v : Nat) :
    ((h.canCounted k tec rec_).canTo k v).fld (F.CAN_STAT_LEC k) = h.fld (F.CAN_STAT_LEC k) := by
  rw [Hub.canTo, Hub.fld_put_ne _ (F.CAN_STAT_STATE k) (F.CAN_STAT_LEC k) _ (canKey_ne (by decide)), Hub.canCounted,
    Hub.fld_put_ne _ (F.CAN_STAT_ERRST k) (F.CAN_STAT_LEC k) _ (canKey_ne (by decide)), Hub.modCan_fld]

theorem Hub.canCounted_others {h : Hub} {k i : Fin 16} (e : i ≠ k) (tec rec_ v : Nat) :
    ((h.canCounted k tec rec_).canTo k v).can[i] = h.can[i] :=
  h.modCan_ne e (Can.counting tec rec_)

/-- An error that LEC records and that the counts of ISO 11898-1 do not except: at the nominal bit rate, no stuff error in
arbitration and no missing acknowledge without a dominant bit. -/
structure PlainError (e : CanError) : Prop where
  nominal : e.dataPhase = false
  counted : e.stuffInArb = false
  answered : e.passiveNoDominant = false

/-- The measurement of the loop delay leaves the controllers. -/
theorem Hub.canTdc_can (h : Hub) (k : Fin 16) (f : CanFrame) : (h.canTdc k f).can = h.can := by
  unfold Hub.canTdc
  dsimp only
  split
  · split
    · rw [Hub.canFlag, Hub.flag_can]
      rfl
    · rfl
  · rfl

theorem Hub.canErrorTdc_can (h : Hub) (k : Fin 16) (e : CanError) : (h.canErrorTdc k e).can = h.can := by
  unfold Hub.canErrorTdc
  split
  · rfl
  · split
    · rfl
    · split
      · exact Hub.canTdc_can _ _ _
      · split
        · exact Hub.canTdc_can _ _ _
        · rfl

/-- The hub whose controller k has failed an attempt by an error, before it is counted. -/
def Hub.canBroken (h : Hub) (k : Fin 16) (e : CanError) : Hub :=
  ((h.canErrorTdc k e).canErred k e).modCan k Can.detached

theorem Hub.canBroken_can (h : Hub) (k : Fin 16) (e : CanError) :
    (h.canBroken k e).can = h.can.set k (h.can[k]).detached := by
  have can : ((h.canErrorTdc k e).canErred k e).can = h.can := h.canErrorTdc_can k e
  rw [Hub.canBroken, Hub.modCan_can, can]

section
variable (h : Hub) (k : Fin 16) (e : CanError)

theorem Hub.canBroken_self : (h.canBroken k e).can[k] = (h.can[k]).detached := by
  simp [h.canBroken_can k e]

theorem Hub.canBroken_others {i : Fin 16} (ne : i ≠ k) : (h.canBroken k e).can[i] = h.can[i] := by
  have apart : ¬ k.val = i.val := fun q => ne (Fin.ext q.symm)
  simp [h.canBroken_can k e, apart]

theorem Hub.canBroken_lec : (h.canBroken k e).fld (F.CAN_STAT_LEC k) = e.code.toNat := by
  rw [Hub.canBroken, Hub.modCan_fld, Hub.canErred_lec]

end

section
variable {h : Hub} {k : Fin 16} {e : CanError} (plain : PlainError e) (settled : (h.can[k]).closing = false)
include plain settled

/-- An error while receiving adds 1 to REC. -/
theorem Hub.canError_receive (st : h.canSt k = canRECEIVE) (none_ : (h.can[k]).att = none) (sends : (h.can[k]).tec < 96)
    (receives : (h.can[k]).rec_ < 80) (ends : e.dominantAfterFlag = false) :
    h.canError k e = ((h.canErred k e).canCounted k (h.can[k]).tec ((h.can[k]).rec_ + 1)).canTo k canIDLE := by
  obtain ⟨nominal, counted, answered⟩ := plain
  have can := h.canErred_can k e
  have fails (one : Nat) : (h.canErred k e).canFail k one = h.canErred k e := Hub.canFail_none (by rw [can]; exact none_) one
  have settled' : (((h.canErred k e).canCounted k (h.can[k]).tec ((h.can[k]).rec_ + 1)).can[k]).closing = false := by
    rw [Hub.canCounted_self, can]
    exact settled
  have notTx : (h.canSt k == canTRANSMIT) = false := by rw [st]; rfl
  have noWay : (h.canSt k != canRECEIVE) = false := by rw [st]; rfl
  have few : ¬ 255 < (h.can[k]).tec := by omega
  unfold Hub.canError
  simp only [notTx, noWay, nominal, counted, answered, ends, Bool.false_and, Bool.and_false, Bool.or_self, Bool.not_false,
    Bool.false_eq_true, if_false, ← Hub.canErred.eq_1, can, none_, fails, few, Nat.add_zero,
    Hub.canCounts_low _ k sends (show (h.can[k]).rec_ + 1 < 96 by omega)]
  exact Hub.canIdle_free settled'

/-- An error while sending adds 8 to TEC, and the object tries again. -/
theorem Hub.canError_transmit {a : Attempt} (st : h.canSt k = canTRANSMIT) (att : (h.can[k]).att = some a)
    (wanted : a.cancelled = false) (again : ((h.can[k]).word a.obj 0).getLsbD 26 = false) (sends : (h.can[k]).tec < 80)
    (receives : (h.can[k]).rec_ < 96) (elsewhere : e.ctrlOrData = false) :
    h.canError k e = ((h.canBroken k e).canCounted k ((h.can[k]).tec + 8) (h.can[k]).rec_).canTo k canIDLE := by
  obtain ⟨nominal, counted, answered⟩ := plain
  have can : ((h.canErrorTdc k e).canErred k e).can = h.can := h.canErrorTdc_can k e
  have fails (one : Nat) : ((h.canErrorTdc k e).canErred k e).canFail k one = h.canBroken k e :=
    Hub.canFail_again (by rw [can]; exact att) wanted (by rw [can]; exact again) one
  have settled' : (((h.canBroken k e).canCounted k ((h.can[k]).tec + 8) (h.can[k]).rec_).can[k]).closing = false := by
    rw [Hub.canCounted_self, Hub.canBroken_self]
    exact settled
  have tx : (h.canSt k == canTRANSMIT) = true := by rw [st]; rfl
  have few : ¬ 255 < (h.can[k]).tec + 8 := by omega
  unfold Hub.canError
  simp only [tx, nominal, counted, answered, elsewhere, Bool.false_and, Bool.true_and, Bool.and_false, Bool.or_self, Bool.not_true,
    Bool.not_false, Bool.false_eq_true, if_false, if_true, ← Hub.canErred.eq_1, can, att, fails, few,
    Hub.canCounts_low _ k (show (h.can[k]).tec + 8 < 96 by omega) receives]
  exact Hub.canIdle_free settled'

end

end Sys2Proof.Machine
end

section
/-! PROOFS. CAN controllers: the obligation on their frames (O21). -/

namespace Sys2Proof.Machine

/-- Settles O21: each command's hub is named by an equation for its case, and the controller's frame rules say the rest. -/
theorem canFrames : Obligations.CanFrames := by
  unfold Obligations.CanFrames
  refine ⟨fun a k j s admitted clear enabled awake => ?request, fun a k j s admitted pending none_ => ?cancel,
    fun k j s idle sound settled talks onBus own drives pick => ?send, fun k s idle sound settled none_ hears => ?receive,
    fun k a s st att wanted again => ?lost, fun k a s st att wanted once => ?lostOnce,
    fun k a s st att wanted noTdc sends receives onBus settled => ?sent,
    fun k j f s st hears format receives sends settled sound accepts lowest noTunnel empty _ => ?received,
    fun k e s st none_ sends receives ends settled answered counted nominal => ?rxError,
    fun k e a s st att wanted again sends receives elsewhere settled answered counted nominal => ?txError⟩
  case request =>
    refine (runs_cmdDo (g := fun h => h.canTxReq k j) rfl admitted).mpr ?_
    rw [Hub.canTxReq_enabled clear enabled awake, Hub.modCan_self]
    exact ⟨rfl, Can.word_setWord_same _ j 3 _, fun i e => s.hub.modCan_ne e _, rfl⟩
  case cancel =>
    have change := s.hub.canEnd_change k j 2 (l := [F.CAN_FLAG_TX k]) (by simp)
    refine (runs_cmdDo (g := fun h => h.canCancel k j) rfl admitted).mpr ?_
    rw [Hub.canCancel_waiting pending none_, Hub.canEnd_self]
    exact ⟨rfl, rfl, Can.ended_res _ j (by decide), s.hub.canEnd_tx k j 2, change.others, change.parts, change.regs⟩
  case send =>
    have change : CanChange k [F.CAN_STAT_STATE k] s.hub ((((s.hub.canStarts k).modCan k (Can.sending j)).emit
        (.canFrame k (s.hub.canFrameOf k j))).canTo k canTRANSMIT) :=
      ((((CanChange.refl _ _ _).mod _).mod _).emit _).put (by simp) _
    refine (runs_iff (i := .canSof k) rfl).mpr ?_
    rw [Hub.canSof_send idle sound settled talks onBus own drives pick]
    refine ⟨Hub.canSt_canTo _ k (by decide), ?_, rfl, change.others, change.parts, change.regs⟩
    rw [Hub.canTo_can, Hub.emit_can, Hub.modCan_self, Can.sending]
  case receive =>
    have change : CanChange k [F.CAN_STAT_STATE k] s.hub ((s.hub.canStarts k).canTo k canRECEIVE) :=
      ((CanChange.refl _ _ _).mod _).put (by simp) _
    refine (runs_iff (i := .canSof k) rfl).mpr ?_
    rw [Hub.canSof_receive idle sound none_ hears]
    refine ⟨Hub.canSt_canTo _ k (by decide), ?_, change.others, change.quiet ?_, change.regs⟩
    · rw [Hub.canTo_can, Hub.canStarts, Hub.modCan_self, Can.started]
    · rw [Hub.canTo_out, Hub.canStarts, Hub.modCan_out]
  case lost =>
    have change : CanChange k [F.CAN_STAT_STATE k] s.hub
        ((s.hub.modCan k Can.detached).canTo k canRECEIVE) :=
      ((CanChange.refl _ _ _).mod _).put (by simp) _
    refine (runs_iff (i := .canArbLost k) rfl).mpr ?_
    rw [Hub.canArbLost, if_neg (not_not.mpr st), Hub.canFail_again att wanted again]
    refine ⟨Hub.canSt_canTo _ k (by decide), ?_, ?_, change.others, change.quiet ?_, change.regs⟩
    · rw [Hub.canTo_can, Hub.modCan_self, Can.detached]
    · rw [Hub.canTo_can, Hub.modCan_self, Can.detached]
    · rw [Hub.canTo_out, Hub.modCan_out]
  case lostOnce =>
    refine (runs_iff (i := .canArbLost k) rfl).mpr ?_
    rw [Hub.canArbLost, if_neg (not_not.mpr st), Hub.canFail_once att wanted once]
    have change : CanChange k [F.CAN_FLAG_TX k] s.hub ((s.hub.modCan k Can.detached).canEnd k a.obj 4) :=
      ((CanChange.refl _ _ _).mod _).trans (Hub.canEnd_change _ k _ _ (by simp))
    refine ⟨Hub.canSt_canTo _ k (by decide), ?_, ?_, ?_, change.canTo_others _⟩ <;>
      rw [Hub.canTo_can, Hub.canEnd_self]
    · rw [Hub.modCan_self, Can.ended, Can.setWord, Can.detached]
    · rw [Hub.modCan_self, Can.ended, Can.detached]
    · exact Can.ended_res _ _ (by decide)
  case sent =>
    refine (runs_iff (i := .canFrameSent k) rfl).mpr ?_
    rw [Hub.canSent_eq st att wanted noTdc sends receives onBus settled]
    have tx : (s.hub.canDone k a.obj).bit (F.CAN_FLAG_TX k) = true := Hub.canEnd_tx _ k _ _
    refine ⟨Hub.canSt_canTo _ k (by decide), ?_, ?_, ?_, ?_, (Hub.canTo_bit _ k _ (canKey_ne (by decide))).trans tx,
      (s.hub.canDone_change k a.obj).canTo_others _⟩ <;> rw [Hub.canTo_can, Hub.canDone_self]
    · rw [Can.ended, Can.setWord, Can.stamped]
    · rw [Can.ended, Can.setWord, Can.stamped, Can.setWord, Can.counting]
    · rw [Can.ended, Can.setWord, Can.stamped, Can.setWord, Can.counting]
    · exact Can.ended_res _ _ (by decide)
  case received =>
    refine (runs_iff (i := .canFrameReceived k f) rfl).mpr ?_
    rw [Hub.canReceived_eq st hears format receives sends settled ⟨sound, accepts, lowest, noTunnel, empty⟩]
    have rx : (s.hub.canTook k j f).bit (F.CAN_FLAG_RX k) = true := Hub.flag_bit_same _ _ _ rfl
    refine ⟨Hub.canSt_canTo _ k (by decide), ?_, ?_, ?_, (Hub.canTo_bit _ k _ (canKey_ne (by decide))).trans rx, ?_,
      (s.hub.canTook_change k j f).canTo_others _⟩ <;> rw [Hub.canTo_can, Hub.canTook_self]
    · rw [Can.stored, Can.counting]
    · exact Can.stored_w1 _ j f
    · exact Can.stored_w3 _ j f
    · rw [Can.stored_parts]
      rfl
  case rxError =>
    refine (runs_iff (i := .canBusError k e) rfl).mpr ?_
    rw [Hub.canError_receive ⟨nominal, counted, answered⟩ settled st none_ sends receives ends]
    have self : (((s.hub.canErred k e).canCounted k (s.hub.can[k]).tec ((s.hub.can[k]).rec_ + 1)).canTo k canIDLE).can[k] =
        (s.hub.can[k]).counting (s.hub.can[k]).tec ((s.hub.can[k]).rec_ + 1) := by
      rw [Hub.canTo_can, Hub.canCounted_self, Hub.canErred_can]
    rw [self, Hub.canCounted_lec, Hub.canErred_lec]
    exact ⟨Hub.canSt_canTo _ k (by decide), rfl, rfl, rfl, fun i ne => Hub.canCounted_others ne _ _ _⟩
  case txError =>
    refine (runs_iff (i := .canBusError k e) rfl).mpr ?_
    rw [Hub.canError_transmit ⟨nominal, counted, answered⟩ settled st att wanted again sends receives elsewhere]
    have self : (((s.hub.canBroken k e).canCounted k ((s.hub.can[k]).tec + 8) (s.hub.can[k]).rec_).canTo k canIDLE).can[k] =
        (s.hub.can[k]).detached.counting ((s.hub.can[k]).tec + 8) (s.hub.can[k]).rec_ := by
      rw [Hub.canTo_can, Hub.canCounted_self, Hub.canBroken_self]
    rw [self, Hub.canCounted_lec, Hub.canBroken_lec]
    refine ⟨Hub.canSt_canTo _ k (by decide), rfl, rfl, rfl, rfl, fun i ne => ?_⟩
    rw [Hub.canCounted_others ne]
    exact s.hub.canBroken_others k e ne

end Sys2Proof.Machine
end

section
/-! PROOFS. What a frame the hub sends leaves alone: all but the registers, the outputs, the error log and the parts of the
switch side (R187-R197, R256, R271). Each lemma says it of one operation. -/

namespace Sys2Proof.Machine

/-- The hub but for what a frame on its way through the switch changes: registers and what is marked of the cycle, outputs,
error log, tiles and the cores' copies of them, switch, links and the ring's numbers. -/
def Hub.beyondFabric (h : Hub) : Hub :=
  { h with fields := [], hw := [], out := [], err := {}, tl := {}, core := Vector.replicate 8 {}, sw := {},
           link := Vector.replicate 4 {}, ring := {} }

theorem Hub.can_of_beyondFabric {h g : Hub} (e : g.beyondFabric = h.beyondFabric) : g.can = h.can :=
  (congrArg Hub.can e : g.beyondFabric.can = h.beyondFabric.can)

section
variable (h : Hub)

@[simp] theorem Hub.put_beyondFabric (f : Fld) (v : Nat) : (h.put f v).beyondFabric = h.beyondFabric := rfl

@[simp] theorem Hub.flag_beyondFabric (b : Block) (f : Fld) : (h.flag b f).beyondFabric = h.beyondFabric := by
  rcases h.flag_cases b f with e | ⟨v, e⟩ <;> rw [e] <;> rfl

@[simp] theorem Hub.count_beyondFabric (f : Fld) (n : Nat) : (h.count f n).beyondFabric = h.beyondFabric := by
  rcases h.count_cases f n with ⟨v, m, e⟩ | ⟨v, l, e⟩ <;> rw [e]
  · rfl
  · simp

theorem LogOnly.beyondFabric {h g : Hub} (p : LogOnly h g) : g.beyondFabric = h.beyondFabric := by
  rw [p.parts]
  rfl

theorem Hub.raise_beyondFabric {cls : BitVec 2} (e : cls ≠ 3) (u : UnitAt) (cause addr : Nat) (req : BitVec 4)
    (rnode : BitVec 8) (space : BitVec 2) (esc : Bool) :
    (h.raise cls u cause addr req rnode space esc).beyondFabric = h.beyondFabric :=
  (h.raise_only cls u cause addr req rnode space esc (.inl e)).beyondFabric

/-! ## Frames in tiles -/

theorem Hub.writeChain_beyondFabric (ts : List Nat) (bs : List Byte) : (h.writeChain ts bs).beyondFabric = h.beyondFabric := by
  induction ts generalizing h bs with
  | nil => rfl
  | cons t r ih => exact ih (h.tileChunk t 0 (padTile (bs.take 256))) (bs.drop 256)

theorem Hub.storeFrame_beyondFabric {h g : Hub} {pay : List Byte} {ts : List Nat} (e : h.storeFrame pay = some (g, ts)) :
    g.beyondFabric = h.beyondFabric := by
  unfold Hub.storeFrame at e
  dsimp only at e
  split at e
  · cases e
  · cases e
    exact Hub.writeChain_beyondFabric (h.takeTiles _) _ _

/-! ## Link control and pause -/

@[simp] theorem Hub.txStat_beyondFabric (l : Fin 4) (len : Nat) : (h.txStat l len).beyondFabric = h.beyondFabric := by
  have counted (n : Nat) : (((h.count (F.X_TXFRM l)).count (F.X_TXBYTE l) n).count (F.X_TXBIN_COUNT l (sizeBin n))).beyondFabric =
      h.beyondFabric := by simp
  exact counted (frameBytes len)

@[simp] theorem Hub.sendLink_beyondFabric (l : Fin 4) (typ : BitVec 4) (pay : List Byte) (adr : BitVec 64) (x : Bool) :
    (h.sendLink l typ pay adr x).beyondFabric = h.beyondFabric :=
  Hub.txStat_beyondFabric _ l pay.length

@[simp] theorem Hub.sendPause_beyondFabric (p : Fin 7) (cs : List (Nat × Bool)) :
    (h.sendPause p cs).beyondFabric = h.beyondFabric := by
  unfold Hub.sendPause
  dsimp only
  split
  · split
    · rfl
    · split
      · rfl
      · rw [Hub.count_beyondFabric, Hub.sendLink_beyondFabric]
        rfl
  · rfl

@[simp] theorem Hub.pauseCheck_beyondFabric (p : Fin 7) (c : Nat) : (h.pauseCheck p c).beyondFabric = h.beyondFabric :=
  Hub.sendPause_beyondFabric _ p _

/-! ## The switch -/

@[simp] theorem Hub.spillEnter_beyondFabric : h.spillEnter.beyondFabric = h.beyondFabric := by
  unfold Hub.spillEnter
  split <;> rfl

@[simp] theorem Hub.append_beyondFabric (q : Fin 56) (f : QFrame) : (h.append q f).beyondFabric = h.beyondFabric := by
  unfold Hub.append Hub.peak
  dsimp only
  rw [Hub.spillEnter_beyondFabric, Hub.pauseCheck_beyondFabric, Hub.put_beyondFabric]
  rfl

@[simp] theorem Hub.qDrop_beyondFabric (q : Fin 56) : (h.qDrop q).beyondFabric = h.beyondFabric := by simp [Hub.qDrop]

theorem Hub.append_stored_beyondFabric {h g : Hub} {pay : List Byte} {ts : List Nat} (e : h.storeFrame pay = some (g, ts))
    (q : Fin 56) (f : QFrame) : (g.append q f).beyondFabric = h.beyondFabric :=
  (g.append_beyondFabric q f).trans (Hub.storeFrame_beyondFabric e)

@[simp] theorem Hub.spillIn_beyondFabric (q : Fin 56) (ing : Fin 7) (f : Frame) :
    (h.spillIn q ing f).1.beyondFabric = h.beyondFabric := by
  have spills (v : BitVec 56) : ({ h with sw := { h.sw with spill := v } } : Hub).beyondFabric = h.beyondFabric := rfl
  unfold Hub.spillIn
  dsimp only
  split
  · simp [spills]
  · split
    · simp [spills]
    · split
      · simp [spills]
      · rename_i stored
        exact Hub.append_stored_beyondFabric stored q _

@[simp] theorem Hub.enqueue_beyondFabric (p ing : Fin 7) (f : Frame) : (h.enqueue p ing f).1.beyondFabric = h.beyondFabric := by
  unfold Hub.enqueue
  dsimp only
  split
  · simp
  · split
    · simp
    · split
      · split
        · simp
        · rename_i stored
          exact (Hub.append_stored_beyondFabric stored _ _).trans h.spillEnter_beyondFabric
      · split
        · simp
        · split
          · split
            · split
              · simp
              · rename_i stored
                exact (Hub.append_stored_beyondFabric stored _ _).trans h.spillEnter_beyondFabric
            · rw [Hub.raise_beyondFabric _ (by decide)]
              simp
          · simp

@[simp] theorem Hub.rerouteOrFlush_beyondFabric (l : Fin 4) (ing : Fin 7) (f : Frame) :
    (h.rerouteOrFlush l ing f).beyondFabric = h.beyondFabric := by
  unfold Hub.rerouteOrFlush
  dsimp only
  split
  · split <;> simp
  · simp

@[simp] theorem Hub.route_beyondFabric (p ing : Fin 7) (f : Frame) : (h.route p ing f).1.beyondFabric = h.beyondFabric := by
  unfold Hub.route
  dsimp only
  repeat' split
  all_goals simp

@[simp] theorem Hub.ownCopy_beyondFabric (ing : Fin 7) (f : Frame) : (h.ownCopy ing f).beyondFabric = h.beyondFabric := by
  unfold Hub.ownCopy
  dsimp only
  repeat' split
  all_goals simp

/-- A frame this hub sends. -/
theorem Hub.send_beyondFabric (f : Frame) (ing : Fin 7) : (h.send f ing).beyondFabric = h.beyondFabric := by
  have numbered (k : Nat) : (h.takeSeq k).2.beyondFabric = h.beyondFabric := rfl
  unfold Hub.send
  dsimp only
  rw [Hub.ownCopy_beyondFabric, Hub.route_beyondFabric]
  split <;> split <;> simp [numbered]

end

/-- A frame this hub sends touches no CAN controller. -/
theorem Hub.send_can (h : Hub) (f : Frame) (ing : Fin 7) : (h.send f ing).can = h.can :=
  Hub.can_of_beyondFabric (h.send_beyondFabric f ing)

end Sys2Proof.Machine
end

section
/-! PROOFS. CAN controllers over the fabric: the tunnel and the accesses of the bridge (O22; R140, R142). -/

namespace Sys2Proof.Machine

/-! ## The tunnel (R140) -/

/-- The records that fit one frame have left; the others wait. -/
def Can.tunnelled (c : Can) : Can := { c with out := (fitRecords 2556 c.out).2, tseq := (c.tseq + 1) % 65536 }

/-- The TUNNEL frame of a controller: TSEQ and the records that fit. -/
def Hub.canTunnelFrame (h : Hub) (k : Fin 16) : Frame :=
  let w : W32 := 2#4 ++ 0#4 ++ BitVec.ofNat 8 (h.fld (F.CAN_TUNCFG0_DCTL k)) ++ BitVec.ofNat 16 (h.can[k]).tseq
  let pay := wordsPay (w :: (fitRecords 2556 (h.can[k]).out).1.flatMap id)
  { hdr := h.mkHdr tTUNNEL 2 (BitVec.ofNat 8 (h.fld (F.CAN_TUNCFG0_DNODE k))) (BitVec.ofNat 2 (h.fld (F.CAN_TUNCFG0_DMEM k)))
      pay.length, pay := pay }

theorem Hub.canTunnelSend_on {h : Hub} {k : Fin 16} (gathered : (h.can[k]).out ≠ []) (on : h.bit F.BRG_CTL_EN = true) :
    h.canTunnelSend k = (h.modCan k Can.tunnelled).send (h.canTunnelFrame k) := by
  unfold Hub.canTunnelSend
  dsimp only
  rw [if_neg (by rw [on, List.isEmpty_eq_false_iff.mpr gathered]; decide)]
  rfl

theorem Hub.canTunnelSend_off {h : Hub} (off : h.bit F.BRG_CTL_EN = false) (k : Fin 16) : h.canTunnelSend k = h := by
  unfold Hub.canTunnelSend
  exact if_pos (by simp [off])

/-! ## The controller that a lane's request reaches (R142) -/

/-- A request to message RAM or to TXREQ goes to a CAN lane, and its offset tells which. -/
theorem Hub.laneAcc_can {h : Hub} {rq : Request} (fn : h.fn rq.lane = fnCAN) :
    (h.laneAcc rq = .canRam → rq.dev / 2 ^ 25 % 8 = 0) ∧ (h.laneAcc rq = .canTx → rq.dev / 2 ^ 25 % 8 = 1) := by
  unfold Hub.laneAcc
  dsimp only
  rw [if_pos fn]
  constructor <;> intro kind <;> split at kind
  · cases kind
  · split at kind
    · assumption
    · split at kind <;> cases kind
  · cases kind
  · split at kind
    · split at kind <;> cases kind
    · split at kind
      · rename_i named
        exact named.1
      · cases kind

namespace Reached

variable {h k : Hub} {rq : Request} (p : Reached h rq k)
include p

theorem can : k.can = h.can := by
  rw [p.side.parts, Hub.counted_parts]

theorem laneCan (n : Fin 64) : k.laneCan n = h.laneCan n := by
  have sel : k.fld (F.LN_FUNC_CANSEL n) = h.fld (F.LN_FUNC_CANSEL n) := Hub.laneFld_of_fieldView p.fieldView n (0, 4, 1)
  simp only [Hub.laneCan, sel]

theorem canAsleep (c : Fin 16) : k.canAsleep c = h.canAsleep c := by
  have st : k.canSt c = h.canSt c := Hub.fld_of_fieldView p.fieldView
    ((Fld.fieldSide_iff _).mpr (.inl (by simp only [F.CAN_STAT_STATE, Fld.key, canBase, clusterBase]; omega)))
  simp only [Hub.canAsleep, st]

end Reached

/-! ## Accesses of the bridge (R142) -/

section
variable {h : Hub} {rq : Request} (adm : h.admitsRq rq = true) (bridge : rq.addr.space = 3) (free : h.brg.lock[rq.lane] = {})
include adm bridge free

/-- An admitted read of sound message RAM answers its words. -/
theorem Hub.canRamRead (kind : h.laneAcc rq = .canRam) (sound : (h.can[h.laneCan rq.lane]).bad = []) (op : rq.op = opREAD)
    (await : h.awaits rq = true) :
    (h.serve rq).out.head? = some (.completion rq.req rq.tag 0 0 false false ((List.range (rq.len / 4)).flatMap fun i =>
        leBytes ((h.can[h.laneCan rq.lane]).readWord (rq.dev % 2 ^ 14 / 4 + i)))) ∧
      (h.serve rq).can = h.can ∧ (h.serve rq).lanes = h.lanes := by
  obtain ⟨k, win, was, reached, serve⟩ := Hub.serve_lane adm bridge free (.inl op)
  have found : ((List.range (rq.len / 4)).map (rq.dev % 2 ^ 14 / 4 + ·)).find? (h.can[h.laneCan rq.lane]).bad.contains = none := by
    rw [sound]
    simp
  have answer : k.serveLane false rq win was = k.answerRq false rq stOK 0 false false ((List.range (rq.len / 4)).flatMap fun i =>
      leBytes ((h.can[h.laneCan rq.lane]).readWord (rq.dev % 2 ^ 14 / 4 + i))) := by
    unfold Hub.serveLane
    rw [reached.laneAcc, kind]
    dsimp only
    unfold Hub.serveCanRam
    dsimp only
    simp only [reached.can, reached.laneCan, isRead_of_op op, if_true, found]
  rw [serve, answer, Hub.answer_awaited await reached.tag reached.isLocal (by decide) (.inl op)]
  exact ⟨rfl, reached.can, reached.lanes⟩

/-- An admitted posted write of a TXREQ address makes the request of its object. -/
theorem Hub.canTxWrite (kind : h.laneAcc rq = .canTx) (op : rq.op = opWRITE) (posted : rq.posted = true)
    (clear : (h.can[h.laneCan rq.lane]).txreq.getLsbD (rq.dev % 128) = false)
    (enabled : (h.can[h.laneCan rq.lane]).objen.getLsbD (rq.dev % 128) = true)
    (awake : h.canAsleep (h.laneCan rq.lane) = false) :
    (h.serve rq).can = h.can.set (h.laneCan rq.lane)
        ((h.can[h.laneCan rq.lane]).requested ⟨rq.dev % 128, Nat.mod_lt _ (by decide)⟩) ∧ (h.serve rq).lanes = h.lanes := by
  obtain ⟨k, win, was, reached, serve⟩ := Hub.serve_lane adm bridge free (.inr op)
  have request : h.serve rq = k.modCan (h.laneCan rq.lane) (Can.requested ⟨rq.dev % 128, Nat.mod_lt _ (by decide)⟩) := by
    rw [serve]
    unfold Hub.serveLane
    rw [reached.laneAcc, kind]
    dsimp only
    unfold Hub.serveCanTx
    rw [Hub.answer_posted posted, reached.laneCan]
    refine Hub.canTxReq_enabled ?_ ?_ ((reached.canAsleep _).trans awake) <;> simp only [reached.can]
    · exact clear
    · exact enabled
  rw [request]
  refine ⟨?_, reached.lanes⟩
  rw [Hub.modCan_can]
  simp only [reached.can]

end

/-- Settles O22: the tunnel's frame touches no controller as it is sent; a request reaches its lane (`serve_lane`), where
each kind of access has its rule. -/
theorem canOverTheFabric : Obligations.CanOverTheFabric := by
  unfold Obligations.CanOverTheFabric
  refine ⟨fun k s gathered on => ?tunnel, fun k s off => ?tunnelOff,
    fun rq s adm bridge free fn kind sound op await => ?ram,
    fun rq s adm bridge free fn kind op posted clear enabled awake => ?txreq⟩
  case tunnel =>
    refine (runs_iff (i := .canTunnelSend k) rfl).mpr ?_
    rw [Hub.canTunnelSend_on gathered on]
    have sent := (s.hub.modCan k Can.tunnelled).send_can (s.hub.canTunnelFrame k) 5
    have self : ((s.hub.modCan k Can.tunnelled).send (s.hub.canTunnelFrame k)).can[k] = (s.hub.can[k]).tunnelled := by
      simp only [sent]
      exact s.hub.modCan_self k Can.tunnelled
    rw [self]
    refine ⟨rfl, rfl, fun i ne => ?_⟩
    simp only [sent]
    exact s.hub.modCan_ne ne Can.tunnelled
  case tunnelOff =>
    exact (runs_iff (i := .canTunnelSend k) rfl).mpr (Hub.canTunnelSend_off off k)
  case ram =>
    refine (runs_iff rfl).mpr ?_
    rw [Hub.serveAs_ok bridge (by rw [fn, (Hub.laneAcc_can fn).1 kind]; rfl)]
    exact Hub.canRamRead adm bridge free kind sound op await
  case txreq =>
    refine (runs_iff rfl).mpr ?_
    rw [Hub.serveAs_ok bridge (by rw [fn, (Hub.laneAcc_can fn).2 kind]; rfl)]
    obtain ⟨can, lanes⟩ := Hub.canTxWrite adm bridge free kind op posted clear enabled awake
    refine ⟨?_, lanes⟩
    simp [can, Can.requested]

end Sys2Proof.Machine
end

section
/-! PROOFS. Conversion registers, pulse generators and the PPS input (O24; R154, R155, R163-R165). -/

namespace Sys2Proof.Machine

/-! ## Flags -/

theorem Hub.flag_frame (h : Hub) (b : Block) (f : Fld) :
    h.flag b f = { h with fields := (h.flag b f).fields, hw := (h.flag b f).hw, out := (h.flag b f).out } := by
  rcases h.flag_cases b f with e | ⟨v, e⟩ <;> rw [e] <;> rfl

/-- A flag that rises after a write of registers. -/
theorem Hub.flag_frame_of_fields {h g : Hub} (p : g = { h with fields := g.fields }) (b : Block) (f : Fld) :
    g.flag b f = { h with fields := (g.flag b f).fields, hw := (g.flag b f).hw, out := (g.flag b f).out } := by
  have q := g.flag_frame b f
  generalize g.flag b f = k at q ⊢
  rw [p] at q
  exact q

/-! ## Engines -/

section
variable (h : Hub) (c : Fin 8)

theorem Hub.anchorShadow_self (which : Nat) (v : W32) :
    (h.anchorShadow c which v).reed[c] = { h.reed[c] with shadow := (h.reed[c]).shadow.replace which v } :=
  h.reed_modReed_same c _

theorem Hub.anchorShadow_ne {d : Fin 8} (e : d ≠ c) (which : Nat) (v : W32) : (h.anchorShadow c which v).reed[d] = h.reed[d] :=
  h.reed_modReed_ne e _

theorem Hub.cvalid_reed : (h.cvalid c).reed = h.reed := rfl

theorem Hub.anchorApply_self (v : W32) : (h.anchorApply c v).reed[c] =
    { h.reed[c] with
      anc := { (h.reed[c]).shadow with rate := v.toNat }
      shadow := { (h.reed[c]).shadow with rate := v.toNat } } := by
  rw [Hub.anchorApply, Hub.cvalid_reed, Hub.reed_modReed_same]

theorem Hub.anchorApply_ne {d : Fin 8} (e : d ≠ c) (v : W32) : (h.anchorApply c v).reed[d] = h.reed[d] := by
  rw [Hub.anchorApply, Hub.cvalid_reed, Hub.reed_modReed_ne _ e]

theorem Hub.acntlRead_self : (h.acntlRead c).1.reed[c] =
    { h.reed[c] with hi := BitVec.ofNat 32 ((h.reed[c]).ctr / 2 ^ 32) } :=
  h.reed_modReed_same c _

theorem Hub.acntlRead_ne {d : Fin 8} (e : d ≠ c) : (h.acntlRead c).1.reed[d] = h.reed[d] := h.reed_modReed_ne e _

end

/-! ## Pulse generators -/

section
variable (h : Hub) (g : Fin 4)

theorem Hub.modPg_same (f : Pulse → Pulse) : (h.modPg g f).gno.pg[g] = f h.gno.pg[g] := Vector.getElem_set_self _

theorem Hub.modPg_ne {k : Fin 4} (e : k ≠ g) (f : Pulse → Pulse) : (h.modPg g f).gno.pg[k] = h.gno.pg[k] :=
  Vector.getElem_set_ne g.isLt k.isLt fun q => e (Fin.ext q.symm)

/-- An edge that a step passed over is told as late (R164). -/
def Hub.lateTold : Hub := if (h.gno.pg[g]).late then h.flag .gno F.GNO_FLAG_PULSE_LATE else h

theorem Hub.lateTold_parts : h.lateTold g =
    { h with fields := (h.lateTold g).fields, hw := (h.lateTold g).hw, out := (h.lateTold g).out } := by
  unfold Hub.lateTold
  split
  · exact h.flag_frame .gno F.GNO_FLAG_PULSE_LATE
  · rfl

theorem Hub.lateTold_regs : SameRegs h (h.lateTold g) [F.GNO_FLAG_PULSE_LATE] := by
  unfold Hub.lateTold
  split
  · exact (SameRegs.refl h _).flag .gno (by simp)
  · exact .refl h _

/-- Generator 0 drives PPS_OUT where it is the PPS source. -/
def Hub.ppsDriven (rising : Bool) : Hub :=
  if g = 0 ∧ h.bit (F.GNO_PG_CTL_PPS 0) then h.modGno fun n => { n with ppsOut := rising } else h

theorem Hub.ppsDriven_keeps (rising : Bool) :
    (h.ppsDriven g rising).gno.pg = h.gno.pg ∧ (h.ppsDriven g rising).gno.t = h.gno.t ∧
      h.ppsDriven g rising = { h with gno := (h.ppsDriven g rising).gno } := by
  unfold Hub.ppsDriven
  split <;> exact ⟨rfl, rfl, rfl⟩

end

/-- The flag of a late edge is no field of a generator. -/
theorem SameRegs.pgFld {h k : Hub} (e : SameRegs h k [F.GNO_FLAG_PULSE_LATE]) (g o lo w : Nat) (low : 0x600c0 ≤ o) :
    k.fld ⟨o + 32 * g, lo, w⟩ = h.fld ⟨o + 32 * g, lo, w⟩ := by
  refine e _ fun f mem => ?_
  rw [List.mem_singleton.mp mem]
  simp only [Fld.key, F.GNO_FLAG_PULSE_LATE]
  omega

/-- The edge after one depends on the generator's registers alone. -/
theorem Hub.pgAfter_congr {h k : Hub} (e : SameRegs h k [F.GNO_FLAG_PULSE_LATE]) (g : Fin 4) (rising : Bool) (t now : Nat) :
    k.pgAfter g rising t now = h.pgAfter g rising t now := by
  have per : k.fld (F.GNO_PG_PER_NS g) = h.fld (F.GNO_PG_PER_NS g) := e.pgFld g 0x600d0 _ _ (by decide)
  have width : k.fld (F.GNO_PG_WIDTH_NS g) = h.fld (F.GNO_PG_WIDTH_NS g) := e.pgFld g 0x600d4 _ _ (by decide)
  have ns : k.fld (F.GNO_PG_TNS_NS g) = h.fld (F.GNO_PG_TNS_NS g) := e.pgFld g 0x600c4 _ _ (by decide)
  have low : k.fld (F.GNO_PG_TSL_SEC g) = h.fld (F.GNO_PG_TSL_SEC g) := e.pgFld g 0x600c8 _ _ (by decide)
  have high : k.fld (F.GNO_PG_TSH_SEC g) = h.fld (F.GNO_PG_TSH_SEC g) := e.pgFld g 0x600cc _ _ (by decide)
  unfold Hub.pgAfter Hub.pgFirst Hub.pgStart Hub.pgWidth Hub.pgPer
  rw [per, width, ns, low, high]

/-- A generator after an edge named at `t`. -/
def Pulse.turned (p : Pulse) (rising : Bool) (next : Option Nat) : Pulse := { p with high := rising, next := next, late := false }

/-- A generator after the insertion of an edge. -/
def Pulse.routed (p : Pulse) (rising : Bool) (next : Option Nat) : Pulse := { p with rHigh := rising, rNext := next }

section
variable {h : Hub} {g : Fin 4} {rising : Bool} {t : Nat}

/-- An edge whose time has come, of a generator that tells no core. -/
theorem Hub.pulseEdge_due (on : h.bit (F.GNO_PG_CTL_EN g) = true) (next : (h.gno.pg[g]).next = some t) (due : t ≤ h.gno.t.nanos)
    (turns : (h.gno.pg[g]).high ≠ rising) (quiet : h.bit (F.GNO_PG_CTL_EVENT g) = false) :
    h.pulseEdge g rising =
      ((h.lateTold g).modPg g fun p => p.turned rising (h.pgAfter g rising t h.gno.t.nanos)).ppsDriven g rising := by
  have told := h.lateTold_regs g
  have event : (((h.lateTold g).modPg g fun p =>
      p.turned rising (h.pgAfter g rising t h.gno.t.nanos)).ppsDriven g rising).bit (F.GNO_PG_CTL_EVENT g) = false := by
    obtain ⟨-, -, rest⟩ := Hub.ppsDriven_keeps ((h.lateTold g).modPg g fun p =>
      p.turned rising (h.pgAfter g rising t h.gno.t.nanos)) g rising
    rw [rest]
    exact (congrArg (· != 0) (told.pgFld g 0x600c0 2 1 (by decide))).trans quiet
  unfold Hub.pulseEdge
  dsimp only
  rw [next]
  dsimp only
  rw [if_neg (by simpa [on, due] using turns), if_neg ?_]
  · rw [← Hub.pgAfter_congr told]
    rfl
  · rw [← Hub.pgAfter_congr told] at event
    rintro ⟨-, told⟩
    exact absurd (event.symm.trans told) (by decide)

/-- What an edge that is due leaves beside its generator. -/
theorem Hub.edge_frame (h : Hub) (g : Fin 4) (f : Pulse → Pulse) (rising : Bool) {k : Hub}
    (e : k = ((h.lateTold g).modPg g f).ppsDriven g rising) :
    k.gno.pg[g] = f h.gno.pg[g] ∧ k.gno.t = h.gno.t ∧ (∀ i : Fin 4, i ≠ g → k.gno.pg[i] = h.gno.pg[i]) ∧
      k = { h with fields := k.fields, hw := k.hw, gno := k.gno, out := k.out } ∧ SameRegs h k [F.GNO_FLAG_PULSE_LATE] := by
  have parts := h.lateTold_parts g
  have gno : (h.lateTold g).gno = h.gno := by rw [parts]
  obtain ⟨pg, time, rest⟩ := ((h.lateTold g).modPg g f).ppsDriven_keeps g rising
  subst e
  refine ⟨?_, ?_, fun i ne => ?_, ?_, ?_⟩
  · simp only [pg, Hub.modPg_same, gno]
  · rw [time, ← gno]
    rfl
  · simp only [pg, Hub.modPg_ne _ _ ne, gno]
  · rw [rest, Hub.modPg, Hub.modGno, parts]
  · exact (h.lateTold_regs g).congr (by rw [rest]; rfl)

/-- An insertion that is due, of a routed generator whose lane's cluster is up (R163). -/
theorem Hub.pulseRoute_due {n : Fin 64} (on : h.bit (F.GNO_PG_CTL_EN g) = true) (routed : h.bit (F.GNO_PG_CTL_ROUTE g) = true)
    (next : (h.gno.pg[g]).rNext = some t) (due : t ≤ h.gno.t.nanos + 10000) (turns : (h.gno.pg[g]).rHigh ≠ rising)
    (lane : h.fld (F.GNO_PG_CTL_LANE g) = n.val) (up : h.clusterUp (clusterOf n) = true) :
    h.pulseRoute g rising = ((h.modPg g fun p => p.routed rising (h.pgAfter g rising t h.gno.t.nanos)).aqBridge (clusterOf n)
      (n.val % 8 * 3 + h.fld (F.GNO_PG_CTL_PIN g) % 3) (b2n rising)
      ((h.reed[clusterOf n]).anc.toTick ((t * 2 ^ 24 : Nat) : Int)).1
      ((h.reed[clusterOf n]).anc.toTick ((t * 2 ^ 24 : Nat) : Int)).2).1 := by
  have here : h.fld (F.GNO_PG_CTL_LANE g) % 64 = n.val := by rw [lane]; exact Nat.mod_eq_of_lt n.isLt
  unfold Hub.pulseRoute
  dsimp only
  rw [next]
  dsimp only
  rw [if_neg (by simpa [on, routed, due] using turns)]
  simp only [Hub.modPg, Hub.modGno_fld, here, Fin.eta]
  rw [if_neg]
  · rfl
  · change ¬ (!h.clusterUp (clusterOf n)) = true
    rw [up]
    decide

end

/-! ## Bridge entries in an action queue (R87) -/

/-- The entry of the bridge, put into the queue as the one numbered n. -/
def bridgeEntry (p v due tap now n : Nat) : Action :=
  { due := due, tap := tap, pin := p, v := v, src := .bridge, ready := now + 1, idx := n }

theorem ReedStep.aqPut {c : Fin 8} {l : List LaneReg} {R : Reed} {h k : Hub} (s : ReedStep c l R h k) (peak : rrPEAK ∈ l)
    (e : Action) : ReedStep c l { R with q := R.q ++ [{ e with idx := R.seq }], seq := R.seq + 1 } h (k.aqPut c e) :=
  (s.mod fun r => { r with q := r.q ++ [{ e with idx := r.seq }], seq := r.seq + 1 }).peak peak _

/-- From an empty queue no context's entry is taken back. -/
theorem Hub.aqYield_empty {h : Hub} {c : Fin 8} (e : (h.reed[c]).q = []) : h.aqYield c = h := by
  unfold Hub.aqYield
  split
  · rfl
  · rw [if_pos (.inr (.inr (by simp only [e]; rfl)))]

/-- A bridge entry into an empty queue. -/
theorem Hub.aqBridge_empty {h k : Hub} {c : Fin 8} {p v due tap : Nat} (run : k = (h.aqBridge c p v due tap).1)
    (e : (h.reed[c]).q = []) :
    (k.reed[c]).q = [bridgeEntry p v due tap h.now (h.reed[c]).seq] ∧ (∀ d : Fin 8, d ≠ c → k.reed[d] = h.reed[d]) ∧
      k = { h with fields := k.fields, hw := k.hw, reed := k.reed } := by
  have put : k = h.aqPut c (bridgeEntry p v due tap h.now 0) := by
    rw [run, Hub.aqBridge, Hub.aqYield_empty e, if_neg (by rw [e]; decide)]
    rfl
  have step := (ReedStep.start c [rrPEAK] h).aqPut (by simp) (bridgeEntry p v due tap h.now 0)
  rw [← put] at step
  refine ⟨?_, step.others, step.silent (by rw [put]; rfl)⟩
  rw [step.engine, e]
  rfl

/-! ## The PPS input (R165) -/

theorem Hub.putTime_regs (h : Hub) (ns sl frac sh : Fld) (t : GTime) : SameRegs h (h.putTime ns sl frac sh t) [ns, sl, frac, sh] :=
  ((((SameRegs.refl h _).put (f := ns) (by simp) _).put (f := sl) (by simp) _).put (f := frac) (by simp) _).put (f := sh)
    (by simp) _

theorem Hub.putTime_parts (h : Hub) (ns sl frac sh : Fld) (t : GTime) :
    h.putTime ns sl frac sh t = { h with fields := (h.putTime ns sl frac sh t).fields } := rfl

/-- The stamp of an edge: the Gnomon less two of its ticks. -/
def Hub.ppsStamp (h : Hub) : GTime := GTime.ofInt ((h.gno.t.units : Int) - (2 * h.incr : Nat))

/-- The registers of the stamp. -/
def Hub.ppsStamped (h : Hub) : Hub :=
  h.putTime F.GNO_PPSIN_NS_NS F.GNO_PPSIN_SL_SEC F.GNO_PPSIN_SH_FRAC F.GNO_PPSIN_SH_SEC h.ppsStamp

theorem Hub.ppsStamped_fld (h : Hub) : h.ppsStamped.fld F.GNO_PPSIN_NS_NS = h.ppsStamp.ns % 2 ^ 30 ∧
    h.ppsStamped.fld F.GNO_PPSIN_SL_SEC = h.ppsStamp.sec % 2 ^ 32 := by
  unfold Hub.ppsStamped Hub.putTime
  constructor
  · rw [Hub.fld_put_ne _ _ _ _ (by decide), Hub.fld_put_ne _ _ _ _ (by decide), Hub.fld_put_ne _ _ _ _ (by decide)]
    exact Hub.fld_put_same _ _ _
  · rw [Hub.fld_put_ne _ _ _ _ (by decide), Hub.fld_put_ne _ _ _ _ (by decide)]
    exact Hub.fld_put_same _ _ _

/-- A stamped edge tells of itself by a flag. -/
def Hub.ppsTold (h : Hub) (f : Fld) : Hub := h.ppsStamped.flag .gno f

theorem Hub.ppsTold_fld (h : Hub) {f g : Fld} (e : g.key ≠ f.key) : (h.ppsTold f).fld g = h.ppsStamped.fld g := by
  rw [Hub.ppsTold, Hub.flag_fld, Hub.fld_put_ne _ _ _ _ e]

theorem Hub.ppsStamped_parts (h : Hub) : h.ppsStamped = { h with fields := h.ppsStamped.fields } := by
  unfold Hub.ppsStamped
  exact h.putTime_parts _ _ _ _ _

theorem Hub.ppsTold_parts (h : Hub) (f : Fld) :
    h.ppsTold f = { h with fields := (h.ppsTold f).fields, hw := (h.ppsTold f).hw, out := (h.ppsTold f).out } := by
  unfold Hub.ppsTold
  exact Hub.flag_frame_of_fields h.ppsStamped_parts .gno f

/-- The registers that a stamped edge writes, beside its flag. -/
def ppsFields : List Fld := [F.GNO_PPSIN_NS_NS, F.GNO_PPSIN_SL_SEC, F.GNO_PPSIN_SH_FRAC, F.GNO_PPSIN_SH_SEC]

theorem Hub.ppsTold_regs (h : Hub) (f : Fld) : SameRegs h (h.ppsTold f) (f :: ppsFields) := by
  have stamped : SameRegs h h.ppsStamped (f :: ppsFields) := fun g e => h.putTime_regs _ _ _ _ _ g fun k mem => e k (.tail _ mem)
  exact stamped.flag .gno (by simp)

/-! ## The obligation -/

/-- Settles O24: each clause by the rule of its command. -/
theorem anchorsPulsesAndPps : Obligations.AnchorsPulsesAndPps := by
  unfold Obligations.AnchorsPulsesAndPps
  refine ⟨fun a c which v s admitted => ?shadow, fun a c v s admitted => ?rate, fun a c s admitted => ?counter,
    fun g rising t s on next due turns quiet => ?edge,
    fun g rising t n s on routed next due turns lane up empty => ?route, fun s clear => ?pps, fun s set => ?ppsAgain⟩
  case shadow =>
    rw [runs_cmdDo (g := fun h => h.anchorShadow c which v) rfl admitted, Hub.anchorShadow_self]
    exact ⟨rfl, rfl, rfl, fun d ne => s.hub.anchorShadow_ne c ne which v, rfl⟩
  case rate =>
    rw [runs_cmdDo (g := fun h => h.anchorApply c v) rfl admitted, Hub.anchorApply_self]
    refine ⟨rfl, ?_, fun d ne => s.hub.anchorApply_ne c ne v, rfl, ?_⟩
    · rw [Hub.anchorApply, Hub.cvalid_testBit]
      simp
    · exact (SameRegs.refl s.hub _).put (f := F.GNO_CVALID_VALID) (by simp) _
  case counter =>
    rw [runs_cmdRead rfl admitted rfl]
    exact ⟨congrArg Reed.hi (s.hub.acntlRead_self c), rfl, fun d ne => s.hub.acntlRead_ne c ne, rfl⟩
  case edge =>
    refine (runs_iff rfl).mpr ?_
    obtain ⟨self, time, others, parts, regs⟩ :=
      s.hub.edge_frame g _ rising (Hub.pulseEdge_due on next due turns quiet)
    exact ⟨congrArg Pulse.high self, congrArg Pulse.next self, time, others, parts, regs⟩
  case route =>
    refine (runs_iff rfl).mpr ?_
    obtain ⟨queue, others, parts⟩ := Hub.aqBridge_empty (Hub.pulseRoute_due on routed next due turns lane up) empty
    have gno : (s.hub.pulseRoute g rising).gno =
        (s.hub.modPg g fun p => p.routed rising (s.hub.pgAfter g rising t s.hub.gno.t.nanos)).gno := by rw [parts]
    rw [queue]
    refine ⟨rfl, by simp [bridgeEntry], ?_, others, ?_⟩
    · rw [gno, Hub.modPg_same]
      rfl
    · rw [gno]
      exact parts
  case pps =>
    refine (runs_iff rfl).mpr ?_
    rw [if_neg (by rw [clear]; decide)]
    exact ⟨Hub.flag_bit_same _ _ _ rfl, (s.hub.ppsTold_fld (by decide)).trans s.hub.ppsStamped_fld.1,
      (s.hub.ppsTold_fld (by decide)).trans s.hub.ppsStamped_fld.2, s.hub.ppsTold_parts F.GNO_FLAG_PPSIN,
      s.hub.ppsTold_regs F.GNO_FLAG_PPSIN⟩
  case ppsAgain =>
    refine (runs_iff rfl).mpr ?_
    rw [if_pos set]
    exact ⟨Hub.flag_bit_same _ _ _ rfl, (s.hub.ppsTold_fld (by decide)).trans s.hub.ppsStamped_fld.1,
      s.hub.ppsTold_parts F.GNO_FLAG_PPSIN_OVF⟩

end Sys2Proof.Machine
end

section
/-! PROOFS. A TIMED write beside a context's action of the same cycle (O25). -/

namespace Sys2Proof.Machine

/-- A posted TIMED write of one record: lane 10, pin 0 to 1, 1.25 µs after 0 s. -/
def timedWrite : Frame :=
  { hdr := { typ := tTIMED, tc := 4, x := false, hops := 0, w := false, len := 12, dnode := 0, dmem := 0, snode := 0, smem := 0,
             tag := 0, d := false, np := false, seq := 1, adr := 0 }
    pay := wordsPay [0x00700001#32, 0x28400000#32, 5000#32] }

/-- The bridge serves, lane 10 is UP with pin 0 an output, every cluster is anchored. Engine 1 keeps 255 entries of its
queue back for the bridge, and context 0 has taken in this very tick the one entry it may have. -/
def timedBesideHub : Hub :=
  let h := (State.reset.hub.put (F.LN_FUNC_FUNC 10) 0).put (F.LN_STAT_STATE 10) lnUP
  let h := (((h.put (F.LN_PIN_MODE 10 0) pmOUT).put F.GNO_CVALID_VALID 255).on F.BRG_CTL_EN).put (F.REED_AQCFG_BRG_RSV 1) 255
  h.modReed 1 fun e =>
    { e with
      q := [{ due := 40, tap := 0, pin := 6, v := 1, src := .ctx 0, ready := 4 }]
      asked := some ⟨0, 0, 0, {}, 0, false⟩
      seq := 1 }

/-- The record passes R158 and is in time. -/
theorem timedBesideHub_passes :
    timedBesideHub.timedRefuse
        { requestOf timedWrite with addr := timedBesideHub.laneAddr ((timedWrite.word 1).bits 31 26) } (timedWrite.word 1)
        (timedBesideHub.recTime timedWrite.hdr.adr (timedWrite.word 2)) = none ∧
      ¬ signed 64 (((timedBesideHub.reed[clusterOf (recLane (timedWrite.word 1))]).anc.toTick
        (timedBesideHub.recTime timedWrite.hdr.adr (timedWrite.word 2))).1 + 2 ^ 64 -
          ((timedBesideHub.reed[clusterOf (recLane (timedWrite.word 1))]).ctr + timedBesideHub.fld F.GNO_TWCFG_GUARD) % 2 ^ 64) < 0 := by
  decide

/-- The queue then holds the bridge's entry alone: the context's is taken back. -/
theorem timedBesideHub_served :
    ((timedBesideHub.serveTimed (requestOf timedWrite) timedWrite.hdr.adr).reed[(1 : Fin 8)]).q.length = 1 := by decide

/-- Refutes O25: its first clause appends the bridge's entry to the queue as it stood, but where a context has queued an
action in the same cycle and the entries left are no more than REEDc_AQCFG.BRG_RSV, the bridge comes first: the context's
entry is taken back and its instruction stalls (R87). The hub is the one after reset with the bridge on, lane 10 UP, the
clusters anchored, BRG_RSV = 255 and one entry that a context has queued in this tick. -/
theorem not_timedWrites : ¬ Obligations.TimedWrites := by
  unfold Obligations.TimedWrites
  intro h
  obtain ⟨queued, -⟩ := h
  obtain ⟨passes, inTime⟩ := timedBesideHub_passes
  have run := queued timedWrite _ _ ⟨[], timedBesideHub⟩ rfl rfl rfl rfl rfl rfl rfl rfl rfl (by decide) passes inTime
  obtain ⟨appended, -⟩ := (runs_iff rfl).mp run
  exact absurd (timedBesideHub_served.symm.trans (congrArg List.length appended)) (by decide)

end Sys2Proof.Machine
end

section
/-! PROOFS. PTP frames on their way, transmit stamps and the timestamp queues (O26; R166-R171, R275). -/

namespace Sys2Proof.Machine

/-! ## Timestamp units -/

theorem Hub.modTs_same (h : Hub) (l : Fin 4) (g : Ts → Ts) : (h.modTs l g).ts[l] = g h.ts[l] := Vector.getElem_set_self _

theorem Hub.modTs_ne (h : Hub) {l k : Fin 4} (e : k ≠ l) (g : Ts → Ts) : (h.modTs l g).ts[k] = h.ts[k] :=
  Vector.getElem_set_ne l.isLt k.isLt fun q => e (Fin.ext q.symm)

/-! ## Frames (R166, R275) -/

theorem ptpDelay_iff {pay : List Byte} : ptpDelay pay = true ↔ ptpType pay = 1 ∨ ptpType pay = 9 := by simp [ptpDelay]

/-- A receive stamp draws its free value and changes nothing else. -/
theorem Hub.rxStamp_hub (h : Hub) (l : Fin 4) : (h.rxStamp l).1 = { h with freeCtr := h.freeCtr + 1 } := rfl

section
variable {h : Hub} {p : Fin 4} {f : Frame}

/-- Delay request-response messages of a ring link are dropped and counted (R166). -/
theorem Hub.onPtp_delay (ring : p.val < 2) (delay : ptpDelay f.pay = true) (good : Bool) :
    h.onPtp p f good = h.modTs p fun t => { t with drop := t.drop + 1 } := if_pos ⟨ring, delay⟩

/-- A frame without a destination node is for this hub (R275). -/
theorem Hub.onPtp_here (takes : ¬ (p.val < 2 ∧ ptpDelay f.pay = true)) (here : f.hdr.dnode = 0) :
    h.onPtp p f true = (h.rxStamp p).1.ptpDeliver p f (h.rxStamp p).2 := by
  unfold Hub.onPtp
  dsimp only
  rw [if_neg takes, if_pos (.inl (by rw [here]; rfl)), if_pos rfl]

/-- A frame of another node and for another goes on to the other ring port (R275). -/
theorem Hub.onPtp_away (ring : p.val < 2) (takes : ptpDelay f.pay = false) (named : f.hdr.dnode ≠ 0)
    (away : f.hdr.dnode.toNat ≠ h.node) (single : f.hdr.dnode ≠ 255)
    (foreign : h.node ≠ 0 → f.hdr.snode.toNat ≠ h.node) :
    h.onPtp p f true = (h.rxStamp p).1.ptpForward p f (h.rxStamp p).2 true := by
  have node : (h.rxStamp p).1.node = h.node := rfl
  have named : f.hdr.dnode.toNat ≠ 0 := fun e => named (BitVec.eq_of_toNat_eq e)
  have single : f.hdr.dnode.toNat ≠ 255 := fun e => single (BitVec.eq_of_toNat_eq e)
  unfold Hub.onPtp
  dsimp only
  rw [if_neg (by simp [takes]), node, if_neg (by simp [named, away]), if_neg (by simp [away]), if_neg (by omega),
    if_neg fun e => foreign e.2.1 e.1, if_neg single]

end

theorem Hub.ptpForward_on {h : Hub} {p : Fin 4} {f : Frame} (hops : f.hdr.hops ≠ 0) (t : GTime) (good : Bool) :
    h.ptpForward p f t good =
      h.ptpTransit p (if p = 0 then 1 else 0) { f with hdr := { f.hdr with hops := f.hdr.hops - 1 } } t good := if_neg hops

theorem Hub.ptpForward_end {h : Hub} {p : Fin 4} {f : Frame} (hops : f.hdr.hops = 0) (t : GTime) (good : Bool) :
    h.ptpForward p f t good = (h.count F.RNG_HOPDROP).flag .rng F.RNG_FLAG_HOPDROP := if_pos hops

/-! ## Transmit stamps (R167, R169) -/

/-- The entry of a stamp taken now. -/
def Hub.txEntry (h : Hub) (seq : BitVec 16) (dom : Byte) (typ : BitVec 4) : TsEnt :=
  { seq := seq, dom := dom, typ := typ, t := h.stamp.2 }

/-- A stamp is within 4 ns of the Gnomon. -/
theorem Hub.stamp_near (h : Hub) :
    ∃ d : Nat, d ≤ 8 * 2 ^ 24 ∧ h.stamp.2 = GTime.ofInt ((h.gno.t.units : Int) + (d : Nat) - (4 * 2 ^ 24 : Nat)) :=
  ⟨_, Nat.lt_succ_iff.mp (Nat.mod_lt h.draw.1 (Nat.succ_pos _)), rfl⟩

theorem Hub.txStamp_room {h : Hub} {l : Fin 4} (on : h.bit (F.TS_CTL_EN l) = true) (room : (h.ts[l]).q.length < 16)
    (seq : BitVec 16) (dom : Byte) (typ : BitVec 4) :
    h.txStamp l seq dom typ = h.stamp.1.modTs l fun t => { t with q := t.q ++ [h.txEntry seq dom typ] } := by
  unfold Hub.txStamp
  rw [if_neg (by rw [on]; decide), if_pos room]
  rfl

theorem Hub.txStamp_full {h : Hub} {l : Fin 4} (on : h.bit (F.TS_CTL_EN l) = true) (full : 16 ≤ (h.ts[l]).q.length)
    (seq : BitVec 16) (dom : Byte) (typ : BitVec 4) :
    h.txStamp l seq dom typ = (h.hwSet (F.TS_TSQ_STAT_OVF l)).countSat (F.TS_TSQ_OVFCNT l) := by
  unfold Hub.txStamp
  rw [if_neg (by rw [on]; decide), if_neg (by omega)]

/-! ## The obligation -/

/-- Settles O26: each clause by the rule of its command. -/
theorem ptpFramesAndStamps : Obligations.PtpFramesAndStamps := by
  unfold Obligations.PtpFramesAndStamps
  refine ⟨fun port f s ring delay => ?delay, fun port f s here takes => ?here,
    fun port f s ring notReq notResp named away single foreign hops => ?on,
    fun port f s ring notReq notResp named away single foreign hops => ?ended, fun port seq dom typ s on room => ?stamp,
    fun port seq dom typ s on full => ?full, fun a port s admitted => ?pop, fun port dom seq s => ?expire⟩
  case delay =>
    refine (runs_iff rfl).mpr ?_
    rw [Hub.onPtp_delay ring (ptpDelay_iff.mpr delay), Hub.modTs_same]
    exact ⟨rfl, rfl, rfl, fun k ne => s.hub.modTs_ne ne _⟩
  case here =>
    refine (runs_iff rfl).mpr (Hub.onPtp_here (fun both => ?_) here)
    obtain ⟨notReq, notResp⟩ := takes both.1
    exact (ptpDelay_iff.mp both.2).elim notReq notResp
  case on =>
    refine (runs_iff rfl).mpr ?_
    rw [Hub.onPtp_away ring (by simp [ptpDelay, notReq, notResp]) named away single foreign, Hub.ptpForward_on hops]
  case ended =>
    refine (runs_iff rfl).mpr ?_
    rw [Hub.onPtp_away ring (by simp [ptpDelay, notReq, notResp]) named away single foreign, Hub.ptpForward_end hops]
    exact ⟨by simp [Hub.rxStamp_hub], Hub.flag_bit_same _ _ _ rfl, by simp [Hub.rxStamp_hub]⟩
  case stamp =>
    refine (runs_iff rfl).mpr ?_
    rw [Hub.txStamp_room on room, Hub.modTs_same]
    exact ⟨List.length_append, ⟨_, rfl, rfl, rfl, rfl, s.hub.stamp_near⟩, fun k ne => Hub.modTs_ne _ ne _, rfl⟩
  case full =>
    refine (runs_iff rfl).mpr ?_
    rw [Hub.txStamp_full on full]
    refine ⟨rfl, ?_, rfl, ?_⟩
    · rw [Hub.countSat, Hub.mark_bit, Hub.bit_put_ne]
      · exact Hub.hwSet_bit_same _ _ rfl
      · simp only [F.TS_TSQ_STAT_OVF, F.TS_TSQ_OVFCNT, Fld.key]
        omega
    · exact (((SameRegs.refl s.hub _).put (f := F.TS_TSQ_STAT_OVF port) (by simp) _).put (f := F.TS_TSQ_OVFCNT port) (by simp) _)
  case pop =>
    rw [runs_cmdDo (g := fun h => h.modTs port fun t => { t with q := t.q.drop 1 }) rfl admitted, Hub.modTs_same]
    exact ⟨rfl, fun k ne => s.hub.modTs_ne ne _, rfl⟩
  case expire =>
    refine (runs_iff rfl).mpr ?_
    rw [Hub.modTs_same]
    exact ⟨rfl, rfl, fun k ne => s.hub.modTs_ne ne _, rfl⟩

end Sys2Proof.Machine
end

section
/-! PROOFS. What the machine holds right after reset (O54). -/

namespace Sys2Proof.Machine

/-- Right after reset no field is stored, and every lane is as its table gives it. -/
theorem reset_laneFresh (n : Fin 64) : State.reset.hub.LaneFresh n := Hub.LaneFresh.of_resets (fun _ _ => rfl) n

theorem reset_fifos (n : Fin 64) : (State.reset.hub.lane n).rx.q = [] ∧ (State.reset.hub.lane n).tx.q = [] := by
  rw [Hub.lane, show State.reset.hub.lanes = Vector.replicate 64 {} from rfl]
  simp

/-- Settles O54: the lanes by the reset values of their table, the other registers by evaluating the register map at
each listed field of the reset state. -/
theorem resetValues : Obligations.ResetValues := by
  unfold Obligations.ResetValues
  intro z reads
  refine ⟨rfl, rfl, rfl, rfl, fun n => ?lanes, ?reeds, ?cores, ?queues, ?ingress, ?mailboxes, ?links, ?ringPorts, ?gno, ?swc,
    ?dram, ?brg, ?rng, ?lmp, ?cfg, ?pwr, ?clk⟩
  case lanes =>
    obtain ⟨state, func, hold⟩ := reset_laneFresh n
    exact ⟨func, state, hold, reset_fifos n⟩
  all_goals decide

end Sys2Proof.Machine
end

section
/-! PROOFS. Tile memory: verification failures and quarantine, retests, scrub steps and injected errors (O27; R178-R185,
R200). -/

namespace Sys2Proof.Machine

/-! ## Tiles -/

/-- A tile written whole reads back (R174). -/
theorem Tiles.bytes_writeFull (t : Tiles) (i : Nat) {bs : List Byte} (whole : bs.length = 256) :
    (t.writeFull i bs).bytes i = bs := by
  have := bytesAt_writeBytes t.mem (i * 256) bs
  rwa [whole] at this

/-- A tile written whole verifies (R174). -/
theorem Tiles.good_writeFull (t : Tiles) (i : Nat) {bs : List Byte} (whole : bs.length = 256) :
    (t.writeFull i bs).good i = true := by
  have check : (t.writeFull i bs).check i = crc32c bs := Sparse.get_set_same zeroCheck t.chk i _
  rw [Tiles.good, check, t.bytes_writeFull i whole, beq_self_eq_true]

theorem Tiles.quarantined_of_entry {t : Tiles} {k : Fin 64} {e : QEnt} (entry : t.quar[k] = some e) :
    t.quarantined e.tile = true :=
  List.any_eq_true.mpr ⟨some e, Vector.mem_toList_iff.mpr (Vector.mem_of_getElem entry), by simp⟩

/-- Entry `k` of the quarantine table replaced. -/
def Tiles.putQuar (t : Tiles) (k : Fin 64) (q : Option QEnt) : Tiles := { t with quar := t.quar.set k q }

theorem Tiles.putQuar_same (t : Tiles) (k : Fin 64) (q : Option QEnt) : (t.putQuar k q).quar[k] = q :=
  Vector.getElem_set_self k.isLt

theorem Tiles.putQuar_ne (t : Tiles) {k j : Fin 64} (q : Option QEnt) (ne : j ≠ k) : (t.putQuar k q).quar[j] = t.quar[j] :=
  Vector.getElem_set_ne k.isLt j.isLt (by omega)

/-! ## A verification that fails (R179-R183) -/

theorem LogOnly.tl {h g : Hub} (p : LogOnly h g) : g.tl = h.tl := by rw [p.parts]

theorem Hub.bit_setTl (h : Hub) (t : Tiles) (f : Fld) : ({ h with tl := t } : Hub).bit f = h.bit f := rfl

theorem LogOnly.bit {h g : Hub} (p : LogOnly h g) {f : Fld} (out : f.notErr) : g.bit f = h.bit f := by
  rw [Hub.bit_eq, p.regs f out, Hub.bit_eq]

/-- The first part of `tileFail`: the failure is logged, counted and flagged (R179). -/
def Hub.failNoted (h : Hub) (i : Nat) : Hub :=
  ((h.raise 2 Block.tile.unit causeCHECK (i * 256)).countSat F.TILE_FAILCNT).flag .tile F.TILE_FLAG_FAIL

theorem Hub.countSat_tl (h : Hub) (f : Fld) (n : Nat) : (h.countSat f n).tl = h.tl := rfl

theorem Hub.countSat_lanes (h : Hub) (f : Fld) (n : Nat) : (h.countSat f n).lanes = h.lanes := rfl

theorem Hub.countSat_now (h : Hub) (f : Fld) (n : Nat) : (h.countSat f n).now = h.now := rfl

section
variable {h : Hub} {i cons : Nat}

theorem Hub.tileFail_eq : h.tileFail i cons = (h.failNoted i).quarantine i cons := rfl

theorem Hub.failNoted_flag : (h.failNoted i).bit F.TILE_FLAG_FAIL = true := Hub.flag_bit_same _ _ _ rfl

theorem Hub.failNoted_log : LogOnly h (h.raise 2 Block.tile.unit causeCHECK (i * 256)) :=
  h.raise_only 2 _ _ _ _ _ _ _ (.inl (by decide))

theorem Hub.failNoted_tl : (h.failNoted i).tl = h.tl := by
  rw [Hub.failNoted, Hub.flag_tl, Hub.countSat_tl, Hub.failNoted_log.tl]

theorem Hub.failNoted_lanes : (h.failNoted i).lanes = h.lanes := by
  rw [Hub.failNoted, Hub.flag_lanes, Hub.countSat_lanes, Hub.lanes_of_fieldView Hub.failNoted_log.fieldView]

theorem Hub.failNoted_now : (h.failNoted i).now = h.now := by
  rw [Hub.failNoted, Hub.flag_now, Hub.countSat_now, Hub.now_of_fieldView Hub.failNoted_log.fieldView]

/-- A failing tile that has its entry already gets no other. -/
theorem Hub.tileFail_held (held : h.tl.quarantined i = true) : h.tileFail i cons = h.failNoted i := by
  rw [Hub.tileFail_eq, Hub.quarantine, if_pos (by rw [Hub.failNoted_tl, held])]

/-- The last part of `quarantine`: the highest count of entries, the warning at WARN of them and the flag at 64 (R183). -/
def Hub.quarNoted (h : Hub) (i : Nat) : Hub :=
  let g := h.peak F.TILE_QSTAT_PEAK h.tl.held
  let w := g.fld F.TILE_QCFG_WARN
  let g := if h.tl.held = w ∧ 1 ≤ w ∧ w ≤ 64 then
      (g.flag .tile F.TILE_FLAG_QWARN).raise 1 Block.tile.unit causeLIMIT i
    else g
  if h.tl.held = 64 then g.flag .tile F.TILE_FLAG_QFULL else g

theorem Hub.quarNoted_tl : (h.quarNoted i).tl = h.tl := by
  unfold Hub.quarNoted
  have warned (g : Hub) : (g.raise 1 Block.tile.unit causeLIMIT i).tl = g.tl :=
    (g.raise_only 1 _ _ _ _ _ _ _ (.inl (by decide))).tl
  dsimp only
  split <;> split <;> simp only [Hub.peak, Hub.put_tl, Hub.flag_tl, warned]

theorem Hub.quarNoted_fail : (h.quarNoted i).bit F.TILE_FLAG_FAIL = h.bit F.TILE_FLAG_FAIL := by
  have warned (g : Hub) : (g.raise 1 Block.tile.unit causeLIMIT i).bit F.TILE_FLAG_FAIL = g.bit F.TILE_FLAG_FAIL :=
    (g.raise_only 1 _ _ _ _ _ _ _ (.inl (by decide))).bit (.inr (by decide))
  have flagged (g : Hub) {f : Fld} (other : F.TILE_FLAG_FAIL.key ≠ f.key) :
      (g.flag .tile f).bit F.TILE_FLAG_FAIL = g.bit F.TILE_FLAG_FAIL := by
    rw [Hub.bit_eq, Hub.flag_fld, ← Hub.bit_eq, Hub.bit_put_ne _ _ _ _ other]
  have peaked (n : Nat) : (h.peak F.TILE_QSTAT_PEAK n).bit F.TILE_FLAG_FAIL = h.bit F.TILE_FLAG_FAIL :=
    Hub.bit_put_ne _ _ _ _ (by decide)
  unfold Hub.quarNoted
  dsimp only
  split <;> split <;> simp only [warned, peaked, flagged _ (show F.TILE_FLAG_FAIL.key ≠ F.TILE_FLAG_QWARN.key by decide),
    flagged _ (show F.TILE_FLAG_FAIL.key ≠ F.TILE_FLAG_QFULL.key by decide)]

/-- A tile goes into the lowest free entry (R181). -/
theorem Hub.quarantine_free {k : Fin 64} (fresh : h.tl.quarantined i = false) (free : h.tl.quar[k] = none)
    (lowest : ∀ j : Fin 64, j.val < k.val → (h.tl.quar[j]).isSome) :
    ∃ e : QEnt, e.tile = i ∧ h.quarantine i cons = Hub.quarNoted { h with tl := h.tl.putQuar k (some e) } i := by
  have pick : ((List.finRange 64).find? fun k => (h.tl.quar[k]).isNone) = some k := by
    refine List.find?_eq_some_iff_getElem.mpr ⟨by rw [free]; rfl, k.val, by simp, by simp, fun j before => ?_⟩
    simpa [Option.isSome_iff_ne_none] using lowest ⟨j, by omega⟩ before
  refine ⟨{ tile := i, cons := cons, part := h.partOf i, at_ := h.now }, rfl, ?_⟩
  rw [Hub.quarantine, if_neg (by simp [fresh]), pick]
  rfl

/-- A failing tile without an entry gets one, and nothing else of tile memory changes. -/
theorem Hub.tileFail_fresh {k : Fin 64} (fresh : h.tl.quarantined i = false) (free : h.tl.quar[k] = none)
    (lowest : ∀ j : Fin 64, j.val < k.val → (h.tl.quar[j]).isSome) :
    ∃ e : QEnt, e.tile = i ∧ (h.tileFail i cons).tl = h.tl.putQuar k (some e) ∧
      (h.tileFail i cons).bit F.TILE_FLAG_FAIL = true := by
  have tl : (h.failNoted i).tl = h.tl := Hub.failNoted_tl
  obtain ⟨e, tile, enters⟩ := Hub.quarantine_free (h := h.failNoted i) (cons := cons) (k := k) (by rw [tl, fresh])
    (by simp only [tl, free]) (by simpa only [tl] using lowest)
  rw [tl] at enters
  rw [Hub.tileFail_eq, enters, Hub.quarNoted_tl, Hub.quarNoted_fail, Hub.bit_setTl]
  exact ⟨e, tile, rfl, Hub.failNoted_flag⟩

end

/-! ## Retests (R182) -/

section
variable {h : Hub} {i : Fin 64} {e : QEnt} (pool : e.part = 0) (notPerm : e.perm = false) (due : e.at_ + 4000000000 ≤ h.now)
include pool notPerm due

/-- Ten seconds have passed for an entry of the frame pool that is not permanent. -/
theorem Hub.retest_due : ¬ (e.part ≠ 0 ∨ e.perm = true ∨ h.now < e.at_ + 4000000000) := by
  rintro (other | perm | early)
  · exact other pool
  · rw [notPerm] at perm
    cases perm
  · exact absurd due (Nat.not_le.mpr early)

variable (entry : h.tl.quar[i] = some e)
include entry

/-- A retest that both patterns pass. -/
theorem Hub.retest_pass : h.retest i none =
    { h with tl := (h.tl.putQuar i none).writeFull e.tile (List.replicate 256 0xAA) } := by
  rw [Hub.retest, entry]
  exact if_neg (Hub.retest_due pool notPerm due)

/-- A retest that a pattern fails counts a try in its entry; the failure is noted as any other (R179). -/
theorem Hub.retest_fail (second : Bool) : ∃ (g : Hub) (t : Tiles), h.retest i (some second) =
      { g with tl := t.putQuar i (some { e with tries := e.tries + 1, perm := decide (3 ≤ e.tries + 1), at_ := h.now }) } ∧
    g.bit F.TILE_FLAG_FAIL = true ∧ g.lanes = h.lanes ∧ t.used = h.tl.used ∧ t.quar = h.tl.quar := by
  obtain ⟨pattern, chosen⟩ : ∃ b : Byte, b = if second then 0xAA else 0x55 := ⟨_, rfl⟩
  have held : (h.badPattern e.tile pattern).tl.quarantined e.tile = true := Tiles.quarantined_of_entry entry
  refine ⟨(h.badPattern e.tile pattern).failNoted e.tile, (h.badPattern e.tile pattern).tl, ?_, Hub.failNoted_flag,
    Hub.failNoted_lanes, rfl, rfl⟩
  rw [Hub.retest, entry]
  dsimp only
  rw [if_neg (Hub.retest_due pool notPerm due), ← chosen, Hub.tileFail_held held, Hub.failNoted_tl, Hub.failNoted_now]
  rfl

end

/-! ## Scrub steps (R184, R185) -/

section
variable {h : Hub} (on : h.bit F.TILE_CTL_SCRUB_EN = true) (next : h.tl.scrub + 1 < 16384)
include on next

/-- Before the last tile a step judges its tile and goes on to the next. -/
theorem Hub.scrubStep_next : h.scrubStep false =
    { (h.verify h.tl.scrub 0).1 with tl := { (h.verify h.tl.scrub 0).1.tl with scrub := h.tl.scrub + 1 } } := by
  simp [Hub.scrubStep, on, next, Nat.mod_eq_of_lt next]

end

/-- The scrubber judges a tile by its check alone. -/
theorem Hub.verify_scrub_good {h : Hub} {t : Nat} (good : h.tl.good t = true) : (h.verify t 0).1 = h := by
  simp [Hub.verify, good]

theorem Hub.verify_scrub_bad {h : Hub} {t : Nat} (bad : h.tl.good t = false) : (h.verify t 0).1 = h.tileFail t 0 := by
  simp [Hub.verify, bad]

/-! ## Injected errors (R200) -/

/-- The bit the command sets, GO, lies outside the tile's number. -/
theorem injectWord_tile (v : W32) : (v ||| 0x80000000#32).bits 13 0 = v.bits 13 0 := by
  rw [W32.bits, W32.bits, BitVec.toNat_or, Nat.shiftRight_zero, Nat.shiftRight_zero, Nat.or_mod_two_pow]
  exact Nat.or_zero _

theorem Hub.tileInject_go (h : Hub) (v : W32) : h.tileInject (v ||| 0x80000000#32) =
    { h.put F.TILE_INJECT_TILE (v.bits 13 0) with
      tl := { h.tl with chk := h.tl.chk.set zeroCheck (v.bits 13 0) (h.tl.check (v.bits 13 0) ^^^ 1#32) } } := by
  have go : (v ||| 0x80000000#32).bit 31 = true := by
    rw [W32.bit, BitVec.toNat_or, Nat.testBit_or]
    exact Bool.or_true _
  rw [Hub.tileInject, injectWord_tile]
  simp [go]

/-! ## The obligation -/

/-- Settles O27: a retest, a scrub step and an injection each by the equation of its case; a failure's log, count and flags
leave the tiles alone. -/
theorem tileMemoryCommands : Obligations.TileMemoryCommands := by
  unfold Obligations.TileMemoryCommands
  refine ⟨fun i e s entry pool notPerm due => ?pass, fun i second e s entry pool notPerm due => ?fail,
    fun s on good next => ?scrubGood, fun k s on bad fresh next free lowest => ?scrubBad, fun s => ?yields,
    fun a v s admitted => ?inject⟩
  case pass =>
    refine (runs_iff rfl).mpr ?_
    rw [Hub.retest_pass pool notPerm due entry]
    have whole : (List.replicate 256 (0xAA : Byte)).length = 256 := List.length_replicate
    generalize List.replicate 256 (0xAA : Byte) = pattern at whole ⊢
    exact ⟨Tiles.putQuar_same _ _ _, Tiles.bytes_writeFull _ _ whole, Tiles.good_writeFull _ _ whole,
      rfl, rfl, fun k ne => Tiles.putQuar_ne _ _ ne⟩
  case fail =>
    refine (runs_iff rfl).mpr ?_
    obtain ⟨g, t, failed, flag, lanes, used, quar⟩ := Hub.retest_fail pool notPerm due entry second
    rw [failed]
    refine ⟨Tiles.putQuar_same _ _ _, (Hub.bit_setTl _ _ _).trans flag, used, lanes, fun k ne => ?_⟩
    rw [← quar]
    exact Tiles.putQuar_ne _ _ ne
  case scrubGood =>
    refine (runs_iff rfl).mpr ?_
    rw [Hub.scrubStep_next on next, Hub.verify_scrub_good good]
  case scrubBad =>
    refine (runs_iff rfl).mpr ?_
    rw [Hub.scrubStep_next on next, Hub.verify_scrub_bad bad]
    obtain ⟨e, tile, tl, flag⟩ := Hub.tileFail_fresh (cons := 0) fresh free lowest
    rw [tl]
    refine ⟨rfl, rfl, ?_, (Hub.bit_setTl _ _ _).trans flag⟩
    rw [← tile]
    exact Tiles.quarantined_of_entry (Tiles.putQuar_same _ k _)
  case yields =>
    refine (runs_iff rfl).mpr ?_
    simp [Hub.scrubStep]
  case inject =>
    rw [runs_cmdDo (g := fun h => h.tileInject (v ||| 0x80000000#32)) rfl admitted, Hub.tileInject_go]
    refine ⟨Sparse.get_set_same _ _ _ _, rfl, ?_, rfl, ?_, fun i ne => Sparse.get_set_ne _ _ _ _ ne⟩
    · exact (Hub.fld_put_same _ _ _).trans (Nat.mod_mod _ _)
    · exact ((SameRegs.refl s.hub _).put (f := F.TILE_INJECT_TILE) (by simp) _).congr rfl

end Sys2Proof.Machine
end

section
/-! PROOFS. Frames that leave the switch by a link (O28; R193): what the link counts as it sends may raise a flag whose
interrupt is routed to MSI-X. -/

namespace Sys2Proof.Machine

/-! ## What a link sends (R193, R251) -/

section
variable {h : Hub} {l : Fin 4}

/-- Without a gate list no frame is too long. -/
theorem Hub.dropLong_ungated (ungated : h.bit (F.X_GCL_CTL_EN l) = false) : h.dropLong l = h := by
  have fits (f : Frame) : h.tooLong l f = false := by simp [Hub.tooLong, Hub.gateLongest, ungated]
  refine List.foldlRecOn (motive := fun g => g = h) _ _ rfl fun g same c _ => ?_
  subst same
  dsimp only
  split
  · rw [if_neg (by simp [fits])]
  · rfl

/-- On a link that is UP, not paused and not gated a frame of any class may start. -/
theorem Hub.mayStart_ungated (up : h.linkIsUp l = true) (free : h.fld (F.X_STAT_PAUSED_RX l) = 0)
    (ungated : h.bit (F.X_GCL_CTL_EN l) = false) (c len : Nat) : h.mayStart l c len = true := by
  simp [Hub.mayStart, up, free, Hub.gateHold, Hub.gateLeft, ungated]

/-- TC7 goes first. -/
theorem Hub.nextFrame_tc7 {p : Fin 7} {ok : Nat → Bool} {f : QFrame} (starts : ok 7 = true)
    (ready : headReady h.sw.q[qOf p 7] = some f) : h.nextFrame p ok = (some f, h) := by
  have first : ([7, 6, 5, 4, 3].find? fun c => ok c && (headReady h.sw.q[qOf p c]).isSome) = some 7 :=
    List.find?_cons_of_pos (by rw [starts, ready]; rfl)
  rw [Hub.nextFrame, first]
  exact congrArg (·, h) ready

theorem Tiles.quarPart_of_free {t : Tiles} {i : Nat} (free : t.quarantined i = false) : t.quarPart i = false := by
  simp only [Tiles.quarPart, Tiles.quarantined, List.any_eq_false] at free ⊢
  intro q mem part
  refine free q mem ?_
  cases q with
  | none => exact part
  | some e => exact (Bool.and_eq_true_iff.mp part).1

/-- A tile that holds its check, in no quarantine and with a sound link, verifies for every consumer (R178, R181, R188). -/
theorem Hub.verify_sound {i : Nat} (good : h.tl.good i = true) (free : h.tl.quarantined i = false)
    (linked : h.tl.linkBad.contains i = false) (cons : Nat) : h.verify i cons = (h, true) := by
  simp only [Hub.verify, good, Tiles.quarPart_of_free free, linked]
  simp

theorem Hub.verifyRun_sound {ts : List Nat} (sound : ∀ i ∈ ts, ∀ cons, h.verify i cons = (h, true)) (cons : Nat) :
    h.verifyRun ts cons = (h, none) := by
  refine List.foldlRecOn (motive := fun a => a = (h, none)) _ _ rfl fun a same t mem => ?_
  subst same
  simp [sound t.1 (List.fst_mem_of_mem_zipIdx mem)]

/-- A link that may send a ready frame of TC7 whose tiles and links are sound takes it out of its queue and sends it (R193). -/
theorem Hub.egressLink_tc7 {f : QFrame} {r : List QFrame} (up : h.linkIsUp l = true) (free : h.fld (F.X_STAT_PAUSED_RX l) = 0)
    (ungated : h.bit (F.X_GCL_CTL_EN l) = false) (queue : h.sw.q[qOf (portOf l) 7] = f :: r) (here : f.spill = none)
    (still : f.copying = false) (tc : f.hdr.tc = 7) (typ : f.hdr.typ ≠ tPTP)
    (sound : ∀ i ∈ f.tiles, ∀ cons, h.verify i cons = (h, true)) :
    h.egressLink l = (h.dequeue (qOf (portOf l) 7) f).emitOn l (h.frameOf f) true := by
  have ready : headReady h.sw.q[qOf (portOf l) 7] = some f := by simp [queue, headReady, here, still]
  have picked (ok : Nat → Bool) (starts : ok 7 = true) : h.nextFrame ⟨l.val, by omega⟩ ok = (some f, h) :=
    Hub.nextFrame_tc7 starts ready
  have starts : ((headReady h.sw.q[qOf (portOf l) 7]).any fun g => h.mayStart l 7 g.len) = true := by
    rw [ready]
    exact Hub.mayStart_ungated up free ungated 7 f.len
  have kept (g : Hub) : g.ptpOut l f (h.frameOf f) = (g, h.frameOf f) := if_pos typ
  unfold Hub.egressLink
  dsimp only
  rw [Hub.dropLong_ungated ungated, picked _ starts]
  dsimp only
  rw [Hub.verifyRun_sound sound]
  dsimp only
  rw [kept, tc]
  rfl

end

theorem exec_frameEgress_link (l : Fin 4) (s : State) : exec (.frameEgress (portOf l)) s = s.goes (s.hub.egressLink l) :=
  congrArg s.goes (dif_pos l.isLt)

/-! ## The obligation -/

/-- A DRONE frame of 8 bytes that waits in tile 0. -/
def waitingFrame : QFrame :=
  { hdr :=
      { typ := tDRONE, tc := 7, x := true, hops := 4, w := false, len := 8, dnode := 255, dmem := 0, snode := 1, smem := 0,
        tag := 0, d := false, np := false, seq := 0, adr := 0 }
    len := 8
    tiles := [0]
    ing := 1 }

/-- Link 0 is UP and has sent 2 to the 31 less one bytes; its flag CNT_HALF is enabled and routed to MSI-X (R264, R459).
The frame waits in its queue of TC7, eight zero bytes long. -/
def halfCountHub : Hub :=
  let h := (State.reset.hub.on F.SWC_CTL_EN).put (F.X_STAT_STATE 0) linkUP
  let h := h.put (F.X_TXBYTE 0) (2 ^ 31 - 1)
  let h := (h.put ⟨linkBase 0 + 0xC, 0, 32⟩ (2 ^ 7)).on ⟨0x30200 + 4 * srcOf (.link 0), 29, 1⟩
  let h := { h with tl := ({ used := [0] } : Tiles).writeFull 0 (List.replicate 256 0) }
  h.setQ (qOf (portOf 0) 7) [waitingFrame]

theorem halfCountHub_good : halfCountHub.tl.good 0 = true := Tiles.good_writeFull _ 0 List.length_replicate

theorem halfCountHub_free : halfCountHub.tl.quarantined 0 = false := by decide

theorem waitingFrame_sound : ∀ i ∈ waitingFrame.tiles, ∀ cons, halfCountHub.verify i cons = (halfCountHub, true) := by
  intro i mem cons
  obtain rfl : i = 0 := by simpa [waitingFrame] using mem
  exact Hub.verify_sound halfCountHub_good halfCountHub_free rfl cons

/-- A vector leaves beside the frame. -/
theorem halfCountHub_emit_out :
    ((halfCountHub.dequeue (qOf (portOf 0) 7) waitingFrame).emitOn 0 (halfCountHub.frameOf waitingFrame) true).out.length = 2 := by
  decide

theorem halfCountHub_egress_out : (halfCountHub.egressLink 0).out.length = 2 := by
  rw [Hub.egressLink_tc7 (r := []) (by decide) (by decide) (by decide) rfl rfl rfl rfl (by decide) waitingFrame_sound]
  exact halfCountHub_emit_out

/-- Refutes O28: its clause on FRAME_EGRESS of a link gives the outputs as the frame and nothing else. What the link counts
as it sends may carry bit 31 of a counter, which raises X_FLAG.CNT_HALF (R264), and where that flag is enabled and routed to
MSI-X a vector leaves as well (R459). The hub is the one after reset with the switch on, link 0 UP with 2 to the 31 less one
bytes sent, that flag enabled and routed, and a sound frame in the link's queue of TC7. -/
theorem not_switchQueues : ¬ Obligations.SwitchQueues := by
  unfold Obligations.SwitchQueues
  intro h
  obtain ⟨-, -, -, -, egress, -⟩ := h
  have good : (waitingFrame.tiles.all fun i => halfCountHub.tl.good i && !halfCountHub.tl.quarantined i) = true := by
    simp [waitingFrame, halfCountHub_good, halfCountHub_free]
  have run := egress 0 waitingFrame [] ⟨[], halfCountHub⟩ (by decide) (by decide) (by decide) rfl rfl rfl rfl (by decide)
    (by decide) good
  obtain ⟨-, oneOutput, -⟩ := (runs_iff (exec_frameEgress_link 0 _)).mp run
  have lengths : 2 = halfCountHub.out.length + 1 := halfCountHub_egress_out.symm.trans (congrArg List.length oneOutput)
  exact absurd lengths (by decide)

end Sys2Proof.Machine
end
